-- ==== Sys2Proof/Word.lean ====
section
/-! DEFINITION. The word types of the package: bytes and the 32-bit and 64-bit words of its registers, records and
descriptors, all little-endian (R5). -/
namespace Sys2Proof

/-- One byte of memory or of a record. -/
abbrev Byte := BitVec 8
/-- A 32-bit word: a binary32 or INT32 lane, a 32-bit register. -/
abbrev Word32 := BitVec 32
/-- A 64-bit register or record field. -/
abbrev Word64 := BitVec 64

/-- One of the four compute dies CD0 to CD3 (R8). -/
abbrev Die := Fin 4
/-- One of the 64 clusters of a die (R1, R8). -/
abbrev Cluster := Fin 64
/-- A function of the host port: 0 is the physical function, n + 1 the virtual function of partition n (R248). -/
abbrev Func := Fin 65
/-- One of the 64 partitions (R19). -/
abbrev Part := Fin 64
/-- A queue number: Q0 to Q65535, and 65,536 + f for the admin queue of function f (R15, R273). -/
abbrev Qn := Fin 65601

end Sys2Proof
end

