-- ==== Sys2Proof/Syntax.lean ====
section
/-! DEFINITION. The commands of the block: one constructor per row of the table of operations and events, with the
operands the row's rule takes from outside and the values the environment supplies (log entry 1). -/
namespace Sys2Proof

/-- An end of a die-to-die link: 3 × die + port for the ports of the compute dies, 12 + die for the hub die's end of that
die's hub link (R224, ZG_D2D). -/
abbrev LinkEnd := Fin 16

/-- A frame that a unit of a node gives an end to send (R225, R229): the traffic class, the source unit, the class-specific field, the
die it is bound for (4 is HD), and its payload. -/
structure D2dUnit where
  cls : Fin 5
  unit : BitVec 5
  offset : BitVec 28
  dest : Fin 5
  data : List Byte
  deriving DecidableEq, Repr

/-- What a sender does (R225, R228 to R231, R237): an IDLE or PROBE frame of a strand; the next frame of a stream, or a frame of another
unit, joins the frames that wait for the end, and the next of those is dealt; or the next of those is dealt. -/
inductive D2dSend where
  | idle (k : Fin 64)
  | probe (k : Fin 64)
  | stream (recv : Fin 4) (num : BitVec 10) (cl : Fin 64) (blocks : Fin 8)
  | data (f : D2dUnit)
  | deal
  deriving DecidableEq, Repr

/-- A codeword as it reaches a lane of a Wefin port (R355, R356): the 20 blocks of its message, as corrected or as received, and how many
of its 544 symbols were wrong. -/
structure LaneWord where
  lane : Fin 4
  blocks : List (BitVec 257)
  wrong : BitVec 10
  deriving DecidableEq, Repr

/-- What the environment decides of a die-to-die frame that arrives: whether its CRC fits, and its ACK_CRC (R225, R226). -/
structure D2dArrival where
  crcOk : Bool
  ackOk : Bool
  deriving DecidableEq, Repr

/-- A PCIe capability of the port (R249). -/
inductive Capability where
  | pciExpress | powerManagement | msix | advancedErrorReporting | srIov | ari | deviceSerial | physicalLayer16 | physicalLayer32
  | physicalLayer64 | laneMargining | dataLinkFeature | flitLogging | vendorSpecific
  deriving DecidableEq, Repr

/-- A field of a function's configuration space that the manual gives a value (R248 to R250, R602). -/
inductive ConfigField where
  | vendorId | deviceId | revisionId | classCode | firstVfOffset | vfStride | totalVfs | vfEnable | busMaster | maxPayload
  | maxReadRequest | msixVectors | serial | vsecId | vsecRev | vsecLength | vsecZgId | vsecMap
  | offers (c : Capability)
  deriving DecidableEq, Repr

/-- What the host reads of a function: bytes from an offset of BAR0 or BAR2, or a field of configuration space. -/
inductive HostRead where
  | bar0 (off : BitVec 21)
  | bar2 (off : BitVec 21)
  | config (x : ConfigField)
  deriving DecidableEq, Repr

/-- An offset of BAR0, or of BAR2, that the host writes. -/
structure BarOffset where
  bar2 : Bool
  off : BitVec 21
  deriving DecidableEq, Repr

/-- What a write of a function's configuration space sets: Bus Master Enable, and at the physical function VF Enable (R250, R283). -/
structure ConfigWrite where
  busMaster : Bool
  vfEnable : Bool
  deriving DecidableEq, Repr

/-- A run of SRL_ROOT: the command's SUBMIT_SEQ and the residue mismatches it meets, as for SRL_UPDATE (R448). -/
structure RootRun where
  seq : Word64
  res : Fin 3
  deriving DecidableEq, Repr

/-- A symbol error that strikes a block of HBM: its position, 0 to 63 data and 64 to 67 check symbols, and the bits that
are wrong (R203). -/
structure SymErr where
  pos : Fin 68
  bits : BitVec 8
  deriving DecidableEq, Repr

/-- What an access reads or writes. -/
inductive HbmOp where
  | read (n : BitVec 16)
  | write (data : List Byte)
  deriving DecidableEq, Repr

/-- How the map line or the frame-table line of an access is found (R219): good, uncorrectable in the primary copy, or
lost in both. -/
inductive LineFault where
  | good | mapCopy | mapLost | frameCopy | frameLost | pageTable (line : Fin 3)
  deriving DecidableEq, Repr


/-- A failure a self-test finds: its test code, and the cluster and array concerned, array 8 being S and 9 none (R470). -/
structure TestFail where
  test : BitVec 8
  cl : Fin 64
  arr : Fin 10
  deriving DecidableEq, Repr

/-- Energies of a compute die's rails over 1 µs, in nJ: VDD_CORE, HBM supply, SerDes supply (R496). -/
structure Rails where
  core : BitVec 32
  hbm : BitVec 32
  serdes : BitVec 32
  deriving DecidableEq, Repr

/-- What one queue's commands did on a die in an interval of 1 µs (R515, R516): beats of arrays that took in operands,
vector-engine beats that issued, Sorrel element beats, collective beats that combined or sent, Teasel beats, beats of
feeders, drains and Campion that moved data; 64-byte HBM blocks moved; DATA flits sent. No queue: scrubbing, refresh, page
walks, the presence map and Betony, or transit, IDLE, LINK_MGMT, TIME and LSA flits. -/
structure Activity where
  die : Fin 4
  queue : Option (Fin 65536)
  arrays : BitVec 24
  vector : BitVec 24
  sorrel : BitVec 24
  coll : BitVec 24
  teasel : BitVec 24
  data : BitVec 24
  blocks : BitVec 24
  flits : BitVec 24
  deriving DecidableEq, Repr

/-- A common command code of the sideband with what it carries (R561): dynamic addresses, event bits, the defining byte of
RSTACT. -/
inductive Ccc where
  | entdaa (addr : BitVec 7)
  | setdasa (static addr : BitVec 7)
  | rstdaa
  | enec (events : Byte)
  | disec (events : Byte)
  | getpid
  | getbcr
  | getdcr
  | getstatus
  | getmwl
  | getmrl
  | rstact (action : Byte)
  deriving DecidableEq, Repr

/-- What a training of links and stacks finds (R185, R232): the strands that stay out, as (link, strand) with links 0 to 3 the
ring edges at port 0 of those dies and 4 to 7 the hub links; the wires that show an error, as receiving end, strand and wire; the
stacks that train at 6.4 Gb/s only; those that do not train. -/
structure Training where
  down : List (Fin 8 × Fin 64)
  wires : List (LinkEnd × Fin 64 × Fin 66) := []
  slow : List (Fin 16)
  dead : List (Fin 16)
  deriving DecidableEq, Repr

/-- What starts a reset (R580): the write of ZG_BOOT_CTRL by a function, or what the package has found by itself. -/
inductive ResetBy where
  | write (f : Fin 65) (value : BitVec 32)
  | itself
  deriving DecidableEq, Repr

/-- Where an uncorrectable error of hub SRAM falls (R585): queue, doorbell, event-ring or twin-table state; the presence-map
cache line of a frame of a die; a slot of the alarm table, the oldest record of
the log or the trace FIFO; a sideband buffer, the emulation queues or an island mailbox. -/
inductive SramRegion where
  | queues
  | presence (die : Fin 4) (frame : BitVec 17)
  | alarms (slot : BitVec 16)
  | logFifo
  | traceFifo
  | sideband
  | emulation
  | mailbox
  deriving DecidableEq, Repr

/-- Who writes the shadow bank of a banked table (R173, R177): a dispatched command, or Betony with a route table. -/
inductive ShadowWriter where
  | command (q : Fin 65601) (seq : BitVec 64)
  | plan
  deriving DecidableEq, Repr

/-- A banked table that a flip can ask to copy back (R171, R175, R177): a Teasel map slot, a partition's page tables, the
member list of a group. -/
inductive BankedTable where
  | slot (die : Fin 4) (cl : Fin 64) (k : Fin 16)
  | pageTables (p : Fin 64)
  | members (g : BitVec 12)
  deriving DecidableEq, Repr

/-- A command. -/
inductive Instr where
  /-- BEAT_WINDOW_PUBLISH (R28): At the end of each 1,000 ns window, the beat-rate monitors publish the four quadrant counts, their minimum, the end timestamp and the window sequence as one set. -/
  | beatWindowPublish (die : Die) (q0 : BitVec 16) (q1 : BitVec 16) (q2 : BitVec 16) (q3 : BitVec 16)
  /-- REPLICA_CORRECTION (R33): Once every microsecond, each compute die's timestamp replica is corrected from the hub timebase. -/
  | replicaCorrection (die : Die)
  /-- REFCLK_LOSS (R584): REFCLK shows no edge for 100 ns: the timebase runs on the internal oscillator, dispatch is held, stacks enter self refresh, ports and the host link go down, and dispatched commands abort. -/
  | refclkLoss
  /-- REFCLK_RETURN (R584): REFCLK has been present without a break for 1 ms: event 0x0F.0x07 is raised and a warm reset begins. -/
  | refclkReturn
  /-- SERVICE_MODE_CHANGE (R69): At a command boundary of the die, a requested change between reduced and normal service takes effect, and ZG_FMT_SERVICE and ZG_FMT_SVC_STAMP change together. -/
  | serviceModeChange (die : Die)
  /-- END (R152): The vector instruction END ends the program in the cluster. -/
  | endProg (die : Die) (cl : Cluster)
  /-- BR (R143): Relative branch of a vector program. -/
  | br (die : Die) (cl : Cluster) (target : BitVec 12)
  /-- BNZ (R143): Branch of a vector program taken when the named scalar register is not zero. -/
  | bnz (die : Die) (cl : Cluster) (xs : Fin 32) (target : BitVec 12)
  /-- LOOP (R144): Runs the next BODY instructions X[XC] times, counted once at entry. -/
  | loop (die : Die) (cl : Cluster)
  /-- XADDI (R143): Scalar add of an immediate. -/
  | xaddi (die : Die) (cl : Cluster) (xd : Fin 32) (xa : Fin 32) (imm : Word64)
  /-- XADD (R143): Scalar add. -/
  | xadd (die : Die) (cl : Cluster) (xd : Fin 32) (xa : Fin 32) (xb : Fin 32)
  /-- XSUB (R143): Scalar subtract. -/
  | xsub (die : Die) (cl : Cluster) (xd : Fin 32) (xa : Fin 32) (xb : Fin 32)
  /-- XMUL (R143): Scalar multiply. -/
  | xmul (die : Die) (cl : Cluster) (xd : Fin 32) (xa : Fin 32) (xb : Fin 32)
  /-- XSHL (R143): Scalar shift left. -/
  | xshl (die : Die) (cl : Cluster) (xd : Fin 32) (xa : Fin 32) (xb : Fin 32)
  /-- XSHR (R143): Scalar shift right. -/
  | xshr (die : Die) (cl : Cluster) (xd : Fin 32) (xa : Fin 32) (xb : Fin 32)
  /-- XLI (R143): Loads a 48-bit signed immediate into a scalar register. -/
  | xli (die : Die) (cl : Cluster) (xd : Fin 32) (imm : BitVec 48)
  /-- FADD (R145): Binary32 add, rounded once in RNE. -/
  | fadd (die : Die) (cl : Cluster)
  /-- FMUL (R145): Binary32 multiply, with an optional negated product. -/
  | fmul (die : Die) (cl : Cluster)
  /-- FMA (R145): Fused multiply-add, formed exactly and rounded once. -/
  | fma (die : Die) (cl : Cluster)
  /-- FMIN (R145): Binary32 minimum, with −0 ordered below +0. -/
  | fmin (die : Die) (cl : Cluster)
  /-- FMAX (R145): Binary32 maximum, with −0 ordered below +0. -/
  | fmax (die : Die) (cl : Cluster)
  /-- FABS (R145): Clears the sign bit of each non-NaN lane. -/
  | fabs (die : Die) (cl : Cluster)
  /-- FNEG (R145): Inverts the sign bit of each non-NaN lane. -/
  | fneg (die : Die) (cl : Cluster)
  /-- FCMP (R145): Binary32 compare under the predicate, writing a lane mask. -/
  | fcmp (die : Die) (cl : Cluster)
  /-- IADD (R147): INT32 add, wrapping. -/
  | iadd (die : Die) (cl : Cluster)
  /-- ISUB (R147): INT32 subtract, wrapping. -/
  | isub (die : Die) (cl : Cluster)
  /-- IMUL (R147): INT32 multiply, keeping the low 32 bits. -/
  | imul (die : Die) (cl : Cluster)
  /-- ISHL (R147): INT32 shift left, with the count taken modulo 32. -/
  | ishl (die : Die) (cl : Cluster)
  /-- ISHR (R147): INT32 arithmetic shift right. -/
  | ishr (die : Die) (cl : Cluster)
  /-- IAND (R147): Bitwise AND. -/
  | iand (die : Die) (cl : Cluster)
  /-- IOR (R147): Bitwise OR. -/
  | ior (die : Die) (cl : Cluster)
  /-- IXOR (R147): Bitwise XOR. -/
  | ixor (die : Die) (cl : Cluster)
  /-- IMIN (R147): INT32 minimum. -/
  | imin (die : Die) (cl : Cluster)
  /-- IMAX (R147): INT32 maximum. -/
  | imax (die : Die) (cl : Cluster)
  /-- ICMP (R147): INT32 compare, writing a lane mask. -/
  | icmp (die : Die) (cl : Cluster)
  /-- CVT (R60): Converts lane by lane between two non-MX formats. -/
  | cvt (die : Die) (cl : Cluster)
  /-- CVT_MX (R62): Converts eight blocks of 32 lanes into MX elements and scales. -/
  | cvtMx (die : Die) (cl : Cluster)
  /-- CVT_UNMX (R64): Expands MX blocks back into lanes. -/
  | cvtUnmx (die : Die) (cl : Cluster)
  /-- SRLD (R402): Loads a stochastic-rounding context from a 64-byte context record. -/
  | srld (die : Die) (cl : Cluster)
  /-- VLD (R144): Loads LEN × 64 bytes from SRAM into a vector register. -/
  | vld (die : Die) (cl : Cluster)
  /-- VST (R144): Stores LEN × 64 bytes from a vector register to SRAM as whole lines. -/
  | vst (die : Die) (cl : Cluster)
  /-- VSPLAT (R143): Copies one 32-bit word to every lane. -/
  | vsplat (die : Die) (cl : Cluster) (vd : Fin 64) (word : Word32)
  /-- VRED (R148): Reduces the lanes in a fixed tree into lane 0. -/
  | vred (die : Die) (cl : Cluster)
  /-- VROT (R143): Rotates the lanes by a scalar amount. -/
  | vrot (die : Die) (cl : Cluster) (vd : Fin 64) (va : Fin 64) (xb : Fin 32)
  /-- RCP (R146): Reciprocal, rounded once. -/
  | rcp (die : Die) (cl : Cluster)
  /-- RSQRT (R146): Reciprocal square root, rounded once. -/
  | rsqrt (die : Die) (cl : Cluster)
  /-- EXP2 (R146): Base-2 exponential, rounded once. -/
  | exp2 (die : Die) (cl : Cluster)
  /-- LOG2 (R146): Base-2 logarithm, rounded once. -/
  | log2 (die : Die) (cl : Cluster)
  /-- VSTAT (R149): Reads VSTAT into a scalar register, and clears it when CLR = 1. -/
  | vstat (die : Die) (cl : Cluster)
  /-- TILE_PASS (R94): The tile command checks its descriptor and deals the output blocks to arrays as passes. -/
  | tilePass (q : Qn) (seq : Word64)
  /-- STATIONARY_LOAD (R101): The stationary port loads a pass's initial values into its bank. -/
  | stationaryLoad (die : Die) (cl : Cluster) (a : Fin 8)
  /-- PASS_START (R105): An array begins the stream of a pass once its bank is unloaded, its initial values are loaded, its operands are present and its pace gate is open. -/
  | passStart (die : Die) (cl : Cluster) (a : Fin 8)
  /-- ARRAY_BEAT (R93): An array completes one beat: every engine forms its products and updates its windows under the step procedure. -/
  | arrayBeat (die : Die) (cl : Cluster) (a : Fin 8)
  /-- BANK_UNLOAD (R106): The drain unloads a final bank, rounding each window once or writing window records, into SRAM or spill. -/
  | bankUnload (die : Die) (cl : Cluster)
  /-- SPILL_WRITE (R140): A spilled row is handed to the write buffer once room appears and is written to HBM. -/
  | spillWrite (die : Die) (cl : Cluster)
  /-- TILE_COMPLETE (R103): The tile command completes once every block is drained and every spilled write is acknowledged. -/
  | tileComplete (q : Qn) (seq : Word64)
  /-- RESIDUE_MISMATCH (R114): A residue, parity or drain-compare mismatch freezes the array, discards its undrained banks and starts a repeat. -/
  | residueMismatch (die : Die) (cl : Cluster) (a : Fin 8) (engine : Fin 16) (source : Fin 6)
  /-- REPEAT_DONE (R114): The repeated passes reach their final window: the event is classed transient, or permanent, or unrecovered. -/
  | repeatDone (die : Die) (cl : Cluster) (a : Fin 8) (mismatch : Bool)
  /-- SUBSTITUTED_RUN_DONE (R116): S completes the discarded passes: a clean run raises event 0x02, a mismatch classes the event unrecovered. -/
  | substitutedRunDone (die : Die) (cl : Cluster) (a : Fin 8) (mismatch : Bool)
  /-- SRAM_CE_WRITEBACK (R125): The corrected line is written back in the next idle beat of its bank. -/
  | sramCeWriteback (die : Die) (cl : Cluster) (line : BitVec 18)
  /-- SCRUB_READ (R127): The cluster scrubber reads one line of each bank per SCRUB_INTERVAL and corrects it. -/
  | scrubRead (die : Die) (cl : Cluster) (idle : BitVec 32)
  /-- SCRUB_STARVE_PRIORITY (R127): A bank that has given the scrubber no idle beat for 4,096 beats gives it the next beat at the highest priority. -/
  | scrubStarvePriority (die : Die) (cl : Cluster) (bank : Fin 32)
  /-- CLU_OWNER_WRITE (R129): A write that changes a cluster owner byte sets PENDING and refuses newly dispatched commands that name the cluster. -/
  | cluOwnerWrite (f : Func) (die : Die) (k : Fin 8) (value : Word64)
  /-- CLU_OWNER_CLEAR (R129): Once dispatched commands have ended, the cluster zeroes its SRAM, vector registers and carve-out, then the new owner takes effect. -/
  | cluOwnerClear (die : Die) (cl : Cluster)
  /-- CARVE_WRITE (R132): A write to CARVE_128K sets CARVE_PENDING. -/
  | carveWrite (f : Func) (die : Die) (value : Word32)
  /-- CARVE_TAKE_EFFECT (R132): The new carve size takes effect once no loan is active on the die. -/
  | carveTakeEffect (die : Die)
  /-- MOVE (R133): The move command fetches and checks the feeder and drain programs, then starts them in every named cluster. -/
  | move (q : Qn) (seq : Word64)
  /-- MOVE_LOAD (R134): The LOAD entry moves rows from HBM into SRAM. -/
  | moveLoad (die : Die) (cl : Cluster) (i : BitVec 12)
  /-- MOVE_STORE (R138): The STORE entry moves rows from SRAM to HBM, giving way to bank unloads. -/
  | moveStore (die : Die) (cl : Cluster) (i : BitVec 12)
  /-- MOVE_COPY (R134): The COPY entry moves rows within SRAM. -/
  | moveCopy (die : Die) (cl : Cluster) (i : BitVec 12)
  /-- MOVE_ZERO (R134): The ZERO entry writes zeros into SRAM rows. -/
  | moveZero (die : Die) (cl : Cluster) (i : BitVec 12)
  /-- MOVE_FENCE (R136): The FENCE entry waits for the earlier entries of its unit or units. -/
  | moveFence (die : Die) (cl : Cluster) (drain : Bool) (i : BitVec 12)
  /-- VECTOR_PROGRAM (R152): The vector-program command loads the code into every named cluster and runs it from ENTRY. -/
  | vectorProgram (q : Qn) (seq : Word64)
  /-- VPROG_MAX_BEATS (R152): A cluster reaches MAX_BEATS without END: the program stops and the command fails with the timeout status. -/
  | vprogMaxBeats (die : Die) (cl : Cluster)
  /-- SORT (R162): Stable sort of N records by key. -/
  | sort (q : Qn) (seq : Word64)
  /-- BUCKET (R163): Groups the records by bucket number in the PACKED or FIXED layout. -/
  | bucket (q : Qn) (seq : Word64)
  /-- GATHER (R164): Writes the table rows named by the index list. -/
  | gather (q : Qn) (seq : Word64)
  /-- SCATTER (R164): Writes source rows to the table rows named by the index list. -/
  | scatter (q : Qn) (seq : Word64)
  /-- SCATTER_ADD (R165): Adds source rows into table rows with the window procedure. -/
  | scatterAdd (q : Qn) (seq : Word64)
  /-- SEGREDUCE (R165): Reduces segments of indexed rows. -/
  | segreduce (q : Qn) (seq : Word64)
  /-- UNION (R167): Writes the union of two strictly ascending key sets. -/
  | union (q : Qn) (seq : Word64)
  /-- INTERSECT (R167): Writes the intersection of two key sets. -/
  | intersect (q : Qn) (seq : Word64)
  /-- DIFF (R167): Writes the keys of A that are not in B. -/
  | diff (q : Qn) (seq : Word64)
  /-- TBLDEF (R178): Defines a Teasel map slot and resets its banked state once both reader counts are 0. -/
  | tbldef (q : Qn) (seq : Word64)
  /-- TBLWRITE (R178): Writes entries of a map slot's shadow bank. -/
  | tblwrite (q : Qn) (seq : Word64)
  /-- TEASEL_FLIP (R181): The map flip command checks every named slot and flips all of them in each named cluster in one step. -/
  | teaselFlip (q : Qn) (seq : Word64)
  /-- BANKED_SHADOW_WRITE (R173): A write to the shadow bank proceeds once the shadow's reader count is 0 and COPY_PENDING is 0. -/
  | bankedShadowWrite (w : ShadowWriter)
  /-- BANKED_COPYBACK (R175): Once the new shadow's readers have drained, the table copies the active bank into the shadow and clears COPY_PENDING. -/
  | bankedCopyback (t : BankedTable)
  /-- HBM_ACCESS (R201): An access to HBM is translated and checked for permission, thermal hold, presence and the symbol code, then carried out. -/
  | hbmAccess (q : Qn) (seq : Word64) (unit : Fin 8) (va : Word64) (what : HbmOp) (strike : List SymErr) (line : LineFault)
  /-- HBM_CE_WRITEBACK (R205): A corrected block is written back when the stack is next idle. -/
  | hbmCeWriteback (m : Fin 16)
  /-- HBM_REFRESH (R186): Per-bank refresh is issued at the JEDEC rate, doubled at or above 85 °C. -/
  | hbmRefresh (m : Fin 16)
  /-- HBM_SCRUB (R207): The controller reads and corrects the present granules of its stack over each SCRUB_HOURS. -/
  | hbmScrub (m : Fin 16) (strike : List SymErr)
  /-- STACK_TEMP_READ (R187): Every 250 µs the controller reads each stack's temperature and sets its throttle level. -/
  | stackTempRead (m : Fin 16) (reading : Option Byte)
  /-- STACK_STALLED (R220): A stack held at level 3 for 100 µs raises the stalled event. -/
  | stackStalled (m : Fin 16)
  /-- STACK_STOP_ABORT (R220): STOP_ABORT_MS at level 3: every command with a request waiting on the stack fails with the HBM-thermal status. -/
  | stackStopAbort (m : Fin 16)
  /-- HBM_ASSIGN (R200): Assigns free frames to a partition. -/
  | hbmAssign (q : Qn) (seq : Word64)
  /-- HBM_RELEASE (R192): Releases frames: unmaps the shadow bank, clears presence lines and resets the frame-table bytes. -/
  | hbmRelease (q : Qn) (seq : Word64)
  /-- HBM_MAP (R200): Maps pages in the shadow bank. -/
  | hbmMap (q : Qn) (seq : Word64)
  /-- HBM_UNMAP (R200): Clears pages in the shadow bank. -/
  | hbmUnmap (q : Qn) (seq : Word64)
  /-- HBM_FLIP (R198): Flips a partition's page tables and notifies the four command front ends. -/
  | hbmFlip (q : Qn) (seq : Word64)
  /-- D2D_FRAME_SEND (R230): The sender deals a frame to the next strand in service, holding a credit for its class. -/
  | d2dFrameSend (e : LinkEnd) (what : D2dSend)
  /-- D2D_FRAME_RECEIVE (R226): A receiver accepts or discards a frame by CRC and FSEQ and takes its ACK and CREDIT. -/
  | d2dFrameReceive (e : LinkEnd) (k : Fin 64) (a : D2dArrival)
  /-- D2D_REPLAY_TIMEOUT (R227): No ACK advance for 200 ns: the sender resends every unacknowledged frame. -/
  | d2dReplayTimeout (e : LinkEnd) (k : Fin 64)
  /-- STRAND_RETRAIN (R233): RETRAIN_ERR CRC failures within 1 ms, or an eighth send without ACK, put the strand in RETRAIN. -/
  | strandRetrain (e : LinkEnd) (k : Fin 64)
  /-- STRAND_RETRAIN_DONE (R233): A retrain ends: the strand replays and rejoins, or becomes DOWN. -/
  | strandRetrainDone (e : LinkEnd) (k : Fin 64) (ok : Bool) (bad : List (Fin 66))
  /-- STREAM_OPEN (R237): Opens a stream in every named cluster. -/
  | streamOpen (q : Qn) (seq : Word64)
  /-- STREAM_RELEASE (R239): Requests a new release mark for the stream. -/
  | streamRelease (q : Qn) (seq : Word64)
  /-- STREAM_RELEASE_APPLY (R239): The release mark takes effect once every earlier tile command naming the stream has completed. -/
  | streamReleaseApply (q : Qn) (seq : Word64)
  /-- STREAM_CLOSE (R240): Ends the stream in the named clusters. -/
  | streamClose (q : Qn) (seq : Word64)
  /-- STREAM_STALL (R243): A stream endpoint has been stalling for STALL_US: the stalled event is raised. -/
  | streamStall (die : Die) (num : BitVec 10) (cl : Cluster)
  /-- STREAM_ABORT (R244): A stall lasts ABORT_MS: the stream fails with the stream-aborted status. -/
  | streamAbort (die : Die) (num : BitVec 10) (cl : Cluster)
  /-- SQ_DOORBELL (R254): A submission doorbell write is checked by the hub and delivered to the queue's command front end. -/
  | sqDoorbell (f : Func) (q : BitVec 16) (aligned : Bool) (value : Word64)
  /-- CQ_DOORBELL (R254): A completion doorbell write is checked and frees completion-ring room. -/
  | cqDoorbell (f : Func) (q : BitVec 16) (aligned : Bool) (value : Word64)
  /-- EVENT_DOORBELL (R254): An event-ring doorbell write is checked and frees event-ring room. -/
  | eventDoorbell (f : Func) (aligned : Bool) (value : Word64)
  /-- ADMIN_SQ_DOORBELL (R254): The admin submission doorbell is checked and accepted. -/
  | adminSqDoorbell (f : Func) (aligned : Bool) (value : Word64)
  /-- ADMIN_CQ_DOORBELL (R254): The admin completion doorbell is checked and accepted. -/
  | adminCqDoorbell (f : Func) (aligned : Bool) (value : Word64)
  /-- DESCRIPTOR_FETCH (R255): A read of up to 32 descriptors returns, and each is checked for its SUBMIT_SEQ. -/
  | descriptorFetch (q : Qn) (deferred : Bool) (n : Fin 32) (fault : Option (Fin 32))
  /-- SEQ_REFETCH (R255): 1 µs after a wrong SUBMIT_SEQ, the descriptor is read again, and after three tries the queue enters ERROR. -/
  | seqRefetch (q : Qn) (fault : Bool)
  /-- COMMAND_DISPATCH (R256): The command front end picks a ready queue by class and rotation, checks the header and dispatches the command. -/
  | commandDispatch (die : Die)
  /-- INT_HOLDOFF_EXPIRE (R267): INT_HOLDOFF_US passes since the last interrupt of the vector, and the held interrupt is sent. -/
  | intHoldoffExpire (f : Func) (v : Fin 2048)
  /-- CQ_FULL_TIMEOUT (R259): A completion ring full for 100 µs raises event 0x01.0x04. -/
  | cqFullTimeout (q : Qn)
  /-- NOP (R263): No operation. -/
  | nop (q : Qn) (seq : Word64)
  /-- COPY (R272): Moves bytes between host memory and HBM or within HBM. -/
  | copy (q : Qn) (seq : Word64) (fault : Option Word64)
  /-- QUEUE_CREATE (R276): Creates a queue in RUNNING and resets its sequences. -/
  | queueCreate (q : Qn) (seq : Word64)
  /-- QUEUE_DESTROY (R276): Makes a queue DISABLED. -/
  | queueDestroy (q : Qn) (seq : Word64)
  /-- QUEUE_STOP (R276): Puts a queue in STOPPING, with ABORT ending dispatched commands. -/
  | queueStop (q : Qn) (seq : Word64)
  /-- QUEUE_START (R276): Returns a queue from STOPPED or ERROR to RUNNING. -/
  | queueStart (q : Qn) (seq : Word64)
  /-- PARTITION_CREATE (R276): Creates a partition with its tenant, queue range and modes. -/
  | partitionCreate (q : Qn) (seq : Word64)
  /-- PARTITION_DESTROY (R278): Tears a partition down in the seven steps of its rule. -/
  | partitionDestroy (q : Qn) (seq : Word64)
  /-- PARTITION_STOP (R276): Stops every queue of a partition. -/
  | partitionStop (q : Qn) (seq : Word64)
  /-- EVENT_RING_SET (R276): Sets or removes the function's event ring. -/
  | eventRingSet (q : Qn) (seq : Word64)
  /-- MBX_DOORBELL (R280): A write of ZG_MBX_DOORBELL is accepted into the journal, taken as a repeat, or ignored. -/
  | mbxDoorbell (f : Func) (value : Word64)
  /-- MBX_COMMIT (R281): A journaled command is staged, committed in one step and made DONE, and event 0x01.0x07 is raised. -/
  | mbxCommit (done : Bool)
  /-- FLR_VF (R283): A function-level reset or D3hot of a virtual function disables its partition's queues and aborts their work. -/
  | flrVf (p : Part)
  /-- FLR_PF (R283): A function-level reset of the physical function disables every queue of every function. -/
  | flrPf
  /-- HOT_RESET (R283): A hot reset, secondary bus reset, link down or PERST_N affects every function at the host interface. -/
  | hotReset
  /-- BUS_MASTER_ENABLE (R250): A change of a function's Bus Master Enable stops or resumes its requests, and held records are written on return. -/
  | busMasterEnable (f : Func) (on : ConfigWrite)
  /-- ADMIN_ENABLE (R273): Setting ENABLE of ZG_ADM_CFG starts the admin queue with its sequences reset. -/
  | adminEnable (f : Func) (value : Word32)
  /-- ADMIN_DISABLE (R273): Clearing ENABLE stops the admin queue fetching. -/
  | adminDisable (f : Func) (value : Word32)
  /-- FUNCTION_QUIESCE (R386): Setting or clearing QUIESCE of ZG_ADM_CFG stops or resumes fetching by the function's queues. -/
  | functionQuiesce (f : Func) (on : Bool)
  /-- HQ_SELECT (R275): A write to ZG_HQ_SEL takes a snapshot of the selected queue and the event ring. -/
  | hqSelect (f : Func) (value : Word32)
  /-- SYNC_SIGNAL (R301): Applies an operation to a synchronisation object. -/
  | syncSignal (q : Qn) (seq : Word64)
  /-- SYNC_WAIT (R298): Registers a wait on an object under a predicate. -/
  | syncWait (q : Qn) (seq : Word64)
  /-- SYNC_ARRIVE_WAIT (R301): Arrives at a barrier and waits on its next generation, in one step. -/
  | syncArriveWait (q : Qn) (seq : Word64)
  /-- SYNC_CONFIG (R301): Sets the mode, TARGET and VALUE of the named objects. -/
  | syncConfig (q : Qn) (seq : Word64)
  /-- SYNC_SAVE (R302): Writes a save record per object. -/
  | syncSave (q : Qn) (seq : Word64)
  /-- SYNC_RESTORE (R301): Checks the save records and restores the objects. -/
  | syncRestore (q : Qn) (seq : Word64)
  /-- SYNC_REMOTE (R304): Sends an operation to an object of another package. -/
  | syncRemote (q : Qn) (seq : Word64)
  /-- SYNC_OP_SET (R287): The SET operation is applied at the object. -/
  | syncOpSet (q : Qn) (obj : BitVec 14) (v : Word32) (failed : Bool)
  /-- SYNC_OP_ADD (R288): The ADD operation is applied, saturating. -/
  | syncOpAdd (q : Qn) (obj : BitVec 14) (v : Word32) (failed : Bool)
  /-- SYNC_OP_SUB (R288): The SUB operation is applied, saturating at zero. -/
  | syncOpSub (q : Qn) (obj : BitVec 14) (v : Word32) (failed : Bool)
  /-- SYNC_OP_MAX (R287): The MAX operation is applied. -/
  | syncOpMax (q : Qn) (obj : BitVec 14) (v : Word32) (failed : Bool)
  /-- SYNC_OP_ARRIVE (R289): The ARRIVE operation is applied, completing a generation when TARGET is reached. -/
  | syncOpArrive (q : Qn) (obj : BitVec 14) (v : Word32) (failed : Bool)
  /-- SYNC_OP_CLEAR_FAIL (R287): The CLEAR_FAIL operation clears FAILED, OVERFLOW and UNDERFLOW. -/
  | syncOpClearFail (q : Qn) (obj : BitVec 14) (v : Word32) (failed : Bool)
  /-- SYNC_WAIT_TIMEOUT (R298): TIMEOUT_US elapses and the wait completes with the timeout status. -/
  | syncWaitTimeout (q : Qn) (seq : Word64)
  /-- SYN_OWNER_WRITE (R296): A change of a block owner releases its waiters, resets its objects and takes effect. -/
  | synOwnerWrite (f : Func) (die : Die) (k : Fin 8) (value : Word64)
  /-- SYNC_REQ_RECEIVE (R304): A SYNC_REQ packet arrives, is checked and applied, and is answered APPLIED or DROPPED. -/
  | syncReqReceive (p : Fin 24)
  /-- SYNC_ANS_RECEIVE (R304): The answer arrives and completes the SYNC_REMOTE. -/
  | syncAnsReceive (p : Fin 24)
  /-- SYNC_REMOTE_TIMEOUT (R304): No answer arrives within TIMEOUT_US, and the command completes with the timeout status. -/
  | syncRemoteTimeout (q : Qn) (seq : Word64)
  /-- DEADLOCK_REPORT (R309): A partition has stayed blocked for DL_INTERVAL_MS, and the detector reports it. -/
  | deadlockReport (die : Die) (p : Part)
  /-- GROUP_DEFINE (R317): Defines a group on every die. -/
  | groupDefine (q : Qn) (seq : Word64)
  /-- GROUP_MEMBERS (R317): Writes member entries into the shadow bank. -/
  | groupMembers (q : Qn) (seq : Word64)
  /-- GROUP_FLIP (R316): Checks the shadow member list and flips it. -/
  | groupFlip (q : Qn) (seq : Word64)
  /-- GROUP_RESET (R317): Resets a group, advancing GGEN, optionally aborting posted operations. -/
  | groupReset (q : Qn) (seq : Word64)
  /-- CGO_OWNER_WRITE (R313): A change of a group block owner fails posted operations and returns the groups to UNDEFINED. -/
  | cgoOwnerWrite (f : Func) (k : Fin 8) (value : Word64)
  /-- REDUCE_SCATTER (R329): Posts a reduce-scatter to the group's bulk lane. -/
  | reduceScatter (q : Qn) (seq : Word64)
  /-- ALL_GATHER (R329): Posts an all-gather to the group's bulk lane. -/
  | allGather (q : Qn) (seq : Word64)
  /-- QUICK (R348): Posts a quick all-reduce, broadcast or barrier to the quick lane. -/
  | quick (q : Qn) (seq : Word64)
  /-- COLL_CHUNK_SEND (R322): The engine serves a lane in rotation and sends one chunk against a credit. -/
  | collChunkSend (die : Die)
  /-- COLL_CHUNK_RECEIVE (R338): A CHUNK message is placed, combined or forwarded, and acknowledged. -/
  | collChunkReceive (die : Die) (p : Option (Fin 24)) (res : Fin 3)
  /-- COLL_CREDIT_RECEIVE (R337): A CREDIT message grants slots and checks the operation and its digest. -/
  | collCreditReceive (die : Die) (p : Option (Fin 24))
  /-- COLL_ACK_RECEIVE (R338): An ACK message frees send slots. -/
  | collAckReceive (die : Die) (p : Option (Fin 24))
  /-- COLL_ABORT_RECEIVE (R346): An ABORT message fails the current and posted operations with the peer-aborted status. -/
  | collAbortReceive (die : Die) (p : Option (Fin 24))
  /-- COLL_QUICK_RECEIVE (R348): A QUICK message is combined in its round. -/
  | collQuickReceive (die : Die) (p : Option (Fin 24))
  /-- COLL_RESEND (R338): A chunk not covered by an ACK within RESEND_US is sent again. -/
  | collResend (die : Die) (g : Fin 4096)
  /-- COLL_STALL (R343): A lane stalls for STALL_US and raises event 0x08.0x01. -/
  | collStall (die : Die) (g : Fin 4096) (quick : Bool)
  /-- COLL_ABORT_TIMEOUT (R344): A stall lasts ABORT_MS and the operation fails with the collective-timeout status. -/
  | collAbortTimeout (die : Die) (g : Fin 4096) (quick : Bool)
  /-- WEFIN_FLIT_SEND (R365): The port sends a DATA flit with a credit, or an IDLE flit. -/
  | wefinFlitSend (p : Fin 24) (pool : Fin 3)
  /-- WEFIN_FLIT_RECEIVE (R359): A flit is accepted or discarded by CRC and FSEQ, and its ACK and CR_COUNT are taken. -/
  | wefinFlitReceive (p : Fin 24) (lane : Fin 4) (blocks : List (BitVec 257)) (wrong : BitVec 10)
  /-- WEFIN_ACK_IDLE (R360): A receiver owing an acknowledgement sends an IDLE flit within 64 flit times. -/
  | wefinAckIdle (p : Fin 24)
  /-- WEFIN_REPLAY_TIMEOUT (R361): ACK_TIMEOUT passes without an ACK advance, and the unacknowledged flits are resent. -/
  | wefinReplayTimeout (p : Fin 24)
  /-- LANE_LOCK_LOSS (R357): A lane loses block or alignment lock for 1 µs, taking the port to RETRAIN. -/
  | laneLockLoss (p : Fin 24) (lane : Fin 4)
  /-- PORT_RETRAIN (R362): The port leaves its bundle, partial packets are resent, and it retrains. -/
  | portRetrain (p : Fin 24)
  /-- PORT_RETRAIN_DONE (R362): The retrain succeeds, or after three failures the port is FAILED. -/
  | portRetrainDone (p : Fin 24) (ok : Bool)
  /-- PORT_TRAINED (R376): PMD training and block lock complete, and the port begins sending HELLO. -/
  | portTrained (p : Fin 24)
  /-- HELLO_SEND (R376): The port sends a HELLO, every 10 µs until it receives one and every 1 ms after. -/
  | helloSend (p : Fin 24)
  /-- HELLO_RECEIVE (R377): A HELLO is received and the port is verified against the plan. -/
  | helloReceive (p : Fin 24)
  /-- PACKET_FORWARD (R368): A transit package decrements TTL and forwards the packet by the route table. -/
  | packetForward (p : Fin 24)
  /-- LSA_FLOOD (R379): The package floods its own LSA every 10 ms. -/
  | lsaFlood
  /-- LSA_RECEIVE (R380): An LSA is taken, forwarded when newer, and advances region epochs. -/
  | lsaReceive (p : Fin 24)
  /-- REGION_SETTLE (R381): SETTLE_US passes with no change, and the region becomes STABLE. -/
  | regionSettle (r : BitVec 8)
  /-- PLAN_FORM (R381): With every region STABLE, Betony computes the route table, checks the epochs and flips it. -/
  | planForm
  /-- CONTROL_RECEIVE (R386): A CONTROL packet arrives at its destination, acts on the tenant's partitions and is answered. -/
  | controlReceive (p : Fin 24)
  /-- CTRL_STOP_PARTITION (R386): STOP_PARTITION acts as PARTITION_STOP with ABORT on the matching partitions. -/
  | ctrlStopPartition (tenant : BitVec 16)
  /-- CTRL_QUIESCE (R386): QUIESCE sets QUIESCE in the matching partitions' VF ZG_ADM_CFG. -/
  | ctrlQuiesce (tenant : BitVec 16)
  /-- CTRL_RESUME (R386): RESUME clears that QUIESCE. -/
  | ctrlResume (tenant : BitVec 16)
  /-- CONTROL_ANSWER_RECEIVE (R388): An ANSWER counts toward the WEFIN_CONTROL command. -/
  | controlAnswerReceive (p : Fin 24)
  /-- WEFIN_CONTROL (R388): Sends a CONTROL command to one package or the whole field. -/
  | wefinControl (q : Qn) (seq : Word64)
  /-- WEFIN_CONTROL_TIMEOUT (R388): TIMEOUT_US elapses and WEFIN_CONTROL completes with the answers so far. -/
  | wefinControlTimeout (q : Qn) (seq : Word64)
  /-- PORT_ENABLE (R389): Starts training on a port that is OFF or FAILED. -/
  | portEnable (q : Qn) (seq : Word64)
  /-- PORT_QUIESCE (R389): Takes the port out of its bundle and waits for its flits to be acknowledged. -/
  | portQuiesce (q : Qn) (seq : Word64)
  /-- PORT_DISABLE (R389): Makes the port OFF at once. -/
  | portDisable (q : Qn) (seq : Word64)
  /-- PORT_FORCE_RETRAIN (R389): The RETRAIN action forces R362. -/
  | portForceRetrain (q : Qn) (seq : Word64)
  /-- TIME_REQUEST (R392): Every 100 µs the package sends a TIME REQUEST to its parent. -/
  | timeRequest
  /-- TIME_REQUEST_RECEIVE (R391): A parent answers a TIME REQUEST with a RESPONSE. -/
  | timeRequestReceive (p : Fin 24)
  /-- TIME_RESPONSE_RECEIVE (R392): A RESPONSE yields θ, and the timebase slews toward the parent. -/
  | timeResponseReceive (p : Fin 24)
  /-- ALIGNMENT_LOST (R392): No exchange with a parent succeeds for 10 ms: ALIGNED is cleared and an alarm is raised. -/
  | alignmentLost
  /-- DROPOUT (R406): Drops elements by regenerated random values and scales the kept ones. -/
  | dropout (q : Qn) (seq : Word64)
  /-- ACT_STORE (R412): Stores activations in a sealed narrow or compressed record. -/
  | actStore (q : Qn) (seq : Word64)
  /-- ACT_LOAD (R413): Checks and loads a stored activation record. -/
  | actLoad (q : Qn) (seq : Word64)
  /-- STAGE_SET_BIND (R417): Binds a queue to a virtual-stage context. -/
  | stageSetBind (q : Qn) (seq : Word64)
  /-- STAGE_SET_CLEAR (R417): Unbinds a context. -/
  | stageSetClear (q : Qn) (seq : Word64)
  /-- STAGE_SCHED (R417): Loads or stops the die's stage schedule. -/
  | stageSched (q : Qn) (seq : Word64)
  /-- STAGE_MARK (R418): Waits until the schedule names its context, then advances the schedule. -/
  | stageMark (q : Qn) (seq : Word64)
  /-- DEFER_BEGIN (R419): Opens a deferred region of the next COUNT descriptors. -/
  | deferBegin (q : Qn) (seq : Word64)
  /-- DEFER_DRAIN (R419): Waits for every earlier region of its queue. -/
  | deferDrain (q : Qn) (seq : Word64)
  /-- DEFERRED_DISPATCH (R421): The deferred lane dispatches a region command while the main lane is idle or blocked. -/
  | deferredDispatch (die : Die)
  /-- FILL_BEGIN (R425): Opens a filler unit and checks its commands. -/
  | fillBegin (q : Qn) (seq : Word64)
  /-- LOAN_GRANT (R426): Idle lendable clusters are granted to a filler unit. -/
  | loanGrant (die : Die)
  /-- LOAN_END (R428): The owner becomes dispatchable or another cause ends the loan, and the attempt stops. -/
  | loanEnd (q : Qn)
  /-- SRL_UPDATE (R443): Applies the optimiser rule to a tensor and commits the new state. -/
  | srlUpdate (q : Qn) (seq : Word64) (res : Fin 3)
  /-- SRL_ROOT (R448): Computes and commits the inverse roots of the Kronecker factors. -/
  | srlRoot (q : Qn) (run : RootRun)
  /-- SRL_RESUME (R435): A set-aside Sorrel command resumes when a cluster becomes eligible. -/
  | srlResume (die : Die)
  /-- SRL_SLICE_END (R455): A slice of SLICE_KBEATS ends, and clusters wanted by the owner are returned. -/
  | srlSliceEnd (die : Die)
  /-- SRL_WAIT_EVENT (R454): After WAIT_MS of waiting for clusters, event 0x0B.0x04 is raised. -/
  | srlWaitEvent (q : Qn) (seq : Word64)
  /-- CHK_SCAN (R475): Computes a check value over a range, optionally chained and verified. -/
  | chkScan (q : Qn) (seq : Word64)
  /-- CHK_COMPARE (R478): Compares two ranges. -/
  | chkCompare (q : Qn) (seq : Word64)
  /-- TWIN_DIGEST (R490): Enters a local digest, sends it to the twin and compares. -/
  | twinDigest (q : Qn) (seq : Word64)
  /-- PROVENANCE (R481): Forms a data digest and takes a chain step at the hub. -/
  | provenance (q : Qn) (seq : Word64)
  /-- DIGEST_RECEIVE (R491): An arriving DIGEST is entered in the twin table or dropped. -/
  | digestReceive (p : Fin 24)
  /-- TWIN_TIMEOUT (R490): TIMEOUT_MS passes without the twin's digest. -/
  | twinTimeout (q : Qn) (seq : Word64)
  /-- TWIN_HOLD_EXPIRE (R491): A twin digest with no local digest is discarded after HOLD. -/
  | twinHoldExpire
  /-- SELFTEST_START (R472): Writing START of ZG_INT_ST starts an on-demand self-test of the die. -/
  | selftestStart (f : Func) (die : Die) (value : Word32)
  /-- SELFTEST_DONE (R472): The on-demand self-test ends in a pass or a failure. -/
  | selftestDone (die : Die) (fails : List TestFail)
  /-- INJECT_ARM (R495): Arming ZG_INT_INJECT forces one residue error into the next step of the selected engine. -/
  | injectArm (f : Func) (die : Die) (value : Word32)
  /-- POWER_SAMPLE (R496): Every 1 µs the rail energies are integrated, P_1, P_10 and P_100 and the credit updated, and the energy attributed. -/
  | powerSample (r0 : Rails) (r1 : Rails) (r2 : Rails) (r3 : Rails) (hub : BitVec 32) (work : List Activity)
  /-- PACE_WINDOW (R499): At each 100 ns window boundary the pace gates rotate, and the fast limiter and hardware thermal limit act. -/
  | paceWindow (die : Die)
  /-- GOVERNOR_LOOP (R510): Every 100 µs Betony moves k and p toward their targets. -/
  | governorLoop (die : Die)
  /-- ARRAY_ADMIT (R504): The ramp governor admits the lowest-indexed pending array once t_adm has passed. -/
  | arrayAdmit (die : Die)
  /-- ARRAY_RELEASE (R505): An admitted array idle for RELEASE_NS is released. -/
  | arrayRelease (die : Die)
  /-- BALLAST_UPDATE (R506): Every 10 ns the ballast draws the power of admitted open arrays that completed no beat. -/
  | ballastUpdate (die : Die)
  /-- SENSOR_CONVERT (R519): Every 5 µs each junction sensor converts, and invalid readings are excluded. -/
  | sensorConvert (die : Fin 5) (readings : List (BitVec 12))
  /-- THERMAL_TRIP (R521): A sensor reading 115 °C trips the package and drives THERMTRIP_N low. -/
  | thermalTrip (die : Fin 5) (sensor : Fin 64) (temp : BitVec 12)
  /-- COOLANT_STOP (R523): COOLANT_OK low for 10 µs holds dispatch, freezes arrays and lowers k to VMIN. -/
  | coolantStop
  /-- COOLANT_RESUME (R524): COOLANT_OK high for 10 ms resumes the held work. -/
  | coolantResume
  /-- COOLANT_HOLD_ABORT (R525): The hold lasts COOLANT_HOLD_MS, and dispatched user commands end with the coolant-abort status. -/
  | coolantHoldAbort
  /-- ENERGY_READ (R518): Writes the queue and partition energy accounts from one snapshot. -/
  | energyRead (q : Qn) (seq : Word64)
  /-- PWR_ESEL (R529): A write to ZG_PWR_ESEL takes a snapshot of the selected accounts. -/
  | pwrEsel (f : Func) (value : Word32)
  /-- BETONY_WATCHDOG (R532): A core watchdog expires, or an unhandled exception or code error occurs, and the complex is restarted. -/
  | betonyWatchdog (core : Fin 8) (cause : Fin 3)
  /-- BETONY_RESTART_DONE (R534): The image is checked, the cores are released and the journals are resolved, or Betony is HALTED. -/
  | betonyRestartDone
  /-- EMU_READ (R533): An emulated register read is held and answered by B0. -/
  | emuRead (f : Func) (what : HostRead) (size : Fin 9)
  /-- EMU_READ_TIMEOUT (R533): An emulated read unanswered for 20 µs completes with the BUSY value. -/
  | emuReadTimeout
  /-- COUNTER_READ (R538): A counter read returns its value at one instant and records it in ZG_MGT_CREAD. -/
  | counterRead (f : Func) (off : BitVec 21) (size : Fin 9)
  /-- CREAD_CLEAR (R538): Writing 1 to WRAPPED or OVERFLOW of ZG_MGT_CREAD clears that bit of the named counter. -/
  | creadClear (f : Func) (value : Word64)
  /-- PMC_SELECT (R539): A write to ZG_PMC_SELk sets a pending selection. -/
  | pmcSelect (f : Func) (die : Die) (k : Fin 8) (value : Word32)
  /-- PMC_BOUNDARY (R539): At a microsecond boundary a pending selection takes effect and the final count is kept. -/
  | pmcBoundary (die : Die)
  /-- LOG_RECORD_WRITE (R543): The log engine writes a record from its input FIFO into the ring. -/
  | logRecordWrite
  /-- TRACE_OCCURRENCE (R544): An occurrence of an enabled trace point is sampled, kept or dropped. -/
  | traceOccurrence (tp : Fin 4096) (src : BitVec 7) (arg0 : Word64) (arg1 : Word64)
  /-- ALARM_OCCURRENCE (R546): An alarm occurrence updates its slot and queues a notice when it becomes ACTIVE. -/
  | alarmOccurrence (cls : Fin 15) (code : Byte) (src : Fin 5) (data : Word64) (queue : Option (Fin 65536)) (part : Option Part) (sev : Fin 3)
  /-- ALARM_NOTICE_REPEAT (R546): Every 100 ms, an ACTIVE alarm with further occurrences sends a coalesced notice. -/
  | alarmNoticeRepeat
  /-- GET_INFO (R553): Returns the package information. -/
  | getInfo
  /-- ALARM_CLEAR (R547): Clears one alarm slot or every ACTIVE slot. -/
  | alarmClear
  /-- POWER_SET (R552): Sets CAP and VREQ. -/
  | powerSet
  /-- PARTITION_CONTROL (R552): Stops, quiesces or resumes a tenant's partitions on this package. -/
  | partitionControl
  /-- AUDIT_READ (R552): Returns up to 31 audit records. -/
  | auditRead
  /-- PLAN_SET (R375): Installs a cabling plan. -/
  | planSet
  /-- LIMITS_SET (R552): Sets the installer power limits and flags. -/
  | limitsSet
  /-- KEY_SET (R555): Sets a wrapped role key. -/
  | keySet
  /-- AUDIT_TRIM (R558): Moves the audit FLOOR forward. -/
  | auditTrim
  /-- TEST_MODE (R556): Enters or leaves test mode. -/
  | testMode
  /-- VT_OVERRIDE (R503): Installs a voltage-table override. -/
  | vtOverride
  /-- HEALTH_CLEAR (R552): Removes a health-record entry at the next start-up. -/
  | healthClear
  /-- FUSE_PROGRAM (R552): Programs a fuse while SEALED is clear. -/
  | fuseProgram
  /-- AUTH_LOCK_EXPIRE (R554): A role's 1 s authentication lock ends. -/
  | authLockExpire (r : Fin 3)
  /-- AUDIT_REFUSAL_SUMMARY (R557): At the end of a 1 s window with refusals, a summary audit record is appended. -/
  | auditRefusalSummary (r : Fin 3)
  /-- MGT_LOG_READ (R560): Copies log records to host memory. -/
  | mgtLogRead (q : Qn) (seq : Word64)
  /-- MGT_TRACE_CFG (R560): Configures trace points. -/
  | mgtTraceCfg (q : Qn) (seq : Word64)
  /-- MGT_TRACE_READ (R560): Copies trace records to host memory. -/
  | mgtTraceRead (q : Qn) (seq : Word64)
  /-- MGT_ALARM_READ (R560): Copies alarm records to host memory. -/
  | mgtAlarmRead (q : Qn) (seq : Word64)
  /-- MGT_AUDIT_READ (R560): Copies audit records to host memory. -/
  | mgtAuditRead (q : Qn) (seq : Word64)
  /-- I3C_CCC (R561): The target answers a supported common command code. -/
  | i3cCcc (ccc : Ccc)
  /-- SB_STATUS (R564): Returns the 32-byte sideband status. -/
  | sbStatus
  /-- SB_ALARMS (R563): Returns up to 3 alarm records. -/
  | sbAlarms (slot : BitVec 16)
  /-- SB_CMD_LOAD (R563): Loads bytes into the sideband command buffer. -/
  | sbCmdLoad (off : BitVec 16) (data : List Byte)
  /-- SB_CMD_EXEC (R563): Runs the role command in the sideband buffer. -/
  | sbCmdExec (len : BitVec 16)
  /-- SB_CMD_RESULT (R563): Returns the result of the last sideband role command. -/
  | sbCmdResult (off : BitVec 16)
  /-- SB_AUDIT_READ (R563): Returns one audit record. -/
  | sbAuditRead (aseq : Word64)
  /-- SB_PLAN_READ (R563): Returns the plan in force and ZG_TOP_PLAN. -/
  | sbPlanRead
  /-- POWER_ON (R580): Rails are applied from off, and the package starts with every item cleared. -/
  | powerOn
  /-- COLD_RESET (R580): RESET_N low for at least 1 µs resets the package. -/
  | coldReset
  /-- BRING_UP (R572): On the release of RESET_N with good rails, the hub runs steps 2 to 7 of bring-up. -/
  | bringUp (straps : Fin 4) (hubOk : Bool) (t : Training)
  /-- BOOT_GO (R578): Writing GO at STAGE 4 loads and checks the image and continues bring-up to READY. -/
  | bootGo (f : Func) (value : Word32) (fault : Bool) (hubOk : Bool) (fails : List (Fin 4 × TestFail))
  /-- ALIGN_WAIT_EXPIRE (R574): ALIGN_WAIT_MS passes since step 12, and step 13 ends without a step. -/
  | alignWaitExpire
  /-- COOLANT_WAIT_END (R573): COOLANT_OK high for 10 ms lets step 11 begin. -/
  | coolantWaitEnd (hubOk : Bool) (fails : List (Fin 4 × TestFail))
  /-- WARM_RESET (R581): A warm reset aborts work, saves the hub state, resets the dies and Betony, and brings the package ready again. -/
  | warmReset (cause : ResetBy) (t : Training) (ctxOk : Bool) (fails : List (Fin 4 × TestFail))
  /-- DIE_RESET (R582): A die reset ends that die's work, resets it and retrains it, or leaves it FAILED. -/
  | dieReset (die : Die) (cause : ResetBy) (t : Training) (fails : List TestFail)
  /-- HUB_SRAM_ERROR (R585): An uncorrectable hub SRAM error outside Betony's region is handled by its region. -/
  | hubSramError (what : SramRegion)
  /-- POWER_FAIL_STOP (R610): A power-good input low for 1 µs while RESET_N is high stops the package. -/
  | powerFailStop
  /-- REGISTER_WRITE (R594): A write to a register with no behaviour of its own is checked, then applied or rejected. -/
  | registerWrite (f : Func) (off : BarOffset) (size : Fin 9) (value : Word64)
  /-- SYN_SELECT (R312): A write to ZG_SYN_SEL takes a snapshot of the selected object. -/
  | synSelect (f : Func) (die : Die) (value : Word32)
  /-- COL_SELECT (R353): A write to ZG_COL_SEL takes a snapshot of the selected group. -/
  | colSelect (f : Func) (die : Die) (value : Word32)
  /-- TOP_REGION_SELECT (R397): A write to ZG_TOP_RSEL takes a snapshot of the selected region. -/
  | topRegionSelect (f : Func) (value : Word32)
  /-- POWER_DOWN (R609): The board removes the rails after RESET_N, or every rail but VDD_STBY after a trip, and the package loses all volatile state. -/
  | powerDown (keepStby : Bool)
  /-- HOST_LINK_UP (R283): The PCIe link trains up again after a link-down or hot reset, and the host-interface reset completes within 10 ms of it. -/
  | hostLinkUp (degraded : Bool)
  /-- COOLANT_OK_CHANGE (R523): The COOLANT_OK input changes level, starting or cancelling the 10 µs low filter or the 10 ms high interval. -/
  | coolantOkChange (level : Bool)
  /-- EMULATED_WRITE_APPLY (R594): Betony core B0 takes a queued emulated register write, checks it against the register state at that moment, and applies or rejects it. -/
  | emulatedWriteApply
  deriving DecidableEq, Repr

end Sys2Proof
end

