-- ==== Sys2Proof/Decode.lean ====
section
/-! DEFINITION. The words of the table of operations and events. The table gives no row any bits: the operations are named
commands, and no word spells one. -/
namespace Sys2Proof

/-- The command that a word of the table's bits spells: none, since spec/opcode_table.json gives bits to no row. -/
def decodeTableWord (_nbits _w : Nat) : Option Instr := none

end Sys2Proof
end

