-- ==== Sys2Proof/Config.lean ====
section
/-! DEFINITION. What the spec leaves open and the hardware fixes: free values. None has a body, so nothing can be
proved about which value it is. -/
namespace Sys2Proof.Config

/-- The free value drawn with number `n`: the model draws a fresh one, and advances `State.openCount`, wherever the
spec says that a result results but not which (log entry 4). -/
opaque freeValue : Nat → Nat

/-- The row of a stack that holds a 64-byte block of HBM: loc selects bank, row and column in an order internal to the
controller (R189), so the row is free. -/
opaque rowOf : Nat → Nat

/-- Nanoseconds between two refreshes of a stack at the JEDEC HBM4 rate, which the spec does not give (R186). -/
opaque refreshNs : Nat

/-- Spare rows of a stack that post-package repair can use (R210), which the spec does not give. -/
opaque spareRows : Nat → Nat

/-- Whether VROT moves lanes to higher lane numbers (R143): the spec gives the rotation no direction. -/
opaque rotateUp : Bool

/-- Result of XSHL (left true) or XSHR of a value by a count where the spec states none: a count of 64 or more, or XSHR of a
value with bit [63] set (R143). It depends on the operands alone, as R24 asks of every result. -/
opaque shiftResult : Bool → Nat → Nat → Nat

/-- Buffers a strand's receiver holds for a traffic class and hop (R229); the spec gives only the 8 of CTRL. -/
opaque d2dCredits : Nat → Nat → Nat

/-- Pace steps in a window of a die on which no array is admitted, or whose voltage table gives P_ARRAY 0: R500 divides by
zero there. -/
opaque emptyPaceStep : Nat

/-- Bus and device characteristics registers of the I3C target, which GETBCR and GETDCR return (R561). -/
opaque i3cBcr : Nat

/-- See `i3cBcr`. -/
opaque i3cDcr : Nat

end Sys2Proof.Config
end

