-- ==== Sys2Proof/Machine/Bits.lean ====
section
/-! DEFINITION. Bit fields of registers and records, little-endian byte strings (R5), sign extension. -/
namespace Sys2Proof.Machine

/-- Bits `hi` down to `lo` of `v`. -/
def bitsOf (v hi lo : Nat) : Nat := v / 2 ^ lo % 2 ^ (hi + 1 - lo)

/-- `v` with bits `hi` down to `lo` replaced by the low bits of `x`. -/
def putBits (v hi lo x : Nat) : Nat :=
  v - bitsOf v hi lo * 2 ^ lo + x % 2 ^ (hi + 1 - lo) * 2 ^ lo

/-- Field [hi:lo] of a 64-bit register. -/
def fld (w : Word64) (hi lo : Nat) : Nat := bitsOf w.toNat hi lo

/-- A 64-bit register with field [hi:lo] set to `x`. -/
def setFld (w : Word64) (hi lo x : Nat) : Word64 := BitVec.ofNat 64 (putBits w.toNat hi lo x)

/-- Bit `k` of a natural number. -/
def bitOf (v k : Nat) : Bool := v.testBit k

/-- One bit as a number. -/
def b2n (b : Bool) : Nat := if b then 1 else 0

/-- The number a little-endian byte string spells (R5). -/
def leNat : List Byte → Nat
  | [] => 0
  | b :: bs => b.toNat + 256 * leNat bs

/-- The `n` little-endian bytes of `v` (R5). -/
def natLE : Nat → Nat → List Byte
  | 0, _ => []
  | n + 1, v => BitVec.ofNat 8 v :: natLE n (v / 256)

/-- The number in bytes `off` to `off + n - 1` of a record. -/
def getLE (bs : List Byte) (off n : Nat) : Nat := leNat ((bs.drop off).take n)

/-- Byte `i` of a record; 0 past its end. -/
def byteAt (bs : List Byte) (i : Nat) : Nat := (bs.getD i 0).toNat

/-- A record with bytes `off` onward replaced by `new`. -/
def putAt (bs : List Byte) (off : Nat) (new : List Byte) : List Byte :=
  bs.take off ++ new ++ bs.drop (off + new.length)

/-- `n` zero bytes. -/
def zeros (n : Nat) : List Byte := List.replicate n 0

/-- Whether bytes `off` to `off + n - 1` of a record are all zero. -/
def zeroAt (bs : List Byte) (off n : Nat) : Bool := ((bs.drop off).take n).all (fun b => b == 0)

/-- The signed value of the low `w` bits of `v`. -/
def sext (w v : Nat) : Int := BitVec.toInt (BitVec.ofNat w v)

/-- The low `w` bits of a signed value. -/
def wrapInt (w : Nat) (x : Int) : Nat := (x % (2 ^ w : Int)).toNat

/-- The quotient of two naturals rounded up. -/
def ceilDiv (a b : Nat) : Nat := (a + b - 1) / b

/-- 2^64, where a 64-bit count wraps. -/
def two64 : Nat := 18446744073709551616

/-- A status where a check fails, else success. -/
def failIf (bad : Bool) (status : Nat) : Nat := if bad then status else 0

/-- The first status that is not success. -/
def firstFail : List Nat → Nat
  | [] => 0
  | x :: xs => if x = 0 then firstFail xs else x

end Sys2Proof.Machine
end

