-- ==== Sys2Proof/Machine/Cells.lean ====
section
/-! DEFINITION. Sparse memories and tables: a list of (address, value) pairs with strictly rising addresses and no entry
equal to what an unlisted address reads as. Every memory and register file of State has this form. -/
namespace Sys2Proof.Machine

/-- The value at address `a`; an unlisted address reads as `d`. -/
def cget {α : Type} (d : α) : List (Nat × α) → Nat → α
  | [], _ => d
  | (b, x) :: m, a => if a = b then x else if a < b then d else cget d m a

/-- The memory with `v` at address `a`, in canonical form: writing what an unlisted address reads as removes the entry. -/
def cset {α : Type} [DecidableEq α] (d : α) : List (Nat × α) → Nat → α → List (Nat × α)
  | [], a, v => if v = d then [] else [(a, v)]
  | (b, x) :: m, a, v =>
    if a < b then (if v = d then (b, x) :: m else (a, v) :: (b, x) :: m)
    else if a = b then (if v = d then m else (a, v) :: m)
    else (b, x) :: cset d m a v

/-- The memory with every address from `lo` up to but not including `hi` unlisted. -/
def cclear {α : Type} (m : List (Nat × α)) (lo hi : Nat) : List (Nat × α) :=
  m.filter (fun p => decide (p.1 < lo) || decide (hi ≤ p.1))

/-- Canonical form above a lower bound. -/
def cwfFrom {α : Type} [DecidableEq α] (d : α) : Nat → List (Nat × α) → Bool
  | _, [] => true
  | lo, (a, x) :: m => decide (lo ≤ a) && decide (x ≠ d) && cwfFrom d (a + 1) m

/-- The canonical form of a sparse memory whose unlisted addresses read as `d`. -/
def cwf {α : Type} [DecidableEq α] (d : α) (m : List (Nat × α)) : Bool := cwfFrom d 0 m

/-- The memory with the listed values written from address `a` up. -/
def csetList {α : Type} [DecidableEq α] (d : α) : List (Nat × α) → Nat → List α → List (Nat × α)
  | m, _, [] => m
  | m, a, v :: vs => csetList d (cset d m a v) (a + 1) vs

/-- The memory with the listed values written from address `a` up, `step` addresses apart. -/
def csetStep {α : Type} [DecidableEq α] (d : α) : List (Nat × α) → Nat → Nat → List α → List (Nat × α)
  | m, _, _, [] => m
  | m, a, step, v :: vs => csetStep d (cset d m a v) (a + step) step vs

/-- The `n` values from address `a` up. -/
def cgetList {α : Type} (d : α) (m : List (Nat × α)) (a n : Nat) : List α :=
  (List.range n).map (fun i => cget d m (a + i))

end Sys2Proof.Machine
end

