-- ==== Sys2Proof/Machine/Codes.lean ====
section
/-! DEFINITION. The codes of the package as computations: check-value codes (R473), CRC-8 (R225, R358), the symbol code
of HBM (R203, R205), the counter-based generator (R398), and SHA-256, SHA-384, HMAC-SHA-256 and ECDSA P-384 as FIPS 180-4,
FIPS 198-1 and FIPS 186-5 give them (PRESUMED, log entry 9: the spec names these standards and does not repeat them). -/
namespace Sys2Proof.Machine

/-! ### Check-value codes (R473) -/

/-- One bit of a reflected CRC with polynomial `poly` (bits reversed). -/
def crcBitR (poly r : Nat) : Nat := if r % 2 = 1 then Nat.xor (r / 2) poly else r / 2

/-- `f` applied `n` times. -/
def iter {α : Type} (f : α → α) : Nat → α → α
  | 0, x => x
  | n + 1, x => iter f n (f x)

/-- A reflected CRC over bytes from register value `r`. -/
def crcR (poly : Nat) : Nat → List Byte → Nat
  | r, [] => r
  | r, b :: bs => crcR poly (iter (crcBitR poly) 8 (Nat.xor r b.toNat)) bs

/-- CRC-32C of a byte string (R473 row 0), used in every CHECK field. -/
def crc32c (bs : List Byte) : Nat := Nat.xor (crcR 0x82F63B78 0xFFFFFFFF bs) 0xFFFFFFFF

/-- CRC-32 of IEEE 802.3 (R473 row 1). -/
def crc32 (bs : List Byte) : Nat := Nat.xor (crcR 0xEDB88320 0xFFFFFFFF bs) 0xFFFFFFFF

/-- One bit of an unreflected CRC of width `w`. -/
def crcBitL (w poly r : Nat) : Nat :=
  if r / 2 ^ (w - 1) % 2 = 1 then Nat.xor (r * 2 % 2 ^ w) poly else r * 2 % 2 ^ w

/-- An unreflected CRC of width `w` over bytes from register value `r`. -/
def crcL (w poly : Nat) : Nat → List Byte → Nat
  | r, [] => r
  | r, b :: bs => crcL w poly (iter (crcBitL w poly) 8 (Nat.xor r (b.toNat * 2 ^ (w - 8)))) bs

/-- CRC-64 of ECMA-182 (R473 row 2) continued from `r`. -/
def crc64From (r : Nat) (bs : List Byte) : Nat := crcL 64 0x42F0E1EBA9EA3693 r bs

/-- CRC-64 of ECMA-182 (R473 row 2). -/
def crc64 (bs : List Byte) : Nat := crc64From 0 bs

/-- CRC-8 with polynomial x^8 + x^2 + x + 1 and initial value 0 (R225, R358). -/
def crc8 (bs : List Byte) : Nat := crcL 8 0x07 0 bs

/-- The 16-bit CHECK of a record: bits [15:0] of CRC-32C (R264, R269). -/
def check16 (bs : List Byte) : Nat := crc32c bs % 65536

/-- The code POLY of R473 continued from a prior result (R475): a reflected code resumes from its result with the final
exclusive-or undone. -/
def codeFrom (poly prior : Nat) (bs : List Byte) : Nat :=
  if poly = 0 then Nat.xor (crcR 0x82F63B78 (Nat.xor prior 0xFFFFFFFF) bs) 0xFFFFFFFF
  else if poly = 1 then Nat.xor (crcR 0xEDB88320 (Nat.xor prior 0xFFFFFFFF) bs) 0xFFFFFFFF
  else crc64From prior bs

/-! ### The symbol code of HBM (R203 to R205) -/

/-- Multiplication by α in GF(2^8) with field polynomial 0x11D (R203). -/
def gfX (a : Nat) : Nat := if a ≥ 128 then Nat.xor (a * 2) 0x11D else a * 2

/-- The product of `a` and `b` in GF(2^8), over the `n` low bits of `b`. -/
def gfMulN : Nat → Nat → Nat → Nat
  | 0, _, _ => 0
  | n + 1, a, b => Nat.xor (if b % 2 = 1 then a else 0) (gfMulN n (gfX a) (b / 2))

/-- The product in GF(2^8) (R203). -/
def gfMul (a b : Nat) : Nat := gfMulN 8 a b

/-- α to the power `n`. -/
def gfPow (n : Nat) : Nat := iter gfX n 1

/-- The inverse in GF(2^8), as the 254th power. -/
def gfInv (a : Nat) : Nat := iter (fun x => gfMul x a) 253 a

/-- One data byte shifted into the remainder (P_0, P_1, P_2, P_3) of division by g(x) (R203). -/
def rsShift (r : Nat × Nat × Nat × Nat) (d : Nat) : Nat × Nat × Nat × Nat :=
  let f := Nat.xor r.1 d
  (Nat.xor r.2.1 (gfMul f 0x0F), Nat.xor r.2.2.1 (gfMul f 0x36), Nat.xor r.2.2.2 (gfMul f 0x78), gfMul f 0x40)

/-- The check symbols P_0 to P_3 of 64 data bytes (R203). -/
def rsCheck (data : List Nat) : Nat × Nat × Nat × Nat := data.foldl rsShift (0, 0, 0, 0)

/-- Syndrome i of an error pattern: symbol position j, 0 to 63 data and 64 to 67 for P_0 to P_3, is the coefficient of
x^(67 − j) (R203). -/
def rsSyndrome (i : Nat) (errs : List (Nat × Nat)) : Nat :=
  errs.foldl (fun acc e => Nat.xor acc (gfMul e.2 (gfPow (i * (67 - e.1) % 255)))) 0

/-- The single symbol error with these syndromes, if there is one. -/
def rsOne (s0 s1 s2 s3 : Nat) : Option (List (Nat × Nat)) :=
  ((List.range 68).find? (fun j =>
    let x := gfPow (67 - j)
    s0 != 0 && gfMul s0 x == s1 && gfMul s1 x == s2 && gfMul s2 x == s3)).map (fun j => [(j, s0)])

/-- The error values at positions `j` and `k` that give syndromes s0 and s1. -/
def rsSolve (j k s0 s1 : Nat) : Nat × Nat :=
  let x := gfPow (67 - j)
  let y := gfPow (67 - k)
  let ek := gfMul (Nat.xor s1 (gfMul s0 x)) (gfInv (Nat.xor x y))
  (Nat.xor s0 ek, ek)

/-- The two symbol errors with these syndromes, if there are some. -/
def rsTwo (s0 s1 s2 s3 : Nat) : Option (List (Nat × Nat)) :=
  (((List.range 68).map (fun j => (List.range j).map (fun k => (k, j)))).flatten.find? (fun p =>
    let e := rsSolve p.1 p.2 s0 s1
    e.1 != 0 && e.2 != 0
      && rsSyndrome 2 [(p.1, e.1), (p.2, e.2)] == s2 && rsSyndrome 3 [(p.1, e.1), (p.2, e.2)] == s3)).map (fun p =>
    let e := rsSolve p.1 p.2 s0 s1
    [(p.1, e.1), (p.2, e.2)])

/-- What the decoder of R205 finds in a block whose symbols differ from a codeword by `errs`. -/
inductive RsOutcome where
  /-- No error is seen. -/
  | clean
  /-- 1 or 2 symbols are corrected, at these positions by these values. -/
  | corrected (fix : List (Nat × Nat))
  /-- The decoder cannot correct. -/
  | uncorrectable
  deriving DecidableEq, Repr

/-- The decoder of R205: it sees the received word, so it corrects to the one codeword within two symbols, if any
(DEDUCED, log entry 6). -/
def rsDecode (errs : List (Nat × Nat)) : RsOutcome :=
  let s0 := rsSyndrome 0 errs
  let s1 := rsSyndrome 1 errs
  let s2 := rsSyndrome 2 errs
  let s3 := rsSyndrome 3 errs
  if s0 = 0 ∧ s1 = 0 ∧ s2 = 0 ∧ s3 = 0 then .clean
  else match rsOne s0 s1 s2 s3 with
    | some f => .corrected f
    | none => match rsTwo s0 s1 s2 s3 with
      | some f => .corrected f
      | none => .uncorrectable

/-- Two error patterns laid over one another: the wrong bits of each symbol position. -/
def rsAdd (a b : List (Nat × Nat)) : List (Nat × Nat) :=
  (List.range 68).filterMap (fun j =>
    let v := Nat.xor ((a.filter (fun e => e.1 == j)).foldl (fun x e => Nat.xor x e.2) 0)
      ((b.filter (fun e => e.1 == j)).foldl (fun x e => Nat.xor x e.2) 0)
    if v = 0 then none else some (j, v))

/-! ### The counter-based generator (R398) -/

/-- One round of R398 on counter and key. -/
def philoxRound (s : (Nat × Nat × Nat × Nat) × (Nat × Nat)) : (Nat × Nat × Nat × Nat) × (Nat × Nat) :=
  let c := s.1
  let k := s.2
  let p0 := 0xD2511F53 * c.1
  let p1 := 0xCD9E8D57 * c.2.2.1
  ((Nat.xor (Nat.xor (p1 / 4294967296) c.2.1) k.1, p1 % 4294967296,
    Nat.xor (Nat.xor (p0 / 4294967296) c.2.2.2) k.2, p0 % 4294967296),
   ((k.1 + 0x9E3779B9) % 4294967296, (k.2 + 0xBB67AE85) % 4294967296))

/-- philox4x32_10 of R398: counter and key words to the four words X0 to X3. -/
def philox (c0 c1 c2 c3 k0 k1 : Nat) : Nat × Nat × Nat × Nat :=
  (iter philoxRound 10 ((c0, c1, c2, c3), (k0, k1))).1

/-- Word `j` of a generator result. -/
def philoxWord (x : Nat × Nat × Nat × Nat) (j : Nat) : Nat :=
  if j = 0 then x.1 else if j = 1 then x.2.1 else if j = 2 then x.2.2.1 else x.2.2.2

/-! ### SHA-256, SHA-384 and HMAC (FIPS 180-4, FIPS 198-1) -/

/-- Round constants of SHA-256. -/
def k256 : List Nat :=
  [0x428A2F98, 0x71374491, 0xB5C0FBCF, 0xE9B5DBA5, 0x3956C25B, 0x59F111F1, 0x923F82A4, 0xAB1C5ED5,
   0xD807AA98, 0x12835B01, 0x243185BE, 0x550C7DC3, 0x72BE5D74, 0x80DEB1FE, 0x9BDC06A7, 0xC19BF174,
   0xE49B69C1, 0xEFBE4786, 0xFC19DC6, 0x240CA1CC, 0x2DE92C6F, 0x4A7484AA, 0x5CB0A9DC, 0x76F988DA,
   0x983E5152, 0xA831C66D, 0xB00327C8, 0xBF597FC7, 0xC6E00BF3, 0xD5A79147, 0x6CA6351, 0x14292967,
   0x27B70A85, 0x2E1B2138, 0x4D2C6DFC, 0x53380D13, 0x650A7354, 0x766A0ABB, 0x81C2C92E, 0x92722C85,
   0xA2BFE8A1, 0xA81A664B, 0xC24B8B70, 0xC76C51A3, 0xD192E819, 0xD6990624, 0xF40E3585, 0x106AA070,
   0x19A4C116, 0x1E376C08, 0x2748774C, 0x34B0BCB5, 0x391C0CB3, 0x4ED8AA4A, 0x5B9CCA4F, 0x682E6FF3,
   0x748F82EE, 0x78A5636F, 0x84C87814, 0x8CC70208, 0x90BEFFFA, 0xA4506CEB, 0xBEF9A3F7, 0xC67178F2]

/-- Round constants of SHA-384. -/
def k512a : List Nat :=
  [0x428A2F98D728AE22, 0x7137449123EF65CD, 0xB5C0FBCFEC4D3B2F, 0xE9B5DBA58189DBBC,
   0x3956C25BF348B538, 0x59F111F1B605D019, 0x923F82A4AF194F9B, 0xAB1C5ED5DA6D8118,
   0xD807AA98A3030242, 0x12835B0145706FBE, 0x243185BE4EE4B28C, 0x550C7DC3D5FFB4E2,
   0x72BE5D74F27B896F, 0x80DEB1FE3B1696B1, 0x9BDC06A725C71235, 0xC19BF174CF692694,
   0xE49B69C19EF14AD2, 0xEFBE4786384F25E3, 0xFC19DC68B8CD5B5, 0x240CA1CC77AC9C65,
   0x2DE92C6F592B0275, 0x4A7484AA6EA6E483, 0x5CB0A9DCBD41FBD4, 0x76F988DA831153B5,
   0x983E5152EE66DFAB, 0xA831C66D2DB43210, 0xB00327C898FB213F, 0xBF597FC7BEEF0EE4,
   0xC6E00BF33DA88FC2, 0xD5A79147930AA725, 0x6CA6351E003826F, 0x142929670A0E6E70,
   0x27B70A8546D22FFC, 0x2E1B21385C26C926, 0x4D2C6DFC5AC42AED, 0x53380D139D95B3DF,
   0x650A73548BAF63DE, 0x766A0ABB3C77B2A8, 0x81C2C92E47EDAEE6, 0x92722C851482353B]

/-- Round constants of SHA-384, continued. -/
def k512b : List Nat :=
  [0xA2BFE8A14CF10364, 0xA81A664BBC423001, 0xC24B8B70D0F89791, 0xC76C51A30654BE30,
   0xD192E819D6EF5218, 0xD69906245565A910, 0xF40E35855771202A, 0x106AA07032BBD1B8,
   0x19A4C116B8D2D0C8, 0x1E376C085141AB53, 0x2748774CDF8EEB99, 0x34B0BCB5E19B48A8,
   0x391C0CB3C5C95A63, 0x4ED8AA4AE3418ACB, 0x5B9CCA4F7763E373, 0x682E6FF3D6B2B8A3,
   0x748F82EE5DEFB2FC, 0x78A5636F43172F60, 0x84C87814A1F0AB72, 0x8CC702081A6439EC,
   0x90BEFFFA23631E28, 0xA4506CEBDE82BDE9, 0xBEF9A3F7B2C67915, 0xC67178F2E372532B,
   0xCA273ECEEA26619C, 0xD186B8C721C0C207, 0xEADA7DD6CDE0EB1E, 0xF57D4F7FEE6ED178,
   0x6F067AA72176FBA, 0xA637DC5A2C898A6, 0x113F9804BEF90DAE, 0x1B710B35131C471B,
   0x28DB77F523047D84, 0x32CAAB7B40C72493, 0x3C9EBE0A15C9BEBC, 0x431D67C49C100D4C,
   0x4CC5D4BECB3E42B6, 0x597F299CFC657E2A, 0x5FCB6FAB3AD6FAEC, 0x6C44198C4A475817]

/-- Rotation right of a `w`-bit word. -/
def rotr (w x n : Nat) : Nat := x / 2 ^ n + x % 2 ^ n * 2 ^ (w - n)

/-- The big-endian number of a byte string. -/
def beNat (bs : List Byte) : Nat := bs.foldl (fun acc b => acc * 256 + b.toNat) 0

/-- The `n` big-endian bytes of `v`. -/
def natBE (n v : Nat) : List Byte := (natLE n v).reverse

/-- Rotation and shift amounts of one of the two hashes: Σ0, Σ1, σ0, σ1. -/
structure ShaParam where
  w : Nat
  s0 : Nat × Nat × Nat
  s1 : Nat × Nat × Nat
  t0 : Nat × Nat × Nat
  t1 : Nat × Nat × Nat

/-- SHA-256. -/
def sha256Param : ShaParam := ⟨32, (2, 13, 22), (6, 11, 25), (7, 18, 3), (17, 19, 10)⟩
/-- SHA-384. -/
def sha384Param : ShaParam := ⟨64, (28, 34, 39), (14, 18, 41), (1, 8, 7), (19, 61, 6)⟩

/-- Exclusive-or of three rotations. -/
def shaRot (w : Nat) (r : Nat × Nat × Nat) (x : Nat) : Nat :=
  Nat.xor (Nat.xor (rotr w x r.1) (rotr w x r.2.1)) (rotr w x r.2.2)

/-- Exclusive-or of two rotations and a shift. -/
def shaSig (w : Nat) (r : Nat × Nat × Nat) (x : Nat) : Nat :=
  Nat.xor (Nat.xor (rotr w x r.1) (rotr w x r.2.1)) (x / 2 ^ r.2.2)

/-- The message schedule, newest word first, extended by `n` words. -/
def shaSched (p : ShaParam) : Nat → List Nat → List Nat
  | 0, ws => ws
  | n + 1, ws =>
    shaSched p n
      ((shaSig p.w p.t1 (ws.getD 1 0) + ws.getD 6 0 + shaSig p.w p.t0 (ws.getD 14 0) + ws.getD 15 0) % 2 ^ p.w :: ws)

/-- One round on the eight working words. -/
def shaRound (p : ShaParam) (v : List Nat) (kw : Nat × Nat) : List Nat :=
  match v with
  | [a, b, c, d, e, f, g, h] =>
    let m := 2 ^ p.w
    let ch := Nat.xor (Nat.land e f) (Nat.land (m - 1 - e) g)
    let t1 := h + shaRot p.w p.s1 e + ch + kw.1 + kw.2
    let maj := Nat.xor (Nat.xor (Nat.land a b) (Nat.land a c)) (Nat.land b c)
    let t2 := shaRot p.w p.s0 a + maj
    [(t1 + t2) % m, a, b, c, (d + t1) % m, e, f, g]
  | v => v

/-- One block. -/
def shaBlock (p : ShaParam) (ks : List Nat) (h : List Nat) (ws : List Nat) : List Nat :=
  let sched := (shaSched p (ks.length - 16) ws.reverse).reverse
  let v := (ks.zip sched).foldl (shaRound p) h
  (h.zip v).map (fun x => (x.1 + x.2) % 2 ^ p.w)

/-- `n` words of `wb` bytes from a byte string. -/
def beWords (wb : Nat) : Nat → List Byte → List Nat
  | 0, _ => []
  | n + 1, bs => beNat (bs.take wb) :: beWords wb n (bs.drop wb)

/-- Blocks of a padded message. -/
def shaBlocks (p : ShaParam) (ks : List Nat) : Nat → List Nat → List Byte → List Nat
  | 0, h, _ => h
  | n + 1, h, bs => shaBlocks p ks n (shaBlock p ks h (beWords (p.w / 8) 16 bs)) (bs.drop (2 * p.w))

/-- The padded message: a 1 bit, zeros, and the bit length in a quarter of a block's last eighth. -/
def shaPad (p : ShaParam) (bs : List Byte) : List Byte :=
  let blk := 2 * p.w
  let len := p.w / 4
  let z := (blk - (bs.length + 1 + len) % blk) % blk
  bs ++ [0x80] ++ zeros z ++ natBE len (8 * bs.length)

/-- The hash words of a message. -/
def shaWords (p : ShaParam) (ks h : List Nat) (bs : List Byte) : List Nat :=
  let m := shaPad p bs
  shaBlocks p ks (m.length / (2 * p.w)) h m

/-- SHA-256 of a byte string. -/
def sha256 (bs : List Byte) : List Byte :=
  ((shaWords sha256Param k256
    [0x6A09E667, 0xBB67AE85, 0x3C6EF372, 0xA54FF53A, 0x510E527F, 0x9B05688C, 0x1F83D9AB, 0x5BE0CD19] bs).map (natBE 4)).flatten

/-- SHA-384 of a byte string, 48 bytes. -/
def sha384 (bs : List Byte) : List Byte :=
  (((shaWords sha384Param (k512a ++ k512b)
    [0xCBBB9D5DC1059ED8, 0x629A292A367CD507, 0x9159015A3070DD17, 0x152FECD8F70E5939,
   0x67332667FFC00B31, 0x8EB44A8768581511, 0xDB0C2E0D64F98FA7, 0x47B5481DBEFA4FA4] bs).map (natBE 8)).flatten).take 48

/-- HMAC-SHA-256 under a 32-byte key. -/
def hmac256 (key msg : List Byte) : List Byte :=
  let k := key ++ zeros (64 - key.length)
  sha256 (k.map (fun b => b ^^^ 0x5C) ++ sha256 (k.map (fun b => b ^^^ 0x36) ++ msg))

/-! ### ECDSA P-384 verification (FIPS 186-5) -/

/-- The field prime of P-384. -/
def p384 : Nat := 0xFFFFFFFFFFFFFFFFFFFFFFFFFFFFFFFFFFFFFFFFFFFFFFFFFFFFFFFFFFFFFFFEFFFFFFFF0000000000000000FFFFFFFF
/-- The group order of P-384. -/
def n384 : Nat := 0xFFFFFFFFFFFFFFFFFFFFFFFFFFFFFFFFFFFFFFFFFFFFFFFFC7634D81F4372DDF581A0DB248B0A77AECEC196ACCC52973
/-- The coefficient b of P-384. -/
def b384 : Nat := 0xB3312FA7E23EE7E4988E056BE3F82D19181D9C6EFE8141120314088F5013875AC656398D8A2ED19D2A85C8EDD3EC2AEF
/-- The base point of P-384. -/
def g384 : Nat × Nat :=
  (0xAA87CA22BE8B05378EB1C71EF320AD746E1D3B628BA79B9859F741E082542A385502F25DBF55296C3A545E3872760AB7,
   0x3617DE4A96262C6F5D9E98BF9292DC29F8F41DBD289A147CE9DA3113B5F0B8C00A60B1CE1D7E819D7A431D7C90EA0E5F)

/-- `b` to the power `e` modulo `m`, over the low `bits` bits of `e`. -/
def powMod : Nat → Nat → Nat → Nat → Nat
  | 0, _, _, _ => 1
  | bits + 1, b, e, m =>
    (if e % 2 = 1 then b else 1) * powMod bits (b * b % m) (e / 2) m % m

/-- Addition of points of P-384; `none` is the point at infinity. -/
def ecAdd (a b : Option (Nat × Nat)) : Option (Nat × Nat) :=
  match a, b with
  | none, b => b
  | a, none => a
  | some (x1, y1), some (x2, y2) =>
    if x1 = x2 ∧ (y1 + y2) % p384 = 0 then none
    else
      let num := if x1 = x2 then 3 * x1 * x1 + (p384 - 3) else y2 + (p384 - y1)
      let den := if x1 = x2 then 2 * y1 else x2 + (p384 - x1)
      let l := num * powMod 384 (den % p384) (p384 - 2) p384 % p384
      let x3 := (l * l + 2 * p384 - x1 - x2) % p384
      some (x3, (l * (x1 + p384 - x3) + p384 - y1) % p384)

/-- A multiple of a point, over the low `bits` bits of the factor. -/
def ecMul : Nat → Nat → Option (Nat × Nat) → Option (Nat × Nat)
  | 0, _, _ => none
  | bits + 1, k, q => ecAdd (if k % 2 = 1 then q else none) (ecMul bits (k / 2) (ecAdd q q))

/-- Whether (r, s) is a signature over the digest under the public key (x, y). -/
def ecdsaVerify (pub : Nat × Nat) (digest : List Byte) (r s : Nat) : Bool :=
  let onCurve := decide (pub.1 < p384) && decide (pub.2 < p384)
    && pub.2 * pub.2 % p384 == (pub.1 * pub.1 * pub.1 + (p384 - 3) * pub.1 + b384) % p384
  let inRange := decide (0 < r) && decide (r < n384) && decide (0 < s) && decide (s < n384)
  let w := powMod 384 s (n384 - 2) n384
  let u1 := beNat digest * w % n384
  let u2 := r * w % n384
  match ecAdd (ecMul 384 u1 (some g384)) (ecMul 384 u2 (some pub)) with
  | none => false
  | some (x, _) => onCurve && inRange && x % n384 == r

end Sys2Proof.Machine
end

