-- ==== Sys2Proof/Machine/RegMap.lean ====
section
/-! DEFINITION. The register map: every register of BAR0 with its offset, its fields and their access types and its
reset value, as the block tables and field maps of the spec give them (20_register_reference.md, R590 to R603, and each
owning chapter). -/
namespace Sys2Proof.Machine

/-- Access type of a register field (R593); `rsv` is a reserved field. -/
inductive Access where
  | ro | rw | w1c | wo | wos | lck | fuse | rsv
  deriving DecidableEq, Repr

/-- One register, or `count` registers in consecutive 8-byte slots (R590). -/
structure RegDesc where
  /-- BAR0 offset; in a die region the offset for die CD0. -/
  off : Nat
  /-- Registers in the array. -/
  count : Nat
  /-- 64 bits wide; otherwise 32. -/
  wide : Bool
  /-- (high bit, low bit, access type) of each field. -/
  fields : List (Nat × Nat × Access)
  deriving DecidableEq, Repr

/-- How a block shows in a virtual function's BAR0 (R598, R599). -/
inductive VfView where
  | absent | readOnly | present
  deriving DecidableEq, Repr

/-- One block of the index of R598. -/
structure BlockDesc where
  base : Nat
  size : Nat
  /-- Every register of the block is hardware-implemented (R597). -/
  hw : Bool
  vf : VfView
  /-- Each function has its own copy (R598). -/
  perFunc : Bool
  deriving DecidableEq, Repr

/-- Base of the region of die `d` (R598). -/
def dieBase (d : Nat) : Nat := 0x100000 + d * 0x40000

/-- ZG_BEAT_QUAD: Rates of the four quadrants (02_clockless_timing.md). -/
def ZG_BEAT_QUAD (d : Nat) : Nat := dieBase d + 0x0
/-- ZG_BEAT_WINDOW: Minimum rate and window sequence (02_clockless_timing.md). -/
def ZG_BEAT_WINDOW (d : Nat) : Nat := dieBase d + 0x8
/-- ZG_BEAT_STAMP: End timestamp of the last published window (02_clockless_timing.md). -/
def ZG_BEAT_STAMP (d : Nat) : Nat := dieBase d + 0x10
/-- ZG_BEAT_COUNT: Sum of MIN_BPUS over all published windows since cold reset: the beats of the slowest quadrant (02_clockless_timing.md). -/
def ZG_BEAT_COUNT (d : Nat) : Nat := dieBase d + 0x18
/-- ZG_FMT_SERVICE: Present subnormal service mode and the reason for it (03_number_formats.md). -/
def ZG_FMT_SERVICE (d : Nat) : Nat := dieBase d + 0x1000
/-- ZG_FMT_SVC_STAMP: Timestamp of the last change of mode (03_number_formats.md). -/
def ZG_FMT_SVC_STAMP (d : Nat) : Nat := dieBase d + 0x1008
/-- ZG_MXE_CTRL: Repeat and substitution controls (05_matrix_engines.md). -/
def ZG_MXE_CTRL (d : Nat) : Nat := dieBase d + 0x2000
/-- ZG_MXE_RES_TRANS: Events classed transient (05_matrix_engines.md). -/
def ZG_MXE_RES_TRANS (d : Nat) : Nat := dieBase d + 0x2010
/-- ZG_MXE_RES_PERM: Events classed permanent (05_matrix_engines.md). -/
def ZG_MXE_RES_PERM (d : Nat) : Nat := dieBase d + 0x2018
/-- ZG_MXE_RES_UNREC: Events classed unrecovered (05_matrix_engines.md). -/
def ZG_MXE_RES_UNREC (d : Nat) : Nat := dieBase d + 0x2020
/-- ZG_MXE_LAST: Last classified event (05_matrix_engines.md). -/
def ZG_MXE_LAST (d : Nat) : Nat := dieBase d + 0x2028
/-- ZG_MXE_LAST_NS: Timestamp of the last classified event (05_matrix_engines.md). -/
def ZG_MXE_LAST_NS (d : Nat) : Nat := dieBase d + 0x2030
/-- ZG_MXE_ISSUE_BEATS: Beats, summed over the die's arrays, in which an array took in operands (05_matrix_engines.md). -/
def ZG_MXE_ISSUE_BEATS (d : Nat) : Nat := dieBase d + 0x2038
/-- ZG_MXE_FREEZE_FEED_NS: Array-nanoseconds frozen for missing operands or scales (05_matrix_engines.md). -/
def ZG_MXE_FREEZE_FEED_NS (d : Nat) : Nat := dieBase d + 0x2040
/-- ZG_MXE_FREEZE_BANK_NS: Array-nanoseconds frozen at pass boundaries under R105 (05_matrix_engines.md). -/
def ZG_MXE_FREEZE_BANK_NS (d : Nat) : Nat := dieBase d + 0x2048
/-- ZG_MXE_FREEZE_GATE_NS: Array-nanoseconds frozen by a closed pace gate (05_matrix_engines.md). -/
def ZG_MXE_FREEZE_GATE_NS (d : Nat) : Nat := dieBase d + 0x2050
/-- ZG_MXE_SPARE: Spare map; ZG_MXE_SPAREk holds clusters C(8k) to C(8k+7) (05_matrix_engines.md). -/
def ZG_MXE_SPARE (d : Nat) (k : Nat) : Nat := dieBase d + 0x2080 + 8 * k
/-- ZG_CLU_OWN: Owner bytes; ZG_CLU_OWNk holds clusters C(8k) to C(8k+7), byte j for C(8k + j) (06_cluster_sram_vector.md). -/
def ZG_CLU_OWN (d : Nat) (k : Nat) : Nat := dieBase d + 0x3000 + 8 * k
/-- ZG_CLU_CARVE: Carve-out size (06_cluster_sram_vector.md). -/
def ZG_CLU_CARVE (d : Nat) : Nat := dieBase d + 0x3040
/-- ZG_CLU_SCRUB: Scrubber control (06_cluster_sram_vector.md). -/
def ZG_CLU_SCRUB (d : Nat) : Nat := dieBase d + 0x3048
/-- ZG_CLU_ECC_CE: Corrected SRAM errors (06_cluster_sram_vector.md). -/
def ZG_CLU_ECC_CE (d : Nat) : Nat := dieBase d + 0x3050
/-- ZG_CLU_ECC_UE: Uncorrectable SRAM errors (06_cluster_sram_vector.md). -/
def ZG_CLU_ECC_UE (d : Nat) : Nat := dieBase d + 0x3058
/-- ZG_CLU_ECC_LAST: Last uncorrectable error (06_cluster_sram_vector.md). -/
def ZG_CLU_ECC_LAST (d : Nat) : Nat := dieBase d + 0x3060
/-- ZG_CLU_DENIED: Commands refused under R128 and accesses refused under R131 (06_cluster_sram_vector.md). -/
def ZG_CLU_DENIED (d : Nat) : Nat := dieBase d + 0x3068
/-- ZG_CLU_VFAULT: Last vector-program fault (06_cluster_sram_vector.md). -/
def ZG_CLU_VFAULT (d : Nat) : Nat := dieBase d + 0x3070
/-- ZG_TSL_SEL: Cluster and slot shown in ZG_TSL_SLOT (07_teasel_irregular.md). -/
def ZG_TSL_SEL (d : Nat) : Nat := dieBase d + 0x4000
/-- ZG_TSL_SLOT: State of the selected slot (07_teasel_irregular.md). -/
def ZG_TSL_SLOT (d : Nat) : Nat := dieBase d + 0x4008
/-- ZG_TSL_OPS: Teasel operations completed on the die (07_teasel_irregular.md). -/
def ZG_TSL_OPS (d : Nat) : Nat := dieBase d + 0x4010
/-- ZG_TSL_FLIPS: Slot flips taken (07_teasel_irregular.md). -/
def ZG_TSL_FLIPS (d : Nat) : Nat := dieBase d + 0x4018
/-- ZG_TSL_OOR: Out-of-range indices (07_teasel_irregular.md). -/
def ZG_TSL_OOR (d : Nat) : Nat := dieBase d + 0x4020
/-- ZG_TSL_EPOCH_FAIL: Flip commands refused under R181 (07_teasel_irregular.md). -/
def ZG_TSL_EPOCH_FAIL (d : Nat) : Nat := dieBase d + 0x4028
/-- ZG_TSL_LAST: Last failed Teasel operation (07_teasel_irregular.md). -/
def ZG_TSL_LAST (d : Nat) : Nat := dieBase d + 0x4030
/-- ZG_HBM_CTRL: Thermal controls and lock (08_hbm_memory.md). -/
def ZG_HBM_CTRL (d : Nat) : Nat := dieBase d + 0x5000
/-- ZG_HBM_SCRUB: Scrubbing and repair controls (08_hbm_memory.md). -/
def ZG_HBM_SCRUB (d : Nat) : Nat := dieBase d + 0x5008
/-- ZG_HBM_STACK: State of stack k (08_hbm_memory.md). -/
def ZG_HBM_STACK (d : Nat) (k : Nat) : Nat := dieBase d + 0x5010 + 8 * k
/-- ZG_HBM_CE: Corrected errors on stack k (08_hbm_memory.md). -/
def ZG_HBM_CE (d : Nat) (k : Nat) : Nat := dieBase d + 0x5040 + 8 * k
/-- ZG_HBM_UE: Uncorrectable errors on the die's stacks (08_hbm_memory.md). -/
def ZG_HBM_UE (d : Nat) : Nat := dieBase d + 0x5060
/-- ZG_HBM_UNWR: Reads of never-written granules (08_hbm_memory.md). -/
def ZG_HBM_UNWR (d : Nat) : Nat := dieBase d + 0x5068
/-- ZG_HBM_FAULTS: Faults under R201 (08_hbm_memory.md). -/
def ZG_HBM_FAULTS (d : Nat) : Nat := dieBase d + 0x5070
/-- ZG_HBM_THR_NS: Stack-nanoseconds spent at levels 1 to 3 (08_hbm_memory.md). -/
def ZG_HBM_THR_NS (d : Nat) : Nat := dieBase d + 0x5078
/-- ZG_HBM_ERR_HEAD: Newest error-record sequence number in [31:0]; [63:32] reserved (08_hbm_memory.md). -/
def ZG_HBM_ERR_HEAD (d : Nat) : Nat := dieBase d + 0x5080
/-- ZG_HBM_FAULT_LAST: Last fault (08_hbm_memory.md). -/
def ZG_HBM_FAULT_LAST (d : Nat) : Nat := dieBase d + 0x5088
/-- ZG_HBM_FAULT_VA: VA of the last fault (08_hbm_memory.md). -/
def ZG_HBM_FAULT_VA (d : Nat) : Nat := dieBase d + 0x5090
/-- ZG_HPT_SEL: Partition shown in ZG_HPT_STATE (08_hbm_memory.md). -/
def ZG_HPT_SEL : Nat := 0x24000
/-- ZG_HPT_STATE: Banked state of the selected partition (08_hbm_memory.md). -/
def ZG_HPT_STATE : Nat := 0x24008
/-- ZG_D2D_CTRL: Retrain and edge limits, lock (09_die_to_die.md). -/
def ZG_D2D_CTRL (d : Nat) : Nat := dieBase d + 0x6000
/-- ZG_D2D_WDOG: Stream watchdog limits (09_die_to_die.md). -/
def ZG_D2D_WDOG (d : Nat) : Nat := dieBase d + 0x6008
/-- ZG_D2D_PORT: State of port k (09_die_to_die.md). -/
def ZG_D2D_PORT (d : Nat) (k : Nat) : Nat := dieBase d + 0x6010 + 8 * k
/-- ZG_D2D_DOWN: Strands DOWN on port k (09_die_to_die.md). -/
def ZG_D2D_DOWN (d : Nat) (k : Nat) : Nat := dieBase d + 0x6030 + 8 * k
/-- ZG_D2D_CRC: Frames received on port k with a wrong CRC (09_die_to_die.md). -/
def ZG_D2D_CRC (d : Nat) (k : Nat) : Nat := dieBase d + 0x6050 + 8 * k
/-- ZG_D2D_REPLAY: Frames resent on port k (09_die_to_die.md). -/
def ZG_D2D_REPLAY (d : Nat) (k : Nat) : Nat := dieBase d + 0x6070 + 8 * k
/-- ZG_D2D_ACKBAD: ACK fields discarded under R226 (09_die_to_die.md). -/
def ZG_D2D_ACKBAD (d : Nat) : Nat := dieBase d + 0x6088
/-- ZG_D2D_RETRAIN: Strand retrains (09_die_to_die.md). -/
def ZG_D2D_RETRAIN (d : Nat) : Nat := dieBase d + 0x6090
/-- ZG_D2D_STALLS: "Stalled" events (09_die_to_die.md). -/
def ZG_D2D_STALLS (d : Nat) : Nat := dieBase d + 0x6098
/-- ZG_D2D_ABORTS: Streams failed under R242 or R244 (09_die_to_die.md). -/
def ZG_D2D_ABORTS (d : Nat) : Nat := dieBase d + 0x60A0
/-- ZG_D2D_LAST: Last link or stream event (09_die_to_die.md). -/
def ZG_D2D_LAST (d : Nat) : Nat := dieBase d + 0x60A8
/-- ZG_D2D_LAST_NS: Timestamp of the event in ZG_D2D_LAST (09_die_to_die.md). -/
def ZG_D2D_LAST_NS (d : Nat) : Nat := dieBase d + 0x60B0
/-- ZG_ADM_CFG: Admin queue set-up and function state (10_host_queues.md). -/
def ZG_ADM_CFG : Nat := 0x4000
/-- ZG_ADM_SQ_BASE: Admin submission ring base, 4 KiB aligned; RW while ENABLE = 0 (10_host_queues.md). -/
def ZG_ADM_SQ_BASE : Nat := 0x4008
/-- ZG_ADM_CQ_BASE: Admin completion ring base, 4 KiB aligned; RW while ENABLE = 0 (10_host_queues.md). -/
def ZG_ADM_CQ_BASE : Nat := 0x4010
/-- ZG_HQ_SEL: Queue selected; the write takes the snapshot (10_host_queues.md). -/
def ZG_HQ_SEL : Nat := 0x5000
/-- ZG_HQ_STATE: State of the selected queue (10_host_queues.md). -/
def ZG_HQ_STATE : Nat := 0x5008
/-- ZG_HQ_DB_SEQ: Last accepted submission-doorbell value (10_host_queues.md). -/
def ZG_HQ_DB_SEQ : Nat := 0x5010
/-- ZG_HQ_FETCHED_SEQ: SUBMIT_SEQ of the newest fetched descriptor (10_host_queues.md). -/
def ZG_HQ_FETCHED_SEQ : Nat := 0x5018
/-- ZG_HQ_DONE_SEQ: Highest SUBMIT_SEQ whose command and every earlier one have ended (10_host_queues.md). -/
def ZG_HQ_DONE_SEQ : Nat := 0x5020
/-- ZG_HQ_CMPL_SEQ: CMPL_SEQ of the newest record written (10_host_queues.md). -/
def ZG_HQ_CMPL_SEQ : Nat := 0x5028
/-- ZG_HQ_CQ_CONSUMED: Last accepted completion-doorbell value (10_host_queues.md). -/
def ZG_HQ_CQ_CONSUMED : Nat := 0x5030
/-- ZG_HQ_SNAP_NS: Timestamp of the snapshot (10_host_queues.md). -/
def ZG_HQ_SNAP_NS : Nat := 0x5038
/-- ZG_HQ_EVT_ASSIGNED: Newest EVT_SEQ assigned (10_host_queues.md). -/
def ZG_HQ_EVT_ASSIGNED : Nat := 0x5040
/-- ZG_HQ_EVT_WRITTEN: Newest EVT_SEQ written to the ring (10_host_queues.md). -/
def ZG_HQ_EVT_WRITTEN : Nat := 0x5048
/-- ZG_HQ_EVT_CONSUMED: Last accepted event-doorbell value (10_host_queues.md). -/
def ZG_HQ_EVT_CONSUMED : Nat := 0x5050
/-- ZG_HQ_DB_STALE: Doorbell writes ignored as malformed or stale (10_host_queues.md). -/
def ZG_HQ_DB_STALE : Nat := 0x5058
/-- ZG_HQ_DB_DENIED: Doorbell writes denied under R254 (10_host_queues.md). -/
def ZG_HQ_DB_DENIED : Nat := 0x5060
/-- ZG_HQ_SIG_DENIED: Signals refused or blocked under R261 and R262 (10_host_queues.md). -/
def ZG_HQ_SIG_DENIED : Nat := 0x5068
/-- ZG_HQ_CQ_FULL: Times a queue of the function held records under R259 (10_host_queues.md). -/
def ZG_HQ_CQ_FULL : Nat := 0x5070
/-- ZG_MBX_DOORBELL: Issues the command in the buffer (10_host_queues.md). -/
def ZG_MBX_DOORBELL : Nat := 0x10000
/-- ZG_MBX_SEQ: Accepted and done sequences (10_host_queues.md). -/
def ZG_MBX_SEQ : Nat := 0x10008
/-- ZG_MBX_STATUS: State and result of the last command (10_host_queues.md). -/
def ZG_MBX_STATUS : Nat := 0x10010
/-- ZG_MBX_REJECT: Doorbell writes ignored under R280 (10_host_queues.md). -/
def ZG_MBX_REJECT : Nat := 0x10018
/-- ZG_MBX_BUF: Command buffer, RW (10_host_queues.md). -/
def ZG_MBX_BUF (k : Nat) : Nat := 0x11000 + 8 * k
/-- ZG_MBX_RESP: Response of the last command, RO (10_host_queues.md). -/
def ZG_MBX_RESP (k : Nat) : Nat := 0x12000 + 8 * k
/-- ZG_SYN_OWN: Owner bytes; ZG_SYN_OWNk holds blocks 8k to 8k + 7, byte j for block 8k + j (11_synchronisation.md). -/
def ZG_SYN_OWN (d : Nat) (k : Nat) : Nat := dieBase d + 0x7000 + 8 * k
/-- ZG_SYN_CTRL: Detector interval and lock (11_synchronisation.md). -/
def ZG_SYN_CTRL (d : Nat) : Nat := dieBase d + 0x7040
/-- ZG_SYN_SEL: Object shown; the write takes the snapshot (11_synchronisation.md). -/
def ZG_SYN_SEL (d : Nat) : Nat := dieBase d + 0x7048
/-- ZG_SYN_OBJ: Value, generation and flags of the selected object (11_synchronisation.md). -/
def ZG_SYN_OBJ (d : Nat) : Nat := dieBase d + 0x7050
/-- ZG_SYN_OBJ2: Target, tenant and watchers of the selected object (11_synchronisation.md). -/
def ZG_SYN_OBJ2 (d : Nat) : Nat := dieBase d + 0x7058
/-- ZG_SYN_OPS: Operations applied on the die's objects (11_synchronisation.md). -/
def ZG_SYN_OPS (d : Nat) : Nat := dieBase d + 0x7060
/-- ZG_SYN_DENIED: Operations blocked under R295 (11_synchronisation.md). -/
def ZG_SYN_DENIED (d : Nat) : Nat := dieBase d + 0x7068
/-- ZG_SYN_RANGE: Range events under R288 and R289 (11_synchronisation.md). -/
def ZG_SYN_RANGE (d : Nat) : Nat := dieBase d + 0x7070
/-- ZG_SYN_MISUSE: Misuse under R290 (11_synchronisation.md). -/
def ZG_SYN_MISUSE (d : Nat) : Nat := dieBase d + 0x7078
/-- ZG_SYN_DL_REPORTS: Reports under R309 (11_synchronisation.md). -/
def ZG_SYN_DL_REPORTS (d : Nat) : Nat := dieBase d + 0x7080
/-- ZG_SYN_REMOTE_DROP: Remote operations dropped under R304 (11_synchronisation.md). -/
def ZG_SYN_REMOTE_DROP (d : Nat) : Nat := dieBase d + 0x7088
/-- ZG_SYN_DL_LAST: Last detector report (11_synchronisation.md). -/
def ZG_SYN_DL_LAST (d : Nat) : Nat := dieBase d + 0x7090
/-- ZG_SYN_DL_NS: Timestamp of the report in ZG_SYN_DL_LAST (11_synchronisation.md). -/
def ZG_SYN_DL_NS (d : Nat) : Nat := dieBase d + 0x7098
/-- ZG_CGO_OWN: Owner bytes; ZG_CGO_OWNk holds blocks 8k to 8k + 7, byte j for block 8k + j (12_collectives.md). -/
def ZG_CGO_OWN (k : Nat) : Nat := 0x23000 + 8 * k
/-- ZG_CGO_MSTORE: Free units of the member store (12_collectives.md). -/
def ZG_CGO_MSTORE : Nat := 0x23040
/-- ZG_COL_CTRL: Abort limit, laggard event, pace-follow, lock (12_collectives.md). -/
def ZG_COL_CTRL (d : Nat) : Nat := dieBase d + 0x8000
/-- ZG_COL_WDOG: Resend and stall limits (12_collectives.md). -/
def ZG_COL_WDOG (d : Nat) : Nat := dieBase d + 0x8008
/-- ZG_COL_SEL: Group shown; the write takes the snapshot (12_collectives.md). -/
def ZG_COL_SEL (d : Nat) : Nat := dieBase d + 0x8010
/-- ZG_COL_GRP: State of the selected group on this die (12_collectives.md). -/
def ZG_COL_GRP (d : Nat) : Nat := dieBase d + 0x8018
/-- ZG_COL_SEQ: Lane sequences of the selected group (12_collectives.md). -/
def ZG_COL_SEQ (d : Nat) : Nat := dieBase d + 0x8020
/-- ZG_COL_LAG: Laggard record of the selected group (12_collectives.md). -/
def ZG_COL_LAG (d : Nat) : Nat := dieBase d + 0x8028
/-- ZG_COL_OPS: Operations completed (12_collectives.md). -/
def ZG_COL_OPS (d : Nat) : Nat := dieBase d + 0x8030
/-- ZG_COL_STALLS: Stalls under R343 (12_collectives.md). -/
def ZG_COL_STALLS (d : Nat) : Nat := dieBase d + 0x8038
/-- ZG_COL_ABORTS: Aborts under R345 and R346 (12_collectives.md). -/
def ZG_COL_ABORTS (d : Nat) : Nat := dieBase d + 0x8040
/-- ZG_COL_MISMATCH: Order and epoch mismatches (12_collectives.md). -/
def ZG_COL_MISMATCH (d : Nat) : Nat := dieBase d + 0x8048
/-- ZG_COL_DROPPED: Messages dropped under R325 (12_collectives.md). -/
def ZG_COL_DROPPED (d : Nat) : Nat := dieBase d + 0x8050
/-- ZG_COL_RESENDS: Chunks resent under R338 and R339 (12_collectives.md). -/
def ZG_COL_RESENDS (d : Nat) : Nat := dieBase d + 0x8058
/-- ZG_COL_WAIT_NS: Sum of LAG_NS under R341 (12_collectives.md). -/
def ZG_COL_WAIT_NS (d : Nat) : Nat := dieBase d + 0x8060
/-- ZG_COL_PACE_NS: Nanoseconds with pace-follow engaged (12_collectives.md). -/
def ZG_COL_PACE_NS (d : Nat) : Nat := dieBase d + 0x8068
/-- ZG_COL_LAST: Last event of class 0x08 on this die (12_collectives.md). -/
def ZG_COL_LAST (d : Nat) : Nat := dieBase d + 0x8070
/-- ZG_COL_LAST_NS: Timestamp of the event in ZG_COL_LAST (12_collectives.md). -/
def ZG_COL_LAST_NS (d : Nat) : Nat := dieBase d + 0x8078
/-- ZG_WFN_CTRL: Replay limits and lock (13_wefin_links_topology.md). -/
def ZG_WFN_CTRL (d : Nat) : Nat := dieBase d + 0x9000
/-- ZG_WFN_PORT: State of port k (13_wefin_links_topology.md). -/
def ZG_WFN_PORT (d : Nat) (k : Nat) : Nat := dieBase d + 0x9010 + 8 * k
/-- ZG_WFN_LAST: Last event of class 0x09 on the die (13_wefin_links_topology.md). -/
def ZG_WFN_LAST (d : Nat) : Nat := dieBase d + 0x9040
/-- ZG_WFN_LAST_NS: Timestamp of that event (13_wefin_links_topology.md). -/
def ZG_WFN_LAST_NS (d : Nat) : Nat := dieBase d + 0x9048
/-- ZG_WFN_DROP_TENANT: Packets dropped for the tenant tag (13_wefin_links_topology.md). -/
def ZG_WFN_DROP_TENANT (d : Nat) : Nat := dieBase d + 0x9050
/-- ZG_WFN_DROP_OTHER: Packets dropped for every other cause of R368 and R384 (13_wefin_links_topology.md). -/
def ZG_WFN_DROP_OTHER (d : Nat) : Nat := dieBase d + 0x9058
/-- ZG_WFN_DUP: Duplicates discarded under R368 (13_wefin_links_topology.md). -/
def ZG_WFN_DUP (d : Nat) : Nat := dieBase d + 0x9060
/-- ZG_WFN_CNT: Counter c of port k: 0 DATA flits sent; 1 DATA flits accepted; 2 CRC discards; 3 FSEQ discards; 4 flits resent; 5 ACK fields discarded; 6 symbols corrected; 7 uncorrectable codewords (13_wefin_links_topology.md). -/
def ZG_WFN_CNT (d : Nat) (k : Nat) : Nat := dieBase d + 0x9100 + 8 * k
/-- ZG_TOP_PLAN: Plan in force (13_wefin_links_topology.md). -/
def ZG_TOP_PLAN : Nat := 0x21000
/-- ZG_TOP_CTRL: Settle time, TTL, lock (13_wefin_links_topology.md). -/
def ZG_TOP_CTRL : Nat := 0x21008
/-- ZG_TOP_DISC: Discovery state (13_wefin_links_topology.md). -/
def ZG_TOP_DISC : Nat := 0x21010
/-- ZG_TOP_RSEL: Region shown; the write takes the snapshot (13_wefin_links_topology.md). -/
def ZG_TOP_RSEL : Nat := 0x21018
/-- ZG_TOP_REGION: State of the selected region (13_wefin_links_topology.md). -/
def ZG_TOP_REGION : Nat := 0x21020
/-- ZG_TOP_ROUTE: Banked state of the route table (13_wefin_links_topology.md). -/
def ZG_TOP_ROUTE : Nat := 0x21028
/-- ZG_TOP_VERIFY: Last verification report (13_wefin_links_topology.md). -/
def ZG_TOP_VERIFY : Nat := 0x21030
/-- ZG_TOP_TWIN: Twin state (13_wefin_links_topology.md). -/
def ZG_TOP_TWIN : Nat := 0x21038
/-- ZG_TOP_TIME: Alignment parent and offset (13_wefin_links_topology.md). -/
def ZG_TOP_TIME : Nat := 0x21040
/-- ZG_TOP_PLANS: Route tables flipped (13_wefin_links_topology.md). -/
def ZG_TOP_PLANS : Nat := 0x21048
/-- ZG_TOP_DISCARDS: Plans discarded under R381 (13_wefin_links_topology.md). -/
def ZG_TOP_DISCARDS : Nat := 0x21050
/-- ZG_TRN_CTRL: Lending controls and lock (14_training_support.md). -/
def ZG_TRN_CTRL (d : Nat) : Nat := dieBase d + 0xA000
/-- ZG_TRN_LEND: Lendable clusters (14_training_support.md). -/
def ZG_TRN_LEND (d : Nat) : Nat := dieBase d + 0xA008
/-- ZG_TRN_STAGE: Stage contexts and schedule (14_training_support.md). -/
def ZG_TRN_STAGE (d : Nat) : Nat := dieBase d + 0xA010
/-- ZG_TRN_LOANS: Loans granted (14_training_support.md). -/
def ZG_TRN_LOANS (d : Nat) : Nat := dieBase d + 0xA020
/-- ZG_TRN_LENT_NS: Cluster-nanoseconds lent (14_training_support.md). -/
def ZG_TRN_LENT_NS (d : Nat) : Nat := dieBase d + 0xA028
/-- ZG_TRN_RESTARTS: Filler attempts ended under R428 (14_training_support.md). -/
def ZG_TRN_RESTARTS (d : Nat) : Nat := dieBase d + 0xA030
/-- ZG_TRN_DEFER_DISP: Deferred commands dispatched (14_training_support.md). -/
def ZG_TRN_DEFER_DISP (d : Nat) : Nat := dieBase d + 0xA038
/-- ZG_TRN_ACT_FAIL: Activation loads failed under R413 (14_training_support.md). -/
def ZG_TRN_ACT_FAIL (d : Nat) : Nat := dieBase d + 0xA040
/-- ZG_TRN_LAST: Last event of class 0x0A on the die (14_training_support.md). -/
def ZG_TRN_LAST (d : Nat) : Nat := dieBase d + 0xA048
/-- ZG_TRN_LAST_NS: Timestamp of that event (14_training_support.md). -/
def ZG_TRN_LAST_NS (d : Nat) : Nat := dieBase d + 0xA050
/-- ZG_SRL_CTRL: Slice, wait event and lock (15_sorrel_update.md). -/
def ZG_SRL_CTRL (d : Nat) : Nat := dieBase d + 0xB000
/-- ZG_SRL_STATE: Present command (15_sorrel_update.md). -/
def ZG_SRL_STATE (d : Nat) : Nat := dieBase d + 0xB008
/-- ZG_SRL_UPDATES: SRL_UPDATE commands committed (15_sorrel_update.md). -/
def ZG_SRL_UPDATES (d : Nat) : Nat := dieBase d + 0xB010
/-- ZG_SRL_ROOTS: SRL_ROOT commands committed (15_sorrel_update.md). -/
def ZG_SRL_ROOTS (d : Nat) : Nat := dieBase d + 0xB018
/-- ZG_SRL_ELEMS: Weight elements written (15_sorrel_update.md). -/
def ZG_SRL_ELEMS (d : Nat) : Nat := dieBase d + 0xB020
/-- ZG_SRL_SKIPPED: Updates failed with nonfinite-skipped (15_sorrel_update.md). -/
def ZG_SRL_SKIPPED (d : Nat) : Nat := dieBase d + 0xB028
/-- ZG_SRL_DIVERGED: Root commands failed with root-diverged (15_sorrel_update.md). -/
def ZG_SRL_DIVERGED (d : Nat) : Nat := dieBase d + 0xB030
/-- ZG_SRL_TORN: Commits left torn under R451 (15_sorrel_update.md). -/
def ZG_SRL_TORN (d : Nat) : Nat := dieBase d + 0xB038
/-- ZG_SRL_BORROW_NS: Cluster-nanoseconds borrowed (15_sorrel_update.md). -/
def ZG_SRL_BORROW_NS (d : Nat) : Nat := dieBase d + 0xB040
/-- ZG_SRL_LAST: Last event of class 0x0B on the die (15_sorrel_update.md). -/
def ZG_SRL_LAST (d : Nat) : Nat := dieBase d + 0xB048
/-- ZG_SRL_LAST_NS: Timestamp of that event (15_sorrel_update.md). -/
def ZG_SRL_LAST_NS (d : Nat) : Nat := dieBase d + 0xB050
/-- ZG_INT_ST: On-demand self-test (16_integrity_determinism.md). -/
def ZG_INT_ST (d : Nat) : Nat := dieBase d + 0xC000
/-- ZG_INT_INJECT: Residue fault injection (16_integrity_determinism.md). -/
def ZG_INT_INJECT (d : Nat) : Nat := dieBase d + 0xC008
/-- ZG_INT_ALIVE: ALIVE of the last check record written by the die (16_integrity_determinism.md). -/
def ZG_INT_ALIVE (d : Nat) : Nat := dieBase d + 0xC010
/-- ZG_INT_SCANS: CHK_SCAN commands completed (16_integrity_determinism.md). -/
def ZG_INT_SCANS (d : Nat) : Nat := dieBase d + 0xC018
/-- ZG_INT_MISMATCH: Check-mismatch completions (16_integrity_determinism.md). -/
def ZG_INT_MISMATCH (d : Nat) : Nat := dieBase d + 0xC020
/-- ZG_INT_PROV: PROVENANCE commands completed (16_integrity_determinism.md). -/
def ZG_INT_PROV (d : Nat) : Nat := dieBase d + 0xC028
/-- ZG_INT_COL_RES: Collective combine mismatches under R466 (16_integrity_determinism.md). -/
def ZG_INT_COL_RES (d : Nat) : Nat := dieBase d + 0xC030
/-- ZG_INT_SRL_RES: Sorrel element mismatches under R467 (16_integrity_determinism.md). -/
def ZG_INT_SRL_RES (d : Nat) : Nat := dieBase d + 0xC038
/-- ZG_INT_LAST: Last event of class 0x0C on the die (16_integrity_determinism.md). -/
def ZG_INT_LAST (d : Nat) : Nat := dieBase d + 0xC040
/-- ZG_INT_LAST_NS: Timestamp of that event (16_integrity_determinism.md). -/
def ZG_INT_LAST_NS (d : Nat) : Nat := dieBase d + 0xC048
/-- ZG_INTH_COUNT: Enabled engine count (16_integrity_determinism.md). -/
def ZG_INTH_COUNT : Nat := 0x22000
/-- ZG_INTH_CTRL: Twin hold time and lock (16_integrity_determinism.md). -/
def ZG_INTH_CTRL : Nat := 0x22008
/-- ZG_INTH_TWIN: Twin-table state (16_integrity_determinism.md). -/
def ZG_INTH_TWIN : Nat := 0x22010
/-- ZG_INTH_TW_MATCH: Comparisons that matched (16_integrity_determinism.md). -/
def ZG_INTH_TW_MATCH : Nat := 0x22018
/-- ZG_INTH_TW_MISMATCH: Comparisons that differed (16_integrity_determinism.md). -/
def ZG_INTH_TW_MISMATCH : Nat := 0x22020
/-- ZG_INTH_TW_TIMEOUT: Twin-timeout and twin-unreachable completions (16_integrity_determinism.md). -/
def ZG_INTH_TW_TIMEOUT : Nat := 0x22028
/-- ZG_INTH_TW_DROP: Twin digests dropped or discarded under R491 (16_integrity_determinism.md). -/
def ZG_INTH_TW_DROP : Nat := 0x22030
/-- ZG_PWR_CFG: Slope, ballast, coolant (17_power_thermal.md). -/
def ZG_PWR_CFG : Nat := 0x20000
/-- ZG_PWR_LIMITS: Power limits of R507 (17_power_thermal.md). -/
def ZG_PWR_LIMITS : Nat := 0x20008
/-- ZG_PWR_NOW: Present powers and credit (17_power_thermal.md). -/
def ZG_PWR_NOW : Nat := 0x20010
/-- ZG_PWR_STATE: Package power state (17_power_thermal.md). -/
def ZG_PWR_STATE : Nat := 0x20018
/-- ZG_PWR_ENERGY: Package energy in µJ since cold reset (17_power_thermal.md). -/
def ZG_PWR_ENERGY : Nat := 0x20020
/-- ZG_PWR_PKG_ACCT: Package account in µJ (17_power_thermal.md). -/
def ZG_PWR_PKG_ACCT : Nat := 0x20028
/-- ZG_PWR_ESEL: Account shown; the write takes the snapshot (17_power_thermal.md). -/
def ZG_PWR_ESEL : Nat := 0x20030
/-- ZG_PWR_E_QUEUE: Selected queue's account in µJ (17_power_thermal.md). -/
def ZG_PWR_E_QUEUE : Nat := 0x20038
/-- ZG_PWR_E_PART: Selected partition's total in µJ (17_power_thermal.md). -/
def ZG_PWR_E_PART : Nat := 0x20040
/-- ZG_PWR_E_PSTAT: Selected partition's static account in µJ (17_power_thermal.md). -/
def ZG_PWR_E_PSTAT : Nat := 0x20048
/-- ZG_PWR_TRIP: Latched trip, R522 (17_power_thermal.md). -/
def ZG_PWR_TRIP : Nat := 0x20050
/-- ZG_PWR_TRIP_NS: Timestamp of the trip (17_power_thermal.md). -/
def ZG_PWR_TRIP_NS : Nat := 0x20058
/-- ZG_PWR_LAST: Last event of class 0x0D (17_power_thermal.md). -/
def ZG_PWR_LAST : Nat := 0x20060
/-- ZG_PWR_LAST_NS: Timestamp of that event (17_power_thermal.md). -/
def ZG_PWR_LAST_NS : Nat := 0x20068
/-- ZG_PWD_STATE: Actuators and causes (17_power_thermal.md). -/
def ZG_PWD_STATE (d : Nat) : Nat := dieBase d + 0xD000
/-- ZG_PWD_TEMP: Die temperatures (17_power_thermal.md). -/
def ZG_PWD_TEMP (d : Nat) : Nat := dieBase d + 0xD008
/-- ZG_PWD_VTHDR: Voltage-table header in use (17_power_thermal.md). -/
def ZG_PWD_VTHDR (d : Nat) : Nat := dieBase d + 0xD010
/-- ZG_PWD_VTSEL: Index shown in ZG_PWD_VTENT (17_power_thermal.md). -/
def ZG_PWD_VTSEL (d : Nat) : Nat := dieBase d + 0xD018
/-- ZG_PWD_VTENT: Entry of R502 for the selected index (17_power_thermal.md). -/
def ZG_PWD_VTENT (d : Nat) : Nat := dieBase d + 0xD020
/-- ZG_PWD_E_CORE: Core energy in µJ (17_power_thermal.md). -/
def ZG_PWD_E_CORE (d : Nat) : Nat := dieBase d + 0xD028
/-- ZG_PWD_E_HBM: Energy of the die's stacks in µJ (17_power_thermal.md). -/
def ZG_PWD_E_HBM (d : Nat) : Nat := dieBase d + 0xD030
/-- ZG_PWD_E_SERDES: Energy of the die's ports in µJ (17_power_thermal.md). -/
def ZG_PWD_E_SERDES (d : Nat) : Nat := dieBase d + 0xD038
/-- ZG_PWD_BALLAST: Ballast energy in µJ (17_power_thermal.md). -/
def ZG_PWD_BALLAST (d : Nat) : Nat := dieBase d + 0xD040
/-- ZG_PWD_THR_NS: Nanoseconds with THROTTLED set (17_power_thermal.md). -/
def ZG_PWD_THR_NS (d : Nat) : Nat := dieBase d + 0xD048
/-- ZG_PWD_ADMITS: Admissions under R504 (17_power_thermal.md). -/
def ZG_PWD_ADMITS (d : Nat) : Nat := dieBase d + 0xD050
/-- ZG_MGT_STATE: Betony state (18_betony_management_security.md). -/
def ZG_MGT_STATE : Nat := 0x6000
/-- ZG_MGT_EMU: Emulation status of the reading function (18_betony_management_security.md). -/
def ZG_MGT_EMU : Nat := 0x6008
/-- ZG_MGT_CREAD: Last counter read by this function (18_betony_management_security.md). -/
def ZG_MGT_CREAD : Nat := 0x6010
/-- ZG_MGT_CREAD_NS: Instant of that read (18_betony_management_security.md). -/
def ZG_MGT_CREAD_NS : Nat := 0x6018
/-- ZG_MGT_ALERT: ALERT_N and IBI thresholds (18_betony_management_security.md). -/
def ZG_MGT_ALERT : Nat := 0x6020
/-- ZG_MGT_ALARMS: ACTIVE alarms by severity (18_betony_management_security.md). -/
def ZG_MGT_ALARMS : Nat := 0x6028
/-- ZG_MGT_LOG_HEAD: Newest LSEQ assigned (18_betony_management_security.md). -/
def ZG_MGT_LOG_HEAD : Nat := 0x6030
/-- ZG_MGT_TRACE_HEAD: Trace records written since cold reset (18_betony_management_security.md). -/
def ZG_MGT_TRACE_HEAD : Nat := 0x6038
/-- ZG_MGT_AUDIT_HEAD: Newest ASEQ (18_betony_management_security.md). -/
def ZG_MGT_AUDIT_HEAD : Nat := 0x6040
/-- ZG_MGT_AUDIT_FLOOR: Oldest readable ASEQ (18_betony_management_security.md). -/
def ZG_MGT_AUDIT_FLOOR : Nat := 0x6048
/-- ZG_MGT_ROLE: Stored counter of roles 1 to 3 (18_betony_management_security.md). -/
def ZG_MGT_ROLE (k : Nat) : Nat := 0x6050 + 8 * k
/-- ZG_MGT_OVERRUNS: Overruns under R533 (18_betony_management_security.md). -/
def ZG_MGT_OVERRUNS : Nat := 0x6068
/-- ZG_MGT_RESTARTS: Betony restarts (18_betony_management_security.md). -/
def ZG_MGT_RESTARTS : Nat := 0x6070
/-- ZG_MGT_BUSY_READS: Emulated reads answered BUSY (18_betony_management_security.md). -/
def ZG_MGT_BUSY_READS : Nat := 0x6078
/-- ZG_MGT_WR_DROPPED: Emulated writes discarded (18_betony_management_security.md). -/
def ZG_MGT_WR_DROPPED : Nat := 0x6080
/-- ZG_MGT_LOG_LOST: Log records lost under R543 (18_betony_management_security.md). -/
def ZG_MGT_LOG_LOST : Nat := 0x6088
/-- ZG_MGT_TR_SAMPLED: Trace occurrences sampled out (18_betony_management_security.md). -/
def ZG_MGT_TR_SAMPLED : Nat := 0x6090
/-- ZG_MGT_TR_DROP: Sampled traces dropped (18_betony_management_security.md). -/
def ZG_MGT_TR_DROP : Nat := 0x6098
/-- ZG_MGT_AUTHFAIL: Failures at step 6 of R551 (18_betony_management_security.md). -/
def ZG_MGT_AUTHFAIL : Nat := 0x60A0
/-- ZG_PMC_SEL: Selection of counter k (18_betony_management_security.md). -/
def ZG_PMC_SEL (d : Nat) (k : Nat) : Nat := dieBase d + 0xE000 + 8 * k
/-- ZG_PMC_CNT: Count of counter k (18_betony_management_security.md). -/
def ZG_PMC_CNT (d : Nat) (k : Nat) : Nat := dieBase d + 0xE040 + 8 * k
/-- ZG_PMC_FINAL: Final count under the previous selection (18_betony_management_security.md). -/
def ZG_PMC_FINAL (d : Nat) (k : Nat) : Nat := dieBase d + 0xE080 + 8 * k
/-- ZG_PMC_FINFO: The previous selection and its boundary (18_betony_management_security.md). -/
def ZG_PMC_FINFO (d : Nat) (k : Nat) : Nat := dieBase d + 0xE0C0 + 8 * k
/-- ZG_BOOT_STATE: Stage, failure and readiness (19_startup_reset.md). -/
def ZG_BOOT_STATE : Nat := 0x3000
/-- ZG_BOOT_CTRL: Alignment wait, resets, lock (19_startup_reset.md). -/
def ZG_BOOT_CTRL : Nat := 0x3008
/-- ZG_BOOT_IMG_ADDR: I/O virtual address of the image, 4 KiB aligned; RW (19_startup_reset.md). -/
def ZG_BOOT_IMG_ADDR : Nat := 0x3010
/-- ZG_BOOT_IMG_LEN: Image length (19_startup_reset.md). -/
def ZG_BOOT_IMG_LEN : Nat := 0x3018
/-- ZG_BOOT_GO: Starts the image load (19_startup_reset.md). -/
def ZG_BOOT_GO : Nat := 0x3020
/-- ZG_BOOT_DIES: State of each compute die (19_startup_reset.md). -/
def ZG_BOOT_DIES : Nat := 0x3028
/-- ZG_BOOT_READY_NS: Timestamp of the last READY (19_startup_reset.md). -/
def ZG_BOOT_READY_NS : Nat := 0x3030
/-- ZG_BOOT_LAST: Last event of class 0x0F (19_startup_reset.md). -/
def ZG_BOOT_LAST : Nat := 0x3038
/-- ZG_BOOT_LAST_NS: Timestamp of that event (19_startup_reset.md). -/
def ZG_BOOT_LAST_NS : Nat := 0x3040
/-- ZG_BOOT_WARMS: Warm resets since cold reset (19_startup_reset.md). -/
def ZG_BOOT_WARMS : Nat := 0x3048
/-- ZG_BOOT_DIERSTS: Die resets since cold reset (19_startup_reset.md). -/
def ZG_BOOT_DIERSTS : Nat := 0x3050
/-- ZG_ID_PART: Vendor, device, stepping, grade, function (20_register_reference.md). -/
def ZG_ID_PART : Nat := 0x0
/-- ZG_ID_SERIAL: Device Serial Number (20_register_reference.md). -/
def ZG_ID_SERIAL : Nat := 0x8
/-- ZG_ID_CONFIG: Counts fixed by the grade (20_register_reference.md). -/
def ZG_ID_CONFIG : Nat := 0x10
/-- ZG_REG_ERR: Sticky kinds of rejected write (20_register_reference.md). -/
def ZG_REG_ERR : Nat := 0x1000
/-- ZG_REG_REJECTS: Rejected writes of this function (20_register_reference.md). -/
def ZG_REG_REJECTS : Nat := 0x1008
/-- ZG_REG_LAST: Last rejected write (20_register_reference.md). -/
def ZG_REG_LAST : Nat := 0x1010
/-- ZG_REG_LAST_NS: Timestamp of that write (20_register_reference.md). -/
def ZG_REG_LAST_NS : Nat := 0x1018
/-- ZG_REG_LAST_DATA: Value of that write (20_register_reference.md). -/
def ZG_REG_LAST_DATA : Nat := 0x1020
/-- ZG_TIME_NOW: The hub die's timebase (R36) (20_register_reference.md). -/
def ZG_TIME_NOW : Nat := 0x2000
/-- ZG_TIME_STATUS: State of the timebase; field map in *Clockless timing and the beat* (20_register_reference.md). -/
def ZG_TIME_STATUS : Nat := 0x2008

/-- The registers of ZG_BEAT. -/
def regsZGBEAT : List RegDesc := [
  -- ZG_BEAT_QUAD
  ⟨0x100000, 1, true, [(63, 48, .ro), (47, 32, .ro), (31, 16, .ro), (15, 0, .ro)]⟩,
  -- ZG_BEAT_WINDOW
  ⟨0x100008, 1, true, [(63, 48, .rsv), (47, 16, .ro), (15, 0, .ro)]⟩,
  -- ZG_BEAT_STAMP
  ⟨0x100010, 1, true, [(63, 0, .ro)]⟩,
  -- ZG_BEAT_COUNT
  ⟨0x100018, 1, true, [(63, 0, .ro)]⟩]

/-- The registers of ZG_FMT. -/
def regsZGFMT : List RegDesc := [
  -- ZG_FMT_SERVICE
  ⟨0x101000, 1, false, [(31, 24, .rsv), (23, 16, .ro), (15, 8, .ro), (7, 2, .rsv), (1, 1, .ro), (0, 0, .ro)]⟩,
  -- ZG_FMT_SVC_STAMP
  ⟨0x101008, 1, true, [(63, 0, .ro)]⟩]

/-- The registers of ZG_MXE. -/
def regsZGMXE : List RegDesc := [
  -- ZG_MXE_CTRL
  ⟨0x102000, 1, false, [(31, 16, .rsv), (15, 12, .lck), (11, 2, .rsv), (1, 1, .lck), (0, 0, .wos)]⟩,
  -- ZG_MXE_RES_TRANS
  ⟨0x102010, 1, true, [(63, 0, .ro)]⟩,
  -- ZG_MXE_RES_PERM
  ⟨0x102018, 1, true, [(63, 0, .ro)]⟩,
  -- ZG_MXE_RES_UNREC
  ⟨0x102020, 1, true, [(63, 0, .ro)]⟩,
  -- ZG_MXE_LAST
  ⟨0x102028, 1, true, [(63, 52, .rsv), (51, 48, .ro), (47, 44, .ro), (43, 38, .ro), (37, 34, .ro), (33, 30, .ro), (29, 16, .ro), (15, 0, .ro)]⟩,
  -- ZG_MXE_LAST_NS
  ⟨0x102030, 1, true, [(63, 0, .ro)]⟩,
  -- ZG_MXE_ISSUE_BEATS
  ⟨0x102038, 1, true, [(63, 0, .ro)]⟩,
  -- ZG_MXE_FREEZE_FEED_NS
  ⟨0x102040, 1, true, [(63, 0, .ro)]⟩,
  -- ZG_MXE_FREEZE_BANK_NS
  ⟨0x102048, 1, true, [(63, 0, .ro)]⟩,
  -- ZG_MXE_FREEZE_GATE_NS
  ⟨0x102050, 1, true, [(63, 0, .ro)]⟩,
  -- ZG_MXE_SPARE
  ⟨0x102080, 8, true, [(7, 7, .ro), (6, 6, .ro), (5, 4, .rsv), (3, 3, .ro), (2, 0, .ro), (15, 15, .ro), (14, 14, .ro), (13, 12, .rsv), (11, 11, .ro), (10, 8, .ro), (23, 23, .ro), (22, 22, .ro), (21, 20, .rsv), (19, 19, .ro), (18, 16, .ro), (31, 31, .ro), (30, 30, .ro), (29, 28, .rsv), (27, 27, .ro), (26, 24, .ro), (39, 39, .ro), (38, 38, .ro), (37, 36, .rsv), (35, 35, .ro), (34, 32, .ro), (47, 47, .ro), (46, 46, .ro), (45, 44, .rsv), (43, 43, .ro), (42, 40, .ro), (55, 55, .ro), (54, 54, .ro), (53, 52, .rsv), (51, 51, .ro), (50, 48, .ro), (63, 63, .ro), (62, 62, .ro), (61, 60, .rsv), (59, 59, .ro), (58, 56, .ro)]⟩]

/-- The registers of ZG_CLU. -/
def regsZGCLU : List RegDesc := [
  -- ZG_CLU_OWN
  ⟨0x103000, 8, true, [(7, 7, .rw), (6, 6, .ro), (5, 0, .rw), (15, 15, .rw), (14, 14, .ro), (13, 8, .rw), (23, 23, .rw), (22, 22, .ro), (21, 16, .rw), (31, 31, .rw), (30, 30, .ro), (29, 24, .rw), (39, 39, .rw), (38, 38, .ro), (37, 32, .rw), (47, 47, .rw), (46, 46, .ro), (45, 40, .rw), (55, 55, .rw), (54, 54, .ro), (53, 48, .rw), (63, 63, .rw), (62, 62, .ro), (61, 56, .rw)]⟩,
  -- ZG_CLU_CARVE
  ⟨0x103040, 1, false, [(31, 9, .rsv), (8, 8, .ro), (7, 5, .rsv), (4, 0, .rw)]⟩,
  -- ZG_CLU_SCRUB
  ⟨0x103048, 1, false, [(31, 17, .rsv), (16, 16, .rw), (15, 0, .rw)]⟩,
  -- ZG_CLU_ECC_CE
  ⟨0x103050, 1, true, [(63, 0, .ro)]⟩,
  -- ZG_CLU_ECC_UE
  ⟨0x103058, 1, true, [(63, 0, .ro)]⟩,
  -- ZG_CLU_ECC_LAST
  ⟨0x103060, 1, true, [(63, 56, .rsv), (55, 42, .ro), (41, 36, .ro), (35, 31, .ro), (30, 18, .ro), (17, 15, .ro), (14, 12, .ro), (11, 0, .rsv)]⟩,
  -- ZG_CLU_DENIED
  ⟨0x103068, 1, true, [(63, 0, .ro)]⟩,
  -- ZG_CLU_VFAULT
  ⟨0x103070, 1, true, [(63, 40, .rsv), (39, 32, .ro), (31, 26, .ro), (25, 24, .ro), (23, 13, .ro), (12, 0, .ro)]⟩]

/-- The registers of ZG_TSL. -/
def regsZGTSL : List RegDesc := [
  -- ZG_TSL_SEL
  ⟨0x104000, 1, false, [(31, 10, .rsv), (9, 4, .rw), (3, 0, .rw)]⟩,
  -- ZG_TSL_SLOT
  ⟨0x104008, 1, true, [(63, 32, .ro), (31, 31, .ro), (30, 30, .ro), (29, 29, .ro), (28, 28, .ro), (27, 27, .ro), (26, 20, .ro), (19, 13, .ro), (12, 0, .rsv)]⟩,
  -- ZG_TSL_OPS
  ⟨0x104010, 1, true, [(63, 0, .ro)]⟩,
  -- ZG_TSL_FLIPS
  ⟨0x104018, 1, true, [(63, 0, .ro)]⟩,
  -- ZG_TSL_OOR
  ⟨0x104020, 1, true, [(63, 0, .ro)]⟩,
  -- ZG_TSL_EPOCH_FAIL
  ⟨0x104028, 1, true, [(63, 0, .ro)]⟩,
  -- ZG_TSL_LAST
  ⟨0x104030, 1, true, [(63, 50, .rsv), (49, 36, .ro), (35, 30, .ro), (29, 26, .ro), (25, 22, .ro), (21, 16, .rsv), (15, 0, .ro)]⟩]

/-- The registers of ZG_HBM. -/
def regsZGHBM : List RegDesc := [
  -- ZG_HBM_CTRL
  ⟨0x105000, 1, false, [(31, 16, .lck), (15, 8, .lck), (7, 1, .rsv), (0, 0, .wos)]⟩,
  -- ZG_HBM_SCRUB
  ⟨0x105008, 1, false, [(31, 24, .lck), (23, 17, .rsv), (16, 16, .lck), (15, 0, .lck)]⟩,
  -- ZG_HBM_STACK
  ⟨0x105010, 4, true, [(63, 48, .rsv), (47, 40, .ro), (39, 38, .ro), (37, 37, .ro), (36, 36, .ro), (35, 35, .ro), (34, 26, .ro), (25, 16, .ro), (15, 0, .rsv)]⟩,
  -- ZG_HBM_CE
  ⟨0x105040, 4, true, [(63, 0, .ro)]⟩,
  -- ZG_HBM_UE
  ⟨0x105060, 1, true, [(63, 0, .ro)]⟩,
  -- ZG_HBM_UNWR
  ⟨0x105068, 1, true, [(63, 0, .ro)]⟩,
  -- ZG_HBM_FAULTS
  ⟨0x105070, 1, true, [(63, 0, .ro)]⟩,
  -- ZG_HBM_THR_NS
  ⟨0x105078, 1, true, [(63, 0, .ro)]⟩,
  -- ZG_HBM_ERR_HEAD
  ⟨0x105080, 1, true, [(63, 32, .rsv), (31, 0, .ro)]⟩,
  -- ZG_HBM_FAULT_LAST
  ⟨0x105088, 1, true, [(63, 58, .rsv), (57, 44, .ro), (43, 40, .ro), (39, 34, .ro), (33, 31, .ro), (30, 16, .rsv), (15, 0, .ro)]⟩,
  -- ZG_HBM_FAULT_VA
  ⟨0x105090, 1, true, [(63, 0, .ro)]⟩]

/-- The registers of ZG_HPT. -/
def regsZGHPT : List RegDesc := [
  -- ZG_HPT_SEL
  ⟨0x24000, 1, false, [(31, 6, .rsv), (5, 0, .rw)]⟩,
  -- ZG_HPT_STATE
  ⟨0x24008, 1, true, [(63, 32, .ro), (31, 31, .ro), (30, 30, .ro), (29, 16, .ro), (15, 2, .ro), (1, 1, .rsv), (0, 0, .ro)]⟩]

/-- The registers of ZG_D2D. -/
def regsZGD2D : List RegDesc := [
  -- ZG_D2D_CTRL
  ⟨0x106000, 1, false, [(31, 24, .lck), (23, 17, .lck), (16, 1, .rsv), (0, 0, .wos)]⟩,
  -- ZG_D2D_WDOG
  ⟨0x106008, 1, false, [(31, 16, .lck), (15, 0, .lck)]⟩,
  -- ZG_D2D_PORT
  ⟨0x106010, 3, true, [(63, 56, .rsv), (55, 53, .ro), (52, 51, .ro), (50, 44, .ro), (43, 37, .ro), (36, 28, .ro), (27, 27, .ro), (26, 0, .rsv)]⟩,
  -- ZG_D2D_DOWN
  ⟨0x106030, 3, true, [(63, 0, .ro)]⟩,
  -- ZG_D2D_CRC
  ⟨0x106050, 3, true, [(63, 0, .ro)]⟩,
  -- ZG_D2D_REPLAY
  ⟨0x106070, 3, true, [(63, 0, .ro)]⟩,
  -- ZG_D2D_ACKBAD
  ⟨0x106088, 1, true, [(63, 0, .ro)]⟩,
  -- ZG_D2D_RETRAIN
  ⟨0x106090, 1, true, [(63, 0, .ro)]⟩,
  -- ZG_D2D_STALLS
  ⟨0x106098, 1, true, [(63, 0, .ro)]⟩,
  -- ZG_D2D_ABORTS
  ⟨0x1060A0, 1, true, [(63, 0, .ro)]⟩,
  -- ZG_D2D_LAST
  ⟨0x1060A8, 1, true, [(63, 50, .rsv), (49, 36, .ro), (35, 32, .ro), (31, 30, .ro), (29, 24, .ro), (23, 18, .ro), (17, 10, .rsv), (9, 0, .ro)]⟩,
  -- ZG_D2D_LAST_NS
  ⟨0x1060B0, 1, true, [(63, 0, .ro)]⟩]

/-- The registers of ZG_ADM. -/
def regsZGADM : List RegDesc := [
  -- ZG_ADM_CFG
  ⟨0x4000, 1, false, [(31, 31, .rw), (30, 30, .rw), (29, 29, .ro), (28, 28, .ro), (27, 12, .rsv), (11, 8, .rw), (7, 4, .rw), (3, 0, .rsv)]⟩,
  -- ZG_ADM_SQ_BASE
  ⟨0x4008, 1, true, [(63, 0, .rw)]⟩,
  -- ZG_ADM_CQ_BASE
  ⟨0x4010, 1, true, [(63, 0, .rw)]⟩]

/-- The registers of ZG_HQ. -/
def regsZGHQ : List RegDesc := [
  -- ZG_HQ_SEL
  ⟨0x5000, 1, false, [(31, 17, .rsv), (16, 16, .rw), (15, 0, .rw)]⟩,
  -- ZG_HQ_STATE
  ⟨0x5008, 1, true, [(63, 48, .ro), (47, 42, .ro), (41, 40, .ro), (39, 38, .ro), (37, 35, .ro), (34, 34, .ro), (33, 33, .ro), (32, 32, .ro), (31, 27, .ro), (26, 22, .ro), (21, 0, .rsv)]⟩,
  -- ZG_HQ_DB_SEQ
  ⟨0x5010, 1, true, [(63, 0, .ro)]⟩,
  -- ZG_HQ_FETCHED_SEQ
  ⟨0x5018, 1, true, [(63, 0, .ro)]⟩,
  -- ZG_HQ_DONE_SEQ
  ⟨0x5020, 1, true, [(63, 0, .ro)]⟩,
  -- ZG_HQ_CMPL_SEQ
  ⟨0x5028, 1, true, [(63, 0, .ro)]⟩,
  -- ZG_HQ_CQ_CONSUMED
  ⟨0x5030, 1, true, [(63, 0, .ro)]⟩,
  -- ZG_HQ_SNAP_NS
  ⟨0x5038, 1, true, [(63, 0, .ro)]⟩,
  -- ZG_HQ_EVT_ASSIGNED
  ⟨0x5040, 1, true, [(63, 0, .ro)]⟩,
  -- ZG_HQ_EVT_WRITTEN
  ⟨0x5048, 1, true, [(63, 0, .ro)]⟩,
  -- ZG_HQ_EVT_CONSUMED
  ⟨0x5050, 1, true, [(63, 0, .ro)]⟩,
  -- ZG_HQ_DB_STALE
  ⟨0x5058, 1, true, [(63, 0, .ro)]⟩,
  -- ZG_HQ_DB_DENIED
  ⟨0x5060, 1, true, [(63, 0, .ro)]⟩,
  -- ZG_HQ_SIG_DENIED
  ⟨0x5068, 1, true, [(63, 0, .ro)]⟩,
  -- ZG_HQ_CQ_FULL
  ⟨0x5070, 1, true, [(63, 0, .ro)]⟩]

/-- The registers of ZG_MBX. -/
def regsZGMBX : List RegDesc := [
  -- ZG_MBX_DOORBELL
  ⟨0x10000, 1, true, [(63, 32, .wo), (31, 13, .rsv), (12, 0, .wo)]⟩,
  -- ZG_MBX_SEQ
  ⟨0x10008, 1, true, [(63, 32, .ro), (31, 0, .ro)]⟩,
  -- ZG_MBX_STATUS
  ⟨0x10010, 1, false, [(31, 16, .ro), (15, 3, .ro), (2, 0, .ro)]⟩,
  -- ZG_MBX_REJECT
  ⟨0x10018, 1, true, [(63, 0, .ro)]⟩,
  -- ZG_MBX_BUF
  ⟨0x11000, 512, true, [(63, 0, .rw)]⟩,
  -- ZG_MBX_RESP
  ⟨0x12000, 512, true, [(63, 0, .ro)]⟩]

/-- The registers of ZG_SYN. -/
def regsZGSYN : List RegDesc := [
  -- ZG_SYN_OWN
  ⟨0x107000, 8, true, [(7, 7, .rw), (6, 6, .ro), (5, 0, .rw), (15, 15, .rw), (14, 14, .ro), (13, 8, .rw), (23, 23, .rw), (22, 22, .ro), (21, 16, .rw), (31, 31, .rw), (30, 30, .ro), (29, 24, .rw), (39, 39, .rw), (38, 38, .ro), (37, 32, .rw), (47, 47, .rw), (46, 46, .ro), (45, 40, .rw), (55, 55, .rw), (54, 54, .ro), (53, 48, .rw), (63, 63, .rw), (62, 62, .ro), (61, 56, .rw)]⟩,
  -- ZG_SYN_CTRL
  ⟨0x107040, 1, false, [(31, 16, .lck), (15, 1, .rsv), (0, 0, .wos)]⟩,
  -- ZG_SYN_SEL
  ⟨0x107048, 1, false, [(31, 12, .rsv), (11, 0, .rw)]⟩,
  -- ZG_SYN_OBJ
  ⟨0x107050, 1, true, [(63, 53, .rsv), (52, 52, .ro), (51, 51, .ro), (50, 50, .ro), (49, 49, .ro), (48, 48, .ro), (47, 32, .ro), (31, 0, .ro)]⟩,
  -- ZG_SYN_OBJ2
  ⟨0x107058, 1, true, [(63, 52, .ro), (51, 48, .ro), (47, 32, .ro), (31, 0, .ro)]⟩,
  -- ZG_SYN_OPS
  ⟨0x107060, 1, true, [(63, 0, .ro)]⟩,
  -- ZG_SYN_DENIED
  ⟨0x107068, 1, true, [(63, 0, .ro)]⟩,
  -- ZG_SYN_RANGE
  ⟨0x107070, 1, true, [(63, 0, .ro)]⟩,
  -- ZG_SYN_MISUSE
  ⟨0x107078, 1, true, [(63, 0, .ro)]⟩,
  -- ZG_SYN_DL_REPORTS
  ⟨0x107080, 1, true, [(63, 0, .ro)]⟩,
  -- ZG_SYN_REMOTE_DROP
  ⟨0x107088, 1, true, [(63, 0, .ro)]⟩,
  -- ZG_SYN_DL_LAST
  ⟨0x107090, 1, true, [(63, 58, .ro), (57, 44, .ro), (43, 43, .ro), (42, 42, .ro), (41, 28, .ro), (27, 12, .ro), (11, 0, .ro)]⟩,
  -- ZG_SYN_DL_NS
  ⟨0x107098, 1, true, [(63, 0, .ro)]⟩]

/-- The registers of ZG_CGO. -/
def regsZGCGO : List RegDesc := [
  -- ZG_CGO_OWN
  ⟨0x23000, 8, true, [(7, 7, .rw), (6, 6, .ro), (5, 0, .rw), (15, 15, .rw), (14, 14, .ro), (13, 8, .rw), (23, 23, .rw), (22, 22, .ro), (21, 16, .rw), (31, 31, .rw), (30, 30, .ro), (29, 24, .rw), (39, 39, .rw), (38, 38, .ro), (37, 32, .rw), (47, 47, .rw), (46, 46, .ro), (45, 40, .rw), (55, 55, .rw), (54, 54, .ro), (53, 48, .rw), (63, 63, .rw), (62, 62, .ro), (61, 56, .rw)]⟩,
  -- ZG_CGO_MSTORE
  ⟨0x23040, 1, false, [(31, 14, .rsv), (13, 0, .ro)]⟩]

/-- The registers of ZG_COL. -/
def regsZGCOL : List RegDesc := [
  -- ZG_COL_CTRL
  ⟨0x108000, 1, false, [(31, 16, .lck), (15, 8, .lck), (7, 2, .rsv), (1, 1, .lck), (0, 0, .wos)]⟩,
  -- ZG_COL_WDOG
  ⟨0x108008, 1, false, [(31, 16, .lck), (15, 0, .lck)]⟩,
  -- ZG_COL_SEL
  ⟨0x108010, 1, false, [(31, 12, .rsv), (11, 0, .rw)]⟩,
  -- ZG_COL_GRP
  ⟨0x108018, 1, true, [(63, 48, .ro), (47, 32, .ro), (31, 29, .ro), (28, 28, .ro), (27, 27, .ro), (26, 15, .ro), (14, 10, .ro), (9, 5, .ro), (4, 0, .rsv)]⟩,
  -- ZG_COL_SEQ
  ⟨0x108020, 1, true, [(63, 32, .ro), (31, 0, .ro)]⟩,
  -- ZG_COL_LAG
  ⟨0x108028, 1, true, [(63, 48, .ro), (47, 36, .ro), (35, 32, .rsv), (31, 0, .ro)]⟩,
  -- ZG_COL_OPS
  ⟨0x108030, 1, true, [(63, 0, .ro)]⟩,
  -- ZG_COL_STALLS
  ⟨0x108038, 1, true, [(63, 0, .ro)]⟩,
  -- ZG_COL_ABORTS
  ⟨0x108040, 1, true, [(63, 0, .ro)]⟩,
  -- ZG_COL_MISMATCH
  ⟨0x108048, 1, true, [(63, 0, .ro)]⟩,
  -- ZG_COL_DROPPED
  ⟨0x108050, 1, true, [(63, 0, .ro)]⟩,
  -- ZG_COL_RESENDS
  ⟨0x108058, 1, true, [(63, 0, .ro)]⟩,
  -- ZG_COL_WAIT_NS
  ⟨0x108060, 1, true, [(63, 0, .ro)]⟩,
  -- ZG_COL_PACE_NS
  ⟨0x108068, 1, true, [(63, 0, .ro)]⟩,
  -- ZG_COL_LAST
  ⟨0x108070, 1, true, [(63, 50, .rsv), (49, 36, .ro), (35, 32, .ro), (31, 20, .ro), (19, 8, .ro), (7, 0, .rsv)]⟩,
  -- ZG_COL_LAST_NS
  ⟨0x108078, 1, true, [(63, 0, .ro)]⟩]

/-- The registers of ZG_WFN. -/
def regsZGWFN : List RegDesc := [
  -- ZG_WFN_CTRL
  ⟨0x109000, 1, false, [(31, 20, .lck), (19, 12, .lck), (11, 1, .rsv), (0, 0, .wos)]⟩,
  -- ZG_WFN_PORT
  ⟨0x109010, 6, true, [(63, 61, .ro), (60, 57, .ro), (56, 54, .ro), (53, 46, .ro), (45, 38, .ro), (37, 30, .ro), (29, 29, .ro), (28, 24, .ro), (23, 16, .ro), (15, 0, .rsv)]⟩,
  -- ZG_WFN_LAST
  ⟨0x109040, 1, true, [(63, 50, .rsv), (49, 36, .ro), (35, 32, .ro), (31, 27, .ro), (26, 0, .rsv)]⟩,
  -- ZG_WFN_LAST_NS
  ⟨0x109048, 1, true, [(63, 0, .ro)]⟩,
  -- ZG_WFN_DROP_TENANT
  ⟨0x109050, 1, true, [(63, 0, .ro)]⟩,
  -- ZG_WFN_DROP_OTHER
  ⟨0x109058, 1, true, [(63, 0, .ro)]⟩,
  -- ZG_WFN_DUP
  ⟨0x109060, 1, true, [(63, 0, .ro)]⟩,
  -- ZG_WFN_CNT
  ⟨0x109100, 48, true, [(63, 0, .ro)]⟩]

/-- The registers of ZG_TOP. -/
def regsZGTOP : List RegDesc := [
  -- ZG_TOP_PLAN
  ⟨0x21000, 1, true, [(63, 63, .ro), (62, 62, .ro), (61, 61, .ro), (60, 57, .ro), (56, 48, .rsv), (47, 40, .ro), (39, 32, .ro), (31, 24, .ro), (23, 16, .ro), (15, 8, .ro), (7, 0, .ro)]⟩,
  -- ZG_TOP_CTRL
  ⟨0x21008, 1, false, [(31, 16, .lck), (15, 8, .lck), (7, 1, .rsv), (0, 0, .wos)]⟩,
  -- ZG_TOP_DISC
  ⟨0x21010, 1, true, [(63, 32, .ro), (31, 30, .ro), (29, 21, .ro), (20, 10, .ro), (9, 0, .rsv)]⟩,
  -- ZG_TOP_RSEL
  ⟨0x21018, 1, false, [(31, 8, .rsv), (7, 0, .rw)]⟩,
  -- ZG_TOP_REGION
  ⟨0x21020, 1, true, [(63, 32, .ro), (31, 31, .ro), (30, 20, .ro), (19, 0, .rsv)]⟩,
  -- ZG_TOP_ROUTE
  ⟨0x21028, 1, true, [(63, 32, .ro), (31, 31, .ro), (30, 30, .ro), (29, 16, .ro), (15, 2, .ro), (1, 1, .rsv), (0, 0, .ro)]⟩,
  -- ZG_TOP_VERIFY
  ⟨0x21030, 1, true, [(63, 50, .ro), (49, 45, .ro), (44, 40, .ro), (39, 36, .ro), (35, 28, .ro), (27, 20, .ro), (19, 12, .ro), (11, 11, .ro), (10, 6, .ro), (5, 0, .rsv)]⟩,
  -- ZG_TOP_TWIN
  ⟨0x21038, 1, true, [(63, 62, .ro), (61, 24, .rsv), (23, 16, .ro), (15, 8, .ro), (7, 0, .ro)]⟩,
  -- ZG_TOP_TIME
  ⟨0x21040, 1, true, [(63, 59, .ro), (58, 51, .ro), (50, 32, .rsv), (31, 0, .ro)]⟩,
  -- ZG_TOP_PLANS
  ⟨0x21048, 1, true, [(63, 0, .ro)]⟩,
  -- ZG_TOP_DISCARDS
  ⟨0x21050, 1, true, [(63, 0, .ro)]⟩]

/-- The registers of ZG_TRN. -/
def regsZGTRN : List RegDesc := [
  -- ZG_TRN_CTRL
  ⟨0x10A000, 1, false, [(31, 24, .lck), (23, 12, .lck), (11, 2, .rsv), (1, 1, .lck), (0, 0, .wos)]⟩,
  -- ZG_TRN_LEND
  ⟨0x10A008, 1, true, [(63, 0, .lck)]⟩,
  -- ZG_TRN_STAGE
  ⟨0x10A010, 1, true, [(63, 63, .ro), (62, 62, .ro), (61, 56, .ro), (55, 48, .ro), (47, 45, .ro), (44, 34, .ro), (33, 23, .ro), (22, 0, .rsv)]⟩,
  -- ZG_TRN_LOANS
  ⟨0x10A020, 1, true, [(63, 0, .ro)]⟩,
  -- ZG_TRN_LENT_NS
  ⟨0x10A028, 1, true, [(63, 0, .ro)]⟩,
  -- ZG_TRN_RESTARTS
  ⟨0x10A030, 1, true, [(63, 0, .ro)]⟩,
  -- ZG_TRN_DEFER_DISP
  ⟨0x10A038, 1, true, [(63, 0, .ro)]⟩,
  -- ZG_TRN_ACT_FAIL
  ⟨0x10A040, 1, true, [(63, 0, .ro)]⟩,
  -- ZG_TRN_LAST
  ⟨0x10A048, 1, true, [(63, 50, .rsv), (49, 36, .ro), (35, 32, .ro), (31, 16, .ro), (15, 0, .rsv)]⟩,
  -- ZG_TRN_LAST_NS
  ⟨0x10A050, 1, true, [(63, 0, .ro)]⟩]

/-- The registers of ZG_SRL. -/
def regsZGSRL : List RegDesc := [
  -- ZG_SRL_CTRL
  ⟨0x10B000, 1, false, [(31, 16, .lck), (15, 8, .lck), (7, 1, .rsv), (0, 0, .wos)]⟩,
  -- ZG_SRL_STATE
  ⟨0x10B008, 1, true, [(63, 48, .ro), (47, 42, .ro), (41, 39, .ro), (38, 32, .ro), (31, 24, .ro), (23, 0, .rsv)]⟩,
  -- ZG_SRL_UPDATES
  ⟨0x10B010, 1, true, [(63, 0, .ro)]⟩,
  -- ZG_SRL_ROOTS
  ⟨0x10B018, 1, true, [(63, 0, .ro)]⟩,
  -- ZG_SRL_ELEMS
  ⟨0x10B020, 1, true, [(63, 0, .ro)]⟩,
  -- ZG_SRL_SKIPPED
  ⟨0x10B028, 1, true, [(63, 0, .ro)]⟩,
  -- ZG_SRL_DIVERGED
  ⟨0x10B030, 1, true, [(63, 0, .ro)]⟩,
  -- ZG_SRL_TORN
  ⟨0x10B038, 1, true, [(63, 0, .ro)]⟩,
  -- ZG_SRL_BORROW_NS
  ⟨0x10B040, 1, true, [(63, 0, .ro)]⟩,
  -- ZG_SRL_LAST
  ⟨0x10B048, 1, true, [(63, 50, .rsv), (49, 36, .ro), (35, 32, .ro), (31, 16, .ro), (15, 0, .rsv)]⟩,
  -- ZG_SRL_LAST_NS
  ⟨0x10B050, 1, true, [(63, 0, .ro)]⟩]

/-- The registers of ZG_INT. -/
def regsZGINT : List RegDesc := [
  -- ZG_INT_ST
  ⟨0x10C000, 1, false, [(31, 31, .rw), (30, 28, .ro), (27, 24, .rsv), (23, 16, .ro), (15, 0, .ro)]⟩,
  -- ZG_INT_INJECT
  ⟨0x10C008, 1, false, [(31, 31, .rw), (30, 25, .rsv), (24, 19, .rw), (18, 15, .rw), (14, 11, .rw), (10, 0, .rsv)]⟩,
  -- ZG_INT_ALIVE
  ⟨0x10C010, 1, true, [(63, 0, .ro)]⟩,
  -- ZG_INT_SCANS
  ⟨0x10C018, 1, true, [(63, 0, .ro)]⟩,
  -- ZG_INT_MISMATCH
  ⟨0x10C020, 1, true, [(63, 0, .ro)]⟩,
  -- ZG_INT_PROV
  ⟨0x10C028, 1, true, [(63, 0, .ro)]⟩,
  -- ZG_INT_COL_RES
  ⟨0x10C030, 1, true, [(63, 0, .ro)]⟩,
  -- ZG_INT_SRL_RES
  ⟨0x10C038, 1, true, [(63, 0, .ro)]⟩,
  -- ZG_INT_LAST
  ⟨0x10C040, 1, true, [(63, 50, .rsv), (49, 36, .ro), (35, 32, .ro), (31, 16, .ro), (15, 0, .rsv)]⟩,
  -- ZG_INT_LAST_NS
  ⟨0x10C048, 1, true, [(63, 0, .ro)]⟩]

/-- The registers of ZG_INTH. -/
def regsZGINTH : List RegDesc := [
  -- ZG_INTH_COUNT
  ⟨0x22000, 1, true, [(63, 56, .rsv), (55, 48, .ro), (47, 39, .ro), (38, 16, .rsv), (15, 0, .ro)]⟩,
  -- ZG_INTH_CTRL
  ⟨0x22008, 1, false, [(31, 16, .lck), (15, 1, .rsv), (0, 0, .wos)]⟩,
  -- ZG_INTH_TWIN
  ⟨0x22010, 1, true, [(63, 51, .ro), (50, 38, .ro), (37, 0, .rsv)]⟩,
  -- ZG_INTH_TW_MATCH
  ⟨0x22018, 1, true, [(63, 0, .ro)]⟩,
  -- ZG_INTH_TW_MISMATCH
  ⟨0x22020, 1, true, [(63, 0, .ro)]⟩,
  -- ZG_INTH_TW_TIMEOUT
  ⟨0x22028, 1, true, [(63, 0, .ro)]⟩,
  -- ZG_INTH_TW_DROP
  ⟨0x22030, 1, true, [(63, 0, .ro)]⟩]

/-- The registers of ZG_PWR. -/
def regsZGPWR : List RegDesc := [
  -- ZG_PWR_CFG
  ⟨0x20000, 1, false, [(31, 21, .ro), (20, 20, .ro), (19, 19, .ro), (18, 3, .ro), (2, 0, .rsv)]⟩,
  -- ZG_PWR_LIMITS
  ⟨0x20008, 1, true, [(63, 48, .ro), (47, 32, .ro), (31, 16, .ro), (15, 0, .ro)]⟩,
  -- ZG_PWR_NOW
  ⟨0x20010, 1, true, [(63, 48, .ro), (47, 32, .ro), (31, 16, .ro), (15, 0, .ro)]⟩,
  -- ZG_PWR_STATE
  ⟨0x20018, 1, false, [(31, 3, .rsv), (2, 2, .ro), (1, 0, .ro)]⟩,
  -- ZG_PWR_ENERGY
  ⟨0x20020, 1, true, [(63, 0, .ro)]⟩,
  -- ZG_PWR_PKG_ACCT
  ⟨0x20028, 1, true, [(63, 0, .ro)]⟩,
  -- ZG_PWR_ESEL
  ⟨0x20030, 1, false, [(31, 23, .rsv), (22, 17, .rw), (16, 16, .rsv), (15, 0, .rw)]⟩,
  -- ZG_PWR_E_QUEUE
  ⟨0x20038, 1, true, [(63, 0, .ro)]⟩,
  -- ZG_PWR_E_PART
  ⟨0x20040, 1, true, [(63, 0, .ro)]⟩,
  -- ZG_PWR_E_PSTAT
  ⟨0x20048, 1, true, [(63, 0, .ro)]⟩,
  -- ZG_PWR_TRIP
  ⟨0x20050, 1, true, [(63, 63, .w1c), (62, 51, .rsv), (50, 48, .ro), (47, 42, .ro), (41, 30, .ro), (29, 0, .rsv)]⟩,
  -- ZG_PWR_TRIP_NS
  ⟨0x20058, 1, true, [(63, 0, .ro)]⟩,
  -- ZG_PWR_LAST
  ⟨0x20060, 1, true, [(63, 50, .rsv), (49, 36, .ro), (35, 32, .ro), (31, 0, .rsv)]⟩,
  -- ZG_PWR_LAST_NS
  ⟨0x20068, 1, true, [(63, 0, .ro)]⟩]

/-- The registers of ZG_PWD. -/
def regsZGPWD : List RegDesc := [
  -- ZG_PWD_STATE
  ⟨0x10D000, 1, true, [(63, 48, .ro), (47, 40, .ro), (39, 32, .ro), (31, 24, .ro), (23, 20, .ro), (19, 10, .ro), (9, 0, .ro)]⟩,
  -- ZG_PWD_TEMP
  ⟨0x10D008, 1, true, [(63, 52, .ro), (51, 46, .ro), (45, 34, .ro), (33, 27, .ro), (26, 0, .rsv)]⟩,
  -- ZG_PWD_VTHDR
  ⟨0x10D010, 1, true, [(63, 33, .rsv), (32, 32, .ro), (31, 24, .fuse), (23, 16, .fuse), (15, 8, .fuse), (7, 0, .fuse)]⟩,
  -- ZG_PWD_VTSEL
  ⟨0x10D018, 1, false, [(31, 8, .rsv), (7, 0, .rw)]⟩,
  -- ZG_PWD_VTENT
  ⟨0x10D020, 1, true, [(63, 0, .ro)]⟩,
  -- ZG_PWD_E_CORE
  ⟨0x10D028, 1, true, [(63, 0, .ro)]⟩,
  -- ZG_PWD_E_HBM
  ⟨0x10D030, 1, true, [(63, 0, .ro)]⟩,
  -- ZG_PWD_E_SERDES
  ⟨0x10D038, 1, true, [(63, 0, .ro)]⟩,
  -- ZG_PWD_BALLAST
  ⟨0x10D040, 1, true, [(63, 0, .ro)]⟩,
  -- ZG_PWD_THR_NS
  ⟨0x10D048, 1, true, [(63, 0, .ro)]⟩,
  -- ZG_PWD_ADMITS
  ⟨0x10D050, 1, true, [(63, 0, .ro)]⟩]

/-- The registers of ZG_MGT. -/
def regsZGMGT : List RegDesc := [
  -- ZG_MGT_STATE
  ⟨0x6000, 1, true, [(63, 32, .ro), (31, 8, .rsv), (7, 5, .rsv), (4, 4, .fuse), (3, 3, .ro), (2, 0, .ro)]⟩,
  -- ZG_MGT_EMU
  ⟨0x6008, 1, true, [(63, 2, .rsv), (1, 1, .w1c), (0, 0, .ro)]⟩,
  -- ZG_MGT_CREAD
  ⟨0x6010, 1, true, [(63, 32, .ro), (31, 2, .rsv), (1, 1, .w1c), (0, 0, .w1c)]⟩,
  -- ZG_MGT_CREAD_NS
  ⟨0x6018, 1, true, [(63, 0, .ro)]⟩,
  -- ZG_MGT_ALERT
  ⟨0x6020, 1, false, [(31, 4, .rsv), (3, 2, .rw), (1, 0, .rw)]⟩,
  -- ZG_MGT_ALARMS
  ⟨0x6028, 1, true, [(63, 48, .rsv), (47, 32, .ro), (31, 16, .ro), (15, 0, .ro)]⟩,
  -- ZG_MGT_LOG_HEAD
  ⟨0x6030, 1, true, [(63, 0, .ro)]⟩,
  -- ZG_MGT_TRACE_HEAD
  ⟨0x6038, 1, true, [(63, 0, .ro)]⟩,
  -- ZG_MGT_AUDIT_HEAD
  ⟨0x6040, 1, true, [(63, 0, .ro)]⟩,
  -- ZG_MGT_AUDIT_FLOOR
  ⟨0x6048, 1, true, [(63, 0, .ro)]⟩,
  -- ZG_MGT_ROLE
  ⟨0x6050, 3, true, [(63, 0, .ro)]⟩,
  -- ZG_MGT_OVERRUNS
  ⟨0x6068, 1, true, [(63, 0, .ro)]⟩,
  -- ZG_MGT_RESTARTS
  ⟨0x6070, 1, true, [(63, 0, .ro)]⟩,
  -- ZG_MGT_BUSY_READS
  ⟨0x6078, 1, true, [(63, 0, .ro)]⟩,
  -- ZG_MGT_WR_DROPPED
  ⟨0x6080, 1, true, [(63, 0, .ro)]⟩,
  -- ZG_MGT_LOG_LOST
  ⟨0x6088, 1, true, [(63, 0, .ro)]⟩,
  -- ZG_MGT_TR_SAMPLED
  ⟨0x6090, 1, true, [(63, 0, .ro)]⟩,
  -- ZG_MGT_TR_DROP
  ⟨0x6098, 1, true, [(63, 0, .ro)]⟩,
  -- ZG_MGT_AUTHFAIL
  ⟨0x60A0, 1, true, [(63, 0, .ro)]⟩]

/-- The registers of ZG_PMC. -/
def regsZGPMC : List RegDesc := [
  -- ZG_PMC_SEL
  ⟨0x10E000, 8, false, [(31, 31, .ro), (30, 15, .rsv), (14, 14, .rw), (13, 8, .rw), (7, 0, .rw)]⟩,
  -- ZG_PMC_CNT
  ⟨0x10E040, 8, true, [(63, 0, .ro)]⟩,
  -- ZG_PMC_FINAL
  ⟨0x10E080, 8, true, [(63, 0, .ro)]⟩,
  -- ZG_PMC_FINFO
  ⟨0x10E0C0, 8, true, [(63, 56, .ro), (55, 55, .ro), (54, 49, .ro), (48, 48, .rsv), (47, 0, .ro)]⟩]

/-- The registers of ZG_BOOT. -/
def regsZGBOOT : List RegDesc := [
  -- ZG_BOOT_STATE
  ⟨0x3000, 1, true, [(63, 48, .ro), (47, 32, .ro), (31, 24, .ro), (23, 21, .ro), (20, 20, .rsv), (19, 16, .ro), (15, 15, .ro), (14, 8, .rsv), (7, 0, .ro)]⟩,
  -- ZG_BOOT_CTRL
  ⟨0x3008, 1, false, [(31, 16, .lck), (15, 9, .rsv), (8, 8, .wo), (7, 4, .wo), (3, 1, .rsv), (0, 0, .wos)]⟩,
  -- ZG_BOOT_IMG_ADDR
  ⟨0x3010, 1, true, [(63, 0, .rw)]⟩,
  -- ZG_BOOT_IMG_LEN
  ⟨0x3018, 1, false, [(31, 24, .rsv), (23, 0, .rw)]⟩,
  -- ZG_BOOT_GO
  ⟨0x3020, 1, false, [(31, 1, .rsv), (0, 0, .wo)]⟩,
  -- ZG_BOOT_DIES
  ⟨0x3028, 1, true, [(7, 5, .ro), (4, 4, .ro), (3, 0, .rsv), (15, 13, .ro), (12, 12, .ro), (11, 8, .rsv), (23, 21, .ro), (20, 20, .ro), (19, 16, .rsv), (31, 29, .ro), (28, 28, .ro), (27, 24, .rsv), (63, 32, .rsv)]⟩,
  -- ZG_BOOT_READY_NS
  ⟨0x3030, 1, true, [(63, 0, .ro)]⟩,
  -- ZG_BOOT_LAST
  ⟨0x3038, 1, true, [(63, 50, .rsv), (49, 36, .ro), (35, 32, .ro), (31, 0, .rsv)]⟩,
  -- ZG_BOOT_LAST_NS
  ⟨0x3040, 1, true, [(63, 0, .ro)]⟩,
  -- ZG_BOOT_WARMS
  ⟨0x3048, 1, true, [(63, 0, .ro)]⟩,
  -- ZG_BOOT_DIERSTS
  ⟨0x3050, 1, true, [(63, 0, .ro)]⟩]

/-- The registers of ZG_ID. -/
def regsZGID : List RegDesc := [
  -- ZG_ID_PART
  ⟨0x0, 1, true, [(63, 48, .ro), (47, 32, .ro), (31, 24, .fuse), (23, 20, .fuse), (19, 16, .rsv), (15, 8, .ro), (7, 0, .ro)]⟩,
  -- ZG_ID_SERIAL
  ⟨0x8, 1, true, [(63, 0, .fuse)]⟩,
  -- ZG_ID_CONFIG
  ⟨0x10, 1, true, [(63, 56, .fuse), (55, 48, .ro), (47, 40, .ro), (39, 32, .ro), (31, 16, .ro), (15, 0, .ro)]⟩]

/-- The registers of ZG_REG. -/
def regsZGREG : List RegDesc := [
  -- ZG_REG_ERR
  ⟨0x1000, 1, false, [(31, 8, .rsv), (7, 7, .w1c), (6, 6, .w1c), (5, 5, .w1c), (4, 4, .w1c), (3, 3, .w1c), (2, 2, .w1c), (1, 1, .w1c), (0, 0, .w1c)]⟩,
  -- ZG_REG_REJECTS
  ⟨0x1008, 1, true, [(63, 0, .ro)]⟩,
  -- ZG_REG_LAST
  ⟨0x1010, 1, true, [(63, 50, .rsv), (49, 36, .ro), (35, 32, .ro), (31, 21, .rsv), (20, 0, .ro)]⟩,
  -- ZG_REG_LAST_NS
  ⟨0x1018, 1, true, [(63, 0, .ro)]⟩,
  -- ZG_REG_LAST_DATA
  ⟨0x1020, 1, true, [(63, 0, .ro)]⟩]

/-- The registers of ZG_TIME. -/
def regsZGTIME : List RegDesc := [
  -- ZG_TIME_NOW
  ⟨0x2000, 1, true, [(63, 0, .ro)]⟩,
  -- ZG_TIME_STATUS
  ⟨0x2008, 1, false, [(31, 16, .ro), (15, 4, .rsv), (3, 3, .w1c), (2, 2, .ro), (1, 1, .ro), (0, 0, .ro)]⟩]

/-- Every register of BAR0, die regions as those of CD0. -/
def regTable : List RegDesc :=
  regsZGBEAT ++ regsZGFMT ++ regsZGMXE ++ regsZGCLU ++ regsZGTSL ++ regsZGHBM ++ regsZGHPT ++ regsZGD2D ++ regsZGADM ++ regsZGHQ ++ regsZGMBX ++ regsZGSYN ++ regsZGCGO ++ regsZGCOL ++ regsZGWFN ++ regsZGTOP ++ regsZGTRN ++ regsZGSRL ++ regsZGINT ++ regsZGINTH ++ regsZGPWR ++ regsZGPWD ++ regsZGMGT ++ regsZGPMC ++ regsZGBOOT ++ regsZGID ++ regsZGREG ++ regsZGTIME

/-- The index of register blocks (R598), die regions as that of CD0. -/
def blockTable : List BlockDesc := [
  -- ZG_ID
  ⟨0x0, 0x1000, true, .readOnly, true⟩,
  -- ZG_REG
  ⟨0x1000, 0x1000, true, .present, true⟩,
  -- ZG_TIME
  ⟨0x2000, 0x1000, true, .readOnly, false⟩,
  -- ZG_BOOT
  ⟨0x3000, 0x1000, true, .readOnly, false⟩,
  -- ZG_ADM
  ⟨0x4000, 0x1000, true, .present, true⟩,
  -- ZG_HQ
  ⟨0x5000, 0x1000, true, .present, true⟩,
  -- ZG_MGT
  ⟨0x6000, 0x1000, true, .present, false⟩,
  -- ZG_MBX
  ⟨0x10000, 0x4000, true, .absent, false⟩,
  -- ZG_PWR
  ⟨0x20000, 0x1000, false, .absent, false⟩,
  -- ZG_TOP
  ⟨0x21000, 0x1000, false, .absent, false⟩,
  -- ZG_INTH
  ⟨0x22000, 0x1000, false, .readOnly, false⟩,
  -- ZG_CGO
  ⟨0x23000, 0x1000, false, .absent, false⟩,
  -- ZG_HPT
  ⟨0x24000, 0x1000, false, .absent, false⟩,
  -- ZG_BEAT
  ⟨0x100000, 0x1000, true, .readOnly, false⟩,
  -- ZG_FMT
  ⟨0x101000, 0x1000, true, .readOnly, false⟩,
  -- ZG_MXE
  ⟨0x102000, 0x1000, false, .readOnly, false⟩,
  -- ZG_CLU
  ⟨0x103000, 0x1000, false, .readOnly, false⟩,
  -- ZG_TSL
  ⟨0x104000, 0x1000, false, .readOnly, false⟩,
  -- ZG_HBM
  ⟨0x105000, 0x1000, false, .readOnly, false⟩,
  -- ZG_D2D
  ⟨0x106000, 0x1000, false, .readOnly, false⟩,
  -- ZG_SYN
  ⟨0x107000, 0x1000, false, .readOnly, false⟩,
  -- ZG_COL
  ⟨0x108000, 0x1000, false, .readOnly, false⟩,
  -- ZG_WFN
  ⟨0x109000, 0x1000, false, .readOnly, false⟩,
  -- ZG_TRN
  ⟨0x10A000, 0x1000, false, .readOnly, false⟩,
  -- ZG_SRL
  ⟨0x10B000, 0x1000, false, .readOnly, false⟩,
  -- ZG_INT
  ⟨0x10C000, 0x1000, false, .readOnly, false⟩,
  -- ZG_PWD
  ⟨0x10D000, 0x1000, false, .readOnly, false⟩,
  -- ZG_PMC
  ⟨0x10E000, 0x1000, false, .readOnly, false⟩]

/-- The registers whose reset value is not zero (the Reset columns of the field maps), in the physical function. -/
def regResets : List (Nat × Word64) := [
  (0x0, 0x1F9B041611000001),
  (0x10, 0x4008104010001000),
  (0x3000, 0xE00000),
  (0x3008, 0x7D00000),
  (0x3028, 0x10101010),
  (0x4000, 0x660),
  (0x6000, 0x10),
  (0x6020, 0xA),
  (0x20000, 0x32193880),
  (0x20008, 0xC800C800E1007D0),
  (0x20010, 0x3E8),
  (0x21008, 0xC88000),
  (0x21030, 0x1F0000000000),
  (0x21040, 0xFFF8000000000000),
  (0x22008, 0x640000),
  (0x23040, 0x2000),
  (0x101000, 0x1),
  (0x102000, 0x4002),
  (0x103048, 0x10400),
  (0x105000, 0x3E85800),
  (0x105008, 0x10010008),
  (0x106000, 0x10400000),
  (0x106008, 0x3E80064),
  (0x107040, 0xA0000),
  (0x108000, 0x3E81400),
  (0x108008, 0x140064),
  (0x108018, 0x7FF8000),
  (0x109000, 0x2810000),
  (0x109010, 0x1FFFFFFDF000000),
  (0x109018, 0x1FFFFFFDF000000),
  (0x109020, 0x1FFFFFFDF000000),
  (0x109028, 0x1FFFFFFDF000000),
  (0x109030, 0x1FFFFFFDF000000),
  (0x109038, 0x1FFFFFFDF000000),
  (0x109040, 0xF8000000),
  (0x10A000, 0x1000A002),
  (0x10B000, 0x400A00),
  (0x10D000, 0x789000000000),
  (0x10D010, 0x78905801),
  (0x10D018, 0x78),
  (0x141000, 0x1),
  (0x142000, 0x4002),
  (0x143048, 0x10400),
  (0x145000, 0x3E85800),
  (0x145008, 0x10010008),
  (0x146000, 0x10400000),
  (0x146008, 0x3E80064),
  (0x147040, 0xA0000),
  (0x148000, 0x3E81400),
  (0x148008, 0x140064),
  (0x148018, 0x7FF8000),
  (0x149000, 0x2810000),
  (0x149010, 0x1FFFFFFDF000000),
  (0x149018, 0x1FFFFFFDF000000),
  (0x149020, 0x1FFFFFFDF000000),
  (0x149028, 0x1FFFFFFDF000000),
  (0x149030, 0x1FFFFFFDF000000),
  (0x149038, 0x1FFFFFFDF000000),
  (0x149040, 0xF8000000),
  (0x14A000, 0x1000A002),
  (0x14B000, 0x400A00),
  (0x14D000, 0x789000000000),
  (0x14D010, 0x78905801),
  (0x14D018, 0x78),
  (0x181000, 0x1),
  (0x182000, 0x4002),
  (0x183048, 0x10400),
  (0x185000, 0x3E85800),
  (0x185008, 0x10010008),
  (0x186000, 0x10400000),
  (0x186008, 0x3E80064),
  (0x187040, 0xA0000),
  (0x188000, 0x3E81400),
  (0x188008, 0x140064),
  (0x188018, 0x7FF8000),
  (0x189000, 0x2810000),
  (0x189010, 0x1FFFFFFDF000000),
  (0x189018, 0x1FFFFFFDF000000),
  (0x189020, 0x1FFFFFFDF000000),
  (0x189028, 0x1FFFFFFDF000000),
  (0x189030, 0x1FFFFFFDF000000),
  (0x189038, 0x1FFFFFFDF000000),
  (0x189040, 0xF8000000),
  (0x18A000, 0x1000A002),
  (0x18B000, 0x400A00),
  (0x18D000, 0x789000000000),
  (0x18D010, 0x78905801),
  (0x18D018, 0x78),
  (0x1C1000, 0x1),
  (0x1C2000, 0x4002),
  (0x1C3048, 0x10400),
  (0x1C5000, 0x3E85800),
  (0x1C5008, 0x10010008),
  (0x1C6000, 0x10400000),
  (0x1C6008, 0x3E80064),
  (0x1C7040, 0xA0000),
  (0x1C8000, 0x3E81400),
  (0x1C8008, 0x140064),
  (0x1C8018, 0x7FF8000),
  (0x1C9000, 0x2810000),
  (0x1C9010, 0x1FFFFFFDF000000),
  (0x1C9018, 0x1FFFFFFDF000000),
  (0x1C9020, 0x1FFFFFFDF000000),
  (0x1C9028, 0x1FFFFFFDF000000),
  (0x1C9030, 0x1FFFFFFDF000000),
  (0x1C9038, 0x1FFFFFFDF000000),
  (0x1C9040, 0xF8000000),
  (0x1CA000, 0x1000A002),
  (0x1CB000, 0x400A00),
  (0x1CD000, 0x789000000000),
  (0x1CD010, 0x78905801),
  (0x1CD018, 0x78)]

/-- The hardware-implemented registers of blocks that are so only in part (R597), as for CD0. -/
def hwExtra : List Nat := [0x22000, 0x20010, 0x20018, 0x20050, 0x20058, 0x10D000, 0x10D008]

end Sys2Proof.Machine
end

