-- ==== Sys2Proof/Machine/State.lean ====
section
/-! DEFINITION. The state of one ZG-416 package as plain data, the reasons a command can stop, and the state after
reset. A table keyed by number is a list of (key, record) pairs in the canonical form of Machine/Cells.lean, where an
unlisted key holds the record's default. -/
namespace Sys2Proof.Machine

/-! ### Banked tables (R171) -/

/-- The banked state of a map slot, a partition's page tables, a member list or the route table (R171, R177). -/
structure Banked where
  /-- ACTIVE: the active bank, 0 or 1. -/
  active : Nat := 0
  /-- EPOCH, 32 bits. -/
  epoch : Nat := 0
  /-- Readers bound to bank 0. -/
  readers0 : Nat := 0
  /-- Readers bound to bank 1. -/
  readers1 : Nat := 0
  /-- COPY_PENDING. -/
  copyPending : Bool := false
  /-- WRITE_WAIT: a shadow write waits (R173). -/
  writeWait : Bool := false
  deriving DecidableEq, Repr

/-! ### Time (02) -/

/-- The timebase and what steers it (R33, R34, R37). -/
structure TimeSt where
  /-- The hub timebase in ns, 64 bits (R33). -/
  now : Nat := 0
  /-- Slew carried over, in millionths of a nanosecond (R34). -/
  slewRem : Int := 0
  /-- The replica of each compute die (R33). -/
  replica : List Nat := [0, 0, 0, 0]
  /-- REFCLK is present (R37). -/
  refclk : Bool := true
  /-- Timebase at the last loss or return of REFCLK (R584). -/
  refclkAt : Nat := 0
  /-- REASON of the change of service mode that waits, by die (R69, R70). -/
  svcReason : List (Nat × Nat) := []
  deriving DecidableEq, Repr

/-! ### HBM (08) -/

/-- What a controller keeps for one stack beside ZG_HBM_STACKk (R187, R220, R221). -/
structure Stack where
  /-- Consecutive failed readings. -/
  failedReads : Nat := 0
  /-- Timebase at which the stack entered level 3. -/
  stoppedAt : Nat := 0
  /-- The stalled event of this stop has been raised. -/
  stalledRaised : Bool := false
  /-- STOP_ABORT_MS has passed in this stop: every new request fails at once. -/
  aborting : Bool := false
  /-- Timebase of the last temperature reading. -/
  readAt : Nat := 0
  /-- Timebase of the last refresh of the stack. -/
  refreshAt : Nat := 0
  /-- Next block location the scrubber reads. -/
  scrubLoc : Nat := 0
  /-- A corrected block waits to be written back, by block number (R205). -/
  writeBacks : List Nat := []
  /-- The stack is in self refresh (R581, R584). -/
  selfRefresh : Bool := false
  /-- The thresholds that entered levels 1 to 3 when they were last entered (R220). -/
  thr : List Nat := []
  /-- The command, as (queue, sequence), that went first among those that had waited at the stack (R220). -/
  turn : Option (Nat × Nat) := none
  deriving DecidableEq, Repr

/-- A command whose request waits at a stopped stack (R220). -/
structure StackWait where
  stack : Nat
  queue : Nat
  seq : Nat
  /-- UNIT of ZG_HBM_FAULT_LAST, and the VA that waits. -/
  unit : Nat
  va : Nat
  /-- The cluster whose unit waits, for a command that works in clusters. -/
  cl : Option Nat
  deriving DecidableEq, Repr

/-- An entry of a die's translation cache: partition, epoch, page size and page (R197). The translation itself is that of the bank
the epoch names. -/
structure TlbTag where
  part : Nat
  epoch : Nat
  small : Bool
  page : Nat
  deriving DecidableEq, Repr

/-- The HBM system (R184 to R223). The presence map, the frame table, the error-record ring and the management area
are bytes of `bytes`, at the addresses R190 gives them. -/
structure HbmSt where
  /-- Every byte of HBM by physical address; an unlisted byte is zero (a never-written granule is not read, R214). -/
  bytes : List (Nat × Byte) := []
  /-- Symbol errors standing in a block: (symbol position, wrong bits), by block number PA / 64 (R205). -/
  errs : List (Nat × List (Nat × Nat)) := []
  /-- Lines lost in both copies: the map line of a frame by die × 131,072 + frame, frame-table lines from 2^20 (R219). -/
  lostLines : List Nat := []
  /-- Frames with FULL set, as die × 131,072 + frame (R218). -/
  full : List Nat := []
  /-- Map lines that the dies' buffers hold, by frame, and whether they changed there; the longest held first (R218). The bytes of a
  held line stand in `bytes`; the copies in HBM are read and written when it moves. -/
  mapBuf : List (Nat × Bool) := []
  /-- Map lines in the cache in hub SRAM (R11, R218). -/
  mapCache : List (Nat × Bool) := []
  /-- Translation caches, by die (R197). -/
  tlb : List (Nat × List TlbTag) := []
  /-- Root of each bank of a partition's page tables, by 2 × partition + bank (R195). -/
  roots : List (Nat × Nat) := []
  /-- Corrected errors of each row since cold reset (R210). -/
  rowCe : List (Nat × Nat) := []
  /-- The newest error record of each KIND of each die, by die × 16 + KIND: block, SEQ, COUNT (R209). -/
  lastErr : List (Nat × (Nat × Nat × Nat)) := []
  /-- The 16 stacks. -/
  stackSt : List (Nat × Stack) := []
  /-- Commands waiting at stopped stacks. -/
  waits : List StackWait := []
  /-- Data that the last HBM_ACCESS read delivered to its unit. -/
  delivered : List Byte := []
  /-- Page-table entries, raw 64 bits, by partition, bank, level and index (R193, R194). -/
  pt : List (Nat × Nat) := []
  deriving DecidableEq, Repr

/-! ### Partitions, functions and queues (10) -/

/-- A partition (R276). -/
structure Partition where
  present : Bool := false
  /-- 16-bit tenant identity (R195). -/
  tenant : Nat := 0
  qFirst : Nat := 0
  qCount : Nat := 0
  /-- Deterministic mode (R276, R487). -/
  det : Bool := false
  /-- Audit mode (R276, R488). -/
  audit : Bool := false
  deriving DecidableEq, Repr

/-- What one MSI-X vector of a function holds (R267). -/
structure Vector where
  /-- Timebase of the last interrupt sent. -/
  sentAt : Nat := 0
  /-- Some interrupt has been sent. -/
  sentOnce : Bool := false
  /-- An interrupt is held. -/
  held : Bool := false
  /-- INT_HOLDOFF_US of the queue that raised the held interrupt. -/
  holdoff : Nat := 0
  deriving DecidableEq, Repr

/-- A function of the host port beside its registers (R250, R270). -/
structure Fn where
  /-- Bus Master Enable. -/
  bme : Bool := false
  /-- The event ring: set, in HBM, base, log2 of the slots, vector. -/
  evSet : Bool := false
  evHbm : Bool := false
  evBase : Nat := 0
  evLog2 : Nat := 0
  evVec : Nat := 0
  evAssigned : Nat := 0
  evWritten : Nat := 0
  evConsumed : Nat := 0
  /-- Events assigned and not written since the last 0x01.0x08 (R270). -/
  evLost : Nat := 0
  /-- Event records held while Bus Master Enable is 0 (R250). -/
  evHeld : List (List Byte) := []
  deriving DecidableEq, Repr

/-- State of a queue (R251). -/
inductive QState where
  | disabled | running | stopping | stopped | error
  deriving DecidableEq, Repr

/-- How a dispatched command ended (R264). -/
structure EndRec where
  status : Nat
  detail : Nat
  unwritten : Bool
  repeated : Bool
  sigBlocked : Bool
  endNs : Nat
  /-- A record of R255 that no descriptor stands behind. -/
  noDesc : Bool
  deriving DecidableEq, Repr

/-- A dispatched command (R256 to R258). -/
structure Flight where
  seq : Nat
  /-- Its 128-byte descriptor (R260). -/
  desc : List Byte
  /-- Banked tables bound at dispatch, as (table, bank, epoch) (R172, R198). -/
  binds : List (Nat × Nat × Nat) := []
  /-- Place in the order of all dispatches (R100). -/
  order : Nat := 0
  /-- Dispatched in the deferred lane (R421). -/
  deferred : Bool := false
  /-- The lowest cluster it names that its partition did not own at its dispatch, as die × 64 + cluster (R128). -/
  refused : Option Nat := none
  /-- It failed at steps 2 to 4 of R261 and sends no signal. -/
  noSignal : Bool := false
  /-- It failed at step 4 of R261. -/
  sigBlocked : Bool := false
  /-- It holds its partition's reserved place at the Sorrel unit or the Campion engine (R435, R479). -/
  reserved : Bool := false
  /-- Progress of a command that runs over several steps, as its meaning uses it. -/
  phase : Nat := 0
  /-- UNWRITTEN so far (R214). -/
  unwritten : Bool := false
  /-- A pass was repeated and classed transient (R114). -/
  repeated : Bool := false
  /-- Clusters that have ended, with their status and detail (R264 DETAIL). -/
  clusterEnds : List (Nat × Nat) := []
  /-- Private working numbers of a multi-step command. -/
  work : List Nat := []
  /-- Status and detail with which a command of a filler unit has ended in this attempt; its signal and its record are held
  (R427). -/
  heldEnd : Option (Nat × Nat) := none
  ended : Option EndRec := none
  deriving DecidableEq, Repr

/-- A completion record that waits for room or for Bus Master Enable (R250, R259): the record without CMPL_SEQ and CHECK,
and whether it calls for an interrupt. -/
structure HeldRec where
  seq : Nat
  ending : EndRec
  int : Bool
  /-- A full ring held it (HOST_SLOW). -/
  slow : Bool
  /-- Page tables that its command stays a reader of until the record is written (R198). -/
  binds : List (Nat × Nat × Nat) := []
  deriving DecidableEq, Repr

/-- A deferred region of a privileged queue (R419 to R423). -/
structure DeferRegion where
  first : Nat
  count : Nat
  /-- Last sequence fetched by the deferred lane. -/
  fetchedTo : Nat
  /-- Next sequence to dispatch. -/
  next : Nat
  /-- Fetched and not yet dispatched. -/
  lane : List (List Byte) := []
  deriving DecidableEq, Repr

/-- The filler unit under way (R425 to R429). -/
structure FillUnit where
  first : Nat
  width : Nat
  /-- MAX_TRIES; 0 for no limit. -/
  maxTries : Nat
  /-- Attempts ended under R428. -/
  tries : Nat := 0
  /-- Descriptors dispatched in this attempt. -/
  pos : Nat := 0
  descs : List (List Byte)
  deriving DecidableEq, Repr

/-- A queue: submission ring, completion ring and the commands between them (R251 to R259, R275). Admin queues have the
number 65,536 + function (R273). -/
structure Queue where
  state : QState := .disabled
  /-- CLASS: 0 normal, 1 privileged, 2 filler. -/
  cls : Nat := 0
  part : Nat := 0
  tenant : Nat := 0
  die : Nat := 0
  sqHbm : Bool := false
  cqHbm : Bool := false
  sqLog2 : Nat := 0
  cqLog2 : Nat := 0
  intAll : Bool := false
  intVec : Nat := 0
  holdoffUs : Nat := 0
  sqBase : Nat := 0
  cqBase : Nat := 0
  /-- TARGET: enabled engine count of its programs, 0 for count-portable. -/
  target : Nat := 0
  dbSeq : Nat := 0
  /-- FETCHED_SEQ: every descriptor up to it has been fetched (R420). -/
  fetchedSeq : Nat := 0
  /-- Last sequence the main lane has fetched or leaves to a region. -/
  mainSeq : Nat := 0
  doneSeq : Nat := 0
  cmplSeq : Nat := 0
  cqConsumed : Nat := 0
  lastStatus : Nat := 0
  /-- Records are held (R259). -/
  cqFull : Bool := false
  fullSince : Nat := 0
  /-- Event 0x01.0x04 was raised in this period of being full, with this CMPL_SEQ. -/
  fullRaised : Option Nat := none
  /-- Fetched and not yet dispatched, in submit order. -/
  fetched : List (List Byte) := []
  /-- Dispatched and not yet recorded, in submit order. -/
  flights : List Flight := []
  held : List HeldRec := []
  /-- A function reset disabled the queue: what ends in it writes no record (R283). -/
  mute : Bool := false
  /-- An admin queue enabled again holds commands, or records, of the ENABLE before (R273). -/
  prior : Bool := false
  /-- A slot that counts as fetched and ended, with the status of its record, behind the fetched descriptors (R255). -/
  bad : Option (Nat × Nat) := none
  /-- Reads made of a slot with a wrong SUBMIT_SEQ (R255). -/
  retries : Nat := 0
  retryAt : Nat := 0
  /-- The slot is one of the deferred lane. -/
  retryLane : Bool := false
  /-- Admin commands, as (admin queue, seq), that complete when the queue reaches STOPPED (R276). -/
  stopWaiters : List (Nat × Nat) := []
  /-- Pending deferred regions, in submit order (R420). -/
  regions : List DeferRegion := []
  /-- The filler unit under way (R425). -/
  unit : Option FillUnit := none
  deriving DecidableEq, Repr

/-- The command a journal holds (R279, R281). -/
structure Journal where
  /-- 0 empty, 1 ACCEPTED, 2 STAGED, 3 COMMITTED. -/
  phase : Nat := 0
  cmd : List Byte := []
  /-- It came over the sideband (R563), and its sequence there or in the mailbox. -/
  sb : Bool := false
  seq : Nat := 0
  /-- Status decided when the command committed. -/
  status : Nat := 0
  resp : List Byte := []
  deriving DecidableEq, Repr

/-- The last record written of one event key (R306). -/
structure Coalesce where
  ring : Nat
  cls : Nat
  code : Nat
  die : Nat
  queue : Nat
  data : Nat
  /-- Timebase at which it was written. -/
  writtenAt : Nat
  /-- A repeat was suppressed since. -/
  suppressed : Bool
  deriving DecidableEq, Repr

/-- The host port (10). -/
structure HostSt where
  fns : List (Nat × Fn) := []
  queues : List (Nat × Queue) := []
  parts : List (Nat × Partition) := []
  /-- Commands dispatched so far. -/
  dispatched : Nat := 0
  /-- Last queue served, plus one, by die × 3 + class; the last admin queue at 12 (R256, R273). -/
  rotation : List (Nat × Nat) := []
  /-- MSI-X state by function × 2,048 + vector. -/
  vectors : List (Nat × Vector) := []
  /-- Interrupts sent: (function, vector), oldest first. -/
  interrupts : List (Nat × Nat) := []
  /-- Host memory by function × 2^64 + I/O virtual address: the environment's, read and written by the package. -/
  mem : List (Nat × Byte) := []
  /-- The PCIe link is up. -/
  linkUp : Bool := false
  /-- VF Enable of the physical function's SR-IOV capability (R249, R283). -/
  vfEnable : Bool := false
  /-- The command journal. -/
  mbx : Journal := {}
  /-- A command that Betony had accepted when it came to be HALTED, while hub hardware runs one of the sideband (R535, R563). -/
  mbxHeld : Journal := {}
  /-- A mailbox doorbell rung while Betony restarts (R282, R534). -/
  doorbell : Option Nat := none
  /-- Last event record written per key: (ring, class, code, die, queue, data) to time and suppression (R306). -/
  coalesce : List Coalesce := []
  deriving DecidableEq, Repr

/-! ### Power (17) -/

/-- The actuators, admissions and sensors of one compute die (R497 to R520). -/
structure PwDie where
  /-- Voltage-step index k (R497). -/
  k : Nat := 120
  /-- Pace step p, 0 to 64 (R499). -/
  p : Nat := 64
  /-- The pace step the governor loop asks for at the next window boundary (R500, R510). -/
  want : Option Nat := none
  /-- The fast limiter's cut of p has not been made good (R509, R511). -/
  capCut : Bool := false
  /-- T_IDX and C_IDX (R510). -/
  tIdx : Nat := 144
  cIdx : Nat := 144
  vreq : Nat := 120
  vmaxCeil : Nat := 144
  throttled : Bool := false
  /-- Timebase at which THROTTLED last became set. -/
  throttleAt : Nat := 0
  /-- The fast limiter acted since the last governor period (R509, R510). -/
  limited : Bool := false
  /-- Die array indices admitted (R504), ascending. -/
  admitted : List Nat := []
  /-- Moments of the last admission and the last release, in ps. -/
  admitPs : Option Nat := none
  releasePs : Option Nat := none
  /-- Last pace window taken (R499). -/
  window : Nat := 0
  /-- (die array index, timebase of its last completed beat + 1). -/
  lastBeat : List (Nat × Nat) := []
  /-- (die array index, timebase of its admission). -/
  since : List (Nat × Nat) := []
  /-- (die array index, queue whose command last issued on it + 1) (R515). -/
  issued : List (Nat × Nat) := []
  /-- Ballast energy not yet charged, in pJ, by queue + 1; 0 where none issued (R506, R515). -/
  ballastPj : List (Nat × Nat) := []
  /-- Latest reading × 4 of each of the 64 sensors, and whether it is valid (R519). -/
  sensors : List (Int × Bool) := []
  deriving DecidableEq, Repr

/-- A voltage table (R502). -/
structure VTable where
  vmin : Nat := 88
  vmax : Nat := 144
  nom : Nat := 120
  /-- Entries of R502 for index 88 upward, raw 64 bits. -/
  entries : List Nat := []
  deriving DecidableEq, Repr

/-- Power, thermal and energy state of the package (17). -/
structure PowerSt where
  dies : List PwDie := [{}, {}, {}, {}]
  /-- Voltage tables in use. -/
  tables : List VTable := [{}, {}, {}, {}]
  /-- Override tables of the health record, and the dies whose table in use is one (R503). -/
  overrides : List (Nat × VTable) := []
  overriding : List Nat := []
  ceiling : Nat := 3200
  cap : Nat := 3200
  excLimit : Nat := 3600
  slope : Nat := 400
  ballastEn : Bool := true
  coolantEn : Bool := true
  coolantHoldMs : Nat := 10000
  releaseNs : Nat := 2000
  /-- P_1, P_10, P_100 in mW, and the last 100 samples in mW (R496). -/
  p1 : Nat := 0
  p10 : Nat := 0
  p100 : Nat := 0
  samples : List Nat := []
  /-- Excursion credit X in units of 100 ns (R508). -/
  credit : Nat := 100000
  /-- 0 running, 1 COOLANT_STOPPING, 2 COOLANT_HOLD, 3 resuming (ZG_PWR_STATE). -/
  coolState : Nat := 0
  holdAt : Nat := 0
  holdAborted : Bool := false
  tripped : Bool := false
  /-- A trip that no start-up has reported yet (R522). -/
  tripNew : Bool := false
  /-- A power-fail stop (R610). -/
  powerFail : Bool := false
  /-- Energy accounts in nJ: queues by number, partition static by number, what the queues of a partition were charged
  since PARTITION_CREATE, the package account and the package's energy (R515, R517). -/
  eQueue : List (Nat × Nat) := []
  eStatic : List (Nat × Nat) := []
  ePart : List (Nat × Nat) := []
  ePackage : Nat := 0
  eTotal : Nat := 0
  /-- Part of a nanojoule carried to an account's next interval, as numerator and denominator (R517): queue q by q, static
  account of partition p by 2^20 + p, the package by 2^21. -/
  carried : List (Nat × (Nat × Nat)) := []
  /-- Energy of each die in pJ by die × 4 + kind: core, HBM, SerDes, ballast. -/
  eDie : List (Nat × Nat) := []
  /-- Sensors of the hub die. -/
  hubSensors : List (Int × Bool) := []
  deriving DecidableEq, Repr

/-! ### Betony, logs, alarms, roles (18) -/

/-- An alarm slot (R545). -/
structure Alarm where
  active : Bool := false
  everUsed : Bool := false
  firstNs : Nat := 0
  lastNs : Nat := 0
  clearNs : Nat := 0
  count : Nat := 0
  severity : Nat := 0
  data : Nat := 0
  queue : Nat := 65535
  part : Nat := 0
  /-- Timebase of the last notice, and occurrences since it (R546). -/
  noticeAt : Nat := 0
  since : Nat := 0
  /-- NOTIFY_PENDING: a notice waits for room, a further one with COALESCED set or the first (R546). -/
  pending : Option Bool := none
  deriving DecidableEq, Repr

/-- A trace point (R544). -/
structure TracePoint where
  enable : Bool := false
  shift : Nat := 0
  occ : Nat := 0
  deriving DecidableEq, Repr

/-- An access held for B0 (R533). -/
structure EmuRead where
  fn : Nat
  off : Nat
  size : Nat
  /-- Value of a counter, captured on arrival (R592). -/
  capture : Option Nat
  at_ : Nat
  /-- Writes of the function queued ahead of it. -/
  behind : Nat
  deriving DecidableEq, Repr

/-- A queued emulated write (R533). -/
structure EmuWrite where
  fn : Nat
  off : Nat
  size : Nat
  value : Nat
  deriving DecidableEq, Repr

/-- The refusals and failures of one role (R554, R557). -/
structure RoleSt where
  /-- The 32-byte key; empty while unset (R549). -/
  key : List Byte := []
  /-- Times of failures at step 6, newest first. -/
  fails : List Nat := []
  locked : Bool := false
  lockedAt : Nat := 0
  /-- Refusals in the open window, the status of the first, and the start of the window. -/
  refusals : Nat := 0
  firstRefusal : Nat := 0
  windowAt : Nat := 0
  deriving DecidableEq, Repr

/-- Betony and the records it keeps (18). -/
structure MgtSt where
  /-- Times at which restarts began, newest first (R535). -/
  restarts : List Nat := []
  restartCore : Nat := 0
  restartCause : Nat := 0
  emuReads : List EmuRead := []
  emuWrites : List EmuWrite := []
  /-- 4-byte read shadow of each function: (register offset plus one, high half) (R537). -/
  shadows : List (Nat × (Nat × Nat)) := []
  /-- Answer of the last register read, as the reader sees it: (function, offset, value). -/
  answer : Option (Nat × Nat × Nat) := none
  /-- WRAPPED (bit 0) and OVERFLOW (bit 1) of counters by register key (R536). -/
  ctrBits : List (Nat × Nat) := []
  /-- Log input FIFO, oldest first (R543). -/
  logFifo : List (List Byte) := []
  /-- Records lost and not yet announced by event 0x0E.0x07 (R543). -/
  logLoss : Nat := 0
  alarms : List (Nat × Alarm) := []
  traces : List (Nat × TracePoint) := []
  traceFifo : List (List Byte) := []
  /-- Events that count in a coalescing window: (time of the last record plus one, occurrences since), by code. -/
  windows : List (Nat × (Nat × Nat)) := []
  /-- Selections in use of the programmable counters, by die × 8 + k (R539). -/
  pmcSel : List (Nat × Nat) := []
  pmcAt : List (Nat × Nat) := []
  roles : List (Nat × RoleSt) := []
  /-- Rejections last logged: function to (offset, kind, time) (R595). -/
  lastReject : List (Nat × (Nat × Nat × Nat)) := []
  /-- Sideband: command buffer, sequence, last status and response, dynamic address, IBI state (R561 to R563). -/
  sbBuf : List (Nat × Byte) := []
  sbSeq : Nat := 0
  sbStatus : Nat := 0
  sbResp : List Byte := []
  sbDynAddr : Option Nat := none
  sbIbiEn : Bool := false
  /-- Defining byte of the last RSTACT (R561). -/
  sbRstAct : Nat := 0
  sbMaxRead : Nat := 256
  sbMaxWrite : Nat := 256
  /-- In-band interrupts requested and unanswered; severities sent, oldest first. -/
  ibiWaiting : Bool := false
  ibis : List Nat := []
  /-- Bytes the next private read or CCC read returns. -/
  sbAnswer : List Byte := []
  deriving DecidableEq, Repr

/-! ### Fuses, persistent store, start-up (19, 21) -/

/-- Fused values no register shows (R502, R549, R552, R578); serial, stepping, grade and SEALED are in ZG_ID and
ZG_MGT_STATE. -/
structure Fuses where
  /-- The four fused key digests (R578). -/
  keyDigests : List (List Byte) := []
  revoked : List Nat := []
  /-- The factory installer key (R549). -/
  factoryInstaller : List Byte := []
  vtables : List VTable := [{}, {}, {}, {}]
  /-- CHECK of a die's fused voltage table is right (R502, R576). -/
  vtOk : List Bool := [true, true, true, true]
  /-- Rows written by FUSE_PROGRAM. -/
  rows : List (Nat × Nat) := []
  /-- Rows of each stack that post-package repair has replaced, by stack (R210). -/
  repaired : List (Nat × Nat) := []
  deriving DecidableEq, Repr

/-- A health entry (R541, R568): KIND as in HEALTH_CLEAR of R552. -/
structure HealthEntry where
  kind : Nat
  die : Nat
  index : Nat
  value : Nat
  deriving DecidableEq, Repr

/-- The island's non-volatile store (R557, R568). -/
structure Store where
  minSvn : Nat := 0
  startups : Nat := 0
  aseq : Nat := 0
  /-- SHA-384 of the newest audit record. -/
  digest : List Byte := []
  /-- The plan record of R374; empty without one. -/
  plan : List Byte := []
  /-- The body of the last LIMITS_SET; empty without one. -/
  limits : List Byte := []
  health : List HealthEntry := []
  deriving DecidableEq, Repr

/-- The start-up sequence and reset classes (19). -/
structure BootSt where
  /-- Health entries of the HBM copies that apply in this start-up (R570). -/
  health : List HealthEntry := []
  /-- Entries that take effect, or are removed, at the next start-up (R552, R571). -/
  healthClear : List HealthEntry := []
  /-- Health entries refused because the store is full (R570). -/
  refused : Nat := 0
  /-- The firmware slot holds a verified image with this SHA-384 (R578). -/
  imageHash : List Byte := []
  raiseSvn : Bool := false
  imageSvn : Nat := 0
  /-- Step 12 ended at this time, and step 13 is open (R574). -/
  step13 : Bool := false
  step12At : Nat := 0
  /-- The class of the reset under way: 0 power-on, 1 cold, 2 warm. -/
  resetClass : Nat := 0
  startedAt : Nat := 0
  /-- Offsets of the latest consecutive exchanges (R574). -/
  thetas : List Int := []
  /-- What ends a FAILED package: 0 not failed, 1 a cold reset, 2 power-on (R576). -/
  failUntil : Nat := 0
  deriving DecidableEq, Repr

/-- The pins of the package (21). -/
structure Pins where
  /-- Rails applied: 0 none, 1 standby only, 2 all (R607, R609). -/
  rails : Nat := 0
  resetN : Bool := false
  perstN : Bool := false
  coolantOk : Bool := false
  coolantAt : Nat := 0
  /-- Every power-good input is high. -/
  powerGood : Bool := false
  /-- VIDd[7:0] follows k of the die while VID_EN is high (R611, R613). -/
  vidEn : Bool := false
  thermtripN : Bool := true
  alertN : Bool := true
  /-- ADDR1 and ADDR0 as sampled (R619). -/
  straps : Nat := 0
  /-- The test access port: enabled in test mode only; in Test-Logic-Reset; TDO high-impedance (R620). -/
  tapEnabled : Bool := false
  tapReset : Bool := true
  tdoHighZ : Bool := true
  deriving DecidableEq, Repr

/-! ### Synchronisation objects (11) -/

/-- A synchronisation object (R285); its TENANT is that of the partition in its block's owner byte, and its WATCH names
the dies of the queues in the wait list. -/
structure SynObj where
  value : Nat := 0
  target : Nat := 0
  gen : Nat := 0
  barrier : Bool := false
  failed : Bool := false
  overflow : Bool := false
  underflow : Bool := false
  deriving DecidableEq, Repr

/-- A wait registered at an object (R297 to R299). -/
structure SynWait where
  queue : Nat
  seq : Nat
  obj : Nat
  pred : Nat
  v : Nat
  ignoreFail : Bool
  timeoutUs : Nat
  /-- Timebase of its registration. -/
  since : Nat
  deriving DecidableEq, Repr

/-- A SYNC_REMOTE whose answer is outstanding (R304). -/
structure RemoteOp where
  queue : Nat
  seq : Nat
  /-- PKT_ID of its request, and the package asked, by field and coordinates. -/
  id : Nat
  dest : Nat
  timeoutUs : Nat
  since : Nat
  deriving DecidableEq, Repr

/-- The deadlock detector of one die for one partition (R308, R309). -/
structure Detector where
  /-- Timebase of the last dispatch or completion of a queue, or change of an object or group waited on. -/
  changedAt : Nat := 0
  reported : Bool := false
  /-- SEQ of the report that stands. -/
  seq : Nat := 0
  deriving DecidableEq, Repr

/-- Synchronisation state of the package. -/
structure SynSt where
  objs : List (Nat × SynObj) := []
  waits : List SynWait := []
  remotes : List RemoteOp := []
  /-- By die × 64 + partition. -/
  detectors : List (Nat × Detector) := []
  deriving DecidableEq, Repr

/-! ### Clusters, SRAM and the vector engine (06) -/

/-- A stochastic-rounding context: a random binding (R61, R400, R402). -/
structure SrCtx where
  seed : Nat := 0
  job : Nat := 0
  mbatch : Nat := 0
  layer : Nat := 0
  site : Nat := 0
  purpose : Nat := 0
  ibase : Nat := 0
  deriving DecidableEq, Repr

/-- A LOOP being run: its body and the runs left (R144). -/
structure VLoop where
  first : Nat
  last : Nat
  left : Nat
  deriving DecidableEq, Repr

/-- The vector program that runs in a cluster (R152). -/
structure VProg where
  queue : Nat
  seq : Nat
  clFirst : Nat
  /-- The clusters it runs in, in the order of their numbers within the command. -/
  cls : List Nat
  flagsVa : Nat
  maxBeats : Nat
  pc : Nat
  beats : Nat := 0
  loops : List VLoop := []
  deriving DecidableEq, Repr

/-- An entry of a feeder or drain program (R134). -/
structure MoveEntry where
  op : Nat
  bcast : Bool
  feeder : Nat
  rows : Nat
  rowBytes : Nat
  off : Nat
  stride : Nat
  va : Nat
  vaStride : Nat
  deriving DecidableEq, Repr

/-- A move command under way (R133 to R138). -/
structure MoveRun where
  queue : Nat
  seq : Nat
  clFirst : Nat
  /-- The clusters it runs in, in the order of their numbers within the command. -/
  cls : List Nat
  /-- SEQ: the drain program starts when the feeder program has completed. -/
  inOrder : Bool
  vaStep : Nat
  feed : List MoveEntry
  drain : List MoveEntry
  /-- Data of BCAST loads already read, by entry. -/
  bcast : List (Nat × List Byte) := []
  deriving DecidableEq, Repr

/-- Progress of the running move command in one cluster. -/
structure MoveAt where
  queue : Nat
  seq : Nat
  /-- Entries of the feeder and drain programs that have completed. -/
  feedDone : List Nat := []
  drainDone : List Nat := []
  /-- The status an entry failed with; no further entry starts. -/
  failed : Option Nat := none
  deriving DecidableEq, Repr

/-- The flip that a copy-back belongs to: its queue, the partition of that queue, its place in the order of dispatches (R169,
R175). -/
structure CopyBack where
  queue : Nat
  part : Option Nat
  order : Nat
  deriving DecidableEq, Repr

/-- A Teasel map slot; its banked state stands in the table of banked tables (R171, R178). -/
structure TslSlot where
  defined : Bool := false
  off0 : Nat := 0
  off1 : Nat := 0
  nkeys : Nat := 0
  /-- SHADOW_BAD (R181). -/
  shadowBad : Bool := false
  /-- The last flip with COPYBACK. -/
  copyBy : Option CopyBack := none
  deriving DecidableEq, Repr

/-- A loan of a cluster's arrays: to a filler unit (R424 to R430) or to a Sorrel command (R454, R455). -/
structure Loan where
  sorrel : Bool
  queue : Nat
  seq : Nat
  part : Nat
  /-- Timebase at which it began. -/
  since : Nat
  /-- The owner wants the cluster back. -/
  ending : Bool := false
  deriving DecidableEq, Repr

/-- A register set of the vector engine put aside (R430). -/
structure RegSet where
  vregs : List (Nat × List Nat)
  xregs : List (Nat × Nat)
  masks : List (Nat × Nat)
  vstat : Nat
  ctxs : List (Nat × SrCtx)
  deriving DecidableEq, Repr

/-- One cluster (R121 to R152). -/
structure ClusterSt where
  /-- The 12 MiB of SRAM by byte offset. -/
  sram : List (Nat × Byte) := []
  /-- Wrong bits of a 72-bit word, by word number (R124). -/
  sramErrs : List (Nat × Nat) := []
  /-- Corrected lines that wait to be written back (R125). -/
  writeBacks : List Nat := []
  /-- Next line the scrubber reads of each bank (R127). -/
  scrubLine : List (Nat × Nat) := []
  /-- Target owner byte of a change under way (R129). -/
  ownTarget : Option Nat := none
  /-- Degraded (R468). -/
  degraded : Bool := false
  /-- V0 to V63: 256 lanes of 32 bits each; an unlisted register is zero (R141). -/
  vregs : List (Nat × List Nat) := []
  /-- X1 to X31. -/
  xregs : List (Nat × Nat) := []
  /-- MK1 to MK7; unlisted masks are all ones. -/
  masks : List (Nat × Nat) := []
  /-- VSTAT (R149). -/
  vstat : Nat := 0
  ctxs : List (Nat × SrCtx) := []
  /-- The code in the instruction buffer. -/
  ibuf : List Nat := []
  prog : Option VProg := none
  /-- The owner's V0 to V63, X, MK, VSTAT and contexts while a borrower uses the second register set (R430). -/
  lentRegs : Option RegSet := none
  mv : Option MoveAt := none
  slots : List (Nat × TslSlot) := []
  loan : Option Loan := none
  /-- Tenant of the last borrower of the carve-out (R131). -/
  lastBorrower : Option Nat := none
  deriving DecidableEq, Repr

/-- All clusters of the package. -/
structure CluSt where
  /-- By die × 64 + cluster. -/
  cl : List (Nat × ClusterSt) := []
  /-- Carve-out size in effect on each die, in units of 128 KiB (R130, R132). -/
  carve : List Nat := [0, 0, 0, 0]
  moves : List MoveRun := []
  deriving DecidableEq, Repr

/-! ### Die-to-die links and streams (09) -/

/-- A DATA frame (R225): traffic class, TAG, OFFSET, the node it is bound for and the one it comes from (4 is HD), the intermediate
dies it has crossed, for a STREAM frame which use of its stream number it belongs to and for a part of a Wefin packet one more than
that packet's number, its payload, and for a transit packet of a data channel one more than VC × 3 + POOL (R366). -/
structure D2dFrame where
  cls : Nat
  tag : Nat
  offset : Nat
  dest : Nat
  src : Nat
  hops : Nat
  gen : Nat
  data : List Byte
  lane : Nat
  deriving DecidableEq, Repr

/-- A frame on the wires (R225): KIND 0 IDLE, 1 DATA, 2 PROBE; FSEQ and ACK; the class and pool of CREDIT as key, and its total; the pool
of a DATA frame, 0 for HOP = 0; the frame. -/
structure WireFrame where
  kind : Nat
  fseq : Nat
  ack : Nat
  creditKey : Nat
  credit : Nat
  pool : Nat
  frame : Option D2dFrame
  deriving DecidableEq, Repr

/-- A strand of a link: 0 not trained, 1 IN_SERVICE, 2 RETRAIN, 3 DOWN (R232, R233). -/
structure Strand where
  st : Nat := 0
  /-- Wires a spare stands in for, as 66 × direction + wire: direction 0 into the first end of the link, 1 into the second. -/
  wires : List Nat := []
  /-- Retrains that failed one after another. -/
  fails : Nat := 0
  deriving DecidableEq, Repr

/-- A DATA frame that no ACK has covered (R227). -/
structure Unacked where
  fseq : Nat
  /-- Times it has been sent. -/
  sends : Nat
  pool : Nat
  frame : D2dFrame
  deriving DecidableEq, Repr

/-- The sending side of a strand (R227 to R229). -/
structure StrandTx where
  /-- FSEQ of the next DATA frame. -/
  next : Nat := 0
  /-- Frames not acknowledged, oldest first. -/
  replay : List Unacked := []
  /-- Timebase at which an ACK last advanced or the buffer began to fill. -/
  ackAt : Nat := 0
  /-- Frames sent of each class and pool, by 3 × buffer class + pool. -/
  used : List (Nat × Nat) := []
  /-- Credits returned of each class and pool, modulo 128 as received. -/
  back : List (Nat × Nat) := []
  /-- The class and pool whose total the next frame carries. -/
  turn : Nat := 0
  deriving DecidableEq, Repr

/-- The receiving side of a strand (R226, R228). -/
structure StrandRx where
  expect : Nat := 0
  /-- Times of CRC failures within the last millisecond. -/
  crcAt : List Nat := []
  /-- Credits given back of each class and pool. -/
  freed : List (Nat × Nat) := []
  deriving DecidableEq, Repr

/-- A stream in one cluster (R236 to R244). -/
structure StreamCl where
  cl : Nat
  /-- Positions read and sent. -/
  sent : Nat := 0
  /-- Landed position. -/
  landed : Nat := 0
  /-- Blocks landed above the landed position, by number. -/
  blocks : List Nat := []
  /-- Release mark. -/
  mark : Nat := 0
  /-- Start of a stall. -/
  stallFrom : Nat := 0
  /-- The stalled event of this stall has been raised. -/
  stalled : Bool := false
  /-- The stream has ended here, with this status. -/
  ended : Option Nat := none
  deriving DecidableEq, Repr

/-- A stream (R236, R237). -/
structure Stream where
  /-- Distinguishes the streams that use one stream number in turn. -/
  gen : Nat
  die : Nat
  num : Nat
  part : Nat
  tenant : Nat
  sender : Nat
  srcHbm : Bool
  feed : Bool
  length : Nat
  srcOff : Nat
  landOff : Nat
  landBytes : Nat
  srcVa : Nat
  srcStride : Nat
  /-- Page-table bank bound (R198). -/
  bank : Option Nat
  /-- EPOCH bound with it (R197). -/
  epoch : Nat := 0
  /-- The OPEN command. -/
  queue : Nat
  seq : Nat
  /-- The OPEN waits for the last byte. -/
  waiting : Bool
  cls : List StreamCl
  /-- The status it failed with (R242). -/
  failed : Option Nat := none
  deriving DecidableEq, Repr

/-- The die-to-die links. Links are 0 to 3 for the edge at port 0 of that die, 4 + die for hub links. -/
structure D2dSt where
  /-- By link × 64 + strand. -/
  strands : List (Nat × Strand) := []
  /-- By end × 64 + strand. -/
  tx : List (Nat × StrandTx) := []
  rx : List (Nat × StrandRx) := []
  /-- Frames on the wires, oldest first, by sending end × 64 + strand. -/
  wire : List (Nat × List WireFrame) := []
  /-- Next strand to deal to, by end (R230). -/
  turn : List (Nat × Nat) := []
  /-- Frames that wait to be dealt, by end × 64 + 3 × buffer class + dies crossed; each with 1 + (64 × end + strand) of the buffer it
  stands in, or 0 (R229, R231). -/
  out : List (Nat × List (Nat × D2dFrame)) := []
  /-- Whose turn it is: by 2 × end for CTRL frames, 2 × end + 1 for the other classes (R229). -/
  arb : List (Nat × Nat) := []
  /-- Number of the next transaction of a source unit, by sequence (R230). -/
  txn : List (Nat × Nat) := []
  /-- Number of the MEM_REQ transaction that is to be applied next, by sequence (R230). -/
  reqNext : List (Nat × Nat) := []
  /-- MEM_REQ frames that wait for earlier ones, by node, each with its buffer (R230). -/
  reqHeld : List (Nat × List (Nat × D2dFrame)) := []
  /-- Transactions received, newest first, by sequence (R233). -/
  seen : List (Nat × List Nat) := []
  /-- Streams, the ended ones included while a command may still name them. -/
  streams : List Stream := []
  streamGen : Nat := 0
  deriving DecidableEq, Repr

/-! ### Arrays and tile commands (04, 05) -/

/-- A window (R76). -/
structure Window where
  w : Int := 0
  lsb : Int := 0
  nan : Bool := false
  pinf : Bool := false
  ninf : Bool := false
  empty : Bool := true
  allNeg0 : Bool := true
  /-- The 3-bit residue modulo 7 that the checker stores with the window (R91, R113). -/
  res : Nat := 0
  deriving DecidableEq, Repr

/-- A block of a tile command to be run as a pass. -/
structure PassId where
  queue : Nat
  seq : Nat
  block : Nat
  deriving DecidableEq, Repr

/-- A pass whose bank is loaded (R91, R105). -/
structure Pass where
  id : PassId
  /-- Its bank, 0 or 1. -/
  bank : Nat
  started : Bool := false
  /-- Array beats completed since its stream began. -/
  t : Nat := 0
  /-- Operands at the edge in the latest beats, newest first: raw encodings with their scale, by row of A and column of B
  and position of the beat. -/
  edges : List (List (List (Nat × Nat)) × List (List (Nat × Nat))) := []
  /-- Windows of the block, row-major. -/
  wins : List Window
  /-- The windows are final and wait for the drain. -/
  final : Bool := false
  /-- Rows and spilled lines of its unload that the drain has handed on (R140). -/
  drained : Nat := 0
  deriving DecidableEq, Repr

/-- A repeat or a substituted run under way (R114, R116). -/
structure Repeat where
  source : Nat
  engine : Nat
  queue : Nat
  seq : Nat
  /-- The passes run on S. -/
  onS : Bool := false
  /-- Passes that have not reached their final window. -/
  left : List PassId
  deriving DecidableEq, Repr

/-- An array of a cluster (R91 to R116). -/
structure ArraySt where
  /-- Blocks dealt to it and not yet loaded, in order. -/
  chain : List PassId := []
  /-- Passes in its banks, in order. -/
  passes : List Pass := []
  nextBank : Nat := 0
  /-- Transient classifications since cold reset (R115). -/
  trans : Nat := 0
  /-- The repeat of a mismatch with SOURCE 0 to 4 (R114). -/
  rep : Option Repeat := none
  /-- A drain mismatch, SOURCE 5, whose unload is to be repeated: its bank and the event (R114). -/
  drainRep : Option (Nat × Repeat) := none
  /-- Frozen since this time, for cause 0 operand, 1 bank, 2 gate. -/
  frozen : Option (Nat × Nat) := none
  deriving DecidableEq, Repr

/-- A row on its way to HBM (R140). -/
structure Spill where
  queue : Nat
  seq : Nat
  va : Nat
  bytes : List Byte
  deriving DecidableEq, Repr

/-- A tile command under way (R94 to R103). -/
structure TileRun where
  queue : Nat
  seq : Nat
  die : Nat
  /-- Order of its dispatch. -/
  order : Nat
  body : List Byte
  /-- The clusters it runs in, in the order of their numbers within the command. -/
  cls : List Nat
  /-- Base of the SRAM it addresses (R131). -/
  base : Nat
  /-- Chunk order of each cluster (R97). -/
  ktabs : List (Nat × List Nat)
  /-- Streams of A and B by `gen`. -/
  aStream : Option Nat
  bStream : Option Nat
  /-- Blocks of all clusters not yet drained. -/
  left : Nat
  deriving DecidableEq, Repr

/-- Arrays, drains and tile commands. -/
structure TileSt where
  /-- By die × 512 + die array index. -/
  arrays : List (Nat × ArraySt) := []
  /-- Final banks of a cluster in the order they became final, as (array, bank), by die × 64 + cluster (R106). -/
  finals : List (Nat × List (Nat × Nat)) := []
  /-- Rows a cluster's drain hands to its write buffer (R140). -/
  spills : List (Nat × List Spill) := []
  runs : List TileRun := []
  deriving DecidableEq, Repr

/-! ### Wefin (13) -/

/-- A packet on its way out of a port, or held for a bundle (R370, R372). -/
structure OutPkt where
  id : Nat
  bytes : List Byte
  /-- VC × 3 + POOL. -/
  vp : Nat
  /-- Direction 0 to 5 of its bundle, 6 for the twin port, 7 for a packet of one hop. -/
  dir : Nat
  /-- Route-table bank bound until its last flit leaves (R385). -/
  bank : Option Nat
  /-- The die it stands on, and ROUTE, direction and pool as it came there, for a look-up again (R370, R385). -/
  die : Nat := 0
  route : Nat := 0
  came : Option (Nat × Nat) := none
  /-- Flits sent. -/
  sent : Nat := 0
  /-- Its last flit has been acknowledged up to here. -/
  acked : Nat := 0
  deriving DecidableEq, Repr

/-- A packet that crosses the ring to the die of its egress port: its frames received so far, by place (R366, R370). -/
structure Crossing where
  pkt : OutPkt
  port : Nat
  parts : List (Nat × List Byte) := []
  deriving DecidableEq, Repr

/-- A DATA flit not yet acknowledged (R361). -/
structure WFlit where
  fseq : Nat
  sends : Nat
  pkt : Nat
  bytes : List Byte
  deriving DecidableEq, Repr

/-- A Wefin port beside ZG_WFN_PORTk and its counters (R355 to R366, R376). -/
structure WPort where
  out : List OutPkt := []
  /-- The replay buffer, oldest first. -/
  replay : List WFlit := []
  /-- FSEQ of the next DATA flit. -/
  next : Nat := 0
  /-- Timebase at which ACK last advanced, or flits began to wait. -/
  ackAt : Nat := 0
  /-- Flits sent, and the latest CR_COUNT, of each (VC, pool). -/
  used : List (Nat × Nat) := []
  credit : List (Nat × Nat) := []
  /-- FSEQ expected next; ACK is one less. -/
  expect : Nat := 0
  /-- Flits freed of each (VC, pool). -/
  freed : List (Nat × Nat) := []
  /-- The (VC, pool) that CR_SEL names next. -/
  crTurn : Nat := 0
  /-- Packets arriving, by (VC, pool), and how many of their flits stand in the buffer behind a packet that waits. -/
  partials : List (Nat × List Byte) := []
  behind : List (Nat × Nat) := []
  /-- Blocks laid out for the codeword being filled, codewords dealt to the lanes, and the message each lane carried last (R356). -/
  txBlocks : List (BitVec 257) := []
  txWords : Nat := 0
  line : List (Nat × List (BitVec 257)) := []
  /-- Codewords of each lane that wait for the other lanes, codewords taken, the round of the alignment codewords modulo 4,096, and data
  blocks of the byte stream, each with whether its codeword was lost (R356, R357). -/
  deskew : List (Nat × List LaneWord) := []
  rxWords : Nat := 0
  rxAlign : Option Nat := none
  rxBlocks : List (BitVec 257 × Bool) := []
  /-- An acknowledgement is owed. -/
  owes : Bool := false
  /-- VC 1 flits sent one after another while VC 2 or VC 3 waited, and whether VC 3 goes first next (R364). -/
  quickRun : Nat := 0
  rspNext : Bool := false
  /-- Failed retrains one after another. -/
  fails : Nat := 0
  /-- A HELLO has been received since training; the last one sent and received. -/
  helloSeen : Bool := false
  helloAt : Nat := 0
  hello : List Byte := []
  /-- The last flit sent. -/
  last : List Byte := []
  /-- The WEFIN_PORT command that waits for the port. -/
  cmd : Option (Nat × Nat) := none
  deriving DecidableEq, Repr

/-- A packet received whole (R367). -/
structure Arrived where
  port : Nat
  at_ : Nat
  vp : Nat
  bytes : List Byte
  /-- Its flits that still stand in the receive buffer (R364, R365). -/
  hold : Nat := 0
  deriving DecidableEq, Repr

/-- A region of the field (R380). -/
structure Region where
  epoch : Nat := 0
  stable : Bool := false
  changedAt : Nat := 0
  deriving DecidableEq, Repr

/-- A WEFIN_CONTROL under way (R388): its command, the requests not yet answered, the packages that answered. -/
structure ControlRun where
  queue : Nat
  seq : Nat
  waiting : List (Nat × Nat)
  answered : Nat
  all : Bool
  timeoutUs : Nat
  since : Nat
  deriving DecidableEq, Repr

/-- Identities accepted from a source die (R368): the newest, and those of the 1,024 below it. -/
structure PktSeen where
  newest : Nat
  below : List Nat
  deriving DecidableEq, Repr

/-- Wefin ports, discovery and routing (13). -/
structure WefinSt where
  /-- The cabling plan in force (R374); empty without one. -/
  plan : List Byte := []
  ports : List (Nat × WPort) := []
  arrived : List Arrived := []
  /-- Packets of bundles with no port UP (R372), and packets on their way to another die's port (R366). -/
  held : List OutPkt := []
  cross : List Crossing := []
  pktCount : Nat := 0
  /-- PKT_ID last used, by source die × 2^25 + destination field and coordinates. -/
  ids : List (Nat × Nat) := []
  /-- By source field, coordinates and die. -/
  seen : List (Nat × Option PktSeen) := []
  /-- Newest LSA of each package of the field, by linear index (R379). -/
  lsas : List (Nat × List Byte) := []
  lsaSeq : Nat := 0
  lsaAt : Nat := 0
  regions : List (Nat × Region) := []
  /-- Epochs of the regions that the last plan formed used (R381). -/
  formed : Option (List Nat) := none
  /-- A plan computed and not yet flipped: its epochs, its entries, its depths, its TWIN_VIA. -/
  forming : Option (List Nat × List Nat × List Nat × Option Nat) := none
  /-- Route-table entries by bank × 1,024 + linear index (R383), and TWIN_VIA of each bank, as linear index + 1. -/
  routes : List (Nat × Nat) := []
  via : List (Nat × Nat) := []
  /-- Depths in the escape tree of each bank, plus one, by bank × 1,024 + linear index (R382). -/
  depths : List (Nat × Nat) := []
  controls : List ControlRun := []
  /-- SEQ of the last time request, when it was made and whether its response is awaited; exchanges within 20 ns one after
  another; time of the last exchange (R392). -/
  timeSeq : Nat := 0
  timeReqAt : Nat := 0
  timeWait : Bool := false
  timeGood : Nat := 0
  timeAt : Nat := 0
  deriving DecidableEq, Repr

/-! ### Collectives (12) -/

/-- A chunk in a staging slot (R337). -/
structure CollChunk where
  step : Nat
  idx : Nat
  slot : Nat
  len : Nat
  /-- Number in send order, and timebase of the last send. -/
  order : Nat := 0
  at_ : Nat := 0
  deriving DecidableEq, Repr

/-- One direction of a bulk operation (R329, R337, R338). -/
structure CollDir where
  /-- Received chunks that wait in receive slots. -/
  got : List CollChunk := []
  /-- Numbers, in send order, of the chunks received. -/
  seen : List Nat := []
  /-- Slots granted to the predecessor, and by the successor. -/
  granted : Nat := 0
  credit : Nat := 0
  /-- Chunks sent and acknowledged, in send order. -/
  sent : Nat := 0
  acked : Nat := 0
  /-- Chunks sent and not acknowledged, in send slots. -/
  hold : List CollChunk := []
  /-- A CREDIT that a stop held back is owed to the predecessor (R513). -/
  owed : Bool := false
  deriving DecidableEq, Repr

/-- A quick message sent and not yet acknowledged (R348, R350). -/
structure QuickMsg where
  peer : Nat
  round : Nat
  payload : List Byte
  /-- Timebase of the last send. -/
  at_ : Nat
  deriving DecidableEq, Repr

/-- A posted operation (R318, R321). -/
structure CollOp where
  queue : Nat
  seq : Nat
  /-- OPSEQ or QSEQ. -/
  num : Nat
  opc : Nat
  body : List Byte
  /-- Bank and EPOCH of the member list it bound, and its rank there. -/
  bank : Nat
  epoch : Nat
  rank : Nat
  digest : Nat
  /-- It is the current operation of its lane, since ARRIVE_NS (R340). -/
  began : Bool := false
  arriveNs : Nat := 0
  lateRank : Nat := 0
  latePace : Nat := 0
  lateNs : Nat := 0
  cw : CollDir := {}
  ccw : CollDir := {}
  /-- Timebase of its last message, and whether its stall was raised (R343). -/
  lastMsg : Nat := 0
  stalled : Bool := false
  /-- Quick path: place in its schedule, values, messages not yet taken as (round, rank, payload). -/
  qpos : Nat := 0
  qvals : List Nat := []
  qin : List (Nat × Nat × List Byte) := []
  qhold : List QuickMsg := []
  /-- Prefetch (R336): 0 not submitted, 1 submitted and waiting for the cluster's move unit, 2 started. -/
  pf : Nat := 0
  pfBody : List Byte := []
  deriving DecidableEq, Repr

/-- A group on one die (R317, R318, R341, R342). -/
structure GroupDie where
  /-- 0 UNDEFINED, 1 IDLE or ACTIVE, 3 ABORTED. -/
  state : Nat := 0
  bulk : List CollOp := []
  quick : List CollOp := []
  /-- Numbers last posted. -/
  opSeq : Nat := 0
  qSeq : Nat := 0
  lagRank : Nat := 0
  lagPace : Nat := 0
  lagNs : Nat := 0
  /-- Pace-follow is engaged, since when, toward which voltage-step index, and the streaks of R342. -/
  engaged : Bool := false
  engagedAt : Nat := 0
  followIdx : Nat := 0
  lagging : Nat := 0
  calm : Nat := 0
  /-- The bulk and the quick operation last completed: a duplicate of their messages is acknowledged again (R338, R350). -/
  lastBulk : Option CollOp := none
  lastQuick : Option CollOp := none
  deriving DecidableEq, Repr

/-- A group (R313 to R317). -/
structure Group where
  n : Nat := 0
  stageKib : Nat := 0
  stageVa : Nat := 0
  stageStride : Nat := 0
  paceFollow : Bool := false
  ggen : Nat := 0
  bank0 : List Nat := []
  bank1 : List Nat := []
  deriving DecidableEq, Repr

/-- A collective message that reached a die over the ring edges: the sender's coordinates and die as a member entry, its
tenant tag, header and payload (R324). -/
structure CollMsg where
  die : Nat
  entry : Nat
  tenant : Nat
  bytes : List Byte
  deriving DecidableEq, Repr

/-- The collective engines. -/
structure CollSt where
  groups : List (Nat × Group) := []
  /-- By group × 4 + die. -/
  dies : List (Nat × GroupDie) := []
  inbox : List CollMsg := []
  /-- Group served last on each die (R322). -/
  turn : List (Nat × Nat) := []
  /-- Completed bulk operations whose prefetch has still to start (R336). -/
  prefetch : List CollOp := []
  deriving DecidableEq, Repr

/-! ### Integrity (16) -/

/-- The local half of a twin-table entry (R490). -/
structure TwinOwn where
  queue : Nat
  seq : Nat
  digest : List Byte
  /-- TIMEOUT_MS in ns, and the timebase of its entry. -/
  limit : Nat
  since : Nat
  deriving DecidableEq, Repr

/-- An entry of the twin table (R489 to R491). -/
structure TwinEntry where
  tenant : Nat
  tag : Nat
  interval : Nat
  own : Option TwinOwn := none
  /-- The twin's digest, the time of its arrival and HOLD in ns as it stood then. -/
  twin : Option (List Byte) := none
  twinAt : Nat := 0
  hold : Nat := 0
  /-- CONFLICT (R491). -/
  conflict : Bool := false
  deriving DecidableEq, Repr

/-- Integrity state of the package. -/
structure IntSt where
  twins : List TwinEntry := []
  /-- Check records written by each die's Campion engine since start-up (R476). -/
  alive : List Nat := [0, 0, 0, 0]
  /-- PREV (48 bytes; empty for zeros) and PSEQ of each partition (R481). -/
  chains : List (Nat × (List Byte × Nat)) := []
  deriving DecidableEq, Repr

/-! ### Training support (14) -/

/-- The virtual-stage contexts and the schedule of a die (R415 to R418). -/
structure StageSt where
  /-- Bound queues by context, as queue + 1; 0 for an unbound context. -/
  ctxs : List (Nat × Nat) := []
  /-- The partition that holds the contexts, while one is bound. -/
  part : Nat := 0
  active : Bool := false
  loop : Bool := false
  entries : List Nat := []
  pos : Nat := 0
  deriving DecidableEq, Repr

/-- Training support. -/
structure TrnSt where
  stages : List StageSt := [{}, {}, {}, {}]
  /-- Timebase at which a queue of a partition last dispatched or completed a command on a die, or a collective of it moved a
  chunk there, by die × 64 + partition (R424). -/
  lastRun : List (Nat × Nat) := []
  /-- Filler queue last granted a loan on each die, plus one (R426). -/
  turn : List (Nat × Nat) := []
  deriving DecidableEq, Repr

/-! ### The Sorrel update units (15) -/

/-- A Sorrel command set aside (R435, R454). -/
structure SrlAside where
  queue : Nat
  seq : Nat
  /-- Since when it waits for a cluster. -/
  since : Nat
  /-- Its event 0x0B.0x04 has been raised. -/
  raised : Bool := false
  deriving DecidableEq, Repr

/-- The Sorrel unit of a die. -/
structure SrlDie where
  /-- The command in progress. -/
  cur : Option (Nat × Nat) := none
  /-- Commands set aside, oldest first. -/
  aside : List SrlAside := []
  /-- STEP and TENSOR_ID of the record that the command in progress has marked TORN (R450, R451). -/
  commit : Option (Nat × Nat) := none
  /-- WAIT_MS as it stood at the last slice boundary of the command in progress (R461). -/
  waitMs : Nat := 0
  deriving DecidableEq, Repr


/-- The package. -/
structure State where
  /-- The register file, by function × 2^21 + BAR0 offset; an unlisted register is zero (R590 to R601). -/
  regs : List (Nat × Word64)
  time : TimeSt
  hbm : HbmSt
  /-- Banked state of every banked table by table number: page tables of partition p at p, Teasel slots, member lists
  and the route table (R171, R177). -/
  banks : List (Nat × Banked)
  host : HostSt
  power : PowerSt
  mgt : MgtSt
  fuses : Fuses
  store : Store
  boot : BootSt
  pins : Pins
  syn : SynSt
  clu : CluSt
  d2d : D2dSt
  tile : TileSt
  wfn : WefinSt
  coll : CollSt
  integ : IntSt
  trn : TrnSt
  srl : List SrlDie
  /-- Free values drawn so far: the model's own counter (log entry 4). -/
  openCount : Nat
  /-- The commands that wait, first in first out. -/
  pending : List Instr
  deriving DecidableEq, Repr

/-- Why a command faults. -/
inductive Fault where
  /-- Raised by a command whose operands are ill-formed (Sys2Proof.WellFormed): they name a unit the package does not
  have or carry a list of the wrong length. Safe: no such command exists. -/
  | illFormed
  deriving DecidableEq, Repr

/-- Why the model refuses a command. -/
inductive Refusal where
  /-- Raised by exec for a command that has no meaning yet. Safe: the model stops. -/
  | notModelled (mnemonic : String)
  deriving DecidableEq, Repr

/-- What a command answers. -/
abbrev Out := Host.Outcome State Fault Refusal

/-- The registers after reset: the Reset columns of the field maps, for the physical function and, in the blocks each
function has of its own, for every virtual function. -/
def resetRegs : List (Nat × Word64) :=
  regResets ++ ((List.range 64).map (fun n =>
    [((n + 1) * 0x200000, BitVec.ofNat 64 (0x1F9B041711000001 + (n + 1) * 256)),
     ((n + 1) * 0x200000 + 0x4000, 0x660)])).flatten

/-- The package right after reset: power has never been applied (STAGE 0), every register at the Reset column of its
field map, every table empty. -/
def State.reset : State where
  regs := resetRegs
  time := {}
  hbm := {}
  banks := []
  host := {}
  power := {}
  mgt := { roles := [(2, { key := zeros 32 }), (3, { key := zeros 32 })] }
  fuses := { factoryInstaller := zeros 32 }
  store := {}
  boot := {}
  pins := { rails := 2, powerGood := true }
  syn := {}
  clu := {}
  d2d := {}
  tile := {}
  wfn := {}
  coll := {}
  integ := {}
  trn := {}
  srl := [{}, {}, {}, {}]
  openCount := 0
  pending := []

end Sys2Proof.Machine
end

