-- ==== Sys2Proof/Machine/Ops.lean ====
section
/-! DEFINITION. The named operations over State: registers and counters, host memory, raw HBM bytes, partitions and
functions, log records, alarms, events and interrupts. -/
namespace Sys2Proof.Machine

/-! ### Registers and counters (R536, R590) -/

/-- Key of a register in the register file: function and BAR0 offset. -/
def regKey (f off : Nat) : Nat := f * 0x200000 + off

/-- The value of a register of function `f`. -/
def State.regF (s : State) (f off : Nat) : Word64 := cget 0 s.regs (regKey f off)

/-- The value of a register of the package, of a die, or of the physical function. -/
def State.reg (s : State) (off : Nat) : Word64 := cget 0 s.regs off

/-- Set a register of function `f`. -/
def State.setRegF (s : State) (f off : Nat) (v : Word64) : State :=
  { s with regs := cset 0 s.regs (regKey f off) v }

/-- Set a register of the package, of a die, or of the physical function. -/
def State.setReg (s : State) (off : Nat) (v : Word64) : State := { s with regs := cset 0 s.regs off v }

/-- Set a register to a number, modulo 2^64. -/
def State.setRegN (s : State) (off v : Nat) : State := s.setReg off (BitVec.ofNat 64 v)

/-- Field [hi:lo] of a register. -/
def State.rfld (s : State) (off hi lo : Nat) : Nat := fld (s.reg off) hi lo

/-- Set field [hi:lo] of a register. -/
def State.setRfld (s : State) (off hi lo v : Nat) : State := s.setReg off (setFld (s.reg off) hi lo v)

/-- Add `n` to the counter with register key `key`, with WRAPPED and OVERFLOW (R536). -/
def bumpKey (key n : Nat) (s : State) : State :=
  let old := (cget 0 s.regs key).toNat
  let s1 := { s with regs := cset 0 s.regs key (BitVec.ofNat 64 (old + n)) }
  if old + n < two64 then s1
  else
    let b := cget 0 s.mgt.ctrBits key
    { s1 with mgt := { s1.mgt with ctrBits := cset 0 s.mgt.ctrBits key (if b % 2 = 1 then 3 else 1) } }

/-- Add `n` to a counter of the package, a die or the physical function. -/
def bump (off n : Nat) (s : State) : State := bumpKey off n s

/-- Add `n` to a counter of function `f`. -/
def bumpF (f off n : Nat) (s : State) : State := bumpKey (regKey f off) n s

/-- Zero a counter with its WRAPPED and OVERFLOW bits. -/
def zeroCtr (key : Nat) (s : State) : State :=
  { s with regs := cset 0 s.regs key 0, mgt := { s.mgt with ctrBits := cset 0 s.mgt.ctrBits key 0 } }

/-- Work counted by a source of the programmable counters of die `d`, against a partition (R539). -/
def pmcCount (d event : Nat) (part : Option Nat) (n : Nat) (s : State) : State :=
  (List.range 8).foldl (fun s k =>
    let sel := cget 0 s.mgt.pmcSel (d * 8 + k)
    if sel % 256 = event ∧ (!bitOf sel 14 || part == some (bitsOf sel 13 8)) = true then bump (ZG_PMC_CNT d k) n s else s) s

/-- Draw a fresh free value (log entry 4). -/
def State.draw (s : State) : Nat × State := (Config.freeValue s.openCount, { s with openCount := s.openCount + 1 })

/-! ### Time -/

/-- The hub timebase. -/
def State.now (s : State) : Nat := s.time.now

/-- The timestamp replica of die `d` (R33). -/
def State.replicaOf (s : State) (d : Nat) : Nat := s.time.replica.getD d 0

/-! ### Host memory and raw HBM -/

/-- Key of a byte of host memory: function and I/O virtual address. -/
def hostKey (f a : Nat) : Nat := f * two64 + a % two64

/-- `n` bytes of host memory of function `f` from address `a`. -/
def State.hostRead (s : State) (f a n : Nat) : List Byte := cgetList 0 s.host.mem (hostKey f a) n

/-- Write bytes to host memory of function `f` from address `a`. -/
def State.hostWrite (s : State) (f a : Nat) (bs : List Byte) : State :=
  { s with host := { s.host with mem := csetList 0 s.host.mem (hostKey f a) bs } }

/-- `n` bytes of HBM from physical address `pa`, as they stand in the stacks. -/
def State.hbmBytes (s : State) (pa n : Nat) : List Byte := cgetList 0 s.hbm.bytes pa n

/-- Write bytes of HBM from physical address `pa`; the package's own writes to the reserved gigabytes (R190). -/
def State.hbmPut (s : State) (pa : Nat) (bs : List Byte) : State :=
  { s with hbm := { s.hbm with bytes := csetList 0 s.hbm.bytes pa bs } }

/-- Physical address of the reserved gigabyte of die `d` (R190). -/
def reservedBase (d : Nat) : Nat := d * 0x4000000000 + 0x3FC0000000

/-- Physical address of the management area of die `d` (R190). -/
def mgmtBase (d : Nat) : Nat := reservedBase d + 0xA000000

/-- The two copies of a record kept with a mirror: write both. -/
def State.hbmPut2 (s : State) (pa mirror : Nat) (bs : List Byte) : State := (s.hbmPut pa bs).hbmPut mirror bs

/-! ### Partitions, functions, queues -/

/-- Partition `p` (R276). -/
def State.part (s : State) (p : Nat) : Partition := cget {} s.host.parts p

/-- Function `f` (R250). -/
def State.fn (s : State) (f : Nat) : Fn := cget {} s.host.fns f

/-- Replace function `f`. -/
def State.setFn (s : State) (f : Nat) (x : Fn) : State :=
  { s with host := { s.host with fns := cset {} s.host.fns f x } }

/-- Queue `q`; 65,536 + f is the admin queue of function f (R273). -/
def State.queue (s : State) (q : Nat) : Queue := cget {} s.host.queues q

/-- Replace queue `q`. -/
def State.setQueue (s : State) (q : Nat) (x : Queue) : State :=
  { s with host := { s.host with queues := cset {} s.host.queues q x } }

/-- Whether `q` is an admin queue. -/
def isAdmin (q : Nat) : Bool := decide (65536 ≤ q)

/-- The QUEUE field of a record: a queue's number, 0xFFFF for an admin queue (R269; log entry 24). -/
def queueField (q : Nat) : Nat := if isAdmin q then 65535 else q

/-- The function that owns queue `q`: an admin queue's own function, or the virtual function of the queue's partition
(R248). -/
def State.queueFn (s : State) (q : Nat) : Nat := if isAdmin q then q - 65536 else (s.queue q).part + 1

/-- The partitions that exist. -/
def State.partsNow (s : State) : List Nat := (List.range 64).filter (fun p => (s.part p).present)

/-! ### Interrupts (R267) -/

/-- State of MSI-X vector `v` of function `f`. -/
def State.vector (s : State) (f v : Nat) : Vector := cget {} s.host.vectors (f * 2048 + v)

/-- Replace the state of a vector. -/
def State.setVector (s : State) (f v : Nat) (x : Vector) : State :=
  { s with host := { s.host with vectors := cset {} s.host.vectors (f * 2048 + v) x } }

/-- Send an interrupt of a vector now. -/
def sendInterrupt (f v : Nat) (s : State) : State :=
  let s := s.setVector f v { s.vector f v with sentAt := s.now, sentOnce := true, held := false }
  { s with host := { s.host with interrupts := s.host.interrupts ++ [(f, v)] } }

/-- An interrupt falls due on a vector: it is sent at once when none of the vector was sent within the holdoff,
otherwise held and merged (R267). -/
def interruptDue (f v holdoffUs : Nat) (s : State) : State :=
  let x := s.vector f v
  if x.held then s
  else if x.sentOnce && decide (s.now < x.sentAt + holdoffUs * 1000) then
    s.setVector f v { x with held := true, holdoff := holdoffUs }
  else sendInterrupt f v s

/-! ### Log records (R542, R543) -/

/-- The bytes of a log record without LSEQ. -/
structure LogRec where
  cls : Nat := 0
  code : Nat := 0
  source : Nat := 4
  kind : Nat := 0
  queue : Nat := 65535
  part : Option Nat := none
  severity : Nat := 0
  data0 : Nat := 0
  data1 : Nat := 0
  detail : List Byte := []
  deriving DecidableEq, Repr

/-- The PART byte of a log or alarm record: [7] valid, [5:0] partition. -/
def partByte (p : Option Nat) : Nat :=
  match p with
  | some n => 128 + n % 64
  | none => 0

/-- A record with its 16-bit CHECK over the bytes before it. -/
def withCheck (bs : List Byte) : List Byte := bs ++ natLE 2 (check16 bs)

/-- The 64 bytes of a log record (R542). -/
def logBytes (lseq now : Nat) (r : LogRec) : List Byte :=
  withCheck (natLE 8 lseq ++ natLE 8 now ++ natLE 1 r.cls ++ natLE 1 r.code ++ natLE 1 r.source ++ natLE 1 r.kind
    ++ natLE 2 r.queue ++ natLE 1 (partByte r.part) ++ natLE 1 r.severity ++ natLE 8 r.data0 ++ natLE 8 r.data1
    ++ (r.detail ++ zeros 22).take 22)

/-! ### Event records (R269, R270, R306) -/

/-- An event as its chapter raises it. -/
structure Ev where
  cls : Nat
  code : Nat
  /-- Die 0 to 3, or 4 for HD. -/
  src : Nat := 4
  queue : Nat := 65535
  part : Option Nat := none
  data : Nat := 0
  /-- Alarm severity: 0 none, 1 warning, 2 error, 3 critical (R545). -/
  alarm : Nat := 0
  /-- Also written to the log ring. -/
  log : Bool := true
  /-- A copy goes to the PF ring. -/
  pfCopy : Bool := false
  deriving DecidableEq, Repr

/-- The 32 bytes of an event record (R269). -/
def eventBytes (seq now : Nat) (e : Ev) (source : Nat) : List Byte :=
  withCheck (natLE 8 seq ++ natLE 8 now ++ natLE 1 e.cls ++ natLE 1 e.code ++ natLE 1 source ++ [0] ++ natLE 2 e.queue)
    ++ natLE 8 e.data

/-- Page-table entries are held by partition, bank, level and the VA bits that index them (R193). -/
def ptKey (part bank level idx : Nat) : Nat := ((part * 2 + bank) * 4 + level) * 0x100000000 + idx

/-- The raw level-`level` entry. -/
def State.ptEntry (s : State) (part bank level idx : Nat) : Nat := cget 0 s.hbm.pt (ptKey part bank level idx)

/-- Frame-table byte address of frame `f` of die `d` (R190, R191). -/
def frameAddr (d f : Nat) : Nat := reservedBase d + 0x1000000 + f

/-- The frame-table byte of the frame that holds a physical address: 0x40 for a reserved frame (R191). -/
def State.frameByte (s : State) (pa : Nat) : Nat :=
  let d := pa / 0x4000000000
  let f := pa % 0x4000000000 / 0x200000
  if 130560 ≤ f then 0x40 else (cget 0 s.hbm.bytes (frameAddr d f)).toNat

/-- Set a frame-table byte, in the table and its mirror (R190). -/
def State.setFrameByte (s : State) (d f v : Nat) : State :=
  s.hbmPut2 (frameAddr d f) (frameAddr d f + 0x800000) [BitVec.ofNat 8 v]

/-- What a walk of the page tables gives (R196). -/
inductive Walk where
  /-- A translation: the physical address, and W of the leaf. -/
  | ok (pa : Nat) (w : Bool)
  /-- No translation. -/
  | page
  deriving DecidableEq, Repr

/-- The leaf's frame must have ASSIGNED = 1 and PART equal to the walking partition (R196). -/
def walkFrame (s : State) (part pa : Nat) (w : Bool) : Walk :=
  let fb := s.frameByte pa
  if fb / 128 = 1 ∧ fb % 64 = part then .ok pa w else .page

/-- The leaf that the walk of R193 and R194 reaches through bank `bank` of the partition's page tables. -/
def walkLeaf (s : State) (part bank va : Nat) : Walk :=
  if 0x20000000000 ≤ va then .page
  else
    let e1 := s.ptEntry part bank 1 (va / 0x40000000)
    if e1 % 2 = 0 ∨ bitsOf e1 63 40 ≠ 0 ∨ bitsOf e1 11 1 ≠ 0 then .page
    else
      let e2 := s.ptEntry part bank 2 (va / 0x200000)
      if e2 % 2 = 0 ∨ bitsOf e2 63 40 ≠ 0 ∨ bitsOf e2 7 3 ≠ 0 then .page
      else if bitOf e2 1 then
        if bitsOf e2 20 8 ≠ 0 then .page
        else .ok (bitsOf e2 39 21 * 0x200000 + va % 0x200000) (bitOf e2 2)
      else
        let e3 := s.ptEntry part bank 3 (va / 0x10000)
        if e3 % 2 = 0 ∨ bitsOf e3 63 40 ≠ 0 ∨ bitsOf e3 15 3 ≠ 0 ∨ bitOf e3 1 then .page
        else .ok (bitsOf e3 39 16 * 0x10000 + va % 0x10000) (bitOf e3 2)

/-- The walk of R193, R194 and R196 through bank `bank` of the partition's page tables. -/
def walk (s : State) (part bank va : Nat) : Walk :=
  match walkLeaf s part bank va with
  | .ok pa w => walkFrame s part pa w
  | .page => .page

/-- Banked state of a partition's page tables (R198). -/
def State.ptState (s : State) (part : Nat) : Banked := cget {} s.banks part

/-- Byte of the presence map that holds a granule's bit (R213). -/
def presenceAddr (pa : Nat) : Nat := reservedBase (pa / 0x4000000000) + pa % 0x4000000000 / 0x8000

/-- Whether the 4 KiB granule of a physical address has been written (R213); reserved frames are exempt. -/
def State.present (s : State) (pa : Nat) : Bool :=
  if 0x3FC0000000 ≤ pa % 0x4000000000 then true
  else bitOf (cget 0 s.hbm.bytes (presenceAddr pa)).toNat (pa / 0x1000 % 8)

/-- The stack, 0 to 15, that holds a physical address (R188, R189). -/
def stackOf (pa : Nat) : Nat := pa / 0x4000000000 % 4 * 4 + Nat.xor (bitsOf pa 9 8) (bitsOf pa 24 23)

/-- How the records of an event ring are written: function, die that writes, location bit, address and bytes; none while the
write has to wait. -/
abbrev RingWriter := Nat → Nat → Bool → Nat → List Byte → State → Option State

/-- Rings in host memory (R252). The ring of the physical function always lies there (log entry 7). -/
def hostWriter : RingWriter := fun f _ hbm a bs s => some (if hbm then s else s.hostWrite f a bs)

/-- Whether event sequence `e` has room in the ring (R270). -/
def Fn.room (x : Fn) (e : Nat) : Bool := x.evSet && decide (e ≤ x.evConsumed + 2 ^ x.evLog2)

/-- An event takes its EVT_SEQ on ring `f` and is written, held while Bus Master Enable is 0 or its ring's stack is stopped, or
lost (R220, R250, R270). -/
def assignBy (put : RingWriter) (f : Nat) (e : Ev) (source : Nat) (s : State) : State :=
  let x := s.fn f
  let seq := x.evAssigned + 1
  let x := { x with evAssigned := seq }
  if x.room seq then
    let rec_ := eventBytes seq s.now e source
    let held := s.setFn f { x with evHeld := x.evHeld ++ [rec_] }
    if x.bme && x.evHeld.isEmpty then
      match put f (min 3 (source % 8)) x.evHbm (x.evBase + seq % 2 ^ x.evLog2 * 32) rec_ (s.setFn f { x with evWritten := seq }) with
      | some s => sendInterrupt f x.evVec s
      | none => held
    else held
  else s.setFn f { x with evLost := x.evLost + 1 }

/-- Room has returned to ring `f`: event 0x01.0x08 counts the lost events before any later event (R270). -/
def announceBy (put : RingWriter) (f : Nat) (s : State) : State :=
  let x := s.fn f
  if x.evLost = 0 || !x.room (x.evAssigned + 1) then s
  else assignBy put f { cls := 1, code := 8, data := x.evLost } 4 (s.setFn f { x with evLost := 0 })

/-- Whether two events have the same key (R306). -/
def Coalesce.sameKey (c : Coalesce) (f : Nat) (e : Ev) : Bool :=
  c.ring == f && c.cls == e.cls && c.code == e.code && c.die == e.src && c.queue == e.queue && c.data == e.data

/-- An event to ring `f` under the coalescing of R306. -/
def postBy (put : RingWriter) (f : Nat) (e : Ev) (s : State) : State :=
  let old := s.host.coalesce.find? (fun c => c.sameKey f e)
  let others := s.host.coalesce.filter (fun c => !c.sameKey f e)
  let base := e.src + (if e.alarm = 0 then 0 else 16)
  match old with
  | some c =>
    if s.now < c.writtenAt + 100000 then
      { s with host := { s.host with coalesce := others ++ [{ c with suppressed := true }] } }
    else
      let wrote := (s.fn f).room ((s.fn f).evAssigned + 1)
      let s := assignBy put f e (base + if c.suppressed then 8 else 0) (announceBy put f s)
      if wrote then
        { s with host := { s.host with coalesce := others ++ [{ c with writtenAt := s.now, suppressed := false }] } }
      else s
  | none =>
    let wrote := (s.fn f).room ((s.fn f).evAssigned + 1)
    let s := assignBy put f e base (announceBy put f s)
    if wrote then
      { s with host := { s.host with coalesce :=
          others ++ [⟨f, e.cls, e.code, e.src, e.queue, e.data, s.now, false⟩] } }
    else s

/-! ### The log engine (R543) -/

/-- Whether the log engine has room for a record, and for the message of a loss that precedes it (R531, R543). -/
def State.logRoom (s : State) : Bool := decide (s.mgt.logFifo.length + (if s.mgt.logLoss = 0 then 1 else 2) ≤ 4096)

/-- A record reaches the log engine: it takes the next LSEQ and enters the FIFO of 4,096 records, or is counted as lost;
the next record that finds room after a loss is preceded by firmware message 0x0E.0x07, which the PF ring has too (R531, R543,
R566). -/
def pushLog (r : LogRec) (s : State) : State :=
  let head := (s.reg ZG_MGT_LOG_HEAD).toNat
  if !s.logRoom then
    let s := bump ZG_MGT_LOG_LOST 1 (s.setRegN ZG_MGT_LOG_HEAD (head + 1))
    { s with mgt := { s.mgt with logLoss := s.mgt.logLoss + 1 } }
  else if s.mgt.logLoss = 0 then
    let s := s.setRegN ZG_MGT_LOG_HEAD (head + 1)
    { s with mgt := { s.mgt with logFifo := s.mgt.logFifo ++ [logBytes (head + 1) s.now r] } }
  else
    let lost := s.mgt.logLoss
    let m : LogRec := { cls := 0x0E, code := 7, kind := 3, severity := 1, data0 := lost }
    let s := s.setRegN ZG_MGT_LOG_HEAD (head + 2)
    postBy hostWriter 0 { cls := 0x0E, code := 7, data := lost % 4294967296 } { s with mgt := { s.mgt with
      logFifo := s.mgt.logFifo ++ [logBytes (head + 1) s.now m, logBytes (head + 2) s.now r], logLoss := 0 } }

/-! ### Alarms (R545 to R547) -/

/-- Slot number of an alarm key (R545, R560). -/
def alarmSlot (cls code src : Nat) : Nat := ((cls - 1) * 256 + code) * 5 + src

/-- An alarm slot. -/
def State.alarm (s : State) (slot : Nat) : Alarm := cget {} s.mgt.alarms slot

/-- Replace an alarm slot. -/
def State.setAlarm (s : State) (slot : Nat) (a : Alarm) : State :=
  { s with mgt := { s.mgt with alarms := cset {} s.mgt.alarms slot a } }

/-- ACTIVE alarms of a severity. -/
def State.activeAlarms (s : State) (sev : Nat) : Nat :=
  (s.mgt.alarms.filter (fun p => p.2.active && p.2.severity == sev)).length

/-- Whether the package has come past step 10 of bring-up with RESET_N high and good power, so that ALERT_N follows the
alarms (R617). -/
def State.alertLive (s : State) : Bool :=
  let stage := s.rfld ZG_BOOT_STATE 7 0
  s.pins.resetN && s.pins.powerGood && (decide (6 ≤ stage) && stage != 11 || s.rfld ZG_MGT_STATE 2 0 != 0)

/-- ZG_MGT_ALARMS and ALERT_N follow the alarm table (R547, R617). -/
def refreshAlert (s : State) : State :=
  let sat := fun n => min n 65535
  let s := s.setRegN ZG_MGT_ALARMS
    (sat (s.activeAlarms 3) * 4294967296 + sat (s.activeAlarms 2) * 65536 + sat (s.activeAlarms 1))
  let lvl := s.rfld ZG_MGT_ALERT 1 0
  let low := s.alertLive && lvl != 0 && s.mgt.alarms.any (fun p => p.2.active && decide (lvl ≤ p.2.severity))
  { s with pins := { s.pins with alertN := !low } }

/-- Request an in-band interrupt for an alarm that became ACTIVE (R562). -/
def requestIbi (sev : Nat) (s : State) : State :=
  let lvl := s.rfld ZG_MGT_ALERT 3 2
  if s.mgt.sbIbiEn && lvl != 0 && decide (lvl ≤ sev) && !s.mgt.ibiWaiting then
    { s with mgt := { s.mgt with ibiWaiting := true, ibis := s.mgt.ibis ++ [sev] } }
  else s

/-- The notice of an alarm: a log record of KIND 2 and the record of the occurrence in the PF event ring; while the log engine has no
room for it, the slot keeps NOTIFY_PENDING, so that no notice is dropped (R546; log entry 74). -/
def noticeBy (put : RingWriter) (e : Ev) (count : Nat) (coalesced : Bool) (s : State) : State :=
  let slot := alarmSlot e.cls e.code e.src
  if !s.logRoom then s.setAlarm slot { s.alarm slot with pending := some coalesced }
  else
  let s := pushLog { cls := e.cls, code := e.code, kind := 2, queue := e.queue, part := e.part, severity := e.alarm,
                     source := e.src + 16 + (if coalesced then 8 else 0), data0 := e.data, data1 := count } s
  assignBy put 0 e (e.src + 16 + if coalesced then 8 else 0) (announceBy put 0 s)

/-- An occurrence of an alarm: one that is not ACTIVE becomes so and queues a notice; one of an ACTIVE alarm only counts
(R546). -/
def occurBy (put : RingWriter) (e : Ev) (s : State) : State :=
  let slot := alarmSlot e.cls e.code e.src
  let a := s.alarm slot
  if a.active then
    s.setAlarm slot { a with count := min (a.count + 1) 4294967295, lastNs := s.now, data := e.data, queue := e.queue,
                             part := partByte e.part, since := a.since + 1 }
  else
    let s := s.setAlarm slot { a with active := true, everUsed := true, firstNs := s.now, lastNs := s.now, count := 1,
                                      severity := e.alarm, data := e.data, queue := e.queue, part := partByte e.part,
                                      noticeAt := s.now, since := 0 }
    requestIbi e.alarm (refreshAlert (noticeBy put e 1 false s))

/-- An event as its chapter raises it: to the ring of its partition, or to the PF ring; one with ALARM set reaches the PF
ring as its alarm's notice (R270); one marked so is also written to the log ring. -/
def raiseBy (put : RingWriter) (e : Ev) (s : State) : State :=
  let s := if e.log then pushLog { cls := e.cls, code := e.code, source := e.src, queue := e.queue, part := e.part,
                                   severity := e.alarm, data0 := e.data } s else s
  let s := match e.part with
    | some p => postBy put (p + 1) e s
    | none => s
  if e.alarm ≠ 0 then occurBy put e s
  else if e.part.isNone || e.pfCopy then postBy put 0 e s else s

/-- An event of no partition: to the PF ring, or as its alarm's notice (R270). -/
def raisePf (e : Ev) (s : State) : State := raiseBy hostWriter e s

/-- A register record of the log ring, KIND 1 (R542). -/
def logRegister (cls code src last lastNs : Nat) (s : State) : State :=
  pushLog { cls := cls, code := code, source := src, kind := 1, data0 := last, data1 := lastNs } s

end Sys2Proof.Machine
end

