-- ==== Sys2Proof/Machine/Clock.lean ====
section
/-! DEFINITION. What time does while no command waits (02_clockless_timing.md R33, R34; log entry 5). -/
namespace Sys2Proof.Machine

/-- A replica counts one nanosecond and stays within 4 ns of the timebase `now` (R33). -/
def replicaTick (now r : Nat) : Nat := max (now - 4) (min (now + 4) (r + 1))

/-- One nanosecond of REFCLK passes: a running timebase advances by one, plus or minus what SLEW_PPM has accumulated to a whole
nanosecond (R33, R34, R36); the replicas count on, each within 4 ns of the timebase (R33). -/
def tick (s : State) : State :=
  if s.rfld ZG_TIME_STATUS 0 0 = 0 then s
  else
    let acc := s.time.slewRem + sext 16 (s.rfld ZG_TIME_STATUS 31 16)
    let now := (Int.ofNat s.time.now + 1 + acc / 1000000).toNat
    { s with time := { s.time with now := now, slewRem := acc % 1000000, replica := s.time.replica.map (replicaTick now) } }

end Sys2Proof.Machine
end

