-- ==== Sys2Proof/Machine/BankOps.lean ====
section
/-! DEFINITION. Banked tables: bind, release, flip, shadow writes (R171 to R177). -/
namespace Sys2Proof.Machine

/-! ### Dispatched commands -/

/-- The dispatched command with sequence `seq` of queue `q` that has not ended. -/
def State.flight (s : State) (q seq : Nat) : Option Flight :=
  (s.queue q).flights.find? (fun f => f.seq == seq && f.ended.isNone && f.heldEnd.isNone)

/-- Apply `g` to the dispatched command `seq` of queue `q`. -/
def State.updFlight (s : State) (q seq : Nat) (g : Flight → Flight) : State :=
  let x := s.queue q
  s.setQueue q { x with flights := x.flights.map (fun f => if f.seq == seq then g f else f) }

/-- Table number of the page tables of a partition (R198). -/
def ptTable (part : Nat) : Nat := part

/-- Table number of a Teasel slot (R171): die, cluster, slot. -/
def slotTable (d c k : Nat) : Nat := 0x1000 + (d * 64 + c) * 16 + k

/-- Table number of the member list of a group (R316). -/
def memberTable (g : Nat) : Nat := 0x10000 + g

/-- Table number of the route table (R383). -/
def routeTable : Nat := 0x20000

/-- The banked state of a table. -/
def State.bank (s : State) (t : Nat) : Banked := cget {} s.banks t

/-- Replace the banked state of a table. -/
def State.setBank (s : State) (t : Nat) (b : Banked) : State := { s with banks := cset {} s.banks t b }

/-- Readers bound to a bank. -/
def Banked.readers (b : Banked) (k : Nat) : Nat := if k = 0 then b.readers0 else b.readers1

/-- The shadow bank. -/
def Banked.shadow (b : Banked) : Nat := 1 - b.active

/-- One more reader of the active bank (R172). -/
def Banked.bind (b : Banked) : Banked :=
  if b.active = 0 then { b with readers0 := b.readers0 + 1 } else { b with readers1 := b.readers1 + 1 }

/-- One reader fewer of a bank (R172). -/
def Banked.release (b : Banked) (k : Nat) : Banked :=
  if k = 0 then { b with readers0 := b.readers0 - 1 } else { b with readers1 := b.readers1 - 1 }

/-- Whether a shadow write waits (R173). -/
def Banked.writeBlocked (b : Banked) : Bool := b.readers b.shadow != 0 || b.copyPending

/-- The flip step (R174, R175). -/
def Banked.flip (b : Banked) (copyBack : Bool) : Banked :=
  { b with active := 1 - b.active, epoch := (b.epoch + 1) % 4294967296, copyPending := copyBack }

/-- A command binds the active bank of a table (R172). -/
def bindTable (q seq t : Nat) (s : State) : State :=
  let b := s.bank t
  (s.setBank t b.bind).updFlight q seq (fun f => { f with binds := f.binds ++ [(t, b.active, b.epoch)] })

/-- The bank of a table a command bound; bank 0 of a table it did not bind. -/
def Flight.bankOf (f : Flight) (t : Nat) : Nat := ((f.binds.find? (fun p => p.1 == t)).map (·.2.1)).getD 0

/-- The epoch of a table a command bound; 0 for a table it did not bind. -/
def Flight.epochOf (f : Flight) (t : Nat) : Nat := ((f.binds.find? (fun p => p.1 == t)).map (·.2.2)).getD 0

/-- A command's banks are released (R172). -/
def releaseBanks : List (Nat × Nat × Nat) → State → State
  | [], s => s
  | (t, k, _) :: bs, s => releaseBanks bs (s.setBank t ((s.bank t).release k))

end Sys2Proof.Machine
end

