-- ==== Sys2Proof/Machine/HbmCore.lean ====
section
/-! DEFINITION. HBM below the commands: address map, error records, the symbol code, the presence map, translation, reads and writes
by physical and by virtual address (R188 to R219), and the health record. -/
namespace Sys2Proof.Machine

/-! ### Address map (R188, R189) -/

/-- The pseudo-channel of a physical address (R189). -/
def pcOf (pa : Nat) : Nat := Nat.xor (bitsOf pa 15 10) (bitsOf pa 21 16)

/-- The block location within a pseudo-channel (R189). -/
def locOf (pa : Nat) : Nat := bitsOf pa 37 16 * 4 + bitsOf pa 7 6

/-- The die that holds a physical address (R188). -/
def dieOf (pa : Nat) : Nat := pa / 0x4000000000 % 4

/-- The frame of a physical address, as die × 131,072 + frame (R191). -/
def frameNo (pa : Nat) : Nat := pa / 0x200000

/-- Whether a frame is one of a die's reserved gigabyte (R190, R191). -/
def reservedFrame (g : Nat) : Bool := decide (130560 ≤ g % 131072)

/-- What the controller keeps for a stack. -/
def State.stack (s : State) (m : Nat) : Stack := cget {} s.hbm.stackSt m

/-- Replace what the controller keeps for a stack. -/
def State.setStack (s : State) (m : Nat) (x : Stack) : State :=
  { s with hbm := { s.hbm with stackSt := cset {} s.hbm.stackSt m x } }

/-- ZG_HBM_STACKk of stack `m` of the package. -/
def stackReg (m : Nat) : Nat := ZG_HBM_STACK (m / 4) (m % 4)

/-! ### The health record (R541, R568, R570) -/

/-- Add an entry to the health record: both HBM copies, and the store unless it holds 16,384 entries (R568, R570). -/
def addHealth (e : HealthEntry) (s : State) : State :=
  let s := if e ∈ s.boot.health then s else { s with boot := { s.boot with health := s.boot.health ++ [e] } }
  if e ∈ s.store.health then s
  else if s.store.health.length < 16384 then { s with store := { s.store with health := s.store.health ++ [e] } }
  else
    let s := { s with boot := { s.boot with refused := s.boot.refused + 1 } }
    raisePf { cls := 0x0F, code := 9, data := s.boot.refused, alarm := 1 } s

/-! ### Error records (R208, R209) -/

/-- Alarm severity of an error record's event (R222). -/
def errSeverity (kind : Nat) : Nat := if kind = 2 ∨ kind = 3 then 2 else if kind = 5 ∨ kind = 7 then 3 else 0

/-- The 32 bytes of an error record (R208). -/
def errBytes (first last pa kind m pc nsym s0 s1 count seq : Nat) : List Byte :=
  natLE 8 first ++ natLE 8 last ++ natLE 5 (pa / 64 * 64) ++ natLE 1 kind ++ natLE 1 (m * 16 + nsym)
    ++ natLE 1 pc ++ natLE 1 s0 ++ natLE 1 s1 ++ natLE 2 count ++ natLE 4 seq

/-- Address of the error record with sequence `seq` of die `d` (R190, R208). -/
def errAddr (d seq : Nat) : Nat := reservedBase d + 0x1020000 + seq % 258048 * 32

/-- An HBM error of stack `m` and pseudo-channel `pc` is recorded on its die: a corrected error in the block of the newest record of its KIND
counts there, every other adds a record; some kinds raise event 0x05.0x02 (R209, R222). -/
def errRecordAt (kind pa m pc nsym s0 s1 : Nat) (s : State) : State :=
  let d := m / 4
  let last := cget (0, 0, 0) s.hbm.lastErr (d * 16 + kind)
  let head := s.rfld (ZG_HBM_ERR_HEAD d) 31 0
  if (kind = 0 ∨ kind = 1) ∧ last.2.2 ≠ 0 ∧ last.1 = pa / 64 ∧ head < last.2.1 + 258048 then
    let count := min (last.2.2 + 1) 65535
    let a := errAddr d last.2.1
    let s := { s with hbm := { s.hbm with lastErr := cset (0, 0, 0) s.hbm.lastErr (d * 16 + kind) (pa / 64, last.2.1, count) } }
    (s.hbmPut2 (a + 8) (a + 0x800008) (natLE 8 s.now)).hbmPut2 (a + 0x1A) (a + 0x80001A) (natLE 2 count)
  else
    let seq := (head + 1) % 4294967296
    let a := errAddr d seq
    let s := s.setRfld (ZG_HBM_ERR_HEAD d) 31 0 seq
    let s := { s with hbm := { s.hbm with lastErr := cset (0, 0, 0) s.hbm.lastErr (d * 16 + kind) (pa / 64, seq, 1) } }
    let s := s.hbmPut2 a (a + 0x800000) (errBytes s.now s.now pa kind m pc nsym s0 s1 1 seq)
    if kind = 0 ∨ kind = 1 ∨ kind = 6 then s
    else raisePf { cls := 5, code := 2, src := d, alarm := errSeverity kind, log := false,
                      data := seq + m * 4294967296 + kind * 0x1000000000 + pc * 0x100000000000 } s

/-- An HBM error of the block at a physical address is recorded. -/
def errRecord (kind pa nsym s0 s1 : Nat) (s : State) : State :=
  errRecordAt kind pa (stackOf pa) (pcOf pa) nsym s0 s1 s

/-- A frame is marked for retirement in the health record, with the row of the block `pa` that failed; a reserved frame never
changes (R191, R212). -/
def markRetire (g pa : Nat) (s : State) : State :=
  if reservedFrame g then s else addHealth ⟨3, g / 131072, g % 131072, Config.rowOf (pa / 64)⟩ s

/-- A corrected error counts against its row; a row that has reached CE_REPAIR and is not listed yet is listed for repair
(R210). -/
def countRow (pa : Nat) (s : State) : State :=
  let row := Config.rowOf (pa / 64)
  let n := cget 0 s.hbm.rowCe row + 1
  let s := { s with hbm := { s.hbm with rowCe := cset 0 s.hbm.rowCe row n } }
  let lim := s.rfld (ZG_HBM_SCRUB (dieOf pa)) 31 24
  let m := stackOf pa
  if lim ≠ 0 ∧ lim ≤ n ∧ ⟨5, dieOf pa, m, row⟩ ∉ s.boot.health then
    let s := s.setRfld (stackReg m) 25 16 (s.rfld (stackReg m) 25 16 + 1)
    errRecord 8 pa 0 255 255 (addHealth ⟨5, dieOf pa, m, row⟩ s)
  else s

/-- A block is corrected on a read (`kind` 0) or by the scrubber (`kind` 1): counted, recorded, and to be written back
(R205, R207). -/
def correctBlock (kind pa : Nat) (fix : List (Nat × Nat)) (s : State) : State :=
  let m := stackOf pa
  let s := bump (ZG_HBM_CE (m / 4) (m % 4)) 1 s
  let x := s.stack m
  let s := s.setStack m { x with writeBacks := (x.writeBacks.filter (· ≠ pa / 64)) ++ [pa / 64] }
  let p := fix.map Prod.fst
  countRow pa (errRecord kind pa fix.length (p.getD 0 255) (p.getD 1 255) s)

/-- A block is found uncorrectable: counted, recorded, raised as an alarm, its frame marked for retirement (R205, R212). -/
def loseBlock (kind pa : Nat) (s : State) : State :=
  markRetire (frameNo pa) pa (errRecord kind pa 0 255 255 (bump (ZG_HBM_UE (dieOf pa)) 1 s))

/-- Data bytes with the wrong bits of an error pattern laid over them; positions 64 to 67 are check symbols. -/
def overlay (data : List Byte) (errs : List (Nat × Nat)) : List Byte :=
  (List.range data.length).map (fun j =>
    (data.getD j 0) ^^^ BitVec.ofNat 8 ((errs.filter (fun e => e.1 == j)).foldl (fun x e => Nat.xor x e.2) 0))

/-- Whether a die is cut off from the hub: its hub link is out of service (R10, R235). -/
def State.hubLost (s : State) (d : Nat) : Bool := s.rfld (ZG_D2D_PORT d 2) 52 51 == 3

/-! ### Blocks through the symbol code (R205, R206) -/

/-- The 64 bytes of a block as a read delivers them; none for an uncorrectable one (R205). -/
def readBlock (pa : Nat) (s : State) : Option (List Byte) × State :=
  let b := pa / 64
  let data := s.hbmBytes (b * 64) 64
  let errs := cget [] s.hbm.errs b
  if errs = [] then (some data, s)
  else match rsDecode errs with
    | .clean => (some (overlay data errs), s)
    | .corrected fix => (some (overlay data (rsAdd errs fix)), correctBlock 0 pa fix s)
    | .uncorrectable => (none, loseBlock 2 pa s)

/-- Bytes within one block are stored; a whole block has its own check symbols and drops a waiting write-back (R205, R206). -/
def blockStore (pa : Nat) (bs : List Byte) (s : State) : State :=
  let s := s.hbmPut pa bs
  let b := pa / 64
  if bs.length = 64 then
    let m := stackOf pa
    let x := s.stack m
    { s with hbm := { s.hbm with
        errs := cset [] s.hbm.errs b [],
        stackSt := cset {} s.hbm.stackSt m { x with writeBacks := x.writeBacks.filter (· ≠ b) } } }
  else s

/-- A write within one block: part of a block is merged into what a read of it gives; false where that read is uncorrectable, and
then the block is unchanged (R206). -/
def blockWrite (pa : Nat) (bs : List Byte) (s : State) : Bool × State :=
  if bs.length = 64 || cget [] s.hbm.errs (pa / 64) == [] then (true, blockStore pa bs s)
  else match readBlock pa s with
    | (some data, s) => (true, blockStore (pa / 64 * 64) (putAt data (pa % 64) bs) s)
    | (none, s) => (false, s)

/-- A read by physical address over `k` blocks at most (R188, R205). -/
def paReadN : Nat → Nat → Nat → State → Option (List Byte) × State
  | 0, _, _, s => (some [], s)
  | k + 1, pa, n, s =>
    if n = 0 then (some [], s)
    else
      let m := min n (64 - pa % 64)
      match readBlock pa s with
      | (none, s) => (none, s)
      | (some data, s) =>
        match paReadN k (pa + m) (n - m) s with
        | (none, s) => (none, s)
        | (some rest, s) => (some ((data.drop (pa % 64)).take m ++ rest), s)

/-- The package reads `n` bytes of its reserved HBM over the hub link of the stack's die; none where a block is uncorrectable or the
die is cut off (R10, R188, R190, R205, R235). -/
def paRead (pa n : Nat) (s : State) : Option (List Byte) × State :=
  if s.hubLost (dieOf pa) then (none, s) else paReadN (n / 64 + 2) pa n s

/-- The package writes its reserved HBM, over `k` blocks at most; a block whose part cannot be merged stays (R206). -/
def paWriteN : Nat → Nat → List Byte → State → State
  | 0, _, _, s => s
  | k + 1, pa, bs, s =>
    if bs = [] then s
    else
      let m := min bs.length (64 - pa % 64)
      paWriteN k (pa + m) (bs.drop m) (blockWrite pa (bs.take m) s).2

/-- The package writes its reserved HBM over the hub link of the stack's die; nothing reaches a die that is cut off (R10, R235). -/
def paWrite (pa : Nat) (bs : List Byte) (s : State) : State :=
  if s.hubLost (dieOf pa) then s else paWriteN (bs.length / 64 + 2) pa bs s

/-! ### Lines with a mirror (R190, R219) -/

/-- Distance from a line to its mirror. -/
def mirrorGap : Nat := 0x800000

/-- A line of the presence map or the frame table is read from its primary copy, or from the mirror where that is uncorrectable:
the primary is then rewritten and a record of kind 4 written. False where both are (R219). -/
def mirroredLine (a : Nat) (s : State) : Bool × State :=
  match rsDecode (cget [] s.hbm.errs (a / 64)) with
  | .clean => (true, s)
  | .corrected fix => (true, correctBlock 0 a fix s)
  | .uncorrectable =>
    let m := a + mirrorGap
    let s := bump (ZG_HBM_UE (dieOf a)) 1 s
    let repair := fun (s : State) => errRecord 4 a 0 255 255 (blockStore (a / 64 * 64) (s.hbmBytes (m / 64 * 64) 64) s)
    match rsDecode (cget [] s.hbm.errs (m / 64)) with
    | .clean => (true, repair s)
    | .corrected fix => (true, repair (correctBlock 0 m fix s))
    | .uncorrectable => (false, bump (ZG_HBM_UE (dieOf a)) 1 s)

/-- A line is lost in both copies: a record of kind 5 with its alarm, and its frames are marked for retirement (R219). -/
def loseLine (key a : Nat) (gs : List Nat) (s : State) : State :=
  if s.hbm.lostLines.contains key then s
  else gs.foldl (fun s g => markRetire g a s)
    (errRecord 5 a 0 255 255 { s with hbm := { s.hbm with lostLines := key :: s.hbm.lostLines } })

/-- The number under which `lostLines` holds the frame-table line of a frame. -/
def frameLineKey (g : Nat) : Nat := 0x100000 + g / 64

/-- The frame-table line of a frame is read; false where it is lost (R196, R219). -/
def frameLine (g : Nat) (s : State) : Bool × State :=
  if reservedFrame g then (true, s)
  else if s.hbm.lostLines.contains (frameLineKey g) then (false, s)
  else
    let a := frameAddr (g / 131072) (g % 131072)
    match mirroredLine a s with
    | (true, s) => (true, s)
    | (false, s) => (false, loseLine (frameLineKey g) a ((List.range 64).map (g / 64 * 64 + ·)) s)

/-! ### The presence map (R213 to R218) -/

/-- Address of the map line of a frame. -/
def mapLineAddr (g : Nat) : Nat := presenceAddr (g * 0x200000)

/-- Both copies in HBM take a line that leaves the hub cache. -/
def writeMapLine (g : Nat) (s : State) : State :=
  let a := mapLineAddr g
  let bs := s.hbmBytes a 64
  blockStore (a + mirrorGap) bs (blockStore a bs s)

/-- Lines of the hub cache beyond its 65,536 leave it, the oldest first; a changed one goes to both copies in HBM. -/
def trimCache (s : State) : State :=
  match s.hbm.mapCache with
  | (g, changed) :: rest =>
    if 65536 ≤ rest.length then
      let s := { s with hbm := { s.hbm with mapCache := rest } }
      if changed then writeMapLine g s else s
    else s
  | [] => s

/-- A line enters the buffer of its die; where that holds 1,024 others, the one it has held longest leaves it for the hub cache.
DESIGN CHOICE (log entry 64): which line leaves. -/
def holdLine (g : Nat) (changed : Bool) (s : State) : State :=
  let mine := s.hbm.mapBuf.filter (fun p => p.1 / 131072 == g / 131072)
  let s := { s with hbm := { s.hbm with mapCache := s.hbm.mapCache.filter (fun p => p.1 != g) } }
  match mine with
  | p :: rest =>
    if 1023 ≤ rest.length then
      trimCache { s with hbm := { s.hbm with mapBuf := s.hbm.mapBuf.filter (fun x => x.1 != p.1) ++ [(g, changed)],
                                             mapCache := s.hbm.mapCache ++ [p] } }
    else { s with hbm := { s.hbm with mapBuf := s.hbm.mapBuf ++ [(g, changed)] } }
  | [] => { s with hbm := { s.hbm with mapBuf := s.hbm.mapBuf ++ [(g, changed)] } }

/-- The map line of a frame is consulted: FULL and reserved frames need none, then the die's buffer, the hub cache and the copies
in HBM are tried in turn. False where the line is lost (R213, R218, R219; source 0x0B of R539). -/
def consultMap (g : Nat) (s : State) : Bool × State :=
  if reservedFrame g || s.hbm.full.contains g then (true, s)
  else if s.hbm.lostLines.contains g then (false, s)
  else if s.hbm.mapBuf.any (fun p => p.1 == g) then (true, s)
  else
    let s := pmcCount (g / 131072) 0x0B none 1 s
    match s.hbm.mapCache.find? (fun p => p.1 == g) with
    | some p => (true, holdLine g p.2 s)
    | none =>
      match mirroredLine (mapLineAddr g) s with
      | (true, s) => (true, holdLine g false s)
      | (false, s) => (false, loseLine g (mapLineAddr g) [g] s)

/-- The first write to a never-written granule: the granule reads as zeros and its bit is set; a line that has become all ones sets
FULL of its frame (R215, R218). -/
def materialise (pa : Nat) (s : State) : State :=
  if s.present pa then s
  else
    let g := pa / 0x1000 * 0x1000
    let a := presenceAddr pa
    let v := (cget 0 s.hbm.bytes a).toNat
    let fr := frameNo pa
    let s := { s with hbm := { s.hbm with
      bytes := cclear s.hbm.bytes g (g + 0x1000),
      errs := cclear s.hbm.errs (g / 64) (g / 64 + 64),
      mapBuf := s.hbm.mapBuf.map (fun (p : Nat × Bool) => if p.1 = fr then (fr, true) else p) } }
    let s := s.hbmPut2 a (a + mirrorGap) [BitVec.ofNat 8 (v + 2 ^ (pa / 0x1000 % 8))]
    if (s.hbmBytes (mapLineAddr fr) 64).all (· == 255) then { s with hbm := { s.hbm with full := s.hbm.full ++ [fr] } } else s

/-- The map line of a frame becomes zero in every place that holds it, and its FULL bit too (R192, R217 to R219). -/
def clearMapLine (g : Nat) (s : State) : State :=
  let a := mapLineAddr g
  let s := { s with hbm := { s.hbm with
    full := s.hbm.full.filter (· ≠ g), mapBuf := s.hbm.mapBuf.filter (fun p => p.1 != g),
    mapCache := s.hbm.mapCache.filter (fun p => p.1 != g), lostLines := s.hbm.lostLines.filter (· ≠ g) } }
  blockStore (a + mirrorGap) (zeros 64) (blockStore a (zeros 64) s)

/-! ### Access (R201) -/

/-- Who accesses: partition, page-table bank, command, issuing die, unit, and whether the partition runs in deterministic
or audit mode (R201, R216). -/
structure Req where
  part : Nat
  bank : Nat
  /-- EPOCH bound with the bank (R197). -/
  epoch : Nat
  queue : Nat
  seq : Nat
  die : Nat
  unit : Nat
  strict : Bool
  /-- A record of a ring (R252). -/
  ring : Bool := false
  deriving DecidableEq, Repr

/-- What an access answers: a value, a fault with its KIND of ZG_HBM_FAULT_LAST (8: the die of the stack has failed,
R583; 9: no route to it, R234) and address, or a wait at a stopped stack (R220). -/
inductive Acc (α : Type) where
  | ok (a : α) (s : State)
  | fault (kind va : Nat) (s : State)
  | wait (stack va : Nat) (s : State)

/-- One access after another: the first fault or wait ends the sequence. -/
def Acc.bind {α β : Type} (x : Acc α) (g : α → State → Acc β) : Acc β :=
  match x with
  | .ok a s => g a s
  | .fault k va s => .fault k va s
  | .wait m va s => .wait m va s

/-- Whether compute die `d` is FAILED in ZG_BOOT_DIES (R583). -/
def State.dieFailed (s : State) (d : Nat) : Bool := s.rfld ZG_BOOT_DIES (8 * d + 7) (8 * d + 5) == 5

/-- The next die round the ring CD0, CD1, CD3, CD2, CD0 (R9). -/
def nextDie (d : Nat) : Nat := if d = 0 then 1 else if d = 1 then 3 else if d = 3 then 2 else 0

/-- The previous die round the ring. -/
def prevDie (d : Nat) : Nat := if d = 1 then 0 else if d = 3 then 1 else if d = 2 then 3 else 2

/-- Whether the ring edge at port 0 of die `d` is out of service (R234). -/
def State.edgeOut (s : State) (d : Nat) : Bool := s.rfld (ZG_D2D_PORT d 0) 52 51 == 3

/-- Whether the way round the ring from one die to another, `n` edges at most, uses an edge out of service. -/
def State.wayOut (s : State) : Nat → Nat → Nat → Bool
  | 0, _, _ => false
  | n + 1, a, b => if a = b then false else s.edgeOut a || s.wayOut n (nextDie a) b

/-- Whether no route remains between two dies (R234). -/
def State.noRoute (s : State) (a b : Nat) : Bool := s.wayOut 4 a b && s.wayOut 4 b a

/-- The thermal hold of R220, the holds of a die reset, a coolant stop and a trip (R521, R523, R582) on a physical address: none, a fault kind, or a wait. -/
def holdOf (s : State) (pa : Nat) : Option (Option Nat) :=
  let m := stackOf pa
  if s.dieFailed (dieOf pa) then some (some 8)
  else if (s.stack m).selfRefresh || s.power.coolState != 0 || s.power.tripped then some none
  else if s.rfld (stackReg m) 39 38 = 3 then (if (s.stack m).aborting then some (some 7) else some none)
  else none

/-! ### Translation (R193 to R197) -/

/-- The lines of the page tables that a walk reads, as addresses of entries (R193, R195). -/
def walkReads (s : State) (part bank va : Nat) : List Nat :=
  let e1 := s.ptEntry part bank 1 (va / 0x40000000)
  let e2 := s.ptEntry part bank 2 (va / 0x200000)
  let a1 := cget 0 s.hbm.roots (part * 2 + bank) + va / 0x40000000 * 8
  if e1 % 2 = 0 ∨ bitsOf e1 63 40 ≠ 0 ∨ bitsOf e1 11 1 ≠ 0 then [a1]
  else
    let a2 := bitsOf e1 39 12 * 0x1000 + va / 0x200000 % 512 * 8
    if e2 % 2 = 0 ∨ bitsOf e2 63 40 ≠ 0 ∨ bitsOf e2 7 3 ≠ 0 ∨ bitOf e2 1 = true then [a1, a2]
    else [a1, a2, bitsOf e2 39 8 * 0x100 + va / 0x10000 % 32 * 8]

/-- Table lines are read in order; false at the first that is uncorrectable (R201, R205). -/
def readTables : List Nat → State → Bool × State
  | [], s => (true, s)
  | a :: as, s =>
    match readBlock a s with
    | (some _, s) => readTables as s
    | (none, s) => (false, s)

/-- Whether the translation cache of the requester's die holds an entry for a VA, of its partition and the epoch it bound
(R197). -/
def cached (rq : Req) (va : Nat) (s : State) : Bool :=
  (cget [] s.hbm.tlb rq.die).any (fun t =>
    t.part == rq.part && t.epoch == rq.epoch && t.page == (if t.small then va / 0x10000 else va / 0x200000))

/-- A translation enters the cache of 16,384 entries of the requester's die. DESIGN CHOICE (log entry 64): the entry it has held
longest leaves a full one. -/
def cacheWalk (rq : Req) (va : Nat) (s : State) : State :=
  let small := !bitOf (s.ptEntry rq.part rq.bank 2 (va / 0x200000)) 1
  let old := cget [] s.hbm.tlb rq.die
  let kept := if 16384 ≤ old.length then old.drop 1 else old
  let new : TlbTag := { part := rq.part, epoch := rq.epoch, small := small, page := if small then va / 0x10000 else va / 0x200000 }
  { s with hbm := { s.hbm with tlb := cset [] s.hbm.tlb rq.die (kept ++ [new]) } }

/-- A VA is looked up: in the die's cache, else by a walk, whose table lines and frame-table line must be readable
(R196, R197, R201, R219; source 0x0A of R539). -/
def lookUp (rq : Req) (va : Nat) (s : State) : Acc (Nat × Bool) :=
  let give := fun (w : Walk) (s : State) =>
    match w with
    | .ok pa w => Acc.ok (pa, w) s
    | .page => .fault 1 va s
  if 0x20000000000 ≤ va then .fault 1 va s
  else if cached rq va s then give (walk s rq.part rq.bank va) s
  else match readTables (walkReads s rq.part rq.bank va) (pmcCount rq.die 0x0A none 1 s) with
    | (false, s) => .fault 5 va s
    | (true, s) =>
      match walkLeaf s rq.part rq.bank va with
      | .page => .fault 1 va s
      | .ok pa w =>
        match frameLine (frameNo pa) s with
        | (false, s) => .fault 5 va s
        | (true, s) =>
          match walkFrame s rq.part pa w with
          | .ok pa w => .ok (pa, w) (cacheWalk rq va s)
          | .page => .fault 1 va s

/-! ### The order at a stack that was stopped (R220) -/

/-- Whether the request of a wait is still to be made: its command, or the stream it opened, is under way. -/
def liveWait (s : State) (w : StackWait) : Bool :=
  (s.flight w.queue w.seq).isSome || s.d2d.streams.any (fun x => x.queue == w.queue && x.seq == w.seq && x.failed.isNone)

/-- Whether a request may go to stack `m` before those that wait there: its command waits first, or was the last let through. -/
def admitted (rq : Req) (m : Nat) (s : State) : Bool :=
  rq.ring || match s.hbm.waits.find? (fun w => w.stack == m && liveWait s w) with
    | none => true
    | some w => (w.queue == rq.queue && w.seq == rq.seq) || (s.stack m).turn == some (rq.queue, rq.seq)

/-- A command whose turn has come no longer waits at a stack. -/
def enterStack (rq : Req) (m : Nat) (s : State) : State :=
  let own := fun (w : StackWait) => w.stack == m && w.queue == rq.queue && w.seq == rq.seq
  if s.hbm.waits.any own then
    let s := s.setStack m { s.stack m with turn := some (rq.queue, rq.seq) }
    { s with hbm := { s.hbm with waits := s.hbm.waits.filter (fun w => !own w) } }
  else s

/-! ### Accesses by virtual address (R201) -/

/-- Translation, permission, route and thermal hold, in the order of R201: the physical address, or what stops the access. -/
def translate (rq : Req) (va : Nat) (write : Bool) (s : State) : Acc Nat :=
  (lookUp rq va s).bind fun x s =>
    let pa := x.1
    if write && !x.2 then .fault 2 va s
    else if s.noRoute rq.die (dieOf pa) || rq.ring && s.hubLost (dieOf pa) then .fault 9 va s
    else match holdOf s pa with
      | some (some k) => .fault k va s
      | some none => .wait (stackOf pa) va s
      | none => if admitted rq (stackOf pa) s then .ok pa (enterStack rq (stackOf pa) s) else .wait (stackOf pa) va s

/-- Read `n` bytes within one 64-byte block at a virtual address (R201, R214, R216). -/
def vaReadPart (rq : Req) (va n : Nat) (s : State) : Acc (List Byte) :=
  (translate rq va false s).bind fun pa s =>
    match consultMap (frameNo pa) s with
    | (false, s) => .fault 6 va s
    | (true, s) =>
      if s.present pa then
        match readBlock pa (pmcCount rq.die 4 (some rq.part) 1 s) with
        | (some data, s) => .ok ((data.drop (pa % 64)).take n) s
        | (none, s) => .fault 4 va s
      else if rq.strict then .fault 3 va s
      else .ok (zeros n) ((bump (ZG_HBM_UNWR rq.die) 1 s).updFlight rq.queue rq.seq (fun f => { f with unwritten := true }))

/-- Write bytes within one 64-byte block at a virtual address (R206, R215). -/
def vaWritePart (rq : Req) (va : Nat) (bs : List Byte) (s : State) : Acc Unit :=
  (translate rq va true s).bind fun pa s =>
    match consultMap (frameNo pa) s with
    | (false, s) => .fault 6 va s
    | (true, s) =>
      match blockWrite pa bs (materialise pa (pmcCount rq.die 5 (some rq.part) 1 s)) with
      | (true, s) => .ok () s
      | (false, s) => .fault 4 va s

/-- Read over `k` blocks at most. -/
def vaReadN (rq : Req) : Nat → Nat → Nat → State → Acc (List Byte)
  | 0, _, _, s => .ok [] s
  | k + 1, va, n, s =>
    if n = 0 then .ok [] s
    else
      let m := min n (64 - va % 64)
      (vaReadPart rq va m s).bind fun x s => (vaReadN rq k (va + m) (n - m) s).bind fun y s => .ok (x ++ y) s

/-- Read `n` bytes of HBM at a virtual address. -/
def vaRead (rq : Req) (va n : Nat) (s : State) : Acc (List Byte) := vaReadN rq (n / 64 + 2) va n s

/-- Write over `k` blocks at most. -/
def vaWriteN (rq : Req) : Nat → Nat → List Byte → State → Acc Unit
  | 0, _, _, s => .ok () s
  | k + 1, va, bs, s =>
    if bs = [] then .ok () s
    else
      let m := min bs.length (64 - va % 64)
      (vaWritePart rq va (bs.take m) s).bind fun _ s => vaWriteN rq k (va + m) (bs.drop m) s

/-- Write bytes of HBM at a virtual address. -/
def vaWrite (rq : Req) (va : Nat) (bs : List Byte) (s : State) : Acc Unit := vaWriteN rq (bs.length / 64 + 2) va bs s

end Sys2Proof.Machine
end

