-- ==== Sys2Proof/Machine/Events.lean ====
section
/-! DEFINITION. Faults of accesses, the rings of completion and event records, and the raising of events and alarms (R202, R252, R270,
R545). -/
namespace Sys2Proof.Machine

/-- Status of a fault kind (R201, R583). -/
def faultStatus (kind : Nat) : Nat :=
  if kind = 1 then 0x0020 else if kind = 2 then 0x0021 else if kind = 3 then 0x0022
  else if kind = 7 then 0x0024 else if kind = 8 then 0x0909 else if kind = 9 then 0x0040 else 0x0023

/-- Whether a fault is one of ZG_HBM_FAULT_LAST: not one of a failed die or a missing route. -/
def faultKept (kind : Nat) : Bool := decide (kind < 8)

/-- The value of ZG_HBM_FAULT_LAST that a fault leaves. DEDUCED (log entry 64): an uncorrectable table line names the walker. -/
def faultLast (rq : Req) (kind : Nat) (s : State) : Nat :=
  (s.rfld (ZG_HBM_FAULT_LAST rq.die) 57 44 + 1) % 16384 * 2 ^ 44 + kind * 2 ^ 40 + rq.part % 64 * 2 ^ 34
    + (if kind = 5 then 7 else rq.unit % 8) * 2 ^ 31 + rq.queue % 65536

/-- The fault is recorded in ZG_HBM_FAULT_LAST and ZG_HBM_FAULT_VA of the issuing die, counted and logged (R202, R223). -/
def noteFault (rq : Req) (kind va : Nat) (s : State) : State :=
  let d := rq.die
  let v := faultLast rq kind s
  logRegister 5 1 d v s.now (bump (ZG_HBM_FAULTS d) 1 ((s.setRegN (ZG_HBM_FAULT_LAST d) v).setRegN (ZG_HBM_FAULT_VA d) va))

/-! ### Rings (R252) -/

/-- The requester of a record of a ring of function `f` that die `d` writes: the active bank of the partition's page tables. -/
def State.ringReq (s : State) (f d : Nat) : Req :=
  let b := s.ptState (f - 1)
  { part := f - 1, bank := b.active, epoch := b.epoch, queue := 65535, seq := 0, die := d, unit := 6, strict := false, ring := true }

/-- Write a record to a ring, in host memory or in HBM through the page tables. At a stopped stack the write waits; one that meets a
fault goes nowhere, and the fault is recorded without an event (R201, R220, R252; log entry 7). -/
def ringWrite : RingWriter := fun f d hbm a bs s =>
  if !hbm then hostWriter f d hbm a bs s
  else
    let rq := s.ringReq f d
    match vaWrite rq a bs s with
    | .ok _ s => some s
    | .wait _ _ _ => none
    | .fault k va t => if k = 7 then none else some (if faultKept k then noteFault rq k va t else t)

/-! ### Events and alarms (R270, R545, R546) -/

/-- An event takes its EVT_SEQ on ring `f` (R270). -/
def assignEvent (f : Nat) (e : Ev) (source : Nat) (s : State) : State := assignBy ringWrite f e source s

/-- Room has returned to ring `f` (R270). -/
def announceLost (f : Nat) (s : State) : State := announceBy ringWrite f s

/-- An event to ring `f` under the coalescing of R306. -/
def postEvent (f : Nat) (e : Ev) (s : State) : State := postBy ringWrite f e s

/-- The notice of an alarm (R546). -/
def alarmNotice (e : Ev) (count : Nat) (coalesced : Bool) (s : State) : State := noticeBy ringWrite e count coalesced s

/-- An occurrence of an alarm (R546). -/
def alarmOccur (e : Ev) (s : State) : State := occurBy ringWrite e s

/-- An event as its chapter raises it (R270). -/
def raiseEvent (e : Ev) (s : State) : State := raiseBy ringWrite e s

/-- An alarm that its chapter raises without naming an event code: class 0x0E, code 0x40 + the chapter's class (R545). -/
def raiseAlarm (chapter sev src data : Nat) (s : State) : State :=
  alarmOccur { cls := 0x0E, code := 0x40 + chapter, src := src, data := data, alarm := sev, log := false } s

/-- The fault of a command's access: recorded, and raised to the ring of its partition (R202, R222, R223). -/
def recordFault (rq : Req) (kind va : Nat) (s : State) : State :=
  if !faultKept kind then s
  else raiseEvent { cls := 5, code := 1, src := rq.die, queue := rq.queue % 65536, part := some rq.part, data := faultLast rq kind s,
                    log := false } (noteFault rq kind va s)

end Sys2Proof.Machine
end

