-- ==== Sys2Proof/Machine/LoanOps.lean ====
section
/-! DEFINITION. Clusters lent to filler units and how they go back (14_training_support.md R426 to R430). -/
namespace Sys2Proof.Machine

/-- Whether a sequence belongs to a filler unit. -/
def FillUnit.has (u : FillUnit) (seq : Nat) : Bool := decide (u.first ≤ seq) && decide (seq < u.first + u.descs.length)

/-- Whether a sequence of a queue belongs to its filler unit. -/
def Queue.inUnit (x : Queue) (seq : Nat) : Bool := x.unit.any (fun u => u.has seq)

/-- Whether a cluster is lent to a filler queue. -/
def ClusterSt.lentTo (x : ClusterSt) (q : Nat) : Bool := x.loan.any (fun l => !l.sorrel && l.queue == q)

/-- Keys, die × 64 + cluster, of the clusters lent to a filler queue. -/
def State.lentKeys (s : State) (q : Nat) : List Nat := (s.clu.cl.filter (fun p => p.2.lentTo q)).map Prod.fst

/-- A loan of a cluster of `q` is to end. -/
def State.loanEnding (s : State) (q : Nat) : Bool :=
  s.clu.cl.any (fun p => p.2.loan.any (fun l => !l.sorrel && l.queue == q && l.ending))

/-- A cluster after a loan: the owner's vector registers are as they were (R430). -/
def ClusterSt.returned (x : ClusterSt) : ClusterSt :=
  match x.lentRegs with
  | some r => { x with loan := none, lentRegs := none, vregs := r.vregs, xregs := r.xregs, masks := r.masks, vstat := r.vstat,
                       ctxs := r.ctxs }
  | none => { x with loan := none }

/-- The clusters lent to a filler queue go back to their owners (R428, R430). -/
def giveBack (q : Nat) (s : State) : State :=
  (s.lentKeys q).foldl (fun s k =>
    let x := cget ({} : ClusterSt) s.clu.cl k
    let since := (x.loan.map (·.since)).getD s.now
    bump (ZG_TRN_LENT_NS (k / 64)) (s.now - since)
      { s with clu := { s.clu with cl := cset {} s.clu.cl k x.returned } }) s

end Sys2Proof.Machine
end

