-- ==== Sys2Proof/Machine/SyncOps.lean ====
section
/-! DEFINITION. Operations on synchronisation objects and the release of waiters (R285 to R298), and the deadlock
detector's view of progress (R308, R309). -/
namespace Sys2Proof.Machine

/-- A command that is to end with a status and a detail. -/
structure Ending where
  queue : Nat
  seq : Nat
  status : Nat
  detail : Nat := 0
  /-- The held end of a command of a filler unit is released (R427). -/
  release : Bool := false
  deriving DecidableEq, Repr

/-- A synchronisation object. -/
def State.synObj (s : State) (o : Nat) : SynObj := cget {} s.syn.objs o

/-- Replace a synchronisation object. -/
def State.setSynObj (s : State) (o : Nat) (x : SynObj) : State :=
  { s with syn := { s.syn with objs := cset {} s.syn.objs o x } }

/-- The owner byte of an object's block (R286). -/
def State.synOwner (s : State) (o : Nat) : Nat :=
  let b := o % 4096 / 64
  s.rfld (ZG_SYN_OWN (o / 4096) (b / 8)) (b % 8 * 8 + 7) (b % 8 * 8)

/-- Whether an object is owned: VALID = 1 and PENDING = 0 (R286). -/
def State.synOwned (s : State) (o : Nat) : Bool := s.synOwner o / 64 == 2

/-- The partition that owns an object's block. -/
def State.synPart (s : State) (o : Nat) : Nat := s.synOwner o % 64

/-- TENANT of an object, 0 while unowned (R285). -/
def State.synTenant (s : State) (o : Nat) : Nat := if s.synOwned o then (s.part (s.synPart o)).tenant else 0

/-- The tenant identity of a queue: its own, or for an admin queue that of its function's partition (R251, R294). -/
def State.queueTenant (s : State) (q : Nat) : Nat :=
  if isAdmin q then (if q = 65536 then 0 else (s.part (q - 65537)).tenant) else (s.queue q).tenant

/-- The partition of a queue, none for the admin queue of the physical function. -/
def State.queuePart (s : State) (q : Nat) : Option Nat :=
  if isAdmin q then (if q = 65536 then none else some (q - 65537)) else some (s.queue q).part

/-! ### The deadlock detector (R308, R309) -/

/-- Key of a detector. -/
def detKey (d p : Nat) : Nat := d * 64 + p

/-- An object or group on which queue `q` waits has changed (R308). -/
def touchDetector (q : Nat) (s : State) : State :=
  let k := detKey (s.queue q).die (s.queue q).part
  let x := cget {} s.syn.detectors k
  { s with syn := { s.syn with detectors := cset {} s.syn.detectors k { x with changedAt := s.now } } }

/-- A queue has dispatched or completed a command, or begun to wait, or a collective of it has moved a chunk: its partition has run on
the die until now (R424). -/
def noteRun (q : Nat) (s : State) : State :=
  { s with trn := { s.trn with lastRun := cset 0 s.trn.lastRun (detKey (s.queue q).die (s.queue q).part) s.now } }

/-- A queue has dispatched or completed a command: the first progress after a report raises event 0x07.0x05 (R309). -/
def noteProgress (q : Nat) (s : State) : State :=
  if isAdmin q then s
  else
    let d := (s.queue q).die
    let p := (s.queue q).part
    let x := cget {} s.syn.detectors (detKey d p)
    let s := touchDetector q (noteRun q s)
    if x.reported then
      let y := cget {} s.syn.detectors (detKey d p)
      let s := { s with syn := { s.syn with detectors := cset {} s.syn.detectors (detKey d p) { y with reported := false } } }
      raiseEvent { cls := 7, code := 5, src := d, part := some p, data := p + x.seq * 64, log := false } s
    else s

/-! ### Operations (R287 to R291) -/

/-- What an operation makes of an object: none for misuse; otherwise the object and whether it passed its range (0 no,
1 over, 2 under). -/
def synEffect (op v : Nat) (x : SynObj) : Option (SynObj × Nat) :=
  if op = 1 then
    if x.barrier && decide (x.target ≤ v) then none else some ({ x with value := v, failed := false }, 0)
  else if op = 6 then some ({ x with failed := false, overflow := false, underflow := false }, 0)
  else if op = 5 then
    if !x.barrier || v == 0 then none
    else if x.value + v < x.target then some ({ x with value := x.value + v }, 0)
    else
      let y := { x with gen := (x.gen + 1) % 65536, value := 0 }
      if x.target < x.value + v then some ({ y with overflow := true }, 1) else some (y, 0)
  else if x.barrier then none
  else if op = 2 then
    if 4294967295 < x.value + v then some ({ x with value := 4294967295, overflow := true }, 1)
    else some ({ x with value := x.value + v }, 0)
  else if op = 3 then
    if x.value < v then some ({ x with value := 0, underflow := true }, 2)
    else some ({ x with value := x.value - v }, 0)
  else if op = 4 then some ({ x with value := max x.value v }, 0)
  else none

/-- Whether a wait predicate holds; GEN never does on a counter (R297). -/
def synPred (pred v : Nat) (x : SynObj) : Bool :=
  if pred = 0 then decide (v ≤ x.value)
  else if pred = 1 then x.value == v
  else if pred = 2 then
    let g := (x.gen + 65536 - v % 65536) % 65536
    x.barrier && decide (1 ≤ g) && decide (g ≤ 32767)
  else false

/-- How a wait ends on the object's present state: with a status, or not yet (R298). -/
def waitResult (x : SynObj) (w : SynWait) : Option Nat :=
  if x.failed && !w.ignoreFail then some 0x0101
  else if synPred w.pred w.v x then some 0 else none

/-- The object tests every waiter; the satisfied ones leave the list and are to end (R292). -/
def testWaiters (o : Nat) (s : State) : State × List Ending :=
  let x := s.synObj o
  let done := s.syn.waits.filter (fun w => w.obj == o && (waitResult x w).isSome)
  let s := { s with syn := { s.syn with waits := s.syn.waits.filter (fun w => !(w.obj == o && (waitResult x w).isSome)) } }
  (s, done.map (fun w => { queue := w.queue, seq := w.seq, status := (waitResult x w).getD 0 }))

/-- The queues waiting on an object have seen it change (R308). -/
def touchWaiters (o : Nat) (s : State) : State :=
  (s.syn.waits.filter (fun w => w.obj == o)).foldl (fun s w => touchDetector w.queue s) s

/-- Who issues an operation: tenant identity, the partition and queue of this package that issued it, and whether it is
the signal of a failed command. -/
structure SyncReq where
  tenant : Nat
  part : Option Nat
  queue : Nat := 65535
  failed : Bool := false
  deriving DecidableEq, Repr

/-- What became of an operation. -/
inductive SyncRes where
  | blocked | applied | misuse | dieDown
  deriving DecidableEq, Repr

/-- An event of class 0x07 about an object, to the ring of the owner and to that of the issuing partition if another
(R306). -/
def synEvent (code o data : Nat) (r : SyncReq) (s : State) : State :=
  let own := s.synPart o
  let e : Ev := { cls := 7, code := code, src := o / 4096, queue := r.queue, part := some own, data := data, log := false }
  let s := raiseEvent e s
  match r.part with
  | some p => if p = own then s else raiseEvent { e with part := some p } s
  | none => s

/-- An operation with a wrong tenant or naming an unowned object is blocked and counted (R295). -/
def synBlocked (r : SyncReq) (o : Nat) (s : State) : State :=
  raiseEvent { cls := 7, code := 1, src := o / 4096, queue := r.queue, part := r.part, pfCopy := true, log := false,
               data := o + r.tenant * 16384 + s.synTenant o * 2 ^ 30 } (bump (ZG_SYN_DENIED (o / 4096)) 1 s)

/-- Whether an object accepts operations of a tenant (R294, R295). -/
def State.synAccepts (s : State) (tenant o : Nat) : Bool := s.synOwned o && s.synTenant o == tenant

/-- The status with which accesses to a die fail while it is in a die reset, or has FAILED one; 0 otherwise (R582, R583). -/
def State.dieDown (s : State) (d : Nat) : Nat :=
  match s.rfld ZG_BOOT_DIES (8 * d + 7) (8 * d + 5) with
  | 4 => 0x0908
  | 5 => 0x0909
  | _ => 0

/-- One operation at an object, the tests of its waiters included (R287 to R295); nothing happens at an object of a die that is
down (R582, R583). -/
def synOp (r : SyncReq) (o op v : Nat) (s : State) : SyncRes × State × List Ending :=
  if !s.synAccepts r.tenant o then (.blocked, synBlocked r o s, [])
  else if s.dieDown (o / 4096) ≠ 0 then (.dieDown, s, [])
  else
    let x := s.synObj o
    match synEffect op v x with
    | none =>
      let s := synEvent 3 o (o + op * 16384) r (bump (ZG_SYN_MISUSE (o / 4096)) 1 s)
      if r.failed then
        let s := (if x.failed then id else touchWaiters o) (s.setSynObj o { x with failed := true })
        let (s, es) := testWaiters o s
        (.misuse, s, es)
      else (.misuse, s, [])
    | some (y, range) =>
      let z := { y with failed := y.failed || r.failed }
      let s := s.setSynObj o z
      let s := bump (ZG_SYN_OPS (o / 4096)) 1 s
      let s := if range = 0 then s
        else synEvent 2 o (o + op * 16384 + (range - 1) * 2 ^ 22) r (bump (ZG_SYN_RANGE (o / 4096)) 1 s)
      let (s, es) := testWaiters o (if z = x then s else touchWaiters o s)
      (.applied, s, es)

/-- WATCH of an object: the dies of the queues that wait on it (R285, R298). -/
def State.synWatch (s : State) (o : Nat) : Nat :=
  ((List.range 4).filter (fun d => s.syn.waits.any (fun w => w.obj == o && (s.queue w.queue).die == d))).foldl
    (fun n d => n + 2 ^ d) 0

/-- Queues that wait on an object. -/
def State.synWaiters (s : State) (o : Nat) : Nat := (s.syn.waits.filter (fun w => w.obj == o)).length

end Sys2Proof.Machine
end

