-- ==== Sys2Proof/Machine/QueueOps.lean ====
section
/-! DEFINITION. How a dispatched command ends: its signal, its completion record, the queue's states, held records
(R257 to R267, R276), and the fields of the descriptor header (R260). -/
namespace Sys2Proof.Machine

/-! ### Descriptor header (R260) -/

/-- OPC. -/
def dOpc (d : List Byte) : Nat := byteAt d 0
/-- FENCE. -/
def dFence (d : List Byte) : Bool := bitOf (byteAt d 1) 7
/-- QUIET. -/
def dQuiet (d : List Byte) : Bool := bitOf (byteAt d 1) 6
/-- CONT. -/
def dCont (d : List Byte) : Bool := bitOf (byteAt d 1) 5
/-- SIG_EN. -/
def dSigEn (d : List Byte) : Bool := bitOf (byteAt d 1) 4
/-- INT. -/
def dInt (d : List Byte) : Bool := bitOf (byteAt d 1) 3
/-- BODY_LEN in 16-byte units. -/
def dBodyLen (d : List Byte) : Nat := byteAt d 2 % 8
/-- SIG_OP. -/
def dSigOp (d : List Byte) : Nat := byteAt d 3
/-- SIG_VALUE. -/
def dSigValue (d : List Byte) : Nat := getLE d 4 4
/-- SUBMIT_SEQ. -/
def dSeq (d : List Byte) : Nat := getLE d 8 8
/-- SIG_OBJ. -/
def dSigObj (d : List Byte) : Nat := getLE d 16 2
/-- The body. -/
def dBody (d : List Byte) : List Byte := d.drop 32

/-! ### Functions and QUIESCED -/

/-- Queues of function `f` that hold a command that has not ended. -/
def State.fnBusy (s : State) (f : Nat) : Bool :=
  s.host.queues.any (fun p => (if isAdmin p.1 then p.1 - 65536 else p.2.part + 1) == f && p.2.flights.any (·.ended.isNone))

/-- QUIESCED of ZG_ADM_CFG follows QUIESCE and the commands under way. -/
def refreshQuiesced (f : Nat) (s : State) : State :=
  let v := s.regF f ZG_ADM_CFG
  s.setRegF f ZG_ADM_CFG (setFld v 29 29 (b2n (bitOf v.toNat 30 && !s.fnBusy f)))

/-! ### Completion records (R258, R259, R264 to R267) -/

/-- The 32 bytes of a completion record (R264). -/
def recordBytes (h : HeldRec) (cmpl die : Nat) : List Byte :=
  let e := h.ending
  withCheck (natLE 8 h.seq ++ natLE 8 cmpl ++ natLE 8 e.endNs ++ natLE 2 e.status
    ++ natLE 1 (b2n e.repeated * 8 + b2n e.sigBlocked * 4 + b2n h.slow * 2 + b2n e.unwritten)
    ++ natLE 1 die ++ natLE 2 e.detail)

/-- The record's interrupt (R267, R273). -/
def recordInterrupt (q : Nat) (h : HeldRec) (s : State) : State :=
  let f := s.queueFn q
  let x := s.queue q
  if isAdmin q then sendInterrupt f 0 s
  else if h.int || h.ending.status != 0 || x.intAll then interruptDue f x.intVec x.holdoffUs s
  else s

/-- The ring of queue `q` is full: records are held, once counted per period (R259). -/
def markFull (q : Nat) (s : State) : State :=
  let x := s.queue q
  let s1 := s.setQueue q { x with held := x.held.map (fun h => { h with slow := true }), cqFull := true,
                                  fullSince := if x.cqFull then x.fullSince else s.now }
  if x.cqFull then s1 else bumpF (s.queueFn q) ZG_HQ_CQ_FULL 1 s1

/-- The ring has room again: event 0x01.0x05 if 0x01.0x04 was raised in the period (R259). -/
def markDrained (q : Nat) (s : State) : State :=
  let x := s.queue q
  if x.cqFull && x.held.isEmpty then
    let s := s.setQueue q { x with cqFull := false, fullRaised := none }
    match x.fullRaised with
    | some c => raiseEvent { cls := 1, code := 5, src := if isAdmin q then 4 else x.die, queue := queueField q,
                             part := s.queuePart q, data := c, log := false } s
    | none => s
  else s

/-! ### The lanes of a queue (R419 to R423) -/

/-- Whether every descriptor of a region has been fetched. -/
def DeferRegion.whole (r : DeferRegion) : Bool := decide (r.first + r.count ≤ r.fetchedTo + 1)

/-- Whether every descriptor of a region has been dispatched. -/
def DeferRegion.sent (r : DeferRegion) : Bool := decide (r.first + r.count ≤ r.next)

/-- Whether a sequence lies in a region. -/
def DeferRegion.has (r : DeferRegion) (n : Nat) : Bool := decide (r.first ≤ n) && decide (n < r.first + r.count)

/-- FETCHED_SEQ follows the two lanes (R420). -/
def Queue.settleFetched (x : Queue) : Queue :=
  { x with fetchedSeq := match x.regions.find? (fun r => !r.whole) with
                         | some r => r.fetchedTo
                         | none => x.mainSeq }

/-- The slot of sequence `n` counts as fetched and dispatched without a descriptor (R255). -/
def Queue.passSlot (x : Queue) (n : Nat) : Queue :=
  if x.regions.any (fun (r : DeferRegion) => r.has n) then
    { x with regions := x.regions.map (fun (r : DeferRegion) => if r.has n then { r with fetchedTo := n, next := n + 1 } else r) }.settleFetched
  else { x with mainSeq := n }.settleFetched

/-- Whether a region has completed: every command of it has ended (R419). -/
def Queue.regionDone (x : Queue) (r : DeferRegion) : Bool :=
  r.sent && !x.flights.any (fun f => r.has f.seq && f.ended.isNone)

/-- A dispatched command takes its place in submit order. -/
def Queue.addFlight (x : Queue) (f : Flight) : Queue :=
  if x.regions = [] then { x with flights := x.flights ++ [f] }
  else { x with flights := x.flights.filter (fun g => decide (g.seq < f.seq)) ++ f :: x.flights.filter (fun g => decide (f.seq < g.seq)) }

/-- Records of main-lane commands that a pending region holds back (R423). -/
def Queue.heldBehind (x : Queue) : Nat :=
  match x.regions with
  | [] => 0
  | r :: _ => (x.flights.filter (fun f => !f.deferred && decide (r.first < f.seq) &&
      f.ended.any (fun e => !(dQuiet f.desc && e.status == 0)))).length

/-- An event of class 0x0A on a die, with ZG_TRN_LAST (R433, R434). -/
def trnEvent (d code q : Nat) (part : Option Nat) (data sev : Nat) (s : State) : State :=
  let seq := (s.rfld (ZG_TRN_LAST d) 49 36 + 1) % 16384
  let v := seq * 2 ^ 36 + code * 2 ^ 32 + q % 65536 * 65536
  let s := (s.setRegN (ZG_TRN_LAST d) v).setRegN (ZG_TRN_LAST_NS d) s.now
  raiseEvent { cls := 0x0A, code := code, src := d, queue := q, part := part, data := data, alarm := sev } s

/-- Held records are written in order while the ring has room, its stack is not stopped and Bus Master Enable is 1; a command's
reading of its page tables ends with its record (R198, R220, R250, R258, R259). -/
def writeHeldN : Nat → Nat → State → State
  | 0, q, s => markDrained q s
  | n + 1, q, s =>
    let x := s.queue q
    match x.held with
    | [] => markDrained q s
    | h :: hs =>
      if x.cqConsumed + 2 ^ x.cqLog2 < x.cmplSeq + 1 then markFull q s
      else if !(s.fn (s.queueFn q)).bme then s
      else
        let c := x.cmplSeq + 1
        let y := { x with held := hs, cmplSeq := c, prior := x.prior && !(hs.isEmpty && x.flights.isEmpty), doneSeq := if h.ending.noDesc then h.seq else x.doneSeq }
        let t := s.setQueue q (if h.ending.noDesc then y.passSlot h.seq else y)
        match ringWrite (s.queueFn q) x.die x.cqHbm (x.cqBase + c % 2 ^ x.cqLog2 * 32)
          (recordBytes h c (if isAdmin q then 0 else x.die)) t with
        | some t => writeHeldN n q (releaseBanks h.binds (recordInterrupt q h t))
        | none => s

/-- Write what can be written of the records queue `q` holds. -/
def writeHeld (q : Nat) (s : State) : State := writeHeldN ((s.queue q).held.length) q s

/-- Ended commands at the head of the flights leave in submit order: DONE_SEQ advances, and their records join the held
ones, but for a QUIET success (R258, R266). None leaves past a region with descriptors still to be dispatched (R422). -/
def takeEnded (rs : List DeferRegion) : List Flight → Nat → List HeldRec → List Flight × Nat × List HeldRec
  | [], done, held => ([], done, held)
  | f :: fs, done, held =>
    match f.ended with
    | none => (f :: fs, done, held)
    | some e =>
      if rs.any (fun r => !r.sent && decide (r.next < f.seq)) then (f :: fs, done, held)
      else takeEnded rs fs (if e.noDesc then done else f.seq) 
        (if dQuiet f.desc && e.status == 0 then held else held ++ [⟨f.seq, e, dInt f.desc, false, f.binds⟩])

/-- Banks of commands that leave a queue without a record: their reading ends then. -/
def unrecorded (mute : Bool) (gone : List Flight) : List (Nat × Nat × Nat) :=
  (gone.filter (fun f => mute || dQuiet f.desc && f.ended.any (·.status == 0))).flatMap (·.binds)

/-- Records of ended commands in submit order (R258). -/
def drainQueue (q : Nat) (s : State) : State :=
  let x := s.queue q
  let x := { x with regions := x.regions.filter (fun r => !x.regionDone r) }
  let (fl, done, held) := takeEnded x.regions x.flights x.doneSeq x.held
  let done := if x.prior then x.doneSeq else done
  let gone := x.flights.take (x.flights.length - fl.length)
  let s := releaseBanks (unrecorded x.mute gone) s
  let s := if x.mute then releaseBanks (x.held.flatMap (·.binds)) s else s
  let held := if x.mute then [] else held
  writeHeld q (s.setQueue q { x with flights := fl, doneSeq := done, held := held, prior := x.prior && !(fl.isEmpty && held.isEmpty) })

/-- A queue that is DISABLED writes no further record: the reading of its held records' page tables ends (R198). -/
def dropReaders (q : Nat) (s : State) : State :=
  let x := s.queue q
  releaseBanks (x.held.flatMap (·.binds)) (s.setQueue q { x with held := x.held.map (fun h => { h with binds := [] }) })

/-- Held event records of function `f` are written in sequence order (R220, R250). -/
def writeHeldEvents (f : Nat) : List (List Byte) → State → State
  | [], s => s
  | r :: rs, s =>
    let x := s.fn f
    let seq := getLE r 0 8
    match ringWrite f (min 3 (byteAt r 18 % 8)) x.evHbm (x.evBase + seq % 2 ^ x.evLog2 * 32) r
      (s.setFn f { x with evWritten := seq, evHeld := rs }) with
    | some s => writeHeldEvents f rs (sendInterrupt f x.evVec s)
    | none => s

/-- Requests go to the stacks again: records that waited for one are written (R220). -/
def flushRings (s : State) : State :=
  let fs := (s.host.fns.filter (fun p => p.2.bme && !p.2.evHeld.isEmpty)).map Prod.fst
  let s := fs.foldl (fun s f => writeHeldEvents f (s.fn f).evHeld s) s
  let qs := (s.host.queues.filter (fun p => !p.2.held.isEmpty)).map Prod.fst
  qs.foldl (fun s q => writeHeld q s) s

/-- A queue enters ERROR, with event 0x01.0x01 (R251, R255, R258). -/
def enterError (q status : Nat) (s : State) : State :=
  let s := s.setQueue q { s.queue q with state := .error, lastStatus := status }
  raiseEvent { cls := 1, code := 1, src := if isAdmin q then 4 else (s.queue q).die, queue := queueField q,
               part := s.queuePart q, data := status, log := false } s

/-- A failed command: LAST_STATUS, and without CONT the ERROR state; a queue that is STOPPING stays so (R258, log entry 8). -/
def failQueue (q status : Nat) (cont : Bool) (s : State) : State :=
  let x := s.queue q
  if !cont && x.state == .running then enterError q status s else s.setQueue q { x with lastStatus := status }

/-- A STOPPING queue whose dispatched commands have all ended is STOPPED; the admin commands that waited only for it are
to end (R251, R276). -/
def finishStop (q : Nat) (s : State) : State × List Ending :=
  let x := s.queue q
  if x.state == .stopping && x.flights.all (·.ended.isSome) then
    let s := s.setQueue q { x with state := .stopped, stopWaiters := [] }
    (s, (x.stopWaiters.filter (fun w => !s.host.queues.any (fun p => p.2.stopWaiters.contains w))).map
          (fun w => { queue := w.1, seq := w.2, status := 0 }))
  else (s, [])

/-! ### The end of a command (R258, R262, R291) -/

/-- The signal of an ending command (R262, R291): whether it was blocked, and the waits it releases. -/
def signalEnd (e : Ending) (f : Flight) (s : State) : State × Bool × List Ending :=
  if dSigEn f.desc && !f.noSignal then
    let r : SyncReq := { tenant := s.queueTenant e.queue, part := s.queuePart e.queue, queue := queueField e.queue,
                         failed := e.status != 0 }
    match synOp r (dSigObj f.desc) (dSigOp f.desc) (dSigValue f.desc) s with
    | (.blocked, s, es) => (bumpF (s.queueFn e.queue) ZG_HQ_SIG_DENIED 1 s, true, es)
    | (_, s, es) => (s, false, es)
  else (s, f.sigBlocked, [])

/-- The enabled engine count E (R469). -/
def State.engines (s : State) : Nat := s.rfld ZG_INTH_COUNT 15 0

/-- Whether a queue's TARGET is neither 0 nor E (R469). -/
def State.targetBad (s : State) (q : Nat) : Bool := (s.queue q).target != 0 && (s.queue q).target != s.engines

/-- A running queue whose TARGET no longer fits, and whose dispatched commands have ended, enters ERROR (R469). -/
def retireTarget (q : Nat) (s : State) : State :=
  let x := s.queue q
  if x.state == .running && s.targetBad q && x.flights.all (·.ended.isSome) then enterError q 0x000A s else s

/-- The dispatched command with a sequence whose record is still to come. -/
def State.openFlight (s : State) (q seq : Nat) : Option Flight :=
  (s.queue q).flights.find? (fun f => f.seq == seq && f.ended.isNone)

/-- A command of a filler unit ends in an attempt: its signal and record are held until every command of the unit has
ended; then the loan ends and all are released in submit order (R427). -/
def holdEnd (e : Ending) (s : State) : State × List Ending :=
  let s := s.updFlight e.queue e.seq (fun f => { f with heldEnd := some (e.status, e.detail) })
  let s := { s with hbm := { s.hbm with waits := s.hbm.waits.filter (fun w => !(w.queue == e.queue && w.seq == e.seq)) } }
  let x := s.queue e.queue
  match x.unit with
  | none => (s, [])
  | some u =>
    let mine := x.flights.filter (fun f => u.has f.seq && f.heldEnd.isSome)
    if mine.length < u.descs.length || s.loanEnding e.queue then (s, [])
    else
      (giveBack e.queue (s.setQueue e.queue { x with unit := none }),
        mine.map (fun f => { queue := e.queue, seq := f.seq, status := (f.heldEnd.getD (0, 0)).1,
                             detail := (f.heldEnd.getD (0, 0)).2, release := true }))

/-- The deferred lane is forced when 256 records are held: event 0x0A.0x03 (R423). -/
def noteHeld (q before : Nat) (s : State) : State :=
  if before < 256 ∧ 256 ≤ (s.queue q).heldBehind then
    trnEvent (s.queue q).die 3 q (s.queuePart q) (q % 65536) 0 s
  else s

/-- One command ends; what ends in consequence. -/
def endOne (e : Ending) (s : State) : State × List Ending :=
  match s.openFlight e.queue e.seq with
  | none => (s, [])
  | some f =>
    if e.release = false ∧ f.heldEnd.isSome then (s, [])
    else if e.release = false ∧ (s.queue e.queue).inUnit e.seq then holdEnd e s
    else
    let before := (s.queue e.queue).heldBehind
    let (s, blocked, es) := signalEnd e f s
    let s := releaseBanks (f.binds.filter (fun b => !decide (b.1 < 64))) s
    let ending : EndRec := { status := e.status, detail := e.detail, unwritten := f.unwritten, repeated := f.repeated,
                             sigBlocked := blocked, endNs := s.now, noDesc := false }
    let s := s.updFlight e.queue e.seq (fun g => if g.ended.isNone then { g with ended := some ending, binds := f.binds.filter (fun b => decide (b.1 < 64)) } else g)
    let s := { s with hbm := { s.hbm with waits := s.hbm.waits.filter (fun w => !(w.queue == e.queue && w.seq == e.seq)) } }
    let s := if e.status = 0 then s else failQueue e.queue e.status (dCont f.desc) s
    let s := noteHeld e.queue before <| refreshQuiesced (s.queueFn e.queue) (drainQueue e.queue (retireTarget e.queue (noteProgress e.queue s)))
    let (s, ws) := finishStop e.queue s
    (s, es ++ ws)

/-- Commands end one after another, with what ends in consequence. -/
def endMany : Nat → List Ending → State → State
  | 0, _, s => s
  | _ + 1, [], s => s
  | n + 1, e :: es, s =>
    let (s, more) := endOne e s
    endMany n (es ++ more) s

/-- Most ends that a list of ends can bring with it: every wait and every stop waiter at most once. -/
def endFuel (es : List Ending) (s : State) : Nat :=
  es.length + s.syn.waits.length + (s.host.queues.map (fun p => p.2.stopWaiters.length + p.2.flights.length)).sum

/-- A list of commands ends. -/
def endAll (es : List Ending) (s : State) : State := endMany (endFuel es s) es s

/-- A command ends with a status and a detail. -/
def endCommand (q seq status detail : Nat) (s : State) : State := endAll [{ queue := q, seq := seq, status := status, detail := detail }] s

/-- A synchronisation operation outside the end of a command, with the waits it releases. -/
def applySync (r : SyncReq) (o op v : Nat) (s : State) : SyncRes × State :=
  let (x, s, es) := synOp r o op v s
  (x, endAll es s)

end Sys2Proof.Machine
end

