-- ==== Sys2Proof/Machine/HbmOps.lean ====
section
/-! DEFINITION. Sequences of HBM accesses: writes of commands that fail, lists of accesses (R202, R272). -/
namespace Sys2Proof.Machine

/-- Blocks of a write whose command fails, over `k` blocks at most: each 64-byte block holds its previous or its new contents,
whichever free value number `free` and up says (R272, R277, R451). -/
def vaWriteSome (rq : Req) (free : Nat) : Nat → Nat → List Byte → State → State
  | 0, _, _, s => s
  | k + 1, va, bs, s =>
    if bs = [] then s
    else
      let m := min bs.length (64 - va % 64)
      let s := if Config.freeValue (free + k) % 2 = 0 then s
        else match vaWritePart rq va (bs.take m) s with
          | .ok _ t => t
          | _ => s
      vaWriteSome rq free k (va + m) (bs.drop m) s

/-- A write that must not stop half way: on a fault the blocks that it leaves changed are a free choice (R272, R451). -/
def vaWriteWhole (rq : Req) (va : Nat) (bs : List Byte) (s : State) : Acc Unit :=
  match vaWrite rq va bs s with
  | .fault k a _ => let (v, s) := s.draw; .fault k a (vaWriteSome rq v (bs.length / 64 + 2) va bs s)
  | x => x

/-- The accesses of a list, one after another. -/
def Acc.forEach {β : Type} (g : β → State → Acc Unit) : List β → State → Acc Unit
  | [], s => .ok () s
  | x :: xs, s => (g x s).bind fun _ s => Acc.forEach g xs s

/-- The values of the accesses of a list, one after another. -/
def Acc.mapM {β γ : Type} (g : β → State → Acc γ) : List β → State → Acc (List γ)
  | [], s => .ok [] s
  | x :: xs, s => (g x s).bind fun y s => (Acc.mapM g xs s).bind fun ys s => .ok (y :: ys) s

end Sys2Proof.Machine
end

