-- ==== Sys2Proof/Machine/Operands.lean ====
section
/-! DEFINITION. Operand forms: format codes, encodings as exact numbers, packing (03_number_formats.md R38 to R50,
04_dot_product.md R72). -/
namespace Sys2Proof.Machine

/-- Class of an operand (R72). -/
inductive NumClass where
  | zero | fin | inf | nan
  deriving DecidableEq, Repr

/-- An operand or result as an exact number: (-1)^s × m × 2^e when finite (R72). -/
structure Num where
  cls : NumClass
  s : Bool := false
  m : Nat := 0
  e : Int := 0
  deriving DecidableEq, Repr

/-- What an all-ones exponent means in a floating-point layout (R40). -/
inductive Specials where
  /-- Infinity and NaN. -/
  | ieee
  /-- NaN only, at all-ones exponent and fraction. -/
  | e4m3
  /-- Every encoding is finite. -/
  | finite
  deriving DecidableEq, Repr

/-- A floating-point layout: exponent bits, fraction bits, bias (R39). -/
structure FloatLayout where
  ebits : Nat
  mbits : Nat
  bias : Int
  special : Specials
  deriving DecidableEq, Repr

/-- The floating-point layout of a format code, MX codes as their elements (R38, R39, R40). -/
def layoutOf (code : Nat) : Option FloatLayout :=
  if code = 0 then some ⟨8, 23, 127, .ieee⟩
  else if code = 1 then some ⟨5, 10, 15, .ieee⟩
  else if code = 2 then some ⟨8, 7, 127, .ieee⟩
  else if code = 3 ∨ code = 0x10 then some ⟨4, 3, 7, .e4m3⟩
  else if code = 4 ∨ code = 0x11 then some ⟨5, 2, 15, .ieee⟩
  else if code = 9 ∨ code = 0x12 then some ⟨2, 3, 1, .finite⟩
  else if code = 10 ∨ code = 0x13 then some ⟨3, 2, 3, .finite⟩
  else if code = 11 ∨ code = 0x14 then some ⟨2, 1, 1, .finite⟩
  else none

/-- Bits of an element of a format code; 0 for a reserved code (R38). -/
def fmtWidth (code : Nat) : Nat :=
  if code = 0 ∨ code = 7 then 32
  else if code = 1 ∨ code = 2 then 16
  else if code = 3 ∨ code = 4 ∨ code = 5 ∨ code = 8 ∨ code = 0x10 ∨ code = 0x11 ∨ code = 0x15 then 8
  else if code = 9 ∨ code = 10 ∨ code = 0x12 ∨ code = 0x13 then 6
  else if code = 6 ∨ code = 11 ∨ code = 0x14 then 4
  else 0

/-- Whether a code names an MX format. -/
def isMx (code : Nat) : Bool := decide (0x10 ≤ code) && decide (code ≤ 0x15)

/-- Whether a code names an integer format (R44). -/
def isInt (code : Nat) : Bool := code == 5 || code == 6 || code == 7

/-- The value of a floating-point encoding (R39, R40, R72). -/
def decodeFloat (l : FloatLayout) (v : Nat) : Num :=
  let s := v.testBit (l.ebits + l.mbits)
  let e := bitsOf v (l.ebits + l.mbits - 1) l.mbits
  let f := v % 2 ^ l.mbits
  let ones := e == 2 ^ l.ebits - 1
  if l.special = .ieee ∧ ones then (if f = 0 then ⟨.inf, s, 0, 0⟩ else ⟨.nan, false, 0, 0⟩)
  else if l.special = .e4m3 ∧ ones ∧ f = 2 ^ l.mbits - 1 then ⟨.nan, false, 0, 0⟩
  else if e = 0 then (if f = 0 then ⟨.zero, s, 0, 0⟩ else ⟨.fin, s, f, 1 - l.bias - l.mbits⟩)
  else ⟨.fin, s, 2 ^ l.mbits + f, e - l.bias - l.mbits⟩

/-- The value of a two's-complement integer of `w` bits (R44, R72). -/
def decodeInt (w v : Nat) : Num :=
  let x := sext w v
  if x = 0 then ⟨.zero, false, 0, 0⟩ else ⟨.fin, x < 0, x.natAbs, 0⟩

/-- A binary32 subnormal is a zero of its sign in reduced service (R67). -/
def flushIn (reduced : Bool) (code : Nat) (n : Num) : Num :=
  if reduced && code == 0 && n.cls == .fin && decide (n.m < 2 ^ 23) then ⟨.zero, n.s, 0, 0⟩ else n

/-- The value of an element of a non-MX format (R60, R72). -/
def decodeElem (reduced : Bool) (code v : Nat) : Num :=
  match layoutOf code with
  | some l => flushIn reduced code (decodeFloat l v)
  | none =>
    if code = 8 then (if v % 256 = 255 then ⟨.nan, false, 0, 0⟩ else ⟨.fin, false, 1, (v % 256 : Nat) - 127⟩)
    else decodeInt (fmtWidth code) v

/-- The value of an MX element with scale `u` (R46, R47, R72). -/
def decodeMx (code u v : Nat) : Num :=
  if u % 256 = 255 then ⟨.nan, false, 0, 0⟩
  else
    let n := match layoutOf code with
      | some l => decodeFloat l v
      | none => let x := decodeInt 8 v; { x with e := x.e - 6 }
    { n with e := if n.cls = .fin then n.e + ((u % 256 : Nat) - 127) else 0 }

/-- Element `i` of a packed string of `w`-bit elements (R45). -/
def packedGet (bs : List Byte) (w i : Nat) : Nat :=
  bitsOf (getLE bs (w * i / 8) (w / 8 + 2)) (w * i % 8 + w - 1) (w * i % 8)

/-- The bytes of packed `w`-bit elements (R45); the last byte is filled with zero bits. -/
def packElems (w : Nat) (vs : List Nat) : List Byte :=
  natLE (ceilDiv (w * vs.length) 8) (vs.foldr (fun v n => v % 2 ^ w + 2 ^ w * n) 0)

end Sys2Proof.Machine
end

