-- ==== Sys2Proof/Machine/Footprint.lean ====
section
/-! DEFINITION. The memory that a command reads and writes, and the order that it gives the commands of one queue (R18, R257). -/
namespace Sys2Proof.Machine

/-- Bytes of `n` packed elements of a format. -/
def elemBytes (code n : Nat) : Nat := ceilDiv (n * fmtWidth code) 8

/-- The first cluster and the count a command's body names, if its opcode names clusters: tile passes, vector programs and
moves, Teasel operations and flips, stream commands, DROPOUT, ACT_STORE and ACT_LOAD. -/
def namedClusters (desc : List Byte) : Option (Nat × Nat) :=
  let o := dOpc desc
  let b := dBody desc
  let at_ := fun i => some (byteAt b i % 64, byteAt b (i + 1) % 128)
  if o = 0x10 then at_ 5
  else if o = 0x30 then at_ 2
  else if o = 0x20 ∨ o = 0x21 ∨ o = 0x31 ∨ o = 0x40 ∨ o = 0xA0 ∨ o = 0xA1 ∨ o = 0xA2 then at_ 0
  else none

/-- A stretch of memory that a command reads or writes: 0 is HBM by virtual address, 1 the host, 2 + c the SRAM of cluster c of its
die. -/
structure Span where
  space : Nat
  lo : Nat
  hi : Nat
  write : Bool
  deriving DecidableEq, Repr

/-- Whether two stretches meet in a 64-byte block that one of them writes. -/
def Span.meets (a b : Span) : Bool :=
  (a.write || b.write) && a.space == b.space && decide (a.lo / 64 * 64 < b.hi) && decide (b.lo / 64 * 64 < a.hi)

/-- All of a space. -/
def Span.all (space : Nat) (write : Bool) : Span := ⟨space, 0, two64, write⟩

/-- SRAM of one cluster that a tile command reads and writes (R92 to R102). -/
def tileSpans (b : List Byte) (c : Nat) : List Span :=
  let k := getLE b 12 4
  let side := fun (stream : Bool) (fmt off ld sc rows : Nat) =>
    if stream then []
    else if isMx fmt then
      let blocks := rows * ceilDiv k 32
      [Span.mk c off (off + elemBytes fmt (32 * blocks)) false, Span.mk c sc (sc + blocks) false]
    else [Span.mk c off (off + (rows - 1) * ld + elemBytes fmt k) false]
  let m := getLE b 8 2
  let n := getLE b 10 2
  let init := byteAt b 0 / 16 % 4
  let cw := if init = 2 then 32 else fmtWidth (byteAt b 3) / 8
  side (bitOf (byteAt b 0) 2) (byteAt b 1) (getLE b 0x10 4) (getLE b 0x14 4) (getLE b 0x20 4) m
    ++ side (bitOf (byteAt b 0) 1) (byteAt b 2) (getLE b 0x18 4) (getLE b 0x1C 4) (getLE b 0x24 4) n
    ++ (if init = 0 then [] else [Span.mk c (getLE b 0x2C 4) (getLE b 0x2C 4 + (m - 1) * getLE b 0x30 4 + n * cw) false])
    ++ (if bitOf (byteAt b 0) 0 then [Span.mk c (getLE b 0x50 4) (getLE b 0x50 4 + 2 * ceilDiv k (getLE b 0x54 2)) false] else [])
    ++ [Span.mk c (getLE b 0x34 4) (getLE b 0x34 4 + getLE b 0x3C 4) true]

/-- HBM that the spilled rows of a tile command go to (R102). -/
def spillSpans (b : List Byte) (clusters : Nat) : List Span :=
  let m := getLE b 8 2
  let row := getLE b 10 2 * (if bitOf (byteAt b 0) 3 then 32 else fmtWidth (byteAt b 4) / 8)
  let ld := getLE b 0x38 4
  if (m - 1) * ld + row ≤ getLE b 0x3C 4 then []
  else (List.range clusters).map (fun i =>
    let a := getLE b 0x40 8 + i * getLE b 0x48 8
    ⟨0, a, a + (m - 1) * ld + row, true⟩)

/-- The memory of a command. Where the extent is not in its body, all of the space it works in (log entry 65). -/
def commandSpans (d : List Byte) : List Span :=
  let o := dOpc d
  let b := dBody d
  let cs := (namedClusters d).map (fun p => (List.range p.2).map (fun i => 2 + p.1 + i)) |>.getD []
  let sram := cs.map (fun c => Span.all c true)
  if o = 0x08 then
    let dir := byteAt b 0
    let n := getLE b 24 8
    [⟨if dir = 0 then 1 else 0, getLE b 8 8, getLE b 8 8 + n, false⟩, ⟨if dir = 1 then 1 else 0, getLE b 16 8, getLE b 16 8 + n, true⟩]
  else if o = 0x10 then cs.flatMap (tileSpans b) ++ spillSpans b cs.length
  else if o = 0x20 then
    sram ++ [⟨0, getLE b 8 8, getLE b 8 8 + getLE b 2 2 * 8, false⟩]
      ++ (if getLE b 16 8 = 0 then [] else [⟨0, getLE b 16 8, getLE b 16 8 + 64, true⟩])
  else if o = 0x30 ∨ o = 0xA0 then sram
  else if o = 0x21 ∨ o = 0xA1 ∨ o = 0xA2 then Span.all 0 true :: sram
  else if o = 0x60 ∨ o = 0x61 then
    let n := getLE b 8 4 * 4 * 4096
    [⟨0, getLE b 0x10 8, getLE b 0x10 8 + n, false⟩, ⟨0, getLE b 0x18 8, getLE b 0x18 8 + n, true⟩]
  else if o = 0x62 then
    let n := byteAt b 6 * 4
    [⟨0, getLE b 8 8, getLE b 8 8 + n, false⟩, ⟨0, getLE b 16 8, getLE b 16 8 + n, true⟩]
  else if 0x70 ≤ o ∧ o ≤ 0x7F then [Span.all 0 true]
  else if o = 0x63 ∨ o = 0xA4 then [Span.all 0 false]
  else []

/-- Commands of one unit that follow an order of the unit's own: vector programs and Teasel operations in each cluster, collectives
in their lanes. -/
def ownOrder (a b : Nat) : Bool :=
  (a == b && (a == 0x20 || a == 0x30)) || (decide (0x60 ≤ a) && decide (a ≤ 0x62) && decide (0x60 ≤ b) && decide (b ≤ 0x62))

/-- Whether command `f` of queue `q` has to wait for an earlier one of its lane that has not ended: one that writes a block it
accesses, or accesses a block it writes (R18, R257). -/
def State.memoryAhead (s : State) (q : Nat) (f : Flight) : Bool :=
  (s.queue q).flights.any (fun g =>
    g.ended.isNone && g.heldEnd.isNone && decide (g.order < f.order) && g.deferred == f.deferred
      && !ownOrder (dOpc g.desc) (dOpc f.desc)
      && (commandSpans g.desc).any (fun a => (commandSpans f.desc).any (fun b => a.meets b)))

end Sys2Proof.Machine
end

