-- ==== Sys2Proof/Machine/RunOps.lean ====
section
/-! DEFINITION. Running a dispatched command: its descriptor, its HBM accesses, its end. -/
namespace Sys2Proof.Machine

/-- The effect `g` of a dispatched command with opcode `opc`; a command that is not under way leaves the state, one whose memory an
earlier command of its queue still works on waits (R18, R257), and a tripped package starts nothing (R522). -/
def withFlight (q seq opc : Nat) (s : State) (g : Flight → State) : State :=
  if s.power.tripped then s
  else match s.flight q seq with
  | some f => if dOpc f.desc ≠ opc || s.memoryAhead q f then s else g f
  | none => s

/-- STATE of ZG_MGT_STATE: 0 loading, 1 running, 2 restarting, 3 halted. -/
def State.betony (s : State) : Nat := s.rfld ZG_MGT_STATE 2 0

/-- The status with which an admin queue refuses every command but NOP: that of a virtual function whose partition does
not exist (R278). -/
def adminRefusal (q : Nat) (s : State) : Nat := failIf (q != 65536 && !(s.part (q - 65537)).present) 9

/-- The effect of an admin command that Betony executes: it waits while Betony does not run and fails while Betony is
HALTED (R277 to R279, R534, R535). -/
def withAdmin (q seq opc : Nat) (s : State) (g : Flight → State) : State :=
  withFlight q seq opc s fun f =>
    if s.betony = 3 then endCommand q seq 0x0807 0 s
    else if s.betony ≠ 1 then s
    else if adminRefusal q s ≠ 0 then endCommand q seq (adminRefusal q s) 0 s
    else g f

/-- The requester of a command's HBM accesses: its partition, the page-table bank it bound, and whether the partition
runs in deterministic or audit mode (R198, R201, R216). -/
def State.req (s : State) (q : Nat) (f : Flight) (unit : Nat) : Req :=
  let x := s.queue q
  { part := x.part, bank := f.bankOf (ptTable x.part), epoch := f.epochOf (ptTable x.part), queue := q, seq := f.seq, die := x.die, unit := unit,
    strict := (s.part x.part).det || (s.part x.part).audit }

/-- A command meets a stopped stack: its request waits there and the command stays as it was (R220). -/
def waitAtStack (w : StackWait) (s : State) : State :=
  if w ∈ s.hbm.waits then s else { s with hbm := { s.hbm with waits := s.hbm.waits ++ [w] } }

/-- A command whose accesses went through continues with `g`; one that met a fault ends with its status; one that met a
stopped stack waits with everything else unchanged (R201, R220). -/
def finishAcc {α : Type} (q seq : Nat) (rq : Req) (s0 : State) (x : Acc α) (g : α → State → State) : State :=
  match x with
  | .ok a s => g a s
  | .fault k va s => endCommand q seq (faultStatus k) 0 (recordFault rq k va s)
  | .wait m va _ => waitAtStack ⟨m, q, seq, rq.unit, va, none⟩ s0

end Sys2Proof.Machine
end

