-- ==== Sys2Proof/Machine/RegOps.lean ====
section
/-! DEFINITION. Checking, rejecting and applying register writes (R590 to R603). -/
namespace Sys2Proof.Machine

/-! ### Looking registers up (R590, R598) -/

/-- A BAR0 offset with its die region taken to that of CD0. -/
def normOff (off : Nat) : Nat := if 0x100000 ≤ off ∧ off < 0x200000 then 0x100000 + (off - 0x100000) % 0x40000 else off

/-- The block that holds an offset. -/
def blockOf (off : Nat) : Option BlockDesc :=
  let o := normOff off
  blockTable.find? (fun b => decide (b.base ≤ o) && decide (o < b.base + b.size))

/-- The register that holds an offset. -/
def descOf (off : Nat) : Option RegDesc :=
  let o := normOff off
  regTable.find? (fun r => decide (r.off ≤ o) && decide (o < r.off + 8 * r.count))

/-- Whether hub hardware answers a register (R597). -/
def isHw (off : Nat) : Bool :=
  match blockOf off with
  | some b => b.hw || hwExtra.contains (normOff off / 8 * 8)
  | none => false

/-- Key of a register as function `f` sees it: blocks each function has of its own, and the EMU and CREAD registers of
ZG_MGT, by function; every other register once (R598). -/
def viewKey (f off : Nat) : Nat :=
  match blockOf off with
  | some b =>
    let slot := off / 8 * 8
    if b.perFunc || slot == ZG_MGT_EMU || slot == ZG_MGT_CREAD || slot == ZG_MGT_CREAD_NS then regKey f slot else slot
  | none => off / 8 * 8

/-- Offset of the LOCK register of a block: the register of the block whose bit 0 is WOS (R593). -/
def lockOff (off : Nat) : Option Nat :=
  match blockOf off with
  | some b =>
    match regTable.find? (fun r => decide (b.base ≤ r.off) && decide (r.off < b.base + b.size) && r.fields.contains (0, 0, .wos)) with
    | some r => some (off - normOff off + r.off)
    | none => none
  | none => none

/-- Whether the LOCK of the block that holds an offset is 1. -/
def State.locked (s : State) (off : Nat) : Bool :=
  match lockOff off with
  | some o => bitOf (s.reg o).toNat 0
  | none => false

/-- STAGE of ZG_BOOT_STATE. -/
def State.stage (s : State) : Nat := s.rfld ZG_BOOT_STATE 7 0

/-- READY of ZG_BOOT_STATE. -/
def State.ready (s : State) : Bool := s.rfld ZG_BOOT_STATE 15 15 == 1

/-- The package is in the maker's test mode (R556). -/
def State.testMode (s : State) : Bool := s.rfld ZG_MGT_STATE 3 3 == 1

/-! ### Checks (R594) -/

/-- The bits of a register whose fields have one of the access types. -/
def maskOf (r : RegDesc) (p : Access → Bool) : Nat :=
  r.fields.foldl (fun n f => if p f.2.2 then Nat.lor n ((2 ^ (f.1 + 1 - f.2.1) - 1) * 2 ^ f.2.1) else n) 0

/-- An admin command of the function is in flight, or its record is still to be written (R273). -/
def State.fnBusyAdmin (s : State) (f : Nat) : Bool := (s.queue (65536 + f)).flights != [] || (s.queue (65536 + f)).held != []

/-- Kind 7: a write the owning chapter refuses in the present state (R594, R586, R589, R495, 10). -/
def stateBad (f off old new : Nat) (s : State) : Bool :=
  if off = ZG_ADM_SQ_BASE ∨ off = ZG_ADM_CQ_BASE then
    (bitOf (s.regF f ZG_ADM_CFG).toNat 31 || s.fnBusyAdmin f) && old != new
  else if off = ZG_ADM_CFG then
    (bitOf old 31 || s.fnBusyAdmin f) && bitsOf old 11 4 != bitsOf new 11 4
  else if off = ZG_BOOT_IMG_ADDR ∨ off = ZG_BOOT_IMG_LEN then s.stage != 4
  else if off = ZG_BOOT_GO then bitOf new 0 && s.stage != 4
  else if off = ZG_BOOT_CTRL then (bitOf new 8 || bitsOf new 7 4 != 0) && !s.ready
  else if normOff off = ZG_INT_INJECT 0 then !s.testMode
  else false

/-- Kind 8: a value that the owning chapter names a rejected write. -/
def rangeBad (off new : Nat) : Bool :=
  let o := normOff off
  if off = ZG_ADM_CFG then
    bitsOf new 11 8 < 4 || 12 < bitsOf new 11 8 || bitsOf new 7 4 < 4 || 12 < bitsOf new 7 4
  else if off = ZG_ADM_SQ_BASE ∨ off = ZG_ADM_CQ_BASE then bitsOf new 11 0 != 0
  else if o = ZG_HBM_CTRL 0 then bitsOf new 15 8 < 70 || 91 < bitsOf new 15 8
  else if o = ZG_CLU_CARVE 0 then 16 < bitsOf new 4 0
  else if o = ZG_PWD_VTSEL 0 then bitsOf new 7 0 < 88 || 144 < bitsOf new 7 0
  else if ZG_PMC_SEL 0 0 ≤ o ∧ o ≤ ZG_PMC_SEL 0 7 then 14 < bitsOf new 7 0
  else false

/-- Kind 3: a write from a function that may not make it (R594, R599, R567). -/
def functionBad (f off new : Nat) (b : BlockDesc) (r : RegDesc) (s : State) : Bool :=
  if f = 0 then false
  else if b.vf = .readOnly then true
  else if b.base = 0x6000 then
    off = ZG_MGT_ALERT || Nat.land new (maskOf r (· == .w1c)) != 0
  else if off = ZG_HQ_SEL then
    let p := s.part (f - 1)
    !bitOf new 16 && (decide (bitsOf new 15 0 < p.qFirst) || decide (p.qFirst + p.qCount ≤ bitsOf new 15 0))
  else false

/-- What a register holds after an accepted write: RW, LCK and WOS fields take the written bits, W1C bits written 1 clear,
WO fields hold nothing (R593). -/
def newValue (r : RegDesc) (old new : Nat) : Nat :=
  let take := maskOf r (fun a => a == .rw || a == .lck || a == .wos)
  let keep := maskOf r (fun a => a == .ro || a == .fuse)
  let w1c := maskOf r (· == .w1c)
  Nat.lor (Nat.lor (Nat.land new take) (Nat.land old keep)) (Nat.land old (Nat.xor w1c (Nat.land w1c new)))

/-- The first check of R594 that a write fails; 0 for none. -/
def writeKind (f off size value : Nat) (s : State) : Nat :=
  if !(size == 4 || size == 8) || off % size != 0 || decide (0x200000 < off + size) then 1
  else match blockOf off, descOf off with
    | some b, some r =>
      if f ≠ 0 ∧ b.vf = .absent then 2
      else if r.wide && size == 4 && !(decide (0x11000 ≤ off) && decide (off < 0x13000)) then 1
      else
        let old := (cget 0 s.regs (viewKey f off)).toNat
        let new := if off % 8 = 4 then value % 4294967296 * 4294967296 + old % 4294967296
                   else if r.wide && size == 4 then old / 4294967296 * 4294967296 + value % 4294967296 else value
        let named := maskOf r (· != .rsv)
        if functionBad f off new b r s then 3
        else if Nat.land new named != new then 4
        else if maskOf r (fun a => a == .rw || a == .w1c || a == .wo || a == .wos || a == .lck) = 0 then 5
        else if Nat.land (Nat.xor old new) (maskOf r (· == .wos)) != 0 &&
            Nat.land old (maskOf r (· == .wos)) != 0 then 6
        else if s.locked off && Nat.land (Nat.xor old new) (maskOf r (· == .lck)) != 0 then 6
        else if stateBad f off old new s then 7
        else if rangeBad off new then 8
        else 0
    | _, _ => 2

/-! ### Rejection (R595) -/

/-- A write is rejected: discarded, counted and recorded, and logged unless the same was logged within 100 µs. -/
def rejectWrite (f off kind value : Nat) (s : State) : State :=
  let e := (s.regF f ZG_REG_ERR).toNat
  let s := s.setRegF f ZG_REG_ERR (BitVec.ofNat 64 (Nat.lor e (2 ^ (kind - 1))))
  let s := bumpF f ZG_REG_REJECTS 1 s
  let seq := (fld (s.regF f ZG_REG_LAST) 49 36 + 1) % 16384
  let last := seq * 2 ^ 36 + kind * 2 ^ 32 + off % 0x200000
  let s := s.setRegF f ZG_REG_LAST (BitVec.ofNat 64 last)
  let s := s.setRegF f ZG_REG_LAST_NS (BitVec.ofNat 64 s.now)
  let s := s.setRegF f ZG_REG_LAST_DATA (BitVec.ofNat 64 value)
  let prev := cget (0, 0, 0) s.mgt.lastReject f
  if prev.1 = off ∧ prev.2.1 = kind ∧ s.now < prev.2.2 + 100000 then s
  else
    let s := { s with mgt := { s.mgt with lastReject := cset (0, 0, 0) s.mgt.lastReject f (off, kind, s.now) } }
    pushLog { cls := 0, code := 1, kind := 1, source := 4, data0 := last, data1 := s.now,
              detail := natLE 8 value ++ natLE 1 f } s

/-- Whether a write of a register can take effect now: at an emulated register only while Betony's core B0 answers (R533, R575,
R594). -/
def State.answers (s : State) (off : Nat) : Bool :=
  isHw off || (blockOf off).isNone || (s.rfld ZG_MGT_STATE 2 0 == 1 && s.ready)

/-- Whether a function answers accesses: the physical function, and the virtual ones while VF Enable is 1 (R283). -/
def State.hasFn (s : State) (f : Nat) : Bool := f == 0 || s.host.vfEnable

/-- A write of function `f` takes effect: rejected, or applied to the register and followed by the register's own effect, which
is given the value before, the value written and the state with the register written. The high half of the slot of a 32-bit register
holds no field, so zeros written there have no effect; a write that no register occupies never waits for B0 (R590, R593 to R595). -/
def guardedWrite (f off size value : Nat) (s : State) (effect : Nat → Nat → State → State) : State :=
  let kind := writeKind f off size value s
  if (s.answers off = false ∧ kind ≠ 2) ∨ s.hasFn f = false then s
  else if kind ≠ 0 then rejectWrite f off kind (if size = 4 then value % 4294967296 else value) s
  else match descOf off with
    | some r =>
      if off % 8 = 4 ∧ r.wide = false then s
      else
      let k := viewKey f off
      let old := (cget 0 s.regs k).toNat
      let new := if off % 8 = 4 then value % 4294967296 * 4294967296 + old % 4294967296
                 else if r.wide && size == 4 then old / 4294967296 * 4294967296 + value % 4294967296 else value
      effect old new { s with regs := cset 0 s.regs k (BitVec.ofNat 64 (newValue r old new)) }
    | none => s

end Sys2Proof.Machine
end

