-- ==== Sys2Proof/Machine/TimeOps.lean ====
section
/-! DEFINITION. The beat-rate monitors, the timestamp replicas and the service modes (02_clockless_timing.md R28 to R30,
R33; 03_number_formats.md R68 to R70). -/
namespace Sys2Proof.Machine

/-- STATE of a die in ZG_BOOT_DIES. -/
def State.dieState (s : State) (d : Nat) : Nat := s.rfld ZG_BOOT_DIES (8 * d + 7) (8 * d + 5)

/-- Set STATE of a die in ZG_BOOT_DIES. -/
def setDieState (d v : Nat) (s : State) : State := s.setRfld ZG_BOOT_DIES (8 * d + 7) (8 * d + 5) v

/-- Whether a die is in reduced service: SUBN_MODE of ZG_FMT_SERVICE (R68). -/
def State.reduced (s : State) (d : Nat) : Bool := s.rfld (ZG_FMT_SERVICE d) 0 0 == 1

/-- Whether some command of a user queue of die `d` is under way. -/
def State.dieBusy (s : State) (d : Nat) : Bool :=
  s.host.queues.any (fun p => !isAdmin p.1 && p.2.die == d && p.2.flights.any (·.ended.isNone))

/-- SUBN_MODE of a die changes, with REASON, CHANGES and the time of change in one step, and REDUCED of ZG_BOOT_DIES
follows (R68 to R70). -/
def switchService (d : Nat) (reduced : Bool) (reason : Nat) (s : State) : State :=
  let v := s.reg (ZG_FMT_SERVICE d)
  let v := setFld (setFld (setFld v 0 0 (b2n reduced)) 1 1 0) 15 8 (fld v 15 8 + 1)
  let v := if reduced then setFld v 23 16 reason else v
  let s := (s.setReg (ZG_FMT_SERVICE d) v).setRegN (ZG_FMT_SVC_STAMP d) s.now
  s.setRfld ZG_BOOT_DIES (8 * d + 4) (8 * d + 4) (b2n reduced)

/-- Betony requests the other service mode: PENDING until a command boundary (R69). -/
def requestService (d reason : Nat) (s : State) : State :=
  let s := s.setRfld (ZG_FMT_SERVICE d) 1 1 1
  { s with time := { s.time with svcReason := cset 0 s.time.svcReason d reason } }

/-- A requested change of service mode takes effect at a command boundary of the die: when no command is in flight; a
self-test that waits for the boundary begins (R69, R472). -/
def execServiceModeChange (die : Die) (s : State) : Out :=
  .next <|
    if s.dieBusy die then s
    else
      let s := if s.rfld (ZG_FMT_SERVICE die) 1 1 = 1 then
          switchService die (!s.reduced die) (cget 0 s.time.svcReason die) s else s
      if s.reduced die && s.rfld (ZG_INT_ST die) 30 28 == 1 then s.setRfld (ZG_INT_ST die) 30 28 2 else s

/-- End of the newest window that is over: the last whole microsecond of the die's replica (R28). -/
def State.windowEnd (s : State) (d : Nat) : Nat := s.replicaOf d / 1000 * 1000

/-- Whether a window of the die has ended since the last publication (R28). -/
def State.windowDue (s : State) (d : Nat) : Bool := decide ((s.reg (ZG_BEAT_STAMP d)).toNat < s.windowEnd d)

/-- The monitors of a die publish the window that has ended: the four counts, their minimum, the window's end and the next
window sequence; zero while the die is held in reset (R28 to R30). DESIGN CHOICE (log entry 57): a window during only a
part of which the die was off is judged by the die's state at the publication. -/
def execBeatWindowPublish (die : Die) (q0 q1 q2 q3 : BitVec 16) (s : State) : Out :=
  if s.windowDue die = false then .next s else
  let off := s.dieState die == 0 || s.dieState die == 4 || s.dieState die == 5
  let n := fun (q : BitVec 16) => if off then 0 else q.toNat
  let low := min (min (n q0) (n q1)) (min (n q2) (n q3))
  let seq := (s.rfld (ZG_BEAT_WINDOW die) 47 16 + 1) % 4294967296
  let s := s.setRegN (ZG_BEAT_QUAD die) (n q3 * 2 ^ 48 + n q2 * 2 ^ 32 + n q1 * 65536 + n q0)
  let s := s.setRegN (ZG_BEAT_WINDOW die) (seq * 65536 + low)
  let s := s.setRegN (ZG_BEAT_STAMP die) (s.windowEnd die)
  .next (bump (ZG_BEAT_COUNT die) low s)

/-- The replica of a die is corrected from the hub timebase (R33). -/
def execReplicaCorrection (die : Die) (s : State) : Out :=
  .next { s with time := { s.time with replica := s.time.replica.set die.val s.now } }

end Sys2Proof.Machine
end

