-- ==== Sys2Proof/Machine/MgtOps.lean ====
section
/-! DEFINITION. The audit log (R557 to R559), the events of class 0x0C, and the enabled engine count (R469). -/
namespace Sys2Proof.Machine

/-! ### Events of class 0x0E (R566) -/

/-- An event of class 0x0E, from the hub; no rule writes it to the log ring. -/
def mgtEvent (code data sev : Nat) (s : State) : State :=
  raiseEvent { cls := 0x0E, code := code, data := data, alarm := sev, log := false } s

/-- An event of class 0x0E that counts its occurrences in a coalescing window: one record every 100 µs, with the occurrences
since the record before it, COALESCED when there was more than one (R306, R533, R544). -/
def windowEvent (code : Nat) (s : State) : State :=
  let (at_, n) := cget (0, 0) s.mgt.windows code
  if at_ ≠ 0 ∧ s.now + 1 < at_ + 100000 then
    { s with mgt := { s.mgt with windows := cset (0, 0) s.mgt.windows code (at_, n + 1) } }
  else
    let s := { s with mgt := { s.mgt with windows := cset (0, 0) s.mgt.windows code (s.now + 1, 0) } }
    assignEvent 0 { cls := 0x0E, code := code, data := (n + 1) % 4294967296 } (4 + if n = 0 then 0 else 8) (announceLost 0 s)

/-! ### The audit log (R557, R558) -/

/-- What an audit record says beside its place in the chain. -/
structure AuditRec where
  role : Nat := 0
  kind : Nat
  path : Nat
  part : Option Nat := none
  mcmd : Nat := 0
  result : Nat := 0
  counter : Nat := 0
  tenant : Nat := 0
  aux : Nat := 0
  subject : List Byte := []
  deriving DecidableEq, Repr

/-- The 128 bytes of an audit record. -/
def auditBytes (aseq now : Nat) (prev : List Byte) (r : AuditRec) : List Byte :=
  natLE 8 aseq ++ natLE 8 now ++ natLE 1 r.role ++ natLE 1 r.kind ++ natLE 1 r.path ++ natLE 1 (partByte r.part)
    ++ natLE 2 r.mcmd ++ natLE 2 r.result ++ natLE 8 r.counter ++ natLE 2 r.tenant ++ zeros 6 ++ natLE 8 r.aux
    ++ (r.subject ++ zeros 48).take 48 ++ (prev ++ zeros 32).take 32

/-- Whether the image in HBM still has the hash recorded at its load (R534, R581); an uncorrectable block counts as a mismatch. -/
def imageOk (s : State) : Bool × State :=
  match paRead (mgmtBase 3) (s.reg ZG_BOOT_IMG_LEN).toNat s with
  | (some b, s) => (decide (sha384 b = s.boot.imageHash), s)
  | (none, s) => (false, s)

/-- Where audit record `aseq` stands on CD1 and on CD2 (R541, R557). -/
def auditAddr (d aseq : Nat) : Nat := mgmtBase d + aseq % 131072 * 128

/-- Whether the log refuses an append: HEAD − FLOOR has reached 131,056, or 131,072 for AUDIT_TRIM (R558). -/
def State.auditFull (s : State) (trim : Bool) : Bool :=
  decide ((s.reg ZG_MGT_AUDIT_FLOOR).toNat + (if trim then 131072 else 131056) ≤ (s.reg ZG_MGT_AUDIT_HEAD).toNat)

/-- Append an audit record: to both copies, with the island's ASEQ and digest; false when the log refuses it (R557,
R558). -/
def auditAppend (trim : Bool) (r : AuditRec) (s : State) : Bool × State :=
  if s.auditFull trim then (false, mgtEvent 9 (s.reg ZG_MGT_AUDIT_HEAD).toNat 2 s)
  else
    let a := s.store.aseq + 1
    let bs := auditBytes a s.now s.store.digest r
    let s := paWrite (auditAddr 2 a) bs (paWrite (auditAddr 1 a) bs s)
    let s := { s with store := { s.store with aseq := a, digest := sha384 bs } }
    let s := s.setRegN ZG_MGT_AUDIT_HEAD a
    (true, if a = (s.reg ZG_MGT_AUDIT_FLOOR).toNat + 117964 then mgtEvent 8 a 1 s else s)

/-- The audit record of an audit-mode item: an event on the work of a partition in audit mode (R488). -/
def auditEvent (e : Ev) (s : State) : State :=
  match e.part with
  | some p =>
    if (s.part p).audit then
      (auditAppend false
        { kind := 3, path := 3, part := some p, tenant := (s.part p).tenant, aux := e.data,
          subject := eventBytes (s.fn (p + 1)).evAssigned s.now e e.src } s).2
    else s
  | none => s

/-! ### Class 0x0C (R494, R495) -/

/-- An event of class 0x0C on a die, with ZG_INT_LAST; the alarms are errors. -/
def intEvent (d code q : Nat) (part : Option Nat) (data sev : Nat) (s : State) : State :=
  let seq := (s.rfld (ZG_INT_LAST d) 49 36 + 1) % 16384
  let s := s.setRegN (ZG_INT_LAST d) (seq * 2 ^ 36 + code * 2 ^ 32 + q % 65536 * 65536)
  let s := s.setRegN (ZG_INT_LAST_NS d) s.now
  raiseEvent { cls := 0x0C, code := code, src := d, queue := q % 65536, part := part, data := data, alarm := sev } s

/-! ### The enabled engine count (R468, R469) -/

/-- Cluster `c` of die `d`. -/
def State.clus (s : State) (d c : Nat) : ClusterSt := cget {} s.clu.cl (d * 64 + c)

/-- Replace a cluster. -/
def State.setClus (s : State) (d c : Nat) (x : ClusterSt) : State :=
  { s with clu := { s.clu with cl := cset {} s.clu.cl (d * 64 + c) x } }

/-- Change a cluster. -/
def State.updClus (s : State) (d c : Nat) (g : ClusterSt → ClusterSt) : State := s.setClus d c (g (s.clus d c))

/-- Clusters enabled in the grade (R1, R601). -/
def State.gradeClusters (s : State) : Nat := s.rfld ZG_ID_CONFIG 63 56

/-- Whether a cluster of the grade is in service. -/
def State.clusterLive (s : State) (d c : Nat) : Bool := !(s.clus d c).degraded && !s.dieFailed d

/-- Clusters counted in E. -/
def State.liveClusters (s : State) : Nat :=
  ((List.range 4).map (fun d => ((List.range s.gradeClusters).filter (fun c => s.clusterLive d c)).length)).sum

/-- ZG_INTH_COUNT as the clusters give it (R469). -/
def setEngineCount (s : State) : State :=
  let n := s.liveClusters
  let deg := 4 * s.gradeClusters - n
  s.setRegN ZG_INTH_COUNT (min deg 255 * 2 ^ 48 + n * 2 ^ 39 + 128 * n)

/-- E follows the clusters; a change is told to the PF and every partition, and queues with another TARGET retire (R469). -/
def updateEngineCount (cluster : Nat) (s : State) : State :=
  let old := s.engines
  let s := setEngineCount s
  if s.engines = old then s
  else
    let e : Ev := { cls := 0x0C, code := 6, data := s.engines + cluster * 65536, alarm := 2 }
    let s := raiseEvent e s
    let s := s.partsNow.foldl (fun s p => postEvent (p + 1) e s) s
    (s.host.queues.map Prod.fst).foldl (fun s q => retireTarget q s) s

end Sys2Proof.Machine
end

