-- ==== Sys2Proof/Machine/SramOps.lean ====
section
/-! DEFINITION. Cluster SRAM: addresses, the word code, owners, carve-outs, and which commands name a cluster
(06_cluster_sram_vector.md R121 to R132). -/
namespace Sys2Proof.Machine

/-- Bytes of a cluster's SRAM (R121). -/
def sramSize : Nat := 0xC00000

/-- Start of the carve-out of die `d`: the bound of the owner's range (R130). -/
def State.sramBound (s : State) (d : Nat) : Nat := sramSize - s.clu.carve.getD d 0 * 0x20000

/-- Bank of an offset (R121). -/
def bankOf (a : Nat) : Nat := bitsOf a 10 6

/-- Line of an offset (R121). -/
def lineOf (a : Nat) : Nat := a / 2048

/-- The clusters lent to the filler queue `q`, ascending (R426). -/
def State.lentClusters (s : State) (q d : Nat) : List Nat :=
  (List.range 64).filter (fun c =>
    match (s.clus d c).loan with
    | some l => !l.sorrel && l.queue == q
    | none => false)

/-- The clusters of the loan that a command of a filler unit runs on; none for a command outside units (R425, R426). -/
def State.unitLoan (s : State) (q seq : Nat) : Option (List Nat) :=
  match (s.queue q).unit with
  | some u => if u.has seq then some (s.lentClusters q (s.queue q).die) else none
  | none => none

/-- The range of SRAM that a command addresses, as base and size: the owner's range, or the carve-out for the borrowed work
of a filler unit (R130, R131). -/
def State.sramWindow (s : State) (q seq d : Nat) : Nat × Nat :=
  if (s.unitLoan q seq).isSome then (s.sramBound d, sramSize - s.sramBound d) else (0, s.sramBound d)

/-! ### Owners (R128, R129) -/

/-- The owner byte of a cluster. -/
def State.cluOwner (s : State) (d c : Nat) : Nat := s.rfld (ZG_CLU_OWN d (c / 8)) (c % 8 * 8 + 7) (c % 8 * 8)

/-- Whether partition `p` owns a cluster: VALID, not PENDING, PART = p (R128, R129). -/
def State.ownsCluster (s : State) (p d c : Nat) : Bool := s.cluOwner d c == 128 + p

/-- The clusters of a descriptor's range. -/
def clusterRange (first count : Nat) : List Nat := (List.range count).map (first + ·)

/-- A refused command is counted once, with event 0x03.0x02 for the lowest cluster not owned (R128, R153). -/
def refuseOwner (d c q part tenant kind : Nat) (s : State) : State :=
  let s := bump (ZG_CLU_DENIED d) 1 s
  let data := c + tenant * 64 + part * 2 ^ 22 + kind * 2 ^ 28
  let o := s.cluOwner d c
  let s := raiseEvent { cls := 3, code := 2, src := d, queue := q % 65536, part := some part, data := data, log := true } s
  raiseEvent { cls := 3, code := 2, src := d, queue := q % 65536, data := data + o % 64 * 2 ^ 29 + o / 128 * 2 ^ 35, log := false } s

/-- The clusters of the package that a command's range names: its numbers, or under a loan the clusters lent (R426). -/
def State.cmdClusters (s : State) (q seq first count : Nat) : List Nat :=
  match s.unitLoan q seq with
  | some lent => (lent.drop first).take count
  | none => clusterRange first count

/-- A refusal of borrowed work that leaves the carve-out (R131): with the status of such an access. -/
def refuseCarve (q seq d c : Nat) (s : State) : State :=
  if (s.unitLoan q seq).isSome then refuseOwner d c q (s.queue q).part (s.queue q).tenant 1 s else s

/-- The number of a cluster within its command, as DETAIL and the per-cluster strides use it. -/
def relCluster (first : Nat) (cls : List Nat) (c : Nat) : Nat := first + cls.idxOf c

/-- The lowest of the clusters a dispatched command names that its partition does not own. A cluster owned at the dispatch
stays so until the command ends, whatever has been written to its owner byte since (R128, R129). -/
def State.notOwned (s : State) (q seq : Nat) (cs : List Nat) : Option Nat :=
  let x := s.queue q
  match (s.flight q seq).bind (·.refused) with
  | some k => some (k % 64)
  | none => cs.find? (fun c => s.cluOwner x.die c / 128 != 1 || s.cluOwner x.die c % 64 != x.part)

/-- The checks of R128 on the clusters a command names, after those of its body: the status, and the state with a refusal
recorded. Under a loan the clusters lent stand in place of those owned (R426). -/
def checkClusters (q seq first count : Nat) (s : State) : Nat × State :=
  let x := s.queue q
  let cs := s.cmdClusters q seq first count
  if (s.unitLoan q seq).isSome then
    (if cs.length < count then 3 else if cs.any (fun c => (s.clus x.die c).degraded) then 0x0601 else 0, s)
  else match s.notOwned q seq cs with
    | some c => (3, refuseOwner x.die c q x.part x.tenant 0 s)
    | none => if cs.any (fun c => (s.clus x.die c).degraded) then (0x0601, s) else (0, s)

/-- Whether a range of clusters is well formed: count from 1 to 64 within the enabled clusters. -/
def State.clusterRangeBad (s : State) (first count : Nat) : Bool :=
  count == 0 || decide (s.gradeClusters < first + count)

/-! ### The word code (R124 to R126) -/

/-- Set bits of a number of at most `n` bits. -/
def popCount : Nat → Nat → Nat
  | 0, _ => 0
  | n + 1, v => v % 2 + popCount n (v / 2)

/-- The first word of a line with an uncorrectable error. -/
def lineUe (x : ClusterSt) (line : Nat) : Option Nat :=
  (List.range 8).find? (fun w => decide (2 ≤ popCount 72 (cget 0 x.sramErrs (line * 8 + w))))

/-- Single-bit errors in a 64-byte line. -/
def lineCe (x : ClusterSt) (line : Nat) : Nat :=
  ((List.range 8).filter (fun w => popCount 72 (cget 0 x.sramErrs (line * 8 + w)) == 1)).length

/-- Readers of SRAM by the codes of ZG_CLU_ECC_LAST. -/
abbrev Reader := Nat

/-- An uncorrectable SRAM error is counted, recorded in ZG_CLU_ECC_LAST and raised as an alarm (R126, R153). DESIGN CHOICE (log
entry 62): the event's QUEUE is 0xFFFF, since the error is of a word of the cluster. -/
def sramUe (d c word : Nat) (reader : Reader) (part : Option Nat) (s : State) : State :=
  let a := word * 8
  let seq := (s.rfld (ZG_CLU_ECC_LAST d) 55 42 + 1) % 16384
  let v := seq * 2 ^ 42 + c * 2 ^ 36 + bankOf a * 2 ^ 31 + lineOf a * 2 ^ 18 + word % 8 * 2 ^ 15 + reader * 2 ^ 12
  let s := (bump (ZG_CLU_ECC_UE d) 1 s).setRegN (ZG_CLU_ECC_LAST d) v
  raiseEvent { cls := 3, code := 1, src := d, part := part, data := v, alarm := 2, log := false }
    (logRegister 3 1 d v s.now s)

/-- A line is read: single-bit errors are corrected for the reader, counted and marked for write-back (R125); an
uncorrectable word delivers nothing (R126). DESIGN CHOICE (log entry 62): of several such words the lowest is counted and
recorded. -/
def readLine (d c line : Nat) (reader : Reader) (part : Option Nat) (s : State) : Option (List Byte) × State :=
  let x := s.clus d c
  match lineUe x line with
  | some w => (none, sramUe d c (line * 8 + w) reader part s)
  | none =>
    let n := lineCe x line
    let s := if n = 0 then s else bump (ZG_CLU_ECC_CE d) n
      (s.updClus d c fun x => { x with writeBacks := x.writeBacks.filter (· ≠ line) ++ [line] })
    (some (cgetList 0 x.sram (line * 64) 64), s)

/-- Lines that `n` bytes from offset `a` touch. -/
def linesOf (a n : Nat) : List Nat :=
  if n = 0 then [] else (List.range ((a + n - 1) / 64 - a / 64 + 1)).map (a / 64 + ·)

/-- The lines of a list are read in order, up to the first that delivers nothing. -/
def readLines (d c : Nat) (reader : Reader) (part : Option Nat) : List Nat → State → Option (List Byte) × State
  | [], s => (some [], s)
  | l :: ls, s =>
    match readLine d c l reader part s with
    | (none, s) => (none, s)
    | (some x, s) =>
      match readLines d c reader part ls s with
      | (none, s) => (none, s)
      | (some y, s) => (some (x ++ y), s)

/-- `n` bytes of a cluster's SRAM from offset `a`; none on an uncorrectable error. -/
def sramRead (d c a n : Nat) (reader : Reader) (part : Option Nat) (s : State) : Option (List Byte) × State :=
  match readLines d c reader part (linesOf a n) s with
  | (none, s) => (none, s)
  | (some bs, s) => (some ((bs.drop (a % 64)).take n), s)

/-- Words that bytes `a` to `a + n - 1` cover only in part. -/
def partWords (a n : Nat) : List Nat :=
  if n = 0 then []
  else ((if a % 8 = 0 then [] else [a / 8]) ++ (if (a + n) % 8 = 0 then [] else [(a + n) / 8])).eraseDups

/-- Whether the word is uncorrectable. -/
def wordUe (x : ClusterSt) (w : Nat) : Bool := decide (2 ≤ popCount 72 (cget 0 x.sramErrs w))

/-- The single-bit errors of a line that is read, corrected and written back are gone (R124). -/
def fixLine (x : ClusterSt) (l : Nat) : ClusterSt :=
  { x with sramErrs := (List.range 8).foldl (fun m w =>
      if popCount 72 (cget 0 m (l * 8 + w)) = 1 then cset 0 m (l * 8 + w) 0 else m) x.sramErrs }

/-- Bytes at `a` cut at 64-byte lines; at most `k` pieces. -/
def cutLines : Nat → Nat → List Byte → List (Nat × List Byte)
  | 0, _, _ => []
  | k + 1, a, bs =>
    if bs = [] then [] else (a, bs.take (64 - a % 64)) :: cutLines k (a + (64 - a % 64)) (bs.drop (64 - a % 64))

/-- The bytes of a cluster's SRAM are stored: wholly covered words lose their errors, partly covered ones are corrected,
and a write-back of a written line is dropped (R124, R125). -/
def sramPut (d c a : Nat) (bs : List Byte) (s : State) : State :=
  s.updClus d c fun x =>
    let n := bs.length
    { x with sram := csetList 0 x.sram a bs,
             sramErrs := cclear x.sramErrs (a / 8) ((a + n + 7) / 8),
             writeBacks := x.writeBacks.filter (fun l => !(linesOf a n).contains l) }

/-- The pieces of a write, each within a line: a line of which a word is covered in part is read first, its single-bit errors are
counted and corrected, and an uncorrectable error in such a word leaves the line as it was and fails the writer (R124, R125).
DESIGN CHOICE (log entry 62): an uncorrectable error in another word of that line stays there and is not told of. -/
def sramWriteLines (d c : Nat) (unit : Reader) (part : Option Nat) : List (Nat × List Byte) → State → Bool × State
  | [], s => (true, s)
  | (a, bs) :: r, s =>
    let x := s.clus d c
    let ws := partWords a bs.length
    match ws.find? (wordUe x) with
    | some w => (false, sramUe d c w unit part s)
    | none =>
      let n := if ws = [] then 0 else lineCe x (a / 64)
      let s := if n = 0 then s else bump (ZG_CLU_ECC_CE d) n (s.updClus d c fun x => fixLine x (a / 64))
      sramWriteLines d c unit part r (sramPut d c a bs s)

/-- Bytes written within SRAM, line by line; false where a line could not be written, and then the lines before it are
(R124). -/
def sramWrite (d c a : Nat) (bs : List Byte) (unit : Reader) (part : Option Nat) (s : State) : Bool × State :=
  sramWriteLines d c unit part (cutLines (bs.length / 64 + 2) a bs) s

/-- Bytes that such a write stores before the first line that it cannot write. -/
def writableBytes (d c a : Nat) (bs : List Byte) (s : State) : Nat :=
  (((cutLines (bs.length / 64 + 2) a bs).takeWhile (fun p =>
    !(partWords p.1 p.2.length).any (wordUe (s.clus d c)))).map (fun p => p.2.length)).sum

/-- Bytes `lo` up to `hi` of a cluster's SRAM become zero with valid check bits. -/
def sramZero (d c lo hi : Nat) (s : State) : State :=
  s.updClus d c fun x => { x with sram := cclear x.sram lo hi, sramErrs := cclear x.sramErrs (lo / 8) (hi / 8),
                                  writeBacks := x.writeBacks.filter (fun l => decide (l < lo / 64) || decide (hi / 64 ≤ l)) }

/-! ### Commands that name clusters -/

/-- The commands that share the order of a cluster's vector engine or of its moves: DROPOUT with vector programs (R407),
ACT_STORE and ACT_LOAD with moves (R414). -/
def sharesOrder (o : Nat) : Nat := if o = 0xA0 then 0x20 else if o = 0xA1 ∨ o = 0xA2 then 0x21 else o

/-- Whether a command that shares the order of opcode `o` and was dispatched before command `f` on its die waits to begin in cluster
`c` (R138, R152, R407, R414). -/
def State.namedAhead (s : State) (q seq : Nat) (f : Flight) (o c : Nat) : Bool :=
  s.host.queues.any (fun p => !isAdmin p.1 && p.2.die == (s.queue q).die && p.2.flights.any (fun g =>
    g.ended.isNone && g.heldEnd.isNone && sharesOrder (dOpc g.desc) == o && g.phase == 0 && decide (g.order < f.order)
      && !(p.1 == q && g.seq == seq) &&
    match namedClusters g.desc with
    | some (first, n) => (s.cmdClusters p.1 g.seq first n).contains c
    | none => false))

/-- Whether a dispatched command that has not ended works on cluster `c` of die `d`. -/
def State.clusterInUse (s : State) (d c : Nat) : Bool :=
  s.host.queues.any (fun p => !isAdmin p.1 && p.2.die == d && p.2.flights.any (fun f => f.ended.isNone &&
    match namedClusters f.desc with
    | some (first, n) => (s.cmdClusters p.1 f.seq first n).contains c
    | none => false))

end Sys2Proof.Machine
end

