-- ==== Sys2Proof/Machine/Flags.lean ====
section
/-! DEFINITION. Rounding, overflow, special values and the exception flags of every conversion (03_number_formats.md R51
to R58, R65, R67). -/
namespace Sys2Proof.Machine

/-- The sticky flags of VSTAT (R55). -/
structure FpFlags where
  invalid : Bool := false
  overflow : Bool := false
  underflow : Bool := false
  inexact : Bool := false
  divzero : Bool := false
  deriving DecidableEq, Repr

/-- Flags set together. -/
def FpFlags.or (a b : FpFlags) : FpFlags :=
  ⟨a.invalid || b.invalid, a.overflow || b.overflow, a.underflow || b.underflow, a.inexact || b.inexact,
   a.divzero || b.divzero⟩

/-- Rounding modes (R51); 5 to 7 are reserved. -/
def rmValid (rm : Nat) : Bool := decide (rm ≤ 4)

/-- Whether the magnitude keep + rem / 2^sh rounds up (R51, R56): sign, kept integer, remainder, discarded bits, and the
16 random bits. -/
def roundsUp (rm : Nat) (s : Bool) (keep rem sh r : Nat) : Bool :=
  if rm = 0 then decide (2 ^ sh < 2 * rem) || (decide (2 * rem = 2 ^ sh) && keep % 2 == 1)
  else if rm = 1 then false
  else if rm = 2 then s && rem != 0
  else if rm = 3 then !s && rem != 0
  else decide (65536 ≤ rem * 65536 / 2 ^ sh + r)

/-- The magnitude m × 2^e rounded to a multiple of 2^q, in units of 2^q, and whether it is inexact (R52, R56). -/
def roundMag (rm : Nat) (s : Bool) (m : Nat) (e q : Int) (r : Nat) : Nat × Bool :=
  if q ≤ e then (m * 2 ^ (e - q).toNat, false)
  else
    let sh := (q - e).toNat
    let keep := m / 2 ^ sh
    let rem := m % 2 ^ sh
    (if roundsUp rm s keep rem sh r then keep + 1 else keep, rem != 0)

/-- A sign bit above a magnitude of `n` bits. -/
def withSign (s : Bool) (n v : Nat) : Nat := v + b2n s * 2 ^ n

/-- The largest finite encoding of a layout, sign aside (R40). -/
def maxFinite (l : FloatLayout) : Nat :=
  match l.special with
  | .ieee => (2 ^ l.ebits - 1) * 2 ^ l.mbits - 1
  | .e4m3 => 2 ^ (l.ebits + l.mbits) - 2
  | .finite => 2 ^ (l.ebits + l.mbits) - 1

/-- The infinity of an IEEE layout, sign aside. -/
def infinity (l : FloatLayout) : Nat := (2 ^ l.ebits - 1) * 2 ^ l.mbits

/-- The canonical NaN: of an IEEE layout, or of E4M3 (R41). -/
def canonNaN (l : FloatLayout) : Nat :=
  if l.special = .e4m3 then 2 ^ (l.ebits + l.mbits) - 1 else infinity l + 2 ^ (l.mbits - 1)

/-- The result of overflow in a floating-point destination, sign aside (R53). -/
def overflowTo (l : FloatLayout) (rm : Nat) (sat s : Bool) : Nat :=
  match l.special with
  | .finite => maxFinite l
  | .e4m3 => if sat then maxFinite l else canonNaN l
  | .ieee =>
    if sat || rm == 1 || (rm == 2 && !s) || (rm == 3 && s) then maxFinite l else infinity l

/-- Encode with a sign, but that the canonical NaN has none (R41). -/
def signed (l : FloatLayout) (s : Bool) (v : Nat) : Nat :=
  if v = canonNaN l ∧ l.special ≠ .finite then v else withSign s (l.ebits + l.mbits) v

/-- Convert to a floating-point layout; `flush` takes results below the smallest normal to zero (R51 to R57, R67). INEXACT is
set wherever the result differs from the source, an infinite or NaN source included (R55; DEDUCED, log entry 58). -/
def toFloat (l : FloatLayout) (flush : Bool) (rm : Nat) (sat : Bool) (r : Nat) (x : Num) : Nat × FpFlags :=
  match x.cls with
  | .zero => (withSign x.s (l.ebits + l.mbits) 0, {})
  | .nan => if l.special = .finite then (0, { invalid := true, inexact := true }) else (canonNaN l, {})
  | .inf =>
    match l.special with
    | .finite => (withSign x.s (l.ebits + l.mbits) (maxFinite l), { invalid := true, inexact := true })
    | .e4m3 => (signed l x.s (if sat then maxFinite l else canonNaN l), { inexact := true })
    | .ieee => (withSign x.s (l.ebits + l.mbits) (if sat then maxFinite l else infinity l), { inexact := sat })
  | .fin =>
    let emin := 1 - l.bias
    let ex := (Nat.log2 x.m : Int) + x.e
    if flush && decide (ex < emin) then
      (withSign x.s (l.ebits + l.mbits) 0, { underflow := true, inexact := true })
    else
      let q := max ex emin - l.mbits
      let (keep, inexact) := roundMag rm x.s x.m x.e q r
      let mag := (q - (emin - l.mbits)).toNat * 2 ^ l.mbits + keep
      if maxFinite l < mag then (signed l x.s (overflowTo l rm sat x.s), { overflow := true, inexact := true })
      else (withSign x.s (l.ebits + l.mbits) (if keep = 0 then 0 else mag),
            { inexact := inexact, underflow := inexact && decide (ex < emin) })

/-- Convert to a two's-complement integer of `w` bits (R52 to R55). -/
def toInt (w rm r : Nat) (x : Num) : Nat × FpFlags :=
  let big := fun (s : Bool) => if s then 2 ^ (w - 1) else 2 ^ (w - 1) - 1
  match x.cls with
  | .zero => (0, {})
  | .nan => (0, { invalid := true, inexact := true })
  | .inf => (big x.s, { invalid := true, inexact := true })
  | .fin =>
    let (keep, inexact) := roundMag rm x.s x.m x.e 0 r
    if big x.s < keep then (big x.s, { overflow := true, inexact := true })
    else ((if x.s then (2 ^ w - keep) % 2 ^ w else keep), { inexact := inexact })

/-- A conversion to a non-MX format (R51 to R57): the encoding and the flags. -/
def convert (reduced : Bool) (code rm : Nat) (sat : Bool) (r : Nat) (x : Num) : Nat × FpFlags :=
  match layoutOf code with
  | some l => toFloat l (reduced && code == 0) rm sat r x
  | none => toInt (fmtWidth code) rm r x

/-- The converted encoding alone, for the units that raise no flags (R55, R65). -/
def convertTo (reduced : Bool) (code rm : Nat) (sat : Bool) (r : Nat) (x : Num) : Nat := (convert reduced code rm sat r x).1

/-- A binary32 result of an exact value, rounded once (R41, R51 to R54). -/
def toF32 (reduced : Bool) (x : Num) : Nat × FpFlags := convert reduced 0 0 false 0 x

/-! ### Maximum and minimum (R166) -/

/-- An element with a binary32 subnormal read as zero in reduced service (R67). -/
def flushEnc (reduced : Bool) (fmt v : Nat) : Nat :=
  if reduced && fmt == 0 && bitsOf v 30 23 == 0 then v / 0x80000000 * 0x80000000 else v

/-- The place of an element's encoding in the order of values, −0 below +0 (R166). -/
def elemRank (fmt v : Nat) : Int :=
  let w := fmtWidth fmt
  if fmt = 7 then sext 32 v else if v.testBit (w - 1) then Int.ofNat (2 ^ w - 1 - v) else Int.ofNat (v + 2 ^ (w - 1))

/-- The identity of MAX and MIN (R166): −∞ or +∞, or the ends of INT32. -/
def redIdentity (fmt red : Nat) : Nat :=
  if fmt = 7 then (if red = 1 then 0x80000000 else 0x7FFFFFFF)
  else match layoutOf fmt with
    | some l => withSign (red == 1) (l.ebits + l.mbits) (infinity l)
    | none => 0

/-- MAX or MIN over the contributions (R166). -/
def redExtreme (reduced : Bool) (fmt red : Nat) (vs : List Nat) : Nat :=
  let vs := vs.map (flushEnc reduced fmt)
  let nan := vs.any (fun v => (decodeElem reduced fmt v).cls == .nan)
  match layoutOf fmt, vs with
  | some l, v :: r => if nan then canonNaN l else r.foldl (fun a c => pick a c) v
  | none, v :: r => r.foldl (fun a c => pick a c) v
  | _, [] => redIdentity fmt red
where
  /-- The larger or the smaller of two elements. -/
  pick (a c : Nat) : Nat := if red = 1 then (if elemRank fmt a < elemRank fmt c then c else a)
    else (if elemRank fmt c < elemRank fmt a then c else a)

end Sys2Proof.Machine
end

