-- ==== Sys2Proof/Machine/VectorMath.lean ====
section
/-! DEFINITION. The arithmetic of the vector engine's lanes: binary32 and INT32 operations, special functions, random
values (06_cluster_sram_vector.md R145 to R148; 14_training_support.md R398, R399). -/
namespace Sys2Proof.Machine

/-! ### Binary32 (R145) -/

/-- A binary32 operand (R67, R72). -/
def f32 (reduced : Bool) (v : Nat) : Num := decodeElem reduced 0 v

/-- A NaN whose fraction bit [22] is clear (R42). -/
def isSnan (v : Nat) : Bool := bitsOf v 30 23 == 255 && bitsOf v 22 0 != 0 && !bitOf v 22

/-- INVALID where an operand is a NaN with bit [22] clear. -/
def snanFlag (vs : List Nat) : FpFlags := { invalid := vs.any isSnan }

/-- Sum of two numbers, exactly; a sum of exact opposites is +0; whether it is ∞ − ∞ (R145). -/
def addNum (a b : Num) : Num × Bool :=
  match a.cls, b.cls with
  | .nan, _ => (⟨.nan, false, 0, 0⟩, false)
  | _, .nan => (⟨.nan, false, 0, 0⟩, false)
  | .inf, .inf => if a.s = b.s then (a, false) else (⟨.nan, false, 0, 0⟩, true)
  | .inf, _ => (a, false)
  | _, .inf => (b, false)
  | .zero, .zero => (⟨.zero, a.s && b.s, 0, 0⟩, false)
  | .zero, .fin => (b, false)
  | .fin, .zero => (a, false)
  | .fin, .fin =>
    let e := min a.e b.e
    let v := (if a.s then -1 else 1) * ((a.m * 2 ^ (a.e - e).toNat : Nat) : Int)
           + (if b.s then -1 else 1) * ((b.m * 2 ^ (b.e - e).toNat : Nat) : Int)
    if v = 0 then (⟨.zero, false, 0, 0⟩, false) else (⟨.fin, v < 0, v.natAbs, e⟩, false)

/-- Product of two numbers, exactly, and whether it is 0 × ∞. -/
def mulExact (a b : Num) : Num × Bool :=
  let s := a.s != b.s
  match a.cls, b.cls with
  | .nan, _ => (⟨.nan, false, 0, 0⟩, false)
  | _, .nan => (⟨.nan, false, 0, 0⟩, false)
  | .inf, .zero => (⟨.nan, false, 0, 0⟩, true)
  | .zero, .inf => (⟨.nan, false, 0, 0⟩, true)
  | .inf, _ => (⟨.inf, s, 0, 0⟩, false)
  | _, .inf => (⟨.inf, s, 0, 0⟩, false)
  | .zero, _ => (⟨.zero, s, 0, 0⟩, false)
  | _, .zero => (⟨.zero, s, 0, 0⟩, false)
  | .fin, .fin => (⟨.fin, s, a.m * b.m, a.e + b.e⟩, false)

/-- The negative of a number. -/
def negNum (n : Bool) (x : Num) : Num := if n && x.cls != .nan then { x with s := !x.s } else x

/-- A result rounded once to binary32, with the flags so far. -/
def round32 (reduced : Bool) (x : Num) (fl : FpFlags) : Nat × FpFlags :=
  let (v, f) := toF32 reduced x
  (v, fl.or f)

/-- FADD. -/
def fadd (reduced : Bool) (a b : Nat) : Nat × FpFlags :=
  let (x, bad) := addNum (f32 reduced a) (f32 reduced b)
  round32 reduced x ((snanFlag [a, b]).or { invalid := bad })

/-- FMUL, with an optional negated product. -/
def fmul (reduced neg : Bool) (a b : Nat) : Nat × FpFlags :=
  let (x, bad) := mulExact (f32 reduced a) (f32 reduced b)
  round32 reduced (negNum neg x) ((snanFlag [a, b]).or { invalid := bad })

/-- FMA: the product and the sum exact, rounded once. -/
def fma (reduced negP negC : Bool) (a b c : Nat) : Nat × FpFlags :=
  let (p, bad1) := mulExact (f32 reduced a) (f32 reduced b)
  let (x, bad2) := addNum (negNum negP p) (negNum negC (f32 reduced c))
  round32 reduced x ((snanFlag [a, b, c]).or { invalid := bad1 || bad2 })

/-- Whether a < b, −0 below +0 when `zeros`; neither is NaN. -/
def numLt (zeros : Bool) (a b : Num) : Bool :=
  let v := fun (x : Num) (e : Int) => (if x.s then -1 else 1) * ((x.m * 2 ^ (x.e - e).toNat : Nat) : Int)
  match a.cls, b.cls with
  | .inf, .inf => a.s && !b.s
  | .inf, _ => a.s
  | _, .inf => !b.s
  | .zero, .zero => zeros && a.s && !b.s
  | .zero, _ => !b.s
  | _, .zero => a.s
  | _, _ => let e := min a.e b.e; decide (v a e < v b e)

/-- FMIN and FMAX (R145). -/
def fminmax (reduced max : Bool) (a b : Nat) : Nat × FpFlags :=
  let x := f32 reduced a
  let y := f32 reduced b
  if x.cls == .nan || y.cls == .nan then (0x7FC00000, snanFlag [a, b])
  else
    let lt := numLt true x y
    round32 reduced (if lt == max then y else x) {}

/-- FABS and FNEG: the sign bit of a non-NaN value, with no flag; a NaN is the canonical NaN (R41, R145). -/
def fsign (reduced neg : Bool) (a : Nat) : Nat × FpFlags :=
  let x := f32 reduced a
  if x.cls == .nan then (0x7FC00000, {})
  else (convertTo reduced 0 0 false 0 { x with s := neg && !x.s }, {})

/-- FCMP: 0 EQ, 1 LT, 2 LE, 3 UNORD; LT and LE with a NaN are invalid (R145). -/
def fcmp (reduced : Bool) (pred a b : Nat) : Bool × FpFlags :=
  let x := f32 reduced a
  let y := f32 reduced b
  let nan := x.cls == .nan || y.cls == .nan
  let fl := (snanFlag [a, b]).or { invalid := nan && (pred == 1 || pred == 2) }
  if pred = 3 then (nan, fl)
  else if nan then (false, fl)
  else
    let lt := numLt false x y
    let gt := numLt false y x
    (if pred = 0 then !lt && !gt else if pred = 1 then lt else !gt, fl)

/-! ### INT32 and logic (R147) -/

/-- An INT32 operation by opcode, wrapping modulo 2^32. -/
def intOp (opc a b : Nat) : Nat :=
  let x := sext 32 a
  let y := sext 32 b
  if opc = 0x30 then wrapInt 32 (x + y)
  else if opc = 0x31 then wrapInt 32 (x - y)
  else if opc = 0x32 then wrapInt 32 (x * y)
  else if opc = 0x33 then a * 2 ^ (b % 32) % 4294967296
  else if opc = 0x34 then wrapInt 32 (x / (2 ^ (b % 32) : Nat))
  else if opc = 0x35 then Nat.land a b
  else if opc = 0x36 then Nat.lor a b
  else if opc = 0x37 then Nat.xor a b
  else if opc = 0x38 then wrapInt 32 (min x y)
  else wrapInt 32 (max x y)

/-- ICMP: 0 EQ, 1 LT, 2 LE. -/
def icmp (pred a b : Nat) : Bool :=
  let x := sext 32 a
  let y := sext 32 b
  if pred = 0 then decide (x = y) else if pred = 1 then decide (x < y) else decide (x ≤ y)

/-! ### Special functions (R146) -/

/-- Bit by bit: the largest r with r² ≤ n and r below 2^k. -/
def isqrtBits (n : Nat) : Nat → Nat → Nat
  | 0, r => r
  | k + 1, r => let t := r + 2 ^ k; isqrtBits n k (if t * t ≤ n then t else r)

/-- Integer square root. -/
def isqrt (n : Nat) : Nat := isqrtBits n (Nat.log2 n / 2 + 1) 0

/-- A value known to lie between n and n + 1 units of 2^e, as an exact number that rounds as it does: the last bit stands
for what lies between. -/
def stickyNum (s : Bool) (n : Nat) (exact : Bool) (e : Int) : Num := ⟨.fin, s, 2 * n + b2n (!exact), e - 1⟩

/-- RCP. -/
def rcp (reduced : Bool) (a : Nat) : Nat × FpFlags :=
  let x := f32 reduced a
  match x.cls with
  | .nan => (0x7FC00000, snanFlag [a])
  | .zero => (withSign x.s 31 0x7F800000, { divzero := true })
  | .inf => (withSign x.s 31 0, {})
  | .fin =>
    let k := Nat.log2 x.m + 64
    round32 reduced (stickyNum x.s (2 ^ k / x.m) (2 ^ k % x.m == 0) (-(k : Int) - x.e)) {}

/-- RSQRT. -/
def rsqrt (reduced : Bool) (a : Nat) : Nat × FpFlags :=
  let x := f32 reduced a
  match x.cls with
  | .nan => (0x7FC00000, snanFlag [a])
  | .zero => (withSign x.s 31 0x7F800000, { divzero := true })
  | .inf => if x.s then (0x7FC00000, { invalid := true }) else (0, {})
  | .fin =>
    if x.s then (0x7FC00000, { invalid := true })
    else
      let m := if x.e % 2 = 0 then x.m else 2 * x.m
      let e := if x.e % 2 = 0 then x.e else x.e - 1
      let k := Nat.log2 m + 64
      let n := isqrt (2 ^ (2 * k) / m)
      round32 reduced (stickyNum false n (n * n * m == 2 ^ (2 * k)) (-(k : Int) - e / 2)) {}

/-- ln 2 in units of 2^-320. -/
def ln2Fix : Nat := 0xb17217f7d1cf79abc9e3b39803f2f6af40f343267298b62d8a0d175b8baafa2be7b876206debac98

/-- Terms of the exponential series in units of 2^-320: `k` terms from term number `n` on. -/
def expTerms (y : Nat) : Nat → Nat → Nat → Nat
  | 0, _, _ => 0
  | k + 1, n, t => t + expTerms y k (n + 1) (t * y / 2 ^ 320 / n)

/-- 2^x for a finite x: exact for an integer, else the value of the series to 2^-300, which no binary32 argument lies
nearer to a rounding boundary than. -/
def exp2Num (x : Num) : Num :=
  if 8 ≤ (Nat.log2 x.m : Int) + x.e then (if x.s then ⟨.fin, false, 1, -400⟩ else ⟨.fin, false, 1, 400⟩)
  else
    let den : Nat := 2 ^ (-x.e).toNat
    let num : Int := signedMag32 x.s (x.m * 2 ^ x.e.toNat)
    let i := num / (den : Int)
    let f := (num % (den : Int)).toNat
    if f = 0 then ⟨.fin, false, 1, i⟩
    else stickyNum false (expTerms (f * ln2Fix / den) 80 1 (2 ^ 320)) false (i - 320)
where
  /-- A signed magnitude. -/
  signedMag32 (s : Bool) (m : Nat) : Int := if s then -(m : Int) else m

/-- EXP2. -/
def exp2 (reduced : Bool) (a : Nat) : Nat × FpFlags :=
  let x := f32 reduced a
  match x.cls with
  | .nan => (0x7FC00000, snanFlag [a])
  | .zero => (0x3F800000, {})
  | .inf => if x.s then (0, {}) else (0x7F800000, {})
  | .fin => round32 reduced (exp2Num x) {}

/-- Bits of log2 of t in units of 2^-500, t from 1 to below 2: repeated squaring. -/
def log2Bits : Nat → Nat → Nat → Nat
  | 0, _, acc => acc
  | k + 1, t, acc =>
    let t2 := t * t / 2 ^ 500
    if 2 ^ 501 ≤ t2 then log2Bits k (t2 / 2) (2 * acc + 1) else log2Bits k t2 (2 * acc)

/-- log2 of a positive finite x: exact for a power of two, else to 2^-180. -/
def log2Num (x : Num) : Num :=
  let l := Nat.log2 x.m
  let i := (l : Int) + x.e
  if x.m = 2 ^ l then (if i = 0 then ⟨.zero, false, 0, 0⟩ else ⟨.fin, i < 0, i.natAbs, 0⟩)
  else
    let f := log2Bits 180 (x.m * 2 ^ 500 / 2 ^ l) 0
    if 0 ≤ i then stickyNum false (i.toNat * 2 ^ 180 + f) false (-180)
    else stickyNum true (i.natAbs * 2 ^ 180 - f - 1) false (-180)

/-- LOG2. -/
def log2 (reduced : Bool) (a : Nat) : Nat × FpFlags :=
  let x := f32 reduced a
  match x.cls with
  | .nan => (0x7FC00000, snanFlag [a])
  | .zero => (0xFF800000, { divzero := true })
  | .inf => if x.s then (0x7FC00000, { invalid := true }) else (0x7F800000, {})
  | .fin => if x.s then (0x7FC00000, { invalid := true }) else round32 reduced (log2Num x) {}

/-! ### Reductions (R148) -/

/-- VRED's combination of two lanes: 0 FSUM, 1 FMAX, 2 FMIN, 3 ISUM, 4 IMAX, 5 IMIN. -/
def redCombine (reduced : Bool) (op a b : Nat) : Nat × FpFlags :=
  if op = 0 then fadd reduced a b
  else if op = 1 then fminmax reduced true a b
  else if op = 2 then fminmax reduced false a b
  else if op = 3 then (intOp 0x30 a b, {})
  else if op = 4 then (intOp 0x39 a b, {})
  else (intOp 0x38 a b, {})

/-- The neutral value of a masked lane (R148). -/
def redNeutral (op : Nat) : Nat :=
  if op = 0 then 0x80000000 else if op = 1 then 0xFF800000 else if op = 2 then 0x7F800000
  else if op = 3 then 0 else if op = 4 then 0x80000000 else 0x7FFFFFFF

/-- The fixed tree over 2^k lanes (R148). -/
def redTree (reduced : Bool) (op : Nat) : Nat → List Nat → FpFlags → Nat × FpFlags
  | 0, vs, fl => (vs.headD 0, fl)
  | k + 1, vs, fl =>
    let rs := List.zipWith (redCombine reduced op) (vs.take (2 ^ k)) (vs.drop (2 ^ k))
    redTree reduced op k (rs.map Prod.fst) (rs.foldl (fun f r => f.or r.2) fl)

/-! ### Random values (R58, R399) -/

/-- The 16-bit value of element index `i` under a binding (R399, R58). -/
def drawRandom (seed job mbatch layer site purpose i : Nat) : Nat :=
  let b := i % two64 / 8
  let x := philox (b % 4294967296) (b / 4294967296) (layer * 65536 + site * 1024 + purpose * 128) mbatch seed job
  let j := i % 8
  let w := philoxWord x (j / 2)
  if j % 2 = 0 then w % 65536 else w / 65536

end Sys2Proof.Machine
end

