-- ==== Sys2Proof/Machine/VectorOps.lean ====
section
/-! DEFINITION. The vector engine: registers, the issue of an instruction, faults, the end of a program
(06_cluster_sram_vector.md R141 to R152). -/
namespace Sys2Proof.Machine

/-! ### Registers (R141) -/

/-- The 256 lanes of a vector register. -/
def ClusterSt.vreg (x : ClusterSt) (r : Nat) : List Nat := cget (List.replicate 256 0) x.vregs r

/-- Write a vector register. -/
def ClusterSt.setVreg (x : ClusterSt) (r : Nat) (v : List Nat) : ClusterSt :=
  { x with vregs := cset (List.replicate 256 0) x.vregs r v }

/-- A scalar register; X0 reads as zero. -/
def ClusterSt.xreg (x : ClusterSt) (r : Nat) : Nat := if r = 0 then 0 else cget 0 x.xregs r

/-- Write a scalar register; X0 ignores writes. -/
def ClusterSt.setXreg (x : ClusterSt) (r v : Nat) : ClusterSt :=
  if r = 0 then x else { x with xregs := cset 0 x.xregs r (v % two64) }

/-- All 256 mask bits. -/
def allLanes : Nat := 2 ^ 256 - 1

/-- A lane mask; MK0 reads as all ones. -/
def ClusterSt.mask (x : ClusterSt) (k : Nat) : Nat := if k = 0 then allLanes else cget allLanes x.masks k

/-- Write a lane mask; MK0 ignores writes. -/
def ClusterSt.setMask (x : ClusterSt) (k v : Nat) : ClusterSt :=
  if k = 0 then x else { x with masks := cset allLanes x.masks k v }

/-- Sticky flags join VSTAT (R149). -/
def ClusterSt.raise (x : ClusterSt) (f : FpFlags) : ClusterSt :=
  { x with vstat := Nat.lor x.vstat (b2n f.divzero * 16 + b2n f.invalid * 8 + b2n f.overflow * 4 + b2n f.underflow * 2
                                     + b2n f.inexact) }

/-- The bytes of a vector register. -/
def laneBytes (v : List Nat) : List Byte := (v.map (natLE 4)).flatten

/-- The lanes of 1,024 bytes. -/
def bytesLanes (bs : List Byte) : List Nat := (List.range 256).map (fun l => getLE bs (4 * l) 4)

/-- The stochastic-rounding context of a number. -/
def ClusterSt.ctx (x : ClusterSt) (k : Nat) : SrCtx := cget {} x.ctxs k

/-- The random value of lane `l` under a context (R58, R61, R399). -/
def SrCtx.draw (c : SrCtx) (l : Nat) : Nat := drawRandom c.seed c.job c.mbatch c.layer c.site c.purpose (c.ibase + l)

/-! ### The end of a program (R150, R152) -/

/-- The failing cluster with the lowest number, as (cluster, status). -/
def lowestFail (ends : List (Nat × Nat)) : Option (Nat × Nat) :=
  (ends.filter (fun p => p.2 != 0)).foldl (fun b p =>
    match b with
    | some q => if p.1 < q.1 then some p else some q
    | none => some p) none

/-- A command whose named clusters have all ended: success, or the status and number of the lowest-numbered failing one
(R264 DETAIL). -/
def endClusters (q seq : Nat) (ends : List (Nat × Nat)) (s : State) : State :=
  match lowestFail ends with
  | some (c, st) => endCommand q seq st c s
  | none => endCommand q seq 0 0 s

/-- One cluster of a command has ended; `done` runs once every named cluster has. -/
def clusterEnded (q seq c status count : Nat) (s : State) (done : List (Nat × Nat) → State → State) : State :=
  match s.flight q seq with
  | none => s
  | some f =>
    let ends := f.clusterEnds.filter (fun p => p.1 != c) ++ [(c, status)]
    let s := s.updFlight q seq (fun f => { f with clusterEnds := ends })
    if ends.length < count then s else done ends s

/-- The program of a cluster ends: once every named cluster has ended, the final VSTAT values are written and the command
completes (R152). -/
def finishProg (d c : Nat) (p : VProg) (status : Nat) (s0 s : State) : State :=
  let s := s.updClus d c fun x => { x with prog := none }
  clusterEnded p.queue p.seq (relCluster p.clFirst p.cls c) status p.cls.length s fun ends s =>
    if p.flagsVa = 0 then endClusters p.queue p.seq ends s
    else match s.flight p.queue p.seq with
      | none => s
      | some f =>
        let rq := s.req p.queue f 6
        let w := (p.cls.map (fun c => natLE 4 (s.clus d c).vstat)).flatten
        finishAcc p.queue p.seq rq s0 (vaWrite rq p.flagsVa w s) fun _ s => endClusters p.queue p.seq ends s

/-- A fault of a vector program is recorded in ZG_CLU_VFAULT, logged and raised, and stops the program in its cluster:
KIND 1 illegal instruction, 2 access fault, 3 MAX_BEATS (R150, R152 to R154). -/
def vectorFault (d c : Nat) (p : VProg) (kind opc : Nat) (s : State) : State :=
  let seq := (s.rfld (ZG_CLU_VFAULT d) 12 0 + 1) % 8192
  let v := opc * 2 ^ 32 + c * 2 ^ 26 + kind * 2 ^ 24 + p.pc % 2048 * 8192 + seq
  let s1 := logRegister 3 3 d v s.now (s.setRegN (ZG_CLU_VFAULT d) v)
  let s1 := raiseEvent { cls := 3, code := 3, src := d, queue := p.queue % 65536, part := s.queuePart p.queue, data := v,
                         log := false } s1
  let s1 := if kind = 2 then refuseCarve p.queue p.seq d c s1 else s1
  finishProg d c p (if kind = 1 then 0x10 else if kind = 2 then 3 else 6) s s1

/-! ### Issue (R143, R150) -/

/-- The allocated opcodes of R143 and their issue intervals in beats. -/
def vopBeats (o : Nat) : Option Nat :=
  if (1 ≤ o ∧ o ≤ 4) ∨ (0x10 ≤ o ∧ o ≤ 0x15) ∨ o = 0x18 ∨ (0x20 ≤ o ∧ o ≤ 0x27) ∨ (0x30 ≤ o ∧ o ≤ 0x3A)
      ∨ (0x40 ≤ o ∧ o ≤ 0x42) ∨ o = 0x48 ∨ (0x50 ≤ o ∧ o ≤ 0x52) ∨ o = 0x61 ∨ o = 0x80 then some 1
  else if o = 0x60 then some 8
  else if 0x70 ≤ o ∧ o ≤ 0x73 then some 4
  else none

/-- What an instruction does. -/
inductive VAct where
  /-- It ran; the next instruction follows, or the one named. -/
  | go (s : State) (next : Option Nat)
  /-- It is illegal, or its access faults: it has no effect (R150). -/
  | illegal
  | access
  /-- An uncorrectable SRAM error stops the program (R126). -/
  | ue (s : State)
  /-- END. -/
  | stop

/-- The end of LOOP bodies: the innermost body runs again, or is left (R144). -/
def loopNext : List VLoop → Nat → List VLoop × Nat
  | [], next => ([], next)
  | l :: ls, next =>
    if next = l.last then
      if 2 ≤ l.left then ({ l with left := l.left - 1 } :: ls, l.first) else loopNext ls next
    else (l :: ls, next)

/-- The program goes on after an instruction. -/
def vadvance (d c : Nat) (beats : Nat) (next : Option Nat) (s : State) : State :=
  s.updClus d c fun x =>
    match x.prog with
    | none => x
    | some p =>
      let (ls, pc) := loopNext p.loops (next.getD (p.pc + 1))
      { x with prog := some { p with pc := pc, loops := ls, beats := p.beats + beats } }

/-- The engine of a cluster issues the instruction at its program's place: the command of another opcode does not come
about; an unallocated opcode is illegal; past the last instruction the program ends (R143, R150, R152). DESIGN CHOICE (log entry
60): the end of the buffer that acts as END is the end of the CODE_LEN words loaded. -/
def vissue (d c opc : Nat) (s : State) (g : VProg → Nat → ClusterSt → VAct) : State :=
  let x := s.clus d c
  match x.prog with
  | none => s
  | some p =>
    if p.maxBeats ≠ 0 ∧ p.maxBeats ≤ p.beats then s
    else if x.ibuf.length ≤ p.pc then finishProg d c p 0 s s
    else
      let w := x.ibuf.getD p.pc 0
      let o := w / 2 ^ 56
      match vopBeats o with
      | none => vectorFault d c p 1 o s
      | some beats =>
        if o ≠ opc then s
        else match g p w x with
          | .go s1 next => vadvance d c beats next (pmcCount d 2 (s.queuePart p.queue) 1 s1)
          | .illegal => vectorFault d c p 1 o s
          | .access => vectorFault d c p 2 o s
          | .ue s1 => finishProg d c p 0x30 s s1
          | .stop => finishProg d c p 0 s (pmcCount d 2 (s.queuePart p.queue) 1 s)

/-- An instruction that changes its cluster alone. -/
def vgo (d c : Nat) (s : State) (x : ClusterSt) : VAct := .go (s.setClus d c x) none

/-! ### The three-source form -/

/-- Fields of the three-source form. -/
structure Vf where
  vd : Nat
  va : Nat
  vb : Nat
  vc : Nat
  msk : Nat
  negP : Bool
  negC : Bool
  deriving DecidableEq, Repr

/-- The fields of an instruction in the three-source form. -/
def vfields (w : Nat) : Vf :=
  ⟨bitsOf w 55 50, bitsOf w 49 44, bitsOf w 43 38, bitsOf w 37 32, bitsOf w 31 29, bitOf w 28, bitOf w 27⟩

/-- An operation on each lane of the mask: `n` of its three sources are used, `np` tells whether it takes NEG_P and NEG_C. -/
def vlanes (d c n : Nat) (np nc : Bool) (s : State) (w : Nat) (x : ClusterSt)
    (g : Vf → Nat → Nat → Nat → Nat × FpFlags) : VAct :=
  let f := vfields w
  if bitsOf w 26 0 ≠ 0 ∨ (n < 3 ∧ f.vc ≠ 0) ∨ (n < 2 ∧ f.vb ≠ 0) ∨ (!np && f.negP) = true ∨ (!nc && f.negC) = true then .illegal
  else
    let m := x.mask f.msk
    let rs := (List.range 256).map (fun l =>
      if bitOf m l then g f ((x.vreg f.va).getD l 0) ((x.vreg f.vb).getD l 0) ((x.vreg f.vc).getD l 0)
      else ((x.vreg f.vd).getD l 0, {}))
    vgo d c s ((x.setVreg f.vd (rs.map Prod.fst)).raise (rs.foldl (fun a r => a.or r.2) {}))

/-- A compare writing a lane mask: predicates up to `most`. -/
def vcompare (d c most : Nat) (s : State) (w : Nat) (x : ClusterSt) (g : Nat → Nat → Nat → Bool × FpFlags) : VAct :=
  let f := vfields w
  if bitsOf w 26 0 ≠ 0 ∨ bitsOf w 55 53 ≠ 0 ∨ most < f.vc ∨ f.negP = true ∨ f.negC = true then .illegal
  else
    let m := x.mask f.msk
    let k := bitsOf w 52 50
    let rs := (List.range 256).map (fun l =>
      if bitOf m l then g f.vc ((x.vreg f.va).getD l 0) ((x.vreg f.vb).getD l 0) else (bitOf (x.mask k) l, {}))
    let v := (List.range 256).foldl (fun n l => if (rs.getD l (false, {})).1 then n + 2 ^ l else n) 0
    vgo d c s ((x.setMask k v).raise (rs.foldl (fun a r => a.or r.2) {}))

/-! ### Conversions (R59 to R64) -/

/-- Parts of a register for an element width (R59). -/
def partsOf (w : Nat) : Nat := if w = 32 then 1 else if w = 16 then 2 else if w = 8 then 4 else if w = 6 then 5 else 8

/-- The 256 elements of a part (R59). -/
def partElems (v : List Nat) (w p : Nat) : List Nat :=
  let bs := ((laneBytes v).drop (p * w * 32)).take (w * 32)
  (List.range 256).map (packedGet bs w)

/-- A register with a part replaced by 256 elements (R59). -/
def setPart (v : List Nat) (w p : Nat) (es : List Nat) : List Nat :=
  bytesLanes (putAt (laneBytes v) (p * w * 32) (packElems w es))

/-- Common fields of the converts: RM, SPART, DPART, SRCTX. -/
def cvtBad (w sw dw : Nat) : Bool :=
  !rmValid (bitsOf w 33 31) || decide (partsOf sw ≤ bitsOf w 29 27) || decide (partsOf dw ≤ bitsOf w 26 24)

/-- The random value of a lane of a convert: drawn under RM 4 only (R61). -/
def cvtRandom (x : ClusterSt) (w l : Nat) : Nat := if bitsOf w 33 31 = 4 then (x.ctx (bitsOf w 23 21)).draw l else 0

/-- After a convert with RM 4 the context's IBASE moves by 256 (R61). -/
def cvtAdvance (w : Nat) (x : ClusterSt) : ClusterSt :=
  if bitsOf w 33 31 = 4 then
    let k := bitsOf w 23 21
    let c := x.ctx k
    { x with ctxs := cset {} x.ctxs k { c with ibase := (c.ibase + 256) % two64 } }
  else x

/-- One lane of CVT (R60). -/
def cvtLane (reduced : Bool) (sf df rm : Nat) (sat : Bool) (r v : Nat) : Nat × FpFlags :=
  let fl : FpFlags := if sf = 0 then snanFlag [v] else {}
  let n := decodeElem reduced sf v
  if sf = df then
    match layoutOf sf with
    | some l =>
      if n.cls = .nan then (canonNaN l, fl)
      else if n.cls = .zero then (withSign n.s (l.ebits + l.mbits) 0, fl) else (v, fl)
    | none => (v, fl)
  else
    let (e, f) := convert reduced df rm sat r n
    (e, fl.or f)

/-- Largest exponent of a normal element, emax (R62). -/
def mxEmax (df : Nat) : Int :=
  if df = 0x10 then 8 else if df = 0x11 then 15 else if df = 0x12 then 2 else if df = 0x13 then 4 else if df = 0x14 then 2 else 0

/-- An element of an MX block, saturating (R62). -/
def mxElem (df rm r : Nat) (x : Num) : Nat × FpFlags :=
  if df = 0x15 then toInt 8 rm r { x with e := x.e + 6 }
  else match layoutOf df with
    | some l => toFloat l false rm true r x
    | none => (0, {})

/-- One block of CVT.MX: scale, elements and flags (R62). -/
def mxBlock (df rm : Nat) (xs : List Num) (rs : List Nat) : Nat × List Nat × FpFlags :=
  if xs.any (fun x => x.cls == .nan || x.cls == .inf) then (0xFF, xs.map (fun _ => 0), { invalid := true })
  else
    let top := (xs.filter (fun x => x.cls == .fin)).foldl (fun (a : Option Int) x =>
      let e := (Nat.log2 x.m : Int) + x.e
      match a with
      | some b => some (max b e)
      | none => some e) none
    match top with
    | none => (0x7F, xs.map (fun x => (mxElem df rm 0 x).1), {})
    | some e =>
      let t := max (-127) (min 127 (e - mxEmax df))
      let es := List.zipWith (fun x r => mxElem df rm r { x with e := x.e - t }) xs rs
      ((t + 127).toNat, es.map Prod.fst, es.foldl (fun f p => f.or p.2) {})

/-! ### Memory (R144) -/

/-- The SRAM address of VLD, VST and SRLD, relative to the program's window. -/
def vaddr (x : ClusterSt) (w : Nat) : Nat := (x.xreg (bitsOf w 49 45) + bitsOf w 44 27 * 64) % two64

/-- Whether LEN and DOFF break R144. -/
def vmemBad (w : Nat) : Bool :=
  let n := bitsOf w 26 22
  bitsOf w 17 0 != 0 || n == 0 || decide (16 < n) || decide (16 < bitsOf w 21 18 + n)

end Sys2Proof.Machine
end

