-- ==== Sys2Proof/Machine/Move.lean ====
section
/-! DEFINITION. Move commands: feeder and drain programs (06_cluster_sram_vector.md R133 to R138). -/
namespace Sys2Proof.Machine

/-! ### Checks (R134, R135) -/

/-- Move descriptor body. -/
def checkMove (b : List Byte) (s : State) : Nat :=
  let fc := getLE b 4 2
  let dc := getLE b 6 2
  failIf (decide (64 ≤ byteAt b 0) || decide (128 ≤ byteAt b 1) || decide (2 ≤ byteAt b 2) || !zeroAt b 3 1
    || !zeroAt b 32 16 || s.clusterRangeBad (byteAt b 0) (byteAt b 1) || decide (4096 < fc) || decide (4096 < dc)
    || (fc == 0 && dc == 0) || (fc != 0 && getLE b 8 8 % 32 != 0) || (dc != 0 && getLE b 16 8 % 32 != 0)) 1

/-- An entry of 32 bytes (R134). -/
def moveEntry (e : List Byte) : MoveEntry :=
  { op := byteAt e 0, bcast := bitOf (byteAt e 1) 1, feeder := byteAt e 1 % 2, rows := getLE e 2 2, rowBytes := getLE e 4 4,
    off := getLE e 8 4, stride := getLE e 12 4, va := getLE e 16 8, vaStride := getLE e 24 8 }

/-- Whether the rows of an SRAM range leave the window: `size` bytes (R130, R135). -/
def rowsLeave (off stride rows rowBytes size : Nat) : Bool := decide (size < off + (rows - 1) * stride + rowBytes)

/-- Whether an entry breaks R134 or R135 in its program, in a window of `size` bytes. -/
def entryBad (drain last : Bool) (size : Nat) (raw : List Byte) : Bool :=
  let e := moveEntry raw
  let geo := e.rows == 0 || e.rowBytes % 16 != 0 || e.rowBytes == 0 || decide (16777216 < e.rowBytes)
    || e.off % 16 != 0 || e.stride % 16 != 0
  let flags := decide (4 ≤ byteAt raw 1) || (drain && e.feeder == 1) || (e.bcast && e.op != 1)
  if e.op = 0 then !zeroAt raw 1 31 || !last
  else if e.op = 4 then !zeroAt raw 1 31
  else if e.op = 1 then
    drain || flags || geo || e.va % 16 != 0 || rowsLeave e.off e.stride e.rows e.rowBytes size
  else if e.op = 2 then
    !drain || flags || geo || e.va % 16 != 0 || rowsLeave e.off e.stride e.rows e.rowBytes size
  else if e.op = 3 then
    drain || flags || geo || decide (4294967296 ≤ e.va) || decide (4294967296 ≤ e.vaStride)
      || rowsLeave e.off e.stride e.rows e.rowBytes size
      || rowsLeave e.va e.vaStride e.rows e.rowBytes size
  else if e.op = 5 then
    drain || flags || geo || e.va != 0 || e.vaStride != 0 || rowsLeave e.off e.stride e.rows e.rowBytes size
  else true

/-- Whether a fetched program breaks R135. -/
def programBad (drain : Bool) (n size : Nat) (code : List Byte) : Bool :=
  (List.range n).any (fun i => entryBad drain (i + 1 == n) size ((code.drop (32 * i)).take 32))

/-- The entries of a fetched program. -/
def programOf (n : Nat) (code : List Byte) : List MoveEntry :=
  (List.range n).map (fun i => moveEntry ((code.drop (32 * i)).take 32))

/-! ### The command (R133, R135, R138) -/

/-- The move command under way of a queue and sequence. -/
def State.moveRun (s : State) (q seq : Nat) : Option MoveRun :=
  s.clu.moves.find? (fun m => m.queue == q && m.seq == seq)

/-- Every entry of a program has completed; END entries complete by themselves. -/
def programDone (es : List MoveEntry) (done : List Nat) : Bool :=
  (List.range es.length).all (fun i => done.contains i || (es.getD i ⟨0, false, 0, 0, 0, 0, 0, 0, 0⟩).op == 0)

/-- A move has ended in every cluster: its command ends with it; a collective's prefetch leaves its status and failing
cluster, and ends the collective only once that is done itself, phase 2 (R137, R336). -/
def moveEnded (q seq : Nat) (ends : List (Nat × Nat)) (s : State) : State :=
  match s.flight q seq with
  | none => s
  | some f =>
    if dOpc f.desc = 0x21 ∨ f.phase = 2 then endClusters q seq ends s
    else
      let r := (lowestFail ends).getD (0, 0)
      s.updFlight q seq (fun f => { f with work := [r.2, r.1] })

/-- The move command is done in a cluster: the cluster is free for the next one, and once every named cluster is, the
command ends (R137). -/
def finishMoveAt (m : MoveRun) (d c status : Nat) (s : State) : State :=
  let s := s.updClus d c fun x => { x with mv := none }
  clusterEnded m.queue m.seq (relCluster m.clFirst m.cls c) status m.cls.length s fun ends s =>
    let s := { s with clu := { s.clu with moves := s.clu.moves.filter (fun n => !(n.queue == m.queue && n.seq == m.seq)) } }
    moveEnded m.queue m.seq ends s

/-- After an entry of a cluster has completed or failed: the cluster is done when an entry failed or both programs have
run. -/
def settleMove (m : MoveRun) (d c : Nat) (s : State) : State :=
  match (s.clus d c).mv with
  | none => s
  | some a =>
    match a.failed with
    | some st => finishMoveAt m d c st s
    | none => if programDone m.feed a.feedDone && programDone m.drain a.drainDone then finishMoveAt m d c 0 s else s

/-- A move with descriptor body `b` begins for a command: both programs are fetched and checked, then started in every
named cluster once no earlier move runs there; `fail` answers a check that fails (R133, R135, R138). -/
def startMove (q seq : Nat) (f : Flight) (b : List Byte) (s : State) (begun : State → State) (fail : Nat → State → State) :
    State :=
  let d := (s.queue q).die
  let first := byteAt b 0
  let n := byteAt b 1
  let fc := getLE b 4 2
  let dc := getLE b 6 2
  let bad := checkMove b s
  if bad ≠ 0 then fail bad s
  else
    let rq := s.req q f 6
    let x := (vaRead rq (getLE b 8 8) (fc * 32) s).bind fun feed s =>
      (vaRead rq (getLE b 16 8) (dc * 32) s).bind fun drain s => .ok (feed, drain) s
    match x with
    | .fault k va s => fail (faultStatus k) (recordFault rq k va s)
    | .wait m va _ => waitAtStack ⟨m, q, seq, rq.unit, va, none⟩ s
    | .ok codes s1 =>
      let any := 2 ^ 64
      if programBad false fc any codes.1 || programBad true dc any codes.2 then fail 1 s1
      else
        let cs := s.cmdClusters q seq first n
        let size := (s.sramWindow q seq d).2
        if programBad false fc size codes.1 || programBad true dc size codes.2 then
          if (s.unitLoan q seq).isSome then fail 3 (refuseCarve q seq d (cs.headD 0) s1) else fail 1 s1
        else match checkClusters q seq first n s1 with
          | (0, _) =>
            if cs.any (fun c => (s.clus d c).mv.isSome || s.namedAhead q seq f 0x21 c) then s
            else
              let m : MoveRun := { queue := q, seq := seq, clFirst := first, cls := cs, inOrder := byteAt b 2 == 1,
                                   vaStep := getLE b 24 8, feed := programOf fc codes.1, drain := programOf dc codes.2 }
              let s := { s1 with clu := { s1.clu with moves := s1.clu.moves ++ [m] } }
              let s := cs.foldl (fun s c => s.updClus d c fun x => { x with mv := some { queue := q, seq := seq } }) (begun s)
              cs.foldl (fun s c => settleMove m d c s) s
          | (st, s) => fail st s

/-- MOVE (R133, R135). -/
def execMove (q : Qn) (seq : Word64) (s : State) : Out :=
  .next <| withFlight q seq.toNat 0x21 s fun f =>
    if f.phase ≠ 0 then s
    else startMove q seq.toNat f (dBody f.desc) s (fun s => s.updFlight q seq.toNat (fun f => { f with phase := 1 }))
      (fun st s => endCommand q seq.toNat st 0 s)

/-! ### Entries (R134, R136, R137) -/

/-- Whether entry `i` of a program may start in a cluster: not done, no failure, the entries it follows complete, and
under SEQ the feeder program complete before the drain program (R133, R136). -/
def entryReady (m : MoveRun) (a : MoveAt) (drain : Bool) (i : Nat) : Bool :=
  let es := if drain then m.drain else m.feed
  let done := if drain then a.drainDone else a.feedDone
  match es[i]? with
  | none => false
  | some e =>
    a.failed.isNone && !done.contains i && (!drain || !m.inOrder || programDone m.feed a.feedDone) &&
    (List.range i).all (fun j => done.contains j ||
      match es[j]? with
      | none => true
      | some p => !drain && p.op != 4 && e.op != 4 && p.feeder != e.feeder)

/-- A piece of an entry: the 64-byte destination block it lies in, its source and destination, its length. -/
structure MovePiece where
  src : Nat
  dst : Nat
  len : Nat
  deriving DecidableEq, Repr

/-- The pieces of `n` bytes, cut at 64-byte blocks of the destination; at most `k`. -/
def rowPieces : Nat → Nat → Nat → Nat → List MovePiece
  | 0, _, _, _ => []
  | k + 1, src, dst, n =>
    if n = 0 then []
    else
      let l := min n (64 - dst % 64)
      ⟨src, dst, l⟩ :: rowPieces k (src + l) (dst + l) (n - l)

/-- The pieces of all rows of an entry, in order. -/
def entryPieces (rows rowBytes src srcStep dst dstStep : Nat) : List MovePiece :=
  ((List.range rows).map (fun i => rowPieces (rowBytes / 64 + 2) (src + i * srcStep) (dst + i * dstStep) rowBytes)).flatten

/-- Consecutive pieces of one destination block, taken together: a block is written once (R137). -/
def groupPieces : List MovePiece → List (List MovePiece)
  | [] => []
  | p :: ps =>
    match groupPieces ps with
    | [] => [[p]]
    | [] :: gs => [p] :: gs
    | (x :: xs) :: gs => if x.dst / 64 = p.dst / 64 then (p :: x :: xs) :: gs else [p] :: (x :: xs) :: gs

/-- How an entry ended in a cluster. -/
inductive MoveEnd where
  | done (s : State)
  | failed (status : Nat) (s : State)
  /-- It waits at a stopped stack. -/
  | wait (stack va : Nat)

/-- The groups of an entry one after another, up to the first failure. -/
def moveGroups (g : List MovePiece → State → MoveEnd) : List (List MovePiece) → State → MoveEnd
  | [], s => .done s
  | p :: ps, s =>
    match g p s with
    | .done s => moveGroups g ps s
    | r => r

/-- The data of an access, or the entry's failure. -/
def fromAcc {α : Type} (rq : Req) (x : Acc α) (g : α → State → MoveEnd) : MoveEnd :=
  match x with
  | .ok a s => g a s
  | .fault k va s => .failed (faultStatus k) (recordFault rq k va s)
  | .wait m va _ => .wait m va

/-- The pieces of one 64-byte block of SRAM are written: all of them, or none where a word they cover in part is uncorrectable
(R124, R137). -/
def putPieces (d c unit : Nat) (part : Option Nat) (ps : List (MovePiece × List Byte)) (s : State) : MoveEnd :=
  match ps.findSome? (fun p => (partWords p.1.dst p.2.length).find? (wordUe (s.clus d c))) with
  | some w => .failed 0x30 (sramUe d c w unit part s)
  | none => .done (ps.foldl (fun s p => (sramWrite d c p.1.dst p.2 unit part s).2) s)

/-- An entry runs in a cluster: it completes, fails there, or waits. -/
def runEntry (d c : Nat) (drain : Bool) (i op : Nat) (s : State)
    (g : MoveRun → MoveEntry → Req → Option Nat → State → MoveEnd) : State :=
  match (s.clus d c).mv with
  | none => s
  | some a =>
    match s.moveRun a.queue a.seq, s.flight a.queue a.seq with
    | some m, some f =>
      match (if drain then m.drain else m.feed)[i]? with
      | none => s
      | some e =>
        if e.op ≠ op ∨ entryReady m a drain i = false then s
        else match g m e (s.req a.queue f (if drain then 1 else 0)) (s.queuePart a.queue) s with
          | .done s =>
            settleMove m d c (s.updClus d c fun x => { x with mv := x.mv.map (fun a =>
              if drain then { a with drainDone := a.drainDone ++ [i] } else { a with feedDone := a.feedDone ++ [i] }) })
          | .failed st s => settleMove m d c (s.updClus d c fun x => { x with mv := x.mv.map (fun a => { a with failed := some st }) })
          | .wait k va => waitAtStack ⟨k, a.queue, a.seq, if drain then 1 else 0, va, some c⟩ s
    | _, _ => s

/-- The virtual address of an entry in a cluster (R134). -/
def entryVa (m : MoveRun) (e : MoveEntry) (c : Nat) : Nat :=
  if e.bcast then e.va else (e.va + m.cls.idxOf c * m.vaStep) % two64

/-- Read the pieces of a group from HBM, in order. -/
def readPieces (rq : Req) (ps : List MovePiece) (s : State) : Acc (List (MovePiece × List Byte)) :=
  Acc.mapM (fun p s => (vaRead rq (p.src % two64) p.len s).bind fun bs s => .ok (p, bs) s) ps s

/-- MOVE_LOAD: entry `i` of the feeder program moves rows from HBM into SRAM; the data of a BCAST entry is read once for
all named clusters (R134, R137, R138). -/
def execMoveLoad (die : Die) (cl : Cluster) (i : BitVec 12) (s : State) : Out :=
  .next <| runEntry die cl false i.toNat 1 s fun m e rq part s =>
    let base := (s.sramWindow m.queue m.seq die).1
    let spread := fun (data : List Byte) (s : State) =>
      moveGroups (fun g s => putPieces die cl 2 part (g.map (fun p => (p, (data.drop p.src).take p.len))) s)
        (groupPieces (entryPieces e.rows e.rowBytes 0 e.rowBytes (base + e.off) e.stride)) s
    match (if e.bcast then m.bcast.find? (fun p => p.1 == i.toNat) else none) with
    | some (_, data) => spread data s
    | none =>
      let pieces := entryPieces e.rows e.rowBytes (entryVa m e cl) e.vaStride (base + e.off) e.stride
      if e.bcast then
        fromAcc rq (readPieces rq pieces s) fun data s =>
          let all := (data.map Prod.snd).flatten
          spread all { s with clu := { s.clu with moves := s.clu.moves.map (fun n =>
            if n.queue == m.queue && n.seq == m.seq then { n with bcast := n.bcast ++ [(i.toNat, all)] } else n) } }
      else moveGroups (fun g s => fromAcc rq (readPieces rq g s) fun data s => putPieces die cl 2 part data s)
        (groupPieces pieces) s

/-- Read pieces of SRAM in order. -/
def sramPieces (d c unit : Nat) (part : Option Nat) : List MovePiece → State → Option (List (MovePiece × List Byte)) × State
  | [], s => (some [], s)
  | p :: ps, s =>
    match sramRead d c p.src p.len unit part s with
    | (none, s) => (none, s)
    | (some x, s) =>
      match sramPieces d c unit part ps s with
      | (none, s) => (none, s)
      | (some y, s) => (some ((p, x) :: y), s)

/-- MOVE_STORE: entry `i` of the drain program moves rows from SRAM to HBM (R134, R137, R138). -/
def execMoveStore (die : Die) (cl : Cluster) (i : BitVec 12) (s : State) : Out :=
  .next <| runEntry die cl true i.toNat 2 s fun m e rq part s =>
    let base := (s.sramWindow m.queue m.seq die).1
    let pieces := entryPieces e.rows e.rowBytes (base + e.off) e.stride (entryVa m e cl) e.vaStride
    moveGroups (fun g s =>
      match sramPieces die cl 1 part g s with
      | (none, s) => .failed 0x30 s
      | (some bs, s) => fromAcc rq (Acc.forEach (fun p s => vaWrite rq (p.1.dst % two64) p.2 s) bs s) fun _ s => .done s)
      (groupPieces pieces) s

/-- MOVE_COPY: entry `i` of the feeder program moves rows within SRAM, block by block (R126, R134, R137). -/
def execMoveCopy (die : Die) (cl : Cluster) (i : BitVec 12) (s : State) : Out :=
  .next <| runEntry die cl false i.toNat 3 s fun m e _ part s =>
    let base := (s.sramWindow m.queue m.seq die).1
    let pieces := entryPieces e.rows e.rowBytes (base + e.off) e.stride (base + e.va) e.vaStride
    moveGroups (fun g s =>
      match sramPieces die cl 2 part g s with
      | (none, s) => .failed 0x30 s
      | (some bs, s) => putPieces die cl 2 part bs s) (groupPieces pieces) s

/-- MOVE_ZERO: entry `i` of the feeder program writes zeros into SRAM rows (R134). -/
def execMoveZero (die : Die) (cl : Cluster) (i : BitVec 12) (s : State) : Out :=
  .next <| runEntry die cl false i.toNat 5 s fun m e _ part s =>
    let base := (s.sramWindow m.queue m.seq die).1
    let pieces := entryPieces e.rows e.rowBytes 0 0 (base + e.off) e.stride
    moveGroups (fun g s => putPieces die cl 2 part (g.map (fun p => (p, zeros p.len))) s) (groupPieces pieces) s

/-- MOVE_FENCE: entry `i` waits for the earlier entries of its unit or units (R136). -/
def execMoveFence (die : Die) (cl : Cluster) (drain : Bool) (i : BitVec 12) (s : State) : Out :=
  .next <| runEntry die cl drain i.toNat 4 s fun _ _ _ _ s => .done s

end Sys2Proof.Machine
end

