-- ==== Sys2Proof/Machine/LinkOps.lean ====
section
/-! DEFINITION. Ends, strands, credits and waiting frames of the die-to-die links (09_die_to_die.md R224 to R231). -/
namespace Sys2Proof.Machine

/-! ### Links and ends -/

/-- The node at an end: die 0 to 3, or 4 for HD. -/
def nodeOf (e : Nat) : Nat := if e < 12 then e / 3 else 4

/-- The port of a compute die's end. -/
def portOf (e : Nat) : Nat := if e < 12 then e % 3 else 2

/-- The die whose ZG_D2D block tells of an end: its own, or for the hub die's end that of the link. -/
def endDie (e : Nat) : Nat := if e < 12 then e / 3 else e - 12

/-- The link of an end. -/
def linkOf (e : Nat) : Nat :=
  if 12 ≤ e then e - 8 else if e % 3 = 0 then e / 3 else if e % 3 = 1 then prevDie (e / 3) else 4 + e / 3

/-- The two ends of a link. -/
def linkEnds (l : Nat) : List Nat := if l < 4 then [3 * l, 3 * nextDie l + 1] else [3 * (l - 4) + 2, l + 8]

/-- The other end. -/
def peerEnd (e : Nat) : Nat := ((linkEnds (linkOf e)).find? (· ≠ e)).getD e

/-- Strands of a link in each direction (R224). -/
def linkStrands (l : Nat) : Nat := if l < 4 then 64 else 8

/-- A strand of a link. -/
def State.strand (s : State) (l k : Nat) : Strand := cget {} s.d2d.strands (l * 64 + k)

/-- Replace a strand. -/
def State.setStrand (s : State) (l k : Nat) (x : Strand) : State :=
  { s with d2d := { s.d2d with strands := cset {} s.d2d.strands (l * 64 + k) x } }

/-- Sending side of a strand at an end. -/
def State.tx (s : State) (e k : Nat) : StrandTx := cget {} s.d2d.tx (e * 64 + k)

/-- Replace the sending side. -/
def State.setTx (s : State) (e k : Nat) (x : StrandTx) : State :=
  { s with d2d := { s.d2d with tx := cset {} s.d2d.tx (e * 64 + k) x } }

/-- Receiving side of a strand at an end. -/
def State.rx (s : State) (e k : Nat) : StrandRx := cget {} s.d2d.rx (e * 64 + k)

/-- Replace the receiving side. -/
def State.setRx (s : State) (e k : Nat) (x : StrandRx) : State :=
  { s with d2d := { s.d2d with rx := cset {} s.d2d.rx (e * 64 + k) x } }

/-- The end by which a die's frames leave for another die: to a neighbour straight, to the diagonal die by the way of R9, and the other
way round where an edge of that way is out of service (R9, R234). -/
def State.routeEnd (s : State) (a b : Nat) : Nat :=
  let back := decide (b = prevDie a) || (decide (a + b = 3) && (decide (a = 1) || decide (a = 3)))
  let fwd := if back then s.wayOut 4 b a else !s.wayOut 4 a b
  if fwd then 3 * a else 3 * a + 1

/-- The end by which the frames of a node for another leave it: a hub link, or the route round the ring. -/
def State.endFor (s : State) (a b : Nat) : Nat := if a = 4 then 12 + b else if b = 4 then 3 * a + 2 else s.routeEnd a b

/-- Whether the node at the other end must forward a frame for `b`. -/
def mustHop (e b : Nat) : Bool := nodeOf (peerEnd e) != b

/-- Whether the link of an end is out of service (R234, R235). -/
def State.endOut (s : State) (e : Nat) : Bool := s.rfld (ZG_D2D_PORT (endDie e) (portOf e)) 52 51 == 3

/-! ### Credits and the frames that wait (R228, R229) -/

/-- The buffers a frame takes: those of its class, or of a transit packet's (VC, pool) (R229, R366). -/
def D2dFrame.buf (f : D2dFrame) : Nat := if f.lane = 0 then f.cls else 4 + f.lane

/-- Key of the buffers of a class, or of a (VC, pool) as 5 to 16, and pool: 0 for frames that end at the receiver, 1 and 2 for those it
forwards after one or two dies. -/
def creditKey (cls pool : Nat) : Nat := 3 * cls + pool

/-- Credits of a strand for a class and pool: 8 for CTRL (R229). -/
def creditLimit (cls pool : Nat) : Nat := if cls = 0 then 8 else Config.d2dCredits cls pool

/-- The pool a frame takes at the other end (R231). -/
def poolOf (e : Nat) (f : D2dFrame) : Nat := if mustHop e f.dest then min 2 (f.hops + 1) else 0

/-- The frames that wait at an end for a class and number of dies crossed. -/
def State.waiting (s : State) (e cls hops : Nat) : List (Nat × D2dFrame) := cget [] s.d2d.out (e * 64 + 3 * cls + hops)

/-- Replace the frames that wait. -/
def State.setWaiting (s : State) (e cls hops : Nat) (fs : List (Nat × D2dFrame)) : State :=
  { s with d2d := { s.d2d with out := cset [] s.d2d.out (e * 64 + 3 * cls + hops) fs } }

/-- A frame joins those that wait for an end; `came` is 0, or one more than 64 × end + strand of the buffer it stands in. -/
def enqueueFrame (e came : Nat) (f : D2dFrame) (s : State) : State :=
  s.setWaiting e f.buf (min 2 f.hops) (s.waiting e f.buf (min 2 f.hops) ++ [(came, f)])

/-- A buffer of a class and pool is free again at the receiver of a strand (R228). -/
def freeBuffer (came cls pool : Nat) (s : State) : State :=
  if came = 0 then s
  else
    let e := (came - 1) / 64
    let k := (came - 1) % 64
    let x := s.rx e k
    let key := creditKey cls pool
    s.setRx e k { x with freed := cset 0 x.freed key (cget 0 x.freed key + 1) }

/-- Number of a sequence of transactions: of a source unit of a node, to a node, in a class (R230). -/
def seqKey (src dest cls unit : Nat) : Nat := ((src * 5 + dest) * 8 + cls) * 32 + unit

end Sys2Proof.Machine
end

