-- ==== Sys2Proof/Machine/TwinOps.lean ====
section
/-! DEFINITION. The twin table of the hub die (16_integrity_determinism.md R489 to R492). -/
namespace Sys2Proof.Machine

/-- ZG_INTH_TWIN follows the table. -/
def refreshTwinTable (s : State) : State :=
  let n := s.integ.twins.length
  let m := (s.integ.twins.filter (fun e => e.own.isNone)).length
  s.setRegN ZG_INTH_TWIN (n * 2 ^ 51 + m * 2 ^ 38)

/-- Replace the entries of the table. -/
def State.setTwins (s : State) (l : List TwinEntry) : State :=
  refreshTwinTable { s with integ := { s.integ with twins := l } }

/-- Whether an entry has a key. -/
def TwinEntry.hasKey (e : TwinEntry) (tenant tag interval : Nat) : Bool :=
  e.tenant == tenant && e.tag == tag && e.interval == interval

/-- An event of class 0x0C of the hub die; mismatch is an alarm (R494). -/
def twinEvent (code q : Nat) (part : Option Nat) (data : Nat) : Ev :=
  { cls := 0x0C, code := code, queue := queueField q, part := part, data := data, alarm := if code = 3 then 2 else 0 }

/-- An entry that holds both digests gives its verdict to the command and is freed (R490). -/
def settleTwin (e : TwinEntry) (s : State) : State :=
  match e.own, e.twin with
  | some o, some t =>
    let s := s.setTwins (s.integ.twins.filter (fun x => !x.hasKey e.tenant e.tag e.interval))
    if e.conflict || o.digest != t then
      let ev := twinEvent 3 o.queue (s.queuePart o.queue) (e.tag + e.interval % 4294967296 * 4294967296)
      endCommand o.queue o.seq 0x0603 0 (auditEvent ev (raiseEvent ev (bump ZG_INTH_TW_MISMATCH 1 s)))
    else endCommand o.queue o.seq 0 0 (bump ZG_INTH_TW_MATCH 1 s)
  | _, _ => s

/-- A TWIN_DIGEST ends without its twin's digest: its entry is removed, event 0x0C.0x04 (R490). -/
def twinGone (e : TwinEntry) (unreachable : Bool) (s : State) : State :=
  match e.own with
  | none => s
  | some o =>
    let s := s.setTwins (s.integ.twins.filter (fun x => !x.own.any (fun y => y.queue == o.queue && y.seq == o.seq)))
    let ev := twinEvent 4 o.queue (s.queuePart o.queue)
      (e.tag + e.interval % 2147483648 * 4294967296 + b2n unreachable * 2 ^ 63)
    endCommand o.queue o.seq (if unreachable then 0x0605 else 0x0604) 0 (raiseEvent ev (bump ZG_INTH_TW_TIMEOUT 1 s))

/-- The twin has become unreachable: every TWIN_DIGEST that waits ends (R490). -/
def twinUnreachable (s : State) : State :=
  (s.integ.twins.filter (fun e => e.own.isSome)).foldl (fun s e => twinGone e true s) s

/-- A TWIN_DIGEST that is stopped leaves the table. -/
def dropTwin (q seq : Nat) (s : State) : State :=
  if s.integ.twins.any (fun e => e.own.any (fun o => o.queue == q && o.seq == seq)) then
    s.setTwins (s.integ.twins.filter (fun e => !e.own.any (fun o => o.queue == q && o.seq == seq)))
  else s

end Sys2Proof.Machine
end

