-- ==== Sys2Proof/Machine/WefinOps.lean ====
section
/-! DEFINITION. Wefin: the cabling plan, packets, ports, bundles and routes (13_wefin_links_topology.md R354 to R394). -/
namespace Sys2Proof.Machine

/-! ### Events and registers (R396, R397) -/

/-- ZG_WFN_PORTk of port `p` of the package. -/
def portReg (p : Nat) : Nat := ZG_WFN_PORT (p / 6) (p % 6)

/-- STATE of a port: 0 OFF, 1 TRAINING, 2 VERIFY, 3 UP, 4 QUIESCED, 5 RETRAIN, 6 FAILED. -/
def State.portState (s : State) (p : Nat) : Nat := s.rfld (portReg p) 63 61

/-- DIR of a port. -/
def State.portDir (s : State) (p : Nat) : Nat := s.rfld (portReg p) 56 54

/-- Port `p`. -/
def State.port (s : State) (p : Nat) : WPort := cget {} s.wfn.ports p

/-- Replace port `p`. -/
def State.setPort (s : State) (p : Nat) (x : WPort) : State :=
  { s with wfn := { s.wfn with ports := cset {} s.wfn.ports p x } }

/-- Add `n` to counter `c` of a port. -/
def countPort (p c n : Nat) (s : State) : State := bump (ZG_WFN_CNT (p / 6) (8 * (p % 6) + c)) n s

/-- Alarm severity of an event of class 0x09; `crit` for the duplicate coordinates of R377. -/
def wefinSeverity (code : Nat) (crit : Bool) : Nat :=
  if code = 3 ∧ crit then 3 else if code = 3 ∨ code = 4 ∨ code = 7 ∨ code = 9 then 2 else 0

/-- An event of class 0x09, at a port's die or, without a port, at a die or the hub. -/
def wefinEvent (code src port data : Nat) (crit : Bool) (s : State) : State :=
  let s := if src = 4 then s else
    let seq := (s.rfld (ZG_WFN_LAST src) 49 36 + 1) % 16384
    (s.setRegN (ZG_WFN_LAST src) (seq * 2 ^ 36 + code * 2 ^ 32 + port * 2 ^ 27)).setRegN (ZG_WFN_LAST_NS src) s.now
  raiseEvent { cls := 9, code := code, src := src, data := data, alarm := wefinSeverity code crit } s

/-! ### The cabling plan (R369, R373 to R375) -/

/-- Whether a plan is in force. -/
def State.planned (s : State) : Bool := s.wfn.plan != []

/-- The direction of a port under a configuration (R369): 0 to 5, 6 the twin port, 7 unconnected. -/
def dirOfPort (config p : Nat) : Nat :=
  let d := p / 6
  let k := p % 6
  if config = 0 ∨ 6 < config then 7
  else if config = 6 then k % 2
  else if (config = 2 ∨ config = 5) ∧ p = 23 then 6
  else if k < 4 then k
  else if config = 3 then (if d % 2 = 0 then 0 else 2) + (k - 4)
  else if config = 4 ∨ config = 5 then (if d < 2 then 4 else if d = 2 then 0 else 2) + (k - 4)
  else k

/-- The opposite direction. -/
def opposite (dir : Nat) : Nat := if dir % 2 = 0 then dir + 1 else dir - 1

/-- Coordinates of a package. -/
abbrev Coord := Nat × Nat × Nat

/-- Dimensions of the field of a plan. -/
def planDims (p : List Byte) : Coord := (byteAt p 2 + 1, byteAt p 3 + 1, byteAt p 4 + 1)

/-- This package's coordinates. -/
def planHere (p : List Byte) : Coord := (byteAt p 7, byteAt p 8, byteAt p 9)

/-- The field number of a plan. -/
def planField (p : List Byte) : Nat := byteAt p 6 % 2

/-- Packages of a field. -/
def fieldSize (d : Coord) : Nat := d.1 * d.2.1 * d.2.2

/-- The linear index of a package (R373). -/
def linearOf (d c : Coord) : Nat := c.1 + d.1 * (c.2.1 + d.2.1 * c.2.2)

/-- The coordinates of a linear index. -/
def coordOf (d : Coord) (i : Nat) : Coord := (i % d.1, i / d.1 % d.2.1, i / (d.1 * d.2.1))

/-- The package one hop away in a direction, counting wrap-around. -/
def stepDir (d c : Coord) (dir : Nat) : Coord :=
  let up := fun (x n : Nat) => (x + 1) % n
  let down := fun (x n : Nat) => (x + n - 1) % n
  if dir = 0 then (up c.1 d.1, c.2) else if dir = 1 then (down c.1 d.1, c.2)
  else if dir = 2 then (c.1, up c.2.1 d.2.1, c.2.2) else if dir = 3 then (c.1, down c.2.1 d.2.1, c.2.2)
  else if dir = 4 then (c.1, c.2.1, up c.2.2 d.2.2) else (c.1, c.2.1, down c.2.2 d.2.2)

/-- PORT_k of a plan. -/
def planPort (p : List Byte) (k : Nat) : Nat := getLE p (0x20 + 4 * k) 4

/-- The package an entry names: coordinates and field. -/
def entryPackage (e : Nat) : Coord × Nat := ((bitsOf e 31 24, bitsOf e 23 16, bitsOf e 15 8), bitsOf e 7 7)

/-- Whether the package rejects a plan (R375). -/
def planBad (p : List Byte) : Bool :=
  let d := planDims p
  let c := planHere p
  p.length != 128 || byteAt p 0 != 1 || decide (6 < byteAt p 1) || decide (1024 < fieldSize d) || decide (2 ≤ byteAt p 5)
    || decide (2 ≤ byteAt p 6) || !zeroAt p 0x0A 6 || !zeroAt p 0x18 8
    || (p.drop 0x10).take 8 != (sha384 (p.take 6)).take 8
    || decide (d.1 ≤ c.1) || decide (d.2.1 ≤ c.2.1) || decide (d.2.2 ≤ c.2.2)
    || (List.range 24).any (fun k =>
        let e := planPort p k
        let dir := dirOfPort (byteAt p 1) k
        if e = 0xFFFFFFFF then false
        else dir == 7 || bitsOf e 6 5 != 0 || decide (24 ≤ bitsOf e 4 0)
          || (if dir = 6 then entryPackage e != (c, 1 - planField p) else entryPackage e != (stepDir d c dir, planField p)))

/-- Dimensions of the field in force. -/
def State.dims (s : State) : Coord := planDims s.wfn.plan

/-- This package's coordinates. -/
def State.here (s : State) : Coord := planHere s.wfn.plan

/-- This package's linear index. -/
def State.hereIx (s : State) : Nat := linearOf s.dims s.here

/-- This package's field number. -/
def State.field (s : State) : Nat := planField s.wfn.plan

/-! ### Packets (R367) -/

/-- PTYPE. -/
def pkType (b : List Byte) : Nat := byteAt b 0 / 16
/-- TTL. -/
def pkTtl (b : List Byte) : Nat := byteAt b 1
/-- Destination coordinates. -/
def pkDest (b : List Byte) : Coord := (byteAt b 2, byteAt b 3, byteAt b 4)
/-- Destination field. -/
def pkDField (b : List Byte) : Nat := byteAt b 5 / 128
/-- Destination die. -/
def pkDDie (b : List Byte) : Nat := byteAt b 5 % 4
/-- Source coordinates. -/
def pkSrc (b : List Byte) : Coord := (byteAt b 6, byteAt b 7, byteAt b 8)
/-- Source field. -/
def pkSField (b : List Byte) : Nat := byteAt b 9 / 128
/-- Source die. -/
def pkSDie (b : List Byte) : Nat := byteAt b 9 % 4
/-- Tenant tag. -/
def pkTenant (b : List Byte) : Nat := getLE b 10 2
/-- PKT_ID. -/
def pkId (b : List Byte) : Nat := getLE b 12 4
/-- LENGTH. -/
def pkLen (b : List Byte) : Nat := getLE b 16 4
/-- XFIELD, DOWN and ESCAPE. -/
def pkRoute (b : List Byte) : Nat := byteAt b 0x14
/-- The body. -/
def pkBody (b : List Byte) : List Byte := (b.drop 24).take (pkLen b)

/-- CRC-32C over header and body, with TTL and ROUTE taken as zero. -/
def pkCrc (b : List Byte) : Nat := crc32c (putAt (putAt (b.take (24 + pkLen b)) 1 [0]) 0x14 [0])

/-- Whether the trailer of a received packet is right. -/
def trailerOk (b : List Byte) : Bool := decide (28 + pkLen b ≤ b.length) && getLE b (24 + pkLen b) 4 == pkCrc b

/-- Where a packet goes and what it carries. -/
structure PktTo where
  ptype : Nat
  dest : Coord
  dfield : Nat
  ddie : Nat
  sdie : Nat
  tenant : Nat
  body : List Byte
  deriving DecidableEq, Repr

/-- A packet of this package, padded to 16 bytes (R367, R382, ZG_TOP_CTRL). -/
def packetBytes (t : PktTo) (id route : Nat) (s : State) : List Byte :=
  let c := s.here
  let ttl := max (s.rfld ZG_TOP_CTRL 15 8) 32
  let h := natLE 1 (t.ptype * 16) ++ natLE 1 ttl ++ natLE 1 t.dest.1 ++ natLE 1 t.dest.2.1 ++ natLE 1 t.dest.2.2
    ++ natLE 1 (t.dfield * 128 + t.ddie) ++ natLE 1 c.1 ++ natLE 1 c.2.1 ++ natLE 1 c.2.2
    ++ natLE 1 (s.field * 128 + t.sdie) ++ natLE 2 t.tenant ++ natLE 4 id ++ natLE 4 t.body.length ++ natLE 1 route ++ zeros 3
  let b := h ++ t.body
  let b := b ++ natLE 4 (pkCrc b)
  b ++ zeros ((16 - b.length % 16) % 16)

/-- A number for a package: field and coordinates. -/
def packageKey (f : Nat) (c : Coord) : Nat := ((f * 256 + c.1) * 256 + c.2.1) * 256 + c.2.2

/-- The next PKT_ID of a source die toward a package; 0 for PTYPE 4 (R367). -/
def nextId (t : PktTo) (s : State) : Nat × State :=
  if t.ptype = 4 then (0, s)
  else
    let k := t.sdie * 33554432 + packageKey t.dfield t.dest
    let n := (cget 0 s.wfn.ids k + 1) % 4294967296
    (n, { s with wfn := { s.wfn with ids := cset 0 s.wfn.ids k n } })

/-- A dropped packet is counted and raises event 0x09.0x08 (R368). -/
def dropPacket (d cause : Nat) (b : List Byte) (s : State) : State :=
  let c := pkSrc b
  let s := bump (if cause = 3 then ZG_WFN_DROP_TENANT d else if cause = 4 then ZG_WFN_DUP d else ZG_WFN_DROP_OTHER d) 1 s
  wefinEvent 8 d 31 (cause + pkType b * 16 + pkTenant b * 256 + c.1 * 2 ^ 24 + c.2.1 * 2 ^ 32 + c.2.2 * 2 ^ 40) false s

/-! ### Bundles (R369 to R372) -/

/-- Ports UP of a direction, ascending. -/
def State.bundle (s : State) (dir : Nat) : List Nat :=
  (List.range 24).filter (fun p => s.portDir p == dir && s.portState p == 3)

/-- The port of a bundle a packet takes: a CHUNK by its index, another the port on its die, else the lowest (R370). -/
def choosePort (ps : List Nat) (die : Nat) (chunk : Option Nat) : Option Nat :=
  match chunk with
  | some i => ps[i % ps.length]?
  | none => match ps.find? (fun p => p / 6 == die) with
    | some p => some p
    | none => ps.head?

/-- A packet joins the egress queue of a port. -/
def enqueue (p : Nat) (x : OutPkt) (s : State) : State :=
  s.setPort p { s.port p with out := (s.port p).out ++ [x] }

/-- A reader of the route table releases its bank. -/
def unbindRoute (bank : Option Nat) (s : State) : State :=
  match bank with
  | some k => s.setBank routeTable ((s.bank routeTable).release k)
  | none => s

/-- Frame `i` of a packet that crosses the ring, with the next transaction number of the unit that carries Wefin packets, number 31:
in the CTRL class for VC 0, as COLL in the buffers of its (VC, pool) for the others (R366; log entry 70). -/
def crossFrame (die p : Nat) (x : OutPkt) (i : Nat) (s : State) : State :=
  let d := p / 6
  let cls := if x.vp / 3 = 0 then 0 else 4
  let key := seqKey die d cls 31
  let n := cget 0 s.d2d.txn key
  let part := (x.bytes.drop (512 * i)).take 512
  let s := { s with d2d := { s.d2d with txn := cset 0 s.d2d.txn key ((n + 1) % 2048) } }
  enqueueFrame (s.routeEnd die d) 0
    { cls := cls, tag := 31 * 2048 + n, offset := i, dest := d, src := die, hops := 0, gen := x.id + 1,
      data := part ++ zeros ((64 - part.length % 64) % 64), lane := if cls = 0 then 0 else x.vp + 1 } s

/-- Frames of a packet on a ring edge. -/
def frameCount (bytes : List Byte) : Nat := ceilDiv bytes.length 512

/-- A packet on a die leaves by a port: its own die's at once, another die's after crossing the ring (R366, R370). -/
def leaveBy (die p : Nat) (x : OutPkt) (s : State) : State :=
  let x := { x with die := die }
  if p / 6 = die then enqueue p x s
  else (List.range (frameCount x.bytes)).foldl (fun s i => crossFrame die p x i s)
    { s with wfn := { s.wfn with cross := s.wfn.cross ++ [{ pkt := x, port := p }] } }

/-- A packet goes to a bundle, or is held for it while it has no port UP, bound to no bank of the route table (R370, R372, R385). -/
def sendBundle (die : Nat) (chunk : Option Nat) (x : OutPkt) (s : State) : State :=
  match choosePort (s.bundle x.dir) die chunk with
  | some p => leaveBy die p x s
  | none =>
    let s := unbindRoute x.bank s
    { s with wfn := { s.wfn with held := s.wfn.held ++ [{ x with die := die, bank := none }] } }

/-- A frame of a crossing packet has come to the die of its port; with the last of them the packet joins that port's queue, or its
bundle's while the port is not UP (R366, R370). -/
def landPacket (f : D2dFrame) (s : State) : State :=
  match s.wfn.cross.find? (fun c => c.pkt.id + 1 == f.gen) with
  | none => s
  | some c =>
    let c' := { c with parts := c.parts.filter (fun (p : Nat × List Byte) => p.1 != f.offset) ++ [(f.offset, f.data)] }
    let n := frameCount c.pkt.bytes
    if c'.parts.length < n then
      { s with wfn := { s.wfn with cross := s.wfn.cross.map (fun x => if x.pkt.id = c.pkt.id then c' else x) } }
    else
      let bytes := (List.range n).flatMap (fun i => ((c'.parts.find? (fun p => p.1 == i)).map Prod.snd).getD [])
      let x := { c.pkt with bytes := bytes.take c.pkt.bytes.length, die := c.port / 6 }
      let s := { s with wfn := { s.wfn with cross := s.wfn.cross.filter (fun y => y.pkt.id != c.pkt.id) } }
      if s.portState c.port = 3 then enqueue c.port x s else sendBundle (c.port / 6) none x s

/-- Packets that cross the ring from or to a die are lost with it (R580). -/
def dropCrossings (d : Nat) (s : State) : State :=
  let goes := fun (c : Crossing) => c.pkt.die == d || c.port / 6 == d
  (s.wfn.cross.filter goes).foldl (fun s c => unbindRoute c.pkt.bank s)
    { s with wfn := { s.wfn with cross := s.wfn.cross.filter (fun c => !goes c) } }

/-- A packet gets its number. -/
def newPkt (bytes : List Byte) (vp dir : Nat) (bank : Option Nat) (s : State) : OutPkt × State :=
  ({ id := s.wfn.pktCount, bytes := bytes, vp := vp, dir := dir, bank := bank },
    { s with wfn := { s.wfn with pktCount := s.wfn.pktCount + 1 } })

/-- A packet of one hop leaves by a port. -/
def sendOneHop (p : Nat) (t : PktTo) (s : State) : State :=
  let (id, s) := nextId t s
  let (x, s) := newPkt (packetBytes t id 0 s) 0 7 none s
  enqueue p x s

/-- A packet for the peer of a port, as the last HELLO names it. -/
def toPeer (p ptype : Nat) (body : List Byte) (s : State) : PktTo :=
  let r := portReg p
  { ptype := ptype, dest := (s.rfld r 53 46, s.rfld r 45 38, s.rfld r 37 30), dfield := s.rfld r 29 29, ddie := s.rfld r 28 24 / 6 % 4,
    sdie := p / 6, tenant := 0, body := body }

/-! ### The route table (R382 to R385) -/

/-- A route-table entry of a bank. -/
def State.routeEntry (s : State) (bank i : Nat) : Nat := cget 0 s.wfn.routes (bank * 1024 + i)

/-- TWIN_VIA of a bank. -/
def State.twinVia (s : State) (bank : Nat) : Option Nat :=
  let v := cget 0 s.wfn.via bank
  if v = 0 then none else some (v - 1)

/-- Whether a package of the field is reachable in the active table, once a plan is active; this one always is. -/
def State.reachable (s : State) (i : Nat) : Bool :=
  i == s.hereIx || (s.wfn.formed.isSome && bitOf (s.routeEntry (s.bank routeTable).active i) 31)

/-- The active bank of the route table takes a reader (R385). -/
def bindRoute (s : State) : Nat × State :=
  let b := s.bank routeTable
  (b.active, s.setBank routeTable b.bind)

/-- Whether a hop in a direction from a package is over a wrap link (R382). -/
def isWrap (d c : Coord) (dir : Nat) : Bool :=
  let x := if dir / 2 = 0 then c.1 else if dir / 2 = 1 then c.2.1 else c.2.2
  let n := if dir / 2 = 0 then d.1 else if dir / 2 = 1 then d.2.1 else d.2.2
  if dir % 2 = 0 then x + 1 == n else x == 0

/-- Whether a hop from package `i` to package `j` lowers (depth, linear index) (R382). -/
def State.upHop (s : State) (bank i j : Nat) : Bool :=
  let a := cget 0 s.wfn.depths (bank * 1024 + i)
  let b := cget 0 s.wfn.depths (bank * 1024 + j)
  decide (b < a) || (a == b && decide (j < i))

/-- The next hop of a packet for package `i`: direction, pool and ROUTE bits; none when this package is `i` or the entry
has no REACH. `came` is the direction it came in and its pool, none at injection (R382, R383). -/
def nextHop (bank i route : Nat) (came : Option (Nat × Nat)) (s : State) : Option (Nat × Nat × Nat) :=
  let e := s.routeEntry bank i
  if i = s.hereIx ∨ bitOf e 31 = false then none
  else if bitOf route 0 || bitOf e 30 then
    let down := bitOf route 1
    let dir := if down then bitsOf e 23 21 else bitsOf e 26 24
    if dir = 7 then none
    else
      let j := linearOf s.dims (stepDir s.dims s.here dir)
      some (dir, 2, route / 4 * 4 + (if down || !s.upHop bank s.hereIx j then 2 else 0) + 1)
  else
    let dir := bitsOf e 29 27
    if dir = 7 then none
    else
      let stay := match came with
        | some (d, p) => if d / 2 = dir / 2 then p else 0
        | none => 0
      some (dir, if isWrap s.dims s.here dir then 1 else stay, route)

/-- What becomes of an injected packet. -/
inductive Inject where
  /-- It is on its way, with this PKT_ID. -/
  | sent (id : Nat) (s : State)
  /-- No plan is active (R384). -/
  | noPlan
  /-- The other field (R393). -/
  | crossField
  /-- No route (R384). -/
  | unreachable (s : State)

/-- VC of a packet (R363, R367): KIND of a collective header decides for PTYPE 4. -/
def pkVc (b : List Byte) : Nat :=
  let t := pkType b
  if t ≤ 3 then 0 else if 5 ≤ t then 1
  else
    let k := byteAt b 24 / 16
    if k = 3 then 0 else if k = 4 then 1 else if k = 0 then 2 else 3

/-- A packet for a destination without REACH is dropped (R368, R384). -/
def dropUnreachable (d : Nat) (b : List Byte) (s : State) : State :=
  let c := pkDest b
  wefinEvent 7 d 31 (c.1 + c.2.1 * 256 + c.2.2 * 65536) false (dropPacket d 5 b s)

/-- A packet is looked up toward package `i` and leaves by its bundle, bound to the active bank until its last flit leaves
(R383 to R385). -/
def routePacket (die : Nat) (chunk : Option Nat) (came : Option (Nat × Nat)) (b : List Byte) (i : Nat) (s : State) :
    Option State :=
  let bank := (s.bank routeTable).active
  match (if s.wfn.formed.isSome then nextHop bank i (pkRoute b) came s else none) with
  | none => none
  | some (dir, pool, route) =>
    let (k, s) := bindRoute s
    let (x, s) := newPkt (putAt b 0x14 [BitVec.ofNat 8 route]) (pkVc b * 3 + pool) dir (some k) s
    some (sendBundle die chunk { x with route := pkRoute b, came := came } s)

/-- A packet that crosses to the other field: over the twin port while it is UP, else toward TWIN_VIA (R393, R394). -/
def routeTwin (die : Nat) (came : Option (Nat × Nat)) (b : List Byte) (s : State) : Option State :=
  if s.bundle 6 ≠ [] then
    let (x, s) := newPkt b (pkVc b * 3) 6 none s
    some (sendBundle die none x s)
  else match (if s.wfn.formed.isSome then s.twinVia (s.bank routeTable).active else none) with
    | some v => routePacket die none came b v s
    | none => none

/-- A held packet binds the table in force and looks its route up again, as it came to this package (R372, R385); one of one hop goes
with its bundle or stays held. -/
def rerouteHeld (o : OutPkt) (s : State) : State :=
  let b := putAt o.bytes 0x14 [BitVec.ofNat 8 o.route]
  if pkType b ≤ 2 then sendBundle o.die none o s
  else match (if pkDField b ≠ s.field then routeTwin o.die o.came b s
      else routePacket o.die none o.came b (linearOf s.dims (pkDest b)) s) with
  | some s => s
  | none => dropUnreachable o.die b s

/-- A packet enters the field at this package (R368, R370, R384, R393). -/
def inject (t : PktTo) (chunk : Option Nat) (s : State) : Inject :=
  if !s.planned || s.wfn.formed.isNone then .noPlan
  else
    let cross := t.dfield != s.field
    if cross && !(t.ptype == 7 || (t.ptype == 3 && t.dest == s.here)) then .crossField
    else
      let (id, s) := nextId t s
      let b := packetBytes t id (if cross then 4 else 0) s
      match (if cross then routeTwin t.sdie none b s else routePacket t.sdie chunk none b (linearOf s.dims t.dest) s) with
      | some s => .sent id s
      | none => .unreachable (dropUnreachable t.sdie b s)

/-! ### Flits (R358 to R361, R364 to R366) -/

/-- Flits of a receive buffer (R364). -/
def bufferSize (vp : Nat) : Nat :=
  let pool := vp % 3
  match vp / 3 with
  | 0 => 32
  | 1 => if pool = 2 then 32 else 64
  | 2 => if pool = 2 then 128 else 1024
  | _ => if pool = 2 then 32 else 64

/-- Flits of a packet. -/
def flitCount (bytes : List Byte) : Nat := ceilDiv bytes.length 240

/-- The credit of a (VC, pool), in flits (R365). -/
def WPort.creditOf (x : WPort) (vp : Nat) : Nat := (cget 0 x.credit vp + bufferSize vp + 65536 - cget 0 x.used vp % 65536) % 65536

/-- Bytes of a flit: with present ACK, CR_SEL and CR_COUNT, ACK_CRC and CRC (R358, R360). -/
def flitBytes (b0 fill fseq : Nat) (payload : List Byte) (x : WPort) : List Byte :=
  let ack := natLE 2 ((x.expect + 65535) % 65536)
  let cr := natLE 2 (cget 0 x.freed x.crTurn)
  let head := natLE 1 b0 ++ natLE 1 (fill * 16 + x.crTurn) ++ natLE 2 fseq
  let tail := zeros 1 ++ cr ++ zeros 2 ++ (payload ++ zeros 240).take 240
  let crc := crc32c (head ++ zeros 3 ++ tail)
  head ++ ack ++ natLE 1 (crc8 ack) ++ tail ++ natLE 4 crc

/-- A block of 257 bits: the type, 1 for data and 0 for alignment, then 32 bytes (R356). -/
def portBlock (data : Bool) (bytes : List Byte) : BitVec 257 := BitVec.ofNat 257 (b2n data + 2 * leNat (bytes.take 32))

/-- The 32 bytes of a block. -/
def blockBytes (b : BitVec 257) : List Byte := natLE 32 (b.toNat / 2)

/-- Whether a block is of data. -/
def blockData (b : BitVec 257) : Bool := b.toNat % 2 == 1

/-- The data blocks of a flit. -/
def flitBlocks (f : List Byte) : List (BitVec 257) := (List.range 8).map (fun i => portBlock true (f.drop (32 * i)))

/-- Whether codeword `c` of a port, in dealing order, is of an alignment round: every 4,096th codeword of each lane (R356; log entry
70). -/
def alignRound (c : Nat) : Bool := c / 4 % 4096 == 4095

/-- The alignment codeword of a lane: 0xA5, the lane, the port, a count (R356). -/
def alignWord (p c : Nat) : List (BitVec 257) :=
  portBlock false (natLE 1 0xA5 ++ natLE 1 (c % 4) ++ natLE 1 p ++ natLE 1 (c / 16384 % 256)) :: List.replicate 19 0

/-- A codeword goes to the lane whose turn it is (R356). -/
def WPort.dealWord (x : WPort) (m : List (BitVec 257)) : WPort :=
  { x with line := cset [] x.line (x.txWords % 4) m, txWords := x.txWords + 1 }

/-- A flit joins the port's byte stream: 20 data blocks fill a codeword, and an alignment codeword goes on every lane in its round
(R356). -/
def WPort.lay (p : Nat) (x : WPort) (f : List Byte) : WPort :=
  let bs := x.txBlocks ++ flitBlocks f
  if bs.length < 20 then { x with txBlocks := bs }
  else
    let x := if alignRound x.txWords then
        (List.range 4).foldl (fun x _ => x.dealWord (alignWord p x.txWords)) x
      else x
    { x.dealWord (bs.take 20) with txBlocks := bs.drop 20 }

/-- A flit has been sent: it carried the acknowledgement and one CR_COUNT (R360, R365), and is in the byte stream. -/
def WPort.flown (p : Nat) (x : WPort) (f : List Byte) : WPort :=
  WPort.lay p { x with last := f, owes := false, crTurn := (x.crTurn + 1) % 12 } f

/-- An IDLE flit. -/
def idleFlit (p : Nat) (x : WPort) : WPort := x.flown p (flitBytes 0 0 0 [] x)

/-- Whether a port in `st` may send flits of a packet: LINK_MGMT and TIME in VERIFY, every packet while UP or draining. -/
def mayCarry (st : Nat) (b : List Byte) : Bool := st == 3 || st == 4 || (st == 2 && decide (pkType b ≤ 1))

/-- The packet whose flit a (VC, pool) sends next: contiguous, in order (R366). -/
def WPort.front (x : WPort) (st vp : Nat) : Option OutPkt :=
  (x.out.find? (fun o => o.vp == vp && decide (o.sent < flitCount o.bytes))).filter (fun o => mayCarry st o.bytes)

/-- Whether a (VC, pool) has a flit and a credit. -/
def WPort.ready (x : WPort) (st vp : Nat) : Bool := (x.front st vp).isSome && x.creditOf vp != 0

/-- The (VC, pool) served next: VC 0 first, then VC 1 for at most 32 flits ahead of bulk, then VC 2 and VC 3 in turn; among
pools, `pool` first (R364). -/
def WPort.pick (x : WPort) (st pool : Nat) : Option Nat :=
  let of := fun vc => ([vc * 3 + pool, vc * 3, vc * 3 + 1, vc * 3 + 2]).find? (x.ready st)
  let bulk := if x.rspNext then (of 3).or (of 2) else (of 2).or (of 3)
  (of 0).or (if bulk.isSome && decide (32 ≤ x.quickRun) then bulk else (of 1).or bulk)

/-- The service state after a flit of a (VC, pool). -/
def WPort.served (x : WPort) (st vp : Nat) : WPort :=
  let bulkWaits := (List.range 6).any (fun k => x.ready st (6 + k))
  match vp / 3 with
  | 1 => { x with quickRun := if bulkWaits then x.quickRun + 1 else 0 }
  | 2 => { x with quickRun := 0, rspNext := true }
  | 3 => { x with quickRun := 0, rspNext := false }
  | _ => x

/-- A packet's banks and place after its flits. -/
def setOut (p id : Nat) (g : OutPkt → OutPkt) (s : State) : State :=
  s.setPort p { s.port p with out := (s.port p).out.map (fun o => if o.id = id then g o else o) }

/-- The partition for whose queues a packet of this package travels: that with its tenant tag; none for transit and for the
packets of no tenant (R516, R539). -/
def State.packetPart (s : State) (b : List Byte) : Option Nat :=
  if pkTenant b = 0 ∨ pkSrc b ≠ s.here ∨ pkSField b ≠ s.field then none
  else s.partsNow.find? (fun p => (s.part p).tenant == pkTenant b)

/-- A TIME packet takes its departure time as its FIRST flit leaves: T1 in a request, T3 in a response (R391, R392). -/
def stampTime (now : Nat) (o : OutPkt) : OutPkt :=
  if pkType o.bytes = 1 ∧ o.sent = 0 then
    let b := putAt o.bytes (if byteAt o.bytes 24 = 0 then 32 else 48) (natLE 8 now)
    { o with bytes := putAt b (24 + pkLen b) (natLE 4 (pkCrc b)) }
  else o

/-- The port sends the next DATA flit it has a credit for, or an IDLE flit (R358, R361, R364 to R366). -/
def sendFlit (p pool : Nat) (s : State) : State :=
  let st := s.portState p
  let x := s.port p
  if !(st == 2 || st == 3 || st == 4) then s
  else match (if 1024 ≤ x.replay.length then none else x.pick st pool) with
    | none => s.setPort p (idleFlit p x)
    | some vp =>
      match x.front st vp with
      | none => s
      | some o =>
        let o := stampTime s.now o
        let n := flitCount o.bytes
        let part := (o.bytes.drop (240 * o.sent)).take 240
        let last := o.sent + 1 == n
        let b0 := 64 + vp / 3 * 16 + vp % 3 * 4 + b2n (o.sent == 0) * 2 + b2n last
        let f := flitBytes b0 (if last then part.length / 16 else 0) x.next part x
        let x := (x.served st vp).flown p f
        let x := { x with next := (x.next + 1) % 65536, used := cset 0 x.used vp ((cget 0 x.used vp + 1) % 65536),
                          ackAt := (if x.replay.isEmpty then s.now else x.ackAt),
                          replay := x.replay ++ [⟨x.next, 1, o.id, f⟩] }
        let s := setOut p o.id (fun y => { y with bytes := o.bytes, sent := o.sent + 1, bank := if last then none else o.bank }) (s.setPort p x)
        pmcCount (p / 6) 7 (s.packetPart o.bytes) 1 (countPort p 0 1 (if last then unbindRoute o.bank s else s))

/-- A flit of the replay buffer with the present ACK and CR_COUNT (R361). -/
def refreshed (f : List Byte) (x : WPort) : List Byte :=
  flitBytes (byteAt f 0) (byteAt f 1 / 16) (getLE f 2 2) ((f.drop 12).take 240) x

/-- Every unacknowledged flit is sent again, in order (R361). -/
def resendAll (p : Nat) : List WFlit → WPort → WPort
  | [], x => x
  | f :: fs, x =>
    let b := refreshed f.bytes x
    let x := x.flown p b
    resendAll p fs { x with replay := x.replay.map (fun g => if g.fseq = f.fseq then { g with sends := g.sends + 1, bytes := b } else g) }

/-! ### Leaving and entering UP (R362, R372, R380, R389) -/

/-- A port's flits, credits, partial packets and byte stream go (R362). -/
def WPort.cleared (x : WPort) : WPort :=
  { fails := x.fails, hello := x.hello, last := x.last, cmd := x.cmd }

/-- What a body of an LSA says is UP: ports of a direction. -/
def lsaBundle (l : List Byte) (dir : Nat) : Nat := byteAt l (0x14 + dir)

/-- The newest LSA held of a package. -/
def State.lsa (s : State) (i : Nat) : List Byte := cget [] s.wfn.lsas i

/-- Region `r`. -/
def State.region (s : State) (r : Nat) : Region := cget {} s.wfn.regions r

/-- Replace region `r`. -/
def State.setRegion (s : State) (r : Nat) (x : Region) : State :=
  { s with wfn := { s.wfn with regions := cset {} s.wfn.regions r x } }

/-- Regions of the field: its z-planes. -/
def State.regionCount (s : State) : Nat := if s.planned then s.dims.2.2 else 0

/-- ZG_TOP_DISC follows the regions and the active table. -/
def refreshDisc (s : State) : State :=
  let n := ((List.range s.regionCount).filter (fun r => !(s.region r).stable)).length
  let st := if !s.planned then 0 else if n = 0 then 2 else 1
  let reach := if s.planned then ((List.range (fieldSize s.dims)).filter s.reachable).length else 0
  ((s.setRfld ZG_TOP_DISC 31 30 st).setRfld ZG_TOP_DISC 29 21 n).setRfld ZG_TOP_DISC 20 10 reach

/-- A region is UNSTABLE at an epoch, with event 0x09.0x05 (R380). -/
def unsettle (r epoch : Nat) (s : State) : State :=
  let s := s.setRegion r { epoch := epoch % 4294967296, stable := false, changedAt := s.now }
  wefinEvent 5 4 31 (r + epoch % 4294967296 * 256) false (refreshDisc s)

/-- This package's own LSA body (R379). -/
def ownLsa (s : State) : List Byte :=
  let c := s.here
  let serial := s.reg ZG_ID_SERIAL
  natLE 8 serial.toNat ++ natLE 1 c.1 ++ natLE 1 c.2.1 ++ natLE 1 c.2.2
    ++ natLE 1 (s.field + b2n (s.bundle 6 != []) * 2) ++ natLE 4 (s.region c.2.2).epoch ++ natLE 4 (s.wfn.lsaSeq % 4294967296)
    ++ ((List.range 6).map (fun d => natLE 1 (s.bundle d).length)).flatten ++ zeros 6 ++ (s.wfn.plan.drop 0x10).take 8

/-- The package floods its own LSA on every port UP (R379). -/
def floodOwn (s : State) : State :=
  if !s.planned then s
  else
    let s := { s with wfn := { s.wfn with lsaSeq := s.wfn.lsaSeq + 1, lsaAt := s.now } }
    let l := ownLsa s
    let s := { s with wfn := { s.wfn with lsas := cset [] s.wfn.lsas s.hereIx l } }
    ((List.range 24).filter (fun p => s.portState p == 3 && s.portDir p != 6)).foldl
      (fun s p => sendOneHop p (toPeer p 2 l s) s) s

/-- A port of this package enters or leaves UP: the epochs of its region and of its peer's advance (R380). -/
def portChange (p : Nat) (s : State) : State :=
  if !s.planned then s
  else
    let mine := s.here.2.2
    let peer := s.rfld (portReg p) 37 30
    let s := unsettle mine ((s.region mine).epoch + 1) s
    let s := if s.portDir p < 6 ∧ peer ≠ mine ∧ peer < s.regionCount then unsettle peer ((s.region peer).epoch + 1) s else s
    floodOwn s

/-- ZG_TOP_TWIN follows the twin port and TWIN_VIA; a change raises event 0x09.0x09, and an unreachable twin ends the
waiting TWIN_DIGESTs (R394, R490). -/
def refreshTwin (s : State) : State :=
  let old := s.rfld ZG_TOP_TWIN 63 62
  let via := s.twinVia (s.bank routeTable).active
  let st := if !s.planned || byteAt s.wfn.plan 5 == 0 then 0 else if s.bundle 6 != [] then 1 else if via.isSome then 2 else 3
  let c := coordOf s.dims (via.getD 0)
  let s := s.setRegN ZG_TOP_TWIN (st * 2 ^ 62 + if st = 2 then c.1 * 65536 + c.2.1 * 256 + c.2.2 else 0)
  if st = old then s
  else
    let s := wefinEvent 9 4 31 st false s
    if st = 3 then twinUnreachable s else s

/-- The packets of a port that were not wholly acknowledged go again, whole: on another port of their bundle, or held (R362, R372); a
HELLO or TIME packet, which tells of the port itself, on this port once it runs again (log entry 70). What has arrived whole holds no
buffer of the cleared port. -/
def resendPackets (p : Nat) (s : State) : State :=
  let outs := (s.port p).out.map (fun o => { o with sent := 0, acked := 0 })
  let own := fun (o : OutPkt) => decide (pkType o.bytes ≤ 1)
  let s := s.setPort p { (s.port p).cleared with out := outs.filter own }
  let s := { s with wfn := { s.wfn with arrived := s.wfn.arrived.map (fun a => if a.port = p then { a with hold := 0 } else a) } }
  (outs.filter (fun o => !own o)).foldl (fun s o =>
    sendBundle (p / 6) none (if o.dir = 7 then { o with dir := s.portDir p } else o) s) s

/-- A port takes a state other than UP: when it leaves UP, event 0x09.0x02, new epochs and its packets elsewhere. -/
def leaveTo (p st : Nat) (s : State) : State :=
  let was := s.portState p
  let s := s.setRfld (portReg p) 63 61 st
  let s := if was = 3 then refreshTwin (portChange p (wefinEvent 2 (p / 6) p (p + st * 32) false s)) else s
  if st = 4 then s else resendPackets p s

/-- Entry to RETRAIN (R357, R362). -/
def enterRetrain (p : Nat) (s : State) : State :=
  leaveTo p 5 (s.setRfld (portReg p) 23 16 (min (s.rfld (portReg p) 23 16 + 1) 255))

/-- Held packets of a bundle that has a port UP again bind the table in force and leave (R372; log entry 70). -/
def releaseHeld (s : State) : State :=
  let go := s.wfn.held.filter (fun o => s.bundle o.dir != [])
  let s := { s with wfn := { s.wfn with held := s.wfn.held.filter (fun o => s.bundle o.dir == []) } }
  go.foldl (fun s o => rerouteHeld o s) s

/-- A port comes UP with a verification result: event 0x09.0x01, new epochs (R377, R380). -/
def enterUp (p result : Nat) (s : State) : State :=
  let s := (s.setRfld (portReg p) 63 61 3).setRfld (portReg p) 60 57 result
  releaseHeld (refreshTwin (portChange p (wefinEvent 1 (p / 6) p (p + result * 32) false s)))

/-- A port that drains has nothing left: it is OFF, and its command completes (R389). -/
def finishQuiesce (p : Nat) (s : State) : State :=
  let x := s.port p
  if s.portState p = 4 ∧ x.replay = [] ∧ x.out.all (fun o => o.dir == 7) = true then
    let s := leaveTo p 0 s
    match x.cmd with
    | some (q, seq) => endCommand q seq 0 0 (s.setPort p { s.port p with cmd := none })
    | none => s
  else s

/-! ### Receiving flits (R357, R359) -/

/-- An ACK covers flits: those leave the replay buffer, and packets whose last flit is covered are done. -/
def wfnTakeAck (p ack : Nat) (s : State) : State :=
  let x := s.port p
  match x.replay with
  | [] => s
  | f :: _ =>
    let n := (ack + 65537 - f.fseq) % 65536
    if n = 0 ∨ x.replay.length < n then s
    else
      let rest := x.replay.drop n
      let gone := x.replay.take n
      let out := x.out.map (fun o => { o with acked := o.acked + (gone.filter (fun g => g.pkt == o.id)).length })
      let out := out.filter (fun o => decide (o.acked < flitCount o.bytes))
      finishQuiesce p (s.setPort p { x with replay := rest, out := out, ackAt := s.now })

/-- Flits that stand in the receive buffer of a (VC, pool) of a port (R364). -/
def State.bufferUsed (s : State) (p vp : Nat) : Nat :=
  cget 0 (s.port p).behind vp + ((s.wfn.arrived.filter (fun a => a.port == p && a.vp == vp)).map (·.hold)).sum

/-- The (VC, pool) of a flit. -/
def flitVp (f : List Byte) : Nat := byteAt f 0 / 16 % 4 * 3 + byteAt f 0 / 4 % 4

/-- Add freed flits of a (VC, pool) (R365). -/
def freeFlits (p vp n : Nat) (s : State) : State :=
  s.setPort p { s.port p with freed := cset 0 (s.port p).freed vp ((cget 0 (s.port p).freed vp + n) % 65536) }

/-- A packet that had arrived leaves: its flits, and those of the packet behind it but the LAST, leave the buffer (R365; log entry
70). -/
def leaveBuffer (a : Arrived) (s : State) : State :=
  let s := freeFlits a.port a.vp a.hold s
  match s.wfn.arrived.find? (fun b => b.port == a.port && b.vp == a.vp) with
  | some b =>
    let s := { s with wfn := { s.wfn with arrived := s.wfn.arrived.map (fun x => if x = b then { x with hold := min 1 x.hold } else x) } }
    freeFlits a.port a.vp (b.hold - 1) s
  | none =>
    let n := cget 0 (s.port a.port).behind a.vp
    freeFlits a.port a.vp n (s.setPort a.port { s.port a.port with behind := cset 0 (s.port a.port).behind a.vp 0 })

/-- An accepted DATA flit joins its packet; a LAST flit completes it (R359, R366). It leaves the buffer at once, but for a LAST flit and
for what comes behind a packet that waits (R365). -/
def acceptFlit (p : Nat) (f : List Byte) (s : State) : State :=
  let x := s.port p
  let b0 := byteAt f 0
  let vp := flitVp f
  let last := bitOf b0 0
  let waits := s.wfn.arrived.any (fun a => a.port == p && a.vp == vp)
  let part := (f.drop 12).take (if last then 16 * (byteAt f 1 / 16) else 240)
  let sofar := (if bitOf b0 1 then [] else cget [] x.partials vp) ++ part
  let k := cget 0 x.behind vp
  let x := { x with expect := (x.expect + 1) % 65536, owes := true,
                    freed := if waits || last then x.freed else cset 0 x.freed vp ((cget 0 x.freed vp + 1) % 65536),
                    behind := cset 0 x.behind vp (if last then 0 else if waits then k + 1 else k),
                    partials := cset [] x.partials vp (if last then [] else sofar) }
  let s := countPort p 1 1 (s.setPort p x)
  if last then { s with wfn := { s.wfn with arrived := s.wfn.arrived ++ [⟨p, s.now, vp, sofar, k + 1⟩] } } else s

/-! ### Packets at their destination (R368) -/

/-- A packet identity of a source die: accepted, with the new record, or a duplicate (R368). -/
def seePkt (x : Option PktSeen) (p : Nat) : Option PktSeen :=
  match x with
  | none => some ⟨p, []⟩
  | some y =>
    let ahead := (p + 4294967296 - y.newest) % 4294967296
    if 1 ≤ ahead ∧ ahead ≤ 2147483647 then
      some ⟨p, (y.newest :: y.below).filter (fun k => decide ((p + 4294967296 - k) % 4294967296 ≤ 1024))⟩
    else
      let back := (y.newest + 4294967296 - p) % 4294967296
      if back = 0 ∨ 1024 < back ∨ y.below.contains p then none else some { y with below := p :: y.below }

/-- Whether a packet is addressed to this package. -/
def State.forHere (s : State) (b : List Byte) : Bool := pkDest b == s.here && pkDField b == s.field

/-- The oldest packet that arrived at a port with a type, taken out. -/
def takeArrived (p : Nat) (want : List Byte → Bool) (s : State) : Option (Arrived × State) :=
  match s.wfn.arrived.find? (fun a => a.port == p && want a.bytes) with
  | none => none
  | some a => some (a, leaveBuffer a { s with wfn := { s.wfn with arrived := s.wfn.arrived.erase a } })

/-- The checks of R368 on a packet at its destination: TTL, trailer, tag, duplicate. -/
def receiveChecks (a : Arrived) (s : State) (go : List Byte → State → State) : State :=
  let b := a.bytes
  let d := a.port / 6
  let t := pkType b
  if pkTtl b = 0 then dropPacket d 0 b s
  else if !trailerOk b then dropPacket d 2 b s
  else if 4 ≤ t ∧ pkTenant b = 0 then dropPacket d 3 b s
  else if t = 3 ∨ t = 5 ∨ t = 6 then
    let k := packageKey (pkSField b) (pkSrc b) * 4 + pkSDie b
    match seePkt (cget none s.wfn.seen k) (pkId b) with
    | none => dropPacket d 4 b s
    | some y => go b { s with wfn := { s.wfn with seen := cset none s.wfn.seen k (some y) } }
  else go b s

/-- A packet of a type that reached this package on a port is checked and acted on. -/
def receivePacket (p ptype : Nat) (s : State) (go : Arrived → List Byte → State → State) : State :=
  match takeArrived p (fun b => pkType b == ptype && (decide (ptype ≤ 2) || s.forHere b)) s with
  | none => s
  | some (a, s) => receiveChecks a s (go a)

end Sys2Proof.Machine
end

