-- ==== Sys2Proof/Machine/Window.lean ====
section
/-! DEFINITION. The bit-exact dot product: products, steps, the window, its drain and its records (04_dot_product.md R72
to R87). -/
namespace Sys2Proof.Machine

/-- Product of two operands (R74). -/
def mulNum (a b : Num) : Num :=
  let s := a.s != b.s
  match a.cls, b.cls with
  | .nan, _ => ⟨.nan, false, 0, 0⟩
  | _, .nan => ⟨.nan, false, 0, 0⟩
  | .inf, .zero => ⟨.nan, false, 0, 0⟩
  | .zero, .inf => ⟨.nan, false, 0, 0⟩
  | .inf, _ => ⟨.inf, s, 0, 0⟩
  | _, .inf => ⟨.inf, s, 0, 0⟩
  | .zero, _ => ⟨.zero, s, 0, 0⟩
  | _, .zero => ⟨.zero, s, 0, 0⟩
  | .fin, .fin => ⟨.fin, s, a.m * b.m, a.e + b.e⟩

/-- A magnitude aligned to exponent `l`, truncated (R77). -/
def alignMag (m : Nat) (e l : Int) : Nat := if l ≤ e then m * 2 ^ (e - l).toNat else m / 2 ^ (l - e).toNat

/-- Exponent of the leading bit of m × 2^e. -/
def anchorOf (m : Nat) (e : Int) : Int := (Nat.log2 m : Int) + e

/-- The larger of two anchors, none for no magnitude. -/
def maxAnchor (a : Option Int) (b : Int) : Option Int :=
  match a with
  | some x => some (max x b)
  | none => some b

/-- The signed value of a magnitude. -/
def signedMag (s : Bool) (m : Nat) : Int := if s then -(m : Int) else m

/-! ### Residues modulo 7 (R113) -/

/-- The residue modulo 7 of an integer. -/
def res7 (x : Int) : Nat := (x % 7).toNat

/-- A residue times 2^n; 2^3 leaves a residue as it is. -/
def shiftRes (r n : Nat) : Nat := r * 2 ^ (n % 3) % 7

/-- The residue of a magnitude aligned to exponent `l`, from the residue `r` of the magnitude `m`, the shift, and the residue of
the bits that the shift drops, which the aligner delivers apart. -/
def alignRes (r m : Nat) (e l : Int) : Nat :=
  if l ≤ e then shiftRes r (e - l).toNat
  else
    let n := (l - e).toNat
    shiftRes ((r + 7 - m % 2 ^ n % 7) % 7) (2 * n)

/-- The residue of a signed value from that of its magnitude. -/
def signRes (s : Bool) (r : Nat) : Nat := if s then (7 - r) % 7 else r

/-- The exponent that a step aligns its terms and the old window to; none where nothing has a magnitude (R77). -/
def stepLsb (x : Window) (ts : List Num) : Option Int :=
  let a := (ts.filter (fun t => t.cls == .fin)).foldl (fun a t => maxAnchor a (anchorOf t.m t.e)) (none : Option Int)
  (if x.w = 0 then a else maxAnchor a (anchorOf x.w.natAbs x.lsb)).map (· - 123)

/-- The residue the checker predicts for the new w, from the stored residue of the old window and those of the terms (R113). -/
def stepRes (x : Window) (ts : List Num) (l : Int) : Nat :=
  let old := if x.w = 0 then 0 else signRes (x.w < 0) (alignRes (signRes (x.w < 0) x.res) x.w.natAbs x.lsb l)
  (ts.filter (fun t => t.cls == .fin)).foldl (fun r t => (r + signRes t.s (alignRes (t.m % 7) t.m t.e l)) % 7) (old % 7)

/-- One step of up to four terms, with the residue the checker stores (R75, R77, R113). -/
def windowStep (x : Window) (ts : List Num) : Window :=
  let x := ts.foldl (fun (x : Window) t =>
    { x with empty := false, nan := x.nan || t.cls == .nan, pinf := x.pinf || (t.cls == .inf && !t.s),
             ninf := x.ninf || (t.cls == .inf && t.s), allNeg0 := x.allNeg0 && t.cls == .zero && t.s }) x
  match stepLsb x ts with
  | none => x
  | some l =>
    let carried := if x.w = 0 then 0 else signedMag (x.w < 0) (alignMag x.w.natAbs x.lsb l)
    { x with w := (ts.filter (fun t => t.cls == .fin)).foldl (fun acc t => acc + signedMag t.s (alignMag t.m t.e l)) carried,
             lsb := l, res := stepRes x ts l }

/-- The first check that a step of an engine fails, over its operand pairs: SOURCE 0 a product against the residues of its
operands, 1 an aligned term, 2 the new window (R113). -/
def stepFault (x : Window) (ps : List (Num × Num)) : Option Nat :=
  let ts := ps.map (fun p => mulNum p.1 p.2)
  let y := windowStep x ts
  if ps.any (fun p => (mulNum p.1 p.2).cls == .fin && (mulNum p.1 p.2).m % 7 != p.1.m % 7 * (p.2.m % 7) % 7) then some 0
  else if (stepLsb x ts).any (fun l => ts.any (fun t => t.cls == .fin && alignMag t.m t.e l % 7 != alignRes (t.m % 7) t.m t.e l)) then
    some 1
  else if y.res != res7 y.w then some 2
  else none

/-- A list in groups of four, the last shorter (R75). -/
def groups4 {α : Type} : List α → List (List α)
  | a :: b :: c :: d :: r => [a, b, c, d] :: groups4 r
  | [] => []
  | l => [l]

/-- The products of an element taken in K order, in steps of four (R75). -/
def windowSteps (x : Window) (terms : List Num) : Window := (groups4 terms).foldl windowStep x

/-- The first check that fails in the steps over operand pairs taken in K order (R113). -/
def stepsFault (x : Window) (pairs : List (Num × Num)) : Option Nat :=
  ((groups4 pairs).foldl (fun (r : Option Nat × Window) g =>
    (r.1.orElse (fun _ => stepFault r.2 g), windowStep r.2 (g.map (fun p => mulNum p.1 p.2)))) (none, x)).1

/-- The result of a window before conversion (R80, R81). -/
def windowValue (x : Window) : Num :=
  if x.nan || (x.pinf && x.ninf) then ⟨.nan, false, 0, 0⟩
  else if x.pinf then ⟨.inf, false, 0, 0⟩
  else if x.ninf then ⟨.inf, true, 0, 0⟩
  else if x.w = 0 then ⟨.zero, !x.empty && x.allNeg0, 0, 0⟩
  else ⟨.fin, x.w < 0, x.w.natAbs, x.lsb⟩

/-- The drain of a window to a format, in RNE (R83). -/
def drainTo (reduced : Bool) (code : Nat) (sat : Bool) (x : Window) : Nat := convertTo reduced code 0 sat 0 (windowValue x)

/-- The 32 bytes of a window record (R85, R86). -/
def windowBytes (x : Window) : List Byte :=
  natLE 16 (wrapInt 128 x.w) ++ natLE 2 (wrapInt 16 (if x.w = 0 then 0 else x.lsb))
    ++ natLE 1 (b2n x.allNeg0 * 16 + b2n x.empty * 8 + b2n x.ninf * 4 + b2n x.pinf * 2 + b2n x.nan) ++ zeros 13

/-- The window of a record; none for a malformed one (R85, R86). -/
def windowOf (r : List Byte) : Option Window :=
  let fl := byteAt r 18
  if bitOf fl 3 then some {}
  else
    let w := sext 128 (getLE r 0 16)
    let lsb := sext 16 (getLE r 16 2)
    let x : Window := { w := w, lsb := lsb, nan := bitOf fl 0, pinf := bitOf fl 1, ninf := bitOf fl 2, empty := false,
                        allNeg0 := bitOf fl 4, res := res7 w }
    if w = 0 then some x
    else
      let a := anchorOf w.natAbs lsb
      if -32645 ≤ a ∧ a ≤ 32640 then some x else none

/-- An initial value as the single-term step of R75 (R82). -/
def initialWindow (n : Num) : Window := windowStep {} [n]

end Sys2Proof.Machine
end

