-- ==== Sys2Proof/Machine/CollOps.lean ====
section
/-! DEFINITION. The collective engines: groups, lanes, messages, the ring algorithm, the quick path, aborts
(12_collectives.md R313 to R349). -/
namespace Sys2Proof.Machine

/-! ### Groups (R313 to R318) -/

/-- Group `g`. -/
def State.group (s : State) (g : Nat) : Group := cget {} s.coll.groups g

/-- Replace group `g`. -/
def State.setGroup (s : State) (g : Nat) (x : Group) : State :=
  { s with coll := { s.coll with groups := cset {} s.coll.groups g x } }

/-- Group `g` on die `d`. -/
def State.gdie (s : State) (g d : Nat) : GroupDie := cget {} s.coll.dies (g * 4 + d)

/-- Replace group `g` on die `d`. -/
def State.setGdie (s : State) (g d : Nat) (x : GroupDie) : State :=
  { s with coll := { s.coll with dies := cset {} s.coll.dies (g * 4 + d) x } }

/-- The owner byte of a group's block (R313). -/
def State.cgoOwner (s : State) (g : Nat) : Nat :=
  let b := g / 64
  s.rfld (ZG_CGO_OWN (b / 8)) (b % 8 * 8 + 7) (b % 8 * 8)

/-- Whether a group is owned. -/
def State.groupOwned (s : State) (g : Nat) : Bool := s.cgoOwner g / 64 == 2

/-- A group's tenant identity (R313). -/
def State.groupTenant (s : State) (g : Nat) : Nat := if s.groupOwned g then (s.part (s.cgoOwner g % 64)).tenant else 0

/-- A bank of a group's member list. -/
def Group.members (x : Group) (bank : Nat) : List Nat := if bank = 0 then x.bank0 else x.bank1

/-- The member entry of die `d` of this package (R314). -/
def State.memberHere (s : State) (d : Nat) : Nat :=
  s.here.1 * 2 ^ 24 + s.here.2.1 * 65536 + s.here.2.2 * 256 + d

/-- Coordinates of a member entry. -/
def entryCoord (e : Nat) : Coord := (bitsOf e 31 24, bitsOf e 23 16, bitsOf e 15 8)

/-- Units of the member store a group of `n` members takes (R315). -/
def memberUnits (n : Nat) : Nat := 2 * ceilDiv n 64

/-- ZG_CGO_MSTORE follows the defined groups. -/
def refreshMemberStore (s : State) : State :=
  s.setRfld ZG_CGO_MSTORE 13 0 (8192 - (s.coll.groups.map (fun p => memberUnits p.2.n)).sum)

/-- The posted operations of a group on a die. -/
def GroupDie.ops (x : GroupDie) : List CollOp := x.bulk ++ x.quick

/-- A lane of a group on a die. -/
def GroupDie.lane (x : GroupDie) (quick : Bool) : List CollOp := if quick then x.quick else x.bulk

/-- Replace a lane. -/
def GroupDie.setLane (x : GroupDie) (quick : Bool) (l : List CollOp) : GroupDie :=
  if quick then { x with quick := l } else { x with bulk := l }

/-- The current operation of a lane. -/
def State.currentOp (s : State) (g d : Nat) (quick : Bool) : Option CollOp := ((s.gdie g d).lane quick).head?

/-- Replace the current operation of a lane. -/
def State.setOp (s : State) (g d : Nat) (quick : Bool) (o : CollOp) : State :=
  let x := s.gdie g d
  s.setGdie g d (x.setLane quick (match x.lane quick with
    | [] => []
    | _ :: r => o :: r))

/-! ### Bodies (R327, R347) -/

/-- GROUP. -/
def cGroup (b : List Byte) : Nat := getLE b 0 2 % 4096
/-- DFMT. -/
def cDfmt (b : List Byte) : Nat := byteAt b 2 % 32
/-- OFMT. -/
def cOfmt (b : List Byte) : Nat := byteAt b 3 % 32
/-- RED_OP. -/
def cRed (b : List Byte) : Nat := byteAt b 4 / 64
/-- PARTIAL. -/
def cPartial (b : List Byte) : Nat := byteAt b 4 / 16 % 4
/-- SAT. -/
def cSat (b : List Byte) : Bool := bitOf (byteAt b 4) 3
/-- DIRS. -/
def cDirs (b : List Byte) : Bool := bitOf (byteAt b 4) 2
/-- SHARED. -/
def cShared (b : List Byte) : Bool := bitOf (byteAt b 4) 1
/-- PF_EN. -/
def cPf (b : List Byte) : Bool := bitOf (byteAt b 4) 0
/-- SHARD. -/
def cShard (b : List Byte) : Nat := getLE b 8 4
/-- IN_VA. -/
def cIn (b : List Byte) : Nat := getLE b 0x10 8
/-- OUT_VA. -/
def cOut (b : List Byte) : Nat := getLE b 0x18 8
/-- PF_VA. -/
def cPfVa (b : List Byte) : Nat := getLE b 0x20 8
/-- QUICK: KIND. -/
def qKind (b : List Byte) : Nat := byteAt b 2 / 64
/-- QUICK: RED_OP. -/
def qRed (b : List Byte) : Nat := byteAt b 2 / 16 % 4
/-- QUICK: SAT. -/
def qSat (b : List Byte) : Bool := bitOf (byteAt b 2) 3
/-- QUICK: DFMT. -/
def qDfmt (b : List Byte) : Nat := byteAt b 3 % 32
/-- QUICK: ROOT. -/
def qRoot (b : List Byte) : Nat := getLE b 4 2 % 4096
/-- QUICK: COUNT. -/
def qCount (b : List Byte) : Nat := byteAt b 6
/-- QUICK: IN_VA. -/
def qIn (b : List Byte) : Nat := getLE b 8 8
/-- QUICK: OUT_VA. -/
def qOut (b : List Byte) : Nat := getLE b 0x10 8

/-- Byte width of DFMT. -/
def cWidth (b : List Byte) : Nat := fmtWidth (cDfmt b) / 8

/-- Wire bytes per element (R330). -/
def wireBytes (opc : Nat) (b : List Byte) : Nat :=
  if opc = 0x60 ∧ cRed b = 0 then (if cPartial b = 0 then cWidth b else if cPartial b = 1 then 4 else 32) else cWidth b

/-- Whether two ranges of bytes overlap. -/
def overlaps (a n b m : Nat) : Bool := decide (a < b + m) && decide (b < a + n)

/-- The formats of a bulk collective (R328). -/
def collFormatsBad (opc : Nat) (b : List Byte) : Bool :=
  let f := cDfmt b
  if opc = 0x61 then !(decide (f ≤ 5) || f == 7)
  else if cRed b = 0 then
    if f ≤ 2 then decide (2 < cOfmt b) else !(f == 7 && (cOfmt b == 7 || cOfmt b == 0) && cPartial b != 1)
  else !(decide (f ≤ 2) || f == 7) || cOfmt b != f

/-- REDUCE_SCATTER and ALL_GATHER body, for a group of `n` members (R328). -/
def checkBulk (opc n : Nat) (b : List Byte) : Nat :=
  let w := cWidth b
  let sh := cShard b
  let inB := if opc = 0x60 then n * sh * w else sh * w
  let outB := if opc = 0x60 then sh * (fmtWidth (cOfmt b) / 8) else n * sh * w
  failIf (decide (4096 ≤ getLE b 0 2) || decide (32 ≤ byteAt b 2) || decide (32 ≤ byteAt b 3) || cRed b == 3
    || (opc == 0x61 && cRed b != 0) || (opc == 0x60 && cRed b == 0 && cPartial b == 3) || !zeroAt b 5 3 || !zeroAt b 0x0C 4
    || !zeroAt b 0x28 24 || sh == 0 || (cPf b && cPfVa b % 16 != 0) || cIn b % 16 != 0 || cOut b % 16 != 0
    || sh * w % 16 != 0 || collFormatsBad opc b || overlaps (cIn b) inB (cOut b) outB
    || decide (0x1000000000 < sh * wireBytes opc b)) 1

/-- QUICK body (R347). -/
def checkQuick (b : List Byte) : Nat :=
  let f := qDfmt b
  failIf (decide (4096 ≤ getLE b 0 2) || decide (2 ≤ qKind b) || qRed b == 3 || byteAt b 2 % 8 != 0 || decide (32 ≤ byteAt b 3)
    || !(decide (f ≤ 2) || f == 7) || decide (4096 ≤ getLE b 4 2) || decide (64 < qCount b * (fmtWidth f / 8)) || !zeroAt b 7 1
    || qIn b % 16 != 0 || qOut b % 16 != 0 || !zeroAt b 0x18 8) 1

/-- The digest of an operation's shape (R320). -/
def collDigest (opc : Nat) (b : List Byte) : Nat :=
  let r := if opc = 0x62 then
      natLE 1 opc ++ natLE 1 (qKind b * 4 + qRed b) ++ natLE 1 (qDfmt b) ++ natLE 1 (qCount b) ++ zeros 4 ++ natLE 2 (qRoot b)
        ++ zeros 6
    else
      natLE 1 opc ++ natLE 1 (cRed b) ++ natLE 1 (cDfmt b) ++ natLE 1 (if opc = 0x60 ∧ cRed b = 0 then cPartial b else 0)
        ++ natLE 1 (b2n (cDirs b)) ++ zeros 3 ++ natLE 4 (cShard b) ++ zeros 4
  crc32c r % 65536

/-! ### Events (R352, R353) -/

/-- An event of class 0x08 on a die, with ZG_COL_LAST. -/
def collEvent (d code g rank data : Nat) (pf : Bool) (s : State) : State :=
  let seq := (s.rfld (ZG_COL_LAST d) 49 36 + 1) % 16384
  let s := s.setRegN (ZG_COL_LAST d) (seq * 2 ^ 36 + code * 2 ^ 32 + g * 2 ^ 20 + rank * 256)
  let s := s.setRegN (ZG_COL_LAST_NS d) s.now
  raiseEvent { cls := 8, code := code, src := d, part := if pf then none else some (s.cgoOwner g % 64), data := data,
               alarm := if code = 5 ∨ code = 6 then 2 else 0 } s

/-- The pace state of a die (R340). -/
def State.paceState (s : State) (d : Nat) : Nat :=
  let x := s.power.dies.getD d {}
  b2n x.throttled * 32768 + x.p * 256 + x.k

/-- A last line of defence is up: cooling lost, or a trip (R513, R519 to R523). -/
def State.lastDefence (s : State) : Bool := s.power.coolState != 0 || s.power.tripped

/-- An operation as its next header shows it: the pace state of a die that names itself is sampled then (R340, R512). -/
def State.stamped (s : State) (d : Nat) (o : CollOp) : CollOp :=
  if o.lateRank = o.rank then { o with latePace := s.paceState d } else o

/-! ### Messages (R324) -/

/-- The 32 bytes of a collective header. -/
def collHeader (g : Nat) (o : CollOp) (kind dir round pos ggen : Nat) : List Byte :=
  natLE 1 (kind * 16 + dir * 8) ++ natLE 1 round ++ natLE 2 g ++ natLE 2 ggen ++ natLE 2 (o.epoch % 65536) ++ natLE 4 o.num
    ++ natLE 2 o.digest ++ natLE 2 o.rank ++ natLE 2 o.lateRank ++ natLE 2 o.latePace ++ natLE 4 pos ++ natLE 8 o.lateNs

/-- KIND of a message. -/
def mKind (m : List Byte) : Nat := byteAt m 0 / 16
/-- DIR. -/
def mDir (m : List Byte) : Nat := byteAt m 0 / 8 % 2
/-- ROUND. -/
def mRound (m : List Byte) : Nat := byteAt m 1
/-- GROUP. -/
def mGroup (m : List Byte) : Nat := getLE m 2 2 % 4096
/-- GGEN. -/
def mGgen (m : List Byte) : Nat := getLE m 4 2
/-- EPOCH. -/
def mEpoch (m : List Byte) : Nat := getLE m 6 2
/-- OPSEQ or QSEQ. -/
def mNum (m : List Byte) : Nat := getLE m 8 4
/-- DIGEST. -/
def mDigest (m : List Byte) : Nat := getLE m 12 2
/-- SRC_RANK. -/
def mRank (m : List Byte) : Nat := getLE m 14 2 % 4096
/-- LATE_RANK. -/
def mLateRank (m : List Byte) : Nat := getLE m 16 2 % 4096
/-- LATE_PACE. -/
def mLatePace (m : List Byte) : Nat := getLE m 18 2
/-- POS. -/
def mPos (m : List Byte) : Nat := getLE m 20 4
/-- LATE_NS. -/
def mLateNs (m : List Byte) : Nat := getLE m 24 8
/-- Payload. -/
def mPayload (m : List Byte) : List Byte := m.drop 32

/-- A message leaves die `d` for a member: over the ring edges or the Wefin links. The status that stops it, 0 for none. -/
def collPost (d entry tenant : Nat) (chunk : Option Nat) (m : List Byte) (s : State) : Nat × State :=
  if entryCoord entry = s.here then
    if s.noRoute d (entry % 4) then (0x40, s)
    else (0, { s with coll := { s.coll with inbox := s.coll.inbox ++ [⟨entry % 4, s.memberHere d, tenant, m⟩] } })
  else match inject { ptype := 4, dest := entryCoord entry, dfield := s.field, ddie := entry % 4, sdie := d, tenant := tenant,
                      body := m } chunk s with
    | .sent _ s => (0, s)
    | .noPlan => (0x0301, s)
    | .crossField => (0x0302, s)
    | .unreachable s => (0x40, s)

/-! ### Aborts (R345, R346) -/

/-- The group leaves every lane of a die: how each posted operation is to end. `cause` is the local cause of current
operations, `rest` the status of the others. -/
def laneEndings (x : GroupDie) (cause rest detail : Nat) : List Ending :=
  x.ops.map (fun o => { queue := o.queue, seq := o.seq, status := if o.began then cause else rest, detail := detail })

/-- Move commands that prefetch for operations go with them. -/
def dropPrefetch (ops : List CollOp) (s : State) : State :=
  let mine := fun (q k : Nat) => ops.any (fun o => o.queue == q && o.seq == k)
  let keys := (s.clu.cl.filter (fun p => match p.2.mv with
    | some a => mine a.queue a.seq
    | none => false)).map Prod.fst
  let s := keys.foldl (fun s k => s.updClus (k / 64) (k % 64) fun x => { x with mv := none }) s
  { s with clu := { s.clu with moves := s.clu.moves.filter (fun m => !mine m.queue m.seq) } }

/-- ABORT messages to every other member of the bank an operation bound (R345); a die under a stop sends none (R513). -/
def sendAborts (g d cause : Nat) (o : CollOp) (s : State) : State :=
  if s.lastDefence then s
  else (((s.group g).members o.bank).filter (· ≠ s.memberHere d)).foldl (fun s e =>
    (collPost d e (s.groupTenant g) none (collHeader g (s.stamped d o) 3 0 0 cause (s.group g).ggen) s).2) s

/-- A stand-in for the sender of an ABORT when no operation is posted: the active bank, this die's rank. -/
def idleOp (g d : Nat) (s : State) : CollOp :=
  let b := s.bank (memberTable g)
  let rank := ((s.group g).members b.active).idxOf (s.memberHere d)
  { queue := 0, seq := 0, num := 0, opc := 0, body := [], bank := b.active, epoch := b.epoch, rank := rank, digest := 0, lateRank := rank }

/-- A group aborts on a die: its operations end, it is ABORTED, the other members are told, event 0x08.0x05 (R345). The
operation named by (`q`, `seq`) ends by its caller. -/
def collAbort (g d cause q seq : Nat) (s : State) : State :=
  let x := s.gdie g d
  if x.state ≠ 1 then s
  else
    let o := ((x.ops.find? (fun o => o.queue == q && o.seq == seq)).or x.ops.head?).getD (idleOp g d s)
    let es := (laneEndings x cause 0x0202 0).filter (fun e => !(e.queue == q && e.seq == seq))
    let s := dropPrefetch x.ops (s.setGdie g d { x with state := 3, bulk := [], quick := [] })
    let s := sendAborts g d cause o s
    let s := collEvent d 5 g o.rank (g + cause * 4096 + o.num * 2 ^ 28) false (bump (ZG_COL_ABORTS d) 1 s)
    endAll es s

/-- An operation fails on its die with a status, and its group aborts (R345). -/
def collFail (g d : Nat) (o : CollOp) (status detail : Nat) (s : State) : State :=
  collAbort g d status o.queue o.seq (endCommand o.queue o.seq status detail s)

/-- A dispatched command that is a posted operation leaves its lane by a stop, a reset or a fault: its group aborts (R345). One
that has completed only gives up its prefetch. -/
def collDrop (q seq cause : Nat) (s : State) : State :=
  let s := { s with coll := { s.coll with prefetch := s.coll.prefetch.filter (fun o => !(o.queue == q && o.seq == seq)) } }
  match s.coll.dies.find? (fun p => p.2.ops.any (fun o => o.queue == q && o.seq == seq)) with
  | some (k, _) => collAbort (k / 4) (k % 4) cause q seq s
  | none => s

/-! ### The ring (R328, R329) -/

/-- Elements 0 to H − 1 go clockwise (R329). -/
def ringH (b : List Byte) : Nat := if cDirs b then 16 * (cShard b / 32) else cShard b

/-- First element and element count of a direction's part of a shard. -/
def ringPart (b : List Byte) (dir : Nat) : Nat × Nat := if dir = 0 then (0, ringH b) else (ringH b, cShard b - ringH b)

/-- Elements of a full chunk. -/
def CollOp.chunkElems (o : CollOp) : Nat := 65536 / wireBytes o.opc o.body

/-- Chunks of a step in a direction. -/
def CollOp.chunks (o : CollOp) (dir : Nat) : Nat := ceilDiv (ringPart o.body dir).2 o.chunkElems

/-- First element, within the shard, and count of chunk `c`. -/
def CollOp.chunkAt (o : CollOp) (dir c : Nat) : Nat × Nat :=
  let p := ringPart o.body dir
  (p.1 + c * o.chunkElems, min o.chunkElems (p.2 - c * o.chunkElems))

/-- Slots of a staging quarter (R337). -/
def Group.slots (x : Group) : Nat := x.stageKib / 256

/-- Chunks a member sends in a direction. -/
def CollOp.total (o : CollOp) (n dir : Nat) : Nat := (n - 1) * o.chunks dir

/-- The step and chunk of number `k` in send order: blocks of as many chunks as a quarter has slots, in each block by step
and then by chunk (DESIGN CHOICE, log entry 20: the order that never waits for a slot it holds itself). -/
def sendOrder (steps chunks w k : Nat) : Nat × Nat :=
  let b := k / (w * steps)
  let wb := min w (chunks - b * w)
  let i := k - b * w * steps
  (i / wb, b * w + i % wb)

/-- The number in send order of a step and chunk. -/
def orderOf (steps chunks w t c : Nat) : Nat :=
  let b := c / w
  let wb := min w (chunks - b * w)
  b * w * steps + t * wb + (c - b * w)

/-- The shard of step `t` at rank `r` of `n` (R329). -/
def ringShard (rs : Bool) (r n dir t : Nat) : Nat :=
  let k := if rs then t + 1 else t
  if dir = 0 then (r + n - k % n) % n else (r + k) % n

/-- The successor of a rank in a direction. -/
def ringNext (r n dir : Nat) : Nat := if dir = 0 then (r + 1) % n else (r + n - 1) % n

/-- The predecessor of a rank in a direction. -/
def ringPrev (r n dir : Nat) : Nat := ringNext r n (1 - dir)

/-- A direction of an operation. -/
def CollOp.dir (o : CollOp) (dir : Nat) : CollDir := if dir = 0 then o.cw else o.ccw

/-- Replace a direction. -/
def CollOp.setDir (o : CollOp) (dir : Nat) (x : CollDir) : CollOp := if dir = 0 then { o with cw := x } else { o with ccw := x }

/-- The virtual address of a slot of a staging quarter of a die: 0 receive clockwise, 1 receive counter-clockwise, 2 and 3
send (R337). -/
def stageVa (x : Group) (d quarter slot : Nat) : Nat :=
  (x.stageVa + d * x.stageStride + quarter * x.stageKib * 256 + slot * 65536) % two64

/-- The lowest slot not in use. -/
def freeSlot (used : List CollChunk) (n : Nat) : Option Nat := (List.range n).find? (fun i => !used.any (fun c => c.slot == i))

/-! ### Reduction arithmetic (R330) -/

/-- Elements of a byte string. -/
def elemsOf (w : Nat) (bs : List Byte) : List Nat := (List.range (bs.length / w)).map (fun i => getLE bs (i * w) w)

/-- The windows of an incoming partial; none for a malformed record. -/
def partialIn (reduced : Bool) (b : List Byte) (bs : List Byte) : Option (List Window) :=
  if cPartial b = 2 then (List.range (bs.length / 32)).mapM (fun i => windowOf ((bs.drop (32 * i)).take 32))
  else
    let f := if cPartial b = 1 then 0 else cDfmt b
    some ((elemsOf (if cPartial b = 1 then 4 else cWidth b) bs).map (fun v => initialWindow (decodeElem reduced f v)))

/-- The partials of windows on the wire. -/
def partialOut (reduced : Bool) (b : List Byte) (ws : List Window) : List Byte :=
  (ws.map (fun x =>
    if cPartial b = 2 then windowBytes x
    else if cPartial b = 1 then natLE 4 (drainTo reduced 0 false x)
    else natLE (cWidth b) (drainTo reduced (cDfmt b) (cDfmt b == 7) x))).flatten

/-- The running reduction of a chunk: windows for SUM, encodings for MAX and MIN. -/
inductive Partial where
  | sum (ws : List Window)
  | ext (vs : List Nat)

/-- start of own elements. -/
def redStart (reduced : Bool) (b own : List Byte) : Partial :=
  let vs := elemsOf (cWidth b) own
  if cRed b = 0 then .sum (vs.map (fun v => initialWindow (decodeElem reduced (cDfmt b) v)))
  else .ext vs

/-- combine of an incoming partial with own elements; none for a malformed partial. -/
def chunkCombine (reduced : Bool) (b inc own : List Byte) : Option Partial :=
  let f := cDfmt b
  let vs := elemsOf (cWidth b) own
  if cRed b = 0 then
    (partialIn reduced b inc).map (fun ws => .sum ((ws.zip vs).map (fun p => windowStep p.1 [decodeElem reduced f p.2])))
  else some (.ext (((elemsOf (cWidth b) inc).zip vs).map (fun p => redExtreme reduced f (cRed b) [p.1, p.2])))

/-- The bytes of a partial on the wire. -/
def redWire (reduced : Bool) (b : List Byte) : Partial → List Byte
  | .sum ws => partialOut reduced b ws
  | .ext vs => (vs.map (natLE (cWidth b))).flatten

/-- The drained output of a final partial. -/
def redDrain (reduced : Bool) (b : List Byte) : Partial → List Byte
  | .sum ws => (ws.map (fun x => natLE (fmtWidth (cOfmt b) / 8) (drainTo reduced (cOfmt b) (cSat b) x))).flatten
  | .ext vs => (vs.map (fun v => natLE (cWidth b) (redExtreme reduced (cDfmt b) (cRed b) [v]))).flatten

/-! ### Running the current operation -/

/-- The HBM requester of an operation (R315, R317). -/
def State.collReq (s : State) (o : CollOp) : Req :=
  match s.flight o.queue o.seq with
  | some f => s.req o.queue f 3
  | none => ⟨(s.queue o.queue).part, 0, 0, o.queue, o.seq, (s.queue o.queue).die, 3, false, false⟩

/-- An access of an operation goes on with `g`, fails it, or waits with everything as it was. -/
def collAcc {α : Type} (g d : Nat) (o : CollOp) (s0 : State) (x : Acc α) (k : α → State → State) : State :=
  match x with
  | .ok a s => k a s
  | .fault kind va s => collFail g d o (faultStatus kind) 0 (recordFault (s0.collReq o) kind va s)
  | .wait m va _ => waitAtStack ⟨m, o.queue, o.seq, 3, va, none⟩ s0

/-- A message of the current operation to a rank; a member that cannot be reached fails the operation; a die under a stop of
the last lines of defence sends none (R339, R384, R513). -/
def collSend (g d : Nat) (quick : Bool) (rank kind dir round pos : Nat) (payload : List Byte) (chunk : Option Nat)
    (s : State) (k : State → State) : State :=
  if s.lastDefence then s
  else match s.currentOp g d quick with
  | none => s
  | some o =>
    let e := ((s.group g).members o.bank).getD rank 0
    match collPost d e (s.groupTenant g) chunk (collHeader g (s.stamped d o) kind dir round pos (s.group g).ggen ++ payload) s with
    | (0, s) => k (if chunk.isSome then pmcCount d 8 (some (s.queue o.queue).part) 1 s else s)
    | (st, s) => collFail g d o st 0 s

/-- Read the own elements of a chunk: shard `sh` for REDUCE_SCATTER, the one shard of ALL_GATHER. -/
def readOwn (o : CollOp) (dir c sh : Nat) (s : State) : Acc (List Byte) :=
  let w := cWidth o.body
  let p := o.chunkAt dir c
  let base := if o.opc = 0x60 then sh * cShard o.body else 0
  vaRead (s.collReq o) ((cIn o.body + (base + p.1) * w) % two64) (p.2 * w) s

/-- Whether this member writes shard `sh` of an ALL_GATHER (R333). -/
def writesShard (g : Nat) (o : CollOp) (sh : Nat) (s : State) : Bool :=
  if cShared o.body then
    let ms := (s.group g).members o.bank
    let loc := (List.range ms.length).filter (fun r => entryCoord (ms.getD r 0) == s.here)
    sh % loc.length == loc.idxOf o.rank
  else true

/-- Write a chunk of an output: elements of `w` bytes from element `first` of shard `sh`. -/
def writeOut (o : CollOp) (sh first w : Nat) (bs : List Byte) (s : State) : Acc Unit :=
  vaWrite (s.collReq o) ((cOut o.body + (sh * cShard o.body + first) * w) % two64) bs s

/-- ALL_GATHER writes a chunk of a shard. -/
def gatherOut (g : Nat) (o : CollOp) (sh dir c : Nat) (bs : List Byte) (s : State) : Acc Unit :=
  if writesShard g o sh s then writeOut o sh (o.chunkAt dir c).1 (cWidth o.body) bs s else .ok () s

/-- Later of two arrivals, the lower rank on equal times (R340). -/
def laterArrival (a b : Nat × Nat × Nat) : Nat × Nat × Nat :=
  if a.2.2 < b.2.2 ∨ (a.2.2 = b.2.2 ∧ b.1 < a.1) then b else a

/-- The laggard record, its counters and events, and pace-follow, at the completion of an operation (R341, R342). -/
def noteLag (g d : Nat) (o : CollOp) (s : State) : State :=
  let o := s.stamped d o
  let lag := if o.lateRank = o.rank then 0 else o.lateNs - o.arriveNs
  let dur := s.now - o.arriveNs
  let thr := bitOf o.latePace 15
  let x := s.gdie g d
  let slow := thr && decide (dur ≤ lag * 20)
  let easy := !thr || decide (lag * 100 < dur)
  let x := { x with lagRank := o.lateRank, lagPace := o.latePace, lagNs := min lag 4294967295,
                    lagging := if slow then x.lagging + 1 else 0, calm := if easy then x.calm + 1 else 0 }
  let s := bump (ZG_COL_WAIT_NS d) lag (s.setGdie g d x)
  let lim := s.rfld (ZG_COL_CTRL d) 15 8
  let s := if lim ≠ 0 ∧ lim * 1000 ≤ lag then
      collEvent d 3 g o.lateRank (g + o.lateRank * 4096 + o.latePace * 2 ^ 24 + min (lag / 1000) 16777215 * 2 ^ 40) false s
    else s
  if !x.engaged && (s.group g).paceFollow && s.rfld (ZG_COL_CTRL d) 1 1 == 1 && decide (4 ≤ x.lagging) then
    collEvent d 9 g o.lateRank (g + 4096 + o.latePace * 8192) false
      (s.setGdie g d { x with engaged := true, engagedAt := s.now, followIdx := o.latePace % 256, calm := 0 })
  else if x.engaged && decide (4 ≤ x.calm) then
    collEvent d 9 g o.lateRank (g + o.latePace * 8192) false
      (bump (ZG_COL_PACE_NS d) (s.now - x.engagedAt) (s.setGdie g d { x with engaged := false, lagging := 0 }))
  else if x.engaged && thr then s.setGdie g d { x with followIdx := o.latePace % 256 }
  else s

/-- FOLLOW_IDX of a die: the highest index among the laggards of its engaged groups (R514). -/
def State.followIdx (s : State) (d : Nat) : Nat :=
  ((s.coll.dies.filter (fun p => p.1 % 4 == d && p.2.engaged)).map (fun p => p.2.followIdx)).foldl max 0

/-! ### Prefetch (R336) -/

/-- The prefetch of a bulk operation, in its lane on die `d` or completed, is in state `k` with the move's body; one that needs
nothing more leaves the completed operations. -/
def setPrefetch (g d q seq k : Nat) (body : List Byte) (s : State) : State :=
  let up := fun (o : CollOp) => if o.queue = q ∧ o.seq = seq then { o with pf := k, pfBody := body } else o
  let s := { s with coll := { s.coll with prefetch := (s.coll.prefetch.map up).filter (fun o => o.pf != 2) } }
  let x := s.gdie g d
  if x.bulk.any (fun o => o.queue == q && o.seq == seq) then s.setGdie g d { x with bulk := x.bulk.map up } else s

/-- The prefetch move of an operation that has one is submitted, or tried again while a move runs before it. A move that fails
gives its status to the command, which ends with the operation. -/
def tryPrefetch (g d : Nat) (o : CollOp) (s : State) : State :=
  match s.flight o.queue o.seq with
  | none => s
  | some f =>
    let setPf := setPrefetch g d o.queue o.seq
    let fail := fun (st : Nat) (s : State) =>
      let s := setPf 2 [] s
      if f.phase = 2 then endCommand o.queue o.seq st 0 s
      else s.updFlight o.queue o.seq (fun f => { f with work := [st, 0] })
    let start := fun (body : List Byte) (s : State) => startMove o.queue o.seq f body s (setPf 2 body) fail
    if !cPf o.body || o.pf = 2 then s
    else if o.pf = 1 then start o.pfBody s
    else match vaRead (s.collReq o) (cPfVa o.body) 128 s with
      | .ok desc s => if dOpc desc = 0x21 then start (dBody desc) (setPf 1 (dBody desc) s) else fail 1 s
      | .fault k va t => fail (faultStatus k) (recordFault (s.collReq o) k va t)
      | .wait m va _ => waitAtStack ⟨m, o.queue, o.seq, 3, va, none⟩ s

/-! ### Completion -/

/-- An operation has completed: it reads its member list no more (R315). -/
def releaseMembers (g q seq : Nat) (s : State) : State :=
  match s.flight q seq with
  | none => s
  | some f =>
    (releaseBanks (f.binds.filter (fun b => b.1 == memberTable g)) s).updFlight q seq
      (fun f => { f with binds := f.binds.filter (fun b => b.1 != memberTable g) })

/-- The current operation of a lane has done its own work: the lane moves on, and the command ends unless its prefetch
still runs or has to start (R336, R341). -/
def finishOp (g d : Nat) (quick : Bool) (s : State) : State :=
  match s.currentOp g d quick with
  | none => s
  | some o =>
    let s := if quick then s else tryPrefetch g d o s
    let x := s.gdie g d
    let o := ((x.lane quick).head?).getD o
    let x := x.setLane quick ((x.lane quick).drop 1)
    let s := s.setGdie g d (if quick then { x with lastQuick := some o } else { x with lastBulk := some o })
    let s := noteLag g d o (bump (ZG_COL_OPS d) 1 s)
    match s.flight o.queue o.seq with
    | none => s
    | some f =>
      if quick || !cPf o.body then endCommand o.queue o.seq 0 0 s
      else match f.work with
        | st :: dt :: _ => endCommand o.queue o.seq st dt s
        | _ =>
          let s := (releaseMembers g o.queue o.seq s).updFlight o.queue o.seq (fun f => { f with phase := 2 })
          if o.pf = 2 then s else { s with coll := { s.coll with prefetch := s.coll.prefetch ++ [o] } }

/-- Whether a bulk operation has sent, received and had acknowledged everything. -/
def CollOp.bulkDone (o : CollOp) (n : Nat) : Bool :=
  o.began && [0, 1].all (fun dir =>
    let x := o.dir dir
    let t := o.total n dir
    x.sent == t && x.acked == t && x.seen.length == t)

/-- The operation completes once its work is done. -/
def settleBulk (g d : Nat) (s : State) : State :=
  match s.currentOp g d false with
  | none => s
  | some o => if o.bulkDone (s.group g).n then finishOp g d false s else s

/-! ### Beginning an operation -/

/-- Credits for free receive slots go to the predecessor of each direction in use (R337); during a stop they are owed (R513). -/
def sendCredit (g d dir : Nat) (s : State) : State :=
  match s.currentOp g d false with
  | none => s
  | some o =>
    let n := (s.group g).n
    if n ≤ 1 ∨ o.chunks dir = 0 then s
    else
      let y := o.dir dir
      collSend g d false (ringPrev o.rank n dir) 1 dir 0 y.granted [] none
        (s.setOp g d false (o.setDir dir { y with owed := s.lastDefence })) id

/-- A credit that a stop held back is granted. -/
def sendOwed (g d dir : Nat) (s : State) : State :=
  match s.currentOp g d false with
  | none => s
  | some o => if (o.dir dir).owed && !s.lastDefence then sendCredit g d dir s else s

/-- The own shard of an ALL_GATHER is written, or the whole of a group of one: chunk by chunk. -/
def ownWork (g : Nat) (o : CollOp) (n : Nat) (red : Bool) (s : State) : Acc Unit :=
  Acc.forEach (fun (p : Nat × Nat) s =>
      if o.opc = 0x61 then
        (readOwn o p.1 p.2 o.rank s).bind fun bs s => gatherOut g o o.rank p.1 p.2 bs s
      else if n = 1 then
        (readOwn o p.1 p.2 0 s).bind fun bs s =>
          writeOut o 0 (o.chunkAt p.1 p.2).1 (fmtWidth (cOfmt o.body) / 8) (redDrain red o.body (redStart red o.body bs)) s
      else .ok () s)
    ((List.range (o.chunks 0)).map (fun c => (0, c)) ++ (List.range (o.chunks 1)).map (fun c => (1, c))) s

/-! ### The quick path (R348) -/

/-- One entry of a quick schedule: send to, receive and combine from, or take the result from a rank in a round. -/
inductive QAct where
  | send (peer round : Nat)
  | comb (peer round : Nat)
  | take (peer round : Nat)

/-- The schedule of a rank (R348); rounds are numbered fold-in 0, doubling k + 1, result log2 M + 1, and for a broadcast k
(DESIGN CHOICE, log entry 21). -/
def quickSchedule (b : List Byte) (r n : Nat) : List QAct :=
  if qKind b = 1 ∧ qCount b ≠ 0 then
    let root := qRoot b % n
    let q := (r + n - root) % n
    let from_ := if q = 0 then [] else [QAct.take ((q - 2 ^ Nat.log2 q + root) % n) (Nat.log2 q)]
    from_ ++ ((List.range 12).filter (fun k => decide (q < 2 ^ k) && decide (q + 2 ^ k < n))).map
      (fun k => .send ((q + 2 ^ k + root) % n) k)
  else
    let l := Nat.log2 n
    let m := 2 ^ l
    if m ≤ r then [.send (r - m) 0, .take (r - m) (l + 1)]
    else
      (if r + m < n then [.comb (r + m) 0] else [])
        ++ ((List.range l).map (fun k => [QAct.send (Nat.xor r (2 ^ k)) (k + 1), QAct.comb (Nat.xor r (2 ^ k)) (k + 1)])).flatten
        ++ (if r + m < n then [.send (r + m) (l + 1)] else [])

/-- Format of the values of a quick operation on the wire: binary32 for a floating SUM, else DFMT. -/
def quickFmt (b : List Byte) : Nat := if qKind b = 0 ∧ qRed b = 0 ∧ qDfmt b ≠ 7 then 0 else qDfmt b

/-- combine2 (R348). -/
def quickCombine (reduced : Bool) (b : List Byte) (x y : Nat) : Nat :=
  if qRed b = 0 then
    let f := quickFmt b
    drainTo reduced f (f == 7) (windowStep {} [decodeElem reduced f x, decodeElem reduced f y])
  else redExtreme reduced (qDfmt b) (qRed b) [x, y]

/-- The values of the own input. -/
def quickStart (reduced : Bool) (b bs : List Byte) : List Nat :=
  let vs := elemsOf (fmtWidth (qDfmt b) / 8) bs
  if quickFmt b = qDfmt b then vs else vs.map (fun v => convertTo reduced 0 0 false 0 (decodeElem reduced (qDfmt b) v))

/-- The bytes of the result. -/
def quickFinal (reduced : Bool) (b : List Byte) (vs : List Nat) : List Byte :=
  let f := qDfmt b
  let w := fmtWidth f / 8
  (vs.map (fun v => natLE w (
    if qKind b = 1 then v
    else if qRed b = 0 then (if f = 7 then v else convertTo reduced f 0 (qSat b) 0 (decodeElem reduced 0 v))
    else redExtreme reduced f (qRed b) [v]))).flatten

/-- A quick operation is past its schedule: its output is written once, and it completes when its messages have been
acknowledged (R350; log entry 69). -/
def quickDone (g d steps : Nat) (s : State) : State :=
  match s.currentOp g d true with
  | none => s
  | some o =>
    let settle := fun (s : State) => if o.qhold = [] then finishOp g d true s else s
    if steps < o.qpos then settle s
    else
      let o1 := { o with qpos := steps + 1 }
      if qCount o.body = 0 then settle (s.setOp g d true o1)
      else
        let bs := quickFinal (s.reduced d) o.body o.qvals
        collAcc g d o s (vaWrite (s.collReq o) (qOut o.body) bs s) fun _ s => settle (s.setOp g d true o1)

/-- A quick operation goes on with its schedule as far as it can. -/
def quickRun (g d : Nat) : Nat → State → State
  | 0, s => s
  | fuel + 1, s =>
    match s.currentOp g d true with
    | none => s
    | some o =>
      let acts := quickSchedule o.body o.rank (s.group g).n
      let w := fmtWidth (quickFmt o.body) / 8
      let recv := fun (peer round : Nat) => o.qin.find? (fun m => m.1 == round && m.2.1 == peer)
      match acts[o.qpos]? with
      | none => quickDone g d acts.length s
      | some (.send peer round) =>
        let payload := if qCount o.body = 0 then [] else (o.qvals.map (natLE w)).flatten
        collSend g d true peer 4 0 round 0 payload none
          (if s.lastDefence then s
           else s.setOp g d true { o with qpos := o.qpos + 1, qhold := o.qhold ++ [⟨peer, round, payload, s.now⟩] })
          (quickRun g d fuel)
      | some (.comb peer round) =>
        match recv peer round with
        | none => s
        | some m =>
          let vs := (o.qvals.zip (elemsOf w m.2.2)).map (fun p => quickCombine (s.reduced d) o.body p.1 p.2)
          quickRun g d fuel (s.setOp g d true { o with qpos := o.qpos + 1, qvals := vs })
      | some (.take peer round) =>
        match recv peer round with
        | none => s
        | some m => quickRun g d fuel (s.setOp g d true { o with qpos := o.qpos + 1, qvals := elemsOf w m.2.2 })

/-- Steps that bound a quick schedule. -/
def quickFuel : Nat := 40

/-- The head of a lane becomes the current operation and does what it can by itself (R340). -/
def beginOp (g d : Nat) (quick : Bool) (s : State) : State :=
  match s.currentOp g d quick with
  | none => s
  | some o =>
    if o.began then s
    else
      let n := (s.group g).n
      let slots := (s.group g).slots
      let o1 : CollOp := { o with began := true, arriveNs := s.now, lateRank := o.rank, latePace := s.paceState d, lateNs := s.now,
                                  lastMsg := s.now, cw := { o.cw with granted := slots }, ccw := { o.ccw with granted := slots } }
      if quick then
        let own := qCount o.body != 0 && (qKind o.body == 0 || qRoot o.body % n == o.rank)
        collAcc g d o s (if own then vaRead (s.collReq o) (qIn o.body) (qCount o.body * (fmtWidth (qDfmt o.body) / 8)) s else .ok [] s)
          fun bs s => quickRun g d quickFuel (s.setOp g d true { o1 with qvals := quickStart (s.reduced d) o.body bs })
      else
        collAcc g d o s (ownWork g o n (s.reduced d) s) fun _ s =>
          settleBulk g d (sendCredit g d 1 (sendCredit g d 0 (s.setOp g d false o1)))

/-! ### Sending chunks (R322, R329, R337) -/

/-- Whether a direction of the current operation can send its next chunk. -/
def canSend (x : Group) (o : CollOp) (dir : Nat) : Bool :=
  let y := o.dir dir
  let n := x.n
  let (t, c) := sendOrder (n - 1) (o.chunks dir) x.slots y.sent
  o.began && decide (y.sent < o.total n dir) && decide (y.sent < y.credit) && decide (y.hold.length < x.slots)
    && (t == 0 || y.got.any (fun k => k.step + 1 == t && k.idx == c))

/-- The wire bytes of the next chunk of a direction. -/
def chunkBytes (g d : Nat) (o : CollOp) (dir t c : Nat) (s : State) : Acc (Option (List Byte)) :=
  let x := s.group g
  let n := x.n
  let red := s.reduced d
  let inc := (o.dir dir).got.find? (fun k => k.step + 1 == t && k.idx == c)
  let staged := match inc with
    | some k => vaRead (s.collReq o) (stageVa x d dir k.slot) k.len s
    | none => .ok [] s
  if o.opc = 0x61 then
    (if t = 0 then readOwn o dir c 0 s else staged).bind fun bs s => .ok (some bs) s
  else
    staged.bind fun p s =>
      (readOwn o dir c (ringShard true o.rank n dir t) s).bind fun own s =>
        if t = 0 then .ok (some (redWire red o.body (redStart red o.body own))) s
        else .ok ((chunkCombine red o.body p own).map (redWire red o.body)) s

/-- One chunk of a direction is formed in a send slot and sent; the receive slot it came from is free (R329, R337). -/
def sendChunk (g d dir : Nat) (s : State) : State :=
  match s.currentOp g d false with
  | none => s
  | some o =>
    let x := s.group g
    let y := o.dir dir
    let (t, c) := sendOrder (x.n - 1) (o.chunks dir) x.slots y.sent
    match freeSlot y.hold x.slots with
    | none => s
    | some slot =>
      collAcc g d o s ((chunkBytes g d o dir t c s).bind fun bs s =>
          match bs with
          | none => .ok none s
          | some bs => (vaWrite (s.collReq o) (stageVa x d (2 + dir) slot) bs s).bind fun _ s => .ok (some bs) s) fun bs s =>
        match bs with
        | none => collFail g d o 0x12 0 s
        | some bs =>
          let freed := t != 0
          let y := { y with sent := y.sent + 1, granted := if freed then y.granted + 1 else y.granted,
                            got := if freed then y.got.filter (fun k => !(k.step + 1 == t && k.idx == c)) else y.got,
                            hold := y.hold ++ [⟨t, c, slot, bs.length, y.sent, s.now⟩] }
          collSend g d false (ringNext o.rank x.n dir) 0 dir 0 (t * 2 ^ 20 + c) bs (some c)
            (s.setOp g d false (o.setDir dir y)) fun s => if freed then sendCredit g d dir s else s

/-- Send again the held chunks of a direction that `due` names (R338, R339); none during a stop (R513). -/
def resendChunks (g d dir : Nat) (due : CollChunk → Bool) (s : State) : State :=
  match s.currentOp g d false with
  | none => s
  | some o =>
    let x := s.group g
    if s.lastDefence then s
    else ((o.dir dir).hold.filter due).foldl (fun s k =>
      match s.currentOp g d false with
      | none => s
      | some o =>
        collAcc g d o s (vaRead (s.collReq o) (stageVa x d (2 + dir) k.slot) k.len s) fun bs s =>
          let y := o.dir dir
          let y := { y with hold := y.hold.map (fun h => if h.order = k.order then { h with at_ := s.now } else h) }
          collSend g d false (ringNext o.rank x.n dir) 0 dir 0 (k.step * 2 ^ 20 + k.idx) bs (some k.idx)
            (bump (ZG_COL_RESENDS d) 1 (s.setOp g d false (o.setDir dir y))) id) s

/-- Send again the held quick messages that `due` names (R338, R339, R350); none during a stop (R513). -/
def resendQuick (g d : Nat) (due : QuickMsg → Bool) (s : State) : State :=
  match s.currentOp g d true with
  | none => s
  | some o =>
    if s.lastDefence then s
    else (o.qhold.filter due).foldl (fun s k =>
      match s.currentOp g d true with
      | none => s
      | some o =>
        collSend g d true k.peer 4 0 k.round 0 k.payload none
          (bump (ZG_COL_RESENDS d) 1 (s.setOp g d true
            { o with qhold := o.qhold.map (fun h => if h.peer = k.peer ∧ h.round = k.round then { h with at_ := s.now } else h) })) id) s

/-- The unacknowledged chunks of a direction, or quick messages to a member, that go again on a new route, with event
0x08.0x08 (R339). -/
def rerouteTo (changed : Nat → Nat → Bool) (g d peer : Nat) (bank n : Nat) (resend : State → State) (s : State) : State :=
  let e := ((s.group g).members bank).getD peer 0
  if n = 0 || !changed d e || s.lastDefence then s
  else collEvent d 8 g peer (g + peer * 4096 + n * 2 ^ 24) false (resend s)

/-- A route toward members has changed: unacknowledged chunks and quick messages to those go again at once (R339, R350). -/
def routeChanged (changed : Nat → Nat → Bool) (s : State) : State :=
  s.coll.dies.foldl (fun s p =>
    let g := p.1 / 4
    let d := p.1 % 4
    let s := [0, 1].foldl (fun s dir =>
      match s.currentOp g d false with
      | none => s
      | some o => rerouteTo changed g d (ringNext o.rank (s.group g).n dir) o.bank (o.dir dir).hold.length
                    (resendChunks g d dir (fun _ => true)) s) s
    match s.currentOp g d true with
    | none => s
    | some o => o.qhold.foldl (fun s k => rerouteTo changed g d k.peer o.bank 1 (resendQuick g d (fun h => h.peer == k.peer)) s) s) s

end Sys2Proof.Machine
end

