-- ==== Sys2Proof/Machine/TileOps.lean ====
section
/-! DEFINITION. Arrays, tile commands and streams as the machine holds them: descriptor fields, operand positions, the
pace gate, what a failure discards (05_matrix_engines.md R92 to R120, R238; 17_power_thermal.md R499). -/
namespace Sys2Proof.Machine

/-! ### Descriptor fields (R94) -/

/-- SAT of a tile body. -/
def tSat (b : List Byte) : Bool := bitOf (byteAt b 0) 7
/-- SHAPE: wide-shallow. -/
def tWide (b : List Byte) : Bool := bitOf (byteAt b 0) 6
/-- INIT. -/
def tInit (b : List Byte) : Nat := byteAt b 0 / 16 % 4
/-- OUTREC. -/
def tOutRec (b : List Byte) : Bool := bitOf (byteAt b 0) 3
/-- ASRC. -/
def tASrc (b : List Byte) : Bool := bitOf (byteAt b 0) 2
/-- BSRC. -/
def tBSrc (b : List Byte) : Bool := bitOf (byteAt b 0) 1
/-- KMODE. -/
def tKMode (b : List Byte) : Bool := bitOf (byteAt b 0) 0
/-- AFMT. -/
def tAFmt (b : List Byte) : Nat := byteAt b 1
/-- BFMT. -/
def tBFmt (b : List Byte) : Nat := byteAt b 2
/-- CFMT. -/
def tCFmt (b : List Byte) : Nat := byteAt b 3
/-- OFMT. -/
def tOFmt (b : List Byte) : Nat := byteAt b 4
/-- M. -/
def tM (b : List Byte) : Nat := getLE b 8 2
/-- N. -/
def tN (b : List Byte) : Nat := getLE b 10 2
/-- K. -/
def tK (b : List Byte) : Nat := getLE b 12 4
/-- Rows of a block, BM (R92). -/
def tBM (b : List Byte) : Nat := if tWide b then 4 else 16
/-- Columns of a block, BN (R92). -/
def tBN (b : List Byte) : Nat := if tWide b then 64 else 16
/-- Fill latency H (R92). -/
def tH (b : List Byte) : Nat := if tWide b then 17 else 8
/-- Blocks in a row of blocks (R98). -/
def tBlocksN (b : List Byte) : Nat := ceilDiv (tN b) (tBN b)
/-- Blocks of the output in one cluster (R98). -/
def tBlocks (b : List Byte) : Nat := ceilDiv (tM b) (tBM b) * tBlocksN b
/-- Bytes of an output element (R101). -/
def tOBytes (b : List Byte) : Nat := if tOutRec b then 32 else fmtWidth (tOFmt b) / 8
/-- Bytes of an initial value (R101). -/
def tCBytes (b : List Byte) : Nat := if tInit b = 2 then 32 else fmtWidth (tCFmt b) / 8

/-- Width class of an operand format (R88). -/
def fmtClass (code : Nat) : Nat :=
  if code = 0 then 32 else if code = 1 ∨ code = 2 then 16 else if code = 6 ∨ code = 0x14 then 4 else 8

/-- Width class of the pair (R88). -/
def tClass (b : List Byte) : Nat := max (fmtClass (tAFmt b)) (fmtClass (tBFmt b))

/-- K positions per beat (R90). -/
def tKpb (b : List Byte) : Nat :=
  if tClass b = 32 then 1 else if tClass b = 16 then 4 else if tClass b = 8 then 8 else 16

/-- Stream beats T of a pass (R104). -/
def tT (b : List Byte) : Nat :=
  let s := ceilDiv (tK b) 4
  if tClass b = 32 then 4 * s else if tClass b = 16 then s else if tClass b = 8 then ceilDiv s 2 else ceilDiv s 4

/-! ### State -/

/-- Array `a` of a cluster; S answers as the array it replaces (R116). -/
def State.array (s : State) (d c a : Nat) : ArraySt := cget {} s.tile.arrays (d * 512 + c * 8 + a)

/-- Replace an array. -/
def State.setArray (s : State) (d c a : Nat) (x : ArraySt) : State :=
  { s with tile := { s.tile with arrays := cset {} s.tile.arrays (d * 512 + c * 8 + a) x } }

/-- Final banks of a cluster in the order they became final. -/
def State.finals (s : State) (d c : Nat) : List (Nat × Nat) := cget [] s.tile.finals (d * 64 + c)

/-- Replace the final banks of a cluster. -/
def State.setFinals (s : State) (d c : Nat) (x : List (Nat × Nat)) : State :=
  { s with tile := { s.tile with finals := cset [] s.tile.finals (d * 64 + c) x } }

/-- Rows that wait in a cluster's write buffer or for room in it. -/
def State.spills (s : State) (d c : Nat) : List Spill := cget [] s.tile.spills (d * 64 + c)

/-- Replace the spilled rows of a cluster. -/
def State.setSpills (s : State) (d c : Nat) (x : List Spill) : State :=
  { s with tile := { s.tile with spills := cset [] s.tile.spills (d * 64 + c) x } }

/-- The tile command of a queue and sequence. -/
def State.tileRun (s : State) (q seq : Nat) : Option TileRun := s.tile.runs.find? (fun r => r.queue == q && r.seq == seq)

/-- Apply `g` to a tile command. -/
def State.updRun (s : State) (q seq : Nat) (g : TileRun → TileRun) : State :=
  { s with tile := { s.tile with runs := s.tile.runs.map (fun r => if r.queue == q && r.seq == seq then g r else r) } }

/-- The actuators of die `d`. -/
def State.pw (s : State) (d : Nat) : PwDie := s.power.dies.getD d {}

/-- Change the actuators of die `d`. -/
def State.updPw (s : State) (d : Nat) (g : PwDie → PwDie) : State :=
  { s with power := { s.power with dies := s.power.dies.set d (g (s.pw d)) } }

/-- The open arrays of a die: those admitted whose rank falls into the open window of R499. -/
def PwDie.openArrays (x : PwDie) : List Nat :=
  let n := x.admitted.length
  let k := ceilDiv (x.p * n) 64
  (List.range n).filterMap (fun r =>
    if (Int.ofNat r - Int.ofNat (x.window * k)) % Int.ofNat n < Int.ofNat k then x.admitted[r]? else none)

/-- The pace gate of an array is open: the array is admitted, and open in the present pace window (R111, R499). -/
def State.gateOpen (s : State) (d c a : Nat) : Bool := (s.pw d).openArrays.contains (8 * c + a)

/-! ### Streams as a tile command sees them (R236, R238) -/

/-- The stream with a generation number. -/
def State.streamGen (s : State) (g : Nat) : Option Stream := s.d2d.streams.find? (fun x => x.gen == g)

/-- The open stream with a number on a die: some cluster of it has not been closed. -/
def State.stream (s : State) (d num : Nat) : Option Stream :=
  s.d2d.streams.find? (fun x => x.die == d && x.num == num && x.cls.any (fun c => c.ended != some 0x41))

/-- A stream in one cluster. -/
def Stream.at? (x : Stream) (c : Nat) : Option StreamCl := x.cls.find? (fun y => y.cl == c)

/-! ### Positions (R96, R97) -/

/-- The chunk-ordered K position that is taken `n`-th, over chunks of `kc` positions with K positions in all (R97). -/
def chunkPos (kc k : Nat) : List Nat → Nat → Nat
  | [], n => n
  | j :: js, n =>
    let len := min ((j + 1) * kc) k - j * kc
    if n < len then j * kc + n else chunkPos kc k js (n - len)

/-- The K position taken `n`-th in a cluster (R97). -/
def TileRun.kPos (r : TileRun) (c n : Nat) : Nat :=
  if tKMode r.body then
    chunkPos (getLE r.body 0x54 2) (tK r.body) (((r.ktabs.find? (fun p => p.1 == c)).map Prod.snd).getD []) n
  else n

/-- K positions of stream beat `u`. -/
def TileRun.beatPos (r : TileRun) (c u : Nat) : List Nat :=
  ((List.range (tKpb r.body)).filterMap (fun i => if u * tKpb r.body + i < tK r.body then some (u * tKpb r.body + i) else none)).map (r.kPos c)

/-- Where an operand's element lies: byte and bit from its plane's start, for row or column `n` and position `k` (R96,
R49). -/
def elemBit (code ld k0 n k : Nat) : Nat :=
  if isMx code then (32 * (n * ceilDiv k0 32) + k) * fmtWidth code else n * ld * 8 + k * fmtWidth code

/-- Where an MX operand's scale lies, from its scale plane's start (R49). -/
def scaleByte (k0 n k : Nat) : Nat := n * ceilDiv k0 32 + k / 32

/-- One operand of a tile command: format, element plane, row stride, scale plane, rows, and its stream. -/
structure Side where
  fmt : Nat
  off : Nat
  ld : Nat
  scOff : Nat
  rows : Nat
  stream : Option Nat

/-- Operand A (`false`) or B (`true`). -/
def TileRun.side (r : TileRun) (isB : Bool) : Side :=
  let b := r.body
  if isB then ⟨tBFmt b, getLE b 0x18 4, getLE b 0x1C 4, getLE b 0x24 4, tN b, r.bStream⟩
  else ⟨tAFmt b, getLE b 0x10 4, getLE b 0x14 4, getLE b 0x20 4, tM b, r.aStream⟩

/-- The first row and column of a block (R98). -/
def blockOrigin (b : List Byte) (blk : Nat) : Nat × Nat := (blk / tBlocksN b * tBM b, blk % tBlocksN b * tBN b)

/-- SRAM lines of cluster `c` that a side needs for rows `rows` at positions `ks`; none where a stream position has not
landed. -/
def sideLines (r : TileRun) (isB : Bool) (c n0 n1 : Nat) (ks : List Nat) (s : State) : Option (List Nat) :=
  let x := r.side isB
  let rows := (List.range (n1 - n0)).map (n0 + ·)
  let elems := (rows.map (fun n => ks.map (fun k => elemBit x.fmt x.ld (tK r.body) n k))).flatten
  let bytes := elems.map (fun e => x.off + e / 8)
    ++ (if isMx x.fmt then (rows.map (fun n => ks.map (fun k => x.scOff + scaleByte (tK r.body) n k))).flatten else [])
    ++ elems.map (fun e => x.off + (e + fmtWidth x.fmt - 1) / 8)
  match x.stream with
  | none => some ((bytes.map (fun a => (r.base + a) / 64)).eraseDups)
  | some g =>
    match (s.streamGen g).bind (fun st => (st.at? c).map (fun y => (st, y))) with
    | none => none
    | some (st, y) =>
      if bytes.all (fun a => decide (a < y.landed)) then
        some ((bytes.map (fun a => (st.landOff + a % st.landBytes) / 64)).eraseDups)
      else none

/-- The streams whose positions beat `u` of a pass of block `blk` lacks in a cluster. -/
def lackedStreams (r : TileRun) (c blk u : Nat) (s : State) : List Nat :=
  let (m0, n0) := blockOrigin r.body blk
  let ks := r.beatPos c u
  let side := fun (isB : Bool) (i n k : Nat) => if (sideLines r isB c i (min (i + n) k) ks s).isNone then (r.side isB).stream.toList else []
  side false m0 (tBM r.body) (tM r.body) ++ side true n0 (tBN r.body) (tN r.body)

/-- The named cluster in which a command's next beat lacks a position of a stream: it waits there (R107, R112). -/
def tileStuck (gen : Nat) (r : TileRun) (s : State) : Option Nat :=
  r.cls.find? (fun c => (List.range 8).any (fun a => (s.array r.die c a).passes.any (fun p =>
    p.id.queue == r.queue && p.id.seq == r.seq && decide (p.t < tT r.body) && (lackedStreams r c p.id.block p.t s).contains gen)))

/-! ### Freezes (R107, R108) -/

/-- The counter of a freeze cause: 0 operand, 1 bank, 2 gate. -/
def freezeReg (d cause : Nat) : Nat :=
  if cause = 0 then ZG_MXE_FREEZE_FEED_NS d else if cause = 1 then ZG_MXE_FREEZE_BANK_NS d else ZG_MXE_FREEZE_GATE_NS d

/-- ARRAY_FREEZE: the next beat is withheld; the time until it completes counts against the cause (R107, R108). -/
def freeze (d c a cause : Nat) (s : State) : State :=
  let x := s.array d c a
  match x.frozen with
  | some (_, k) =>
    if k = cause then s
    else
      let s1 := bump (freezeReg d k) (s.now - (x.frozen.getD (s.now, 0)).1) s
      s1.setArray d c a { x with frozen := some (s.now, cause) }
  | none => s.setArray d c a { x with frozen := some (s.now, cause) }

/-- A frozen array goes on. -/
def thaw (d c a : Nat) (s : State) : State :=
  let x := s.array d c a
  match x.frozen with
  | some (since, k) => (bump (freezeReg d k) (s.now - since) s).setArray d c a { x with frozen := none }
  | none => s

/-! ### Failure (R103, R112, R117) -/

/-- The blocks of one command leave an array: its chain, its banks, its repeat. -/
def ArraySt.drop (x : ArraySt) (q seq : Nat) : ArraySt :=
  let mine := fun (p : PassId) => p.queue == q && p.seq == seq
  let kept := x.passes.filter (fun p => !mine p.id)
  { x with chain := x.chain.filter (fun p => !mine p), passes := kept,
           rep := x.rep.bind (fun r => if r.queue == q && r.seq == seq then none
                                       else some { r with left := r.left.filter (fun p => !mine p) }),
           drainRep := x.drainRep.bind (fun k => if k.2.queue == q && k.2.seq == seq then none else some k) }

/-- Whether a command has a block in an array. -/
def ArraySt.serves (x : ArraySt) (q seq : Nat) : Bool :=
  (x.passes.map (·.id) ++ x.chain).any (fun p => p.queue == q && p.seq == seq)

/-- The blocks of one command leave an array, which no longer waits for what they lacked (R112). -/
def leaveArray (d c q seq : Nat) (s : State) (a : Nat) : State :=
  let s := if (s.array d c a).serves q seq then thaw d c a s else s
  s.setArray d c a ((s.array d c a).drop q seq)

/-- A tile command leaves the machine: its undrained banks, its blocks and its spilled rows go. -/
def dropTile (q seq : Nat) (s : State) : State :=
  match s.tileRun q seq with
  | none => s
  | some r =>
    let s := r.cls.foldl (fun s c =>
      let s := (List.range 8).foldl (leaveArray r.die c q seq) s
      let s := s.setFinals r.die c ((s.finals r.die c).filter (fun p => (s.array r.die c p.1).passes.any (fun x => x.bank == p.2)))
      s.setSpills r.die c ((s.spills r.die c).filter (fun x => !(x.queue == q && x.seq == seq)))) s
    { s with tile := { s.tile with runs := s.tile.runs.filter (fun r => !(r.queue == q && r.seq == seq)) } }

/-- A row that was on its way to HBM when its command failed has landed or not, which is not defined: a free value (R103). -/
def landRow (rq : Req) (s : State) (x : Spill) : State :=
  let (v, s) := s.draw
  if v % 2 = 0 then s
  else match vaWrite rq x.va x.bytes s with
    | .ok _ s => s
    | _ => s

/-- Any of the rows of a failed command that wait in the write buffers may have landed (R103). -/
def landSome (q seq : Nat) (s : State) : State :=
  match s.tileRun q seq, s.flight q seq with
  | some r, some f =>
    (r.cls.map (fun c => (s.spills r.die c).filter (fun x => x.queue == q && x.seq == seq))).flatten.foldl (landRow (s.req q f 1)) s
  | _, _ => s

/-- A tile command fails in a cluster after arrays have begun (R103). -/
def failTile (r : TileRun) (c status : Nat) (s : State) : State :=
  endCommand r.queue r.seq status (relCluster (byteAt r.body 5) r.cls c) (dropTile r.queue r.seq (landSome r.queue r.seq s))

end Sys2Proof.Machine
end

