-- ==== Sys2Proof/Machine/Stream.lean ====
section
/-! DEFINITION. Streams between matched clusters, and the end of an owner change (09_die_to_die.md R236 to R246, R129). -/
namespace Sys2Proof.Machine

/-! ### Events and failure (R242 to R246) -/

/-- A link or stream event of a die: ZG_D2D_LAST and its timestamp, the log, the event (R245, R246). -/
def d2dEvent (d kind port strand cluster num : Nat) (part : Option Nat) (s : State) : State :=
  let seq := (s.rfld (ZG_D2D_LAST d) 49 36 + 1) % 16384
  let v := seq * 2 ^ 36 + kind * 2 ^ 32 + port * 2 ^ 30 + strand * 2 ^ 24 + cluster * 2 ^ 18 + num
  let s := (s.setRegN (ZG_D2D_LAST d) v).setRegN (ZG_D2D_LAST_NS d) s.now
  let s := logRegister 6 kind d v s.now s
  raiseEvent { cls := 6, code := kind, src := d, part := part, data := v, log := false,
               alarm := if kind = 4 ∨ kind = 5 then 3 else if kind = 8 then 2 else 0 } s

/-- A stream event. -/
def streamEvent (x : Stream) (kind cl : Nat) (s : State) : State := d2dEvent x.die kind 3 0 cl x.num (some x.part) s

/-- Apply `g` to a stream. -/
def updStream (gen : Nat) (g : Stream → Stream) (s : State) : State :=
  { s with d2d := { s.d2d with streams := s.d2d.streams.map (fun x => if x.gen = gen then g x else x) } }

/-- Apply `g` to a stream in one cluster. -/
def updStreamCl (gen c : Nat) (g : StreamCl → StreamCl) (s : State) : State :=
  updStream gen (fun x => { x with cls := x.cls.map (fun y => if y.cl = c then g y else y) }) s

/-- The page-table bank a stream bound is released (R198). -/
def unbindStream (gen : Nat) (s : State) : State :=
  match s.streamGen gen with
  | some x =>
    match x.bank with
    | some k => updStream gen (fun x => { x with bank := none }) (s.setBank (ptTable x.part) ((s.bank (ptTable x.part)).release k))
    | none => s
  | none => s

/-- Tile commands that read a stream. -/
def tilesOn (gen : Nat) (s : State) : List TileRun :=
  s.tile.runs.filter (fun r => r.aStream == some gen || r.bStream == some gen)

/-- A stream fails in every cluster; it stays open in the aborted state until CLOSE (R242, R244). Tile commands that
wait on it fail with it (R112), and so does an OPEN that waits. -/
def failStream (gen status : Nat) (s : State) : State :=
  match s.streamGen gen with
  | none => s
  | some x =>
    if x.failed.isSome then s
    else
      let s := updStream gen (fun x => { x with failed := some status, waiting := false }) s
      let s := unbindStream gen (streamEvent x 8 ((x.cls.head?.map (·.cl)).getD 0) (bump (ZG_D2D_ABORTS x.die) 1 s))
      let s := if x.waiting then endCommand x.queue x.seq status 0 s else s
      (tilesOn gen s).foldl (fun s r =>
        match tileStuck gen r s with
        | some c => failTile r c status s
        | none => s) s

/-! ### OPEN (R237) -/

/-- Stream body: the reserved fields, ranges and alignments of its ACTION (R236, R237). -/
def checkStream (d : Nat) (b : List Byte) (s : State) : Nat :=
  let act := byteAt b 0 / 64
  let first := byteAt b 0 % 64
  let n := byteAt b 1
  let len := getLE b 8 8
  let sender := byteAt b 2 / 4 % 4
  let hbm := bitOf (byteAt b 2) 1
  let land_ := getLE b 0x14 4
  let size := getLE b 0x18 4
  failIf (act == 3 || decide (128 ≤ n) || decide (16 ≤ byteAt b 2) || decide (2 ≤ byteAt b 3) || decide (1024 ≤ getLE b 4 2)
    || !zeroAt b 6 2 || !zeroAt b 0x1C 4 || !zeroAt b 0x30 16 || s.clusterRangeBad first n
    || (act == 1 && len % 64 != 0)
    || (act == 0 && (len % 64 != 0 || len == 0 || decide (2 ^ 34 < len) || (sender != nextDie d && sender != prevDie d)
          || land_ % 64 != 0 || size % 4096 != 0 || size == 0 || decide (s.sramBound d < land_ + size)
          || (!bitOf (byteAt b 2) 0 && decide (size < len))
          || (if hbm then getLE b 0x20 8 % 64 != 0
              else getLE b 0x10 4 % 64 != 0 || decide (s.sramBound sender < getLE b 0x10 4 + len))
          || (s.stream d (getLE b 4 2)).isSome))) 1

/-- The checks of R128 on the clusters of both dies of a stream: the status, and the state with a refusal recorded. -/
def checkBoth (q seq first count sender : Nat) (s : State) : Nat × State :=
  let x := s.queue q
  let cs := clusterRange first count
  let lost := fun d => (cs.find? (fun c => s.cluOwner d c / 128 != 1 || s.cluOwner d c % 64 != x.part)).map (d * 64 + ·)
  match (((s.flight q seq).bind (·.refused)).or (lost x.die)).or (lost sender) with
  | some k => (3, refuseOwner (k / 64) (k % 64) q x.part x.tenant 0 s)
  | none =>
    if cs.any (fun c => (s.clus x.die c).degraded || (s.clus sender c).degraded) then (0x0601, s) else (0, s)

/-- STREAM_OPEN: opens a stream in every named cluster; with WAIT it completes when the last byte has landed; the reserved ACTION 3 fails
(R236, R237). -/
def execStreamOpen (q : Qn) (seq : Word64) (s : State) : Out :=
  .next <| withFlight q seq.toNat 0x40 s fun f =>
    let b := dBody f.desc
    let x := s.queue q
    let bad := checkStream x.die b s
    let sender := byteAt b 2 / 4 % 4
    if f.phase ≠ 0 ∨ byteAt b 0 / 64 = 1 ∨ byteAt b 0 / 64 = 2 then s
    else if bad ≠ 0 then endCommand q seq.toNat bad 0 s
    else match checkBoth q seq.toNat (byteAt b 0 % 64) (byteAt b 1) sender s with
      | (0, _) =>
        if s.noRoute x.die sender then endCommand q seq.toNat 0x40 0 s
        else
          let t := ptTable x.part
          let hbm := bitOf (byteAt b 2) 1
          let wait := bitOf (byteAt b 3) 0
          let st : Stream :=
            { gen := s.d2d.streamGen + 1, die := x.die, num := getLE b 4 2, part := x.part, tenant := x.tenant, sender := sender,
              srcHbm := hbm, feed := bitOf (byteAt b 2) 0, length := getLE b 8 8, srcOff := getLE b 0x10 4,
              landOff := getLE b 0x14 4, landBytes := getLE b 0x18 4, srcVa := getLE b 0x20 8, srcStride := getLE b 0x28 8,
              bank := if hbm then some (s.bank t).active else none, epoch := if hbm then (s.bank t).epoch else 0, queue := q, seq := seq.toNat, waiting := wait,
              cls := (clusterRange (byteAt b 0 % 64) (byteAt b 1)).map (fun c => { cl := c, stallFrom := s.now }) }
          let s := if hbm then s.setBank t (s.bank t).bind else s
          let s := { s with d2d := { s.d2d with streams := s.d2d.streams ++ [st], streamGen := s.d2d.streamGen + 1 } }
          if wait then s.updFlight q seq.toNat (fun f => { f with phase := 1 }) else endCommand q seq.toNat 0 0 s
      | (st, s) => endCommand q seq.toNat st 0 s

/-! ### RELEASE and CLOSE (R239, R240) -/

/-- The status with which a RELEASE or CLOSE of a stream fails: not open, of another partition, not open in a named
cluster. -/
def streamRefusal (d part num : Nat) (cs : List Nat) (s : State) : Nat ⊕ Stream :=
  match s.stream d num with
  | none => .inl 1
  | some x =>
    if x.part ≠ part then .inl 3
    else if cs.any (fun c => (x.at? c).isNone || (x.at? c).any (fun y => y.ended == some 0x41)) then .inl 1
    else .inr x

/-- Tile commands that name a stream. -/
def tileNames (gen : Nat) (r : TileRun) : Bool := r.aStream == some gen || r.bStream == some gen

/-- STREAM_RELEASE: checks a new release mark, which takes effect once the earlier tile commands that name the stream have
completed (R239). -/
def execStreamRelease (q : Qn) (seq : Word64) (s : State) : Out :=
  .next <| withFlight q seq.toNat 0x40 s fun f =>
    let b := dBody f.desc
    let x := s.queue q
    let bad := checkStream x.die b s
    let cs := clusterRange (byteAt b 0 % 64) (byteAt b 1)
    if f.phase ≠ 0 ∨ byteAt b 0 / 64 ≠ 1 then s
    else if bad ≠ 0 then endCommand q seq.toNat bad 0 s
    else match checkClusters q seq.toNat (byteAt b 0 % 64) (byteAt b 1) s with
      | (0, _) =>
        match streamRefusal x.die x.part (getLE b 4 2) cs s with
        | .inl e => endCommand q seq.toNat e 0 s
        | .inr st =>
          match st.failed with
          | some e => endCommand q seq.toNat e 0 s
          | none =>
            let m := getLE b 8 8
            if decide (st.length < m) || cs.any (fun c => (st.at? c).any (fun y => decide (m < y.mark))) then endCommand q seq.toNat 1 0 s
            else s.updFlight q seq.toNat (fun f => { f with phase := 1, work := [st.gen] })
      | (e, s) => endCommand q seq.toNat e 0 s

/-- Whether the sender of a stream may send its next position to a cluster (R237). -/
def Stream.mayLand (x : Stream) (y : StreamCl) : Bool :=
  decide (y.landed < x.length) && decide (y.landed < y.mark + x.landBytes)

/-- STREAM_RELEASE_APPLY: every tile command that names the stream and was dispatched before has completed, and the mark
takes effect, unless another RELEASE has set a higher one meanwhile (R239). -/
def execStreamReleaseApply (q : Qn) (seq : Word64) (s : State) : Out :=
  .next <| withFlight q seq.toNat 0x40 s fun f =>
    let b := dBody f.desc
    match f.phase, f.work with
    | 1, [gen] =>
      let waits := s.tile.runs.any (fun r => tileNames gen r && decide (r.order < f.order))
        || s.host.queues.any (fun p => !isAdmin p.1 && p.2.die == (s.queue q).die && p.2.flights.any (fun g =>
             g.ended.isNone && g.heldEnd.isNone && dOpc g.desc == 0x10 && g.phase == 0 && decide (g.order < f.order)
             && ((tASrc (dBody g.desc) && getLE (dBody g.desc) 0x28 2 == getLE b 4 2)
                 || (tBSrc (dBody g.desc) && getLE (dBody g.desc) 0x2A 2 == getLE b 4 2))))
      let first := byteAt b 0 % 64
      let low := (s.streamGen gen).any (fun x => x.cls.any (fun y =>
        decide (first ≤ y.cl) && decide (y.cl < first + byteAt b 1) && decide (getLE b 8 8 < y.mark)))
      if waits then s
      else if low then endCommand q seq.toNat 1 0 s
      else
        let s := updStream gen (fun x => { x with cls := x.cls.map (fun y =>
          if first ≤ y.cl ∧ y.cl < first + byteAt b 1 then
            { y with mark := getLE b 8 8, stallFrom := if x.mayLand y then y.stallFrom else s.now }
          else y) }) s
        endCommand q seq.toNat 0 0 s
    | _, _ => s

/-- A stream ends in some clusters with a status; once none is open its page-table bank is released and the number is
free (R240, R241). -/
def endStreamIn (gen status : Nat) (cs : List Nat) (s : State) : State :=
  let s := updStream gen (fun x => { x with cls := x.cls.map (fun y => if cs.contains y.cl then { y with ended := some status } else y) }) s
  match s.streamGen gen with
  | none => s
  | some x =>
    if x.cls.all (fun y => y.ended == some 0x41) then
      let s := unbindStream gen s
      if x.waiting then endCommand x.queue x.seq 0x41 0 (updStream gen (fun x => { x with waiting := false }) s) else s
    else s

/-- STREAM_CLOSE: ends the stream in the clusters it names (R240). -/
def execStreamClose (q : Qn) (seq : Word64) (s : State) : Out :=
  .next <| withFlight q seq.toNat 0x40 s fun f =>
    let b := dBody f.desc
    let x := s.queue q
    let bad := checkStream x.die b s
    let cs := clusterRange (byteAt b 0 % 64) (byteAt b 1)
    if byteAt b 0 / 64 ≠ 2 then s
    else if bad ≠ 0 then endCommand q seq.toNat bad 0 s
    else match checkClusters q seq.toNat (byteAt b 0 % 64) (byteAt b 1) s with
      | (0, _) =>
        match streamRefusal x.die x.part (getLE b 4 2) cs s with
        | .inl e => endCommand q seq.toNat e 0 s
        | .inr st => endCommand q seq.toNat 0 0 (endStreamIn st.gen 0x41 cs s)
      | (e, s) => endCommand q seq.toNat e 0 s

/-! ### Landing (R237, R243) -/

/-- The landed position after block `n` is marked, through the blocks already landed above it. -/
def advanceLanded : Nat → Nat → List Nat → Nat × List Nat
  | 0, p, bs => (p, bs)
  | n + 1, p, bs => if bs.contains (p / 64) then advanceLanded n (p + 64) (bs.filter (· ≠ p / 64)) else (p, bs)

/-- STREAM_LAND: the blocks of a STREAM frame land at their positions in a cluster, and the landed position advances; a
stall ends with the resumed event, and an OPEN that waits completes with the last byte (R237, R243). -/
def landStream (d num c pos : Nat) (data : List Byte) (s : State) : State :=
  match s.stream d num with
  | none => s
  | some x =>
    match x.at? c with
    | none => s
    | some y =>
      if x.failed.isSome || y.ended.isSome then s
      else
        let n := data.length / 64
        let fresh := (List.range n).filter (fun i =>
          decide (y.landed ≤ pos + 64 * i) && !y.blocks.contains (pos / 64 + i) && decide (pos + 64 * i < x.length))
        let s := fresh.foldl (fun s i =>
          sramPut d c (x.landOff + (pos + 64 * i) % x.landBytes) ((data.drop (64 * i)).take 64) s) s
        if fresh = [] then s
        else
          let blocks := y.blocks ++ fresh.map (pos / 64 + ·)
          let (p, rest) := advanceLanded blocks.length y.landed blocks
          let s := updStreamCl x.gen c (fun y => { y with landed := p, blocks := rest, stallFrom := s.now, stalled := false }) s
          let s := if y.stalled then streamEvent x 7 c s else s
          match s.streamGen x.gen with
          | some z =>
            if z.waiting && z.cls.all (fun w => w.ended.isSome || w.landed == z.length) then
              endCommand z.queue z.seq 0 0 (updStream z.gen (fun z => { z with waiting := false }) s)
            else s
          | none => s

/-! ### Stalls (R243, R244) -/

/-- Nanoseconds a stream endpoint has been stalling; none when it is not. -/
def stallNs (x : Stream) (y : StreamCl) (s : State) : Option Nat :=
  if x.failed.isSome || y.ended.isSome || !x.mayLand y then none else some (s.now - y.stallFrom)

/-- STREAM_STALL: an endpoint has stalled for STALL_US (R243). -/
def execStreamStall (die : Die) (num : BitVec 10) (cl : Cluster) (s : State) : Out :=
  .next <|
    match (s.stream die num.toNat).bind (fun x => (x.at? cl).map (fun y => (x, y))) with
    | none => s
    | some (x, y) =>
      match stallNs x y s with
      | none => s
      | some n =>
        if y.stalled || decide (n < max 10 (s.rfld (ZG_D2D_WDOG die) 15 0) * 1000) then s
        else
          let s := updStreamCl x.gen cl (fun y => { y with stalled := true }) s
          streamEvent x 6 cl (bump (ZG_D2D_STALLS die) 1 s)

/-- STREAM_ABORT: a stall has lasted ABORT_MS, and the stream fails (R244). -/
def execStreamAbort (die : Die) (num : BitVec 10) (cl : Cluster) (s : State) : Out :=
  .next <|
    match (s.stream die num.toNat).bind (fun x => (x.at? cl).map (fun y => (x, y))) with
    | none => s
    | some (x, y) =>
      match stallNs x y s with
      | none => s
      | some n =>
        let ms := s.rfld (ZG_D2D_WDOG die) 31 16
        if ms = 0 ∨ n < ms * 1000000 then s else failStream x.gen 0x42 s

/-! ### The end of an owner change (R129, R241) -/

/-- Streams that use a cluster at either end are ended there before it is cleared (R241). -/
def endStreamsAt (d c : Nat) (s : State) : State :=
  (s.d2d.streams.filter (fun x => (x.die == d || x.sender == d) && (x.at? c).any (fun y => y.ended.isNone))).foldl
    (fun s x => endStreamIn x.gen 0x41 [c] (streamEvent x 9 c s)) s

/-- CLU_OWNER_CLEAR: once the dispatched commands and any loan of the cluster have ended, the cluster is zeroed and the new
owner takes effect (R129, R153). -/
def execCluOwnerClear (die : Die) (cl : Cluster) (s : State) : Out :=
  .next <|
    match (s.clus die cl).ownTarget with
    | none => s
    | some new =>
      if s.clusterInUse die cl || (s.clus die cl).loan.isSome then s
      else
        let s := sramZero die cl 0 sramSize (endStreamsAt die cl s)
        let s := s.updClus die cl fun x => { x with vregs := [], slots := [], ownTarget := none, lastBorrower := none }
        let s := s.setRfld (ZG_CLU_OWN die (cl / 8)) (cl % 8 * 8 + 7) (cl % 8 * 8) new
        raiseEvent { cls := 3, code := 4, src := die, data := cl + new / 128 * 64 + new % 64 * 128 } s

end Sys2Proof.Machine
end

