-- ==== Sys2Proof/WellFormed.lean ====
section
/-! DEFINITION. Which operands exist at all. A command with other operands is no command of this hardware, and its meaning faults
(Fault.illFormed). -/
namespace Sys2Proof

/-- The codewords that reach a port with a command: one, or none where no block is given. -/
def laneWords (lane : Fin 4) (blocks : List (BitVec 257)) (wrong : BitVec 10) : List LaneWord :=
  if blocks = [] then [] else [⟨lane, blocks, wrong⟩]

/-- The message of a codeword holds 20 blocks (R356), and at most its 544 symbols are wrong. -/
def wordsWf (words : List LaneWord) : Bool := words.all (fun w => w.blocks.length == 20 && decide (w.wrong.toNat ≤ 544))

/-- A conversion gives one reading of each sensor: 64 of a compute die, 8 of the hub, which is number 4 (R519). -/
def readingsWf (die : Fin 5) (readings : List (BitVec 12)) : Bool := readings.length == if die.val = 4 then 8 else 64

/-- A frame of a unit carries 1 to 8 blocks of 64 bytes (R225). -/
def D2dUnit.wf (f : D2dUnit) : Bool :=
  f.data.length % 64 == 0 && decide (1 ≤ f.data.length) && decide (f.data.length ≤ 512)

/-- What a sender is told to send is well formed. -/
def D2dSend.wf : D2dSend → Bool
  | .data f => f.wf
  | .idle _ | .probe _ | .stream _ _ _ _ | .deal => true

/-- Whether a command is well formed: the three that carry a list of a fixed shape are checked, every other operand is bounded by
its type. -/
def Instr.wf : Instr → Bool
  | .wefinFlitReceive _ lane blocks wrong => wordsWf (laneWords lane blocks wrong)
  | .sensorConvert die readings => readingsWf die readings
  | .d2dFrameSend _ what => what.wf
  | _ => true

end Sys2Proof
end

