-- ==== Sys2Proof/Machine/D2d.lean ====
section
/-! DEFINITION. Frames, strands and edges of the die-to-die links (09_die_to_die.md R224 to R235). -/
namespace Sys2Proof.Machine

/-! ### Sending (R225, R227 to R230) -/

/-- A frame goes on the wires of a strand with the ACK of its reverse direction and the credits of the class whose turn it is
(R225, R228). -/
def putOnWire (e k kind fseq pool : Nat) (f : Option D2dFrame) (s : State) : State :=
  let x := s.tx e k
  let y := s.rx e k
  let w : WireFrame := { kind := kind, fseq := fseq, ack := (y.expect + 4095) % 4096, creditKey := x.turn,
                         credit := cget 0 y.freed x.turn % 128, pool := pool, frame := f }
  let s := s.setTx e k { x with turn := (x.turn + 1) % 51 }
  { s with d2d := { s.d2d with wire := cset [] s.d2d.wire (e * 64 + k) (cget [] s.d2d.wire (e * 64 + k) ++ [w]) } }

/-- Whether a strand can take a frame: its link and it are in service, its replay buffer of 32 has room and a credit is held (R227,
R229, R233, R234). -/
def State.canTake (s : State) (e k cls pool : Nat) : Bool :=
  let x := s.tx e k
  let key := creditKey cls pool
  (s.strand (linkOf e) k).st == 1 && !s.endOut e && decide (x.replay.length < 32) &&
    decide ((cget 0 x.used key + 128 - cget 0 x.back key) % 128 < creditLimit cls pool)

/-- A frame is dealt to the next strand in service, in ascending order from where the rotation stands (R230); none when no
strand can take it. -/
def dealFrame (e : Nat) (f : D2dFrame) (s : State) : Option State :=
  let n := linkStrands (linkOf e)
  let t := cget 0 s.d2d.turn e
  let pool := poolOf e f
  match ((List.range n).map (fun i => (t + i) % n)).find? (fun k => s.canTake e k f.buf pool) with
  | none => none
  | some k =>
    let x := s.tx e k
    let key := creditKey f.buf pool
    let y := { x with next := (x.next + 1) % 4096, replay := x.replay ++ [⟨x.next, 1, pool, f⟩],
                      ackAt := if x.replay = [] then s.now else x.ackAt, used := cset 0 x.used key (cget 0 x.used key + 1) }
    let s := putOnWire e k 1 x.next pool (some f) (s.setTx e k y)
    some { s with d2d := { s.d2d with turn := cset 0 s.d2d.turn e ((k + 1) % n) } }

/-- The classes and pools of an end in the order in which they are asked: CTRL first, its own and the forwarded frames in turn; then
the other classes and the (VC, pool) of transit packets, own and forwarded, in rotation (R229, R231, R366). -/
def dealOrder (e : Nat) (s : State) : List Nat :=
  let a := cget 0 s.d2d.arb (2 * e)
  let b := cget 0 s.d2d.arb (2 * e + 1)
  (List.range 3).map (fun i => (a + i) % 3) ++ (List.range 48).map (fun i => 3 + (b + i) % 48)

/-- What dealing the first waiting frame of a class and pool gives; none where there is none or no strand can take it. -/
def dealHead (e key : Nat) (s : State) : Option (Nat × D2dFrame × State) :=
  match s.waiting e (key / 3) (key % 3) with
  | [] => none
  | (came, f) :: rest => (dealFrame e f (s.setWaiting e (key / 3) (key % 3) rest)).map (fun t => (came, f, t))

/-- The next frame of an end is dealt, and the buffer that a forwarded one stood in is free again; with nothing that can go, nothing
happens (R228 to R231). -/
def dealNext (e : Nat) (s : State) : State :=
  match (dealOrder e s).findSome? (fun key => (dealHead e key s).map (fun r => (key, r))) with
  | none => s
  | some (key, came, f, s) =>
    let s := freeBuffer came f.buf f.hops s
    let s := { s with d2d := { s.d2d with
      arb := if key < 3 then cset 0 s.d2d.arb (2 * e) ((key + 1) % 3) else cset 0 s.d2d.arb (2 * e + 1) ((key + 46) % 48) } }
    let part := if f.cls = 1 then (s.streamGen f.gen).map (·.part) else none
    if e < 12 then pmcCount (endDie e) 6 part 1 s else s

/-- Whether an end may send a frame of a class for a node: a ring end on the route to another die; a hub link only CTRL, MEM_REQ and
MEM_RSP between HD and its die (R9, R229, R234). -/
def State.mayOffer (s : State) (e cls dest : Nat) : Bool :=
  nodeOf e != dest && e == s.endFor (nodeOf e) dest && (!(nodeOf e == 4 || dest == 4) || cls == 0 || cls == 2 || cls == 3)

/-- A frame of a unit other than a stream joins those that wait, with the next transaction number of its unit (R225, R230). -/
def offerFrame (e : Nat) (u : D2dUnit) (s : State) : State :=
  if u.cls = 1 ∨ s.mayOffer e u.cls u.dest = false then s
  else
    let key := seqKey (nodeOf e) u.dest u.cls u.unit.toNat
    let n := cget 0 s.d2d.txn key
    let s := { s with d2d := { s.d2d with txn := cset 0 s.d2d.txn key ((n + 1) % 2048) } }
    enqueueFrame e 0 ⟨u.cls, u.unit.toNat * 2048 + n, u.offset.toNat, u.dest, nodeOf e, 0, 0, u.data, 0⟩ s

/-- Whether the sender of a stream may read and send the next `n` bytes for a cluster by an end (R237). -/
def Stream.maySend (x : Stream) (y : StreamCl) (n : Nat) : Bool :=
  x.failed.isNone && y.ended.isNone && decide (y.sent + n ≤ min x.length (y.mark + x.landBytes))

/-- The next frame of a stream is read from its source and joins those that wait, once the one before it has gone (R237, R242). -/
def readStream (e recv num c blocks : Nat) (s : State) : State :=
  match (s.stream recv num).bind (fun x => (x.at? c).map (fun y => (x, y))) with
  | none => s
  | some (x, y) =>
    let n := 64 * blocks
    if !x.maySend y n || e != s.routeEnd x.sender recv || s.waiting e 1 0 != [] then s
    else
      let go := fun (bs : List Byte) (s : State) =>
        enqueueFrame e 0 ⟨1, c * 1024 + num, y.sent / 64, recv, x.sender, 0, x.gen, bs, 0⟩ (updStreamCl x.gen c (fun y => { y with sent := y.sent + n }) s)
      if x.srcHbm then
        let rq : Req := { part := x.part, bank := x.bank.getD 0, epoch := x.epoch, queue := x.queue, seq := x.seq, die := x.sender, unit := 2,
                          strict := (s.part x.part).det || (s.part x.part).audit }
        match vaRead rq ((x.srcVa + x.cls.findIdx (fun z => z.cl == c) * x.srcStride + y.sent) % two64) n s with
        | .ok bs s => go bs s
        | .fault k va s => failStream x.gen (faultStatus k) (recordFault rq k va s)
        | .wait m va _ => waitAtStack ⟨m, x.queue, x.seq, 2, va, some c⟩ s
      else match sramRead x.sender c (x.srcOff + y.sent) n 5 (some x.part) s with
        | (some bs, s) => go bs s
        | (none, s) => failStream x.gen 0x30 s

/-- D2D_FRAME_SEND: an end sends an IDLE or PROBE frame on a strand in service, or deals the next of the frames that wait, which one of a
stream or of another unit may have joined (R225, R228 to R231). -/
def execD2dFrameSend (e : LinkEnd) (what : D2dSend) (s : State) : Out :=
  if what.wf = false then .fault .illFormed
  else .next <|
    let bare := fun (k kind : Nat) => if (s.strand (linkOf e) k).st = 1 then putOnWire e k kind 0 0 none s else s
    match what with
    | .idle k => bare k 0
    | .probe k => bare k 2
    | .stream recv num cl blocks => dealNext e (readStream e recv num.toNat cl (blocks.val + 1) s)
    | .data u => dealNext e (offerFrame e u s)
    | .deal => dealNext e s

/-! ### Receiving (R226, R228, R230, R231, R233) -/

/-- An ACK is taken: frames up to and including it leave the replay buffer (R227). -/
def takeAck (e k ack : Nat) (s : State) : State :=
  let x := s.tx e k
  let kept := x.replay.filter (fun p => decide (2048 ≤ (ack + 4096 - p.fseq) % 4096))
  if kept.length = x.replay.length then s else s.setTx e k { x with replay := kept, ackAt := s.now }

/-- The MEM_REQ frames held at a node are applied while the next of their unit is there (R230). -/
def applyReqs (d : Nat) : Nat → State → State
  | 0, s => s
  | n + 1, s =>
    let held := cget [] s.d2d.reqHeld d
    let next := fun (f : D2dFrame) => cget 0 s.d2d.reqNext (seqKey f.src d 2 (f.tag / 2048)) == f.tag % 2048
    match held.find? (fun p => next p.2) with
    | none => s
    | some (came, f) =>
      let key := seqKey f.src d 2 (f.tag / 2048)
      let s := { s with d2d := { s.d2d with
        reqHeld := cset [] s.d2d.reqHeld d (held.filter (fun p => !(p.2.src == f.src && p.2.tag == f.tag))),
        reqNext := cset 0 s.d2d.reqNext key ((f.tag + 1) % 2048) } }
      applyReqs d n (freeBuffer came 2 0 s)

/-- A frame that has come to the node it is bound for: STREAM data land, a part of a Wefin packet joins it; a transaction number among
the unit's last 1,024 is discarded; MEM_REQ frames are applied in the order of their numbers (R230, R233, R237). -/
def acceptFrame (d came : Nat) (f : D2dFrame) (s : State) : State :=
  if f.cls = 1 then
    let s := freeBuffer came 1 0 s
    if (s.stream d (f.tag % 1024)).any (fun x => x.gen == f.gen) then
      landStream d (f.tag % 1024) (f.tag / 1024) (f.offset * 64) f.data s
    else s
  else
    let key := seqKey f.src d f.cls (f.tag / 2048)
    let id := f.tag % 2048
    let old := cget [] s.d2d.seen key
    if old.contains id then freeBuffer came f.buf 0 s
    else
      let s := { s with d2d := { s.d2d with seen := cset [] s.d2d.seen key ((id :: old).take 1024) } }
      if f.cls = 2 then
        let held := cget [] s.d2d.reqHeld d ++ [(came, f)]
        applyReqs d held.length { s with d2d := { s.d2d with reqHeld := cset [] s.d2d.reqHeld d held } }
      else
        let s := freeBuffer came f.buf 0 s
        if f.gen = 0 then s else landPacket f s

/-- A frame accepted at an end: one in a forwarding pool joins the frames that wait for the next edge of its route; any other has
arrived (R231). -/
def deliverFrame (e k pool : Nat) (f : D2dFrame) (s : State) : State :=
  let d := nodeOf e
  let came := e * 64 + k + 1
  if pool ≠ 0 then enqueueFrame (s.routeEnd d f.dest) came { f with hops := pool } s else acceptFrame d came f s

/-- What a receiver does with the frame that comes off the wires: its ACK and CREDIT are taken, and a DATA frame with the expected FSEQ
is accepted; with a wrong CRC all but its ACK is discarded (R226, R228). -/
def takeFrame (e k : Nat) (crcOk ackOk : Bool) (w : WireFrame) (s : State) : State :=
  let d := endDie e
  let s := if ackOk then takeAck e k w.ack s else if e < 12 then bump (ZG_D2D_ACKBAD d) 1 s else s
  if !crcOk then
    let x := s.rx e k
    let s := s.setRx e k { x with crcAt := s.now :: x.crcAt.filter (fun t => decide (s.now < t + 1000000)) }
    if e < 12 then bump (ZG_D2D_CRC d (portOf e)) 1 s else s
  else
    let t := s.tx e k
    let s := s.setTx e k { t with back := cset 0 t.back w.creditKey w.credit }
    match w.frame with
    | none => s
    | some f =>
      let x := s.rx e k
      if w.fseq ≠ x.expect then s
      else deliverFrame e k w.pool f (s.setRx e k { x with expect := (x.expect + 1) % 4096 })

/-- D2D_FRAME_RECEIVE: the oldest frame on the wires of a strand reaches an end; the environment says whether its CRC and its ACK_CRC
are still right (R226, R228). -/
def execD2dFrameReceive (e : LinkEnd) (k : Fin 64) (a : D2dArrival) (s : State) : Out :=
  .next <|
    let key := peerEnd e * 64 + k
    match cget [] s.d2d.wire key with
    | [] => s
    | w :: ws =>
      let s := { s with d2d := { s.d2d with wire := cset [] s.d2d.wire key ws } }
      if (s.strand (linkOf e) k).st ≠ 1 then s else takeFrame e k a.crcOk a.ackOk w s

/-- Every unacknowledged frame of a strand goes on the wires again, in FSEQ order with its FSEQ (R227). -/
def resendStrand (e k : Nat) (s : State) : State :=
  let s := (s.tx e k).replay.foldl (fun s p => putOnWire e k 1 p.fseq p.pool (some p.frame) s) s
  if e < 12 then bump (ZG_D2D_REPLAY (endDie e) (portOf e)) (s.tx e k).replay.length s else s

/-- D2D_REPLAY_TIMEOUT: no ACK has advanced for 200 ns, and every unacknowledged frame is sent again (R227). -/
def execD2dReplayTimeout (e : LinkEnd) (k : Fin 64) (s : State) : Out :=
  .next <|
    let x := s.tx e k
    if x.replay = [] ∨ s.now < x.ackAt + 200 ∨ (s.strand (linkOf e) k).st ≠ 1 then s
    else resendStrand e k (s.setTx e k { x with replay := x.replay.map (fun p => { p with sends := p.sends + 1 }), ackAt := s.now })

/-! ### Retraining, repair, edges (R232 to R235) -/

/-- Strands of a link in a state. -/
def State.strandsIn (s : State) (l st : Nat) : Nat := ((List.range (linkStrands l)).filter (fun k => (s.strand l k).st == st)).length

/-- The direction of a link that an end receives. -/
def intoEnd (e : Nat) : Nat := (linkEnds (linkOf e)).idxOf e

/-- Wires of a strand that a spare stands in for, in the direction that an end receives. -/
def Strand.repaired (x : Strand) (e : Nat) : List Nat := x.wires.filter (fun w => w / 66 == intoEnd e)

/-- ZG_D2D_PORTk and ZG_D2D_DOWNk of both ends follow the strands of a link, each with the spares of the direction it receives; a link
out of service stays so until the next start-up (log entry 66). -/
def refreshPort (l : Nat) (s : State) : State :=
  let n := linkStrands l
  let ks := List.range n
  let active := s.strandsIn l 1
  let down := ks.foldl (fun m k => if (s.strand l k).st = 3 then m + 2 ^ k else m) 0
  ((linkEnds l).filter (· < 12)).foldl (fun s e =>
    let d := endDie e
    let p := portOf e
    let used := ks.map (fun k => ((s.strand l k).repaired e).length)
    let v := s.reg (ZG_D2D_PORT d p)
    let st := if fld v 52 51 = 3 then 3 else if s.strandsIn l 0 = n then 0 else if down = 0 then 1 else 2
    let v := setFld (setFld (setFld v 55 53 (nodeOf (peerEnd e))) 52 51 st) 50 44 active
    let v := setFld (setFld v 43 37 (used.filter (· ≠ 0)).length) 36 28 used.sum
    (s.setReg (ZG_D2D_PORT d p) v).setRegN (ZG_D2D_DOWN d p) down) s

/-- EDGE_MIN of a die, 1 to 64 (R234). -/
def State.edgeMin (s : State) (d : Nat) : Nat := max 1 (min 64 (s.rfld (ZG_D2D_CTRL d) 23 17))

/-- The frames on the wires of a strand in both directions are lost. -/
def clearWire (l k : Nat) (s : State) : State :=
  { s with d2d := { s.d2d with wire := (linkEnds l).foldl (fun m e => cset [] m (e * 64 + k) []) s.d2d.wire } }

/-- The unacknowledged frames of a strand leave it, to be dealt again by the end of each one's route (R233, R234). -/
def redealStrand (e k : Nat) (s : State) : State :=
  let x := s.tx e k
  x.replay.foldl (fun s p => enqueueFrame (s.endFor (nodeOf e) p.frame.dest) 0 p.frame s) (s.setTx e k { x with replay := [] })

/-- The frames that wait for an end wait for the end of their route instead, in order (R234). -/
def rerouteWaiting (e : Nat) (s : State) : State :=
  (List.range 51).foldl (fun s key =>
    let fs := s.waiting e (key / 3) (key % 3)
    fs.foldl (fun s p => enqueueFrame (s.endFor (nodeOf e) p.2.dest) p.1 p.2 s) (s.setWaiting e (key / 3) (key % 3) [])) s

/-- The frames from or to a die that wait anywhere go, and those that stood in a forwarding buffer free it (R580). -/
def dropFramesOf (d : Nat) (s : State) : State :=
  let goes := fun (p : Nat × D2dFrame) => p.2.src == d || p.2.dest == d
  let gone := s.d2d.out.flatMap (fun p => p.2.filter goes)
  let s := dropCrossings d s
  gone.foldl (fun s p => freeBuffer p.1 p.2.buf p.2.hops s)
    { s with d2d := { s.d2d with
      out := (s.d2d.out.map (fun (p : Nat × List (Nat × D2dFrame)) => (p.1, p.2.filter (fun x => !goes x)))).filter
        (fun (p : Nat × List (Nat × D2dFrame)) => p.2 != []) } }

/-- EDGE_OUT_OF_SERVICE: a ring edge goes out of service; its traffic takes the other way round, its unacknowledged frames first, and
where no route remains the streams between the dies fail (R234); collectives resend (R339). -/
def edgeOutOfService (l by_ : Nat) (s : State) : State :=
  let a := l
  let b := nextDie l
  let s := (s.setRfld (ZG_D2D_PORT a 0) 52 51 3).setRfld (ZG_D2D_PORT b 1) 52 51 3
  let s := d2dEvent (endDie by_) 4 (portOf by_) 0 0 0 none s
  -- members on this package whose way may have used the edge (R339)
  let moved := fun d e => entryCoord e == s.here && d != e % 4 
    && ((d == a || d == b) && (e % 4 == a || e % 4 == b) || d + e % 4 == 3)
  if s.noRoute a b then
    let s := routeChanged moved s
    let s := raiseAlarm 6 3 a (s.reg (ZG_D2D_LAST a)).toNat s
    (s.d2d.streams.filter (fun x => s.noRoute x.die x.sender)).foldl (fun s x => failStream x.gen 0x40 s) s
  else
    let s := (s.setRfld (ZG_D2D_PORT a 0) 27 27 1).setRfld (ZG_D2D_PORT b 1) 27 27 1
    let s := (List.range 64).foldl (fun s k => redealStrand (3 * b + 1) k (redealStrand (3 * a) k (clearWire l k s))) s
    routeChanged moved (((List.range 4).filter (fun d => !s.dieFailed d)).foldl
      (fun s d => rerouteWaiting (3 * d + 1) (rerouteWaiting (3 * d) s)) s)

/-- HUB_LINK_LOST: a hub link with no strand in service cuts its die off (R235). -/
def hubLinkLost (d : Nat) (s : State) : State := d2dEvent d 5 2 0 0 0 none (s.setRfld (ZG_D2D_PORT d 2) 52 51 3)

/-- A ring edge is judged by EDGE_MIN and a hub link by its strands in service, after a strand or EDGE_MIN has changed (R234,
R235). -/
def judgeLink (l by_ : Nat) (s : State) : State :=
  if l < 4 then
    if s.edgeOut l || s.strandsIn l 0 == 64 || decide (s.edgeMin (endDie by_) ≤ s.strandsIn l 1 + s.strandsIn l 2) then s
    else edgeOutOfService l by_ s
  else if s.rfld (ZG_D2D_PORT (l - 4) 2) 52 51 = 3 ∨ s.strandsIn l 1 ≠ 0 then s else hubLinkLost (l - 4) s

/-- STRAND_RETRAIN: RETRAIN_ERR CRC failures within 1 ms, or an eighth send without an ACK, put a strand in RETRAIN
(R233). -/
def execStrandRetrain (e : LinkEnd) (k : Fin 64) (s : State) : Out :=
  .next <|
    let l := linkOf e
    let x := s.strand l k
    let errs := ((s.rx e k).crcAt.filter (fun t => decide (s.now < t + 1000000))).length
    let stuck := (s.tx e k).replay.any (fun p => decide (8 ≤ p.sends))
    if linkStrands l ≤ k ∨ x.st ≠ 1 ∨ (errs < max 1 (s.rfld (ZG_D2D_CTRL (endDie e)) 31 24) ∧ stuck = false) then s
    else
      let s := clearWire l k (s.setStrand l k { x with st := 2 })
      let s := s.setRx e k { s.rx e k with crcAt := [] }
      judgeLink l e (refreshPort l (d2dEvent (endDie e) 1 (portOf e) k 0 0 none (bump (ZG_D2D_RETRAIN (endDie e)) 1 s)))

/-- A retrained strand replays its unacknowledged frames at one end (R233). -/
def replayEnd (e k : Nat) (s : State) : State :=
  let x := s.tx e k
  resendStrand e k (s.setTx e k { x with replay := x.replay.map (fun p => { p with sends := 1 }), ackAt := s.now })

/-- Spares stand in for wires of a strand, in the direction that an end receives: each is an event and an entry of the repair map
(R232, R233, R245). -/
def repairWires (e k : Nat) (ws : List Nat) (s : State) : State :=
  let l := linkOf e
  ws.foldl (fun s w =>
    let x := s.strand l k
    let n := (x.wires.filter (· == intoEnd e * 66 + w)).length
    let s := s.setStrand l k { x with wires := x.wires ++ [intoEnd e * 66 + w] }
    addHealth ⟨1, endDie e, (e / 12 * 4 + portOf e) * 64 + k, w + 66 * n⟩ (d2dEvent (endDie e) 2 (portOf e) k 0 0 none s)) s

/-- STRAND_RETRAIN_DONE: a retrain ended, `ok` or not, with the wires found bad in the direction that the end receives: the strand replays
and rejoins, stays in RETRAIN, or is DOWN (R233 to R235). -/
def execStrandRetrainDone (e : LinkEnd) (k : Fin 64) (ok : Bool) (bad : List (Fin 66)) (s : State) : Out :=
  .next <|
    let l := linkOf e
    let x := s.strand l k
    if linkStrands l ≤ k ∨ x.st ≠ 2 then s
    else if decide (4 < (x.repaired e).length + bad.length) || (!ok && decide (2 ≤ x.fails)) then
      let s := s.setStrand l k { x with st := 3, fails := x.fails + 1 }
      let s := (linkEnds l).foldl (fun s e => redealStrand e k s) (d2dEvent (endDie e) 3 (portOf e) k 0 0 none s)
      judgeLink l e (refreshPort l s)
    else if !ok then s.setStrand l k { x with fails := x.fails + 1 }
    else
      let s := repairWires e k (bad.map Fin.val) (s.setStrand l k { x with st := 1, fails := 0 })
      refreshPort l ((linkEnds l).foldl (fun s e => replayEnd e k s) s)

end Sys2Proof.Machine
end

