-- ==== Sys2Proof/Machine/SorrelOps.lean ====
section
/-! DEFINITION. What the Sorrel unit of a die holds and borrows (15_sorrel_update.md R435, R454, R455). -/
namespace Sys2Proof.Machine

/-- The Sorrel unit of a die. -/
def State.srlOf (s : State) (d : Nat) : SrlDie := s.srl.getD d {}

/-- Replace the Sorrel unit of a die. -/
def State.setSrl (s : State) (d : Nat) (x : SrlDie) : State := { s with srl := s.srl.set d x }

/-- Whether an opcode is one of Sorrel's. -/
def isSorrel (o : Nat) : Bool := o == 0x70 || o == 0x71

/-- Sorrel commands held on a die, as (queue, command) (R435). -/
def State.srlHeld (s : State) (d : Nat) : List (Nat × Flight) :=
  ((s.host.queues.filter (fun p => !isAdmin p.1 && p.2.die == d)).map (fun p =>
    (p.2.flights.filter (fun f => f.ended.isNone && isSorrel (dOpc f.desc))).map (fun f => (p.1, f)))).flatten

/-- Whether a cluster is borrowed by a Sorrel command. -/
def ClusterSt.borrowedBy (x : ClusterSt) (q seq : Nat) : Bool := x.loan.any (fun l => l.sorrel && l.queue == q && l.seq == seq)

/-- Clusters of a die that a Sorrel command has borrowed. -/
def State.borrowed (s : State) (d q seq : Nat) : List Nat := (List.range 64).filter (fun c => (s.clus d c).borrowedBy q seq)

/-- An array forgets the repeat of a command. -/
def forgetRep (q seq k : Nat) (m : List (Nat × ArraySt)) : List (Nat × ArraySt) :=
  let x := cget ({} : ArraySt) m k
  cset {} m k { x with rep := x.rep.bind (fun r => if r.queue = q ∧ r.seq = seq then none else some r) }

/-- A borrowed cluster goes back: its arrays forget the repeats of the borrower (R455). -/
def returnCluster (d c : Nat) (s : State) : State :=
  match (s.clus d c).loan with
  | none => s
  | some l =>
    let s := bump (ZG_SRL_BORROW_NS d) (s.now - l.since) (s.updClus d c fun x => { x with loan := none })
    let arrays := (List.range 8).foldl (fun m a => forgetRep l.queue l.seq (d * 512 + c * 8 + a) m) s.tile.arrays
    { s with tile := { s.tile with arrays := arrays } }

/-- A Sorrel command gives back every cluster and leaves the unit (R450, R455). -/
def dropSorrel (q seq : Nat) (s : State) : State :=
  let d := (s.queue q).die
  let x := s.srlOf d
  if x.cur == some (q, seq) || x.aside.any (fun a => a.queue == q && a.seq == seq) then
    let s := (s.borrowed d q seq).foldl (fun s c => returnCluster d c s) s
    let mine := x.cur == some (q, seq)
    s.setSrl d { x with cur := if mine then none else x.cur, commit := if mine then none else x.commit,
                        aside := x.aside.filter (fun a => !(a.queue == q && a.seq == seq)) }
  else s

/-- WAIT_MS in force: a write takes effect at the next slice boundary (R461). -/
def State.srlWaitMs (s : State) (d : Nat) : Nat :=
  if (s.srlOf d).cur.isSome then (s.srlOf d).waitMs else s.rfld (ZG_SRL_CTRL d) 15 8

/-- A command is the one in progress. -/
def srlOwn (d q seq phase : Nat) (commit : Option (Nat × Nat)) (s : State) : State :=
  (s.setSrl d { s.srlOf d with cur := some (q, seq), commit := commit, waitMs := s.rfld (ZG_SRL_CTRL d) 15 8 }).updFlight q seq
    (fun f => { f with phase := phase })

/-- STEP and TENSOR_ID of the record that a command has marked TORN and not yet committed (R450). -/
def State.srlTorn (s : State) (q seq : Nat) : Option (Nat × Nat) :=
  let x := s.srlOf (s.queue q).die
  if x.cur = some (q, seq) then x.commit else none

/-- Whether a command other than those of a filler unit on a loan works on a cluster (R454). -/
def State.ownerUses (s : State) (d c : Nat) : Bool :=
  s.host.queues.any (fun p => !isAdmin p.1 && p.2.die == d && p.2.flights.any (fun f => f.ended.isNone &&
    (s.unitLoan p.1 f.seq).isNone &&
    match namedClusters f.desc with
    | some (first, n) => (clusterRange first n).contains c
    | none => false))

/-- Clusters eligible for a Sorrel command of a partition, ascending; those lent to a filler unit among them; none while a new
carve size waits to take effect (R132, R454, R468). -/
def State.eligible (s : State) (d p : Nat) : List Nat :=
  if s.clu.carve.getD d 0 < 2 ∨ s.rfld (ZG_CLU_CARVE d) 8 8 = 1 then []
  else (List.range s.gradeClusters).filter (fun c =>
    s.ownsCluster p d c && !(s.clus d c).degraded && !s.ownerUses d c && !(s.clus d c).loan.any (·.sorrel))

/-- Sorrel takes one cluster: a lent one is to be given back first; a free one is borrowed, its carve-out cleared of another
tenant's bytes (R131, R454). -/
def takeCluster (d q seq p : Nat) (c : Nat) (s : State) : State :=
  let x := s.clus d c
  match x.loan with
  | some l => s.setClus d c { x with loan := some { l with ending := true } }
  | none =>
    let t := (s.part p).tenant
    let s := if x.lastBorrower.any (fun y => y != t) then sramZero d c (s.sramBound d) sramSize s else s
    s.updClus d c fun x => { x with loan := some { sorrel := true, queue := q, seq := seq, part := p, since := s.now },
                                    lastBorrower := some t }

/-- A Sorrel command takes the lowest-numbered eligible clusters, up to its limit (R454). -/
def srlTake (d q seq p limit : Nat) (s : State) : State :=
  let have_ := (s.borrowed d q seq).length
  let most := if limit = 0 then 64 else limit
  ((s.eligible d p).take (most - have_)).foldl (fun s c => takeCluster d q seq p c s) s

/-- An event of class 0x0B on a die, with ZG_SRL_LAST (R460, R461). -/
def srlEvent (d code q : Nat) (part : Option Nat) (step id : Nat) (s : State) : State :=
  let seq := (s.rfld (ZG_SRL_LAST d) 49 36 + 1) % 16384
  let s := (s.setRegN (ZG_SRL_LAST d) (seq * 2 ^ 36 + code * 2 ^ 32 + q % 65536 * 65536)).setRegN (ZG_SRL_LAST_NS d) s.now
  raiseEvent { cls := 0x0B, code := code, src := d, queue := q % 65536, part := part, alarm := if code = 2 ∨ code = 3 then 2 else 0,
               data := q % 65536 + step % 4294967296 * 65536 + id % 65536 * 2 ^ 48 } s

/-- A commit is left torn: it is counted and raised (R451). -/
def tornEvent (d q : Nat) (id : Nat × Nat) (s : State) : State :=
  srlEvent d 3 q (s.queuePart q) id.1 id.2 (bump (ZG_SRL_TORN d) 1 s)

end Sys2Proof.Machine
end

