-- ==== Sys2Proof/Machine/Cleanup.lean ====
section
/-! DEFINITION. A dispatched command leaves every unit that works on it, and ends (R242, R258, R276, R278). -/
namespace Sys2Proof.Machine

/-- A command's moves, vector programs and waits end without effect; a stream that its OPEN waits on stays open; the
group of a posted collective aborts with `cause` (R345); a TWIN_DIGEST leaves the twin table; a Sorrel command gives its
clusters back. -/
def dropUnits (q seq cause : Nat) (s : State) : State :=
  let s := dropSorrel q seq <| dropTwin q seq (collDrop q seq cause (dropTile q seq (landSome q seq s)))
  let keys := (s.clu.cl.filter (fun p =>
    (match p.2.mv with | some a => a.queue == q && a.seq == seq | none => false)
    || (match p.2.prog with | some a => a.queue == q && a.seq == seq | none => false))).map Prod.fst
  let s := keys.foldl (fun s k => s.updClus (k / 64) (k % 64) fun x =>
    { x with mv := (match x.mv with
                    | some a => if a.queue = q ∧ a.seq = seq then none else some a
                    | none => none),
             prog := (match x.prog with
                      | some a => if a.queue = q ∧ a.seq = seq then none else some a
                      | none => none) }) s
  { s with
    clu := { s.clu with moves := s.clu.moves.filter (fun m => !(m.queue == q && m.seq == seq)) },
    syn := { s.syn with waits := s.syn.waits.filter (fun w => !(w.queue == q && w.seq == seq)),
                        remotes := s.syn.remotes.filter (fun w => !(w.queue == q && w.seq == seq)) },
    d2d := { s.d2d with streams := s.d2d.streams.map (fun x =>
      if x.waiting && x.queue == q && x.seq == seq then { x with waiting := false } else x) } }

/-- A command fails: its units drop it and it ends with a status and a detail; inside a commit of Sorrel the record keeps TORN
(R451). -/
def failCommand (q seq status detail : Nat) (s : State) : State :=
  match s.srlTorn q seq with
  | none => endCommand q seq status detail (dropUnits q seq status s)
  | some id => endCommand q seq status 0x8000 (dropUnits q seq status (tornEvent (s.queue q).die q id s))

end Sys2Proof.Machine
end

