-- ==== Sys2Proof/Machine/Tile.lean ====
section
/-! DEFINITION. Tile commands and arrays: dealing, loads, streams, beats, unloads, spills, residue checking and spare-array
substitution (04_dot_product.md, 05_matrix_engines.md, R139, R140). -/
namespace Sys2Proof.Machine

/-! ### TILE_PASS (R94 to R98) -/

/-- Whether a format is an array operand (R38). -/
def arrayOperand (code : Nat) : Bool := decide (code ≤ 6) || isMx code

/-- Whether a row stride and the extents of an operand plane break R95, in `size` bytes of SRAM. -/
def sideBad (x : Side) (k size : Nat) : Bool :=
  if x.stream.isSome then !isMx x.fmt && (x.ld % 16 != 0 || decide (x.ld < elemBytes x.fmt k))
  else if isMx x.fmt then
    let blocks := x.rows * ceilDiv k 32
    x.off % 64 != 0 || x.scOff % 64 != 0 || decide (size < x.off + elemBytes x.fmt (32 * blocks)) || decide (size < x.scOff + blocks)
  else
    x.off % 64 != 0 || x.ld % 16 != 0 || decide (x.ld < elemBytes x.fmt k)
      || (k != 0 && decide (size < x.off + (x.rows - 1) * x.ld + elemBytes x.fmt k))

/-- The operands as the descriptor gives them; a stream operand is marked. -/
def bodySide (b : List Byte) (isB : Bool) : Side :=
  if isB then ⟨tBFmt b, getLE b 0x18 4, getLE b 0x1C 4, getLE b 0x24 4, tN b, if tBSrc b then some 0 else none⟩
  else ⟨tAFmt b, getLE b 0x10 4, getLE b 0x14 4, getLE b 0x20 4, tM b, if tASrc b then some 0 else none⟩

/-- Tile-pass body, but for its SRAM extents (R95). -/
def checkTile (b : List Byte) (s : State) : Nat :=
  let ints := isInt (tAFmt b) && isInt (tBFmt b)
  let floats := !isInt (tAFmt b) && !isInt (tBFmt b)
  let mx := isMx (tAFmt b) || isMx (tBFmt b)
  let kc := getLE b 0x54 2
  failIf (decide (32 ≤ byteAt b 1) || decide (32 ≤ byteAt b 2) || decide (32 ≤ byteAt b 3) || decide (32 ≤ byteAt b 4)
    || decide (64 ≤ byteAt b 5) || decide (128 ≤ byteAt b 6) || !zeroAt b 0x56 10 || tInit b == 3
    || !arrayOperand (tAFmt b) || !arrayOperand (tBFmt b) || !(ints || floats)
    || (tInit b == 1 && !(if ints then tCFmt b == 7 else decide (tCFmt b ≤ 2)))
    || (!tOutRec b && !(if ints then tOFmt b == 7 || tOFmt b == 0 else decide (tOFmt b ≤ 4)))
    || tM b == 0 || tN b == 0 || byteAt b 7 == 0 || s.clusterRangeBad (byteAt b 5) (byteAt b 6)
    || (tKMode b && (kc == 0 || kc % 4 != 0 || (mx && kc % 32 != 0) || decide (65536 < ceilDiv (tK b) kc)))) 1

/-- Offsets, strides and extents in SRAM, within `size` bytes (R95, R130). -/
def tileRangeBad (b : List Byte) (size : Nat) : Bool :=
  let cOff := getLE b 0x2C 4
  let cLd := getLE b 0x30 4
  let oOff := getLE b 0x34 4
  let oLd := getLE b 0x38 4
  let kOff := getLE b 0x50 4
  sideBad (bodySide b false) (tK b) size || sideBad (bodySide b true) (tK b) size
    || (tInit b != 0 && (cOff % 64 != 0 || cLd % 16 != 0 || decide (cLd < tN b * tCBytes b)
          || decide (size < cOff + (tM b - 1) * cLd + tN b * tCBytes b)))
    || oOff % 64 != 0 || oLd % 16 != 0 || decide (oLd < tN b * tOBytes b) || decide (size < oOff + getLE b 0x3C 4)
    || (tKMode b && (kOff % 64 != 0 || decide (size < kOff + 2 * ceilDiv (tK b) (getLE b 0x54 2))))

/-- The bytes of an operand from its first to past its last byte read, as stream positions (R238). -/
def sideSpan (x : Side) (k : Nat) : Nat × Nat :=
  if isMx x.fmt then
    let blocks := x.rows * ceilDiv k 32
    let hi := max (x.off + elemBytes x.fmt (32 * blocks)) (x.scOff + blocks)
    (min x.off x.scOff, hi)
  else (x.off, x.off + (x.rows - 1) * x.ld + elemBytes x.fmt k)

/-- The stream checks of R238 for one operand in the named clusters: a status, and the stream's generation. -/
def streamCheck (d part num : Nat) (cs : List Nat) (x : Side) (k : Nat) (s : State) : Nat × Option Nat :=
  match s.stream d num with
  | none => (1, none)
  | some st =>
    if st.part ≠ part then (3, none)
    else match st.failed with
      | some e => (e, none)
      | none =>
        let (lo, hi) := sideSpan x k
        let bad := cs.any (fun c =>
          match st.at? c with
          | none => true
          | some y => y.ended.isSome || (k != 0 && decide (lo < y.mark)))
        if bad || (k != 0 && (decide (st.length < hi) || decide (st.landBytes < hi - lo))) then (1, none) else (0, some st.gen)

/-- The stream checks of both operands. -/
def tileStreams (q : Nat) (cs : List Nat) (b : List Byte) (s : State) : Nat × Option Nat × Option Nat :=
  let x := s.queue q
  let a := if tASrc b then streamCheck x.die x.part (getLE b 0x28 2) cs (bodySide b false) (tK b) s else (0, none)
  let c := if tBSrc b then streamCheck x.die x.part (getLE b 0x2A 2) cs (bodySide b true) (tK b) s else (0, none)
  (firstFail [a.1, c.1], a.2, c.2)

/-- Whether a table is a permutation of 0 to its length − 1. -/
def isPermutation (t : List Nat) : Bool := (List.range t.length).all (fun i => t.contains i)

/-- CHUNK_TABLE_CHECK (R97): every named cluster reads and checks its table; the tables, and each failure as (cluster,
status). -/
def chunkTables (d base : Nat) (part : Option Nat) (b : List Byte) :
    List Nat → State → List (Nat × List Nat) × List (Nat × Nat) × State
  | [], s => ([], [], s)
  | c :: cs, s =>
    let n := ceilDiv (tK b) (getLE b 0x54 2)
    match sramRead d c (base + getLE b 0x50 4) (2 * n) 0 part s with
    | (none, s) =>
      let (ts, fs, s) := chunkTables d base part b cs s
      (ts, (c, 0x30) :: fs, s)
    | (some bs, s) =>
      let t := (List.range n).map (fun i => getLE bs (2 * i) 2)
      let (ts, fs, s) := chunkTables d base part b cs s
      if isPermutation t then ((c, t) :: ts, fs, s) else (ts, (c, 1) :: fs, s)

/-- The arrays of ARRAY_MASK, ascending. -/
def maskArrays (mask : Nat) : List Nat := (List.range 8).filter (fun a => bitOf mask a)

/-- The blocks dealt to the `i`-th of `p` arrays (R98). -/
def dealBlocks (blocks p i : Nat) : List Nat := (List.range blocks).filter (fun b => b % p == i)

/-- The blocks of a command join the chains of the arrays of one cluster. -/
def dealCluster (r : TileRun) (c : Nat) (s : State) : State :=
  let arrays := maskArrays (byteAt r.body 7)
  (List.range arrays.length).foldl (fun s i =>
    let a := arrays.getD i 0
    let x := s.array r.die c a
    s.setArray r.die c a { x with chain := x.chain ++
      (dealBlocks (tBlocks r.body) arrays.length i).map (fun b => ⟨r.queue, r.seq, b⟩) }) s

/-- Whether a tile command dispatched earlier on the die has not dealt its blocks (R100). -/
def tileAhead (d order : Nat) (s : State) : Bool :=
  s.host.queues.any (fun p => !isAdmin p.1 && p.2.die == d && p.2.flights.any (fun f =>
    f.ended.isNone && f.heldEnd.isNone && dOpc f.desc == 0x10 && f.phase == 0 && decide (f.order < order)))

/-- TILE_PASS: checks its descriptor, its clusters and the chunk tables, then deals its blocks to arrays as passes (R94 to
R100). -/
def execTilePass (q : Qn) (seq : Word64) (s : State) : Out :=
  .next <| withFlight q seq.toNat 0x10 s fun f =>
    let b := dBody f.desc
    let d := (s.queue q).die
    let bad := checkTile b s
    let (base, size) := s.sramWindow q seq.toNat d
    let cs := s.cmdClusters q seq.toNat (byteAt b 5) (byteAt b 6)
    if f.phase ≠ 0 ∨ tileAhead d f.order s = true then s
    else if bad ≠ 0 then endCommand q seq.toNat bad 0 s
    else if tileRangeBad b size then
      if tileRangeBad b (2 ^ 64) || (s.unitLoan q seq.toNat).isNone then endCommand q seq.toNat 1 0 s
      else endCommand q seq.toNat 3 0 (refuseCarve q seq.toNat d (cs.headD 0) s)
    else
      let (st, ga, gb) := tileStreams q cs b s
      if st ≠ 0 then endCommand q seq.toNat st 0 s
      else match checkClusters q seq.toNat (byteAt b 5) (byteAt b 6) s with
        | (0, _) =>
          let (tabs, fails, s) := if tKMode b then chunkTables d base (s.queuePart q) b cs s else ([], [], s)
          match fails with
          | (c, e) :: _ => endCommand q seq.toNat e (relCluster (byteAt b 5) cs c) s
          | [] =>
            let r : TileRun := { queue := q, seq := seq.toNat, die := d, order := f.order, body := b, cls := cs, base := base,
                                 ktabs := tabs, aStream := ga, bStream := gb, left := tBlocks b * cs.length }
            let s := s.updFlight q seq.toNat (fun f => { f with phase := 1 })
            let s := { s with tile := { s.tile with runs := s.tile.runs ++ [r] } }
            cs.foldl (fun s c => dealCluster r c s) s
        | (st, s) => endCommand q seq.toNat st 0 s

/-! ### STATIONARY_LOAD (R101, R82, R86) -/

/-- An element of C, or a record, as the window it starts; none for a malformed record. -/
def initOf (reduced : Bool) (b : List Byte) (bs : List Byte) : Option Window :=
  if tInit b = 2 then windowOf bs else some (initialWindow (decodeElem reduced (tCFmt b) (leNat bs)))

/-- Rows of a block that lie inside M × N, as offsets from its first row. -/
def blockRows (b : List Byte) (blk : Nat) : List Nat := (List.range (tBM b)).filter (fun i => decide ((blockOrigin b blk).1 + i < tM b))

/-- Columns of a block that lie inside M × N. -/
def blockCols (b : List Byte) (blk : Nat) : Nat := min (tBN b) (tN b - (blockOrigin b blk).2)

/-- The initial values of a block are read row by row: the windows, or the status of a failure. -/
def loadRows (r : TileRun) (c blk : Nat) (part : Option Nat) : List Nat → State → (Nat ⊕ List (List Window)) × State
  | [], s => (.inr [], s)
  | i :: is, s =>
    let b := r.body
    let (m0, n0) := blockOrigin b blk
    let w := tCBytes b
    match sramRead r.die c (r.base + getLE b 0x2C 4 + (m0 + i) * getLE b 0x30 4 + n0 * w) (blockCols b blk * w) 0 part s with
    | (none, s) => (.inl 0x30, s)
    | (some bs, s) =>
      let row := (List.range (blockCols b blk)).map (fun j => initOf (s.reduced r.die) b ((bs.drop (j * w)).take w))
      if row.any (·.isNone) then (.inl 0x12, s)
      else match loadRows r c blk part is s with
        | (.inr rows, s) => (.inr (row.map (·.getD {}) :: rows), s)
        | (.inl e, s) => (.inl e, s)

/-- The windows of a block whose rows inside the output hold `rows`; positions outside start empty (R99). -/
def blockWindows (b : List Byte) (rows : List (List Window)) : List Window :=
  (List.range (tBM b * tBN b)).map (fun k => (rows.getD (k / tBN b) []).getD (k % tBN b) {})

/-- STATIONARY_LOAD: the next pass of an array is loaded into its bank once the bank is free (R91, R101, R105). -/
def execStationaryLoad (die : Die) (cl : Cluster) (a : Fin 8) (s : State) : Out :=
  .next <|
    let x := s.array die cl a
    match x.chain with
    | [] => s
    | p :: rest =>
      match s.tileRun p.queue p.seq with
      | none => s
      | some r =>
        if x.passes.any (fun y => y.bank == x.nextBank) then s
        else
          let go := fun (wins : List Window) (s : State) =>
            s.setArray die cl a { x with chain := rest, nextBank := 1 - x.nextBank,
                                         passes := x.passes ++ [{ id := p, bank := x.nextBank, wins := wins }] }
          if tInit r.body = 0 then go (blockWindows r.body []) s
          else match loadRows r cl p.block (s.queuePart p.queue) (blockRows r.body p.block) s with
            | (.inr rows, s) => go (blockWindows r.body rows) s
            | (.inl e, s) => failTile r cl e s

/-! ### Operands of a beat (R93, R96, R99, R107, R238) -/

/-- An operand element and its scale as stored, at row or column `n` and position `k`. -/
def sideElem (r : TileRun) (isB : Bool) (c n k : Nat) (s : State) : Nat × Nat :=
  let x := r.side isB
  let m := (s.clus r.die c).sram
  let place := fun (p : Nat) =>
    match x.stream.bind s.streamGen with
    | none => r.base + p
    | some st => st.landOff + p % st.landBytes
  let e := elemBit x.fmt x.ld (tK r.body) n k
  let w := fmtWidth x.fmt
  let v := leNat ((List.range 5).map (fun i => cget 0 m (place (x.off + e / 8 + i))))
  (bitsOf v (e % 8 + w - 1) (e % 8),
    if isMx x.fmt then (cget 0 m (place (x.scOff + scaleByte (tK r.body) n k))).toNat else 0)

/-- The element the feeders present outside M × N: +0 (R99). -/
def padElem : Nat × Nat := (0, 127)

/-- Elements of `w` bits laid end to end, the first lowest. -/
def packRow (w : Nat) (es : List (Nat × Nat)) : Nat := es.foldr (fun e v => v * 2 ^ w + e.1 % 2 ^ w) 0

/-- The parity bits of an operand path in one beat: one for each 16 bits of each row or column, and one for each scale (R113). -/
def pathParity (w : Nat) (rows : List (List (Nat × Nat))) : List (List Nat) :=
  rows.map (fun es =>
    let v := packRow w es
    (List.range (ceilDiv (es.length * w) 16)).map (fun i => popCount 16 (bitsOf v (16 * i + 15) (16 * i)) % 2)
      ++ es.map (fun e => popCount 8 e.2 % 2))

/-- The edge operands of a side in one beat. -/
def sideEdge (r : TileRun) (isB : Bool) (c n0 n : Nat) (ks : List Nat) (s : State) : List (List (Nat × Nat)) :=
  (List.range n).map (fun i => ks.map (fun k =>
    if n0 + i < (r.side isB).rows then sideElem r isB c (n0 + i) k s else padElem))

/-- The status of a stream that has ended in a cluster, or has failed (R240, R242). -/
def streamEnd (c g : Nat) (s : State) : Option Nat :=
  match s.streamGen g with
  | none => some 0x41
  | some st => st.failed.orElse (fun _ => (st.at? c).elim (some 0x41) (·.ended))

/-- Beat `u` of a pass lacks a position of a stream that has ended, and so will not come: the status (R112, R240, R242). -/
def endedStream (r : TileRun) (c : Nat) (p : Pass) (u : Nat) (s : State) : Option Nat :=
  (lackedStreams r c p.id.block u s).findSome? (fun g => streamEnd c g s)

/-- What an array finds for the next beat of a pass. -/
inductive BeatOperands where
  /-- A position has not landed: the array freezes. -/
  | missing
  /-- The operands of both edges. -/
  | edges (a b : List (List (Nat × Nat))) (s : State)
  /-- An uncorrectable SRAM word. -/
  | ue (s : State)
  /-- The parity at the edge is not the parity that the feeders sent (R113). -/
  | parity (s : State)

/-- The edge takes in the operands of a beat with the parity bits the feeders formed, and checks them (R113). -/
def edgeCheck (fa fb : Nat) (pa pb : List (List Nat)) (ea eb : List (List (Nat × Nat))) (s : State) : BeatOperands :=
  if pathParity (fmtWidth fa) ea = pa ∧ pathParity (fmtWidth fb) eb = pb then .edges ea eb s else .parity s

/-- The feeders read the operands of stream beat `u` of a pass (R96, R107, R126). -/
def readBeat (r : TileRun) (c : Nat) (p : Pass) (u : Nat) (s : State) : BeatOperands :=
  let b := r.body
  let (m0, n0) := blockOrigin b p.id.block
  let ks := r.beatPos c u
  match sideLines r false c m0 (min (m0 + tBM b) (tM b)) ks s, sideLines r true c n0 (min (n0 + tBN b) (tN b)) ks s with
  | some la, some lb =>
    match readLines r.die c 0 (s.queuePart r.queue) (la ++ lb).eraseDups s with
    | (none, s) => .ue s
    | (some _, s) =>
      let ea := sideEdge r false c m0 (tBM b) ks s
      let eb := sideEdge r true c n0 (tBN b) ks s
      edgeCheck (tAFmt b) (tBFmt b) (pathParity (fmtWidth (tAFmt b)) ea) (pathParity (fmtWidth (tBFmt b)) eb) ea eb s
  | _, _ => .missing

/-! ### Beats (R77, R90, R93) -/

/-- The value of an operand element. -/
def operandNum (reduced : Bool) (fmt : Nat) (e : Nat × Nat) : Num :=
  if isMx fmt then decodeMx fmt e.2 e.1 else decodeElem reduced fmt e.1

/-- The operand pairs of one element in one beat. -/
def beatPairs (reduced : Bool) (b : List Byte) (i j : Nat) (e : List (List (Nat × Nat)) × List (List (Nat × Nat))) :
    List (Num × Num) :=
  ((e.1.getD i []).zip (e.2.getD j [])).map (fun p => (operandNum reduced (tAFmt b) p.1, operandNum reduced (tBFmt b) p.2))

/-- The operand pairs that reach the engine of element (m, n) in array beat `t` of a pass, with the edge operands of the latest
beats, newest first: those taken in i + j beats ago, and in class 32 those of four beats together (R90, R93). -/
def elementPairs (reduced : Bool) (b : List Byte) (t m n : Nat)
    (edges : List (List (List (Nat × Nat)) × List (List (Nat × Nat)))) : List (Num × Num) :=
  let skew := if tWide b then n / 4 else m / 4 + n / 4
  let at_ := fun k => match edges[k]? with
    | some e => beatPairs reduced b m n e
    | none => []
  if t < skew then []
  else if tClass b = 32 then
    if (t - skew) % 4 = 3 then at_ (skew + 3) ++ at_ (skew + 2) ++ at_ (skew + 1) ++ at_ skew else []
  else at_ skew

/-- WINDOW_STEP: the products that reach the engine of element (m, n) in array beat `t` of a pass (R74, R77). -/
def elementTerms (reduced : Bool) (b : List Byte) (t m n : Nat)
    (edges : List (List (List (Nat × Nat)) × List (List (Nat × Nat)))) : List Num :=
  (elementPairs reduced b t m n edges).map (fun p => mulNum p.1 p.2)

/-- The engine that holds element (m, n) of a block (R92). -/
def engineOf (b : List Byte) (m n : Nat) : Nat := if tWide b then n / 4 else m / 4 * 4 + n / 4

/-- The first check of an engine that fails in a beat of a pass: engine and SOURCE (R113). -/
def passFault (reduced : Bool) (b : List Byte) (e : List (List (Nat × Nat)) × List (List (Nat × Nat))) (p : Pass) :
    Option (Nat × Nat) :=
  (List.range (tBM b * tBN b)).findSome? (fun k =>
    (stepsFault (p.wins.getD k {}) (elementPairs reduced b p.t (k / tBN b) (k % tBN b) ((e :: p.edges).take 20))).map
      (fun src => (engineOf b (k / tBN b) (k % tBN b), src)))

/-- One beat of a pass: its windows, its count, its edge. -/
def passBeat (reduced : Bool) (b : List Byte) (e : List (List (Nat × Nat)) × List (List (Nat × Nat))) (p : Pass) : Pass :=
  let edges := (e :: p.edges).take 20
  { p with edges := edges, t := p.t + 1, final := decide (tT b + tH b ≤ p.t + 1),
           wins := (List.range (tBM b * tBN b)).map (fun k =>
             windowSteps (p.wins.getD k {}) (elementTerms reduced b p.t (k / tBN b) (k % tBN b) edges)) }

/-- A pass of an array that is streaming its operands. -/
def streaming (s : State) (p : Pass) : Bool :=
  p.started && match s.tileRun p.id.queue p.id.seq with
    | some r => decide (p.t < tT r.body)
    | none => false

/-- The passes of an array after a beat: those that became final queue for the drain, and a repeat has one fewer to run. -/
def settleBeat (d c a : Nat) (before : List Pass) (s : State) : State :=
  let x := s.array d c a
  let done := x.passes.filter (fun p => p.final && before.any (fun o => o.bank == p.bank && !o.final))
  let ids := done.map (·.id)
  let s := s.setArray d c a { x with rep := x.rep.map (fun r => { r with left := r.left.filter (fun p => !ids.contains p) }) }
  let old := s.finals d c
  s.setFinals d c (old ++ done.map (fun p => (a, p.bank)))

/-- A pass of the array streams or flushes: the array completes those beats before it freezes at the boundary (R108). -/
def flushing (x : ArraySt) : Bool := x.passes.any (fun p => p.started && !p.final)

/-- PASS_START: the stream of a loaded pass begins after the stream of the pass before it, with its operands present and the
gate open; while it cannot, the array freezes once the flush beats of the pass before it are done (R105, R108). -/
def execPassStart (die : Die) (cl : Cluster) (a : Fin 8) (s : State) : Out :=
  .next <|
    let x := s.array die cl a
    match x.passes.find? (fun p => !p.started) with
    | none => if x.chain ≠ [] ∧ flushing x = false then freeze die cl a 1 s else s
    | some p =>
      match s.tileRun p.id.queue p.id.seq with
      | none => s
      | some r =>
        if x.passes.any (fun o => streaming s o) then s
        else if !s.gateOpen die cl a then freeze die cl a 2 s
        else
          let present := tT r.body == 0 || match readBeat r cl p 0 s with
            | .missing => false
            | _ => true
          if !present then
            match endedStream r cl p 0 s with
            | some e => failTile r cl e s
            | none => if flushing x then s else freeze die cl a 0 s
          else
            let s := thaw die cl a s
            let x := s.array die cl a
            s.setArray die cl a { x with passes := x.passes.map (fun o => if o.bank = p.bank then { o with started := true } else o) }

/-! ### Residue checking and substitution (R114 to R120) -/

/-- The byte of the spare map of a cluster. -/
def State.spareByte (s : State) (d c : Nat) : Nat := s.rfld (ZG_MXE_SPARE d (c / 8)) (c % 8 * 8 + 7) (c % 8 * 8)

/-- Set the byte of the spare map of a cluster. -/
def setSpareByte (d c v : Nat) (s : State) : State := s.setRfld (ZG_MXE_SPARE d (c / 8)) (c % 8 * 8 + 7) (c % 8 * 8) v

/-- A classified event: ZG_MXE_LAST and its timestamp, the counter of the class, the event, the log, the audit log (R119,
R120, R488). -/
def classify (cls d c a source engine q : Nat) (part : Option Nat) (s : State) : State :=
  let seq := (s.rfld (ZG_MXE_LAST d) 29 16 + 1) % 16384
  let eng := if source = 4 ∨ source = 5 then 0 else engine
  let v := cls * 2 ^ 48 + source * 2 ^ 44 + c * 2 ^ 38 + a * 2 ^ 34 + eng * 2 ^ 30 + seq * 65536 + q % 65536
  let s := (s.setRegN (ZG_MXE_LAST d) v).setRegN (ZG_MXE_LAST_NS d) s.now
  let s := if cls = 1 then bump (ZG_MXE_RES_TRANS d) 1 s else if cls = 2 then bump (ZG_MXE_RES_PERM d) 1 s
    else if cls = 3 then bump (ZG_MXE_RES_UNREC d) 1 s else s
  let s := logRegister 2 cls d v s.now s
  let e : Ev := { cls := 2, code := cls, src := d, queue := q % 65536, part := part, data := v, log := false,
                  alarm := if cls = 1 then 0 else if cls = 3 then 2 else 1 }
  auditEvent e (raiseEvent e s)

/-- Every undrained bank of an array is discarded; its passes run again from their first step (R114). DESIGN CHOICE (log entry 61):
the first of them takes the bank it held. -/
def discardBanks (d c a : Nat) (s : State) : State :=
  let x := s.array d c a
  let s := s.setFinals d c ((s.finals d c).filter (fun p => p.1 != a))
  s.setArray d c a { x with chain := x.passes.map (·.id) ++ x.chain, passes := [],
                            nextBank := (x.passes.head?.map (·.bank)).getD x.nextBank }

/-- A cluster becomes degraded (R117, R468, R469). -/
def degrade (d c : Nat) (s : State) : State :=
  let s := setSpareByte d c (putBits (s.spareByte d c) 6 6 1) s
  let s := addHealth ⟨2, d, c, 0⟩ (s.updClus d c fun x => { x with degraded := true })
  updateEngineCount (d * 64 + c) s

/-- RESIDUE_UNRECOVERED: the tile command fails, the cluster is degraded, and other tile commands with passes left on the
array cannot run on (R117, R468). -/
def unrecovered (d c a : Nat) (r : Repeat) (s : State) : State :=
  let s := classify 3 d c a r.source r.engine r.queue (s.queuePart r.queue) s
  let x := s.array d c a
  let s := s.setArray d c a { x with rep := none, drainRep := none }
  let s := match s.tileRun r.queue r.seq with
    | some t => failTile t c 0x31 s
    | none => if (s.clus d c).borrowedBy r.queue r.seq then failCommand r.queue r.seq 0x31 0 s else s
  let s := degrade d c s
  let x := s.array d c a
  let ids := ((x.passes.map (·.id) ++ x.chain).map (fun p => (p.queue, p.seq))).eraseDups
  ids.foldl (fun s p => match s.tileRun p.1 p.2 with
    | some t => failTile t c 0x0601 s
    | none => s) s

/-- An array is classed permanent: S takes its place if it may, else the event is unrecovered (R116, R117). -/
def classPermanent (d c a : Nat) (r : Repeat) (s : State) : State :=
  let v := s.spareByte d c
  if !bitOf v 3 && !bitOf v 7 && s.rfld (ZG_MXE_CTRL d) 1 1 == 1 then
    let ids := (s.array d c a).passes.map (·.id)
    let left := ids ++ r.left.filter (fun p => !ids.contains p)
    let s := setSpareByte d c (putBits v 3 0 (8 + a)) (discardBanks d c a s)
    let s := s.updPw d fun w => { w with admitted := w.admitted.filter (· ≠ 8 * c + a) }
    let x := s.array d c a
    s.setArray d c a { x with rep := some { r with onS := true, left := left } }
  else unrecovered d c a r s

/-- A mismatch in a repeat: S takes the array's place; in the repeat of an unload, or in the run on S, which then goes out of
service, the event is unrecovered (R114, R116, R119). -/
def repeatMismatch (d c a : Nat) (r : Repeat) (s : State) : State :=
  if r.onS then
    let s := setSpareByte d c (putBits (putBits (s.spareByte d c) 3 0 0) 7 7 1) s
    let s := unrecovered d c a r s
    raiseEvent { cls := 2, code := 4, src := d, queue := r.queue % 65536, part := s.queuePart r.queue, alarm := 1,
                 data := (s.reg (ZG_MXE_LAST d)).toNat, log := false } s
  else if r.source = 5 then unrecovered d c a r s
  else classPermanent d c a r s

/-- The two copies of the drain's rounding differ on an element: the unload is repeated from the bank, and a second mismatch is
unrecovered (R113, R114). -/
def drainMismatch (d c a : Nat) (s : State) : State :=
  let x := s.array d c a
  match x.drainRep with
  | some (_, r) => unrecovered d c a r s
  | none =>
    match s.finals d c with
    | [] => s
    | (b, bank) :: _ =>
      match x.passes.find? (fun p => p.bank == bank) with
      | none => s
      | some p =>
        if b = a then
          s.setArray d c a { x with
            passes := x.passes.map (fun o => if o.bank = bank then { o with drained := 0 } else o),
            drainRep := some (bank, { source := 5, engine := 0, queue := p.id.queue, seq := p.id.seq, left := [] }) }
        else s

/-- A mismatch with SOURCE 0 to 4 begins a repeat of the passes `ps`, or past TRANS_LIMIT is classed permanent at once
(R114, R115). -/
def beginRepeat (d c a : Nat) (r : Repeat) (s : State) : State :=
  let lim := s.rfld (ZG_MXE_CTRL d) 15 12
  if lim ≠ 0 ∧ lim ≤ (s.array d c a).trans then classPermanent d c a r s
  else
    let s := discardBanks d c a s
    s.setArray d c a { s.array d c a with rep := some r }

/-- A mismatch in an array freezes it, discards its undrained banks and starts a repeat; while a repeat runs it is the repeat's
own; in the drain it repeats the unload (R113 to R115). Of an array Sorrel has borrowed, the pass of its product is
repeated (R456). DESIGN CHOICE (log entry 61): where the banks hold passes of several commands, the event names the command of
the oldest. -/
def residueMismatch (die cl a engine source : Nat) (s : State) : State :=
  let x := s.array die cl a
  if source = 5 then drainMismatch die cl a s
  else
    match x.rep with
    | some r => repeatMismatch die cl a r s
    | none =>
      match x.passes, (s.clus die cl).loan with
      | p :: ps, _ =>
        beginRepeat die cl a { source := source, engine := engine, queue := p.id.queue, seq := p.id.seq,
                               left := (p :: ps).map (·.id) } s
      | [], some l =>
        if l.sorrel then
          beginRepeat die cl a { source := source, engine := engine, queue := l.queue, seq := l.seq, left := [] } s
        else s
      | [], none => s

/-- ZG_INT_INJECT forces a residue error into this step of the selected engine, ARRAY 8 being the array that S replaces;
ARM is cleared. Which check of a step meets it the spec leaves open: SOURCE 0, 1 or 2 is free (R495). -/
def injectError (d c a : Nat) (s : State) : State :=
  let v := (s.reg (ZG_INT_INJECT d)).toNat
  let engineOf := if bitOf (s.spareByte d c) 3 && bitsOf (s.spareByte d c) 2 0 == a then 8 else a
  if bitOf v 31 && bitsOf v 24 19 == c && bitsOf v 18 15 == engineOf then
    let (src, s) := (s.setRfld (ZG_INT_INJECT d) 31 31 0).draw
    residueMismatch d c a (bitsOf v 14 11) (src % 3) s
  else s

/-! ### Beats (R93, R107 to R111) -/

/-- All started passes of an array complete one beat; `edge` enters the pass that streams, and every engine's checker compares
(R93, R113). -/
def arrayBeat (d c a : Nat) (cur : Option Nat) (edge : List (List (Nat × Nat)) × List (List (Nat × Nat))) (s : State) : State :=
  let s := thaw d c a s
  let x := s.array d c a
  let go := fun (p : Pass) =>
    if !p.started || p.final then p
    else match s.tileRun p.id.queue p.id.seq with
      | some r => passBeat (s.reduced d) r.body (if cur = some p.bank then edge else ([], [])) p
      | none => p
  let s := s.setArray d c a { x with passes := x.passes.map go }
  let s := s.updPw d fun w => { w with lastBeat := cset 0 w.lastBeat (8 * c + a) (s.now + 1) }
  let fault := x.passes.findSome? (fun p =>
    if !p.started || p.final then none
    else (s.tileRun p.id.queue p.id.seq).bind (fun r =>
      passFault (s.reduced d) r.body (if cur = some p.bank then edge else ([], [])) p))
  let s := if cur.isSome then bump (ZG_MXE_ISSUE_BEATS d) 1 s else s
  let s := match x.passes.find? (fun p => cur == some p.bank) with
    | some p => s.updPw d fun w => { w with issued := cset 0 w.issued (8 * c + a) (p.id.queue + 1) }
    | none => s
  let s := settleBeat d c a x.passes s
  injectError d c a (match fault with
    | some (eng, src) => residueMismatch d c a eng src s
    | none => s)

/-- ARRAY_BEAT: every engine forms its products and updates its windows; a missing operand or a closed gate withholds the
beat (R93, R107, R108, R111). -/
def execArrayBeat (die : Die) (cl : Cluster) (a : Fin 8) (s : State) : Out :=
  .next <|
    let x := s.array die cl a
    if x.passes.all (fun p => !p.started || p.final) then s
    else if !s.gateOpen die cl a then freeze die cl a 2 s
    else match x.passes.find? (streaming s) with
      | none => arrayBeat die cl a none ([], []) s
      | some p =>
        match s.tileRun p.id.queue p.id.seq with
        | none => s
        | some r =>
          match readBeat r cl p p.t s with
          | .missing =>
            match endedStream r cl p p.t s with
            | some e => failTile r cl e s
            | none => freeze die cl a 0 s
          | .ue s => failTile r cl 0x30 s
          | .parity s => residueMismatch die cl a 0 4 s
          | .edges ea eb s => arrayBeat die cl a (some p.bank) (ea, eb) s

/-! ### Unloading (R83, R101, R102, R106, R140) -/

/-- The first row of O that goes to HBM (R102). -/
def firstSpill (b : List Byte) : Nat :=
  let row := tN b * tOBytes b
  let lim := getLE b 0x3C 4
  if lim < row then 0 else (lim - row) / getLE b 0x38 4 + 1

/-- The bytes of row `i` of a block as the drain writes them (R83, R85). -/
def drainRow (reduced : Bool) (b : List Byte) (p : Pass) (i : Nat) : List Byte :=
  ((List.range (blockCols b p.id.block)).map (fun j =>
    let w := p.wins.getD (i * tBN b + j) {}
    if tOutRec b then windowBytes w else natLE (tOBytes b) (drainTo reduced (tOFmt b) (tSat b) w))).flatten

/-- The drain's second copy of its rounding logic: the bytes of row `i`, element by element from the window's value (R113). -/
def drainRowCopy (reduced : Bool) (b : List Byte) (p : Pass) (i : Nat) : List Byte :=
  ((p.wins.drop (i * tBN b)).take (blockCols b p.id.block)).flatMap (fun w =>
    if tOutRec b then windowBytes w
    else natLE (tOBytes b) (convertTo reduced (tOFmt b) 0 (tSat b) 0 (windowValue w)))

/-- The check that the drain fails on a bank: SOURCE 3 where a window's residue is not the stored one, with its engine; SOURCE 5
where its two copies differ (R113). -/
def drainFault (reduced : Bool) (b : List Byte) (p : Pass) : Option (Nat × Nat) :=
  ((List.range (tBM b * tBN b)).findSome? (fun k =>
    let w := p.wins.getD k {}
    if w.res = res7 w.w then none else some (engineOf b (k / tBN b) (k % tBN b), 3))).orElse (fun _ =>
      if p.wins.length = tBM b * tBN b
        ∧ (blockRows b p.id.block).any (fun i => drainRow reduced b p i != drainRowCopy reduced b p i) = true then some (0, 5)
      else none)

/-- What the drain hands on in turn: a row for SRAM, or one line of a spilled row. -/
structure DrainItem where
  spill : Bool
  addr : Nat
  bytes : List Byte

/-- The rows of a block as the drain hands them on: to SRAM those within O_LIMIT, the others line by line to HBM (R102, R140). -/
def drainItems (r : TileRun) (c : Nat) (reduced : Bool) (p : Pass) : List DrainItem :=
  let b := r.body
  let (m0, n0) := blockOrigin b p.id.block
  (blockRows b p.id.block).flatMap (fun i =>
    let bs := drainRow reduced b p i
    let off := (m0 + i) * getLE b 0x38 4 + n0 * tOBytes b
    if m0 + i < firstSpill b then [⟨false, r.base + getLE b 0x34 4 + off, bs⟩]
    else (cutLines (bs.length / 64 + 2) ((getLE b 0x40 8 + r.cls.idxOf c * getLE b 0x48 8 + off) % two64) bs).map
      (fun l => ⟨true, l.1 % two64, l.2⟩))

/-- Bytes in the write buffer of a cluster. -/
def State.spillBytes (s : State) (d c : Nat) : Nat := ((s.spills d c).map (·.bytes.length)).sum

/-- How far an unload comes. -/
inductive DrainEnd where
  /-- Everything is handed on. -/
  | done (s : State)
  /-- The write buffer is full before the last `left` items (R140). -/
  | full (left : Nat) (s : State)
  /-- An uncorrectable word (R124). -/
  | ue (s : State)

/-- The drain hands on rows and lines in turn, each spilled line once the write buffer of 64 KiB has room for it (R140). -/
def drainOut (r : TileRun) (c : Nat) : List DrainItem → State → DrainEnd
  | [], s => .done s
  | x :: xs, s =>
    if x.spill then
      if 65536 < s.spillBytes r.die c + 64 then .full (xs.length + 1) s
      else drainOut r c xs (s.setSpills r.die c (s.spills r.die c ++ [⟨r.queue, r.seq, x.addr, x.bytes⟩]))
    else match sramWrite r.die c x.addr x.bytes 1 (s.queuePart r.queue) s with
      | (true, s) => drainOut r c xs s
      | (false, s) => .ue s

/-- A bank is unloaded: it is free, and its block counts (R103, R106). -/
def bankDone (d c a bank : Nat) (p : Pass) (s : State) : State :=
  let s := s.setFinals d c (s.finals d c).tail
  let x := s.array d c a
  let s := s.setArray d c a { x with passes := x.passes.filter (fun y => y.bank != bank) }
  pmcCount d 1 (s.queuePart p.id.queue) 1 (s.updRun p.id.queue p.id.seq (fun r => { r with left := r.left - 1 }))

/-- The drain has handed on all but `left` items of a bank and waits for room; no other bank takes the drain (R110, R140). -/
def bankWaits (d c a bank total left : Nat) (s : State) : State :=
  let x := s.array d c a
  s.setArray d c a { x with passes := x.passes.map (fun o => if o.bank = bank then { o with drained := total - left } else o) }

/-- BANK_UNLOAD: the drain unloads the bank that became final first, from when its write buffer has room for a line, as far as
that room goes; it checks each window's residue and its own copies (R106, R110, R113, R140). -/
def execBankUnload (die : Die) (cl : Cluster) (s : State) : Out :=
  .next <|
    match s.finals die cl with
    | [] => s
    | (a, bank) :: rest =>
      let x := s.array die cl a
      match x.passes.find? (fun p => p.bank == bank) with
      | none => s.setFinals die cl rest
      | some p =>
        match s.tileRun p.id.queue p.id.seq with
        | none => s
        | some r =>
          if x.drainRep.isSome || decide (65536 < s.spillBytes die cl + 64) then s
          else match drainFault (s.reduced die) r.body p with
            | some (eng, src) => residueMismatch die cl a eng src s
            | none =>
              let items := drainItems r cl (s.reduced die) p
              match drainOut r cl (items.drop p.drained) s with
              | .ue s => failTile r cl 0x30 s
              | .full left s => bankWaits die cl a bank items.length left s
              | .done s => bankDone die cl a bank p s

/-- SPILL_WRITE: the oldest spilled row of a cluster is written to HBM; a page that is not writable gives the page-fault
status (R139, R140). -/
def execSpillWrite (die : Die) (cl : Cluster) (s : State) : Out :=
  .next <|
    match s.spills die cl with
    | [] => s
    | x :: rest =>
      match s.flight x.queue x.seq, s.tileRun x.queue x.seq with
      | some f, some r =>
        let rq := s.req x.queue f 1
        match vaWrite rq x.va x.bytes s with
        | .ok _ s => s.setSpills die cl rest
        | .fault k va s => failTile r cl (if k = 2 then 0x20 else faultStatus k) (recordFault rq k va s)
        | .wait m va _ => waitAtStack ⟨m, x.queue, x.seq, 1, va, some cl⟩ s
      | _, _ => s.setSpills die cl rest

/-- TILE_COMPLETE: every block is drained and every spilled write acknowledged (R103). -/
def execTileComplete (q : Qn) (seq : Word64) (s : State) : Out :=
  .next <|
    match s.tileRun q seq.toNat with
    | none => s
    | some r =>
      if r.left = 0 ∧ r.cls.all (fun c => (s.spills r.die c).all (fun x => !(x.queue == r.queue && x.seq == r.seq))) = true then
        endCommand q seq.toNat 0 0 (dropTile q seq.toNat s)
      else s

/-! ### The end of a repeat (R114 to R119) -/

/-- RESIDUE_MISMATCH: a fault of the circuits makes the checker of an engine, the edge's parity check or the compare of the drain
find a mismatch (R113). -/
def execResidueMismatch (die : Die) (cl : Cluster) (a : Fin 8) (engine : Fin 16) (source : Fin 6) (s : State) : Out :=
  .next (residueMismatch die cl a engine source s)

/-- A repeat is clean: the event is classed transient, and of SOURCE 0 to 4 counts toward the array's TRANS_LIMIT (R114, R115). -/
def transient (d c a : Nat) (r : Repeat) (s : State) : State :=
  let s := s.updFlight r.queue r.seq (fun f => { f with repeated := true })
  classify 1 d c a r.source r.engine r.queue (s.queuePart r.queue) s

/-- The array's own repeat is what a REPEAT_DONE ends: one not on S, with a mismatch or with every pass at its final window. -/
def Repeat.endsBy (r : Repeat) (mismatch : Bool) : Bool := !r.onS && (mismatch || r.left == [])

/-- REPEAT_DONE: the repeated passes reached their final window, or the repeat met a mismatch: transient, permanent or
unrecovered; else the repeat of an unload is done (R114 to R117). -/
def execRepeatDone (die : Die) (cl : Cluster) (a : Fin 8) (mismatch : Bool) (s : State) : Out :=
  .next <|
    let x := s.array die cl a
    match x.rep.filter (fun r => r.endsBy mismatch), x.drainRep with
    | some r, _ =>
      if mismatch then repeatMismatch die cl a r s
      else transient die cl a r (s.setArray die cl a { x with rep := none, trans := x.trans + 1 })
    | none, some (_, r) =>
      if mismatch then unrecovered die cl a r s
      else transient die cl a r (s.setArray die cl a { x with drainRep := none })
    | none, none => s

/-- SUBSTITUTED_RUN_DONE: S completed the discarded passes, or met a mismatch and goes out of service (R116, R119). DESIGN CHOICE
(log entry 61): S begins with no transient classification of its own. -/
def execSubstitutedRunDone (die : Die) (cl : Cluster) (a : Fin 8) (mismatch : Bool) (s : State) : Out :=
  .next <|
    let x := s.array die cl a
    match x.rep with
    | none => s
    | some r =>
      if !r.onS then s
      else if mismatch then repeatMismatch die cl a r s
      else if r.left ≠ [] then s
      else
        let s := s.setArray die cl a { x with rep := none, trans := 0 }
        let s := addHealth ⟨0, die, cl * 8 + a, 0⟩ s
        classify 2 die cl a r.source r.engine r.queue (s.queuePart r.queue) s

end Sys2Proof.Machine
end

