-- ==== Sys2Proof/Machine/Cluster.lean ====
section
/-! DEFINITION. SRAM write-back and scrubbing, cluster owners and carve-outs (06_cluster_sram_vector.md R125 to R132). -/
namespace Sys2Proof.Machine

/-- A corrected line is written back: its single-bit errors go (R125). -/
def execSramCeWriteback (die : Die) (cl : Cluster) (line : BitVec 18) (s : State) : Out :=
  .next <|
    let l := line.toNat
    if (s.clus die cl).writeBacks.contains l then
      s.updClus die cl fun x => { x with writeBacks := x.writeBacks.filter (· ≠ l), sramErrs := cclear x.sramErrs (l * 8) (l * 8 + 8) }
    else s

/-- The scrubber reads the next line of a bank, corrects it, and goes on to the line after it; after line 6,143 comes
line 0 (R125, R127). A cluster that the grade disables has nothing to scrub (R1). -/
def scrubBank (d c bank : Nat) (s : State) : State :=
  if s.gradeClusters ≤ c then s else
  let n := cget 0 (s.clus d c).scrubLine bank
  let (_, s) := readLine d c (n * 32 + bank) 6 none s
  s.updClus d c fun x => { x with scrubLine := cset 0 x.scrubLine bank ((n + 1) % 6144) }

/-- SCRUB_EN of a die (R127). -/
def State.scrubOn (s : State) (d : Nat) : Bool := s.rfld (ZG_CLU_SCRUB d) 16 16 == 1

/-- One scrub interval: each bank that has an idle beat gives up one line; `idle` holds those banks (R127). -/
def execScrubRead (die : Die) (cl : Cluster) (idle : BitVec 32) (s : State) : Out :=
  .next <| if s.scrubOn die then
    (List.range 32).foldl (fun s k => if idle.toNat.testBit k then scrubBank die cl k s else s) s else s

/-- A bank without an idle beat for 4,096 beats gives the scrubber its next beat (R127). -/
def execScrubStarvePriority (die : Die) (cl : Cluster) (bank : Fin 32) (s : State) : Out :=
  .next <| if s.scrubOn die then scrubBank die cl bank s else s

/-! ### Owners (R129) -/

/-- Set an owner byte. -/
def setCluOwner (d c v : Nat) (s : State) : State := s.setRfld (ZG_CLU_OWN d (c / 8)) (c % 8 * 8 + 7) (c % 8 * 8) v

/-- The owner byte a write leaves or aims at: VALID and PART. -/
def ownerTarget (v : Nat) : Nat := v / 128 * 128 + v % 64

/-- A write to one owner byte: PENDING and the target; a loan of the cluster's arrays is to end (R129, R428). A cluster that
the grade disables is not addressable: its byte stays (R1). -/
def aimOwner (d c new : Nat) (s : State) : State :=
  if s.gradeClusters ≤ c then s else
  let old := s.cluOwner d c
  let aim := (s.clus d c).ownTarget.getD (ownerTarget old)
  if ownerTarget new = aim then s
  else
    let s := setCluOwner d c (ownerTarget old + 64) s
    s.updClus d c fun x => { x with ownTarget := some (ownerTarget new), loan := x.loan.map (fun l => { l with ending := true }) }

/-- The owner bytes of a register are aimed at what was written (R129). -/
def aimOwners (d k old new : Nat) (s : State) : State :=
  (List.range 8).foldl (fun s j => aimOwner d (8 * k + j) (bitsOf new (8 * j + 7) (8 * j)) s) (s.setRegN (ZG_CLU_OWN d k) old)

/-- A write of ZG_CLU_OWNk (R129, R154). -/
def execCluOwnerWrite (f : Func) (die : Die) (k : Fin 8) (value : Word64) (s : State) : Out :=
  .next (guardedWrite f (ZG_CLU_OWN die k) 8 value.toNat s (aimOwners die k))

/-! ### Carve-outs (R130 to R132) -/

/-- A write of ZG_CLU_CARVE sets CARVE_PENDING (R132). -/
def execCarveWrite (f : Func) (die : Die) (value : Word32) (s : State) : Out :=
  .next <| guardedWrite f (ZG_CLU_CARVE die) 4 value.toNat s fun _ _ s => s.setRfld (ZG_CLU_CARVE die) 8 8 1

/-- Whether some cluster of a die is lent or borrowed. -/
def State.loansOn (s : State) (d : Nat) : Bool := (List.range 64).any (fun c => (s.clus d c).loan.isSome)

/-- The new carve size takes effect once no loan is active on the die; bytes that move between the ranges become zero
(R132). -/
def execCarveTakeEffect (die : Die) (s : State) : Out :=
  .next <|
    if s.rfld (ZG_CLU_CARVE die) 8 8 = 1 ∧ s.loansOn die = false then
      let old := s.sramBound die
      let size := s.rfld (ZG_CLU_CARVE die) 4 0
      let s := { s with clu := { s.clu with carve := s.clu.carve.set die.val size } }
      let new := s.sramBound die
      let s := (List.range 64).foldl (fun s c => sramZero die c (min old new) (max old new) s) s
      s.setRfld (ZG_CLU_CARVE die) 8 8 0
    else s

end Sys2Proof.Machine
end

