-- ==== Sys2Proof/Machine/Coll.lean ====
section
/-! DEFINITION. Group commands, collective commands and the messages of the collective engines (12_collectives.md R313 to
R353). -/
namespace Sys2Proof.Machine

/-! ### Group commands (R316, R317) -/

/-- Whether the queue's tenant owns a group (R317, R321). -/
def ownsGroup (q g : Nat) (s : State) : Bool := s.groupOwned g && s.groupTenant g == s.queueTenant q

/-- Whether an operation of a group is posted on any die. -/
def State.groupPosted (s : State) (g : Nat) : Bool := (List.range 4).any (fun d => (s.gdie g d).ops != [])

/-- GROUP_DEFINE body. -/
def groupDefineBad (b : List Byte) : Bool :=
  decide (4096 ≤ getLE b 0 2) || decide (4096 ≤ getLE b 2 2) || decide (2 ≤ byteAt b 4) || !zeroAt b 5 1
    || getLE b 6 2 % 256 != 0 || decide (getLE b 6 2 < 256) || decide (16384 < getLE b 6 2) || getLE b 8 8 % 4096 != 0
    || !zeroAt b 0x18 8

/-- GROUP_DEFINE (R317). -/
def execGroupDefine (q : Qn) (seq : Word64) (s : State) : Out :=
  .next <| withFlight q seq.toNat 0x63 s fun f =>
    let b := dBody f.desc
    let g := cGroup b
    let n := getLE b 2 2 % 4096 + 1
    let used := (s.coll.groups.map (fun p => if p.1 = g then 0 else memberUnits p.2.n)).sum
    if !ownsGroup q g s then endCommand q seq.toNat 3 0 s
    else if s.groupPosted g then endCommand q seq.toNat 9 0 s
    else if 8192 < used + memberUnits n then endCommand q seq.toNat 5 0 s
    else if groupDefineBad b then endCommand q seq.toNat 1 0 s
    else
      let s := s.setGroup g { n := n, stageKib := getLE b 6 2, stageVa := getLE b 8 8, stageStride := getLE b 0x10 8,
                              paceFollow := bitOf (byteAt b 4) 0, bank0 := List.replicate n 0xFFFFFFFF,
                              bank1 := List.replicate n 0xFFFFFFFF }
      let s := (List.range 4).foldl (fun s d => s.setGdie g d { state := 1 }) s
      endCommand q seq.toNat 0 0 (refreshMemberStore (s.setBank (memberTable g) {}))

/-- Whether an earlier GROUP_MEMBERS of the queue has still to write the shadow list of a group. -/
def membersAhead (q seq g : Nat) (s : State) : Bool :=
  (s.queue q).flights.any (fun f => f.ended.isNone && decide (f.seq < seq) && dOpc f.desc == 0x64 && cGroup (dBody f.desc) == g)

/-- The entries of a list with those from rank `first` replaced. -/
def putEntries (l : List Nat) (first : Nat) (es : List Nat) : List Nat := l.take first ++ es ++ l.drop (first + es.length)

/-- GROUP_MEMBERS as its command or its released shadow write runs it (R173, R317). -/
def groupMembers (q seq : Nat) (s : State) : State :=
  withFlight q seq 0x64 s fun f =>
    let b := dBody f.desc
    let g := cGroup b
    let first := getLE b 2 2
    let n := getLE b 4 2
    let x := s.group g
    let t := memberTable g
    if !ownsGroup q g s then endCommand q seq 3 0 s
    else if decide (4096 ≤ getLE b 0 2) || n == 0 || decide (4096 < n) || decide (x.n < first + n) || !zeroAt b 6 2
        || getLE b 8 8 % 4 != 0 || !zeroAt b 0x10 16 then endCommand q seq 1 0 s
    else if membersAhead q seq g s then s
    else if (s.bank t).writeBlocked then s.setBank t { s.bank t with writeWait := true }
    else
      let rq := s.req q f 3
      finishAcc q seq rq s (vaRead rq (getLE b 8 8) (4 * n) s) fun bs s =>
        let es := elemsOf 4 bs
        let k := (s.bank t).shadow
        let x := s.group g
        let x := if k = 0 then { x with bank0 := putEntries x.bank0 first es } else { x with bank1 := putEntries x.bank1 first es }
        endCommand q seq 0 0 ((s.setGroup g x).setBank t { s.bank t with writeWait := false })

/-- GROUP_MEMBERS. -/
def execGroupMembers (q : Qn) (seq : Word64) (s : State) : Out := .next (groupMembers q seq.toNat s)

/-- Whether a member list may not become active: an invalid entry, or one die twice (R316). -/
def membersBad (l : List Nat) : Bool := l.any (fun e => bitsOf e 7 2 != 0) || l.eraseDups.length != l.length

/-- GROUP_FLIP (R174, R316, R317); a group that is not defined gives the state-conflict status (DEDUCED, log entry 22). -/
def execGroupFlip (q : Qn) (seq : Word64) (s : State) : Out :=
  .next <| withFlight q seq.toNat 0x65 s fun f =>
    let b := dBody f.desc
    let g := cGroup b
    let t := memberTable g
    let x := s.bank t
    if !ownsGroup q g s then endCommand q seq.toNat 3 0 s
    else if decide (4096 ≤ getLE b 0 2) || decide (4 ≤ byteAt b 2) || !zeroAt b 3 1 || !zeroAt b 8 24 then endCommand q seq.toNat 1 0 s
    else if (s.group g).n = 0 then endCommand q seq.toNat 9 0 s
    else if membersAhead q seq.toNat g s || x.copyPending then s
    else if membersBad ((s.group g).members x.shadow) then endCommand q seq.toNat 0x12 0 s
    else if bitOf (byteAt b 2) 0 && x.epoch != getLE b 4 4 then endCommand q seq.toNat 8 0 s
    else endCommand q seq.toNat 0 0 (s.setBank t (x.flip (bitOf (byteAt b 2) 1)))

/-- The copy-back of a group's member list (R175). -/
def memberCopyback (g : Nat) (s : State) : State :=
  let t := memberTable g
  let b := s.bank t
  let x := s.group g
  if !b.copyPending || b.readers b.shadow != 0 then s
  else
    let x := if b.active = 0 then { x with bank1 := x.bank0 } else { x with bank0 := x.bank1 }
    (s.setGroup g x).setBank t { b with copyPending := false }

/-- The local members of a group: dies of this package in its active bank. -/
def State.localDies (s : State) (g : Nat) : List Nat :=
  (List.range 4).filter (fun d => ((s.group g).members (s.bank (memberTable g)).active).contains (s.memberHere d))

/-- A group on a die after GROUP_RESET: IDLE, its lanes empty and their next operation number 1 (R317, R318). -/
def GroupDie.afterReset (x : GroupDie) : GroupDie :=
  { x with state := 1, bulk := [], quick := [], opSeq := 0, qSeq := 0, lastBulk := none, lastQuick := none }

/-- GROUP_RESET on one die: with ABORT, the posted operations end with the peer-aborted status, and the other members of the
bound bank are told; then the group is IDLE (R317, R345, R346). -/
def resetOn (g d rank : Nat) (abort : Bool) (s : State) : State :=
  let x := s.gdie g d
  let o := (x.ops.head?).getD (idleOp g d s)
  let s := dropPrefetch x.ops (s.setGdie g d x.afterReset)
  if !abort then s
  else
    let s := if x.state = 3 then s else
      collEvent d 5 g o.rank (g + 0x0203 * 4096 + o.num * 2 ^ 28) false (bump (ZG_COL_ABORTS d) 1 (sendAborts g d 0x0203 o s))
    endAll (laneEndings x 0x0203 0x0203 rank) s

/-- GROUP_RESET (R317). -/
def execGroupReset (q : Qn) (seq : Word64) (s : State) : Out :=
  .next <| withFlight q seq.toNat 0x66 s fun f =>
    let b := dBody f.desc
    let g := cGroup b
    let abort := bitOf (byteAt b 2) 0
    if !ownsGroup q g s then endCommand q seq.toNat 3 0 s
    else if decide (4096 ≤ getLE b 0 2) || decide (2 ≤ byteAt b 2) || !zeroAt b 3 29 then endCommand q seq.toNat 1 0 s
    else if (s.group g).n = 0 || (!abort && s.groupPosted g) then endCommand q seq.toNat 9 0 s
    else
      let ds := s.localDies g
      let ms := (s.group g).members (s.bank (memberTable g)).active
      let mine := (s.queue q).die
      let rank := ms.idxOf (s.memberHere (if ds.contains mine then mine else ds.headD 0))
      let s := (List.range 4).foldl (fun s d =>
        if ds.contains d || (s.gdie g d).ops != [] then resetOn g d rank abort s else s.setGdie g d (s.gdie g d).afterReset) s
      endCommand q seq.toNat 0 0 (s.setGroup g { s.group g with ggen := ((s.group g).ggen + 1) % 65536 })

/-! ### Ownership (R313) -/

/-- A group leaves its owner: its operations end with the group-released status, it is UNDEFINED (R313). -/
def releaseGroup (g : Nat) (s : State) : State :=
  let s := (List.range 4).foldl (fun s d =>
    let x := s.gdie g d
    let s := dropPrefetch x.ops (s.setGdie g d {})
    let s := if x.engaged then bump (ZG_COL_PACE_NS d) (s.now - x.engagedAt) s else s
    endAll (laneEndings x 0x0207 0x0207 0) s) s
  ((s.setGroup g {}).setBank (memberTable g) {})

/-- A block of groups changes owner (R296, R313). -/
def changeCgoOwner (b new : Nat) (s : State) : State :=
  let off := ZG_CGO_OWN (b / 8)
  let j := b % 8
  let old := s.rfld off (8 * j + 7) (8 * j)
  if old % 64 + old / 128 * 128 = new % 64 + new / 128 * 128 then s
  else
    let s := s.setRfld off (8 * j + 7) (8 * j) (old % 64 + 64 + old / 128 * 128)
    let s := (List.range 64).foldl (fun s i => releaseGroup (64 * b + i) s) s
    (refreshMemberStore s).setRfld off (8 * j + 7) (8 * j) (new % 64 + new / 128 * 128)

/-- The bytes of a group owner register written (R313). -/
def writeCgoOwners (k old new : Nat) (s : State) : State :=
  (List.range 8).foldl (fun s j => changeCgoOwner (8 * k + j) (bitsOf new (8 * j + 7) (8 * j)) s) (s.setRegN (ZG_CGO_OWN k) old)

/-- A write of ZG_CGO_OWNk (R313, R353). -/
def execCgoOwnerWrite (f : Func) (k : Fin 8) (value : Word64) (s : State) : Out :=
  .next (guardedWrite f (ZG_CGO_OWN k) 8 value.toNat s (writeCgoOwners k))

/-! ### Posting (R318, R321) -/

/-- The lanes of a group on a die begin what they can; a lane holds at most 16 operations. -/
def runLanes (g d : Nat) (s : State) : State := iter (fun s => beginOp g d true (beginOp g d false s)) 17 s

/-- A collective command is checked and posted; while its lane is full it waits (R321, R328). -/
def postOp (q seq opc : Nat) (s : State) : State :=
  withFlight q seq opc s fun f =>
    let b := dBody f.desc
    let g := cGroup b
    let d := (s.queue q).die
    let x := s.gdie g d
    let t := memberTable g
    let quick := opc == 0x62
    let ms := (s.group g).members (s.bank t).active
    if f.phase ≠ 0 then s
    else if !ownsGroup q g s then endCommand q seq 3 0 s
    else if x.state = 3 then endCommand q seq 0x0202 0 s
    else if (s.bank t).epoch = 0 then endCommand q seq 9 0 s
    else if !ms.contains (s.memberHere d) then endCommand q seq 0x0206 0 s
    else
      let bad := if quick then checkQuick b else checkBulk opc (s.group g).n b
      if bad ≠ 0 then endCommand q seq bad 0 s
      else if 16 ≤ (x.lane quick).length then s
      else
        let num := ((if quick then x.qSeq else x.opSeq) + 1) % 4294967296
        let o : CollOp := { queue := q, seq := seq, num := num, opc := opc, body := b, bank := (s.bank t).active,
                            epoch := (s.bank t).epoch, rank := ms.idxOf (s.memberHere d), digest := collDigest opc b,
                            lateRank := ms.idxOf (s.memberHere d) }
        let x := x.setLane quick (x.lane quick ++ [o])
        let x := if quick then { x with qSeq := num } else { x with opSeq := num }
        let s := (bindTable q seq t s).updFlight q seq (fun f => { f with phase := 1 })
        runLanes g d (s.setGdie g d x)

/-- REDUCE_SCATTER (R327, R329). -/
def execReduceScatter (q : Qn) (seq : Word64) (s : State) : Out := .next (postOp q seq.toNat 0x60 s)

/-- ALL_GATHER (R327, R329). -/
def execAllGather (q : Qn) (seq : Word64) (s : State) : Out := .next (postOp q seq.toNat 0x61 s)

/-- QUICK (R347, R348). -/
def execQuick (q : Qn) (seq : Word64) (s : State) : Out := .next (postOp q seq.toNat 0x62 s)

/-! ### Messages at hand (R323, R325) -/

/-- A message that reached an engine: the sender's member entry, the tenant tag, header and payload. -/
structure CollIn where
  entry : Nat
  tenant : Nat
  bytes : List Byte
  deriving DecidableEq, Repr

/-- The sender, tenant tag and bytes of a collective packet. -/
def packetIn (b : List Byte) : CollIn :=
  ⟨(pkSrc b).1 * 2 ^ 24 + (pkSrc b).2.1 * 65536 + (pkSrc b).2.2 * 256 + pkSDie b, pkTenant b, pkBody b⟩

/-- Whether the tenant tag, the ownership or SRC_RANK of a message is wrong (R325). -/
def msgWrong (m : CollIn) (s : State) : Bool :=
  let g := mGroup m.bytes
  !s.groupOwned g || m.tenant != s.groupTenant g
    || ((s.group g).members (s.bank (memberTable g)).active)[mRank m.bytes]? != some m.entry

/-- Whether a message is held until the receiver's generation or operation reaches it (R325, R319): one that passes the checks of
R325 and is of a newer generation, or a CHUNK, CREDIT or QUICK of an operation that has not begun here. -/
def heldMsg (d : Nat) (m : CollIn) (s : State) : Bool :=
  let b := m.bytes
  let g := mGroup b
  let quick := mKind b == 4
  let newer := fun (a b n : Nat) => let k := (a + n - b) % n; decide (1 ≤ k) && decide (k < n / 2)
  !msgWrong m s && (newer (mGgen b) (s.group g).ggen 65536 ||
    (mKind b != 2 && mKind b != 3 && mGgen b == (s.group g).ggen && (s.gdie g d).state == 1 &&
      (match s.currentOp g d quick with
       | some o => newer (mNum b) o.num 4294967296 || (mNum b == o.num && !o.began)
       | none => newer (mNum b) (if quick then (s.gdie g d).qSeq else (s.gdie g d).opSeq) 4294967296)))

/-- The messages that have reached a die. -/
def State.collHere (s : State) (d : Nat) : List CollIn :=
  (s.coll.inbox.filter (fun m => m.die == d)).map (fun m => ⟨m.entry, m.tenant, m.bytes⟩)
    ++ (s.wfn.arrived.filter (fun a => pkType a.bytes == 4 && s.forHere a.bytes && pkDDie a.bytes == d)).map (fun a => packetIn a.bytes)

/-- Whether the current operation of a lane waits for a member: it can neither send nor take anything, no message for it is at
hand (R323). -/
def opWaits (g d : Nat) (quick : Bool) (s : State) : Bool :=
  match s.currentOp g d quick with
  | none => false
  | some o =>
    o.began && (quick || !(canSend (s.group g) o 0 || canSend (s.group g) o 1))
      && !(s.collHere d).any (fun m => mGroup m.bytes == g && mNum m.bytes == o.num && mGgen m.bytes == (s.group g).ggen
            && (mKind m.bytes == 2 || (if quick then mKind m.bytes == 4 else decide (mKind m.bytes ≤ 1)))
            && !msgWrong m s && !heldMsg d m s)

/-! ### Sending (R322, R336) -/

/-- Whether the current bulk operation of a group has something to send or to begin on a die. -/
def canServe (g d : Nat) (s : State) : Bool :=
  match s.currentOp g d false with
  | none => false
  | some o => !s.lastDefence && (canSend (s.group g) o 0 || canSend (s.group g) o 1)

/-- One turn of a bulk lane: one chunk in the direction that has sent less (R322). -/
def serveLane (g d : Nat) (s : State) : State :=
  match s.currentOp g d false with
  | none => s
  | some o =>
    let b := canSend (s.group g) o 1
    let s := noteRun o.queue s
    runLanes g d (settleBulk g d (
      if canSend (s.group g) o 0 && (!b || decide (o.cw.sent ≤ o.ccw.sent)) then sendChunk g d 0 s
      else sendChunk g d 1 s))

/-- The groups with lanes on a die, ascending. -/
def State.dieGroups (s : State) (d : Nat) : List Nat := (s.coll.dies.filter (fun p => p.1 % 4 == d)).map (fun p => p.1 / 4)

/-- The prefetch of every operation of a die that waits for a member, and of every completed one, is submitted or tried again
(R336). -/
def runPrefetches (d : Nat) (s : State) : State :=
  let s := (s.dieGroups d).foldl (fun s g =>
    match s.currentOp g d false with
    | some o => if opWaits g d false s then tryPrefetch g d o s else s
    | none => s) s
  (s.coll.prefetch.filter (fun o => (s.queue o.queue).die == d)).foldl (fun s o => tryPrefetch (cGroup o.body) d o s) s

/-- What a stop or a stopped stack held back goes on: operations to begin, quick lanes, credits owed (R322, R513). -/
def runHeldBack (d : Nat) (s : State) : State :=
  (s.dieGroups d).foldl (fun s g =>
    let s := runLanes g d s
    let s := if (s.currentOp g d true).any (·.began) then quickRun g d quickFuel s else s
    runLanes g d (sendOwed g d 1 (sendOwed g d 0 (settleBulk g d s)))) s

/-- COLL_CHUNK_SEND: the engine of a die runs the prefetch of operations that wait, serves its quick lanes, and then the next bulk
lane that can send in rotation by group number, with one chunk (R322, R336). -/
def execCollChunkSend (die : Die) (s : State) : Out :=
  .next <|
    let s := runHeldBack die (runPrefetches die s)
    let last := cget 4096 s.coll.turn die
    let ready := (s.dieGroups die).filter (fun g => canServe g die s)
    match ((ready.filter (fun g => decide (last < g))).head?).or ready.head? with
    | some g => serveLane g die { s with coll := { s.coll with turn := cset 4096 s.coll.turn die g } }
    | none => s

/-! ### Receiving (R325, R326, R338) -/

/-- The oldest message of a kind that a die may take: from the ring edges, or from a Wefin port, after the checks of R368. -/
def takeColl (d : Nat) (p : Option Nat) (kind : Nat) (s : State) (go : CollIn → State → State) : State :=
  match p with
  | none =>
    match s.coll.inbox.find? (fun m => m.die == d && mKind m.bytes == kind && !heldMsg d ⟨m.entry, m.tenant, m.bytes⟩ s) with
    | none => s
    | some m => go ⟨m.entry, m.tenant, m.bytes⟩ { s with coll := { s.coll with inbox := s.coll.inbox.erase m } }
  | some p =>
    match takeArrived p (fun b => pkType b == 4 && s.forHere b && pkDDie b == d && mKind (pkBody b) == kind
        && !heldMsg d (packetIn b) s) s with
    | none => s
    | some (a, s) => receiveChecks a s fun b s => go (packetIn b) s

/-- A message is dropped with event 0x08.0x07 to the physical function (R325). -/
def dropMsg (d : Nat) (m : CollIn) (s : State) : State :=
  let c := entryCoord m.entry
  collEvent d 7 (mGroup m.bytes) (mRank m.bytes)
    (mGroup m.bytes + m.tenant * 4096 + c.1 * 2 ^ 28 + c.2.1 * 2 ^ 36 + c.2.2 * 2 ^ 44 + m.entry % 4 * 2 ^ 52) true
    (bump (ZG_COL_DROPPED d) 1 s)

/-- The checks of R325 on a message for a die. -/
def checkMsg (d : Nat) (m : CollIn) (s : State) (go : List Byte → State → State) : State :=
  let b := m.bytes
  let g := mGroup b
  if msgWrong m s then dropMsg d m s
  else if mGgen b ≠ (s.group g).ggen then bump (ZG_COL_DROPPED d) 1 s
  else go b s

/-- A message of the current operation arrived: the stall ends, the arrivals fold, the detector sees a change (R340, R343,
R308). -/
def noteMsg (g d : Nat) (quick : Bool) (m : List Byte) (s : State) : State :=
  match s.currentOp g d quick with
  | none => s
  | some o =>
    let late := laterArrival (o.lateRank, o.latePace, o.lateNs) (mLateRank m, mLatePace m, mLateNs m)
    let s := s.setOp g d quick { o with lateRank := late.1, latePace := late.2.1, lateNs := late.2.2, lastMsg := s.now,
                                        stalled := false }
    let s := if o.stalled then
        collEvent d 2 g (mRank m) (g + mRank m * 4096 + o.num * 2 ^ 24 + b2n quick * 2 ^ 56) false s else s
    touchDetector o.queue (noteRun o.queue s)

/-- A message for the current operation of a lane: EPOCH and digest are checked, and the message is noted (R319, R326). -/
def forCurrent (g d : Nat) (quick digest : Bool) (m : List Byte) (s : State) (go : CollOp → State → State) : State :=
  match s.currentOp g d quick with
  | none => s
  | some o =>
    if o.num ≠ mNum m ∨ o.began = false then s
    else if mEpoch m ≠ o.epoch % 65536 then collFail g d o 0x0205 0 (bump (ZG_COL_MISMATCH d) 1 s)
    else if digest && mDigest m != o.digest then
      collFail g d o 0x0201 0 (collEvent d 4 g (mRank m) (g + mRank m * 4096 + o.num * 2 ^ 24 + b2n quick * 2 ^ 56) false
        (bump (ZG_COL_MISMATCH d) 1 s))
    else
      let s := noteMsg g d quick m s
      match s.currentOp g d quick with
      | some o => go o s
      | none => s

/-- Leading chunks of a direction that have all been received (R338). -/
def leading (seen : List Nat) (n : Nat) : Nat := ((List.range n).takeWhile (fun k => seen.contains k)).length

/-- An ACK for a direction (R338). -/
def sendAck (g d dir : Nat) (s : State) : State :=
  match s.currentOp g d false with
  | none => s
  | some o =>
    let n := (s.group g).n
    collSend g d false (ringPrev o.rank n dir) 2 dir 0 (leading (o.dir dir).seen (o.total n dir)) [] none s id

/-- A new chunk is placed: in its receive slot, then combined and drained if it ends its ring, or written as gathered
(R329, R333, R338). -/
def placeChunk (g d dir t c slot : Nat) (bs : List Byte) (o : CollOp) (s : State) : Acc (Option Bool) :=
  let x := s.group g
  let n := x.n
  let red := s.reduced d
  let last := t + 2 == n
  (vaWrite (s.collReq o) (stageVa x d dir slot) bs s).bind fun _ s =>
    if o.opc = 0x61 then
      (gatherOut g o (ringShard false o.rank n dir (t + 1)) dir c bs s).bind fun _ s => .ok (some last) s
    else if last then
      (readOwn o dir c o.rank s).bind fun own s =>
        match chunkCombine red o.body bs own with
        | none => .ok none s
        | some p => (writeOut o 0 (o.chunkAt dir c).1 (fmtWidth (cOfmt o.body) / 8) (redDrain red o.body p) s).bind
            fun _ s => .ok (some true) s
    else .ok (some false) s

/-- A combine whose residue mismatched once is made again and counted; on the work of a partition in audit mode it is
audited (R466, R488; log entry 32). -/
def combineMismatch (d q : Nat) (s : State) : State :=
  auditEvent { cls := 0x0C, code := 0, src := d, queue := q, part := s.queuePart q, data := (s.reg (ZG_INT_COL_RES d)).toNat }
    (bump (ZG_INT_COL_RES d) 1 s)

/-- A CHUNK of the current operation (R338); `res` counts the residue mismatches of its combine (R466). -/
def takeChunk (g d res : Nat) (m : List Byte) (o : CollOp) (s : State) : State :=
  let x := s.group g
  let dir := mDir m
  let t := mPos m / 2 ^ 20
  let c := mPos m % 2 ^ 20
  let y := o.dir dir
  let ord := orderOf (x.n - 1) (o.chunks dir) x.slots t c
  let bs := mPayload m
  if x.n ≤ t + 1 ∨ o.chunks dir ≤ c ∨ bs.length ≠ (o.chunkAt dir c).2 * wireBytes o.opc o.body then s
  else if y.seen.contains ord then sendAck g d dir s
  else match freeSlot y.got x.slots with
    | none => s
    | some slot =>
      collAcc g d o s (placeChunk g d dir t c slot bs o s) fun r s =>
        match r with
        | none => collFail g d o 0x12 0 s
        | some last =>
          let combines := o.opc == 0x60
          let s := if combines && res == 1 then combineMismatch d o.queue s else s
          if combines && res == 2 then collFail g d o 0x31 0 (combineMismatch d o.queue s)
          else
          let y := { y with seen := ord :: y.seen, granted := if last then y.granted + 1 else y.granted,
                            got := if last then y.got else y.got ++ [⟨t, c, slot, bs.length, ord, s.now⟩] }
          let s := sendAck g d dir (s.setOp g d false (o.setDir dir y))
          settleBulk g d (if last then sendCredit g d dir s else s)

/-- A message of an operation that has completed here is acknowledged again (R338, R350). `o` is that operation, `n` what was
received of it. -/
def ackAgain (g d entry : Nat) (o : CollOp) (dir n : Nat) (s : State) : State :=
  if s.lastDefence then s
  else (collPost d entry (s.groupTenant g) none (collHeader g (s.stamped d o) 2 dir 0 n (s.group g).ggen) s).2

/-- COLL_CHUNK_RECEIVE: placed, combined and acknowledged; a duplicate is acknowledged again, one of the operation last
completed with its whole count (R319, R338). -/
def execCollChunkReceive (die : Die) (p : Option (Fin 24)) (res : Fin 3) (s : State) : Out :=
  .next <| takeColl die (p.map (·.val)) 0 s fun i s => checkMsg die i s fun m s =>
    let g := mGroup m
    let s := match (s.gdie g die).lastBulk with
      | some o => if mNum m = o.num ∧ (s.gdie g die).state = 1 then ackAgain g die i.entry o (mDir m) (o.total (s.group g).n (mDir m)) s else s
      | none => s
    runLanes g die (forCurrent g die false true m s (takeChunk g die res m))

/-- COLL_CREDIT_RECEIVE: slots granted by the successor, for an operation with an equal digest (R319, R337). -/
def execCollCreditReceive (die : Die) (p : Option (Fin 24)) (s : State) : Out :=
  .next <| takeColl die (p.map (·.val)) 1 s fun i s => checkMsg die i s fun m s =>
    let g := mGroup m
    runLanes g die (forCurrent g die false true m s fun o s =>
      let y := o.dir (mDir m)
      s.setOp g die false (o.setDir (mDir m) { y with credit := max y.credit (mPos m) }))

/-- Whether an ACK is of a quick message: an unacknowledged one to its sender, by number and digest, that the bulk lane's
operation does not share (R350; log entry 69). -/
def quickAcked (g d : Nat) (m : List Byte) (s : State) : Bool :=
  let is := fun (o : CollOp) => o.began && o.num == mNum m && o.digest == mDigest m
  (s.currentOp g d true).any (fun o => is o && o.qhold.any (fun k => k.peer == mRank m)) && !(s.currentOp g d false).any is

/-- COLL_ACK_RECEIVE: leading chunks received free their send slots (R338); an acknowledged quick message is no longer held
(R350). -/
def execCollAckReceive (die : Die) (p : Option (Fin 24)) (s : State) : Out :=
  .next <| takeColl die (p.map (·.val)) 2 s fun i s => checkMsg die i s fun m s =>
    let g := mGroup m
    if quickAcked g die m s then
      runLanes g die (forCurrent g die true false m s fun o s =>
        quickRun g die quickFuel (s.setOp g die true { o with qhold := o.qhold.filter (fun k => k.peer != mRank m) }))
    else
      runLanes g die (settleBulk g die (forCurrent g die false false m s fun o s =>
        let y := o.dir (mDir m)
        let n := min (mPos m) y.sent
        s.setOp g die false (o.setDir (mDir m) { y with acked := max y.acked n, hold := y.hold.filter (fun k => decide (n ≤ k.order)) })))

/-- The ranks whose messages a current operation exchanges: its ring neighbours, or the peers of its quick schedule. -/
def CollOp.peers (o : CollOp) (n : Nat) : List Nat :=
  if o.opc = 0x62 then (quickSchedule o.body o.rank n).map (fun a => match a with
    | .send p _ => p
    | .comb p _ => p
    | .take p _ => p)
  else [ringNext o.rank n 0, ringNext o.rank n 1]

/-- Whether an operation is the other end of one that its sender's ABORT says failed by order mismatch or by EPOCH: both ends fail
with that status (R319, R326; log entry 69). -/
def otherEnd (m : List Byte) (n : Nat) (o : CollOp) : Bool :=
  let cause := mPos m % 65536
  o.began && o.num == mNum m && (o.peers n).contains (mRank m)
    && ((cause == 0x0201 && mDigest m != o.digest) || (cause == 0x0205 && mEpoch m != o.epoch % 65536))

/-- The operation that is the other end, if one is: the bulk lane's before the quick lane's. -/
def GroupDie.otherEnd (x : GroupDie) (m : List Byte) (n : Nat) : Option CollOp :=
  (x.bulk.head?.filter (Sys2Proof.Machine.otherEnd m n)).or (x.quick.head?.filter (Sys2Proof.Machine.otherEnd m n))

/-- How the posted operations of a group end on an ABORT: with the peer-aborted status and the aborting rank, but for the other
end of a mismatch (R319, R326, R346). -/
def abortEndings (x : GroupDie) (m : List Byte) (n : Nat) : List Ending :=
  x.ops.map (fun o => if x.otherEnd m n = some o then { queue := o.queue, seq := o.seq, status := mPos m % 65536 }
    else { queue := o.queue, seq := o.seq, status := 0x0203, detail := mRank m })

/-- COLL_ABORT_RECEIVE (R346). -/
def execCollAbortReceive (die : Die) (p : Option (Fin 24)) (s : State) : Out :=
  .next <| takeColl die (p.map (·.val)) 3 s fun i s => checkMsg die i s fun m s =>
    let g := mGroup m
    let x := s.gdie g die
    let n := (s.group g).n
    if x.state ≠ 1 then bump (ZG_COL_ABORTS die) 1 s
    else
      let s := dropPrefetch x.ops (s.setGdie g die { x with state := 3, bulk := [], quick := [] })
      let s := collEvent die 6 g (mRank m) (g + mRank m * 4096 + mPos m % 65536 * 2 ^ 24) false (bump (ZG_COL_ABORTS die) 1 s)
      endAll (abortEndings x m n) s

/-- An ACK of a quick message goes to its sender (R338, R350). -/
def sendQuickAck (g d rank : Nat) (s : State) : State := collSend g d true rank 2 0 0 1 [] none s id

/-- COLL_QUICK_RECEIVE: acknowledged, and combined in its round; a message of a later round waits, a duplicate is only acknowledged,
as is one of an operation that has completed (R338, R348, R350). -/
def execCollQuickReceive (die : Die) (p : Option (Fin 24)) (s : State) : Out :=
  .next <| takeColl die (p.map (·.val)) 4 s fun i s => checkMsg die i s fun m s =>
    let g := mGroup m
    if (s.gdie g die).state = 1 ∧ (s.currentOp g die true).any (fun o => o.num == mNum m) = false then
      let o := ((s.gdie g die).lastQuick.filter (fun o => o.num == mNum m)).getD { idleOp g die s with num := mNum m, digest := mDigest m }
      ackAgain g die i.entry o 0 1 s
    else
    runLanes g die (forCurrent g die true true m s fun o s =>
      let s := sendQuickAck g die (mRank m) s
      if o.qin.any (fun k => k.1 == mRound m && k.2.1 == mRank m) then s
      else quickRun g die quickFuel (s.setOp g die true { o with qin := o.qin ++ [(mRound m, mRank m, mPayload m)] }))

/-! ### Limits (R338, R343, R344) -/

/-- COLL_RESEND: chunks and quick messages of a group that no ACK has covered within RESEND_US (R338, R350). -/
def execCollResend (die : Die) (g : Fin 4096) (s : State) : Out :=
  .next <|
    let us := max 2 (s.rfld (ZG_COL_WDOG die) 31 16)
    let due := fun (at_ : Nat) => decide (at_ + us * 1000 ≤ s.now)
    resendQuick g die (fun k => due k.at_)
      (resendChunks g die 1 (fun k => due k.at_) (resendChunks g die 0 (fun k => due k.at_) s))

/-- The member that a waiting operation awaits (R343): the predecessor for a chunk, the successor for a credit or an
acknowledgement, the peer of a quick round. -/
def awaited (g : Nat) (o : CollOp) (s : State) : Nat :=
  let n := (s.group g).n
  if o.opc = 0x62 then
    match (quickSchedule o.body o.rank n)[o.qpos]? with
    | some (.send p _) => p
    | some (.comb p _) => p
    | some (.take p _) => p
    | none => (o.qhold.head?.map (·.peer)).getD o.rank
  else
    let dir := if o.cw.seen.length < o.total n 0 ∨ o.cw.acked < o.total n 0 then 0 else 1
    if (o.dir dir).seen.length < o.total n dir then ringPrev o.rank n dir else ringNext o.rank n dir

/-- COLL_STALL: a lane has stalled for STALL_US (R343). -/
def execCollStall (die : Die) (g : Fin 4096) (quick : Bool) (s : State) : Out :=
  .next <|
    match s.currentOp g die quick with
    | none => s
    | some o =>
      let us := max 10 (s.rfld (ZG_COL_WDOG die) 15 0)
      if opWaits g die quick s = true ∧ o.stalled = false ∧ o.lastMsg + us * 1000 ≤ s.now then
        let r := awaited g o s
        collEvent die 1 g r (g + r * 4096 + o.num * 2 ^ 24 + b2n quick * 2 ^ 56) false
          (bump (ZG_COL_STALLS die) 1 (s.setOp g die quick { o with stalled := true }))
      else s

/-- COLL_ABORT_TIMEOUT: a stall has lasted ABORT_MS (R344). -/
def execCollAbortTimeout (die : Die) (g : Fin 4096) (quick : Bool) (s : State) : Out :=
  .next <|
    match s.currentOp g die quick with
    | none => s
    | some o =>
      let ms := s.rfld (ZG_COL_CTRL die) 31 16
      if opWaits g die quick s = true ∧ ms ≠ 0 ∧ o.lastMsg + ms * 1000000 ≤ s.now then collFail g die o 0x0204 0 s else s

/-! ### The registers (R353) -/

/-- ZG_COL_GRP, ZG_COL_SEQ and ZG_COL_LAG take a snapshot of a group on a die. -/
def snapGroup (d g : Nat) (s : State) : State :=
  let x := s.gdie g d
  let b := s.bank (memberTable g)
  let ms := (s.group g).members b.active
  let rank := if ms.contains (s.memberHere d) then ms.idxOf (s.memberHere d) else 0xFFF
  let st := if x.state = 1 ∧ x.ops ≠ [] then 2 else x.state
  let cur := fun (l : List CollOp) (last : Nat) => match l with
    | o :: _ => o.num
    | [] => (last + 1) % 4294967296
  let s := s.setRegN (ZG_COL_GRP d)
    ((s.group g).ggen * 2 ^ 48 + b.epoch % 65536 * 2 ^ 32 + st * 2 ^ 29 + b2n (s.group g).paceFollow * 2 ^ 28
      + b2n x.engaged * 2 ^ 27 + rank * 2 ^ 15 + x.bulk.length * 1024 + x.quick.length * 32)
  let s := s.setRegN (ZG_COL_SEQ d) (if x.state = 0 then 0 else cur x.bulk x.opSeq * 2 ^ 32 + cur x.quick x.qSeq)
  s.setRegN (ZG_COL_LAG d) (x.lagPace * 2 ^ 48 + x.lagRank * 2 ^ 36 + x.lagNs)

/-- A write of ZG_COL_SEL. -/
def execColSelect (f : Func) (die : Die) (value : Word32) (s : State) : Out :=
  .next (guardedWrite f (ZG_COL_SEL die) 4 value.toNat s (fun _ new s => snapGroup die (bitsOf new 11 0) s))

end Sys2Proof.Machine
end

