-- ==== Sys2Proof/Machine/HbmAdmin.lean ====
section
/-! DEFINITION. The HBM admin commands (08_hbm_memory.md R192, R198 to R200) and the copy-back of page tables (R175). -/
namespace Sys2Proof.Machine

/-! ### The body (R199) -/

/-- PART. -/
def aPart (b : List Byte) : Nat := byteAt b 0 % 64
/-- EXPECT_EN. -/
def aExpectEn (b : List Byte) : Bool := bitOf (byteAt b 1) 3
/-- COPYBACK. -/
def aCopyback (b : List Byte) : Bool := bitOf (byteAt b 1) 2
/-- WRITE. -/
def aWrite (b : List Byte) : Bool := bitOf (byteAt b 1) 1
/-- PAGE64. -/
def aPage64 (b : List Byte) : Bool := bitOf (byteAt b 1) 0
/-- PA. -/
def aPa (b : List Byte) : Nat := getLE b 8 8
/-- VA. -/
def aVa (b : List Byte) : Nat := getLE b 16 8
/-- COUNT. -/
def aCount (b : List Byte) : Nat := getLE b 24 8
/-- Bytes of a page. -/
def aSize (b : List Byte) : Nat := if aPage64 b then 0x10000 else 0x200000

/-- The checks every HBM admin command shares: the physical function's admin queue, a partition that exists, the reserved
fields (R199, R200). -/
def checkHbmAdmin (q : Nat) (b : List Byte) (s : State) : Nat :=
  if q ≠ 65536 then 3
  else failIf (!(s.part (aPart b)).present || byteAt b 0 / 64 != 0 || byteAt b 1 / 16 != 0 || !zeroAt b 2 2
    || !zeroAt b 0x20 16) 1

/-- COUNT from 1 to 522,240. -/
def countBad (b : List Byte) : Bool := aCount b == 0 || decide (522240 < aCount b)

/-- Whether an earlier command of the queue has still to write the shadow bank of partition `p`: shadow writes of one
issuer are applied in order, and a flip follows them (R173, R174). -/
def shadowWriteAhead (q seq p : Nat) (s : State) : Bool :=
  (s.queue q).flights.any (fun f => f.ended.isNone && decide (f.seq < seq) && aPart (dBody f.desc) == p
    && decide (0x81 ≤ dOpc f.desc) && decide (dOpc f.desc ≤ 0x83))

/-! ### Frames (R191, R192) -/

/-- The frames of a range, as frame numbers of the package: die × 131,072 + frame. -/
def framesFrom (pa n : Nat) : List Nat := (List.range n).map (pa / 0x200000 + ·)

/-- The frame-table byte of a frame of the package. -/
def State.frame (s : State) (g : Nat) : Nat := s.frameByte (g * 0x200000)

/-- Whether a frame is assigned to a partition. -/
def State.frameOf (s : State) (p g : Nat) : Bool := decide (g < 524288) && s.frame g / 128 == 1 && s.frame g % 64 == p

/-- HBM_ASSIGN (R200). -/
def execHbmAssign (q : Qn) (seq : Word64) (s : State) : Out :=
  .next <| withAdmin q seq.toNat 0x80 s fun f =>
    let b := dBody f.desc
    let bad := firstFail [checkHbmAdmin q b s, failIf (countBad b || aPa b % 0x200000 != 0) 1]
    let gs := framesFrom (aPa b) (aCount b)
    if bad ≠ 0 then endCommand q seq.toNat bad 0 s
    else if gs.any (fun g => decide (524288 ≤ g) || s.frame g / 64 != 0) then endCommand q seq.toNat 1 0 s
    else endCommand q seq.toNat 0 0
      (gs.foldl (fun s g => s.setFrameByte (g / 131072) (g % 131072) (128 + aPart b)) s)

/-- The frames that the leaves of a bank map (R194). -/
def mappedFrames (part bank : Nat) (s : State) : List Nat :=
  s.hbm.pt.filterMap (fun e =>
    let level := e.1 / 0x100000000 % 4
    if e.1 / 0x400000000 ≠ part * 2 + bank ∨ e.2 % 2 = 0 then none
    else if level = 3 then some (bitsOf e.2 39 21)
    else if level = 2 ∧ bitOf e.2 1 = true then some (bitsOf e.2 39 21)
    else none)

/-- A frame of a range leaves its partition: its presence line becomes zero wherever it is held and its FULL bit 0, its frame-table line
is rewritten in both copies, and its frame-table byte becomes 0x00, or 0x40 after an uncorrectable error (R192, R212, R218,
R219). -/
def releaseFrame (s : State) (g : Nat) : State :=
  let d := g / 131072
  let f := g % 131072
  let a := frameAddr d f / 64 * 64
  let s := clearMapLine g s
  let s := { s with hbm := { s.hbm with lostLines := s.hbm.lostLines.filter (· ≠ frameLineKey g) } }
  let line := s.hbmBytes a 64
  let s := blockStore (a + mirrorGap) line (blockStore a line s)
  s.setFrameByte d f (if s.boot.health.any (fun e => e.kind == 3 && e.die == d && e.index == f) then 0x40 else 0)

/-- Every mapping of the frames of a range leaves a bank. -/
def unmapFrames (part bank : Nat) (gs : List Nat) (s : State) : State :=
  { s with hbm := { s.hbm with pt := s.hbm.pt.filter (fun e =>
      let level := e.1 / 0x100000000 % 4
      !(e.1 / 0x400000000 == part * 2 + bank && e.2 % 2 == 1 && (level == 3 || (level == 2 && bitOf e.2 1))
        && gs.contains (bitsOf e.2 39 21))) } }

/-- A shadow write of partition `p`'s page tables is under way: none while it waits, the state then saying so (R173). -/
def shadowGate (q seq p : Nat) (s : State) (go : Nat → State → State) : State :=
  let b := s.bank (ptTable p)
  if shadowWriteAhead q seq p s then s
  else if b.writeBlocked then s.setBank (ptTable p) { b with writeWait := true }
  else go b.shadow (s.setBank (ptTable p) { b with writeWait := false })

/-- HBM_RELEASE: the sequence of R192. -/
def hbmRelease (q seq : Nat) (s : State) : State :=
  withAdmin q seq 0x81 s fun f =>
    let b := dBody f.desc
    let p := aPart b
    let bad := firstFail [checkHbmAdmin q b s, failIf (countBad b || aPa b % 0x200000 != 0) 1]
    let gs := framesFrom (aPa b) (aCount b)
    if bad ≠ 0 then endCommand q seq bad 0 s
    else if gs.any (fun g => !s.frameOf p g) || (mappedFrames p (s.bank (ptTable p)).active s).any (gs.contains ·) then
      endCommand q seq 1 0 s
    else shadowGate q seq p s fun k s => endCommand q seq 0 0 (gs.foldl releaseFrame (unmapFrames p k gs s))

/-- HBM_RELEASE. -/
def execHbmRelease (q : Qn) (seq : Word64) (s : State) : Out := .next (hbmRelease q seq.toNat s)

/-! ### The page-table pool (R193, R195) -/

/-- Bytes of pool the tables of one bank of a partition use: one level-1 table, and a table for each valid entry that
points to one. -/
def bankBytes (part bank : Nat) (s : State) : Nat :=
  16384 + (s.hbm.pt.map (fun e =>
    let level := e.1 / 0x100000000 % 4
    if e.1 / 0x400000000 ≠ part * 2 + bank ∨ e.2 % 2 = 0 then 0
    else if level = 1 then 4096 else if level = 2 ∧ bitOf e.2 1 = false then 256 else 0)).sum

/-- Bytes of pool in use. -/
def poolUsed (s : State) : Nat := (s.partsNow.map (fun p => bankBytes p 0 s + bankBytes p 1 s)).sum

/-- Whether the pool of 512 MiB cannot hold what a change would use. -/
def poolFull (s : State) : Bool := decide (0x20000000 < poolUsed s)

/-- Address of the die's quarter of the pool (R190). -/
def poolBase (d : Nat) : Nat := reservedBase d + 0x2000000

/-- Tables of the pool, as address and size: the roots, and what valid entries point to (R193 to R195). -/
def poolTables (s : State) : List (Nat × Nat) :=
  s.hbm.roots.map (fun e => (e.2, 16384)) ++ s.hbm.pt.filterMap (fun e =>
    let level := e.1 / 0x100000000 % 4
    if e.2 % 2 = 0 then none
    else if level = 1 then some (bitsOf e.2 39 12 * 0x1000, 4096)
    else if level = 2 ∧ bitOf e.2 1 = false then some (bitsOf e.2 39 8 * 0x100, 256)
    else none)

/-- The first place of `size` bytes of a die's pool that meets no table, from place `i` on round the pool; `n` places are tried. -/
def poolPlace (used : List (Nat × Nat)) (d size : Nat) : Nat → Nat → Option Nat
  | 0, _ => none
  | n + 1, i =>
    let a := poolBase d + i % (0x8000000 / size) * size
    if used.any (fun t => decide (t.1 < a + size) && decide (a < t.1 + t.2)) then poolPlace used d size n (i + 1) else some a

/-- The place of a new table of partition `part`: in the pool of die n mod 4, or of another die when that one is full; which place
is Betony's, a free value (R195; log entry 64). -/
def newTable (part size : Nat) (s : State) : Nat × State :=
  let (x, s) := s.draw
  let used := poolTables s
  let n := used.length * 64 + 1
  let at_ := [0, 1, 2, 3].findSome? (fun k => poolPlace used ((part + k) % 4) size n x)
  (at_.getD (poolBase (part % 4)), s)

/-- A partition's page tables start with a root for each bank (R195). -/
def newRoots (part : Nat) (s : State) : State :=
  [0, 1].foldl (fun s k =>
    let (a, s) := newTable part 16384 s
    { s with hbm := { s.hbm with roots := cset 0 s.hbm.roots (part * 2 + k) a } }) s

/-- Set a page-table entry. -/
def State.setPt (s : State) (part bank level idx v : Nat) : State :=
  { s with hbm := { s.hbm with pt := cset 0 s.hbm.pt (ptKey part bank level idx) v } }

/-! ### HBM_MAP and HBM_UNMAP (R200) -/

/-- The table that an entry of a level is to point to exists (R193, R195). -/
def needTable (part bank level idx size : Nat) (s : State) : State :=
  if s.ptEntry part bank level idx % 2 = 1 then s
  else
    let (a, s) := newTable part size s
    s.setPt part bank level idx (a + 1)

/-- The level-3 table of a region is freed. -/
def freeTable (part bank idx : Nat) (s : State) : State :=
  { s with hbm := { s.hbm with pt := cclear s.hbm.pt (ptKey part bank 3 (idx * 32)) (ptKey part bank 3 (idx * 32) + 32) } }

/-- One page is mapped in a bank (R194). -/
def mapPage (part bank : Nat) (small w : Bool) (va pa : Nat) (s : State) : State :=
  let s := needTable part bank 1 (va / 0x40000000) 4096 s
  if small then
    (needTable part bank 2 (va / 0x200000) 256 s).setPt part bank 3 (va / 0x10000) (pa + b2n w * 4 + 1)
  else (freeTable part bank (va / 0x200000) s).setPt part bank 2 (va / 0x200000) (pa + b2n w * 4 + 3)

/-- `n` pages are mapped. -/
def mapPages (part bank : Nat) (small w : Bool) (va pa : Nat) : Nat → State → State
  | 0, s => s
  | n + 1, s =>
    let size := if small then 0x10000 else 0x200000
    mapPage part bank small w (va + n * size) (pa + n * size) (mapPages part bank small w va pa n s)

/-- Whether a region is mapped by a 2 MiB leaf in a bank. -/
def leafAt (part bank va : Nat) (s : State) : Bool :=
  let e := s.ptEntry part bank 2 (va / 0x200000)
  decide (va < 0x20000000000) && e % 2 == 1 && bitOf e 1

/-- HBM_MAP. -/
def hbmMap (q seq : Nat) (s : State) : State :=
  withAdmin q seq 0x82 s fun f =>
    let b := dBody f.desc
    let p := aPart b
    let size := aSize b
    let n := aCount b
    let bad := firstFail [checkHbmAdmin q b s, failIf (countBad b || aPa b % size != 0 || aVa b % size != 0) 1]
    if bad ≠ 0 then endCommand q seq bad 0 s
    else if (List.range n).any (fun i => !s.frameOf p ((aPa b + i * size) / 0x200000))
        || decide (0x20000000000 < aVa b + n * size) then endCommand q seq 1 0 s
    else shadowGate q seq p s fun k s =>
      if aPage64 b && (List.range n).any (fun i => leafAt p k (aVa b + i * size) s) then endCommand q seq 1 0 s
      else
        let t := mapPages p k (aPage64 b) (aWrite b) (aVa b) (aPa b) n s
        if poolFull t then endCommand q seq 5 0 s else endCommand q seq 0 0 t

/-- HBM_MAP. -/
def execHbmMap (q : Qn) (seq : Word64) (s : State) : Out := .next (hbmMap q seq.toNat s)

/-- One page is cleared in a bank: with 2 MiB pages the whole region, leaf or table. -/
def unmapPage (part bank : Nat) (small : Bool) (va : Nat) (s : State) : State :=
  if 0x20000000000 ≤ va then s
  else if small then s.setPt part bank 3 (va / 0x10000) 0
  else (freeTable part bank (va / 0x200000) s).setPt part bank 2 (va / 0x200000) 0

/-- `n` pages are cleared. -/
def unmapPages (part bank : Nat) (small : Bool) (va : Nat) : Nat → State → State
  | 0, s => s
  | n + 1, s =>
    unmapPage part bank small (va + n * (if small then 0x10000 else 0x200000)) (unmapPages part bank small va n s)

/-- HBM_UNMAP. -/
def hbmUnmap (q seq : Nat) (s : State) : State :=
  withAdmin q seq 0x83 s fun f =>
    let b := dBody f.desc
    let p := aPart b
    let n := aCount b
    let bad := firstFail [checkHbmAdmin q b s, failIf (countBad b || aVa b % aSize b != 0) 1]
    if bad ≠ 0 then endCommand q seq bad 0 s
    else shadowGate q seq p s fun k s =>
      if aPage64 b && (List.range n).any (fun i => leafAt p k (aVa b + i * 0x10000) s) then endCommand q seq 1 0 s
      else endCommand q seq 0 0 (unmapPages p k (aPage64 b) (aVa b) n s)

/-- HBM_UNMAP. -/
def execHbmUnmap (q : Qn) (seq : Word64) (s : State) : Out := .next (hbmUnmap q seq.toNat s)

/-! ### HBM_FLIP and the copy-back (R174, R175, R198) -/

/-- An entry of a copied bank: one that points to a table points to a table of the copy. -/
def copyEntry (part bank key v : Nat) (s : State) : State :=
  let level := key / 0x100000000 % 4
  let put := fun (v : Nat) (s : State) => s.setPt part bank level (key % 0x100000000) v
  if v % 2 = 1 ∧ level = 1 then
    let (a, s) := newTable part 4096 s
    put (a + 1) s
  else if v % 2 = 1 ∧ level = 2 ∧ bitOf v 1 = false then
    let (a, s) := newTable part 256 s
    put (a + v % 0x100) s
  else put v s

/-- The new shadow of a partition becomes a copy of its active bank. -/
def copyTables (part : Nat) (s : State) : State :=
  let a := (s.bank (ptTable part)).active
  let from_ := (part * 2 + a) * 0x400000000
  let into_ := (part * 2 + (1 - a)) * 0x400000000
  let src := s.hbm.pt.filter (fun e => decide (from_ ≤ e.1) && decide (e.1 < from_ + 0x400000000))
  let s := { s with hbm := { s.hbm with pt := cclear s.hbm.pt into_ (into_ + 0x400000000) } }
  src.foldl (fun s e => copyEntry part (1 - a) e.1 e.2 s) s

/-- Whether the pool cannot hold the copy a flip would ask for: the new shadow as a copy of the bank now the shadow
(R200). -/
def copybackFull (part : Nat) (s : State) : Bool :=
  let b := s.bank (ptTable part)
  decide (0x20000000 + bankBytes part b.active s < poolUsed s + bankBytes part b.shadow s)

/-- HBM_FLIP: all four command front ends take the new state in the step (R198). -/
def execHbmFlip (q : Qn) (seq : Word64) (s : State) : Out :=
  .next <| withAdmin q seq.toNat 0x84 s fun f =>
    let b := dBody f.desc
    let p := aPart b
    let bad := checkHbmAdmin q b s
    let x := s.bank (ptTable p)
    if bad ≠ 0 then endCommand q seq.toNat bad 0 s
    else if shadowWriteAhead q seq.toNat p s || x.copyPending then s
    else if aExpectEn b && x.epoch != getLE b 4 4 then endCommand q seq.toNat 8 0 s
    else if aCopyback b && copybackFull p s then endCommand q seq.toNat 5 0 s
    else endCommand q seq.toNat 0 0 (s.setBank (ptTable p) (x.flip (aCopyback b)))

/-- The copy-back of a partition's page tables, once no reader is bound to the new shadow (R175). -/
def pageCopyback (part : Nat) (s : State) : State :=
  let b := s.bank (ptTable part)
  if !b.copyPending || b.readers b.shadow != 0 then s
  else (copyTables part s).setBank (ptTable part) { b with copyPending := false }

end Sys2Proof.Machine
end

