-- ==== Sys2Proof/Machine/Loans.lean ====
section
/-! DEFINITION. The end of an attempt of a filler unit (14_training_support.md R427 to R429). -/
namespace Sys2Proof.Machine

/-- Every command of a filler unit ends with a status: those not dispatched with no effect (R425, R429). -/
def failUnit (q status : Nat) (s : State) : State :=
  let x := s.queue q
  match x.unit with
  | none => s
  | some u =>
    let have_ := x.flights.map (·.seq)
    let fs := (u.descs.filter (fun d => !have_.contains (dSeq d))).map
      (fun d => ({ seq := dSeq d, desc := d, order := s.host.dispatched } : Flight))
    let s := s.setQueue q { x with unit := none, flights := x.flights ++ fs }
    endAll (u.descs.map (fun d => { queue := q, seq := dSeq d, status := status })) s

/-- The unit's commands that have been dispatched leave their units and are as if they had not been (R427, R428); with
`keep`, vector programs that run in lent clusters go on. -/
def stopUnitWork (q : Nat) (u : FillUnit) (keep : Bool) (s : State) : State :=
  let runs := fun n => keep && s.clu.cl.any (fun p => p.2.prog.any (fun v => v.queue == q && v.seq == n))
  let mine := (s.queue q).flights.filter (fun f => u.has f.seq && f.ended.isNone && !runs f.seq)
  let s := mine.foldl (fun s f => releaseBanks f.binds (dropUnits q f.seq 7 s)) s
  let x := s.queue q
  { s.setQueue q { x with flights := x.flights.filter (fun f => !mine.any (fun g => g.seq == f.seq)) } with
    hbm := { s.hbm with waits := s.hbm.waits.filter (fun w => !(w.queue == q && mine.any (fun g => g.seq == w.seq))) } }

/-- An attempt ends under R428: the lent clusters go back, the unit is counted and starts again at the next grant, or it is
starved (R428, R429). -/
def endAttempt (q : Nat) (s : State) : State :=
  let x := s.queue q
  match x.unit with
  | none => s
  | some u =>
    if s.lentKeys q = [] then s
    else
      let s := giveBack q (stopUnitWork q u false s)
      let y := s.queue q
      let tries := u.tries + 1
      let s := s.setQueue q { y with unit := some { u with pos := 0, tries := tries } }
      let data := q % 65536 + tries % 4294967296 * 65536
      let s := trnEvent x.die 1 q (s.queuePart q) data 0 (bump (ZG_TRN_RESTARTS x.die) 1 s)
      if u.maxTries ≠ 0 ∧ u.maxTries ≤ tries then
        failUnit q 0x0406 (trnEvent x.die 2 q (s.queuePart q) data 0 s)
      else
        let (s, es) := finishStop q (refreshQuiesced (s.queueFn q) s)
        endAll es s

end Sys2Proof.Machine
end

