-- ==== Sys2Proof/Machine/Sync.lean ====
section
/-! DEFINITION. Synchronisation commands, operations and owner changes (11_synchronisation.md, R285 to R303, R312). -/
namespace Sys2Proof.Machine

/-! ### Body checks (R261 step 5, R300) -/

/-- Whether an operation code is allocated (R287). -/
def synOpValid (op : Nat) : Bool := decide (1 ≤ op) && decide (op ≤ 6)

/-- SYNC_SIGNAL body. -/
def checkSyncSignal (b : List Byte) : Nat :=
  failIf (bitsOf (getLE b 0 2) 15 14 != 0 || !synOpValid (byteAt b 2) || !zeroAt b 3 1 || !zeroAt b 8 8) 1

/-- SYNC_WAIT body. -/
def checkSyncWait (b : List Byte) : Nat :=
  failIf (bitsOf (getLE b 0 2) 15 14 != 0 || decide (3 ≤ byteAt b 2) || decide (2 ≤ byteAt b 3) || !zeroAt b 12 4
    || (byteAt b 2 == 2 && decide (65536 ≤ getLE b 4 4))) 1

/-- SYNC_ARRIVE_WAIT body. -/
def checkSyncArriveWait (b : List Byte) : Nat :=
  failIf (bitsOf (getLE b 0 2) 15 14 != 0 || !zeroAt b 2 1 || decide (2 ≤ byteAt b 3) || getLE b 4 4 == 0
    || !zeroAt b 12 4) 1

/-- The range of objects of a SYNC_CONFIG, SYNC_SAVE or SYNC_RESTORE body. -/
def syncRangeBad (b : List Byte) : Bool :=
  let o := getLE b 0 2
  let n := getLE b 2 2
  bitsOf o 15 14 != 0 || n == 0 || decide (4096 < n) || decide (4096 < o % 4096 + n)

/-- SYNC_CONFIG body. -/
def checkSyncConfig (b : List Byte) : Nat :=
  let target := getLE b 8 4
  failIf (syncRangeBad b || decide (2 ≤ byteAt b 4) || !zeroAt b 5 3
    || (if byteAt b 4 = 1 then target == 0 || decide (target ≤ getLE b 12 4) else target != 0)) 1

/-- SYNC_SAVE and SYNC_RESTORE body. -/
def checkSyncSave (b : List Byte) : Nat :=
  failIf (syncRangeBad b || !zeroAt b 4 4 || getLE b 8 8 % 16 != 0) 1

/-! ### Commands (R298 to R303) -/

/-- Who issues a command's operation. -/
def syncReqOf (q : Nat) (s : State) : SyncReq :=
  { tenant := s.queueTenant q, part := s.queuePart q, queue := queueField q }

/-- A command ends, with the waits released on the way. -/
def endWith (q seq status detail : Nat) (es : List Ending) (s : State) : State :=
  endAll (es ++ [{ queue := q, seq := seq, status := status, detail := detail }]) s

/-- Whether the front end of a queue's die issued an earlier operation to the same object that has not reached it yet (R292). -/
def State.syncAhead (s : State) (q : Nat) (f : Flight) (o : Nat) : Bool :=
  s.host.queues.any (fun p => !isAdmin p.1 && p.2.die == (s.queue q).die && p.2.flights.any (fun g =>
    decide (g.order < f.order) && g.ended.isNone && g.heldEnd.isNone && g.phase == 0
      && (dOpc g.desc == 0x50 || dOpc g.desc == 0x52) && getLE (dBody g.desc) 0 2 == o))

/-- SYNC_SIGNAL: applies OP with VALUE, then completes; DETAIL 1 tells of misuse (R290, R301). -/
def execSyncSignal (q : Qn) (seq : Word64) (s : State) : Out :=
  .next <| withFlight q seq.toNat 0x50 s fun f =>
    let b := dBody f.desc
    let bad := checkSyncSignal b
    if bad ≠ 0 then endCommand q seq.toNat bad 0 s
    else if s.syncAhead q f (getLE b 0 2) then s
    else match synOp (syncReqOf q s) (getLE b 0 2) (byteAt b 2) (getLE b 4 4) s with
      | (.blocked, s, es) => endWith q seq.toNat 3 0 es s
      | (.dieDown, s, es) => endWith q seq.toNat (s.dieDown (getLE b 0 2 / 4096)) 0 es s
      | (.misuse, s, es) => endWith q seq.toNat 0 1 es s
      | (.applied, s, es) => endWith q seq.toNat 0 0 es s

/-- A wait is registered at its object and tested at once (R298). -/
def registerWait (w : SynWait) (s : State) : State :=
  match waitResult (s.synObj w.obj) w with
  | some st => endCommand w.queue w.seq st 0 s
  | none =>
    if s.syn.waits.any (fun x => x.queue == w.queue && x.seq == w.seq) then s
    else noteRun w.queue { s with syn := { s.syn with waits := s.syn.waits ++ [w] } }

/-- SYNC_WAIT: waits under a predicate (R297, R298). -/
def execSyncWait (q : Qn) (seq : Word64) (s : State) : Out :=
  .next <| withFlight q seq.toNat 0x51 s fun f =>
    let b := dBody f.desc
    let o := getLE b 0 2
    let bad := checkSyncWait b
    if bad ≠ 0 then endCommand q seq.toNat bad 0 s
    else if !s.synAccepts (s.queueTenant q) o then endCommand q seq.toNat 3 0 (synBlocked (syncReqOf q s) o s)
    else if s.dieDown (o / 4096) ≠ 0 then endCommand q seq.toNat (s.dieDown (o / 4096)) 0 s
    else registerWait ⟨q, seq.toNat, o, byteAt b 2, getLE b 4 4, byteAt b 3 == 1, getLE b 8 4, s.now⟩ s

/-- SYNC_ARRIVE_WAIT: samples GEN, arrives, and waits on the generation, in one step and once (R292, R301). -/
def execSyncArriveWait (q : Qn) (seq : Word64) (s : State) : Out :=
  .next <| withFlight q seq.toNat 0x52 s fun f =>
    let b := dBody f.desc
    let o := getLE b 0 2
    let x := s.synObj o
    let bad := checkSyncArriveWait b
    if f.phase ≠ 0 then s
    else if bad ≠ 0 then endCommand q seq.toNat bad 0 s
    else if s.syncAhead q f o then s
    else if !s.synAccepts (s.queueTenant q) o then endCommand q seq.toNat 3 0 (synBlocked (syncReqOf q s) o s)
    else if s.dieDown (o / 4096) ≠ 0 then endCommand q seq.toNat (s.dieDown (o / 4096)) 0 s
    else if !x.barrier then endCommand q seq.toNat 9 0 s
    else
      let (_, s, es) := synOp (syncReqOf q s) o 5 (getLE b 4 4) (s.updFlight q seq.toNat (fun f => { f with phase := 1 }))
      registerWait ⟨q, seq.toNat, o, 2, x.gen, byteAt b 3 == 1, getLE b 8 4, s.now⟩ (endAll es s)

/-- TIMEOUT_US elapses: the wait completes with the timeout status (R298). -/
def execSyncWaitTimeout (q : Qn) (seq : Word64) (s : State) : Out :=
  .next <|
    match s.syn.waits.find? (fun w => w.queue == q.val && w.seq == seq.toNat) with
    | some w =>
      if w.timeoutUs ≠ 0 ∧ w.since + w.timeoutUs * 1000 ≤ s.now then
        let s := { s with syn := { s.syn with waits := s.syn.waits.filter (fun w => !(w.queue == q.val && w.seq == seq.toNat)) } }
        endCommand q seq.toNat 6 0 s
      else s
    | none => s

/-- The first of `n` objects from `o` that refuses a tenant (R295). -/
def firstRefused (tenant o n : Nat) (s : State) : Option Nat :=
  ((List.range n).map (o + ·)).find? (fun i => !s.synAccepts tenant i)

/-- Whether any of `n` objects from `o` has a waiter. -/
def anyWaiter (o n : Nat) (s : State) : Bool := s.syn.waits.any (fun w => decide (o ≤ w.obj) && decide (w.obj < o + n))

/-- Set `n` objects from `o`, the k-th to `g k`. -/
def setObjects (o : Nat) (g : Nat → SynObj) : Nat → State → State
  | 0, s => s
  | n + 1, s => (setObjects o g n s).setSynObj (o + n) (g n)

/-- SYNC_CONFIG: mode, TARGET and VALUE of each object, GEN 0 and flags clear (R301). -/
def execSyncConfig (q : Qn) (seq : Word64) (s : State) : Out :=
  .next <| withFlight q seq.toNat 0x53 s fun f =>
    let b := dBody f.desc
    let o := getLE b 0 2
    let n := getLE b 2 2
    let bad := checkSyncConfig b
    if bad ≠ 0 then endCommand q seq.toNat bad 0 s
    else match firstRefused (s.queueTenant q) o n s with
      | some i => endCommand q seq.toNat 3 0 (synBlocked (syncReqOf q s) i s)
      | none =>
        if s.dieDown (o / 4096) ≠ 0 then endCommand q seq.toNat (s.dieDown (o / 4096)) 0 s
        else if anyWaiter o n s then endCommand q seq.toNat 0x0102 0 s
        else endCommand q seq.toNat 0 0
          (setObjects o (fun _ => { value := getLE b 12 4, target := getLE b 8 4, barrier := byteAt b 4 == 1 }) n s)

/-- The 16-byte save record of an object (R302). -/
def saveBytes (o : Nat) (x : SynObj) : List Byte :=
  withCheck (natLE 4 x.value ++ natLE 4 x.target ++ natLE 2 x.gen
    ++ natLE 1 (b2n x.barrier * 128 + b2n x.failed * 4 + b2n x.underflow * 2 + b2n x.overflow) ++ [0] ++ natLE 2 o)

/-- The object of a save record (R302). -/
def restoreObj (r : List Byte) : SynObj :=
  let fl := byteAt r 10
  { value := getLE r 0 4, target := getLE r 4 4, gen := getLE r 8 2, barrier := bitOf fl 7, failed := bitOf fl 2,
    underflow := bitOf fl 1, overflow := bitOf fl 0 }

/-- Whether a save record is malformed (R301). -/
def saveBad (r : List Byte) : Bool :=
  let x := restoreObj r
  getLE r 14 2 != check16 (r.take 14) || bitsOf (byteAt r 10) 6 3 != 0 || !zeroAt r 11 1
    || (x.barrier && (x.target == 0 || decide (x.target ≤ x.value)))

/-- SYNC_SAVE: one record per object, in object order (R301 to R303). -/
def execSyncSave (q : Qn) (seq : Word64) (s : State) : Out :=
  .next <| withFlight q seq.toNat 0x54 s fun f =>
    let b := dBody f.desc
    let o := getLE b 0 2
    let n := getLE b 2 2
    let bad := checkSyncSave b
    if bad ≠ 0 then endCommand q seq.toNat bad 0 s
    else match firstRefused (s.queueTenant q) o n s with
      | some i => endCommand q seq.toNat 3 0 (synBlocked (syncReqOf q s) i s)
      | none =>
        if s.dieDown (o / 4096) ≠ 0 then endCommand q seq.toNat (s.dieDown (o / 4096)) 0 s else
        let rq := s.req q f 6
        let recs := (List.range n).map (fun k => saveBytes (o + k) (s.synObj (o + k)))
        finishAcc q seq.toNat rq s (vaWrite rq (getLE b 8 8) recs.flatten s) fun _ s => endCommand q seq.toNat 0 0 s

/-- SYNC_RESTORE: reads and checks every record, then sets each object from its own (R301, R302). -/
def execSyncRestore (q : Qn) (seq : Word64) (s : State) : Out :=
  .next <| withFlight q seq.toNat 0x55 s fun f =>
    let b := dBody f.desc
    let o := getLE b 0 2
    let n := getLE b 2 2
    let bad := checkSyncSave b
    if bad ≠ 0 then endCommand q seq.toNat bad 0 s
    else match firstRefused (s.queueTenant q) o n s with
      | some i => endCommand q seq.toNat 3 0 (synBlocked (syncReqOf q s) i s)
      | none =>
        if s.dieDown (o / 4096) ≠ 0 then endCommand q seq.toNat (s.dieDown (o / 4096)) 0 s else
        let rq := s.req q f 6
        finishAcc q seq.toNat rq s (vaRead rq (getLE b 8 8) (n * 16) s) fun data s =>
          let rec_ := fun k => (data.drop (k * 16)).take 16
          if (List.range n).any (fun k => saveBad (rec_ k)) then endCommand q seq.toNat 0x12 0 s
          else if anyWaiter o n s then endCommand q seq.toNat 0x0102 0 s
          else endCommand q seq.toNat 0 0 (setObjects o (fun k => restoreObj (rec_ k)) n s)

/-! ### Operations arriving at an object (R287 to R295) -/

/-- An operation of queue `q` at an object; `failed` marks the signal of a failed command (R291). -/
def syncOpFrom (q op obj v : Nat) (failed : Bool) (s : State) : State :=
  (applySync { syncReqOf q s with failed := failed } obj op v s).2

/-- SET (R287). -/
def execSyncOpSet (q : Qn) (obj : BitVec 14) (v : Word32) (failed : Bool) (s : State) : Out :=
  .next (syncOpFrom q 1 obj.toNat v.toNat failed s)

/-- ADD, saturating (R288). -/
def execSyncOpAdd (q : Qn) (obj : BitVec 14) (v : Word32) (failed : Bool) (s : State) : Out :=
  .next (syncOpFrom q 2 obj.toNat v.toNat failed s)

/-- SUB, saturating at zero (R288). -/
def execSyncOpSub (q : Qn) (obj : BitVec 14) (v : Word32) (failed : Bool) (s : State) : Out :=
  .next (syncOpFrom q 3 obj.toNat v.toNat failed s)

/-- MAX (R287). -/
def execSyncOpMax (q : Qn) (obj : BitVec 14) (v : Word32) (failed : Bool) (s : State) : Out :=
  .next (syncOpFrom q 4 obj.toNat v.toNat failed s)

/-- ARRIVE (R289). -/
def execSyncOpArrive (q : Qn) (obj : BitVec 14) (v : Word32) (failed : Bool) (s : State) : Out :=
  .next (syncOpFrom q 5 obj.toNat v.toNat failed s)

/-- CLEAR_FAIL (R287). -/
def execSyncOpClearFail (q : Qn) (obj : BitVec 14) (v : Word32) (failed : Bool) (s : State) : Out :=
  .next (syncOpFrom q 6 obj.toNat v.toNat failed s)

/-! ### Ownership (R286, R296, R312) -/

/-- Set byte `j` of a register. -/
def setByteOf (s : State) (off j v : Nat) : State := s.setRfld off (8 * j + 7) (8 * j) v

/-- A block of objects changes owner: PENDING, waiters released, objects reset, the new owner byte (R296). -/
def changeSynOwner (d b new : Nat) (s : State) : State :=
  let off := ZG_SYN_OWN d (b / 8)
  let old := s.rfld off (b % 8 * 8 + 7) (b % 8 * 8)
  if old % 64 + old / 128 * 128 = new % 64 + new / 128 * 128 then s
  else
    let lo := d * 4096 + b * 64
    let s := setByteOf s off (b % 8) (old % 64 + 64 + old / 128 * 128)
    let inBlock := fun (w : SynWait) => decide (lo ≤ w.obj) && decide (w.obj < lo + 64)
    let es := (s.syn.waits.filter inBlock).map (fun w => ({ queue := w.queue, seq := w.seq, status := 0x0103 } : Ending))
    let s := endAll es { s with syn := { s.syn with waits := s.syn.waits.filter (fun w => !inBlock w) } }
    let s := { s with syn := { s.syn with objs := cclear s.syn.objs lo (lo + 64) } }
    setByteOf s off (b % 8) (new % 64 + new / 128 * 128)

/-- The bytes of an owner register written: each that changes its owner acts (R296). -/
def writeSynOwners (d k old new : Nat) (s : State) : State :=
  let s := s.setRegN (ZG_SYN_OWN d k) old
  (List.range 8).foldl (fun s j => changeSynOwner d (8 * k + j) (bitsOf new (8 * j + 7) (8 * j)) s) s

/-- A write of ZG_SYN_OWNk (R296). -/
def execSynOwnerWrite (f : Func) (die : Die) (k : Fin 8) (value : Word64) (s : State) : Out :=
  .next (guardedWrite f (ZG_SYN_OWN die k) 8 value.toNat s (writeSynOwners die k))

/-- ZG_SYN_OBJ and ZG_SYN_OBJ2 take a snapshot of an object (R312). -/
def snapObject (d i : Nat) (s : State) : State :=
  let o := d * 4096 + i
  let x := s.synObj o
  let s1 := s.setRegN (ZG_SYN_OBJ d)
    (b2n (s.synOwned o) * 2 ^ 52 + b2n x.barrier * 2 ^ 51 + b2n x.failed * 2 ^ 50 + b2n x.underflow * 2 ^ 49
      + b2n x.overflow * 2 ^ 48 + x.gen * 2 ^ 32 + x.value)
  s1.setRegN (ZG_SYN_OBJ2 d)
    (min (s.synWaiters o) 4095 * 2 ^ 52 + s.synWatch o * 2 ^ 48 + s.synTenant o * 2 ^ 32 + x.target)

/-- A write of ZG_SYN_SEL (R312). -/
def execSynSelect (f : Func) (die : Die) (value : Word32) (s : State) : Out :=
  .next (guardedWrite f (ZG_SYN_SEL die) 4 value.toNat s (fun _ new s => snapObject die (bitsOf new 11 0) s))

end Sys2Proof.Machine
end

