-- ==== Sys2Proof/Machine/Host.lean ====
section
/-! DEFINITION. The host port: doorbells, descriptor fetch, COPY, the queue and partition commands, function resets
(10_host_queues.md R247 to R284). -/
namespace Sys2Proof.Machine

/-! ### Doorbells (R253, R254) -/

/-- A doorbell value out of range: event 0x01.0x03 (R254). -/
def doorbellRange (f src q value : Nat) (s : State) : State :=
  raiseEvent { cls := 1, code := 3, src := src, queue := q, part := if f = 0 then none else some (f - 1), data := value,
               log := false } s

/-- The checks of a doorbell of queue `q` in the order of R254, and `accept` for a value that passes them. -/
def ringDoorbell (f q : Nat) (aligned : Bool) (value last limit : Nat) (s : State) (accept : State) : State :=
  if s.hasFn f = false then s
  else if !aligned then bumpF f ZG_HQ_DB_STALE 1 s
  else if !isAdmin q && (f == 0 || decide (q < (s.part (f - 1)).qFirst)
      || decide ((s.part (f - 1)).qFirst + (s.part (f - 1)).qCount ≤ q)) then
    raiseEvent { cls := 1, code := 2, queue := q, data := q + f * 65536, log := false } (bumpF f ZG_HQ_DB_DENIED 1 s)
  else if (s.queue q).state == .disabled || decide (value ≤ last) then bumpF f ZG_HQ_DB_STALE 1 s
  else if limit < value then
    doorbellRange f (if isAdmin q then 4 else (s.queue q).die) (queueField q) value s
  else accept

/-- A submission doorbell of queue `q`. -/
def sqDoorbell (f q : Nat) (aligned : Bool) (value : Nat) (s : State) : State :=
  let x := s.queue q
  ringDoorbell f q aligned value x.dbSeq (x.fetchedSeq + 2 ^ x.sqLog2) s (s.setQueue q { x with dbSeq := value })

/-- A completion doorbell of queue `q`: held records follow (R259). -/
def cqDoorbell (f q : Nat) (aligned : Bool) (value : Nat) (s : State) : State :=
  let x := s.queue q
  ringDoorbell f q aligned value x.cqConsumed x.cmplSeq s (writeHeld q (s.setQueue q { x with cqConsumed := value }))

/-- A write of a submission doorbell (R254). -/
def execSqDoorbell (f : Func) (q : BitVec 16) (aligned : Bool) (value : Word64) (s : State) : Out :=
  .next (sqDoorbell f q.toNat aligned value.toNat s)

/-- A write of a completion doorbell (R254, R259). -/
def execCqDoorbell (f : Func) (q : BitVec 16) (aligned : Bool) (value : Word64) (s : State) : Out :=
  .next (cqDoorbell f q.toNat aligned value.toNat s)

/-- A write of the admin submission doorbell (R254). -/
def execAdminSqDoorbell (f : Func) (aligned : Bool) (value : Word64) (s : State) : Out :=
  .next (sqDoorbell f (65536 + f) aligned value.toNat s)

/-- A write of the admin completion doorbell (R254). -/
def execAdminCqDoorbell (f : Func) (aligned : Bool) (value : Word64) (s : State) : Out :=
  .next (cqDoorbell f (65536 + f) aligned value.toNat s)

/-- An event-ring doorbell: room returns, and lost events are counted at once (R254, R270). -/
def eventDoorbell (f : Nat) (aligned : Bool) (value : Nat) (s : State) : State :=
  let x := s.fn f
  if s.hasFn f = false then s
  else if aligned = false ∨ value ≤ x.evConsumed then bumpF f ZG_HQ_DB_STALE 1 s
  else if x.evWritten < value then doorbellRange f 4 65535 value s
  else announceLost f (s.setFn f { x with evConsumed := value })

/-- A write of the event-ring doorbell (R254, R270). -/
def execEventDoorbell (f : Func) (aligned : Bool) (value : Word64) (s : State) : Out := .next (eventDoorbell f aligned value.toNat s)

/-- The doorbell at an aligned offset of BAR2: its queue and whether it is the completion doorbell, the event ring's, or none (R253,
R600). -/
def bar2Doorbell (f off : Nat) : Option (Option (Nat × Bool)) :=
  if off < 0x100000 then some (some (off / 16, off % 16 == 8))
  else if off = 0x100000 then some none
  else if off = 0x100008 then some (some (65536 + f, false))
  else if off = 0x100010 then some (some (65536 + f, true))
  else none

/-- A write of BAR2: a doorbell, or an offset that is none, counted (R253, R254, R600). -/
def bar2Write (f off size value : Nat) (s : State) : State :=
  let aligned := size == 8 && off % 8 == 0
  match bar2Doorbell f (off / 8 * 8) with
  | some (some (q, false)) => sqDoorbell f q aligned value s
  | some (some (q, true)) => cqDoorbell f q aligned value s
  | some none => eventDoorbell f aligned value s
  | none => if s.hasFn f then bumpF f ZG_HQ_DB_STALE 1 s else s

/-- A read of BAR2: the last value accepted for a doorbell the function may see; zero otherwise (R253, R600). -/
def bar2Read (f off size : Nat) (s : State) : Nat :=
  if size ≠ 8 ∨ off % 8 ≠ 0 then 0
  else match bar2Doorbell f off with
    | some (some (q, cq)) =>
      let p := s.part (f - 1)
      if !isAdmin q && f != 0 && (decide (q < p.qFirst) || decide (p.qFirst + p.qCount ≤ q)) then 0
      else if cq then (s.queue q).cqConsumed else (s.queue q).dbSeq
    | some none => (s.fn f).evConsumed
    | none => 0

/-! ### Configuration space (R247 to R249, R602) -/

/-- The capabilities a function offers (R249). -/
def capabilities (f : Nat) : List Capability :=
  if f = 0 then [.pciExpress, .powerManagement, .msix, .advancedErrorReporting, .srIov, .ari, .deviceSerial, .physicalLayer16,
    .physicalLayer32, .physicalLayer64, .laneMargining, .dataLinkFeature, .flitLogging, .vendorSpecific]
  else [.pciExpress, .powerManagement, .msix, .ari]

/-- A field of the configuration space of a function; those of a capability it does not offer read as zero (R248, R249, R250,
R602). -/
def configValue (f : Nat) (x : ConfigField) (s : State) : Nat :=
  let pf := fun (n : Nat) => if f = 0 then n else 0
  match x with
  | .vendorId => fld (s.regF f ZG_ID_PART) 63 48
  | .deviceId => fld (s.regF f ZG_ID_PART) 47 32
  | .revisionId => fld (s.regF f ZG_ID_PART) 31 24
  | .classCode => 0x120000
  | .firstVfOffset => pf 1
  | .vfStride => pf 1
  | .totalVfs => pf 64
  | .vfEnable => pf (b2n s.host.vfEnable)
  | .busMaster => b2n (s.fn f).bme
  | .maxPayload => 512
  | .maxReadRequest => 4096
  | .msixVectors => if f = 0 then 2048 else 64
  | .serial => pf (s.reg ZG_ID_SERIAL).toNat
  | .vsecId => pf 1
  | .vsecRev => pf 1
  | .vsecLength => pf 0x10
  | .vsecZgId => 0
  | .vsecMap => pf (fld (s.regF f ZG_ID_PART) 7 0)
  | .offers c => b2n ((capabilities f).contains c)

/-! ### Fetch (R250, R255) -/

/-- Whether a queue may read descriptors: RUNNING, with no command of an earlier ENABLE left, its function a bus master and not
quiesced, no slot to be read again or failed, TARGET in order (R250, R251, R255, R273, R469). -/
def State.mayFetch (s : State) (q : Nat) : Bool :=
  let x := s.queue q
  let f := s.queueFn q
  x.state == .running && !x.prior && (s.fn f).bme && !bitOf (s.regF f ZG_ADM_CFG).toNat 30
    && (isAdmin q || !s.hubLost x.die) && x.bad.isNone && !x.held.any (·.ending.noDesc) && !x.flights.any (fun f => f.ended.any (·.noDesc)) && !s.targetBad q

/-- Whether the main lane of a privileged queue stands at a DEFER_BEGIN that has not yet opened its region (R420). -/
def Queue.opensRegion (x : Queue) : Bool :=
  x.cls == 1 && (x.fetched.any (fun d => dOpc d == 0xA5)
    || x.flights.any (fun f => f.ended.isNone && !f.deferred && dOpc f.desc == 0xA5))

/-- The sequence a lane fetches next, among those announced (R254, R420). -/
def Queue.wantSeq (x : Queue) (deferred : Bool) : Option Nat :=
  let n := if deferred then (x.regions.find? (fun r => !r.whole)).map (·.fetchedTo + 1)
           else if x.opensRegion then none else some (x.mainSeq + 1)
  n.bind (fun n => if n ≤ x.dbSeq then some n else none)

/-- A descriptor joins its lane. -/
def Queue.takeDesc (x : Queue) (deferred : Bool) (n : Nat) (d : List Byte) : Queue :=
  let x := { x with retries := 0 }
  if deferred then
    { x with regions := x.regions.map (fun (r : DeferRegion) =>
        if r.has n then { r with fetchedTo := n, lane := r.lane ++ [d] } else r) }.settleFetched
  else { x with fetched := x.fetched ++ [d], mainSeq := n }.settleFetched

/-- Address of the slot of a submit sequence (R252). -/
def Queue.slotAddr (x : Queue) (n : Nat) : Nat := x.sqBase + n % 2 ^ x.sqLog2 * 128

/-- Whether the fetched descriptors of the lane of a sequence are all dispatched. -/
def Queue.laneEmpty (x : Queue) (n : Nat) : Bool :=
  match x.regions.find? (fun r => r.has n) with
  | some r => r.lane == []
  | none => x.fetched == []

/-- The fetched descriptors of a lane are all dispatched and the slot behind them failed: the queue enters ERROR, and the
slot counts as an ended command (R255). -/
def takeBad (q : Nat) (s : State) : State :=
  let x := s.queue q
  match x.bad with
  | some (n, st) =>
    if x.state == .running && x.laneEmpty n then
      let e : EndRec := { status := st, detail := 0, unwritten := false, repeated := false, sigBlocked := false, endNs := s.now,
                          noDesc := true }
      let s := s.setQueue q ({ x with bad := none }.addFlight { seq := n, desc := [], ended := some e })
      drainQueue q (enterError q st s)
    else s
  | none => s

/-- The slot of sequence `n` is given up with a status (R255). -/
def failSlot (q n status : Nat) (s : State) : State :=
  takeBad q (s.setQueue q { s.queue q with bad := some (n, status), retries := 0 })

/-- A host read of a fetch failed: event 0x01.0x09 with the first byte of the read request, which crosses no 4 KiB
boundary (R249, R255). -/
def hostFetchFault (q first n : Nat) (s : State) : State :=
  let x := s.queue q
  let a := x.slotAddr n
  let req := max (a / 4096 * 4096) (if x.slotAddr first ≤ a then x.slotAddr first else x.sqBase)
  raiseEvent { cls := 1, code := 9, src := if isAdmin q then 4 else x.die, queue := queueField q, part := s.queuePart q,
               data := req, log := false } (failSlot q n 0x000B s)

/-- The requester of a fetch: the active bank of the partition's page tables (R252). -/
def State.fetchReq (s : State) (q n : Nat) : Req :=
  let x := s.queue q
  let b := s.bank (ptTable x.part)
  { part := x.part, bank := b.active, epoch := b.epoch, queue := q, seq := n, die := x.die, unit := 6,
    strict := (s.part x.part).det || (s.part x.part).audit }

/-- Read the descriptor in the slot of sequence `n`. -/
def readSlot (q n : Nat) (s : State) : Acc (List Byte) :=
  let x := s.queue q
  if x.sqHbm then vaRead (s.fetchReq q n) (x.slotAddr n) 128 s
  else .ok (s.hostRead (s.queueFn q) (x.slotAddr n) 128) s

/-- The slot of sequence `want` has been read: `good` continues with a descriptor of that sequence, `wrong` with any other
(R255). -/
def fetchSlot (q want : Nat) (s : State) (good : List Byte → State → State) (wrong : State → State) : State :=
  match readSlot q want s with
  | .ok d s => if dSeq d = want then good d s else wrong s
  | .fault k va s => failSlot q want (faultStatus k) (recordFault (s.fetchReq q want) k va s)
  | .wait _ _ _ => s

/-- Fetch up to `n` descriptors of a lane in submit order, the host read failing before the slot `fault` of the fetch
(R255). -/
def fetchN (q first : Nat) (deferred : Bool) (fault : Option Nat) : Nat → State → State
  | 0, s => s
  | n + 1, s =>
    let x := s.queue q
    match (if x.state = .running then x.wantSeq deferred else none) with
    | none => s
    | some want =>
      if x.sqHbm = false ∧ fault = some (want - first) then hostFetchFault q first want s
      else fetchSlot q want s (fun d s => fetchN q first deferred fault n (s.setQueue q (x.takeDesc deferred want d)))
        (fun s => s.setQueue q { x with retries := 1, retryAt := s.now, retryLane := deferred })

/-- A read of up to 32 descriptors of a lane returns; `fault` is the first slot of it that the host failed to give (R254,
R255, R420). -/
def execDescriptorFetch (q : Qn) (deferred : Bool) (n : Fin 32) (fault : Option (Fin 32)) (s : State) : Out :=
  .next <|
    if s.mayFetch q ∧ (s.queue q).retries = 0 then
      match (s.queue q).wantSeq deferred with
      | some first => fetchN q first deferred (fault.map Fin.val) (n.val + 1) s
      | none => s
    else s

/-- A slot with a wrong SUBMIT_SEQ is read again after 1 µs; after three such reads the queue enters ERROR (R255). -/
def execSeqRefetch (q : Qn) (fault : Bool) (s : State) : Out :=
  .next <|
    let x := s.queue q
    if !s.mayFetch q || x.retries == 0 || decide (s.now < x.retryAt + 1000) then s
    else match x.wantSeq x.retryLane with
      | none => s
      | some want =>
        if fault && !x.sqHbm then hostFetchFault q want want s
        else fetchSlot q want s (fun d s => s.setQueue q (x.takeDesc x.retryLane want d)) fun s =>
          if x.retries = 3 then failSlot q want 4 s
          else s.setQueue q { x with retries := x.retries + 1, retryAt := s.now }

/-! ### Timers (R259, R267) -/

/-- The holdoff of a vector has passed: its held interrupt is sent, while the function may issue requests (R250, R267). -/
def execIntHoldoffExpire (f : Func) (v : Fin 2048) (s : State) : Out :=
  .next <|
    let x := s.vector f v
    if x.held ∧ (s.fn f).bme ∧ x.sentAt + x.holdoff * 1000 ≤ s.now then sendInterrupt f v s else s

/-- A completion ring full for 100 µs: event 0x01.0x04, once in a period (R259). -/
def execCqFullTimeout (q : Qn) (s : State) : Out :=
  .next <|
    let x := s.queue q
    if x.cqFull ∧ x.fullRaised = none ∧ x.fullSince + 100000 ≤ s.now then
      raiseEvent { cls := 1, code := 4, src := if isAdmin q then 4 else x.die, queue := queueField q, part := s.queuePart q,
                   data := x.cmplSeq + 1, log := false } (s.setQueue q { x with fullRaised := some (x.cmplSeq + 1) })
    else s

/-! ### NOP and COPY (R263, R271, R272) -/

/-- NOP: no effect. On an admin queue Betony executes it (R277). -/
def execNop (q : Qn) (seq : Word64) (s : State) : Out :=
  .next <| withFlight q seq.toNat 0x01 s fun _ =>
    if isAdmin q then
      (if s.betony = 3 then endCommand q seq.toNat 0x0807 0 s
       else if s.betony ≠ 1 then s
       else endCommand q seq.toNat 0 0 s)
    else endCommand q seq.toNat 0 0 s

/-- COPY body (R271, R272). -/
def checkCopy (b : List Byte) : Nat :=
  let dir := byteAt b 0
  let src := getLE b 8 8
  let dst := getLE b 16 8
  let n := getLE b 24 8
  failIf (decide (3 ≤ dir) || !zeroAt b 1 7 || src % 4 != 0 || dst % 4 != 0 || n % 4 != 0 || n == 0
    || decide (0x10000000000 < n) || (dir == 2 && decide (src < dst + n) && decide (dst < src + n))) 1

/-- COPY: between host memory and HBM or within HBM. A host read that fails ends it with the host-access-fault status;
`fault` is the first byte of the request that failed. On a failure each block of the destination in HBM holds its previous or its new
contents (R272). -/
def execCopy (q : Qn) (seq : Word64) (fault : Option Word64) (s : State) : Out :=
  .next <| withFlight q seq.toNat 0x08 s fun f =>
    let b := dBody f.desc
    let bad := checkCopy b
    let dir := byteAt b 0
    let src := getLE b 8 8
    let dst := getLE b 16 8
    let n := getLE b 24 8
    let fn := s.queueFn q
    let rq := s.req q f 6
    if bad ≠ 0 then endCommand q seq.toNat bad 0 s
    else if dir ≠ 2 ∧ ((s.fn fn).bme = false ∨ s.hubLost (s.queue q).die = true) then s
    else if dir = 0 then
      match fault with
      | some a =>
        let (v, t) := s.draw
        let t := vaWriteSome rq v (n / 64 + 2) dst (s.hostRead fn src n) t
        raiseEvent { cls := 1, code := 9, src := (s.queue q).die, queue := q.val, part := s.queuePart q, data := a.toNat,
                     log := false } (endCommand q seq.toNat 0x000B 0 t)
      | none => finishAcc q seq.toNat rq s (vaWriteWhole rq dst (s.hostRead fn src n) s) fun _ s => endCommand q seq.toNat 0 0 s
    else
      finishAcc q seq.toNat rq s (vaRead rq src n s) fun data s1 =>
        if dir = 1 then endCommand q seq.toNat 0 0 (s1.hostWrite fn dst data)
        else finishAcc q seq.toNat rq s (vaWriteWhole rq dst data s1) fun _ s => endCommand q seq.toNat 0 0 s

/-! ### Stopping (R251, R276, R277) -/

/-- Every dispatched command of a queue ends with a status; the attempt of a filler unit ends first, and its commands are
as if they had not been dispatched (R277, R427, R428). -/
def abortFlights (q status : Nat) (s : State) : State :=
  let s := endAttempt q s
  (((s.queue q).flights.filter (fun f => f.ended.isNone)).map (·.seq)).foldl (fun s n => failCommand q n status 0 s) s

/-- A queue that is not DISABLED enters STOPPING; with `abort` its dispatched commands end. The admin command that waits
for it ends with it (R276, R277). -/
def stopQueue (q : Nat) (abort : Bool) (waiter : Nat × Nat) (s : State) : State :=
  let x := s.queue q
  let s := s.setQueue q { x with state := .stopping, stopWaiters := x.stopWaiters ++ [waiter] }
  let s := if abort then abortFlights q 7 s else s
  let (s, es) := finishStop q s
  endAll es s

/-- QUEUE, PART and ABORT of the short admin body, and its reserved fields (R275). -/
def sQueue (b : List Byte) : Nat := getLE b 0 2
/-- PART. -/
def sPart (b : List Byte) : Nat := byteAt b 2 % 64
/-- ABORT. -/
def sAbort (b : List Byte) : Bool := bitOf (byteAt b 3) 0
/-- Reserved fields of the short body. -/
def checkShort (b : List Byte) : Nat := failIf (bitsOf (byteAt b 2) 7 6 != 0 || bitsOf (byteAt b 3) 7 3 != 0) 1

/-- Whether the admin queue `q` may name queue `n` (R274). -/
def queueDenied (q n : Nat) (s : State) : Nat :=
  let p := s.part (q - 65537)
  failIf (q != 65536 && (decide (n < p.qFirst) || decide (p.qFirst + p.qCount ≤ n))) 3

/-- Whether the admin queue `q` may name partition `p` (R274). -/
def partDenied (q p : Nat) : Nat := failIf (q != 65536 && q != 65537 + p) 3

/-- QUEUE_STOP, carried out by hub hardware (R276, R277). -/
def execQueueStop (q : Qn) (seq : Word64) (s : State) : Out :=
  .next <| withFlight q seq.toNat 0x92 s fun f =>
    let b := dBody f.desc
    let n := sQueue b
    let bad := firstFail [adminRefusal q s, checkShort b, queueDenied q n s, failIf ((s.queue n).state == .disabled) 9]
    if f.phase ≠ 0 then s
    else if bad ≠ 0 then endCommand q seq.toNat bad 0 s
    else stopQueue n (sAbort b) (q, seq.toNat) (s.updFlight q seq.toNat (fun g => { g with phase := 1 }))

/-- Queues of a partition that are not DISABLED. -/
def State.partQueues (s : State) (p : Nat) : List Nat :=
  (s.host.queues.filter (fun x => !isAdmin x.1 && x.2.part == p && x.2.state != .disabled)).map Prod.fst

/-- Every queue of a partition stops; an admin command may wait for all of them (R276, R386). -/
def stopPartition (p : Nat) (abort : Bool) (waiter : Option (Nat × Nat)) (s : State) : State :=
  let qs := s.partQueues p
  let s := match waiter with
    | some w => qs.foldl (fun s n => s.setQueue n { s.queue n with stopWaiters := (s.queue n).stopWaiters ++ [w] }) s
    | none => s
  qs.foldl (fun s n =>
    let s := s.setQueue n { s.queue n with state := .stopping }
    let s := if abort then abortFlights n 7 s else s
    let (s, es) := finishStop n s
    endAll es s) s

/-- PARTITION_STOP: QUEUE_STOP on every queue of the partition (R276). -/
def execPartitionStop (q : Qn) (seq : Word64) (s : State) : Out :=
  .next <| withFlight q seq.toNat 0x96 s fun f =>
    let b := dBody f.desc
    let p := sPart b
    let bad := firstFail [adminRefusal q s, checkShort b, partDenied q p, failIf (!(s.part p).present) 1]
    if f.phase ≠ 0 then s
    else if bad ≠ 0 then endCommand q seq.toNat bad 0 s
    else if s.partQueues p = [] then endCommand q seq.toNat 0 0 s
    else stopPartition p (sAbort b) (some (q.val, seq.toNat)) (s.updFlight q seq.toNat (fun g => { g with phase := 1 }))

/-! ### QUEUE_CREATE, QUEUE_DESTROY, QUEUE_START (R275, R276) -/

/-- Privileged queues of a partition. -/
def State.privileged (s : State) (p : Nat) : Nat :=
  (s.host.queues.filter (fun x => !isAdmin x.1 && x.2.part == p && x.2.cls == 1 && x.2.state != .disabled)).length

/-- Fields of the QUEUE_CREATE body out of range (R275). -/
def createBad (b : List Byte) (s : State) : Bool :=
  let n := getLE b 0 2
  let p := s.part (byteAt b 2 % 64)
  let sq := byteAt b 4
  let cq := byteAt b 5
  byteAt b 2 / 64 == 3 || bitsOf (byteAt b 3) 7 6 != 0 || bitOf (byteAt b 3) 2 || decide (sq < 6) || decide (16 < sq)
    || decide (cq < 6) || decide (16 < cq) || decide (64 ≤ getLE b 6 2) || getLE b 8 8 % 4096 != 0
    || getLE b 16 8 % 4096 != 0 || getLE b 24 8 == 0 || decide (2 ^ 63 < getLE b 24 8) || !zeroAt b 0x23 29
    || !p.present || decide (n < p.qFirst) || decide (p.qFirst + p.qCount ≤ n) || (s.queue n).state != .disabled

/-- TARGET is neither 0 nor the enabled engine count (R276, R469). -/
def targetStatus (t : Nat) (s : State) : Nat := failIf (t != 0 && t != s.engines) 0x000A

/-- QUEUE_CREATE (R276). What an earlier queue of the number still has under way ends first. -/
def execQueueCreate (q : Qn) (seq : Word64) (s : State) : Out :=
  .next <| withAdmin q seq.toNat 0x90 s fun f =>
    let b := dBody f.desc
    let n := getLE b 0 2
    let p := byteAt b 2 % 64
    let first := getLE b 24 8
    let bad := firstFail [partDenied q p, queueDenied q n s, failIf (createBad b s) 1,
      failIf (byteAt b 2 / 64 == 1 && decide (4 ≤ s.privileged p)) 5, targetStatus (getLE b 0x20 2) s]
    if bad ≠ 0 then endCommand q seq.toNat bad 0 s
    else
      let s := abortFlights n 7 s
      let fl := byteAt b 3
      let s := s.setQueue n
        { state := .running, cls := byteAt b 2 / 64, part := p, tenant := (s.part p).tenant, die := fl % 4,
          sqHbm := bitOf fl 5, cqHbm := bitOf fl 4, intAll := bitOf fl 3, sqLog2 := byteAt b 4, cqLog2 := byteAt b 5,
          intVec := getLE b 6 2, sqBase := getLE b 8 8, cqBase := getLE b 16 8, dbSeq := first - 1,
          fetchedSeq := first - 1, mainSeq := first - 1, doneSeq := first - 1, target := getLE b 0x20 2, holdoffUs := byteAt b 0x22 }
      let s := { s with power := { s.power with eQueue := cset 0 s.power.eQueue n 0,
                                                carried := cset (0, 1) s.power.carried n (0, 1) } }
      endCommand q seq.toNat 0 0 s

/-- QUEUE_DESTROY (R276). -/
def execQueueDestroy (q : Qn) (seq : Word64) (s : State) : Out :=
  .next <| withAdmin q seq.toNat 0x91 s fun f =>
    let b := dBody f.desc
    let n := sQueue b
    let x := s.queue n
    let bad := firstFail [checkShort b, queueDenied q n s, failIf (x.state == .running || x.state == .stopping) 9]
    if bad ≠ 0 then endCommand q seq.toNat bad 0 s
    else if x.state = .disabled then endCommand q seq.toNat 0 0 s
    else
      let s := endAttempt n s
      let x := s.queue n
      endCommand q seq.toNat 0 0 (dropReaders n
        (s.setQueue n { x with state := .disabled, fetched := [], bad := none, retries := 0, regions := [], unit := none }))

/-- QUEUE_START: from STOPPED or ERROR to RUNNING (R276). -/
def execQueueStart (q : Qn) (seq : Word64) (s : State) : Out :=
  .next <| withAdmin q seq.toNat 0x93 s fun f =>
    let b := dBody f.desc
    let n := sQueue b
    let x := s.queue n
    let bad := firstFail [checkShort b, queueDenied q n s, failIf (x.state != .stopped && x.state != .error) 9,
      s.dieDown x.die, targetStatus x.target s]
    if bad ≠ 0 then endCommand q seq.toNat bad 0 s
    else endCommand q seq.toNat 0 0 (takeBad n (s.setQueue n { x with state := .running, retries := 0 }))

/-! ### EVENT_RING_SET (R270, R276) -/

/-- EVENT_RING_SET: sets or removes the function's event ring. -/
def execEventRingSet (q : Qn) (seq : Word64) (s : State) : Out :=
  .next <| withAdmin q seq.toNat 0x97 s fun fl =>
    let b := dBody fl.desc
    let f := q.val - 65536
    let base := getLE b 8 8
    let log2 := getLE b 6 2 % 32
    let vec := getLE b 4 2
    let x := s.fn f
    let bad := firstFail [checkShort b, failIf (f == 0 && sAbort b && base != 0) 1, failIf (base != 0 && (base % 4096 != 0 || decide (log2 < 6) || decide (16 < log2)
      || decide ((if f = 0 then 2048 else 64) ≤ vec))) 1]
    if bad ≠ 0 then endCommand q seq.toNat bad 0 s
    else if base = 0 then endCommand q seq.toNat 0 0 (s.setFn f { x with evSet := false })
    else
      let s := s.setFn f { x with evSet := true, evHbm := sAbort b, evBase := base, evLog2 := log2, evVec := vec,
                                  evConsumed := x.evAssigned }
      endCommand q seq.toNat 0 0 (announceLost f s)

/-! ### ZG_ADM_CFG and ZG_HQ_SEL (R273) -/

/-- Queues of a function, its admin queue among them. -/
def State.fnQueues (s : State) (f : Nat) : List Nat :=
  (s.host.queues.filter (fun x => s.queueFn x.1 == f)).map Prod.fst

/-- What a write of ZG_ADM_CFG does beside setting it (R273): ENABLE set starts the admin queue with its sequences reset, which fetches
once the commands of an earlier ENABLE have their records; ENABLE cleared stops its fetching; QUIESCED follows. -/
def admCfgEffect (f old new : Nat) (s : State) : State :=
  let q := 65536 + f
  let x := s.queue q
  let s :=
    if bitOf new 31 ∧ bitOf old 31 = false then
      s.setQueue q { state := .running, part := f - 1, sqLog2 := bitsOf new 11 8, cqLog2 := bitsOf new 7 4,
                     sqBase := (s.regF f ZG_ADM_SQ_BASE).toNat, cqBase := (s.regF f ZG_ADM_CQ_BASE).toNat,
                     flights := x.flights, held := x.held, prior := x.flights != [] || x.held != [] }
    else if bitOf old 31 ∧ bitOf new 31 = false then
      s.setQueue q { x with state := .disabled, fetched := [], bad := none, retries := 0 }
    else s
  refreshQuiesced f s

/-- A write of ZG_ADM_CFG that sets ENABLE (R273). -/
def execAdminEnable (f : Func) (value : Word32) (s : State) : Out :=
  .next <| if value.toNat.testBit 31 then guardedWrite f ZG_ADM_CFG 4 value.toNat s (admCfgEffect f) else s

/-- A write of ZG_ADM_CFG that clears ENABLE (R273). -/
def execAdminDisable (f : Func) (value : Word32) (s : State) : Out :=
  .next <| if value.toNat.testBit 31 then s else guardedWrite f ZG_ADM_CFG 4 value.toNat s (admCfgEffect f)

/-- A write of ZG_ADM_CFG that sets or clears QUIESCE and leaves the rest. -/
def execFunctionQuiesce (f : Func) (on : Bool) (s : State) : Out :=
  .next (guardedWrite f ZG_ADM_CFG 4 (setFld (s.regF f ZG_ADM_CFG) 31 29 (b2n (bitOf (s.regF f ZG_ADM_CFG).toNat 31) * 4 + b2n on * 2)).toNat s
    (admCfgEffect f))

/-- Code of a queue state in ZG_HQ_STATE. -/
def stateCode : QState → Nat
  | .disabled => 0 | .running => 1 | .stopping => 2 | .stopped => 3 | .error => 4

/-- The snapshot of a queue and of the function's event ring that a write of ZG_HQ_SEL takes. -/
def hqSnapshot (f sel : Nat) (s : State) : State :=
  let q := if bitOf sel 16 then 65536 + f else bitsOf sel 15 0
  let x := s.queue q
  let e := s.fn f
  let put := fun (off v : Nat) (s : State) => s.setRegF f off (BitVec.ofNat 64 v)
  let st := x.lastStatus * 2 ^ 48 + (if isAdmin q then f - 1 else x.part) % 64 * 2 ^ 42 + x.die * 2 ^ 40 + x.cls * 2 ^ 38
    + stateCode x.state * 2 ^ 35 + b2n x.cqFull * 2 ^ 34 + b2n x.sqHbm * 2 ^ 33 + b2n x.cqHbm * 2 ^ 32
    + x.sqLog2 * 2 ^ 27 + x.cqLog2 * 2 ^ 22
  let s := put ZG_HQ_STATE st s
  let s := put ZG_HQ_DB_SEQ x.dbSeq s
  let s := put ZG_HQ_FETCHED_SEQ x.fetchedSeq s
  let s := put ZG_HQ_DONE_SEQ x.doneSeq s
  let s := put ZG_HQ_CMPL_SEQ x.cmplSeq s
  let s := put ZG_HQ_CQ_CONSUMED x.cqConsumed s
  let s := put ZG_HQ_SNAP_NS s.now s
  let s := put ZG_HQ_EVT_ASSIGNED e.evAssigned s
  let s := put ZG_HQ_EVT_WRITTEN e.evWritten s
  put ZG_HQ_EVT_CONSUMED e.evConsumed s

/-- A write of ZG_HQ_SEL takes a snapshot. -/
def execHqSelect (f : Func) (value : Word32) (s : State) : Out :=
  .next (guardedWrite f ZG_HQ_SEL 4 value.toNat s (fun _ new s => hqSnapshot f new s))

/-! ### Resets (R283, R596) -/

/-- Every queue of a function becomes DISABLED: its dispatched commands are aborted, no record is written, DONE_SEQ
advances; an admin command that waits for one to stop has nothing left to wait for (R283). -/
def disableQueue (q : Nat) (s : State) : State :=
  let x := s.queue q
  let s := releaseBanks (x.held.flatMap (·.binds)) s
  let s := s.setQueue q { x with state := .disabled, mute := true, held := [], fetched := [], bad := none, retries := 0,
                                 cqFull := false, fullRaised := none, stopWaiters := [] }
  let s := abortFlights q 7 s
  let s := s.setQueue q { s.queue q with regions := [], unit := none }
  endAll ((x.stopWaiters.filter (fun w => !s.host.queues.any (fun p => p.2.stopWaiters.contains w))).map
    (fun w => { queue := w.1, seq := w.2, status := 0 })) s

/-- Reset values of the registers of a function that a function-level reset resets (R596). -/
def resetFnRegs (f : Nat) (s : State) : State :=
  let s := s.setRegF f ZG_ADM_CFG 0x660
  let s := [ZG_ADM_SQ_BASE, ZG_ADM_CQ_BASE, ZG_HQ_SEL, ZG_HQ_STATE, ZG_HQ_DB_SEQ, ZG_HQ_FETCHED_SEQ, ZG_HQ_DONE_SEQ,
    ZG_HQ_CMPL_SEQ, ZG_HQ_CQ_CONSUMED, ZG_HQ_SNAP_NS, ZG_HQ_EVT_ASSIGNED, ZG_HQ_EVT_WRITTEN, ZG_HQ_EVT_CONSUMED,
    ZG_REG_ERR].foldl (fun s off => s.setRegF f off 0) s
  { s with mgt := { s.mgt with shadows := cset (0, 0) s.mgt.shadows f (0, 0) } }

/-- A reset of function `f`: queues DISABLED, the event ring removed, EVT_SEQ going on, registers reset; Bus Master Enable
and the state of its vectors go with the configuration space (log entry 23). -/
def functionReset (f : Nat) (s : State) : State :=
  let s := s.setFn f { s.fn f with bme := false, evSet := false, evHeld := [] }
  let s := (s.fnQueues f).foldl (fun s q => disableQueue q s) s
  let s := { s with host := { s.host with vectors := cclear s.host.vectors (f * 2048) (f * 2048 + 2048) } }
  resetFnRegs f s

/-- A function-level reset, or D3hot, of a virtual function (R283). -/
def execFlrVf (p : Part) (s : State) : Out := .next (functionReset (p + 1) s)

/-- Every function is reset and VF Enable cleared; ZG_MBX_BUF is cleared and a mailbox doorbell not yet accepted is lost; the rest of
the mailbox stays (R282, R283). -/
def resetAllFunctions (s : State) : State :=
  let s := (List.range 65).foldl (fun s f => functionReset f s) s
  { s with regs := cclear s.regs (ZG_MBX_BUF 0) (ZG_MBX_RESP 0), host := { s.host with vfEnable := false, doorbell := none } }

/-- VF Enable changes; cleared, it takes every virtual function with it (R283). -/
def setVfEnable (on : Bool) (s : State) : State :=
  let s := if on then s else (List.range 64).foldl (fun s p => functionReset (p + 1) s) s
  { s with host := { s.host with vfEnable := on } }

/-- A configuration write of a function that answers: Bus Master Enable, on whose return held events and records are written, and in the
physical function VF Enable, whose clearing resets every virtual function (R250, R283). -/
def execBusMasterEnable (f : Func) (on : ConfigWrite) (s : State) : Out :=
  .next <|
    if s.hasFn f = false then s
    else
      let s := if f.val = 0 ∧ on.vfEnable ≠ s.host.vfEnable then setVfEnable on.vfEnable s else s
      let x := s.fn f
      let s := s.setFn f { x with bme := on.busMaster }
      if on.busMaster ∧ x.bme = false then
        (s.fnQueues f).foldl (fun s q => writeHeld q s) (announceLost f (writeHeldEvents f x.evHeld s))
      else s

/-- A function-level reset of the physical function (R283). -/
def execFlrPf (s : State) : Out := .next (resetAllFunctions s)

/-- A hot reset, secondary bus reset, link down or PERST_N (R283). -/
def execHotReset (s : State) : Out :=
  .next (resetAllFunctions { s with host := { s.host with linkUp := false } })

end Sys2Proof.Machine
end

