-- ==== Sys2Proof/Machine/Wefin.lean ====
section
/-! DEFINITION. Wefin ports, verification, discovery, plans and control (13_wefin_links_topology.md R355 to R394). -/
namespace Sys2Proof.Machine

/-! ### Flits (R357 to R366) -/

/-- Whether a port takes part in flits: VERIFY, UP or QUIESCED. -/
def State.portRuns (s : State) (p : Nat) : Bool :=
  let st := s.portState p
  st == 2 || st == 3 || st == 4

/-- WEFIN_FLIT_SEND: the port sends a DATA flit with a credit, or an IDLE flit; `pool` is the pool it serves first where
R364 leaves the choice. -/
def execWefinFlitSend (p : Fin 24) (pool : Fin 3) (s : State) : Out := .next (sendFlit p pool s)

/-- CR_COUNT of a good flit is taken (R359, R365). -/
def takeCredit (p : Nat) (f : List Byte) (s : State) : State :=
  let vp := byteAt f 1 % 16
  if 12 ≤ vp then s
  else
    let x := s.port p
    s.setPort p { x with credit := cset 0 x.credit vp (getLE f 8 2) }

/-- Whether the CRC of a flit is right (R358). -/
def flitCrcOk (f : List Byte) : Bool := crc32c (putAt (f.take 0xFC) 4 (zeros 3)) == getLE f 0xFC 4

/-- A codeword of the next lane in turn is taken: corrected and lost codewords are counted, and its data blocks join the byte stream;
all blocks of a lost one do, outside an alignment round (R355 to R357). -/
def WPort.takeWord (x : WPort) (w : LaneWord) : WPort × Nat × Nat :=
  let lost := decide (15 < w.wrong.toNat)
  let round := x.rxWords / 4 % 4096
  let marks := !lost && !w.blocks.any blockData
  let bs := if lost then (if x.rxAlign = some round then [] else w.blocks.map (fun b => (b, true)))
    else (w.blocks.filter blockData).map (fun b => (b, false))
  ({ x with rxWords := x.rxWords + 1, rxBlocks := x.rxBlocks ++ bs, rxAlign := if marks then some round else x.rxAlign },
    if lost then 0 else w.wrong.toNat, b2n lost)

/-- Codewords are taken in dealing order while the lane in turn has one: the port, symbols corrected, codewords lost (R356). -/
def WPort.takeWords : Nat → WPort → Nat → Nat → WPort × Nat × Nat
  | 0, x, sym, lost => (x, sym, lost)
  | n + 1, x, sym, lost =>
    match cget [] x.deskew (x.rxWords % 4) with
    | [] => (x, sym, lost)
    | w :: ws =>
      let (y, c, l) := { x with deskew := cset [] x.deskew (x.rxWords % 4) ws }.takeWord w
      takeWords n y (sym + c) (lost + l)

/-- Codewords reach the lanes of a port: each waits for the other lanes, and those in turn are taken and counted (R356, R357). -/
def arriveWords (p : Nat) (words : List LaneWord) (s : State) : State :=
  let x := words.foldl (fun (x : WPort) w => { x with deskew := cset [] x.deskew w.lane (cget [] x.deskew w.lane ++ [w]) }) (s.port p)
  let (y, sym, lost) := WPort.takeWords ((x.deskew.map (fun l => l.2.length)).sum) x 0 0
  countPort p 7 lost (countPort p 6 sym (s.setPort p y))

/-- The next flit of the byte stream, 256 bytes, with whether a byte of it lies in a lost codeword (R356, R357). -/
def nextFlit (p : Nat) (s : State) : Option (List Byte × Bool × State) :=
  let x := s.port p
  let bs := x.rxBlocks.take 8
  if bs.length < 8 then none
  else some (bs.flatMap (fun b => blockBytes b.1), bs.any (fun b => b.2), s.setPort p { x with rxBlocks := x.rxBlocks.drop 8 })

/-- A flit at its receiver: its ACK is taken by ACK_CRC, the rest by CRC, a DATA flit by FSEQ and with room in its buffer (R357, R359,
R364). -/
def takeFlit (p : Nat) (flit : List Byte) (lost : Bool) (s : State) : State :=
  let ack := (flit.drop 4).take 2
  let s := if crc8 ack = byteAt flit 6 then wfnTakeAck p (leNat ack) s else countPort p 5 1 s
  if lost || flitCrcOk flit = false then countPort p 2 1 s
  else
    let s := takeCredit p flit s
    if byteAt flit 0 / 64 ≠ 1 ∨ byteAt flit 0 / 4 % 4 = 3 then s
    else if getLE flit 2 2 = (s.port p).expect ∧ s.bufferUsed p (flitVp flit) < bufferSize (flitVp flit) then acceptFlit p flit s
    else countPort p 3 1 (s.setPort p { s.port p with owes := true })

/-- WEFIN_FLIT_RECEIVE: a codeword reaches its lane, or none does, and the next flit of the byte stream, once it is there, is taken (R355 to R359). -/
def execWefinFlitReceive (p : Fin 24) (lane : Fin 4) (blocks : List (BitVec 257)) (wrong : BitVec 10) (s : State) : Out :=
  let words := laneWords lane blocks wrong
  if wordsWf words = false then .fault .illFormed
  else .next <|
    if s.portRuns p then
      let s := arriveWords p words s
      match nextFlit p s with
      | none => s
      | some (f, lost, s) => takeFlit p f lost s
    else s

/-- WEFIN_ACK_IDLE: a receiver that owes an acknowledgement sends an IDLE flit (R360). -/
def execWefinAckIdle (p : Fin 24) (s : State) : Out :=
  .next <| if s.portRuns p ∧ (s.port p).owes then s.setPort p (idleFlit p (s.port p)) else s

/-- The command that waits for a port ends. -/
def endPortCmd (p status : Nat) (s : State) : State :=
  match (s.port p).cmd with
  | some (q, seq) => endCommand q seq status 0 (s.setPort p { s.port p with cmd := none })
  | none => s

/-- Whether some flit of a port has been sent RETRY_LIMIT + 1 times (R362). -/
def State.retriesSpent (s : State) (p : Nat) : Bool :=
  (s.port p).replay.any (fun f => decide (max 1 (s.rfld (ZG_WFN_CTRL (p / 6)) 19 12) + 1 ≤ f.sends))

/-- Whether ACK_TIMEOUT has passed with no advance of ACK while flits wait (R361). -/
def State.ackLate (s : State) (p : Nat) : Bool :=
  (s.port p).replay != [] && decide ((s.port p).ackAt + max 8 (s.rfld (ZG_WFN_CTRL (p / 6)) 31 20) * 100 ≤ s.now)

/-- WEFIN_REPLAY_TIMEOUT: every unacknowledged flit is sent again; after the last try the port retrains (R361, R362). -/
def execWefinReplayTimeout (p : Fin 24) (s : State) : Out :=
  .next <|
    if s.portRuns p ∧ s.ackLate p then
      (if s.retriesSpent p then enterRetrain p s
       else
        let x := s.port p
        countPort p 4 x.replay.length (s.setPort p { resendAll p x.replay x with ackAt := s.now }))
    else s

/-- LANE_LOCK_LOSS: a lane loses block or alignment lock for 1 µs (R357). -/
def execLaneLockLoss (p : Fin 24) (lane : Fin 4) (s : State) : Out :=
  .next <| if s.portRuns p ∧ lane.val < 4 then enterRetrain p s else s

/-- PORT_RETRAIN: a flit has been sent RETRY_LIMIT + 1 times without an ACK covering it (R362). -/
def execPortRetrain (p : Fin 24) (s : State) : Out :=
  .next <| if s.portRuns p ∧ s.ackLate p ∧ s.retriesSpent p then enterRetrain p s else s

/-- PORT_RETRAIN_DONE: the port verifies again, or after the third failure is FAILED (R362). One that was draining has nothing left to
drain: it is OFF, or FAILED and its command ends with the link-down status (R389; log entry 48). -/
def execPortRetrainDone (p : Fin 24) (ok : Bool) (s : State) : Out :=
  .next <|
    if s.portState p ≠ 5 then s
    else if ok && (s.port p).cmd.isSome then endPortCmd p 0 (leaveTo p 0 s)
    else if ok then (s.setRfld (portReg p) 63 61 2).setPort p { s.port p with fails := 0, helloSeen := false, helloAt := 0 }
    else
      let n := (s.port p).fails + 1
      let s := s.setPort p { s.port p with fails := n }
      if 3 ≤ n then endPortCmd p 0x40 (s.setRfld (portReg p) 63 61 6) else s

/-- PORT_TRAINED: PMD training and block lock complete (R362, R376). -/
def execPortTrained (p : Fin 24) (s : State) : Out :=
  .next <| if s.portState p = 1 then (s.setRfld (portReg p) 63 61 2).setPort p {} else s

/-! ### Verification (R376 to R378) -/

/-- The HELLO body of a port (R376). -/
def helloBody (p : Nat) (s : State) : List Byte :=
  let c := s.here
  natLE 8 (s.reg ZG_ID_SERIAL).toNat
    ++ (if s.planned then natLE 1 c.1 ++ natLE 1 c.2.1 ++ natLE 1 c.2.2 ++ natLE 1 s.field else [0xFF, 0xFF, 0xFF, 0x80])
    ++ natLE 1 p ++ zeros 3 ++ (if s.planned then (s.wfn.plan.drop 0x10).take 8 else zeros 8)

/-- HELLO_SEND: every 10 µs until a HELLO is received, then every 1 ms (R376). -/
def execHelloSend (p : Fin 24) (s : State) : Out :=
  .next <|
    let x := s.port p
    if (s.portState p = 2 ∨ s.portState p = 3) ∧ x.helloAt + (if x.helloSeen then 1000000 else 10000) ≤ s.now then
      sendOneHop p (toPeer p 0 (helloBody p s) s) (s.setPort p { x with helloAt := s.now })
    else s

/-- The package and port a HELLO comes from, as a plan entry of R374. -/
def helloEntry (h : List Byte) : Nat :=
  byteAt h 8 * 2 ^ 24 + byteAt h 9 * 65536 + byteAt h 10 * 256 + byteAt h 11 % 2 * 128 + byteAt h 12 % 32

/-- The finding of R377 on a HELLO at port `p`: the state and result, and the other port of a swap. -/
def verifyRow (p : Nat) (h : List Byte) (s : State) : Nat × Nat × Option Nat :=
  let plan := s.wfn.plan
  let e := helloEntry h
  let want := planPort plan p
  let serial := getLE h 0 8
  if !s.planned then (2, 9, none)
  else if bitOf (byteAt h 11) 7 || (h.drop 0x10).take 8 != (plan.drop 0x10).take 8 then (2, 6, none)
  else if serial = (s.reg ZG_ID_SERIAL).toNat then (2, 7, none)
  else if entryPackage e = (s.here, s.field) then (6, 8, none)
  else if e = want then (3, 1, none)
  else if want ≠ 0xFFFFFFFF ∧ entryPackage e = entryPackage want ∧ s.portDir p < 6
      ∧ dirOfPort (byteAt plan 1) (e % 32) = opposite (s.portDir p) then (3, 2, none)
  else match (List.range 24).find? (fun b => b != p && planPort plan b == e && (s.port b).hello != []
      && helloEntry (s.port b).hello == want) with
    | some b => (2, 3, some b)
    | none => if want ≠ 0xFFFFFFFF ∧ entryPackage e = entryPackage want then (2, 4, none) else (2, 5, none)

/-- A verification report: ZG_TOP_VERIFY and the log ring (R377, R397). -/
def verifyReport (p b result : Nat) (s : State) : State :=
  let r := portReg p
  let seq := (s.rfld ZG_TOP_VERIFY 63 50 + 1) % 16384
  let v := seq * 2 ^ 50 + p * 2 ^ 45 + b * 2 ^ 40 + result * 2 ^ 36 + s.rfld r 53 46 * 2 ^ 28 + s.rfld r 45 38 * 2 ^ 20
    + s.rfld r 37 30 * 4096 + s.rfld r 29 29 * 2048 + s.rfld r 28 24 * 64
  logRegister 9 3 4 v s.now (s.setRegN ZG_TOP_VERIFY v)

/-- A port takes the outcome of a finding (R377): UP it joins or stays in its bundle, otherwise it leaves it. -/
def applyOutcome (p st result : Nat) (s : State) : State :=
  let was := s.portState p
  let s := s.setRfld (portReg p) 60 57 result
  if st = 3 then (if was = 3 then s else enterUp p result s)
  else if was = 3 ∨ st = 6 then leaveTo p st s
  else s.setRfld (portReg p) 63 61 st

/-- A port is verified by the last HELLO it received (R377). -/
def verifyPort (p : Nat) (s : State) : State :=
  let (st, result, b) := verifyRow p (s.port p).hello s
  let s := verifyReport p (b.getD 31) result s
  let s := applyOutcome p st result s
  let s := match b with
    | some b => if s.portState b = 2 ∨ s.portState b = 3 then applyOutcome b 2 result s else s
    | none => s
  let v := (s.reg ZG_TOP_VERIFY).toNat
  let s := if result = 8 then wefinEvent 3 (p / 6) p v true s
    else if 3 ≤ result ∧ result ≠ 9 then wefinEvent 3 (p / 6) p v false s else s
  if result = 3 then wefinEvent 4 (p / 6) p v false s else s

/-- HELLO_RECEIVE: the peer is recorded and the port verified (R377). -/
def execHelloReceive (p : Fin 24) (s : State) : Out :=
  .next <| receivePacket p 0 s fun _ b s =>
    let h := pkBody b
    if s.portState p = 2 ∨ s.portState p = 3 then
      let s := s.setPort p { s.port p with hello := h, helloSeen := true }
      let v := s.reg (portReg p)
      let v := setFld (setFld (setFld v 53 46 (byteAt h 8)) 45 38 (byteAt h 9)) 37 30 (byteAt h 10)
      let v := setFld (setFld v 29 29 (byteAt h 11 % 2)) 28 24 (byteAt h 12)
      verifyPort p (s.setReg (portReg p) v)
    else s

/-! ### Transit (R368, R370, R382, R394) -/

/-- PACKET_FORWARD: a packet that is not for this package is dropped, or loses a hop and leaves by the route table or over
the twin port. -/
def execPacketForward (p : Fin 24) (s : State) : Out :=
  .next <|
    match takeArrived p (fun b => decide (8 ≤ pkType b) || (decide (3 ≤ pkType b) && !s.forHere b)) s with
    | none => s
    | some (a, s) =>
      let b := a.bytes
      let d := p.val / 6
      if 8 ≤ pkType b then dropPacket d 1 b s
      else if pkTtl b = 0 then dropPacket d 0 b s
      else
        let b := putAt b 1 [BitVec.ofNat 8 (pkTtl b - 1)]
        let came := if s.portDir p < 6 then some (opposite (s.portDir p), a.vp % 3) else none
        if pkDField b ≠ s.field ∧ s.portDir p = 6 then dropPacket d 6 b s
        else match (if pkDField b ≠ s.field then routeTwin d came b s
            else routePacket d none came b (linearOf s.dims (pkDest b)) s) with
          | some s => s
          | none => dropUnreachable d b s

/-! ### Discovery (R379 to R381) -/

/-- LSA_FLOOD: every 10 ms the package floods its own LSA (R379). -/
def execLsaFlood (s : State) : Out :=
  .next <| if s.planned ∧ s.wfn.lsaAt + 10000000 ≤ s.now then floodOwn s else s

/-- REGION_EPOCH and LSA_SEQ of an LSA, as one number that orders them (R379). -/
def lsaRank (l : List Byte) : Nat := getLE l 0x0C 4 * 4294967296 + getLE l 0x10 4

/-- An LSA that is newer than the one held is kept and forwarded on the other ports UP (R379). -/
def keepLsa (p : Nat) (b l : List Byte) (s : State) : State :=
  let i := linearOf s.dims (byteAt l 8, byteAt l 9, byteAt l 10)
  let old := s.lsa i
  if i = s.hereIx ∨ (old ≠ [] ∧ lsaRank l ≤ lsaRank old) then s
  else
    let r := byteAt l 10
    let s := { s with wfn := { s.wfn with lsas := cset [] s.wfn.lsas i l } }
    let s := if old = [] ∨ (old.drop 0x14).take 6 ≠ (l.drop 0x14).take 6 ∨ byteAt old 11 ≠ byteAt l 11 then
      s.setRegion r { s.region r with changedAt := s.now } else s
    let f := putAt b 1 [BitVec.ofNat 8 (pkTtl b - 1)]
    ((List.range 24).filter (fun k => k != p && s.portState k == 3 && s.portDir k != 6)).foldl (fun s k =>
      let (x, s) := newPkt f 0 7 none s
      enqueue k x s) s

/-- LSA_RECEIVE: dropped for another field; an older epoch is discarded, a newer one adopted (R379, R380). -/
def execLsaReceive (p : Fin 24) (s : State) : Out :=
  .next <| receivePacket p 2 s fun _ b s =>
    let l := pkBody b
    let r := byteAt l 10
    let e := getLE l 0x0C 4
    if !s.planned || (l.drop 0x20).take 8 != (s.wfn.plan.drop 0x10).take 8 || decide (s.regionCount ≤ r)
        || decide (e < (s.region r).epoch) then s
    else
      let newer := decide ((s.region r).epoch < e)
      let s := if newer then unsettle r e s else s
      let s := if newer && r == s.here.2.2 then floodOwn s else s
      keepLsa p b l s

/-- Whether the LSAs held report a bundle in a direction at both of its ends. -/
def State.linkUp (s : State) (i dir : Nat) : Bool :=
  let j := linearOf s.dims (stepDir s.dims (coordOf s.dims i) dir)
  decide (0 < lsaBundle (s.lsa i) dir) && decide (0 < lsaBundle (s.lsa j) (opposite dir))

/-- Packages one hop from a package over the bundles of the LSAs; `both` asks both ends to report the bundle. -/
def State.neighbours (s : State) (both : Bool) (i : Nat) : List Nat :=
  ((List.range 6).filter (fun dir => if both then s.linkUp i dir else decide (0 < lsaBundle (s.lsa i) dir))).map
    (fun dir => linearOf s.dims (stepDir s.dims (coordOf s.dims i) dir))

/-- A breadth-first search from `front`: each package found, with its distance plus one. -/
def bfs (next : Nat → List Nat) : Nat → Nat → List Nat → List (Nat × Nat) → List (Nat × Nat)
  | 0, _, _, seen => seen
  | n + 1, dist, front, seen =>
    let new := ((front.map next).flatten.eraseDups).filter (fun j => cget 0 seen j == 0)
    if new = [] then seen
    else bfs next n (dist + 1) new (new.foldl (fun m j => cset 0 m j (dist + 1)) seen)

/-- Distances plus one of the packages reachable from package `i`. -/
def State.reachFrom (s : State) (both : Bool) (i : Nat) : List (Nat × Nat) :=
  bfs (s.neighbours both) (fieldSize s.dims) 1 [i] (cset 0 [] i 1)

/-- REGION_SETTLE: the search of a region completes (R381). -/
def execRegionSettle (r : BitVec 8) (s : State) : Out :=
  .next <|
    let x := s.region r.toNat
    let own := (s.reachFrom false s.hereIx).filter (fun p => (coordOf s.dims p.1).2.2 == r.toNat)
    if s.regionCount ≤ r.toNat ∨ x.stable = true ∨ s.now < x.changedAt + max 20 (s.rfld ZG_TOP_CTRL 31 16) * 1000
        ∨ own.any (fun p => getLE (s.lsa p.1) 0x0C 4 != x.epoch || s.lsa p.1 == []) = true then s
    else refreshDisc (s.setRegion r.toNat { x with stable := true })

/-! ### Plans (R381 to R385, R390, R394) -/

/-- The dimension-ordered path from package `c` to package `t`, as the directions of its hops (R382). -/
def dorPath (d : Coord) : Nat → Coord → Coord → List Nat
  | 0, _, _ => []
  | n + 1, c, t =>
    let toward := fun (a b size plus : Nat) =>
      let up := (b + size - a) % size
      if up ≤ size - up then plus else plus + 1
    let dir := if c.1 ≠ t.1 then toward c.1 t.1 d.1 0 else if c.2.1 ≠ t.2.1 then toward c.2.1 t.2.1 d.2.1 2
      else toward c.2.2 t.2.2 d.2.2 4
    if c = t then [] else dir :: dorPath d n (stepDir d c dir) t

/-- Whether every hop of a path is over a bundle in service. -/
def State.pathUp (s : State) : Nat → List Nat → Bool
  | _, [] => true
  | i, dir :: rest => s.linkUp i dir && s.pathUp (linearOf s.dims (stepDir s.dims (coordOf s.dims i) dir)) rest

/-- The root of the escape tree and the time reference of this field: package (0, 0, 0), or the reachable package with the
lowest linear index (R382, R390). -/
def rootOf (reach : List (Nat × Nat)) : Nat := (reach.head?.map Prod.fst).getD 0

/-- Whether a hop from `i` to `j` is an up hop by depths plus one (R382). -/
def isUpHop (depths : List (Nat × Nat)) (i j : Nat) : Bool :=
  decide (cget 0 depths j < cget 0 depths i) || (cget 0 depths i == cget 0 depths j && decide (j < i))

/-- Steps backward along escape paths from node `2 × package + DOWN`: the nodes from which one hop leads to it. -/
def escapeBack (s : State) (depths : List (Nat × Nat)) (n : Nat) : List Nat :=
  let j := n / 2
  ((s.neighbours true j).map (fun i =>
    if isUpHop depths i j then (if n % 2 = 0 then [2 * i] else [])
    else (if n % 2 = 1 then [2 * i, 2 * i + 1] else []))).flatten

/-- Distances plus one along escape paths to package `t`, by node. -/
def escapeDist (s : State) (depths : List (Nat × Nat)) (t : Nat) : List (Nat × Nat) :=
  bfs (escapeBack s depths) (2 * fieldSize s.dims) 1 [2 * t, 2 * t + 1] (cset 0 (cset 0 [] (2 * t) 1) (2 * t + 1) 1)

/-- The next direction of a shortest escape path from this package with a value of DOWN, the lowest direction among equals;
7 where there is none. -/
def escapeDir (s : State) (depths dist : List (Nat × Nat)) (down : Bool) : Nat :=
  let h := s.hereIx
  let want := cget 0 dist (2 * h + b2n down)
  ((List.range 6).find? (fun dir =>
    let j := linearOf s.dims (stepDir s.dims s.here dir)
    let up := isUpHop depths h j
    decide (2 ≤ want) && s.linkUp h dir && !(down && up) && cget 0 dist (2 * j + b2n (!up)) + 1 == want)).getD 7

/-- The route-table entry of package `t` (R383). -/
def routeOf (s : State) (reach depths : List (Nat × Nat)) (t : Nat) : Nat :=
  if t = s.hereIx then 2 ^ 31 + 7 * 2 ^ 27 + 7 * 2 ^ 24 + 7 * 2 ^ 21
  else if cget 0 reach t = 0 then 0
  else
    let path := dorPath s.dims (fieldSize s.dims) s.here (coordOf s.dims t)
    let dist := escapeDist s depths t
    2 ^ 31 + b2n (!s.pathUp s.hereIx path) * 2 ^ 30 + path.headD 7 * 2 ^ 27 + escapeDir s depths dist false * 2 ^ 24
      + escapeDir s depths dist true * 2 ^ 21

/-- TWIN_VIA: the nearest other package whose LSA shows its twin port UP, ties to the lowest linear index (R394). -/
def viaOf (s : State) (reach : List (Nat × Nat)) : Option Nat :=
  if byteAt s.wfn.plan 5 = 0 then none
  else
    let l := reach.filter (fun p => p.1 != s.hereIx && bitOf (byteAt (s.lsa p.1) 11) 1)
    (l.foldl (fun (m : Option (Nat × Nat)) p => match m with
      | some x => if p.2 < x.2 then some p else m
      | none => some p) none).map Prod.fst

/-- Epochs of all regions. -/
def State.epochs (s : State) : List Nat := (List.range s.regionCount).map (fun r => (s.region r).epoch)

/-- Betony forms a plan: PLAN_EPOCH, and the route table it is to write (R381, R383). -/
def formPlan (s : State) : State :=
  let reach := s.reachFrom true s.hereIx
  let depths := s.reachFrom true (rootOf reach)
  let n := fieldSize s.dims
  let entries := (List.range n).map (routeOf s reach depths)
  let ds := (List.range n).map (cget 0 depths)
  let s := s.setRfld ZG_TOP_DISC 63 32 (s.rfld ZG_TOP_DISC 63 32 + 1)
  { s with wfn := { s.wfn with forming := some (s.epochs, entries, ds, viaOf s reach) } }

/-- The active entries of a bank as a list. -/
def State.tableOf (s : State) (bank : Nat) : List Nat := (List.range (fieldSize s.dims)).map (s.routeEntry bank)

/-- The time parent of this package: the port to it, none for the reference or without one (R390). -/
def State.timeParent (s : State) : Option Nat :=
  let active := (s.bank routeTable).active
  let root := ((List.range (fieldSize s.dims)).find? s.reachable).getD 0
  if !s.planned then none
  else if root = s.hereIx then (if s.field = 1 then (s.bundle 6).head? else none)
  else (s.bundle (bitsOf (s.routeEntry active root) 29 27)).head?

/-- Whether this package is the reference of R390. -/
def State.isReference (s : State) : Bool :=
  s.planned && s.wfn.formed.isSome && s.field == 0
    && ((List.range (fieldSize s.dims)).find? s.reachable).getD 0 == s.hereIx

/-- ZG_TOP_TIME follows the parent; the reference has DEPTH 0 and is aligned to itself (R390, R392). -/
def refreshParent (s : State) : State :=
  let s := s.setRfld ZG_TOP_TIME 63 59 (s.timeParent.getD 31)
  if s.isReference then (s.setRfld ZG_TOP_TIME 58 51 0).setRfld ZG_TIME_STATUS 1 1 1 else s

/-- The flip of a new route table (R174, R381, R385): held packets bind again, identities of sources without a route go,
collectives resend toward destinations whose entries changed, event 0x09.0x06. -/
def flipRoutes (s : State) : State :=
  let old := s.tableOf (s.bank routeTable).active
  let s := s.setBank routeTable { (s.bank routeTable).flip false with writeWait := false }
  let new := s.tableOf (s.bank routeTable).active
  let s := { s with wfn := { s.wfn with seen := s.wfn.seen.filter (fun p =>
    let k := p.1 / 4
    let c : Coord := (k / 65536 % 256, k / 256 % 256, k % 256)
    k / 16777216 != s.field || s.reachable (linearOf s.dims c)) } }
  let s := bump ZG_TOP_PLANS 1 s
  let s := refreshParent (refreshTwin (refreshDisc s))
  let s := wefinEvent 6 4 31 (s.rfld ZG_TOP_DISC 63 32 + s.rfld ZG_TOP_DISC 20 10 * 4294967296) false s
  let held := s.wfn.held
  let s := held.foldl (fun s o => rerouteHeld o s) { s with wfn := { s.wfn with held := [] } }
  routeChanged (fun _ e =>
    let i := linearOf s.dims (entryCoord e)
    decide (i ≠ s.hereIx) && old.getD i 0 != new.getD i 0) s

/-- A formed plan is discarded when a region changed, else written into the shadow bank once no packet reads that, and
flipped unless it equals the active table (R173, R381). -/
def finishPlan (s : State) : State :=
  match s.wfn.forming with
  | none => s
  | some (epochs, entries, ds, via) =>
    let b := s.bank routeTable
    if epochs ≠ s.epochs then bump ZG_TOP_DISCARDS 1 { s with wfn := { s.wfn with forming := none } }
    else if entries = s.tableOf b.active ∧ via = s.twinVia b.active then
      refreshParent { s with wfn := { s.wfn with forming := none, formed := some epochs } }
    else if b.writeBlocked then s.setBank routeTable { b with writeWait := true }
    else
      let k := b.shadow
      let put := fun (m : List (Nat × Nat)) (l : List Nat) => csetList 0 (cclear m (k * 1024) (k * 1024 + 1024)) (k * 1024) l
      flipRoutes { s with wfn := { s.wfn with
        routes := put s.wfn.routes entries, depths := put s.wfn.depths ds,
        via := cset 0 s.wfn.via k (match via with | some v => v + 1 | none => 0),
        forming := none, formed := some epochs } }

/-- PLAN_FORM: every region STABLE, Betony computes the route table, checks the epochs and flips it (R381). -/
def execPlanForm (s : State) : Out :=
  .next <|
    if !s.planned || s.betony != 1 then s
    else if s.wfn.forming.isSome then finishPlan s
    else if (List.range s.regionCount).any (fun r => !(s.region r).stable) || s.wfn.formed == some s.epochs then s
    else finishPlan (formPlan s)

/-- ZG_TOP_PLAN of a plan. -/
def planReg (p : List Byte) : Nat :=
  if p = [] then 0
  else 2 ^ 63 + byteAt p 5 % 2 * 2 ^ 62 + byteAt p 6 % 2 * 2 ^ 61 + byteAt p 1 * 2 ^ 57 + byteAt p 2 * 2 ^ 40
    + byteAt p 3 * 2 ^ 32 + byteAt p 4 * 2 ^ 24 + byteAt p 7 * 65536 + byteAt p 8 * 256 + byteAt p 9

/-- A plan takes effect: directions of the ports, discovery from the start where the field or the place in it changed, and
every port that is not OFF verifies again by its last HELLO (R375; log entry 28). -/
def adoptPlan (p : List Byte) (s : State) : State :=
  let old := s.wfn.plan
  let same := old != [] && old.take 10 == p.take 10
  let s := { s with wfn := { s.wfn with plan := p } }
  let s := s.setRegN ZG_TOP_PLAN (planReg p)
  let s := (List.range 24).foldl (fun s k => s.setRfld (portReg k) 56 54
    (dirOfPort (byteAt p 1) k)) s
  let s := if same then s
    else
      let s := { s with wfn := { s.wfn with
        lsas := [], formed := none, forming := none,
        regions := (List.range s.regionCount).foldl (fun m r => cset {} m r (Region.mk 0 false s.now)) [] } }
      refreshTwin (refreshDisc s)
  let s := ((List.range 24).filter (fun k => (s.portState k == 2 || s.portState k == 3) && (s.port k).hello != [])).foldl
    (fun s k => verifyPort k s) s
  floodOwn s

/-! ### Control packets (R386 to R388) -/

/-- Partitions with a tenant identity. -/
def State.tenantParts (s : State) (t : Nat) : List Nat := s.partsNow.filter (fun p => (s.part p).tenant == t)

/-- Set or clear QUIESCE of a function (R386). -/
def setQuiesce (f : Nat) (on : Bool) (s : State) : State :=
  refreshQuiesced f (s.setRegF f ZG_ADM_CFG (setFld (s.regF f ZG_ADM_CFG) 30 30 (b2n on)))

/-- STOP_PARTITION: PARTITION_STOP with ABORT on every partition of a tenant. -/
def ctrlStop (t : Nat) (s : State) : State := (s.tenantParts t).foldl (fun s p => stopPartition p true none s) s

/-- QUIESCE or RESUME on every partition of a tenant. -/
def ctrlQuiesce (t : Nat) (on : Bool) (s : State) : State := (s.tenantParts t).foldl (fun s p => setQuiesce (p + 1) on s) s

/-- A control command at its destination: the partitions acted on, and the state (R386). -/
def controlAct (cmd t : Nat) (s : State) : Nat × State :=
  if cmd = 1 then ((s.tenantParts t).length, ctrlStop t s)
  else if cmd = 2 then ((s.tenantParts t).length, ctrlQuiesce t true s)
  else if cmd = 3 then ((s.tenantParts t).length, ctrlQuiesce t false s)
  else (0, s)

/-- CTRL_STOP_PARTITION (R386). -/
def execCtrlStopPartition (tenant : BitVec 16) (s : State) : Out := .next (ctrlStop tenant.toNat s)

/-- CTRL_QUIESCE (R386). -/
def execCtrlQuiesce (tenant : BitVec 16) (s : State) : Out := .next (ctrlQuiesce tenant.toNat true s)

/-- CTRL_RESUME (R386). -/
def execCtrlResume (tenant : BitVec 16) (s : State) : Out := .next (ctrlQuiesce tenant.toNat false s)

/-- A CONTROL body. -/
def controlBody (cmd applied tenant req : Nat) : List Byte :=
  natLE 1 cmd ++ natLE 1 (min applied 255) ++ natLE 2 tenant ++ natLE 4 req ++ zeros 8

/-- CONTROL_RECEIVE: a CONTROL packet acts on the partitions of its tenant and is answered (R386). -/
def execControlReceive (p : Fin 24) (s : State) : Out :=
  .next <|
    match takeArrived p (fun b => pkType b == 3 && s.forHere b && byteAt (pkBody b) 0 != 4) s with
    | none => s
    | some (a, s) => receiveChecks a s fun b s =>
      let x := pkBody b
      let cmd := byteAt x 0
      if cmd = 0 ∨ 4 < cmd then s
      else
        let (n, s) := controlAct cmd (getLE x 2 2) s
        match inject { ptype := 3, dest := pkSrc b, dfield := pkSField b, ddie := pkSDie b, sdie := 0, tenant := 0,
                       body := controlBody 4 n (getLE x 2 2) (getLE x 4 4) } none s with
        | .sent _ s => s
        | .unreachable s => s
        | _ => s

/-- A WEFIN_CONTROL ends (R388). -/
def endControl (c : ControlRun) (status : Nat) (s : State) : State :=
  let s := { s with wfn := { s.wfn with controls := s.wfn.controls.filter (fun x => !(x.queue == c.queue && x.seq == c.seq)) } }
  endCommand c.queue c.seq status (min c.answered 65535) s

/-- CONTROL_ANSWER_RECEIVE: an ANSWER counts toward its command (R388). -/
def execControlAnswerReceive (p : Fin 24) (s : State) : Out :=
  .next <|
    match takeArrived p (fun b => pkType b == 3 && s.forHere b && byteAt (pkBody b) 0 == 4) s with
    | none => s
    | some (a, s) => receiveChecks a s fun b s =>
      let k := (packageKey (pkSField b) (pkSrc b), getLE (pkBody b) 4 4)
      match s.wfn.controls.find? (fun c => c.waiting.contains k) with
      | none => s
      | some c =>
        let c := { c with waiting := c.waiting.erase k, answered := c.answered + 1 }
        if c.waiting = [] then endControl c 0 s
        else { s with wfn := { s.wfn with controls := s.wfn.controls.map (fun x =>
          if x.queue = c.queue ∧ x.seq = c.seq then c else x) } }

/-- The status of a command on another admin queue than that of the physical function (R387). -/
def pfOnly (q : Nat) : Nat := failIf (q != 65536) 3

/-- WEFIN_CONTROL body (R387, R388). -/
def checkWefinControl (b : List Byte) : Nat :=
  failIf (byteAt b 0 == 0 || decide (3 < byteAt b 0) || decide (2 ≤ byteAt b 1) || !zeroAt b 5 1 || getLE b 6 2 == 0
    || !zeroAt b 12 4) 1

/-- A request to one package: it waits for the answer, or the package is unreachable (R386). -/
def sendControl (cmd tenant : Nat) (dest : Coord) (c : ControlRun) (s : State) : Option ControlRun × State :=
  let t : PktTo := { ptype := 3, dest := dest, dfield := s.field, ddie := 0, sdie := 0, tenant := 0, body := [] }
  let req := (nextId t s).1
  match inject { t with body := controlBody cmd 0 tenant req } none s with
  | .sent _ s => (some { c with waiting := c.waiting ++ [(packageKey s.field dest, req)] }, s)
  | .unreachable s => (none, s)
  | _ => (none, s)

/-- A WEFIN_CONTROL waits for its answers (R388). -/
def waitControl (c : ControlRun) (s : State) : State := { s with wfn := { s.wfn with controls := s.wfn.controls ++ [c] } }

/-- WEFIN_CONTROL: a control command to one package or to every reachable package of the field (R388). -/
def execWefinControl (q : Qn) (seq : Word64) (s : State) : Out :=
  .next <| withAdmin q seq.toNat 0xC0 s fun f =>
    let b := dBody f.desc
    let bad := firstFail [pfOnly q, checkWefinControl b]
    let cmd := byteAt b 0
    let tenant := getLE b 6 2
    let dest : Coord := (byteAt b 2, byteAt b 3, byteAt b 4)
    let c : ControlRun := { queue := q, seq := seq.toNat, waiting := [], answered := 0, all := bitOf (byteAt b 1) 0,
                            timeoutUs := (if getLE b 8 4 = 0 then 10000 else getLE b 8 4), since := s.now }
    if f.phase ≠ 0 then s
    else if bad ≠ 0 then endCommand q seq.toNat bad 0 s
    else if !s.planned || s.wfn.formed.isNone then endCommand q seq.toNat 0x0301 0 s
    else if c.all then
      let ds := ((List.range (fieldSize s.dims)).filter (fun i => s.reachable i && i != s.hereIx)).map (coordOf s.dims)
      let (c, s) := ds.foldl (fun (r : ControlRun × State) d =>
        match sendControl cmd tenant d r.1 r.2 with
        | (some c, s) => (c, s)
        | (none, s) => (r.1, s)) ({ c with answered := 1 }, s)
      let s := (controlAct cmd tenant s).2
      if c.waiting = [] then endCommand q seq.toNat 0 c.answered s
      else waitControl c (s.updFlight q seq.toNat (fun g => { g with phase := 1 }))
    else if dest = s.here then endCommand q seq.toNat 0 1 (controlAct cmd tenant s).2
    else match sendControl cmd tenant dest c s with
      | (none, s) => endCommand q seq.toNat 0x0040 0 s
      | (some c, s) =>
        waitControl c (s.updFlight q seq.toNat (fun g => { g with phase := 1 }))

/-- WEFIN_CONTROL_TIMEOUT: TIMEOUT_US elapses (R388). -/
def execWefinControlTimeout (q : Qn) (seq : Word64) (s : State) : Out :=
  .next <|
    match s.wfn.controls.find? (fun c => c.queue == q.val && c.seq == seq.toNat) with
    | none => s
    | some c => if c.since + c.timeoutUs * 1000 ≤ s.now then endControl c (if c.all then 0 else 6) s else s

/-! ### WEFIN_PORT (R389) -/

/-- A WEFIN_PORT command with an ACTION: its checks, the port's states it applies to, and `go` on the port. -/
def withPort (q seq action : Nat) (states : List Nat) (s : State) (go : Nat → State → State) : State :=
  withAdmin q seq 0xC1 s fun f =>
    let b := dBody f.desc
    let p := byteAt b 0
    let bad := firstFail [pfOnly q, failIf (decide (24 ≤ p) || decide (4 ≤ byteAt b 1) || !zeroAt b 2 14) 1,
      failIf (!states.contains (s.portState p)) 9]
    if (byteAt b 1 % 4 ≠ action ∧ byteAt b 1 < 4) ∨ f.phase ≠ 0 then s
    else if bad ≠ 0 then endCommand q seq bad 0 s
    else go p s

/-- PORT_ENABLE: training starts on a port that is OFF or FAILED. -/
def execPortEnable (q : Qn) (seq : Word64) (s : State) : Out :=
  .next <| withPort q seq.toNat 0 [0, 6] s fun p s =>
    endCommand q seq.toNat 0 0 ((s.setRfld (portReg p) 63 61 1).setPort p {})

/-- PORT_QUIESCE: the port leaves its bundle, its packets not begun go elsewhere, and it waits for its flits to be
acknowledged. -/
def execPortQuiesce (q : Qn) (seq : Word64) (s : State) : Out :=
  .next <| withPort q seq.toNat 1 [3] s fun p s =>
    let s := leaveTo p 4 (s.updFlight q seq.toNat (fun g => { g with phase := 1 }))
    let x := s.port p
    let waiting := x.out.filter (fun o => o.sent == 0)
    let s := s.setPort p { x with out := x.out.filter (fun o => o.sent != 0), cmd := some (q.val, seq.toNat) }
    finishQuiesce p ((waiting.filter (fun o => o.dir != 7)).foldl (fun s o => sendBundle (p / 6) none o s) s)

/-- PORT_DISABLE: the port is OFF at once, with the resends of R362. -/
def execPortDisable (q : Qn) (seq : Word64) (s : State) : Out :=
  .next <| withPort q seq.toNat 2 [1, 2, 3, 4, 5, 6] s fun p s =>
    endCommand q seq.toNat 0 0 (endPortCmd p 0 (leaveTo p 0 s))

/-- PORT_FORCE_RETRAIN: the RETRAIN action forces R362. -/
def execPortForceRetrain (q : Qn) (seq : Word64) (s : State) : Out :=
  .next <| withPort q seq.toNat 3 [2, 3] s fun p s => endCommand q seq.toNat 0 0 (enterRetrain p s)

end Sys2Proof.Machine
end

