-- ==== Sys2Proof/Machine/Integrity.lean ====
section
/-! DEFINITION. Integrity commands: the Campion engine, the twin table, self-tests, fault injection
(16_integrity_determinism.md R466 to R495). -/
namespace Sys2Proof.Machine

/-! ### The Campion engine (R473 to R483) -/

/-- Whether an opcode runs on the Campion engine (R479). -/
def isCampion (opc : Nat) : Bool := opc == 0x78 || opc == 0x79 || opc == 0x7B

/-- The engine of a die takes the commands one at a time in the order of their dispatch (R479). -/
def campionTurn (d order : Nat) (s : State) : Bool :=
  s.host.queues.all (fun p => isAdmin p.1 || p.2.die != d || p.2.flights.all (fun g =>
    g.ended.isSome || g.heldEnd.isSome || !isCampion (dOpc g.desc) || decide (order ≤ g.order)))

/-- CHK_SCAN body (R474, R475). -/
def checkScan (b : List Byte) : Nat :=
  let poly := byteAt b 0 % 4
  failIf (decide (16 ≤ byteAt b 0) || poly == 3 || !zeroAt b 1 7 || decide (2 ^ 40 < getLE b 0x10 8)
    || (poly != 2 && getLE b 0x1C 4 != 0) || getLE b 0x28 8 % 32 != 0) 1

/-- A check record (R476). -/
def scanRecord (result alive len poly die : Nat) (unwritten mismatch : Bool) : List Byte :=
  withCheck (natLE 8 result ++ natLE 8 alive ++ natLE 8 len ++ natLE 1 poly ++ natLE 1 die
    ++ natLE 1 (b2n unwritten + 2 * b2n mismatch) ++ zeros 3)

/-- ALIVE of the next check record of a die: start-ups, and records written since that start-up (R476). -/
def nextAlive (d : Nat) (s : State) : Nat :=
  s.store.startups % 65536 * 2 ^ 48 + (s.integ.alive.getD d 0 + 1) % 2 ^ 48

/-- A check record is written, and ZG_INT_ALIVE follows (R476). -/
def writeScanRecord (rq : Req) (va : Nat) (rec_ : List Byte) (s : State) : Acc Unit :=
  if va = 0 then .ok () s
  else (vaWrite rq va rec_ s).bind fun _ s =>
    let a := nextAlive rq.die s
    let s := { s with integ := { s.integ with alive := s.integ.alive.set rq.die (s.integ.alive.getD rq.die 0 + 1) } }
    .ok () (s.setRegN (ZG_INT_ALIVE rq.die) a)

/-- A command ends in a check mismatch: counted, with its event, and an audit record in audit mode (R475, R478, R488). -/
def checkMismatch (q seq d code data detail : Nat) (s : State) : State :=
  let s := intEvent d code q (s.queuePart q) data 0 (bump (ZG_INT_MISMATCH d) 1 s)
  let s := auditEvent { cls := 0x0C, code := code, src := d, queue := q, part := s.queuePart q, data := data } s
  endCommand q seq 0x0602 detail s

/-- CHK_SCAN computes a check value, continues one, compares it, and writes its record (R475, R476). -/
def execChkScan (q : Qn) (seq : Word64) (s : State) : Out :=
  .next <| withFlight q seq.toNat 0x78 s fun f =>
    let b := dBody f.desc
    let d := (s.queue q).die
    let rq := s.req q f 5
    let poly := byteAt b 0 % 4
    let len := getLE b 0x10 8
    if campionTurn d f.order s = false then s
    else if checkScan b ≠ 0 then endCommand q seq.toNat (checkScan b) 0 s
    else finishAcc q seq.toNat rq s (vaRead rq (getLE b 8 8) len s) fun bs s1 =>
      let r := codeFrom poly (if bitOf (byteAt b 0) 2 then getLE b 0x18 8 else 0) bs
      let miss := bitOf (byteAt b 0) 3 && r != getLE b 0x20 8
      let unw := ((s1.flight q seq.toNat).map (·.unwritten)).getD false
      let rec_ := scanRecord r (nextAlive d s1) len poly d unw miss
      finishAcc q seq.toNat rq s (writeScanRecord rq (getLE b 0x28 8) rec_ s1) fun _ s2 =>
        let s2 := bump (ZG_INT_SCANS d) 1 s2
        if miss then checkMismatch q seq.toNat d 1 (q % 65536 + d * 65536) 0 s2 else endCommand q seq.toNat 0 0 s2

/-- Index of the first 16-byte unit in which two strings differ. -/
def firstDiff (xs ys : List Byte) : Nat := ((List.zip xs ys).takeWhile (fun p => p.1 == p.2)).length / 16

/-- CHK_COMPARE body (R478). -/
def checkCompare (b : List Byte) : Nat :=
  let n := getLE b 0x10 8
  failIf (n % 16 != 0 || n == 0 || decide (2 ^ 40 < n) || !zeroAt b 0x18 8) 1

/-- CHK_COMPARE reads two ranges and succeeds when they are equal (R478). -/
def execChkCompare (q : Qn) (seq : Word64) (s : State) : Out :=
  .next <| withFlight q seq.toNat 0x79 s fun f =>
    let b := dBody f.desc
    let d := (s.queue q).die
    let rq := s.req q f 5
    let n := getLE b 0x10 8
    if campionTurn d f.order s = false then s
    else if checkCompare b ≠ 0 then endCommand q seq.toNat (checkCompare b) 0 s
    else finishAcc q seq.toNat rq s
        ((vaRead rq (getLE b 0 8) n s).bind fun x s => (vaRead rq (getLE b 8 8) n s).bind fun y s => .ok (x, y) s)
        fun xy s1 =>
      if xy.1 = xy.2 then endCommand q seq.toNat 0 0 s1
      else
        let k := min (firstDiff xy.1 xy.2) 65535
        checkMismatch q seq.toNat d 2 (q % 65536 + k * 65536) k s1

/-- PROVENANCE body (R480). -/
def checkProvenance (b : List Byte) : Nat :=
  let n := getLE b 2 2
  failIf (decide (2 ≤ byteAt b 0) || byteAt b 1 != 0 || n == 0 || decide (64 < n) || !zeroAt b 4 4 || getLE b 8 8 % 16 != 0
    || getLE b 0x10 8 % 64 != 0 || getLE b 0x18 8 % 64 != 0 || !zeroAt b 0x20 16) 1

/-- The ranges of a PROVENANCE: a length over 2^40 is none that R480 allows. -/
def provRanges (n : Nat) (bs : List Byte) : List (Nat × Nat) :=
  (List.range n).map (fun i => (getLE bs (16 * i) 8, getLE bs (16 * i + 8) 8))

/-- PREV and PSEQ of a partition's chain (R481). -/
def State.chain (s : State) (p : Nat) : List Byte × Nat :=
  let x := cget ([], 0) s.integ.chains p
  (if x.1 = [] then zeros 48 else x.1, x.2)

/-- The record of a chain step (R482). -/
def provRecord (data digest : List Byte) (pseq now tenant part : Nat) (logged unwritten : Bool) : List Byte :=
  withCheck (data ++ digest ++ natLE 8 pseq ++ natLE 8 now ++ natLE 2 tenant ++ natLE 1 part
    ++ natLE 1 (b2n logged + 2 * b2n unwritten) ++ zeros 10)

/-- The bytes D_DATA is formed over: the context, then each range's length and bytes (R481). -/
def provData (rq : Req) (b : List Byte) (s : State) : Acc (Option (List Byte)) :=
  let n := getLE b 2 2
  (vaRead rq (getLE b 8 8) (16 * n) s).bind fun rs s =>
    let ranges := provRanges n rs
    if ranges.any (fun r => decide (2 ^ 40 < r.2)) then .ok none s
    else (vaRead rq (getLE b 0x10 8) 64 s).bind fun ctx s =>
      (Acc.mapM (fun (r : Nat × Nat) s => (vaRead rq r.1 r.2 s).bind fun bs s => .ok (natLE 8 r.2 ++ bs) s) ranges s).bind
        fun parts s => .ok (some (ctx ++ parts.flatten)) s

/-- The chain step of the hub, and the record: the audit log first where the step is logged, and a refusal there changes
nothing (R481 to R483, R488). -/
def provStep (q seq : Nat) (rq : Req) (s0 : State) (b data : List Byte) (unw : Bool) (s : State) : State :=
  let p := rq.part
  let dData := sha384 data
  let (prev, n) := s.chain p
  let pseq := (n + 1) % two64
  let digest := sha384 (prev ++ natLE 8 pseq ++ dData)
  let logged := bitOf (byteAt b 0) 0 || (s.part p).audit
  let (ok, s) := if logged then
      auditAppend false { kind := 2, path := 3, part := some p, tenant := (s.part p).tenant, aux := pseq, subject := digest } s
    else (true, s)
  if !ok then endCommand q seq 0x0606 0 s
  else
    let now := s.now
    let s := { s with integ := { s.integ with chains := cset ([], 0) s.integ.chains p (digest, pseq) } }
    let rec_ := provRecord dData digest pseq now (s.part p).tenant p logged unw
    finishAcc q seq rq s0 (vaWrite rq (getLE b 0x18 8) rec_ s) fun _ s => endCommand q seq 0 0 (bump (ZG_INT_PROV rq.die) 1 s)

/-- PROVENANCE forms D_DATA and takes one step of the partition's chain (R481). -/
def execProvenance (q : Qn) (seq : Word64) (s : State) : Out :=
  .next <| withFlight q seq.toNat 0x7B s fun f =>
    let b := dBody f.desc
    let rq := s.req q f 5
    if campionTurn (s.queue q).die f.order s = false then s
    else if checkProvenance b ≠ 0 then endCommand q seq.toNat (checkProvenance b) 0 s
    else finishAcc q seq.toNat rq s (provData rq b s) fun data s1 =>
      match data with
      | none => endCommand q seq.toNat 1 0 s1
      | some data => provStep q seq.toNat rq s b data (((s1.flight q seq.toNat).map (·.unwritten)).getD false) s1

/-! ### Mirrored pairs (R489 to R492) -/

/-- TWIN_DIGEST body, but for TAG (R489). -/
def checkTwinDigest (b : List Byte) : Nat :=
  failIf (getLE b 0 4 == 0 || decide (8 ≤ byteAt b 4) || byteAt b 4 == 0 || byteAt b 4 == 7 || !zeroAt b 5 3
    || getLE b 0x10 8 % 8 != 0 || !zeroAt b 0x1C 4) 1

/-- A digest as the table holds it: its length, then 48 bytes. -/
def tableDigest (bs : List Byte) : List Byte := natLE 1 bs.length ++ (bs ++ zeros 48).take 48

/-- DIGEST body (R489). -/
def digestBody (tag interval : Nat) (digest : List Byte) : List Byte :=
  zeros 1 ++ digest.take 1 ++ zeros 2 ++ natLE 4 tag ++ natLE 8 interval ++ digest.drop 1

/-- Entry with a key. -/
def State.twin (s : State) (tenant tag interval : Nat) : Option TwinEntry :=
  s.integ.twins.find? (fun e => e.hasKey tenant tag interval)

/-- Put an entry in the table in place of the one with its key. -/
def putTwin (e : TwinEntry) (s : State) : State :=
  s.setTwins (s.integ.twins.filter (fun x => !x.hasKey e.tenant e.tag e.interval) ++ [e])

/-- The digest of a TWIN_DIGEST is entered and sent; an entry that then holds both gives its verdict (R490). -/
def enterTwin (q seq : Nat) (b digest : List Byte) (s : State) : State :=
  let tenant := s.queueTenant q
  let tag := getLE b 0 4
  let interval := getLE b 8 8
  let ms := getLE b 0x18 4
  let old := (s.twin tenant tag interval).getD { tenant := tenant, tag := tag, interval := interval }
  let e := { old with own := some { queue := q, seq := seq, digest := digest, since := s.now,
                                    limit := (if ms = 0 then 10000 else ms) * 1000000 } }
  let t : PktTo := { ptype := 7, dest := s.here, dfield := 1 - s.field, ddie := 0, sdie := (s.queue q).die, tenant := tenant,
                     body := digestBody tag interval digest }
  match inject t none s with
  | .noPlan => endCommand q seq 0x0301 0 s
  | .crossField => endCommand q seq 0x0302 0 s
  | .unreachable s => twinGone e true s
  | .sent _ s => settleTwin e ((putTwin e s).updFlight q seq (fun f => { f with phase := 1 }))

/-- TWIN_DIGEST enters a digest of this package and compares it with the twin's (R490). -/
def execTwinDigest (q : Qn) (seq : Word64) (s : State) : Out :=
  .next <| withFlight q seq.toNat 0x7A s fun f =>
    let b := dBody f.desc
    let rq := s.req q f 6
    let tag := getLE b 0 4
    let held := s.twin (s.queueTenant q) tag (getLE b 8 8)
    if f.phase ≠ 0 then s
    else if checkTwinDigest b ≠ 0 then endCommand q seq.toNat (checkTwinDigest b) 0 s
    else if !s.planned || byteAt s.wfn.plan 5 == 0 then endCommand q seq.toNat 9 0 s
    else if s.rfld ZG_TOP_TWIN 63 62 = 3 then
      twinGone { tenant := s.queueTenant q, tag := tag, interval := getLE b 8 8,
                 own := some { queue := q, seq := seq.toNat, digest := [], limit := 0, since := s.now } } true s
    else if held.any (·.own.isSome) then endCommand q seq.toNat 9 0 s
    else if held.isNone && decide (4096 ≤ s.integ.twins.length) then endCommand q seq.toNat 5 0 s
    else finishAcc q seq.toNat rq s (vaRead rq (getLE b 0x10 8) (8 * byteAt b 4) s) fun bs s1 =>
      enterTwin q seq.toNat b (tableDigest bs) s1

/-- A twin digest is dropped or discarded: event 0x0C.0x05 of the hub (R491). -/
def twinDropped (tenant kind tag : Nat) (s : State) : State :=
  raiseEvent (twinEvent 5 65535 none (tenant + kind * 65536 + tag * 4294967296)) (bump ZG_INTH_TW_DROP 1 s)

/-- An arriving digest is entered, discarded as a repeat, marks a conflict, or is dropped (R491). -/
def receiveDigest (tenant tag interval : Nat) (digest : List Byte) (s : State) : State :=
  if tag = 0 then twinDropped tenant 2 0 s
  else match s.twin tenant tag interval with
    | some e =>
      match e.twin with
      | some t => if t = digest then bump ZG_INTH_TW_DROP 1 s else putTwin { e with conflict := true } s
      | none => settleTwin { e with twin := some digest, twinAt := s.now } s
    | none =>
      if 4096 ≤ s.integ.twins.length then twinDropped tenant 0 tag s
      else putTwin { tenant := tenant, tag := tag, interval := interval, twin := some digest, twinAt := s.now,
                     hold := max 1 (s.rfld ZG_INTH_CTRL 31 16) * 100000000 } s

/-- A DIGEST packet arrives on a port; one whose MSG is not POST is dropped (R489, R491). -/
def execDigestReceive (p : Fin 24) (s : State) : Out :=
  .next <| receivePacket p 7 s fun _ b s =>
    let x := pkBody b
    if byteAt x 0 ≠ 0 then s
    else receiveDigest (pkTenant b) (getLE x 4 4) (getLE x 8 8) ((x.drop 1).take 1 ++ (x.drop 0x10).take 48) s

/-- TIMEOUT_MS passes without the twin's digest (R490). -/
def execTwinTimeout (q : Qn) (seq : Word64) (s : State) : Out :=
  .next <|
    match s.integ.twins.find? (fun e => e.own.any (fun o => o.queue == q.toNat && o.seq == seq.toNat && decide (o.since + o.limit ≤ s.now))) with
    | some e => twinGone e false s
    | none => s

/-- Twin digests held past HOLD without a local digest are discarded (R491). -/
def execTwinHoldExpire (s : State) : Out :=
  .next <|
    let old := fun (e : TwinEntry) => e.own.isNone && decide (e.twinAt + e.hold ≤ s.now)
    (s.integ.twins.filter old).foldl (fun s e => twinDropped e.tenant 1 e.tag s)
      (s.setTwins (s.integ.twins.filter (fun e => !old e)))

/-! ### Self-tests (R470 to R472) -/

/-- Whether a failing test fails the whole die (R471). -/
def dieLevel (test : Nat) : Bool := test == 2 || test == 3 || test == 8 || test == 9

/-- The arrays a self-test of a cluster found failing, S as 8 (R471). -/
def failedArrays (fails : List TestFail) (c : Nat) : List Nat :=
  (List.range 9).filter (fun a => fails.any (fun x => x.cl.val == c && x.arr.val == a && (x.test == 5 || x.test == 6)))

/-- What the failures of a cluster do to it: one visible array is replaced by S, a failing S is marked, and two failing
arrays or a failure of test 0x04, 0x06 or 0x07 degrade the cluster. At a start-up an array that a recorded substitution replaces
is no new failure, and S is not free (R118, R119, R471). DESIGN CHOICE (log entry 61): S begins with no transient
classification of its own. -/
def failCluster (d : Nat) (fails : List TestFail) (s : State) (c : Nat) : State :=
  let bad := failedArrays fails c
  let v := s.spareByte d c
  let s := if bad.contains 8 then
      classify 4 d c 8 0 0 65535 none (setSpareByte d c (putBits v 7 7 1) s)
    else s
  let taken := s.boot.health.filter (fun e => e.kind == 0 && e.die == d && e.index / 8 == c)
  let bad := if bitOf v 3 then bad else bad.filter (fun a => !taken.any (fun e => e.index % 8 == a))
  let free := taken == [] && !bitOf v 3 && !bitOf v 7 && s.rfld (ZG_MXE_CTRL d) 1 1 == 1
  let s := match bad with
    | [a] => if a < 8 && free then
        let s := addHealth ⟨0, d, c * 8 + a, 0⟩ (setSpareByte d c (putBits v 3 0 (8 + a)) s)
        s.setArray d c a { s.array d c a with trans := 0 }
      else s
    | _ => s
  let lost := decide (2 ≤ bad.length) || (bad.any (fun a => decide (a < 8)) && !free)
    || (bad.contains 8 && (bitOf v 3 || taken != [])) || fails.any (fun x => x.cl.val == c && (x.test == 4 || x.test == 6 || x.test == 7))
  if lost && !(s.clus d c).degraded then degrade d c s else s

/-- The failures of a self-test of a die: each is raised and written to the health record, and the clusters are dealt with
(R471). -/
def selfTestFailures (d : Nat) (fails : List TestFail) (s : State) : State :=
  let s := fails.foldl (fun s x =>
    let s := addHealth ⟨6, d, x.cl.val * 16 + x.arr.val, x.test.toNat⟩ s
    intEvent d 7 65535 none (d + x.test.toNat * 256) 2 s) s
  (List.range s.gradeClusters).foldl (fun s c => if fails.any (fun x => x.cl.val == c) then failCluster d fails s c else s) s

/-- START of ZG_INT_ST is written 1: the die is to enter reduced service at its next command boundary, with REASON 0x01
(R472). -/
def startSelfTest (d : Nat) (s : State) : State :=
  let runs := (s.rfld (ZG_INT_ST d) 15 0 + 1) % 65536
  let s := s.setRegN (ZG_INT_ST d) (2 ^ 31 + 2 ^ 28 + runs)
  if s.reduced d then s else requestService d 1 s

/-- START of ZG_INT_ST: 1 starts a self-test unless one runs; 0 has no effect (R472). -/
def testStart (d old new : Nat) (s : State) : State :=
  let s := s.setRegN (ZG_INT_ST d) old
  if bitOf new 31 && !bitOf old 31 then startSelfTest d s else s

/-- A write of ZG_INT_ST (R472). -/
def execSelftestStart (f : Func) (die : Die) (value : Word32) (s : State) : Out :=
  .next (guardedWrite f (ZG_INT_ST die) 4 value.toNat s (testStart die))

/-- The on-demand self-test ends: passed, or failed in the tests found; a die that fails at die level stays in reduced
service (R471, R472). -/
def execSelftestDone (die : Die) (fails : List TestFail) (s : State) : Out :=
  .next <|
    if s.rfld (ZG_INT_ST die) 30 28 ≠ 2 then s
    else
      let fails := fails.filter (fun x => decide (2 ≤ x.test.toNat) && decide (x.test.toNat ≤ 8))
      let first := match fails with
        | x :: _ => x.test.toNat
        | [] => 0
      let runs := s.rfld (ZG_INT_ST die) 15 0
      let s := s.setRegN (ZG_INT_ST die) ((if fails = [] then 3 else 4) * 2 ^ 28 + first * 65536 + runs)
      let s := if fails = [] then intEvent die 8 65535 none die 0 s else selfTestFailures die fails s
      if fails.any (fun x => dieLevel x.test.toNat) then s else switchService die false 0 s

/-- A write of ZG_INT_INJECT arms the injection of one residue error (R495). -/
def execInjectArm (f : Func) (die : Die) (value : Word32) (s : State) : Out :=
  .next <| guardedWrite f (ZG_INT_INJECT die) 4 value.toNat s fun _ _ s => s

end Sys2Proof.Machine
end

