-- ==== Sys2Proof/Machine/PowerOps.lean ====
section
/-! DEFINITION. Limits, actuators and energy accounts (17_power_thermal.md R497 to R517). -/
namespace Sys2Proof.Machine

/-! ### Events (R528, R529) -/

/-- An event of class 0x0D of a die or the hub, with ZG_PWR_LAST; the coolant stop is critical, the other alarms errors
(R519, R523, R528). -/
def pwrEvent (code src data : Nat) (s : State) : State :=
  let seq := (s.rfld ZG_PWR_LAST 49 36 + 1) % 16384
  let s := (s.setRegN ZG_PWR_LAST (seq * 2 ^ 36 + code * 2 ^ 32)).setRegN ZG_PWR_LAST_NS s.now
  raiseEvent { cls := 0x0D, code := code, src := src, data := data,
               alarm := if code = 5 then 3 else if code = 4 ∨ code = 7 ∨ code = 8 ∨ code = 10 then 2 else 0 } s

/-! ### The voltage table (R502) -/

/-- Entry of a voltage table for an index. -/
def VTable.entry (t : VTable) (k : Nat) : Nat := if k < 88 then 0 else t.entries.getD (k - 88) 0

/-- FLOOR_BPUS of an entry. -/
def vtFloor (e : Nat) : Nat := bitsOf e 55 40
/-- P_ARRAY of an entry, in mW. -/
def vtArray (e : Nat) : Nat := bitsOf e 23 12
/-- P_STATIC of an entry, in W. -/
def vtStatic (e : Nat) : Nat := bitsOf e 11 0

/-- The voltage table of a die. -/
def State.vtable (s : State) (d : Nat) : VTable := s.power.tables.getD d {}

/-- P_ARRAY of a die at the present index, in mW. -/
def State.pArray (s : State) (d : Nat) : Nat := vtArray ((s.vtable d).entry (s.pw d).k)

/-- The table in use of a die shows in ZG_PWD_VTHDR and ZG_PWD_VTENT. -/
def refreshTable (d : Nat) (s : State) : State :=
  let t := s.vtable d
  let s := s.setRegN (ZG_PWD_VTHDR d)
    (b2n (s.power.overriding.contains d) * 2 ^ 32 + t.nom * 2 ^ 24 + t.vmax * 65536 + t.vmin * 256 + 1)
  s.setRegN (ZG_PWD_VTENT d) (t.entry (s.rfld (ZG_PWD_VTSEL d) 7 0))

/-! ### Limits (R500, R504, R507) -/

/-- ZG_PWR_CFG and ZG_PWR_LIMITS follow the limits roles set. -/
def refreshLimits (s : State) : State :=
  let w := s.power
  let s := s.setRegN ZG_PWR_CFG
    (w.slope * 2 ^ 21 + b2n w.ballastEn * 2 ^ 20 + b2n w.coolantEn * 2 ^ 19 + w.coolantHoldMs * 8)
  s.setRegN ZG_PWR_LIMITS (w.ceiling * 2 ^ 48 + w.cap * 2 ^ 32 + w.excLimit * 65536 + w.releaseNs)

/-- d of R500: the most pace steps of a window. -/
def State.paceStep (s : State) (d : Nat) : Nat :=
  let x := s.pArray d * (s.pw d).admitted.length
  max 1 (if x = 0 then Config.emptyPaceStep else s.power.slope * 1600 / x)

/-- t_adm of R504, in ps, rounded up. -/
def State.admitPs (s : State) (d : Nat) : Nat := ceilDiv (4000 * s.pArray d) s.power.slope

/-- Whether a power in mW is at or below 97 % of CAP (R510). -/
def State.below97 (s : State) (p : Nat) : Bool := decide (p * 100 ≤ 97 * s.power.cap * 1000)

/-- The fast limiter's condition (R509). -/
def State.limiterOn (s : State) : Bool :=
  decide (s.power.excLimit * 1000 < s.power.p1) || (decide (s.power.cap * 1000 < s.power.p10) && s.power.credit == 0)

/-! ### Temperatures (R519, R520) -/

/-- The sensors of a die, 4 for the hub. -/
def State.sensors (s : State) (d : Nat) : List (Int × Bool) := if d = 4 then s.power.hubSensors else (s.pw d).sensors

/-- The hottest valid reading × 4 and its sensor. -/
def hottest (xs : List (Int × Bool)) : Option (Nat × Nat) :=
  xs.zipIdx.foldl (fun best x =>
    if x.1.2 then
      match best with
      | some (t, _) => if t < x.1.1.toNat then some (x.1.1.toNat, x.2) else best
      | none => some (x.1.1.toNat, x.2)
    else best) none

/-- Invalid sensors of a die. -/
def invalidCount (xs : List (Int × Bool)) : Nat := (xs.filter (fun x => !x.2)).length

/-- T_avg × 4 of a die's valid sensors (R515). -/
def avgQ2 (xs : List (Int × Bool)) : Nat :=
  let v := (xs.filter (·.2)).map (·.1.toNat)
  v.sum / v.length

/-- The temperature × 4 R510 acts on: the hottest valid sensor's, or at least 95 °C when 8 or more are invalid (R519). -/
def State.hotQ2 (s : State) (d : Nat) : Nat :=
  let xs := s.sensors d
  let t := ((hottest xs).map Prod.fst).getD 0
  if 8 ≤ invalidCount xs then max t 380 else t

/-! ### Actuators (R501, R511) -/


/-- The limit on k before T_IDX and C_IDX: VREQ, VMAX_CEIL and pace-follow (R510, R514). -/
def State.kLimit (s : State) (d : Nat) : Nat :=
  let x := s.pw d
  let lim := min x.vreq x.vmaxCeil
  let fol := s.followIdx d
  if fol = 0 then lim else min lim (max fol (s.vtable d).vmin)

/-- CAUSE of ZG_PWD_STATE: 8 an HBM stack at level 2 or 3, 4 thermal, 2 cap or excursion, by C_IDX or by the fast limiter's mark, 1
pace below 64 (R509, R511). -/
def State.throttleCause (s : State) (d : Nat) : Nat :=
  let x := s.pw d
  let low := decide (x.k < min x.vreq x.vmaxCeil)
  let lim := s.kLimit d
  8 * b2n ((List.range 4).any (fun k => decide (2 ≤ s.rfld (ZG_HBM_STACK d k) 39 38)))
    + 4 * b2n (low && decide (x.tIdx < lim)) + 2 * b2n (low && decide (x.cIdx < lim) || x.capCut && !s.lastDefence)
    + b2n (decide (x.p < 64) && !s.lastDefence)

/-- The arrays of a die that ask for admission: those whose next beat the closed gate withholds, and those of a cluster
Sorrel has borrowed (R504). -/
def State.wantAdmit (s : State) (d : Nat) : List Nat :=
  (List.range 512).filter (fun i =>
    !(s.pw d).admitted.contains i &&
      ((s.array d (i / 8) (i % 8)).frozen.any (fun f => f.2 == 2) || (s.clus d (i / 8)).loan.any (·.sorrel)))

/-- ZG_PWD_STATE of a die as its actuators stand (R501). -/
def pwdReg (d : Nat) (s : State) : Nat :=
  let x := s.pw d
  s.paceState d * 2 ^ 48 + x.vreq * 2 ^ 40 + x.vmaxCeil * 2 ^ 32 + s.followIdx d * 2 ^ 24 + s.throttleCause d * 2 ^ 20
    + x.admitted.length * 1024 + (s.wantAdmit d).length % 1024

/-- ZG_PWD_STATE follows the actuators; a change of THROTTLED raises event 0x0D.0x01 (R501, R511). -/
def refreshPwd (d : Nat) (s : State) : State :=
  let cause := s.throttleCause d
  let x := s.pw d
  let thr := cause != 0
  let s := s.updPw d fun x => { x with throttled := thr, throttleAt := if thr && !x.throttled then s.now else x.throttleAt }
  let ps := s.paceState d
  let s := s.setRegN (ZG_PWD_STATE d) (pwdReg d s)
  if thr = x.throttled then s
  else
    let s := if thr then s else bump (ZG_PWD_THR_NS d) (s.now - x.throttleAt) s
    pwrEvent 1 d (d + b2n thr * 4 + cause * 8 + ps * 128) s

/-! ### Accounts (R515 to R517) -/

/-- A fraction in lowest terms. -/
def reduceFrac (a b : Nat) : Nat × Nat := let g := max 1 (Nat.gcd a b); (a / g, b / g)

/-- Account numbers of `PowerSt.carried`. -/
def staticKey (p : Nat) : Nat := 0x100000 + p
/-- The package account. -/
def pkgAccount : Nat := 0x200000

/-- Whole nanojoules reach an account; the package account shows in ZG_PWR_PKG_ACCT. -/
def creditNj (key n : Nat) (s : State) : State :=
  let w := s.power
  if key < 0x100000 then
    let p := (s.queue key).part
    { s with power := { w with eQueue := cset 0 w.eQueue key (cget 0 w.eQueue key + n),
                               ePart := cset 0 w.ePart p (cget 0 w.ePart p + n) } }
  else if key < pkgAccount then
    let p := key - 0x100000
    { s with power := { w with eStatic := cset 0 w.eStatic p (cget 0 w.eStatic p + n) } }
  else
    bump ZG_PWR_PKG_ACCT ((w.ePackage + n) / 1000 - w.ePackage / 1000) { s with power := { w with ePackage := w.ePackage + n } }

/-- A share of `num` / `den` nJ is charged to an account: it rounds down, and the rest is carried (R517). -/
def chargeShare (key num den : Nat) (s : State) : State :=
  if den = 0 then s
  else
    let (a, b) := cget (0, 1) s.power.carried key
    let n := a * den + num * b
    let m := b * den
    let s := { s with power := { s.power with carried := cset (0, 1) s.power.carried key (reduceFrac (n % m) m) } }
    creditNj key (n / m) s

/-- An energy in pJ is split in proportion to weights, an account each; with no weight it is the package's. -/
def splitPj (pj : Nat) (weights : List (Nat × Nat)) (s : State) : State :=
  let total := (weights.map Prod.snd).sum
  if total = 0 then chargeShare pkgAccount pj 1000 s
  else weights.foldl (fun s w => chargeShare w.1 (pj * w.2) (1000 * total) s) s

/-- Energy of a die, kind 0 core, 1 HBM, 2 SerDes, 3 ballast, in pJ, with its counter in µJ. -/
def dieEnergy (d kind pj : Nat) (s : State) : State :=
  let key := d * 4 + kind
  let old := cget 0 s.power.eDie key
  let off := if kind = 0 then ZG_PWD_E_CORE d else if kind = 1 then ZG_PWD_E_HBM d
    else if kind = 2 then ZG_PWD_E_SERDES d else ZG_PWD_BALLAST d
  bump off ((old + pj) / 1000000 - old / 1000000) { s with power := { s.power with eDie := cset 0 s.power.eDie key (old + pj) } }

/-- The largest `v` below `acc` + 2^n with v^100 × `den` ≤ `num`, found bit by bit from `acc`. -/
def root100 (num den : Nat) : Nat → Nat → Nat
  | 0, acc => acc
  | n + 1, acc => if (acc + 2 ^ n) ^ 100 * den ≤ num then root100 num den n (acc + 2 ^ n) else root100 num den n acc

/-- c × 2^(e / 100), rounded down. -/
def scaleExp (c : Nat) (e : Int) : Nat :=
  root100 (c ^ 100 * 2 ^ e.toNat) (2 ^ (-e).toNat) (c.log2 + 1 + e.toNat / 100 + 1) 0

/-- Core static energy of a die in 1 µs, in nJ: P_STATIC × 2^((T_avg − 60) / 25), rounded down (R515). -/
def State.staticNj (s : State) (d : Nat) : Nat :=
  scaleExp (vtStatic ((s.vtable d).entry (s.pw d).k) * 1000) (Int.ofNat (avgQ2 (s.sensors d)) - 240)

/-- The account of a cluster's part of the static energy (R515). -/
def State.clusterAccount (s : State) (d c : Nat) : Nat :=
  match (s.clus d c).loan with
  | some l => l.queue
  | none =>
    let o := s.cluOwner d c
    if 128 ≤ o && o < 192 then staticKey (o % 64) else pkgAccount

/-- The energies of a partition in µJ: its total and its static account. -/
def State.partUj (s : State) (p : Nat) : Nat × Nat :=
  let st := cget 0 s.power.eStatic p
  ((st + cget 0 s.power.ePart p) / 1000, st / 1000)

/-- What ENERGY_READ tells, from one snapshot: the account of its queue, the total and the static account of its partition in µJ, and
the time (R518). -/
def energySnap (q : Nat) (s : State) : List Nat :=
  let (total, static) := s.partUj (s.queue q).part
  [cget 0 s.power.eQueue q / 1000, total, static, s.now]

end Sys2Proof.Machine
end

