-- ==== Sys2Proof/Machine/Power.lean ====
section
/-! DEFINITION. Power, thermal and energy commands (17_power_thermal.md R496 to R529). -/
namespace Sys2Proof.Machine

/-! ### Measurement and attribution (R496, R508, R515, R516) -/

/-- Activity tokens (R516). -/
def workTokens (a : Activity) : Nat :=
  16 * a.arrays.toNat + 4 * a.vector.toNat + 4 * a.sorrel.toNat + 4 * a.coll.toNat + 2 * a.teasel.toNat + a.data.toNat

/-- The account of an activity. -/
def workAccount (a : Activity) : Nat :=
  match a.queue with
  | some q => q.val
  | none => pkgAccount

/-- The energies of a die over an interval are charged to accounts (R515). -/
def shareOut (d : Nat) (r : Rails) (work : List Activity) (s : State) : State :=
  let mine := work.filter (fun a => a.die.val == d)
  let core := r.core.toNat * 1000
  let held := (s.pw d).ballastPj
  let ballast := min (held.map Prod.snd).sum core
  let static := min (s.staticNj d * 1000) (core - ballast)
  let live := (List.range s.gradeClusters).filter (fun c => s.clusterLive d c)
  let s := splitPj static (live.map (fun c => (s.clusterAccount d c, 1))) s
  let s := splitPj ballast (held.map (fun p => (if p.1 = 0 then pkgAccount else p.1 - 1, p.2))) s
  let s := splitPj (core - ballast - static)
    ((mine.filter (·.queue.isSome)).map (fun a => (workAccount a, workTokens a))) s
  let s := splitPj (r.hbm.toNat * 1000) (mine.map (fun a => (workAccount a, a.blocks.toNat))) s
  let s := splitPj (r.serdes.toNat * 1000) (mine.map (fun a => (workAccount a, a.flits.toNat))) s
  let s := dieEnergy d 3 ballast (dieEnergy d 2 (r.serdes.toNat * 1000) (dieEnergy d 1 (r.hbm.toNat * 1000) (dieEnergy d 0 core s)))
  s.updPw d fun x => { x with ballastPj := [] }

/-- ZG_PWR_NOW follows the powers and the credit. -/
def refreshNow (s : State) : State :=
  let w := s.power
  s.setRegN ZG_PWR_NOW (w.p1 / 1000 % 65536 * 2 ^ 48 + w.p10 / 1000 % 65536 * 2 ^ 32 + w.p100 / 1000 % 65536 * 65536
    + w.credit / 100)

/-- POWER_SAMPLE: the energies of 1 µs are integrated; the powers, the credit and the accounts follow (R496, R508, R515). -/
def execPowerSample (r0 r1 r2 r3 : Rails) (hub : BitVec 32) (work : List Activity) (s : State) : Out :=
  .next <|
    let rails := [r0, r1, r2, r3]
    let total := (rails.map (fun r => r.core.toNat + r.hbm.toNat + r.serdes.toNat)).sum + hub.toNat
    let w := s.power
    let samples := (total :: w.samples).take 100
    let p10 := (samples.take 10).sum / 10
    let credit := if w.cap * 1000 < p10 then w.credit - 10 else min 100000 (w.credit + 1)
    let s := { s with power := { w with samples := samples, p1 := total, p10 := p10, p100 := samples.sum / 100, credit := credit,
                                        eTotal := w.eTotal + total } }
    let s := bump ZG_PWR_ENERGY ((w.eTotal + total) / 1000 - w.eTotal / 1000) (refreshNow s)
    let s := if w.credit ≠ 0 ∧ credit = 0 then pwrEvent 3 4 (p10 / 1000 % 65536) s else s
    let s := (List.range 4).foldl (fun s d => shareOut d (rails.getD d r0) work s) s
    chargeShare pkgAccount hub.toNat 1 s

/-! ### Pace windows and the governor loop (R499, R500, R509, R510, R520) -/

/-- STATE of ZG_PWR_STATE is set. -/
def setCool (st : Nat) (s : State) : State :=
  { s.setRfld ZG_PWR_STATE 1 0 st with power := { s.power with coolState := st } }

/-- The target of k (R510). -/
def State.kTarget (s : State) (d : Nat) : Nat := min (s.kLimit d) (min (s.pw d).tIdx (s.pw d).cIdx)

/-- The pace step of a die in the window that begins: a stop lowers it to 0, the limiter and the thermal limit lower it, the end of
a stop restores it once k is back, and else it follows the governor loop, by at most d (R500, R509, R510, R520, R523, R524,
R526). -/
def nextPace (d : Nat) (s : State) : Nat :=
  let x := s.pw d
  let n := s.paceStep d
  if s.power.tripped || s.power.coolState = 2 then 0
  else if s.power.coolState = 1 then x.p - n
  else if s.limiterOn || ((hottest (s.sensors d)).any (fun h => decide (400 ≤ h.1))) then max (min x.p 1) (x.p - n)
  else if s.power.coolState = 3 && x.k == s.kTarget d then min 64 (x.p + n)
  else match x.want with
    | some v => max (max (min x.p 1) (x.p - n)) (min (min v 64) (x.p + n))
    | none => x.p

/-- A coolant stop has closed every gate, or its end has opened every gate (R523, R524). -/
def settleCool (s : State) : State :=
  let dies := List.range 4
  if s.power.coolState = 1 ∧ dies.all (fun d => (s.pw d).p == 0) = true then
    let s := setCool 2 s
    { s with power := { s.power with holdAt := s.now } }
  else if s.power.coolState = 3 ∧ dies.all (fun d => (s.pw d).p == 64 && (s.pw d).k == s.kTarget d) = true then
    pwrEvent 6 4 (min ((s.now - s.power.holdAt) / 1000) 4294967295) (flushRings (setCool 0 s))
  else s

/-- PACE_WINDOW: a window of 100 ns of the die's replica begins (R499, R500, R509). -/
def execPaceWindow (die : Die) (s : State) : Out :=
  .next <|
    let w := s.replicaOf die / 100
    if w ≤ (s.pw die).window then s
    else
      let p := nextPace die s
      let lim := s.limiterOn && !s.lastDefence
      let s := s.updPw die fun x => { x with p := p, want := none, window := w, limited := x.limited || lim, capCut := (x.capCut || lim) && decide (p < 64) }
      let s := s.setRfld ZG_PWR_STATE 2 2 (b2n lim)
      let s := pmcCount die 0x0E none ((s.pw die).admitted.length - (s.pw die).openArrays.length) s
      settleCool (refreshPwd die s)

/-- One step of a number toward another. -/
def stepTo (a b : Nat) : Nat := if a < b then a + 1 else if b < a then a - 1 else a

/-- The loop of R510 for one die. C_IDX keeps within the table as T_IDX does. -/
def governDie (d : Nat) (s : State) : State :=
  let t := s.vtable d
  let x := s.pw d
  let hot := s.hotQ2 d
  let tIdx := if 380 ≤ hot then max t.vmin (x.tIdx - 1) else if hot ≤ 372 then min t.vmax (x.tIdx + 1) else x.tIdx
  let cIdx := if x.limited || decide (s.power.cap * 1000 < s.power.p100) then max t.vmin (x.cIdx - 1)
    else if s.below97 s.power.p100 && x.p == 64 then min t.vmax (x.cIdx + 1) else x.cIdx
  let s := s.updPw d fun x => { x with tIdx := tIdx, cIdx := cIdx }
  let k := stepTo x.k (s.kTarget d)
  let s := s.updPw d fun x => { x with k := k }
  let n := s.paceStep d
  let p := if x.p < 64 && decide (hot < 380) && s.below97 s.power.p10 && !x.limited && s.power.coolState == 0
    then x.p + min n (64 - x.p) else x.p
  let p := if k == t.vmin && decide (380 ≤ hot) then p - min n (p - 1) else p
  refreshPwd d (s.updPw d fun y => { y with want := if p = x.p then none else some p, limited := false })

/-- GOVERNOR_LOOP: Betony moves k of a die toward its target, and p at the next window boundary; everything holds while Betony does not run, and under
a stop (R510, R526). -/
def execGovernorLoop (die : Die) (s : State) : Out :=
  .next <|
    if s.betony ≠ 1 || s.power.tripped || s.power.coolState == 1 || s.power.coolState == 2 then s
    else settleCool (governDie die s)

/-! ### The ramp governor (R504 to R506) -/

/-- The moment in ps at which an admission or a release that waited for its interval comes: its earliest moment, if that
falls into the present nanosecond. -/
def rampMoment (last : Option Nat) (step now : Nat) : Nat :=
  match last with
  | some t => if now * 1000 < t + step + 1000 then t + step else now * 1000
  | none => now * 1000

/-- Whether an interval has passed since the last admission or release. -/
def rampDue (last : Option Nat) (step now : Nat) : Bool :=
  match last with
  | some t => decide (t + step < (now + 1) * 1000)
  | none => true

/-- ARRAY_ADMIT: the pending array of lowest index is admitted once t_adm has passed since the last admission (R504). -/
def execArrayAdmit (die : Die) (s : State) : Out :=
  .next <|
    match s.wantAdmit die with
    | [] => s
    | i :: _ =>
      let x := s.pw die
      let t := s.admitPs die
      if s.lastDefence || !rampDue x.admitPs t s.now then s
      else
        let s := s.updPw die fun x => { x with
          admitted := x.admitted.filter (fun j => decide (j < i)) ++ i :: x.admitted.filter (fun j => decide (i < j)),
          admitPs := some (rampMoment x.admitPs t s.now), since := cset 0 x.since i s.now }
        refreshPwd die (pmcCount die 0x0D none 1 (bump (ZG_PWD_ADMITS die) 1 s))

/-- Whether an admitted array has completed no beat for RELEASE_NS; one whose gate a pace cut closes is not released, nor
one Sorrel works on (R505, R526). -/
def releasable (d i : Nat) (s : State) : Bool :=
  let x := s.pw d
  let last := max (cget 0 x.lastBeat i - 1) (cget 0 x.since i)
  decide (last + max 100 s.power.releaseNs ≤ s.now) && !(s.array d (i / 8) (i % 8)).frozen.any (fun f => f.2 == 2)
    && !(s.clus d (i / 8)).loan.any (·.sorrel)

/-- ARRAY_RELEASE: the idle admitted array of highest index is released, at most one per t_adm (R505). -/
def execArrayRelease (die : Die) (s : State) : Out :=
  .next <|
    let x := s.pw die
    match (x.admitted.filter (fun i => releasable die i s)).getLast? with
    | none => s
    | some i =>
      let t := s.admitPs die
      if s.lastDefence || !rampDue x.releasePs t s.now then s
      else
        refreshPwd die (s.updPw die fun x => { x with admitted := x.admitted.filter (· ≠ i), releasePs := some (rampMoment x.releasePs t s.now) })

/-- BALLAST_UPDATE: in 10 ns the ballast draws P_ARRAY for every admitted array with an open gate that completed no beat
(R506). -/
def execBallastUpdate (die : Die) (s : State) : Out :=
  .next <|
    if !s.power.ballastEn || s.power.tripped then s
    else
      let x := s.pw die
      let idle := x.openArrays.filter (fun i => decide (cget 0 x.lastBeat i + 10 ≤ s.now + 1) || cget 0 x.lastBeat i == 0)
      let pj := s.pArray die * 10
      s.updPw die fun x => { x with ballastPj := idle.foldl (fun m i =>
        let q := cget 0 x.issued i
        cset 0 m q (cget 0 m q + pj)) x.ballastPj }

/-! ### Sensors (R519, R520) -/

/-- A list in ascending order. -/
def insertInt (x : Int) : List Int → List Int
  | [] => [x]
  | y :: ys => if x ≤ y then x :: y :: ys else y :: insertInt x ys

/-- Twice the median: the middle two readings of an even number (DESIGN CHOICE, log entry 41). -/
def median2 (xs : List Int) : Int :=
  let l := xs.foldr insertInt []
  let n := l.length
  if n % 2 = 1 then 2 * l.getD (n / 2) 0 else l.getD (n / 2 - 1) 0 + l.getD (n / 2) 0

/-- Readings × 4 with whether each is valid: within 0 °C to 125 °C and 30 °C of the median. -/
def validated (xs : List Int) : List (Int × Bool) :=
  let m := median2 xs
  xs.map (fun x => (x, decide (0 ≤ x) && decide (x ≤ 500) && decide (2 * x - m ≤ 240) && decide (m - 2 * x ≤ 240)))

/-- ZG_PWD_TEMP of a compute die follows its sensors. -/
def refreshTemp (d : Nat) (s : State) : State :=
  if d = 4 then s
  else
    let xs := s.sensors d
    let (t, i) := (hottest xs).getD (0, 0)
    s.setRegN (ZG_PWD_TEMP d) (t * 2 ^ 52 + i * 2 ^ 46 + avgQ2 xs * 2 ^ 34 + invalidCount xs * 2 ^ 27)

/-- SENSOR_CONVERT: the sensors of a die, 4 for the hub, convert; readings in °C × 4, two's complement (R519, R520). -/
def execSensorConvert (die : Fin 5) (readings : List (BitVec 12)) (s : State) : Out :=
  if readingsWf die readings = false then .fault .illFormed
  else .next <|
    let xs := validated (readings.map (·.toInt))
    let before := ((hottest (s.sensors die)).map Prod.fst).getD 0
    let s := if die.val = 4 then { s with power := { s.power with hubSensors := xs } }
      else s.updPw die fun x => { x with sensors := xs }
    let s := refreshTemp die s
    let bad := invalidCount xs
    let s := xs.zipIdx.foldl (fun s x => if x.1.2 then s else pwrEvent 10 die (die + x.2 * 8 + bad % 128 * 512) s) s
    let s := if 8 ≤ bad then raiseAlarm 0x0D 3 die (s.reg ZG_PWR_LAST).toNat s else s
    match hottest xs with
    | some (t, i) => if 380 ≤ t ∧ before < 380 then pwrEvent 4 die (die + i * 8 + t * 512) s else s
    | none => s

/-! ### Last lines of defence (R521 to R525) -/

/-- THERMAL_TRIP: a sensor at 115 °C or more trips the package, from step 2 of bring-up: every gate closes, THERMTRIP_N goes
low, the Wefin lanes fall quiet, the host link goes down, and the trip is latched (R521, R522). -/
def execThermalTrip (die : Fin 5) (sensor : Fin 64) (temp : BitVec 12) (s : State) : Out :=
  .next <|
    if s.power.tripped || decide (temp.toNat < 460) || s.stage == 0 || (die.val == 4 && decide (8 ≤ sensor.val)) then s
    else
      let s := s.setRegN ZG_PWR_TRIP (2 ^ 63 + die * 2 ^ 48 + sensor * 2 ^ 42 + temp.toNat * 2 ^ 30)
      let s := s.setRegN ZG_PWR_TRIP_NS s.now
      let s := { s with power := { s.power with tripped := true, tripNew := true }, pins := { s.pins with thermtripN := false } }
      let s := (List.range 4).foldl (fun s d => refreshPwd d (s.updPw d fun x => { x with p := 0 })) s
      let s := (List.range 24).foldl (fun s p => leaveTo p 0 s) s
      resetAllFunctions { s with host := { s.host with linkUp := false } }

/-- COOLANT_STOP: COOLANT_OK low for 10 µs holds dispatch and HBM requests, lowers p to 0 over the windows that follow, and
lowers k to VMIN (R523). -/
def execCoolantStop (s : State) : Out :=
  .next <|
    if !s.power.coolantEn || s.pins.coolantOk || decide (s.now < s.pins.coolantAt + 10000) || s.stage == 0 || s.power.tripped
        || (s.power.coolState != 0 && s.power.coolState != 3) then s
    else
      let s := setCool 1 (pwrEvent 5 4 0 s)
      let s := { s with power := { s.power with holdAt := s.now, holdAborted := false } }
      settleCool ((List.range 4).foldl (fun s d => refreshPwd d (s.updPw d fun x => { x with k := (s.vtable d).vmin })) s)

/-- Coolant flows again: COOLANT_OK high for 10 ms without a break, or the input ignored because COOLANT_EN is clear (R523,
R524). -/
def State.coolantBack (s : State) : Bool :=
  !s.power.coolantEn || s.pins.coolantOk && decide (s.pins.coolantAt + 10000000 ≤ s.now)

/-- COOLANT_RESUME: COOLANT_OK high for 10 ms begins the resumption; k and then p come back, dispatch and held requests are
released, and event 0x0D.0x06 ends it (R524). -/
def execCoolantResume (s : State) : Out :=
  .next <|
    if (s.power.coolState == 1 || s.power.coolState == 2) && s.coolantBack then
      settleCool (setCool 3 s)
    else s

/-- COOLANT_HOLD_ABORT: the hold has lasted COOLANT_HOLD_MS; every dispatched user command ends with the coolant-abort status
(R525). -/
def execCoolantHoldAbort (s : State) : Out :=
  .next <|
    let w := s.power
    if w.coolState ≠ 2 || w.coolantHoldMs == 0 || w.holdAborted || decide (s.now < w.holdAt + w.coolantHoldMs * 1000000) then s
    else
      let qs := (s.host.queues.filter (fun p => !isAdmin p.1)).map Prod.fst
      let n := (qs.map (fun q => ((s.queue q).flights.filter (·.ended.isNone)).length)).sum
      let s := { s with power := { w with holdAborted := true } }
      pwrEvent 7 4 (n % 4294967296) (qs.foldl (fun s q => abortFlights q 0x0701 s) s)

/-! ### Reading the accounts (R518, R529) -/

/-- The record of ENERGY_READ (R518). -/
def energyRecord (snap : List Nat) : List Byte :=
  withCheck (natLE 8 (snap.getD 0 0) ++ natLE 8 (snap.getD 1 0) ++ natLE 8 (snap.getD 2 0) ++ natLE 6 (snap.getD 3 0))

/-- ENERGY_READ writes the accounts of its queue and partition as they stood at its dispatch (R518). -/
def execEnergyRead (q : Qn) (seq : Word64) (s : State) : Out :=
  .next <| withFlight q seq.toNat 0xB0 s fun f =>
    let b := dBody f.desc
    let rq := s.req q f 6
    if getLE b 0 8 % 32 ≠ 0 || !zeroAt b 8 8 then endCommand q seq.toNat 1 0 s
    else finishAcc q seq.toNat rq s (vaWrite rq (getLE b 0 8) (energyRecord f.work) s) fun _ s => endCommand q seq.toNat 0 0 s

/-- The snapshot of the accounts that a value of ZG_PWR_ESEL selects (R529). -/
def snapEnergy (new : Nat) (s : State) : State :=
  let (total, static) := s.partUj (bitsOf new 22 17)
  ((s.setRegN ZG_PWR_E_QUEUE (cget 0 s.power.eQueue (bitsOf new 15 0) / 1000)).setRegN ZG_PWR_E_PART total).setRegN
    ZG_PWR_E_PSTAT static

/-- A write of ZG_PWR_ESEL takes a snapshot of the selected accounts (R529). -/
def execPwrEsel (f : Func) (value : Word32) (s : State) : Out :=
  .next <| guardedWrite f ZG_PWR_ESEL 4 value.toNat s fun _ new s => snapEnergy new s

end Sys2Proof.Machine
end

