-- ==== Sys2Proof/Machine/Teasel.lean ====
section
/-! DEFINITION. Teasel operations on irregular data and their map slots (07_teasel_irregular.md R155 to R183). -/
namespace Sys2Proof.Machine

/-! ### Records and keys (R155, R156) -/

/-- Bytes of a record format. -/
def rfmtBytes (rf : Nat) : Nat := if rf = 0 then 4 else if rf = 1 ∨ rf = 2 then 8 else 16

/-- Bytes of a record format's key. -/
def keyBytes (rf : Nat) : Nat := if rf ≤ 1 then 4 else 8

/-- The place of a key in the order KORD (R156). -/
def keyRank (kord rf : Nat) (rec_ : List Byte) : Int :=
  let k := getLE rec_ 0 (keyBytes rf)
  if kord = 1 then sext (8 * keyBytes rf) k
  else if kord = 2 then
    if 0x7F800000 < k % 0x80000000 then 0xFFFFFFFF
    else if 0x80000000 ≤ k then Int.ofNat (0xFFFFFFFF - k) else Int.ofNat (k + 0x80000000)
  else Int.ofNat k

/-- A byte string in pieces of `w` bytes. -/
def chunksOf (w : Nat) (bs : List Byte) : List (List Byte) :=
  (List.range (bs.length / w)).map (fun i => (bs.drop (i * w)).take w)

/-- The null record. -/
def nullRecord (rf : Nat) : List Byte := List.replicate (rfmtBytes rf) 0xFF

/-- Insertion before the first element that does not come before `x`. -/
def insertBy {α : Type} (le : α → α → Bool) (x : α) : List α → List α
  | [] => [x]
  | y :: ys => if le x y then x :: y :: ys else y :: insertBy le x ys

/-- Stable sort (R162). -/
def sortBy {α : Type} (le : α → α → Bool) (xs : List α) : List α := xs.foldr (insertBy le) []

/-! ### Descriptor (R158) -/

/-- OP. -/
def zOp (b : List Byte) : Nat := byteAt b 0 % 16
/-- DIR. -/
def zDir (b : List Byte) : Bool := bitOf (byteAt b 1) 7
/-- STRICT. -/
def zStrict (b : List Byte) : Bool := bitOf (byteAt b 1) 6
/-- NULLMODE. -/
def zNull (b : List Byte) : Bool := bitOf (byteAt b 1) 5
/-- N_SRC. -/
def zNSrc (b : List Byte) : Bool := bitOf (byteAt b 1) 4
/-- KORD. -/
def zKord (b : List Byte) : Nat := byteAt b 1 / 4 % 4
/-- RFMT. -/
def zRfmt (b : List Byte) : Nat := byteAt b 1 % 4
/-- SLOT. -/
def zSlot (b : List Byte) : Nat := byteAt b 4 / 16
/-- USE_MAP. -/
def zMap (b : List Byte) : Bool := bitOf (byteAt b 4) 3
/-- SAT. -/
def zSat (b : List Byte) : Bool := bitOf (byteAt b 4) 2
/-- RED_OP. -/
def zRed (b : List Byte) : Nat := byteAt b 4 % 4
/-- EFMT. -/
def zEfmt (b : List Byte) : Nat := byteAt b 5
/-- LAYOUT. -/
def zLayout (b : List Byte) : Nat := byteAt b 6 / 64
/-- NB: buckets. -/
def zNb (b : List Byte) : Nat := 2 ^ (byteAt b 7 % 16)
/-- N as the descriptor gives it. -/
def zN (b : List Byte) : Nat := getLE b 8 4
/-- N2. -/
def zN2 (b : List Byte) : Nat := getLE b 0x0C 4
/-- SRC_OFF. -/
def zSrc (b : List Byte) : Nat := getLE b 0x10 4
/-- SRC2_OFF. -/
def zSrc2 (b : List Byte) : Nat := getLE b 0x14 4
/-- DST_OFF. -/
def zDst (b : List Byte) : Nat := getLE b 0x18 4
/-- AUX_OFF. -/
def zAux (b : List Byte) : Nat := getLE b 0x20 4
/-- SCR_OFF. -/
def zScr (b : List Byte) : Nat := getLE b 0x24 4
/-- RES_OFF. -/
def zRes (b : List Byte) : Nat := getLE b 0x2C 4
/-- ROW_BYTES. -/
def zRow (b : List Byte) : Nat := getLE b 0x30 4
/-- ROW_STRIDE. -/
def zStride (b : List Byte) : Nat := getLE b 0x34 4
/-- NROWS. -/
def zRows (b : List Byte) : Nat := getLE b 0x38 4
/-- CAP. -/
def zCap (b : List Byte) : Nat := getLE b 0x3C 4
/-- The value that stands for "none" in an offset or an index. -/
def none32 : Nat := 0xFFFFFFFF

/-- Whether an operation reads indices (R157, R159). -/
def readsIndices (op : Nat) : Bool := decide (2 ≤ op) && decide (op ≤ 5)

/-! ### Checks (R160) -/

/-- Teasel body, but for what depends on N. DESIGN CHOICE (log entry 63): a reserved value of KORD, RED_OP or LAYOUT fails only an
operation that uses the field; OP 11 to 15 fail always. -/
def checkTeasel (b : List Byte) (s : State) : Nat :=
  let op := zOp b
  let rf := zRfmt b
  let ordered := op == 0 || op == 6 || op == 7 || op == 8
  failIf (decide (16 ≤ byteAt b 0) || decide (10 < op) || decide (64 ≤ byteAt b 2) || decide (128 ≤ byteAt b 3)
    || decide (32 ≤ byteAt b 5) || decide (16 ≤ byteAt b 7) || s.clusterRangeBad (byteAt b 2) (byteAt b 3)
    || (ordered && (zKord b == 3 || (zKord b == 2 && decide (2 ≤ rf))))
    || (op == 1 && (decide (2 ≤ zLayout b) || byteAt b 7 == 0 || decide (12 < byteAt b 7)))
    || (readsIndices op && (decide (2 ≤ rf) || zRow b % 16 != 0 || zRow b == 0 || decide (65536 < zRow b)
          || zStride b % 16 != 0 || decide (zStride b < zRow b)))
    || ((op == 4 || op == 5) && (zRed b == 3 || !(zEfmt b == 0 || zEfmt b == 1 || zEfmt b == 2 || zEfmt b == 7)))
    || (op == 10 && decide (2 ≤ rf))
    || (op == 9 && (zN2 b == 0 || decide (1048576 < zN2 b)))
    || (if zNSrc b then zN b % 4 != 0 else decide (1048576 < zN b))
    || (zRes b != none32 && zRes b % 32 != 0)) 1

/-- The regions of an operation, as (offset, bytes, limit); a limit of 2^32 is none. A SORT in place has one region for both, which
its sorted records must not overrun (R159, R160). -/
def tslRegions (b : List Byte) (n : Nat) : List (Nat × Nat × Nat) :=
  let op := zOp b
  let r := rfmtBytes (zRfmt b)
  let lim := getLE b 0x1C 4
  let table := zRows b * zStride b
  let free := 2 ^ 32
  let main :=
    if op = 0 then
      let out := (if zCap b = 0 then n else min n (zCap b)) * r
      (if zDst b = zSrc b then [(zSrc b, n * r, if lim < out then 0 else free)] else [(zSrc b, n * r, free), (zDst b, out, lim)])
        ++ (if 4096 < n then [(zScr b, n * r, getLE b 0x28 4)] else [])
    else if op = 1 then
      if zLayout b = 0 then [(zSrc b, n * r, free), (zDst b, n * r, lim), (zAux b, 4 * (zNb b + 1), free)]
      else [(zSrc b, n * r, free), (zSrc2 b, n * r, free), (zDst b, zNb b * zCap b * r, lim), (zAux b, 8 * zNb b, free)]
    else if op = 2 then [(zSrc b, table, free), (zSrc2 b, n * r, free), (zDst b, n * zRow b, lim)]
    else if op = 3 then [(zSrc b, n * zRow b, free), (zSrc2 b, n * r, free), (zDst b, table, lim)]
    else if op = 4 then
      [(zSrc b, n * zRow b, free), (zSrc2 b, n * r, free), (zDst b, table, lim), (zScr b, 8 * n, getLE b 0x28 4)]
    else if op = 5 then
      [(zSrc b, table, free), (zDst b, zN2 b * zRow b, lim), (zAux b, 4 * (zN2 b + 1), free)]
        ++ (if zSrc2 b = none32 then [] else [(zSrc2 b, n * r, free)])
    else if op ≤ 8 then
      [(zSrc b, n * r, free), (zSrc2 b, zN2 b * r, free),
        (zDst b, (if op = 6 then n + zN2 b else if op = 7 then min n (zN2 b) else n) * r, lim)]
    else if op = 9 then [(zSrc b, 4 * zN2 b, free), (zSrc2 b, 4 * zN2 b, free)]
    else [(zSrc b, n * r, free)]
  main ++ (if zRes b = none32 then [] else [(zRes b, 32, free)])

/-- Whether two regions share a byte. -/
def overlap (a b : Nat × Nat × Nat) : Bool :=
  a.2.1 != 0 && b.2.1 != 0 && decide (a.1 < b.1 + b.2.1) && decide (b.1 < a.1 + a.2.1)

/-- Whether some two regions of a list overlap. -/
def anyOverlap : List (Nat × Nat × Nat) → Bool
  | [] => false
  | r :: rs => rs.any (overlap r) || anyOverlap rs

/-- Whether the regions break R160 in `size` bytes of SRAM, apart from their bound. -/
def regionsBad (b : List Byte) (n : Nat) : Bool :=
  let rs := tslRegions b n
  decide (1048576 < n) || rs.any (fun r => r.1 % 16 != 0 || decide (r.2.2 < r.2.1)) || anyOverlap rs

/-- Whether a region leaves the bound of R130. -/
def regionsLeave (b : List Byte) (n size : Nat) : Bool :=
  (tslRegions b n).any (fun r => decide (size < r.1 + r.2.1))

/-- The check of the regions with `n` records in `size` bytes of SRAM: 0 legal, 1 against R160, 2 beyond the bound of R130. -/
def tslBound (b : List Byte) (n size : Nat) : Nat := if regionsBad b n then 1 else if regionsLeave b n size then 2 else 0

/-- Whether the result record has a place of its own within the bound, so that it can tell of a failed check (R161; log entry
63). -/
def recordFits (b : List Byte) (n : Option Nat) (size : Nat) : Bool :=
  zRes b != none32 && zRes b % 32 == 0 && decide (zRes b + 32 ≤ size) &&
    match n with
    | some n => !(tslRegions b n).dropLast.any (overlap (zRes b, 32, 0))
    | none => true

/-! ### Running in one cluster -/

/-- Where and for whom an operation runs. -/
structure TslCtx where
  b : List Byte
  d : Nat
  c : Nat
  base : Nat
  part : Option Nat
  reduced : Bool
  /-- The map's bank offset and keys. -/
  map : Option (Nat × Nat)

/-- How an operation ended in a cluster. -/
structure TslRes where
  st : Nat
  out : Nat := 0
  ovf : Nat := 0
  oor : Nat := 0
  null : Nat := 0
  s : State

/-- Read `n` bytes of the operation's SRAM. -/
def TslCtx.get (x : TslCtx) (a n : Nat) (s : State) : Option (List Byte) × State := sramRead x.d x.c (x.base + a) n 4 x.part s

/-- Continue with the bytes read, or fail with SRAM-uncorrectable (R168). -/
def TslCtx.read (x : TslCtx) (a n : Nat) (s : State) (g : List Byte → State → TslRes) : TslRes :=
  match x.get a n s with
  | (some bs, s) => g bs s
  | (none, s) => { st := 0x30, s := s }

/-- Write a list of (offset, bytes) and continue; a failure tells `bad` how many have been written, for the counts of R168. -/
def TslCtx.writes (x : TslCtx) (bad : Nat → State → TslRes) : List (Nat × List Byte) → Nat → State → (State → TslRes) → TslRes
  | [], _, s, g => g s
  | (a, bs) :: ws, i, s, g =>
    match sramWrite x.d x.c (x.base + a) bs 4 x.part s with
    | (true, s) => x.writes bad ws (i + 1) s g
    | (false, s) => bad i s

/-- Records of `r` bytes written one after another from offset `a`, line by line; a failure's OUT_COUNT is the records written
whole before it (R168). -/
def TslCtx.write (x : TslCtx) (a r : Nat) (bs : List Byte) (s : State) (g : State → TslRes) : TslRes :=
  match sramWrite x.d x.c (x.base + a) bs 4 x.part s with
  | (true, s) => g s
  | (false, t) => { st := 0x30, out := writableBytes x.d x.c (x.base + a) bs s / r, s := t }

/-- A failure of a run that writes rows: OUT_COUNT is the rows written before it (R168). -/
def rowsDone (i : Nat) (s : State) : TslRes := { st := 0x30, out := i, s := s }

/-- The counts of indices that a run has met, however it ends (R157, R168). -/
def TslRes.met (oor null : Nat) (r : TslRes) : TslRes := { r with oor := oor, null := null }

/-- Read several equal pieces and continue. -/
def TslCtx.reads (x : TslCtx) (n : Nat) : List Nat → State → (List (List Byte) → State → TslRes) → TslRes
  | [], s, g => g [] s
  | a :: as, s, g => x.read a n s fun bs s => x.reads n as s fun rest s => g (bs :: rest) s

/-- The scratch area holds what the operation left in it, which the spec does not say: a free value (log entry 4). -/
def TslCtx.scratch (x : TslCtx) (n : Nat) (s : State) : State :=
  if n = 0 then s
  else
    let (v, s) := s.draw
    sramPut x.d x.c (x.base + zScr x.b) (natLE n v) s

/-- SORT (R162). -/
def sortRun (x : TslCtx) (n : Nat) (s : State) : TslRes :=
  let rf := zRfmt x.b
  x.read (zSrc x.b) (n * rfmtBytes rf) s fun bs s =>
    let rank := keyRank (zKord x.b) rf
    let le := fun a c => if zDir x.b then decide (rank c ≤ rank a) else decide (rank a ≤ rank c)
    let all := sortBy le (chunksOf (rfmtBytes rf) bs)
    let kept := if zCap x.b = 0 then all else all.take (zCap x.b)
    let s := x.scratch (if 4096 < n then n * rfmtBytes rf else 0) s
    x.write (zDst x.b) (rfmtBytes rf) kept.flatten s fun s => { st := 0, out := kept.length, s := s }

/-- The bucket of a record (R163). -/
def bucketNo (b rec_ : List Byte) : Nat := getLE rec_ 0 (keyBytes (zRfmt b)) / 2 ^ (byteAt b 6 % 64) % zNb b

/-- Running sums from 0. -/
def runningSums : Nat → List Nat → List Nat
  | acc, [] => [acc]
  | acc, x :: xs => acc :: runningSums (acc + x) xs

/-- Records past the CAP-th of their bucket, in input order. -/
def overflowOf (b : List Byte) : List (List Byte) → List Nat → List (List Byte)
  | [], _ => []
  | r :: rs, counts =>
    let k := bucketNo b r
    let n := counts.getD k 0
    let rest := overflowOf b rs (counts.set k (n + 1))
    if zCap b ≤ n then r :: rest else rest

/-- BUCKET in the PACKED or FIXED layout (R163). -/
def bucketRun (x : TslCtx) (n : Nat) (s : State) : TslRes :=
  let b := x.b
  let rf := zRfmt b
  x.read (zSrc b) (n * rfmtBytes rf) s fun bs s =>
    let recs := chunksOf (rfmtBytes rf) bs
    let groups := (List.range (zNb b)).map (fun k => recs.filter (fun r => bucketNo b r == k))
    let demand := groups.map List.length
    if zLayout b = 0 then
      x.write (zDst b) (rfmtBytes rf) (groups.flatten).flatten s fun s =>
        x.writes (fun _ s => { st := 0x30, out := n, s := s }) [(zAux b, ((runningSums 0 demand).map (natLE 4)).flatten)] 0 s
          fun s => { st := 0, out := n, s := s }
    else
      let kept := demand.map (fun d => min d (zCap b))
      let ovf := overflowOf b recs (List.replicate (zNb b) 0)
      let fill := fun k =>
        let g := (groups.getD k []).take (zCap b)
        let a := zDst b + k * zCap b * rfmtBytes rf
        (a, g.flatten ++ (if zNull b then [] else (List.replicate (zCap b - g.length) (nullRecord rf)).flatten))
      let nulls := fun (i : Nat) => if zNull b then 0 else ((kept.take i).map (fun k => zCap b - k)).sum
      let done := fun (st i : Nat) (s : State) =>
        ({ st := st, out := min i (zNb b) * zCap b, ovf := if zNb b < i then ovf.length else 0, null := nulls i, s := s } : TslRes)
      x.writes (done 0x30) ((List.range (zNb b)).map fill ++ [(zSrc2 b, ovf.flatten), (zAux b, ((demand ++ kept).map (natLE 4)).flatten)]) 0 s
        fun s => done 0 (zNb b + 1) s

/-- An index after translation (R157). -/
inductive Index where
  | row (n : Nat)
  | null
  | oor
  deriving DecidableEq, Repr

/-- An index against the table of NROWS rows. -/
def indexIn (rows v : Nat) : Index := if v = none32 then .null else if v < rows then .row v else .oor

/-- Out-of-range entries of an index list. -/
def oorCount (is : List Index) : Nat := (is.filter (· == .oor)).length

/-- Null entries of an index list. -/
def nullCount (is : List Index) : Nat := (is.filter (· == .null)).length

/-- One index value through the map of USE_MAP; none where its entry cannot be read (R157, R179). -/
def TslCtx.index (x : TslCtx) (v : Nat) (s : State) : Option Index × State :=
  match x.map with
  | none => (some (indexIn (zRows x.b) v), s)
  | some (off, keys) =>
    if v = none32 then (some .null, s)
    else if keys ≤ v then (some .oor, s)
    else match x.get (off + 4 * v) 4 s with
      | (some e, s) => (some (indexIn (zRows x.b) (leNat e)), s)
      | (none, s) => (none, s)

/-- The indices of a list in order, after those in `is`. STRICT ends the operation at the first out-of-range one; a failure's
counts are of the indices met (R157, R168; log entry 63). -/
def TslCtx.indices (x : TslCtx) : List Nat → List Index → State → (List Index → State → TslRes) → TslRes
  | [], is, s, g => (g is s).met (oorCount is) (nullCount is)
  | v :: vs, is, s, g =>
    match x.index v s with
    | (none, s) => { st := 0x30, oor := oorCount is, null := nullCount is, s := s }
    | (some i, s) =>
      if i = .oor ∧ zStrict x.b = true then { st := 0x11, oor := oorCount is + 1, null := nullCount is, s := s }
      else x.indices vs (is ++ [i]) s g

/-- The index values of the list at SRC2 (R157). -/
def TslCtx.indexList (x : TslCtx) (n : Nat) (s : State) (g : List Index → State → TslRes) : TslRes :=
  if zOp x.b = 5 ∧ zSrc2 x.b = none32 then x.indices (List.range n) [] s g
  else
    let r := rfmtBytes (zRfmt x.b)
    x.read (zSrc2 x.b) (n * r) s fun bs s =>
      x.indices ((chunksOf r bs).map (fun e => getLE e (if zRfmt x.b = 0 then 0 else 4) 4)) [] s g

/-- GATHER (R164). -/
def gatherRun (x : TslCtx) (n : Nat) (s : State) : TslRes :=
  let b := x.b
  x.indexList n s fun is s =>
    let rows := (is.zipIdx).filterMap (fun p => match p.1 with | .row r => some (p.2, r) | _ => none)
    x.reads (zRow b) (rows.map (fun p => zSrc b + p.2 * zStride b)) s fun data s =>
      let found := (rows.zip data).map (fun p => (zDst b + p.1.1 * zRow b, p.2))
      let blank := if zNull b then [] else
        (is.zipIdx).filterMap (fun p => match p.1 with | .row _ => none | _ => some (zDst b + p.2 * zRow b, zeros (zRow b)))
      x.writes rowsDone (found ++ blank) 0 s fun s => { st := 0, out := found.length + blank.length, s := s }

/-- The rows a list of indices names, each with the entries that name it, in order of first naming (R164, R165). -/
def namedRows (is : List Index) : List (Nat × List Nat) :=
  let ps := (is.zipIdx).filterMap (fun p => match p.1 with | .row r => some (r, p.2) | _ => none)
  ((ps.map Prod.fst).eraseDups).map (fun r => (r, (ps.filter (fun p => p.1 == r)).map Prod.snd))

/-- SCATTER (R164). -/
def scatterRun (x : TslCtx) (n : Nat) (s : State) : TslRes :=
  let b := x.b
  x.indexList n s fun is s =>
    let rows := namedRows is
    x.reads (zRow b) (rows.map (fun p => zSrc b + (p.2.getLastD 0) * zRow b)) s fun data s =>
      x.writes rowsDone ((rows.zip data).map (fun p => (zDst b + p.1.1 * zStride b, p.2))) 0 s fun s =>
        { st := 0, out := rows.length, s := s }

/-! ### Reductions (R165, R166) -/

/-- One output element: from an initial value, if any, and the contributions in order (R165, R166). -/
def reduceElem (reduced : Bool) (b : List Byte) (init : Option Nat) (vs : List Nat) : Nat :=
  let fmt := zEfmt b
  if zRed b = 0 then
    let x := match init with
      | some v => initialWindow (decodeElem reduced fmt v)
      | none => {}
    drainTo reduced fmt (zSat b) (windowSteps x (vs.map (decodeElem reduced fmt)))
  else redExtreme reduced fmt (zRed b) (init.toList ++ vs)

/-- One output row from the rows that contribute to it. -/
def reduceRow (reduced : Bool) (b : List Byte) (init : Option (List Byte)) (rows : List (List Byte)) : List Byte :=
  let w := fmtWidth (zEfmt b) / 8
  ((List.range (zRow b / w)).map (fun i =>
    natLE w (reduceElem reduced b (init.map (fun r => getLE r (i * w) w)) (rows.map (fun r => getLE r (i * w) w))))).flatten

/-- Rows of the table reduced one after another: each is (destination, initial row's offset, contributing rows' offsets). -/
def TslCtx.reduceRows (x : TslCtx) : List (Nat × Option Nat × List Nat) → State → (List (Nat × List Byte) → State → TslRes) → TslRes
  | [], s, g => g [] s
  | (dst, init, srcs) :: ws, s, g =>
    x.reads (zRow x.b) (init.toList ++ srcs) s fun data s =>
      let row := if init.isSome then reduceRow x.reduced x.b data.head? data.tail else reduceRow x.reduced x.b none data
      x.reduceRows ws s fun rest s => g ((dst, row) :: rest) s

/-- SCATTER_ADD (R165). -/
def scatterAddRun (x : TslCtx) (n : Nat) (s : State) : TslRes :=
  let b := x.b
  x.indexList n s fun is s =>
    let rows := namedRows is
    let work := rows.map (fun p => (zDst b + p.1 * zStride b, some (zDst b + p.1 * zStride b), p.2.map (fun j => zSrc b + j * zRow b)))
    x.reduceRows work s fun out s =>
      x.writes rowsDone out 0 (x.scratch (8 * n) s) fun s => { st := 0, out := rows.length, s := s }

/-- Whether a list of offsets never decreases. -/
def ascends : List Nat → Bool
  | a :: b :: r => decide (a ≤ b) && ascends (b :: r)
  | _ => true

/-- SEGREDUCE (R165, R166). -/
def segreduceRun (x : TslCtx) (n : Nat) (s : State) : TslRes :=
  let b := x.b
  x.read (zAux b) (4 * (zN2 b + 1)) s fun bs s =>
    let offs := (chunksOf 4 bs).map leNat
    if !ascends offs || decide (n < offs.getLastD 0) then { st := 0x12, s := s }
    else x.indexList n s fun is s =>
      let work := (List.range (zN2 b)).map (fun k =>
        let lo := offs.getD k 0
        let seg := (is.drop lo).take (offs.getD (k + 1) 0 - lo)
        (zDst b + k * zRow b, (none : Option Nat),
          seg.filterMap (fun i => match i with | .row r => some (zSrc b + r * zStride b) | _ => none)))
      x.reduceRows work s fun out s =>
        x.writes rowsDone out 0 s fun s => { st := 0, out := zN2 b, s := s }

/-! ### Key sets (R167) -/

/-- Whether a set is strictly ascending. -/
def strictlyAscends (rank : List Byte → Int) : List (List Byte) → Bool
  | a :: b :: r => decide (rank a < rank b) && strictlyAscends rank (b :: r)
  | _ => true

/-- A key-set operation: what it keeps of A and adds of B (R167). -/
def setRun (keepA : Bool → Bool) (addB : Bool) (x : TslCtx) (n : Nat) (s : State) : TslRes :=
  let b := x.b
  let rf := zRfmt b
  let r := rfmtBytes rf
  let rank := keyRank (zKord b) rf
  x.read (zSrc b) (n * r) s fun abs s => x.read (zSrc2 b) (zN2 b * r) s fun bbs s =>
    let a := chunksOf r abs
    let c := chunksOf r bbs
    if !strictlyAscends rank a || !strictlyAscends rank c then { st := 0x12, s := s }
    else
      let ka := a.map rank
      let kc := c.map rank
      let fromA := a.filter (fun e => keepA (kc.contains (rank e)))
      let fromB := if addB then c.filter (fun e => !ka.contains (rank e)) else []
      let out := sortBy (fun p q => decide (rank p ≤ rank q)) (fromA ++ fromB)
      x.write (zDst b) r out.flatten s fun s => { st := 0, out := out.length, s := s }

/-! ### The command (R160, R161, R168, R182) -/

/-- A failure recorded in ZG_TSL_LAST, with its event (R182, R183). -/
def tslFail (d c op kind q : Nat) (part : Option Nat) (s : State) : State :=
  let seq := (s.rfld (ZG_TSL_LAST d) 49 36 + 1) % 16384
  let v := seq * 2 ^ 36 + c * 2 ^ 30 + op * 2 ^ 26 + kind * 2 ^ 22 + q % 65536
  let s := logRegister 4 1 d v s.now (s.setRegN (ZG_TSL_LAST d) v)
  raiseEvent { cls := 4, code := 1, src := d, queue := q % 65536, part := part, data := v, log := false } s

/-- KIND of ZG_TSL_LAST for a status; 0 for one it does not record. -/
def tslKind (st : Nat) : Nat :=
  if st = 0x12 then 1 else if st = 0x11 then 2 else if st = 0x30 then 3 else if st = 3 then 4 else 0

/-- TEASEL_RESULT: the 32-byte result record, where it has a place (R161); BEATS depends on bank traffic and is a free value (log
entry 4). -/
def tslResult (x : TslCtx) (epoch : Nat) (fits : Bool) (r : TslRes) : State :=
  if !fits then r.s
  else
    let (beats, s) := r.s.draw
    sramPut x.d x.c (x.base + zRes x.b)
      (natLE 4 r.out ++ natLE 4 r.ovf ++ natLE 4 r.oor ++ natLE 4 r.null ++ natLE 4 epoch ++ natLE 2 r.st ++ zeros 2 ++ natLE 8 beats) s

/-- A slot of a cluster. -/
def State.slot (s : State) (d c k : Nat) : TslSlot := cget {} (s.clus d c).slots k

/-- Replace a slot. -/
def State.setSlot (s : State) (d c k : Nat) (x : TslSlot) : State :=
  s.updClus d c fun y => { y with slots := cset {} y.slots k x }

/-- What a failed operation leaves: each 64-byte block it had written holds its previous or its new contents, which the spec
leaves open: a free value (R168). -/
def TslCtx.leaves (x : TslCtx) (old : State) (r : TslRes) : TslRes :=
  if r.st = 0 then r
  else
    let (v, s) := r.s.draw
    let a := old.clus x.d x.c
    let b := s.clus x.d x.c
    let back := ((a.sram ++ b.sram).map Prod.fst).filter (fun k =>
      cget 0 a.sram k != cget 0 b.sram k && Config.freeValue (v + k / 64) % 2 == 0)
    { r with s := s.updClus x.d x.c fun y => { y with
        sram := back.foldl (fun m k => cset 0 m k (cget 0 a.sram k)) y.sram,
        sramErrs := back.foldl (fun m k => cset 0 m (k / 8) (cget 0 a.sramErrs (k / 8))) y.sramErrs } }

/-- N of an operation in a cluster: from the descriptor or from SRAM (R158). -/
def tslCount (x : TslCtx) (s : State) : Option Nat × State :=
  if zNSrc x.b then
    match x.get (zN x.b) 4 s with
    | (some bs, s) => (some (leNat bs), s)
    | (none, s) => (none, s)
  else (some (zN x.b), s)

/-- An operation ended in a cluster: its record, its counters and events. -/
def settleTsl (x : TslCtx) (q epoch : Nat) (fits : Bool) (r : TslRes) : State :=
  let d := x.d
  let c := x.c
  let s := tslResult x epoch fits r
  let s := if r.oor = 0 then s else bump (ZG_TSL_OOR d) r.oor s
  let s := if r.st = 0 then bump (ZG_TSL_OPS d) 1 s
    else if tslKind r.st = 0 then s else tslFail d c (zOp x.b) (tslKind r.st) q x.part s
  if r.oor ≠ 0 ∧ zStrict x.b = false then
    raiseEvent { cls := 4, code := 3, src := d, queue := q % 65536, part := x.part, log := false,
                 data := c + zOp x.b * 64 + r.oor * 1024 } s
  else s

/-- The status of work that leaves the bound of its SRAM, and what is recorded: an owner's command is invalid, borrowed work is
denied (R130, R131). -/
def leavesBound (q seq d c : Nat) (s : State) : Nat × State :=
  if (s.unitLoan q seq).isSome then (3, refuseCarve q seq d c s) else (1, s)

/-- The operation in one cluster: its status and the state after. -/
def tslCluster (q seq : Nat) (f : Flight) (d c : Nat) (run : TslCtx → Nat → State → TslRes) (s : State) : Nat × State :=
  let b := dBody f.desc
  let (base, size) := s.sramWindow q seq d
  let k := zSlot b
  let slot := s.slot d c k
  let t := slotTable d c k
  let mapped := zMap b && decide (zOp b ≤ 8)
  let off := if f.bankOf t = 0 then slot.off0 else slot.off1
  let x : TslCtx := { b := b, d := d, c := c, base := base, part := s.queuePart q, reduced := s.reduced d,
                      map := if mapped then some (off, slot.nkeys) else none }
  let finish := fun (fits : Bool) (r : TslRes) => (r.st, settleTsl x q (if mapped then f.epochOf t else 0) fits r)
  match tslCount x s with
  | (none, s) => finish (recordFits b none size) { st := 0x30, s := s }
  | (some n, s) =>
    let fits := recordFits b (some n) size
    if tslBound b n size = 1 ∨ (mapped = true ∧ slot.defined = false) then finish fits { st := 1, s := s }
    else if tslBound b n size = 2 then
      let (st, s) := leavesBound q seq d c s
      finish fits { st := st, s := s }
    else finish fits (x.leaves s (run x n (pmcCount d 3 x.part n s)))

/-- The operation in every named cluster, each failure with its number. -/
def tslClusters (q seq : Nat) (f : Flight) (d first : Nat) (all : List Nat) (run : TslCtx → Nat → State → TslRes) :
    List Nat → State → List (Nat × Nat) × State
  | [], s => ([], s)
  | c :: cs, s =>
    let (st, s) := tslCluster q seq f d c run s
    let (rest, s) := tslClusters q seq f d first all run cs s
    (if st = 0 then rest else (relCluster first all c, st) :: rest, s)

/-- Whether a dispatched command of queue `q` names one of some clusters. -/
def Flight.names (f : Flight) (q : Nat) (cs : List Nat) (s : State) : Bool :=
  match namedClusters f.desc with
  | some (first, n) => (s.cmdClusters q f.seq first n).any (fun c => cs.contains c)
  | none => false

/-- Whether a slot of one of some clusters has a copy-back to make for a flip of before `order` that `p` selects (R175). -/
def copyAhead (d order : Nat) (cs : List Nat) (p : CopyBack → Bool) (s : State) : Bool :=
  cs.any (fun c => (s.clus d c).slots.any (fun x =>
    (s.bank (slotTable d c x.1)).copyPending && !x.2.shadowBad && x.2.copyBy.any (fun y => p y && decide (y.order < order))))

/-- Whether the lane that a Teasel operation takes in the engines of its clusters still has work dispatched before it: an
operation of that lane, and in the background lane a copy-back (R169). Flips are left to R181 (log entry 63). -/
def laneAhead (q order : Nat) (back : Bool) (cs : List Nat) (s : State) : Bool :=
  let d := (s.queue q).die
  s.host.queues.any (fun p => !isAdmin p.1 && p.2.die == d && p.2.flights.any (fun f =>
    f.ended.isNone && f.heldEnd.isNone && decide (f.order < order) && dOpc f.desc == 0x30 && decide (zOp (dBody f.desc) ≤ 10)
      && decide (9 ≤ zOp (dBody f.desc)) == back && f.names p.1 cs s))
    || (back && copyAhead d order cs (fun _ => true) s)

/-- Whether a flip waits for its turn: for a flip dispatched before it on the die, and for the background work of its own queue
in the clusters it names (R181). -/
def flipAhead (q order : Nat) (cs : List Nat) (s : State) : Bool :=
  let d := (s.queue q).die
  s.host.queues.any (fun p => !isAdmin p.1 && p.2.die == d && p.2.flights.any (fun f =>
    f.ended.isNone && f.heldEnd.isNone && decide (f.order < order) && (dOpc f.desc == 0x31 ||
      (p.1 == q && dOpc f.desc == 0x30 && decide (9 ≤ zOp (dBody f.desc)) && decide (zOp (dBody f.desc) ≤ 10) && f.names q cs s))))
    || copyAhead d order cs (fun y => y.queue == q) s

/-- The status of the checks of a Teasel body that come before those of R128: the body's own, and that of its regions where the
descriptor gives N (R128, R131, R160). -/
def tslEarly (q seq : Nat) (b : List Byte) (s : State) : Nat :=
  let size := (s.sramWindow q seq (s.queue q).die).2
  let bound := if zNSrc b then (if size < zN b + 4 then 2 else 0) else tslBound b (zN b) size
  if checkTeasel b s ≠ 0 then checkTeasel b s
  else if bound = 2 then (leavesBound q seq (s.queue q).die 0 s).1 else bound

/-- A Teasel command with operation `op`, or with a reserved one, runs in every named cluster, once `ready` holds (R158, R160,
R168). -/
def teaselOp (q seq op : Nat) (s : State) (ready : List Nat → State → Bool) (run : TslCtx → Nat → State → TslRes) : State :=
  withFlight q seq 0x30 s fun f =>
    let b := dBody f.desc
    let d := (s.queue q).die
    let first := byteAt b 2
    let cs := s.cmdClusters q seq first (byteAt b 3)
    let early := tslEarly q seq b s
    if zOp b ≤ 10 ∧ (zOp b ≠ op ∨ laneAhead q f.order (decide (9 ≤ op)) cs s = true) then s
    else if early = 3 then
      let c := cs.headD 0
      endCommand q seq 3 0 (tslFail d c (zOp b) 4 q (s.queuePart q) (leavesBound q seq d c s).2)
    else if early ≠ 0 then endCommand q seq early 0 s
    else match checkClusters q seq first (byteAt b 3) s with
      | (0, _) =>
        if !ready cs s then s
        else
          let (fails, s) := tslClusters q seq f d first cs run cs s
          endCommand q seq ((fails.head?.map Prod.snd).getD 0) ((fails.head?.map Prod.fst).getD 0) s
      | (st, t) =>
        endCommand q seq st 0 (if st = 3 then tslFail d ((s.notOwned q seq cs).getD (cs.headD 0)) op 4 q (s.queuePart q) t else t)

/-- Foreground operations never wait (R169). -/
def noWait (_ : List Nat) (_ : State) : Bool := true

/-- SORT (R162). -/
def execSort (q : Qn) (seq : Word64) (s : State) : Out := .next (teaselOp q seq.toNat 0 s noWait sortRun)

/-- BUCKET (R163). -/
def execBucket (q : Qn) (seq : Word64) (s : State) : Out := .next (teaselOp q seq.toNat 1 s noWait bucketRun)

/-- GATHER (R164). -/
def execGather (q : Qn) (seq : Word64) (s : State) : Out := .next (teaselOp q seq.toNat 2 s noWait gatherRun)

/-- SCATTER (R164). -/
def execScatter (q : Qn) (seq : Word64) (s : State) : Out := .next (teaselOp q seq.toNat 3 s noWait scatterRun)

/-- SCATTER_ADD (R165). -/
def execScatterAdd (q : Qn) (seq : Word64) (s : State) : Out := .next (teaselOp q seq.toNat 4 s noWait scatterAddRun)

/-- SEGREDUCE (R165). -/
def execSegreduce (q : Qn) (seq : Word64) (s : State) : Out := .next (teaselOp q seq.toNat 5 s noWait segreduceRun)

/-- UNION (R167). -/
def execUnion (q : Qn) (seq : Word64) (s : State) : Out := .next (teaselOp q seq.toNat 6 s noWait (setRun (fun _ => true) true))

/-- INTERSECT (R167). -/
def execIntersect (q : Qn) (seq : Word64) (s : State) : Out := .next (teaselOp q seq.toNat 7 s noWait (setRun id false))

/-- DIFF (R167). -/
def execDiff (q : Qn) (seq : Word64) (s : State) : Out := .next (teaselOp q seq.toNat 8 s noWait (setRun not false))

/-! ### Map slots (R178 to R181) -/

/-- TBLDEF in one cluster: the slot is defined and its banked state reset (R178). -/
def tbldefRun (x : TslCtx) (_ : Nat) (s : State) : TslRes :=
  let k := zSlot x.b
  let s := s.setSlot x.d x.c k { defined := true, off0 := zSrc x.b, off1 := zSrc2 x.b, nkeys := zN2 x.b }
  { st := 0, s := s.setBank (slotTable x.d x.c k) {} }

/-- TBLDEF waits until both reader counts of the slot are 0 in every named cluster (R178). -/
def tbldefReady (d k : Nat) (cs : List Nat) (s : State) : Bool :=
  cs.all (fun c => (s.bank (slotTable d c k)).readers0 == 0 && (s.bank (slotTable d c k)).readers1 == 0)

/-- TBLDEF (R178). -/
def execTbldef (q : Qn) (seq : Word64) (s : State) : Out :=
  .next <| match s.flight q seq.toNat with
    | some f => teaselOp q seq.toNat 9 s (tbldefReady (s.queue q).die (zSlot (dBody f.desc))) tbldefRun
    | none => s

/-- TBLWRITE in one cluster: entries of the shadow bank (R178). A slot that is not defined gives the state-conflict status
(DEDUCED, log entry 13); a write that covers every key clears SHADOW_BAD and COPY_PENDING (R181). -/
def tblwriteRun (x : TslCtx) (n : Nat) (s : State) : TslRes :=
  let b := x.b
  let k := zSlot b
  let slot := s.slot x.d x.c k
  let t := slotTable x.d x.c k
  if !slot.defined then { st := 9, s := s }
  else
    let r := rfmtBytes (zRfmt b)
    x.read (zSrc b) (n * r) s fun bs s =>
      let es := (chunksOf r bs).zipIdx.map (fun p =>
        if zRfmt b = 0 then (zN2 b + p.2, leNat p.1) else (getLE p.1 0 4, getLE p.1 4 4))
      let good := es.filter (fun e => decide (e.1 < slot.nkeys))
      let off := if (s.bank t).shadow = 0 then slot.off0 else slot.off1
      let places := es.zipIdx.filterMap (fun e => if e.1.1 < slot.nkeys then some e.2 else none)
      let bad := fun (j : Nat) (s : State) => ({ st := 0x30, out := j, oor := places.getD j 0 - j, s := s } : TslRes)
      x.writes bad (good.map (fun e => (off + 4 * e.1, natLE 4 e.2))) 0 s fun s =>
        let whole := (List.range slot.nkeys).all (fun i => good.any (fun e => e.1 == i))
        let s := s.setBank t { s.bank t with copyPending := (s.bank t).copyPending && !(slot.shadowBad && whole) }
        let s := if whole then s.setSlot x.d x.c k { slot with shadowBad := false } else s
        { st := 0, out := good.length, oor := es.length - good.length, s := s }

/-- Whether a shadow write of a slot would wait: for bound readers or a copy-back; a copy-back that met an uncorrectable error no
longer holds it (R173, R181). -/
def slotBlocked (d c k : Nat) (s : State) : Bool :=
  let b := s.bank (slotTable d c k)
  (s.slot d c k).defined && (b.readers b.shadow != 0 || (b.copyPending && !(s.slot d c k).shadowBad))

/-- A TBLWRITE runs once no named slot holds it (R173). -/
def tblwriteReady (d k : Nat) (cs : List Nat) (s : State) : Bool := cs.all (fun c => !slotBlocked d c k s)

/-- WRITE_WAIT of a slot: a dispatched TBLWRITE of it waits under R173 (R183). -/
def slotWriteWaits (d c k : Nat) (s : State) : Bool :=
  slotBlocked d c k s && s.host.queues.any (fun p => !isAdmin p.1 && p.2.die == d && p.2.flights.any (fun f =>
    f.ended.isNone && f.heldEnd.isNone && dOpc f.desc == 0x30 && zOp (dBody f.desc) == 10 && zSlot (dBody f.desc) == k
      && f.names p.1 [c] s))

/-- A TBLWRITE as its command or its released shadow write runs it (R173, R178). -/
def tblwrite (q seq : Nat) (s : State) : State :=
  match s.flight q seq with
  | some f => teaselOp q seq 10 s (tblwriteReady (s.queue q).die (zSlot (dBody f.desc))) tblwriteRun
  | none => s

/-- TBLWRITE (R178). -/
def execTblwrite (q : Qn) (seq : Word64) (s : State) : Out := .next (tblwrite q seq.toNat s)

/-- Flip body (R180). -/
def checkFlip (b : List Byte) (s : State) : Nat :=
  failIf (decide (64 ≤ byteAt b 0) || decide (128 ≤ byteAt b 1) || getLE b 2 2 == 0 || decide (4 ≤ byteAt b 4) || !zeroAt b 5 3
    || !zeroAt b 12 20 || s.clusterRangeBad (byteAt b 0) (byteAt b 1)) 1

/-- A refused flip: counted, recorded, its event (R181). -/
def refuseFlip (d c kind q : Nat) (s : State) : State :=
  tslFail d c 15 kind q (s.queuePart q) (if kind = 3 then s else bump (ZG_TSL_EPOCH_FAIL d) 1 s)

/-- One slot flips: ACTIVE and EPOCH change, and with COPYBACK the flip asks for a copy-back (R174, R175). -/
def flipSlot (q order d c k : Nat) (copy : Bool) (s : State) : State :=
  let s := s.setBank (slotTable d c k) ((s.bank (slotTable d c k)).flip copy)
  if copy then s.setSlot d c k { s.slot d c k with copyBy := some { queue := q, part := s.queuePart q, order := order } } else s

/-- TEASEL_FLIP: checks every named slot, then flips all of them in each named cluster (R174, R181). -/
def execTeaselFlip (q : Qn) (seq : Word64) (s : State) : Out :=
  .next <| withFlight q seq.toNat 0x31 s fun f =>
    let b := dBody f.desc
    let d := (s.queue q).die
    let bad := checkFlip b s
    let cs := s.cmdClusters q seq.toNat (byteAt b 0) (byteAt b 1)
    let ks := (List.range 16).filter (fun k => bitOf (getLE b 2 2) k)
    let all := (cs.map (fun c => ks.map (fun k => (c, k)))).flatten
    let rel := relCluster (byteAt b 0) cs
    if flipAhead q f.order cs s then s
    else if bad ≠ 0 then endCommand q seq.toNat bad 0 s
    else match checkClusters q seq.toNat (byteAt b 0) (byteAt b 1) s with
      | (0, _) =>
        match all.find? (fun p => !(s.slot d p.1 p.2).defined) with
        | some p => endCommand q seq.toNat 9 (rel p.1) (refuseFlip d p.1 6 q s)
        | none =>
          match all.find? (fun p => bitOf (byteAt b 4) 0 && (s.bank (slotTable d p.1 p.2)).epoch != getLE b 8 4) with
          | some p => endCommand q seq.toNat 8 (rel p.1) (refuseFlip d p.1 5 q s)
          | none =>
            match all.find? (fun p => (s.slot d p.1 p.2).shadowBad) with
            | some p => endCommand q seq.toNat 0x30 (rel p.1) (refuseFlip d p.1 3 q s)
            | none =>
              if all.any (fun p => (s.bank (slotTable d p.1 p.2)).copyPending) then s
              else
                endCommand q seq.toNat 0 0 (bump (ZG_TSL_FLIPS d) all.length (all.foldl (fun s p => flipSlot q f.order d p.1 p.2
                  (bitOf (byteAt b 4) 1) s) s))
      | (st, t) =>
        endCommand q seq.toNat st 0
          (if st = 3 then tslFail d ((s.notOwned q seq.toNat cs).getD (cs.headD 0)) 15 4 q (s.queuePart q) t else t)

/-- A copy-back met an uncorrectable error: SHADOW_BAD, with COPY_PENDING left set, and event 0x04.0x02 to the ring of the partition
whose queue made the flip (R181, R182). -/
def shadowBad (d c k : Nat) (by_ : CopyBack) (s : State) : State :=
  raiseEvent { cls := 4, code := 2, src := d, alarm := 2, queue := by_.queue % 65536, part := by_.part,
               data := c + k * 64 + (s.bank (slotTable d c k)).epoch * 1024 }
    (s.setSlot d c k { s.slot d c k with shadowBad := true })

/-- The copy-back of a slot: the active bank is copied into the shadow (R175, R181, R182). -/
def slotCopyback (d c k : Nat) (s : State) : State :=
  let t := slotTable d c k
  let b := s.bank t
  let x := s.slot d c k
  let y := x.copyBy.getD { queue := 0xFFFF, part := none, order := 0 }
  if !b.copyPending || x.shadowBad || b.readers b.shadow != 0 then s
  else
    let offs := if b.active = 0 then (x.off0, x.off1) else (x.off1, x.off0)
    match sramRead d c offs.1 (4 * x.nkeys) 4 y.part s with
    | (none, s) => shadowBad d c k y s
    | (some bs, s) =>
      match sramWrite d c offs.2 bs 4 y.part s with
      | (false, s) => shadowBad d c k y s
      | (true, s) => s.setBank t { b with copyPending := false }

end Sys2Proof.Machine
end

