-- ==== Sys2Proof/Machine/ReadOps.lean ====
section
/-! DEFINITION. What a register reads as: values formed at the read, the 4-byte shadow, counters (R536 to R538, R590,
R593, R599). -/
namespace Sys2Proof.Machine

/-! ### Values formed at the read -/

/-- ZG_HPT_STATE and ZG_TOP_ROUTE of a banked table. -/
def bankedReg (b : Banked) : Nat :=
  b.epoch * 2 ^ 32 + b2n b.writeWait * 2 ^ 31 + b2n b.copyPending * 2 ^ 30 + min b.readers1 16383 * 65536
    + min b.readers0 16383 * 4 + b.active

/-- ZG_TSL_SLOT of the slot that ZG_TSL_SEL selects. -/
def slotReg (d : Nat) (s : State) : Nat :=
  let sel := (s.reg (ZG_TSL_SEL d)).toNat
  let c := bitsOf sel 9 4
  let k := bitsOf sel 3 0
  let b := s.bank (slotTable d c k)
  let x := s.slot d c k
  b.epoch * 2 ^ 32 + b2n x.defined * 2 ^ 31 + b.active * 2 ^ 30 + b2n x.shadowBad * 2 ^ 29 + b2n b.copyPending * 2 ^ 28
    + b2n (slotWriteWaits d c k s) * 2 ^ 27 + min b.readers1 127 * 2 ^ 20 + min b.readers0 127 * 2 ^ 13

/-- ZG_SRL_STATE: the command in progress, else the oldest that waits for clusters. -/
def srlReg (d : Nat) (s : State) : Nat :=
  let u := s.srlOf d
  let held := min (s.srlHeld d).length 128
  let at_ := fun (q seq phase : Nat) =>
    q % 65536 * 2 ^ 48 + (s.queue q).part * 2 ^ 42 + phase * 2 ^ 39 + min (s.borrowed d q seq).length 64 * 2 ^ 32
  held * 2 ^ 24 + match u.cur, u.aside with
    | some (q, seq), _ => at_ q seq (if (s.flight q seq).any (fun f => f.phase != 3) then 4 else 3)
    | none, a :: _ => at_ a.queue a.seq 5
    | none, [] => 0

/-- Nanoseconds of a period that has not ended. -/
def sinceNs (s : State) (since : Nat) : Nat := s.now - since

/-- The part of a die's time counters that stands in periods not yet ended: ZG_HBM_THR_NS, ZG_COL_PACE_NS, ZG_PWD_THR_NS,
ZG_TRN_LENT_NS, ZG_SRL_BORROW_NS and the freeze times of ZG_MXE. -/
def runningNs (d off : Nat) (s : State) : Nat :=
  let loans := fun (sorrel : Bool) => ((List.range 64).map (fun c =>
    match (s.clus d c).loan with
    | some l => if l.sorrel = sorrel then sinceNs s l.since else 0
    | none => 0)).sum
  let frozen := fun (cause : Nat) => ((List.range 512).map (fun i =>
    match (s.array d (i / 8) (i % 8)).frozen with
    | some (t, k) => if k = cause then sinceNs s t else 0
    | none => 0)).sum
  if off = ZG_HBM_THR_NS d then
    ((List.range 4).map (fun k =>
      if s.rfld (ZG_HBM_STACK d k) 39 38 = 0 then 0 else sinceNs s (cget ({} : Stack) s.hbm.stackSt (d * 4 + k)).readAt)).sum
  else if off = ZG_COL_PACE_NS d then
    ((s.coll.dies.filter (fun p => p.1 % 4 == d && p.2.engaged)).map (fun p => sinceNs s p.2.engagedAt)).sum
  else if off = ZG_PWD_THR_NS d then (if (s.pw d).throttled then sinceNs s (s.pw d).throttleAt else 0)
  else if off = ZG_TRN_LENT_NS d then loans false
  else if off = ZG_SRL_BORROW_NS d then loans true
  else if off = ZG_MXE_FREEZE_FEED_NS d then frozen 0
  else if off = ZG_MXE_FREEZE_BANK_NS d then frozen 1
  else if off = ZG_MXE_FREEZE_GATE_NS d then frozen 2
  else 0

/-- What the register of a slot holds for function `f` at this instant. -/
def liveReg (f slot : Nat) (s : State) : Nat :=
  let v := (cget 0 s.regs (viewKey f slot)).toNat
  if slot = ZG_TIME_NOW then s.now % two64
  else if slot = ZG_HPT_STATE then bankedReg (s.bank (ptTable (s.rfld ZG_HPT_SEL 5 0)))
  else if slot = ZG_TOP_ROUTE then bankedReg (s.bank routeTable)
  else if 0x100000 ≤ slot ∧ slot < 0x200000 then
    let d := (slot - 0x100000) / 0x40000
    if slot = ZG_TSL_SLOT d then slotReg d s
    else if slot = ZG_SRL_STATE d then srlReg d s
    else if slot = ZG_PWD_STATE d then pwdReg d s
    else (v + runningNs d slot s) % two64
  else v

/-! ### The access (R590, R593, R599) -/

/-- Whether a register of the mailbox buffers, where 4-byte accesses stand anywhere (R590). -/
def inMbxBuf (off : Nat) : Bool := decide (0x11000 ≤ off) && decide (off < 0x13000)

/-- What function `f` reads at an offset with a size, before the 4-byte shadow: zero for an access that breaks R590, for an
offset no register occupies, and for a block absent in a virtual function. -/
def plainRead (f off size : Nat) (s : State) : Nat :=
  if (size ≠ 4 ∧ size ≠ 8) ∨ off % size ≠ 0 then 0
  else match blockOf off, descOf off with
    | some b, some r =>
      if f ≠ 0 ∧ b.vf = .absent then 0
      else
        let v := Nat.land (liveReg f (off / 8 * 8) s) (maskOf r (fun a => a != .wo && a != .rsv))
        if size = 8 then v else if off % 8 = 4 then v / 4294967296 else v % 4294967296
    | _, _ => 0

/-- Whether an offset lies in a 64-bit register other than a mailbox buffer, so that 4-byte reads of it follow the shadow
rule (R537, R590). -/
def shadowed (off : Nat) : Bool := !inMbxBuf off && (descOf off).any (·.wide)

/-- Replace the read shadow of a function. -/
def setShadow (f : Nat) (x : Nat × Nat) (s : State) : State :=
  { s with mgt := { s.mgt with shadows := cset (0, 0) s.mgt.shadows f x } }

/-- A read of function `f`: the value, and the shadow it leaves: a read of the low half copies the high half, which the next
read of the high half returns; any other access discards it (R537). -/
def readValue (f off size : Nat) (s : State) : Nat × State :=
  let v := plainRead f off size s
  let sh := cget (0, 0) s.mgt.shadows f
  if size = 4 ∧ off % 4 = 0 ∧ shadowed off = true then
    if off % 8 = 0 then (v, setShadow f (off + 1, plainRead f off 8 s / 4294967296) s)
    else (if sh.1 = off - 4 + 1 then sh.2 else v, setShadow f (0, 0) s)
  else (v, setShadow f (0, 0) s)

/-! ### Counters (R536, R538) -/

/-- Registers with one read-only 64-bit field that hold no count: timestamps, snapshots, sequences, addresses, tables. -/
def notCounters : List Nat := [
  ZG_BEAT_STAMP 0, ZG_FMT_SVC_STAMP 0, ZG_MXE_LAST_NS 0, ZG_HBM_FAULT_VA 0, ZG_D2D_DOWN 0 0, ZG_D2D_LAST_NS 0, ZG_HQ_DB_SEQ,
  ZG_HQ_FETCHED_SEQ, ZG_HQ_DONE_SEQ, ZG_HQ_CMPL_SEQ, ZG_HQ_CQ_CONSUMED, ZG_HQ_SNAP_NS, ZG_HQ_EVT_ASSIGNED, ZG_HQ_EVT_WRITTEN,
  ZG_HQ_EVT_CONSUMED, ZG_MBX_RESP 0, ZG_SYN_DL_NS 0, ZG_COL_LAST_NS 0, ZG_WFN_LAST_NS 0, ZG_TRN_LAST_NS 0, ZG_SRL_LAST_NS 0,
  ZG_INT_ALIVE 0, ZG_INT_LAST_NS 0, ZG_PWR_E_QUEUE, ZG_PWR_E_PART, ZG_PWR_E_PSTAT, ZG_PWR_TRIP_NS, ZG_PWR_LAST_NS,
  ZG_PWD_VTENT 0, ZG_MGT_CREAD_NS, ZG_MGT_LOG_HEAD, ZG_MGT_TRACE_HEAD, ZG_MGT_AUDIT_HEAD, ZG_MGT_AUDIT_FLOOR, ZG_MGT_ROLE 0,
  ZG_BOOT_READY_NS, ZG_BOOT_LAST_NS, ZG_REG_LAST_NS, ZG_REG_LAST_DATA, ZG_TIME_NOW]

/-- Whether an offset lies in a counter register. -/
def isCounter (off : Nat) : Bool :=
  match descOf off with
  | some r => r.fields == [(63, 0, .ro)] && !notCounters.contains r.off
  | none => false

/-- A read of a counter is recorded for its reader: offset, WRAPPED and OVERFLOW, and the instant (R538). -/
def recordCounter (f off : Nat) (s : State) : State :=
  let slot := off / 8 * 8
  let bits := cget 0 s.mgt.ctrBits (viewKey f slot) % 4
  (s.setRegF f ZG_MGT_CREAD (BitVec.ofNat 64 (slot * 2 ^ 32 + bits))).setRegF f ZG_MGT_CREAD_NS (BitVec.ofNat 64 s.now)

/-- A read of a register, a counter's with its record. -/
def readReg (f off size : Nat) (s : State) : Nat × State :=
  let (v, s) := readValue f off size s
  (v, if isCounter off && (size == 4 || size == 8) && off % size == 0 then recordCounter f off s else s)

/-- The reader sees a value. -/
def answerRead (f off v : Nat) (s : State) : State := { s with mgt := { s.mgt with answer := some (f, off, v) } }

/-- The BUSY value: all ones in every byte read (R533). -/
def busyValue (size : Nat) : Nat := 2 ^ (8 * size) - 1

/-- LAST_BUSY of a function (R533). -/
def setLastBusy (f : Nat) (busy : Bool) (s : State) : State :=
  s.setRegF f ZG_MGT_EMU (setFld (s.regF f ZG_MGT_EMU) 0 0 (b2n busy))

/-- An emulated read is answered BUSY: LAST_BUSY, and counted (R533). -/
def answerBusy (f off size : Nat) (s : State) : State :=
  answerRead f off (busyValue size) (bump ZG_MGT_BUSY_READS 1 (setLastBusy f true s))

/-- B0 answers an emulated read (R533, R592). -/
def answerEmu (r : EmuRead) (s : State) : State :=
  let s := setLastBusy r.fn false s
  match r.capture with
  | some v => answerRead r.fn r.off v s
  | none => let (v, s) := readReg r.fn r.off r.size s; answerRead r.fn r.off v s

/-- B0 answers the held reads with no write of their function ahead (R533). -/
def answerHeld (s : State) : State :=
  if s.rfld ZG_MGT_STATE 2 0 ≠ 1 then s
  else
    let go := s.mgt.emuReads.filter (fun r => r.behind == 0)
    go.foldl (fun s r => answerEmu r s) { s with mgt := { s.mgt with emuReads := s.mgt.emuReads.filter (fun r => r.behind != 0) } }

end Sys2Proof.Machine
end

