-- ==== Sys2Proof/Machine/Betony.lean ====
section
/-! DEFINITION. Emulated registers, counters, logs, traces and alarms (18_betony_management_security.md R533 to R546). -/
namespace Sys2Proof.Machine

/-! ### Emulated registers (R533, R590 to R592) -/

/-- Whether an access of function `f` is one of an emulated register, which B0 answers (R533, R597). -/
def reachesB0 (f off size : Nat) : Bool :=
  (size == 4 || size == 8) && off % size == 0 && !isHw off && (descOf off).isSome
    && (blockOf off).any (fun b => f == 0 || b.vf != .absent)

/-- Whether B0 answers nothing: Betony is HALTED, or the package has not come to READY (R535, R575, R597). -/
def State.b0Absent (s : State) : Bool := s.rfld ZG_MGT_STATE 2 0 == 3 || !s.ready

/-- A read by function `f` reaches the hub: hub hardware answers its own registers; B0 answers an emulated one at once, or
it is held behind the function's queued writes or a restart; with 16 held it is BUSY (R533, R591, R592). -/
def readAccess (f off size : Nat) (s : State) : State :=
  if !reachesB0 f off size then
    let (v, s) := readReg f off size s
    answerRead f off v s
  else if s.b0Absent || decide (16 ≤ s.mgt.emuReads.length) then answerBusy f off size s
  else
    let (cap, s) : Option Nat × State :=
      if isCounter off then (let (v, s) := readReg f off size s; (some v, s)) else (none, s)
    let r : EmuRead := { fn := f, off := off, size := size, capture := cap, at_ := s.now,
                         behind := (s.mgt.emuWrites.filter (fun w => w.fn == f)).length }
    answerHeld { s with mgt := { s.mgt with emuReads := s.mgt.emuReads ++ [r] } }

/-- What the reader's answer names: an offset of BAR0, 2^21 and an offset of BAR2, or 2^22 for configuration space. -/
def readPlace : HostRead → Nat
  | .bar0 off => off.toNat
  | .bar2 off => 0x200000 + off.toNat
  | .config _ => 0x400000

/-- EMU_READ: a read of a BAR0 register; one of BAR2 or of configuration space never reaches Betony (R249, R253, R533, R600). -/
def execEmuRead (f : Func) (what : HostRead) (size : Fin 9) (s : State) : Out :=
  .next <|
    if s.hasFn f = false then s
    else match what with
    | .bar0 off => readAccess f off.toNat size s
    | .bar2 off => answerRead f (readPlace what) (bar2Read f off.toNat size s) s
    | .config x => answerRead f (readPlace what) (configValue f x s) s

/-- An overrun of the bound of R533 is counted. -/
def countOverrun (s : State) : State := windowEvent 3 (bump ZG_MGT_OVERRUNS 1 s)

/-- EMU_READ_TIMEOUT: the reads held for 20 µs complete with the BUSY value (R533). -/
def execEmuReadTimeout (s : State) : Out :=
  .next <|
    let late := s.mgt.emuReads.filter (fun r => decide (r.at_ + 20000 ≤ s.now))
    late.foldl (fun s r => countOverrun (answerBusy r.fn r.off r.size s))
      { s with mgt := { s.mgt with emuReads := s.mgt.emuReads.filter (fun r => !decide (r.at_ + 20000 ≤ s.now)) } }

/-! ### Counters (R536 to R538) -/

/-- COUNTER_READ: a counter is read, at one instant, and the read recorded for its reader (R536 to R538). -/
def execCounterRead (f : Func) (off : BitVec 21) (size : Fin 9) (s : State) : Out :=
  .next (if isCounter off.toNat && s.hasFn f then readAccess f off.toNat size s else s)

/-- The bits written 1 of WRAPPED and OVERFLOW clear at the counter that CNT_OFF names (R538). -/
def creadClear (old new : Nat) (s : State) : State :=
  let key := viewKey 0 (bitsOf old 63 32)
  let bits := cget 0 s.mgt.ctrBits key
  { s with mgt := { s.mgt with ctrBits := cset 0 s.mgt.ctrBits key (Nat.land bits (3 - new % 4)) } }

/-- CREAD_CLEAR: the physical function writes 1 to WRAPPED or OVERFLOW of ZG_MGT_CREAD (R538). -/
def execCreadClear (f : Func) (value : Word64) (s : State) : Out :=
  .next (guardedWrite f ZG_MGT_CREAD 8 value.toNat s creadClear)

/-- A selection that has been written waits for a boundary; one before the boundary replaces it (R539). -/
def pmcPending (d k : Nat) (s : State) : State :=
  let s := s.setRfld (ZG_PMC_SEL d k) 31 31 1
  { s with mgt := { s.mgt with pmcAt := cset 0 s.mgt.pmcAt (d * 8 + k) (s.replicaOf d) } }

/-- PMC_SELECT: a write of ZG_PMC_SELk (R539). -/
def execPmcSelect (f : Func) (die : Die) (k : Fin 8) (value : Word32) (s : State) : Out :=
  .next <| guardedWrite f (ZG_PMC_SEL die k) 4 value.toNat s fun _ _ s => pmcPending die k s

/-- A pending selection takes effect at a boundary: the final count and the old selection are kept, and the counter starts
again (R539). -/
def pmcTake (d k boundary : Nat) (s : State) : State :=
  let key := d * 8 + k
  let sel := (s.reg (ZG_PMC_SEL d k)).toNat
  if !bitOf sel 31 || decide (boundary < cget 0 s.mgt.pmcAt key) then s
  else
    let old := cget 0 s.mgt.pmcSel key
    let bits := cget 0 s.mgt.ctrBits (ZG_PMC_CNT d k)
    let s := s.setReg (ZG_PMC_FINAL d k) (s.reg (ZG_PMC_CNT d k))
    let s := s.setRegN (ZG_PMC_FINFO d k)
      (old % 256 * 2 ^ 56 + bitsOf old 14 14 * 2 ^ 55 + bitsOf old 13 8 * 2 ^ 49 + boundary % 2 ^ 48)
    let s := zeroCtr (ZG_PMC_CNT d k) (s.setRegN (ZG_PMC_SEL d k) (sel % 2 ^ 31))
    { s with mgt := { s.mgt with pmcSel := cset 0 s.mgt.pmcSel key (sel % 2 ^ 15),
                                 ctrBits := cset 0 s.mgt.ctrBits (ZG_PMC_FINAL d k) bits } }

/-- PMC_BOUNDARY: the last whole microsecond of the die's replica is a snapshot boundary (R539). -/
def execPmcBoundary (die : Die) (s : State) : Out :=
  .next ((List.range 8).foldl (fun s k => pmcTake die k (s.replicaOf die / 1000 * 1000) s) s)

/-! ### Logs and traces (R540, R543, R544) -/

/-- The event a slot stands for, as its latest occurrence left it. -/
def alarmEv (slot : Nat) (a : Alarm) : Ev :=
  { cls := slot / 1280 + 1, code := slot / 5 % 256, src := slot % 5, queue := a.queue, data := a.data, alarm := a.severity,
    part := if 128 ≤ a.part then some (a.part % 64) else none }

/-- Room has returned to the log engine: the first slot with NOTIFY_PENDING sends its notice (R546). -/
def sendPending (s : State) : State :=
  match s.mgt.alarms.find? (fun p => p.2.pending.isSome) with
  | some (k, a) =>
    if s.logRoom then
      alarmNotice (alarmEv k a) a.count (a.pending == some true) (s.setAlarm k { a with pending := none, noticeAt := s.now, since := 0 })
    else s
  | none => s

/-- LOG_RECORD_WRITE: the management writer writes the oldest log record to its slot of the log ring; with no log record
waiting, the oldest trace record to its slot of the trace buffer; a notice that waited for room in the log engine is sent (R540,
R541, R543, R544, R546). -/
def execLogRecordWrite (s : State) : Out :=
  .next <|
    if s.hubLost 0 then s else
    match s.mgt.logFifo, s.mgt.traceFifo with
    | r :: rs, _ =>
      sendPending (paWrite (mgmtBase 0 + getLE r 0 8 % 1048576 * 64) r { s with mgt := { s.mgt with logFifo := rs } })
    | [], t :: ts =>
      let n := (s.reg ZG_MGT_TRACE_HEAD).toNat + 1
      let s := s.setRegN ZG_MGT_TRACE_HEAD n
      paWrite (mgmtBase 0 + 0x4000000 + n % 8388608 * 32) t { s with mgt := { s.mgt with traceFifo := ts } }
    | [], [] => s

/-- A trace record (R544). -/
def traceBytes (now tp src occ arg0 arg1 : Nat) : List Byte :=
  natLE 8 now ++ natLE 2 tp ++ natLE 1 src ++ [0] ++ natLE 4 occ ++ natLE 8 arg0 ++ natLE 8 arg1

/-- TRACE_OCCURRENCE: an occurrence of a trace point: one in every 2^S of an enabled one is kept, the first among them
(R544). -/
def execTraceOccurrence (tp : Fin 4096) (src : BitVec 7) (arg0 arg1 : Word64) (s : State) : Out :=
  .next <|
    let x := cget ({} : TracePoint) s.mgt.traces tp
    if !x.enable then s
    else
      let s1 := { s with mgt := { s.mgt with traces := cset {} s.mgt.traces tp { x with occ := x.occ + 1 } } }
      if x.occ % 2 ^ x.shift ≠ 0 then bump ZG_MGT_TR_SAMPLED 1 s1
      else if 4096 ≤ s.mgt.traceFifo.length then windowEvent 0x0A (bump ZG_MGT_TR_DROP 1 s1)
      else
        let r := traceBytes s.now tp src.toNat ((x.occ + 1) % 4294967296) arg0.toNat arg1.toNat
        { s1 with mgt := { s1.mgt with traceFifo := s.mgt.traceFifo ++ [r] } }

/-! ### Alarms (R545, R546) -/

/-- ALARM_OCCURRENCE: an occurrence of an alarm of class `cls` + 1 and severity `sev` + 1 (R546). -/
def execAlarmOccurrence (cls : Fin 15) (code : Byte) (src : Fin 5) (data : Word64) (queue : Option (Fin 65536)) (part : Option Part)
    (sev : Fin 3) (s : State) : Out :=
  .next <| alarmOccur { cls := cls + 1, code := code.toNat, src := src, data := data.toNat,
                        queue := (queue.map Fin.val).getD 65535, part := part.map Fin.val, alarm := sev + 1 } s

/-- ALARM_NOTICE_REPEAT: ACTIVE alarms with further occurrences send a notice with COALESCED set, at most once in 100 ms
(R546). -/
def execAlarmNoticeRepeat (s : State) : Out :=
  .next <|
    let due := s.mgt.alarms.filter (fun p => p.2.active && p.2.since != 0 && p.2.pending.isNone && decide (p.2.noticeAt + 100000000 ≤ s.now))
    due.foldl (fun s p =>
      alarmNotice (alarmEv p.1 p.2) p.2.count true (s.setAlarm p.1 { p.2 with noticeAt := s.now, since := 0 })) s

/-- The 64 bytes of an alarm record (R545). -/
def alarmBytes (slot : Nat) (a : Alarm) : List Byte :=
  withCheck (natLE 8 a.firstNs ++ natLE 8 a.lastNs ++ natLE 8 a.clearNs ++ natLE 4 a.count ++ natLE 1 (slot / 1280 + 1)
    ++ natLE 1 (slot / 5 % 256) ++ natLE 1 (slot % 5) ++ natLE 1 (b2n a.active * 128 + b2n a.pending.isSome * 64 + a.severity) ++ natLE 8 a.data
    ++ natLE 2 a.queue ++ natLE 1 a.part ++ zeros 19)

/-! ### Management admin commands (R560) -/

/-- FIRST, COUNT and DST of the management admin body. -/
def mFirst (b : List Byte) : Nat := getLE b 0 8
/-- COUNT. -/
def mCount (b : List Byte) : Nat := getLE b 8 4
/-- DST. -/
def mDst (b : List Byte) : Nat := getLE b 16 8

/-- Checks of a management admin command: its queue, COUNT, reserved fields, DST (R560). -/
def checkMgt (q : Nat) (b : List Byte) (dst : Bool) : Nat :=
  firstFail [failIf (q != 65536) 3,
    failIf (mCount b == 0 || decide (65536 < mCount b) || bitOf (byteAt b 12) 7 || !zeroAt b 13 3 || !zeroAt b 24 8
      || (dst && mDst b % 64 != 0)) 1]

/-- Log record `n`, while its slot holds it and can be read (R205, R543). -/
def logRecord (n : Nat) (s : State) : Option (List Byte) × State :=
  match paRead (mgmtBase 0 + n % 1048576 * 64) 64 s with
  | (some r, s) => (if n ≠ 0 ∧ getLE r 0 8 = n then some r else none, s)
  | (none, s) => (none, s)

/-- Trace record `n`, counting from 1, while its slot holds it and can be read (R205, R544). -/
def traceRecord (n : Nat) (s : State) : Option (List Byte) × State :=
  let head := (s.reg ZG_MGT_TRACE_HEAD).toNat
  if n ≠ 0 ∧ n ≤ head ∧ head < n + 8388608 then paRead (mgmtBase 0 + 0x4000000 + n % 8388608 * 32) 32 s else (none, s)

/-- A copy of audit record `n` on a die. -/
def auditCopy (d n : Nat) (s : State) : Option (List Byte) × State :=
  match paRead (auditAddr d n) 128 s with
  | (some r, s) => (if getLE r 0 8 = n then some r else none, s)
  | (none, s) => (none, s)

/-- Audit record `n`, while it can be read, from either copy (R205, R557 to R559). -/
def auditRecord (n : Nat) (s : State) : Option (List Byte) × State :=
  if n ≠ 0 ∧ (s.reg ZG_MGT_AUDIT_FLOOR).toNat ≤ n ∧ n ≤ (s.reg ZG_MGT_AUDIT_HEAD).toNat then
    match auditCopy 1 n s with
    | (some r, s) => (some r, s)
    | (none, s) => auditCopy 2 n s
  else (none, s)

/-- Records read one after another. -/
def readRecords (held : Nat → State → Option (List Byte) × State) : List Nat → State → List (Option (List Byte)) × State
  | [], s => ([], s)
  | n :: ns, s =>
    let (r, s) := held n s
    let (rs, s) := readRecords held ns s
    (r :: rs, s)

/-- A management read: the records numbered from FIRST that `held` gives go to the host one after another; DETAIL counts those
skipped (R560). -/
def mgtRead (q seq opc : Nat) (s : State) (held : Nat → State → Option (List Byte) × State) (skipped : Nat → Bool) : State :=
  withAdmin q seq opc s fun f =>
    let b := dBody f.desc
    let bad := checkMgt q b true
    if bad ≠ 0 then endCommand q seq bad 0 s
    else if (s.fn 0).bme = false then s
    else
      let ns := (List.range (mCount b)).map (· + mFirst b)
      let (rs, s) := readRecords held ns s
      let lost := ((ns.zip rs).filter (fun p => p.2.isNone && skipped p.1)).length
      endCommand q seq 0 (min lost 65535) (s.hostWrite 0 (mDst b) (rs.filterMap id).flatten)

/-- MGT_LOG_READ (R560). -/
def execMgtLogRead (q : Qn) (seq : Word64) (s : State) : Out :=
  .next <| mgtRead q seq.toNat 0xD0 s logRecord fun n =>
    n != 0 && decide (n ≤ (s.reg ZG_MGT_LOG_HEAD).toNat) && !s.mgt.logFifo.any (fun r => getLE r 0 8 == n)

/-- MGT_TRACE_CFG: trace points take ENABLE and SHIFT, and count from their next occurrence (R544, R560). -/
def execMgtTraceCfg (q : Qn) (seq : Word64) (s : State) : Out :=
  .next <| withAdmin q seq.toNat 0xD1 s fun f =>
    let b := dBody f.desc
    let bad := firstFail [checkMgt q b false, failIf (decide (4096 < mFirst b + mCount b)) 1]
    if bad ≠ 0 then endCommand q seq.toNat bad 0 s
    else
      let x : TracePoint := { enable := bitOf (byteAt b 12) 1, shift := bitsOf (byteAt b 12) 6 2 }
      let m := (List.range (mCount b)).foldl (fun m i => cset {} m (mFirst b + i) x) s.mgt.traces
      endCommand q seq.toNat 0 0 { s with mgt := { s.mgt with traces := m } }

/-- MGT_TRACE_READ (R560). -/
def execMgtTraceRead (q : Qn) (seq : Word64) (s : State) : Out :=
  .next <| mgtRead q seq.toNat 0xD2 s traceRecord fun n => n != 0 && decide (n ≤ (s.reg ZG_MGT_TRACE_HEAD).toNat)

/-- MGT_ALARM_READ: alarm records of the slots from FIRST, empty ones skipped, until COUNT are written (R560). -/
def execMgtAlarmRead (q : Qn) (seq : Word64) (s : State) : Out :=
  .next <| withAdmin q seq.toNat 0xD3 s fun f =>
    let b := dBody f.desc
    let bad := checkMgt q b true
    if bad ≠ 0 then endCommand q seq.toNat bad 0 s
    else if (s.fn 0).bme = false then s
    else
      let out := (s.mgt.alarms.filter (fun p => decide (mFirst b ≤ p.1) && decide (p.1 < 19200) && p.2.everUsed
        && (!bitOf (byteAt b 12) 0 || p.2.active))).take (mCount b)
      endCommand q seq.toNat 0 (min out.length 65535) (s.hostWrite 0 (mDst b) (out.map (fun p => alarmBytes p.1 p.2)).flatten)

/-- MGT_AUDIT_READ (R560). -/
def execMgtAuditRead (q : Qn) (seq : Word64) (s : State) : Out :=
  .next <| mgtRead q seq.toNat 0xD4 s auditRecord fun n => n != 0 && decide (n ≤ (s.reg ZG_MGT_AUDIT_HEAD).toNat)

end Sys2Proof.Machine
end

