-- ==== Sys2Proof/Machine/RoleOps.lean ====
section
/-! DEFINITION. Role commands: their checks, their effects, the command journal they run in (10_host_queues.md R280 to R282;
18_betony_management_security.md R548 to R559). -/
namespace Sys2Proof.Machine

/-! ### The role command (R550) -/

/-- ROLE. -/
def rcRole (c : List Byte) : Nat := byteAt c 1
/-- MCMD. -/
def rcMcmd (c : List Byte) : Nat := getLE c 2 2
/-- LEN. -/
def rcLen (c : List Byte) : Nat := getLE c 4 2
/-- COUNTER. -/
def rcCounter (c : List Byte) : Nat := getLE c 0x10 8
/-- BODY. -/
def rcBody (c : List Byte) : List Byte := (c.drop 0x20).take (rcLen c)

/-- The roles from which a command is accepted; none for an undefined one (R552). -/
def rcRoles (m : Nat) : List Nat :=
  if m = 1 ∨ m = 5 then [0]
  else if 2 ≤ m ∧ m ≤ 4 then [1]
  else if m = 0x10 ∨ m = 0x11 ∨ m = 0x13 then [2]
  else if m = 0x12 then [2, 3]
  else if 0x20 ≤ m ∧ m ≤ 0x23 then [3]
  else []

/-- Bytes of a command's body (R552); FUSE_PROGRAM's is not stated. -/
def rcBodyLen (m : Nat) : Option Nat :=
  if m = 1 then some 0 else if m = 2 then some 4 else if m = 3 then some 6 else if m = 4 then some 3 else if m = 5 then some 8
  else if m = 0x10 then some 128 else if m = 0x11 then some 15 else if m = 0x12 then some 33 else if m = 0x13 then some 8
  else if m = 0x20 then some 1 else if m = 0x21 then some 473 else if m = 0x22 then some 4 else none

/-- What the security island keeps of a role (R549, R554). -/
def State.role (s : State) (r : Nat) : RoleSt := cget {} s.mgt.roles r

/-- Replace what the island keeps of a role. -/
def State.setRole (s : State) (r : Nat) (x : RoleSt) : State :=
  { s with mgt := { s.mgt with roles := cset {} s.mgt.roles r x } }

/-- Whether a role is locked: for 1 s from the sixteenth failure (R554). -/
def State.roleLocked (s : State) (r : Nat) : Bool := (s.role r).locked && decide (s.now < (s.role r).lockedAt + 1000000000)

/-- The stored counter of a role (R549). -/
def State.roleCounter (s : State) (r : Nat) : Nat := (s.reg (ZG_MGT_ROLE (r - 1))).toNat

/-! ### Body checks, step 8 of R551 (R552) -/

/-- The limits of LIMITS_SET lie in their ranges (R504, R507; ZG_PWR_CFG). -/
def limitsBad (b : List Byte) (s : State) : Bool :=
  let ceiling := getLE b 0 2
  let exc := getLE b 2 2
  let tdp := if s.rfld ZG_ID_PART 23 20 = 1 then 3000 else 3200
  let slope := getLE b 8 2
  decide (ceiling < 1000) || decide (tdp < ceiling) || decide (exc < min s.power.cap ceiling) || decide (3600 < exc)
    || (List.range 4).any (fun d => decide (byteAt b (4 + d) < (s.vtable d).vmin) || decide ((s.vtable d).vmax < byteAt b (4 + d)))
    || decide (slope < 100) || decide (1600 < slope) || decide (4 ≤ byteAt b 14)

/-- CAP and VREQ of POWER_SET lie in their ranges (R507). -/
def powerBad (b : List Byte) (s : State) : Bool :=
  let cap := getLE b 0 2
  decide (cap < 1000) || decide (s.power.ceiling < cap)
    || (List.range 4).any (fun d => decide (byteAt b (2 + d) < (s.vtable d).vmin) || decide ((s.pw d).vmaxCeil < byteAt b (2 + d)))

/-- A voltage table as R502 lays it out. -/
def vtableOf (t : List Byte) : VTable :=
  { vmin := byteAt t 1, vmax := byteAt t 2, nom := byteAt t 3, entries := (List.range 57).map (fun i => getLE t (16 + 8 * i) 8) }

/-- An override that is not more conservative than the fused table, or is not this package's (R503). -/
def overrideBad (b : List Byte) (s : State) : Bool :=
  let d := byteAt b 0
  let t := b.drop 1
  let new := vtableOf t
  let old := s.fuses.vtables.getD d {}
  decide (4 ≤ d) || byteAt t 0 != 1 || getLE t 4 8 != (s.reg ZG_ID_SERIAL).toNat || getLE t 0x0C 2 != 0
    || getLE t 0x0E 2 != check16 (t.take 14 ++ t.drop 16)
    || decide (new.vmin < old.vmin) || decide (old.vmax < new.vmax)
    || (List.range 57).any (fun i =>
      let e := new.entries.getD i 0
      let o := old.entries.getD i 0
      decide (vtFloor o < vtFloor e) || decide (vtArray e < vtArray o) || decide (vtStatic e < vtStatic o))

/-- The body checks of a command, step 8 of R551. -/
def roleCheck (m role : Nat) (b : List Byte) (s : State) : Nat :=
  if m = 2 then failIf (!bitOf (byteAt b 0) 0 && (byteAt b 1 == 0 || decide (15 < byteAt b 1) || decide (4 < byteAt b 3))) 1
  else if m = 3 then failIf (powerBad b s) 1
  else if m = 4 then failIf (byteAt b 0 == 0 || decide (3 < byteAt b 0) || getLE b 1 2 == 0) 1
  else if m = 0x10 then failIf (planBad b) 0x0303
  else if m = 0x11 then failIf (limitsBad b s) 1
  else if m = 0x12 then failIf (!(byteAt b 0 == 2 || (byteAt b 0 == 1 && role == 2))) 0x0803
  else if m = 0x13 then
    failIf (decide (getLE b 0 8 ≤ (s.reg ZG_MGT_AUDIT_FLOOR).toNat) || decide ((s.reg ZG_MGT_AUDIT_HEAD).toNat + 1 < getLE b 0 8)) 1
  else if m = 0x20 then failIf (bitOf (byteAt b 0) 0 && s.partsNow != []) 9
  else if m = 0x21 then failIf (overrideBad b s) 1
  else if m = 0x22 then failIf (decide (4 < byteAt b 0) || decide (3 < byteAt b 1)) 1
  else if m = 0x23 then failIf (s.rfld ZG_MGT_STATE 4 4 == 1) 0x0803
  else 0

/-! ### The checks of R551 -/

/-- Bytes a command has without its tag. -/
def rcCore (c : List Byte) : List Byte := c.take (0x20 + rcLen c)

/-- Step 1: VERSION, zero fields, lengths, ROLE. -/
def rcFormBad (c : List Byte) : Bool :=
  byteAt c 0 != 1 || decide (3 < rcRole c) || decide (4048 < rcLen c) || getLE c 6 2 != 0 || !zeroAt c 0x18 8
    || c.length != 0x20 + rcLen c + (if rcRole c = 0 then 0 else 16) || (rcRole c == 0 && rcCounter c != 0)

/-- The tag of a command is that of its role's key. -/
def rcTagOk (c : List Byte) (s : State) : Bool :=
  (c.drop (0x20 + rcLen c)).take 16 == (hmac256 (s.role (rcRole c)).key (rcCore c)).take 16

/-- The first check of R551 that a command fails: its step and status; step 0 for a command that passes. -/
def rcCheck (c : List Byte) (s : State) : Nat × Nat :=
  let r := rcRole c
  let m := rcMcmd c
  let lenBad := match rcBodyLen m with
    | some n => rcLen c != n
    | none => false
  if rcFormBad c then (1, 1)
  else if getLE c 8 8 ≠ (s.reg ZG_ID_SERIAL).toNat then (2, 0x0804)
  else if (rcRoles m).contains r = false then (3, 0x0803)
  else if r ≠ 0 ∧ (s.role r).key = [] then (4, 0x0805)
  else if r ≠ 0 ∧ s.roleLocked r = true then (5, 0x0806)
  else if r ≠ 0 ∧ rcTagOk c s = false then (6, 0x0801)
  else if r ≠ 0 ∧ rcCounter c ≤ s.roleCounter r then (7, 0x0802)
  else if lenBad then (8, 1)
  else (if roleCheck m r (rcBody c) s = 0 then 0 else 8, roleCheck m r (rcBody c) s)

/-! ### Refusals, failures and locks (R554, R557) -/

/-- The open refusal window of a role ends with its summary record (R557). -/
def closeWindow (r : Nat) (s : State) : State :=
  let x := s.role r
  if x.refusals = 0 then s
  else
    let s := (auditAppend false { role := r, kind := 1, path := 3, result := x.firstRefusal, counter := x.refusals } s).2
    s.setRole r { s.role r with refusals := 0, firstRefusal := 0 }

/-- A refusal at steps 2 to 8 counts in its role's 1 s window (R557). -/
def noteRefusal (r status : Nat) (s : State) : State :=
  if r = 0 ∨ 3 < r then s
  else
    let w := s.now / 1000000000
    let s := if (s.role r).windowAt = w then s else closeWindow r s
    let x := s.role r
    s.setRole r { x with refusals := x.refusals + 1, firstRefusal := (if x.refusals = 0 then status else x.firstRefusal),
                         windowAt := w }

/-- A failure at step 6: counted, event 0x0E.0x05, and the sixteenth within 1 s locks the role (R551, R554). -/
def noteAuthFail (r : Nat) (sb : Bool) (s : State) : State :=
  let s := mgtEvent 5 (r + b2n sb * 4) 2 (bump ZG_MGT_AUTHFAIL 1 s)
  let x := s.role r
  let fails := s.now :: x.fails.filter (fun t => decide (s.now < t + 1000000000))
  if 16 ≤ fails.length then s.setRole r { x with fails := [], locked := true, lockedAt := s.now }
  else s.setRole r { x with fails := fails }

/-! ### Effects (R552 to R558) -/

/-- Response of GET_INFO (R553). -/
def infoBytes (s : State) : List Byte :=
  natLE 8 (s.reg ZG_ID_SERIAL).toNat ++ natLE 2 (s.rfld ZG_ID_PART 31 24) ++ natLE 4 (s.rfld ZG_MGT_STATE 63 32)
    ++ natLE 1 (s.rfld ZG_MGT_STATE 7 0) ++ [0] ++ natLE 8 (s.roleCounter 1) ++ natLE 8 (s.roleCounter 2)
    ++ natLE 8 (s.roleCounter 3) ++ natLE 8 (s.reg ZG_MGT_AUDIT_HEAD).toNat ++ natLE 8 (s.reg ZG_MGT_AUDIT_FLOOR).toNat ++ zeros 8

/-- One slot is cleared (R547). -/
def clearSlot (slot : Nat) (s : State) : State :=
  s.setAlarm slot { s.alarm slot with active := false, clearNs := s.now, count := 0, firstNs := 0, since := 0 }

/-- ALARM_CLEAR: one slot, or every ACTIVE one (R547, R552). -/
def effectAlarmClear (b : List Byte) (s : State) : State :=
  let all := bitOf (byteAt b 0) 0
  let s1 := if all then ((s.mgt.alarms.filter (fun p => p.2.active)).map Prod.fst).foldl (fun s k => clearSlot k s) s
    else clearSlot (alarmSlot (byteAt b 1) (byteAt b 2) (byteAt b 3)) s
  mgtEvent 6 (byteAt b 1 + byteAt b 2 * 256 + byteAt b 3 % 8 * 65536 + b2n all * 2 ^ 19) 0 (refreshAlert s1)

/-- Event 0x0D.0x02 when CAP has changed. -/
def capEvent (old : Nat) (s : State) : State :=
  if s.power.cap = old then s else pwrEvent 2 4 (s.power.cap + s.power.ceiling * 65536) s

/-- POWER_SET (R507, R552). -/
def effectPowerSet (b : List Byte) (s : State) : State :=
  let old := s.power.cap
  let s := { s with power := { s.power with cap := getLE b 0 2 } }
  let s := (List.range 4).foldl (fun s d => refreshPwd d (s.updPw d fun x => { x with vreq := byteAt b (2 + d) })) s
  capEvent old (refreshLimits s)

/-- The limits of a LIMITS_SET body, as they are set by the command and again at a start-up (R507, R568). -/
def applyLimits (b : List Byte) (s : State) : State :=
  let w := s.power
  let s := { s with power := { w with
    ceiling := getLE b 0 2, cap := min w.cap (getLE b 0 2), excLimit := getLE b 2 2, slope := getLE b 8 2,
    releaseNs := getLE b 10 2, coolantHoldMs := getLE b 12 2, ballastEn := bitOf (byteAt b 14) 0,
    coolantEn := bitOf (byteAt b 14) 1 } }
  let s := (List.range 4).foldl (fun s d => refreshPwd d (s.updPw d fun x =>
    { x with vmaxCeil := byteAt b (4 + d), vreq := min x.vreq (byteAt b (4 + d)) })) s
  refreshLimits s

/-- LIMITS_SET: the limits are set and kept in the island's store (R507, R568). -/
def effectLimitsSet (b : List Byte) (s : State) : State :=
  let old := s.power.cap
  capEvent old (applyLimits b { s with store := { s.store with limits := b } })

/-- The pad of KEY_SET (R555). -/
def wrapPad (key : List Byte) (counter target : Nat) : List Byte :=
  hmac256 key (natLE 8 counter ++ natLE 1 target ++ [0x5A, 0x47, 0x2D, 0x4B, 0x45, 0x59, 0x57, 0x52, 0x41, 0x50])

/-- KEY_SET (R555). -/
def effectKeySet (role counter : Nat) (b : List Byte) (s : State) : State :=
  let t := byteAt b 0
  let new := if role = 3 then s.fuses.factoryInstaller
    else List.zipWith (· ^^^ ·) ((b.drop 1).take 32) (wrapPad (s.role role).key counter t)
  s.setRole t { s.role t with key := new }

/-- The test access port is enabled in test mode; outside it, it is held in Test-Logic-Reset with TDO high-impedance and takes no
TCK, TMS or TDI. What the board clocks through it in test mode is IEEE 1149.1, which no command of this model is (R556, R620). -/
def setTap (on : Bool) (s : State) : State :=
  { s with pins := { s.pins with tapEnabled := on, tapReset := s.pins.tapReset || !on, tdoHighZ := s.pins.tdoHighZ || !on } }

/-- TEST_MODE; entering and leaving raise event 0x0E.0x0B and switch the test access port (R556, R620). -/
def effectTestMode (b : List Byte) (s : State) : State :=
  let on := bitOf (byteAt b 0) 0
  let was := s.testMode
  let s := s.setRfld ZG_MGT_STATE 3 3 (b2n on)
  setTap on (if on = was then s else mgtEvent 0x0B (b2n on) 0 s)

/-- VT_OVERRIDE: the table joins the health record and takes effect at the next start-up (R503). -/
def effectOverride (b : List Byte) (s : State) : State :=
  let d := byteAt b 0
  let s := { s with power := { s.power with
    overrides := s.power.overrides.filter (fun p => p.1 != d) ++ [(d, vtableOf (b.drop 1))] } }
  pwrEvent 9 4 d (addHealth ⟨4, d, 0, 0⟩ s)

/-- HEALTH_CLEAR: the entries of a kind, die and index go at the next start-up; INDEX is the entry's index modulo 2^16, of a
retirement its place among the die's (R552). -/
def effectHealthClear (b : List Byte) (s : State) : State :=
  let of := s.store.health.filter (fun e => e.kind == byteAt b 0 && e.die == byteAt b 1)
  let ix := getLE b 2 2
  let go := if byteAt b 0 = 3 then (of[ix]?).toList else of.filter (fun e => e.index % 65536 == ix)
  { s with boot := { s.boot with healthClear := s.boot.healthClear ++ go } }

/-- FUSE_PROGRAM: the row and the value that follow each other in the body (R552). -/
def effectFuse (b : List Byte) (s : State) : State :=
  { s with fuses := { s.fuses with rows := cset 0 s.fuses.rows (getLE b 0 2) (leNat (b.drop 2)) } }

/-- What a role command does when it commits, with its response (R552). -/
def roleEffect (m role counter : Nat) (b : List Byte) (s : State) : List Byte × State :=
  if m = 1 then (infoBytes s, s)
  else if m = 2 then ([], effectAlarmClear b s)
  else if m = 3 then ([], effectPowerSet b s)
  else if m = 4 then ([], (controlAct (byteAt b 0) (getLE b 1 2) s).2)
  else if m = 5 then
    let (rs, s) := readRecords auditRecord ((List.range 31).map (getLE b 0 8 + ·)) s
    ((rs.filterMap id).flatten, s)
  else if m = 0x10 then ([], adoptPlan b { s with store := { s.store with plan := b } })
  else if m = 0x11 then ([], effectLimitsSet b s)
  else if m = 0x12 then ([], effectKeySet role counter b s)
  else if m = 0x13 then ([], s.setRegN ZG_MGT_AUDIT_FLOOR (getLE b 0 8))
  else if m = 0x20 then ([], effectTestMode b s)
  else if m = 0x21 then ([], effectOverride b s)
  else if m = 0x22 then ([], effectHealthClear b s)
  else if m = 0x23 then ([], effectFuse b s)
  else ([], s)

/-! ### The journal (R281, R282) -/

/-- DONE of a mailbox command: the response, ZG_MBX_STATUS, DONE_SEQ and event 0x01.0x07 (R281, R284). -/
def mbxDone (seq status : Nat) (resp : List Byte) (s : State) : State :=
  let words := (List.range (ceilDiv resp.length 8)).map (fun i => BitVec.ofNat 64 (getLE resp (8 * i) 8))
  let s := { s with regs := csetStep (0 : Word64) s.regs (ZG_MBX_RESP 0) 8 words }
  let s := s.setRegN ZG_MBX_STATUS (status * 65536 + resp.length * 8 + 2)
  let s := s.setRfld ZG_MBX_SEQ 63 32 seq
  raiseEvent { cls := 1, code := 7, data := seq + status * 2 ^ 32, log := false } s

/-- DONE of the journal's command, by the path it came by; one that was held back stands in the journal again (R281, R563). -/
def finishRole (status : Nat) (resp : List Byte) (s : State) : State :=
  let j := s.host.mbx
  let s := { s with host := { s.host with mbx := s.host.mbxHeld, mbxHeld := {} } }
  if j.sb then { s with mgt := { s.mgt with sbStatus := status, sbResp := resp } } else mbxDone j.seq status resp s

/-- Whether the command of the journal may run: Betony runs, or it is a PARTITION_CONTROL of the operator over the sideband,
which hub hardware carries out (R535, R563). -/
def State.roleMayRun (s : State) : Bool :=
  s.betony == 1 || (s.host.mbx.sb && rcRole s.host.mbx.cmd == 1 && rcMcmd s.host.mbx.cmd == 4)

/-- The audit record of a role command (R557). -/
def roleAudit (j : Journal) (s : State) : Bool × State :=
  let c := j.cmd
  if rcMcmd c = 0x13 then
    auditAppend true { role := rcRole c, kind := 6, path := b2n j.sb, mcmd := rcMcmd c, counter := s.store.aseq } s
  else
    auditAppend false { role := rcRole c, kind := 0, path := b2n j.sb, mcmd := rcMcmd c, counter := rcCounter c,
                        tenant := (if rcMcmd c = 4 then getLE (rcBody c) 1 2 else 0), aux := j.seq, subject := sha384 (rcBody c) } s

/-- COMMITTED: the role's counter, the effect, the audit record and event 0x0E.0x04 in one step; a log that refuses the record
refuses the command (R551, R557, R558, R566). -/
def commitRole (s : State) : State :=
  let j := s.host.mbx
  let c := j.cmd
  let role := rcRole c
  let (ok, s) := roleAudit j s
  if !ok then finishRole 0x0606 [] s
  else
    let s := if role = 0 then s else s.setRegN (ZG_MGT_ROLE (role - 1)) (rcCounter c)
    let (resp, s) := roleEffect (rcMcmd c) role (rcCounter c) (rcBody c) s
    let s := mgtEvent 4 (role + rcMcmd c * 4 + b2n j.sb * 2 ^ 18 + rcCounter c % 2 ^ 45 * 2 ^ 19) 0 s
    { s with host := { s.host with mbx := { j with phase := 3, status := 0, resp := resp } } }

/-- The journal's command is checked under R551; it commits, or is done with the status of the check it fails. -/
def checkRole (s : State) : State :=
  let j := s.host.mbx
  let (step, status) := rcCheck j.cmd s
  if step = 0 then commitRole s
  else
    let s := if step = 6 then noteAuthFail (rcRole j.cmd) j.sb s else s
    let s := if 2 ≤ step then noteRefusal (rcRole j.cmd) status s else s
    finishRole status [] s

/-- A COMMITTED command becomes DONE (R281). -/
def roleDone (s : State) : State :=
  if s.host.mbx.phase = 3 then finishRole s.host.mbx.status s.host.mbx.resp s else s

/-- The journal holds an ACCEPTED command with code `m`, and it may run: it goes through COMMITTED to DONE (R281, R552). -/
def runRole (m : Nat) (s : State) : State :=
  if s.host.mbx.phase = 1 ∧ rcMcmd s.host.mbx.cmd = m ∧ s.roleMayRun = true then roleDone (checkRole s) else s

/-- A mailbox doorbell that Betony sees: accepted with the next sequence while no role command runs, else counted (R280). -/
def takeDoorbell (value : Nat) (s : State) : State :=
  let seq := value / 4294967296
  let len := bitsOf value 12 0
  let next := (s.rfld ZG_MBX_SEQ 63 32 + 1) % 4294967296
  if seq = next ∧ s.host.mbx.phase = 0 ∧ 1 ≤ len ∧ len ≤ 4096 then
    let buf := ((List.range 512).map (fun k => natLE 8 (s.reg (ZG_MBX_BUF k)).toNat)).flatten
    let s := { s with host := { s.host with mbx := { phase := 1, cmd := buf.take len, seq := seq } } }
    (s.setRfld ZG_MBX_SEQ 31 0 seq).setRfld ZG_MBX_STATUS 2 0 1
  else bump ZG_MBX_REJECT 1 s

end Sys2Proof.Machine
end

