-- ==== Sys2Proof/Machine/Roles.lean ====
section
/-! DEFINITION. The mailbox, the role commands, restarts of Betony (10_host_queues.md R280 to R282;
18_betony_management_security.md R532 to R559). -/
namespace Sys2Proof.Machine

/-! ### The mailbox (R280, R281) -/

/-- A mailbox doorbell: while Betony loads or is HALTED it is ignored and counted; one rung while it restarts waits for it
(R280, R282, R534, R535). -/
def ringMailbox (value : Nat) (s : State) : State :=
  if s.betony = 1 then takeDoorbell value s
  else if s.betony = 2 ∧ s.host.doorbell = none then { s with host := { s.host with doorbell := some value } }
  else bump ZG_MBX_REJECT 1 s

/-- MBX_DOORBELL: a write of ZG_MBX_DOORBELL (R280). -/
def execMbxDoorbell (f : Func) (value : Word64) (s : State) : Out :=
  .next <| guardedWrite f ZG_MBX_DOORBELL 8 value.toNat s fun _ new s => ringMailbox new s

/-- MBX_COMMIT: the journal's command is checked, staged and committed in one step, and with `done` made DONE; one that was
COMMITTED becomes DONE (R281, R551). -/
def execMbxCommit (done : Bool) (s : State) : Out :=
  .next <|
    if !s.roleMayRun then s
    else
      let s := if s.host.mbx.phase = 1 then checkRole s else s
      if done then roleDone s else s

/-! ### Role commands (R552) -/

/-- GET_INFO (R553). -/
def execGetInfo (s : State) : Out := .next (runRole 1 s)

/-- ALARM_CLEAR (R547). -/
def execAlarmClear (s : State) : Out := .next (runRole 2 s)

/-- POWER_SET (R507). -/
def execPowerSet (s : State) : Out := .next (runRole 3 s)

/-- PARTITION_CONTROL (R386). -/
def execPartitionControl (s : State) : Out := .next (runRole 4 s)

/-- AUDIT_READ. -/
def execAuditRead (s : State) : Out := .next (runRole 5 s)

/-- PLAN_SET (R375). -/
def execPlanSet (s : State) : Out := .next (runRole 0x10 s)

/-- LIMITS_SET (R507). -/
def execLimitsSet (s : State) : Out := .next (runRole 0x11 s)

/-- KEY_SET (R555). -/
def execKeySet (s : State) : Out := .next (runRole 0x12 s)

/-- AUDIT_TRIM (R558). -/
def execAuditTrim (s : State) : Out := .next (runRole 0x13 s)

/-- TEST_MODE (R556). -/
def execTestMode (s : State) : Out := .next (runRole 0x20 s)

/-- VT_OVERRIDE (R503). -/
def execVtOverride (s : State) : Out := .next (runRole 0x21 s)

/-- HEALTH_CLEAR. -/
def execHealthClear (s : State) : Out := .next (runRole 0x22 s)

/-- FUSE_PROGRAM: role-denied while SEALED is set. -/
def execFuseProgram (s : State) : Out := .next (runRole 0x23 s)

/-- AUTH_LOCK_EXPIRE: the lock of role `r` + 1 ends 1 s after the sixteenth failure (R554). -/
def execAuthLockExpire (r : Fin 3) (s : State) : Out :=
  .next <|
    let x := s.role (r + 1)
    if x.locked ∧ x.lockedAt + 1000000000 ≤ s.now then s.setRole (r + 1) { x with locked := false } else s

/-- AUDIT_REFUSAL_SUMMARY: the 1 s window of role `r` + 1 has passed, and its refusals are summed up (R557). -/
def execAuditRefusalSummary (r : Fin 3) (s : State) : Out :=
  .next (if (s.role (r + 1)).windowAt < s.now / 1000000000 then closeWindow (r + 1) s else s)

/-! ### Restarts (R532, R534, R535) -/

/-- DATA of events 0x0E.0x01 and 0x0E.0x02. -/
def restartData (s : State) : Nat :=
  (s.reg ZG_MGT_RESTARTS).toNat % 65536 + s.mgt.restartCore * 65536 + s.mgt.restartCause * 2 ^ 19

/-- Betony is HALTED, with a critical alarm; the writes queued for B0 are discarded (R535). -/
def haltBetony (s : State) : State :=
  let s := mgtEvent 2 (restartData s) 3 (s.setRfld ZG_MGT_STATE 2 0 3)
  let n := s.mgt.emuWrites.length
  let s := s.mgt.emuWrites.foldl (fun s w => s.setRegF w.fn ZG_MGT_EMU (setFld (s.regF w.fn ZG_MGT_EMU) 1 1 1)) s
  let s := bump ZG_MGT_WR_DROPPED n s
  let s := s.mgt.emuReads.foldl (fun s r => answerBusy r.fn r.off r.size s) s
  { s with mgt := { s.mgt with emuWrites := [], emuReads := [] } }

/-- Whether a warm reset has come to steps 10 to 13, which absorbs a restart of Betony (R586). -/
def State.warmRunning (s : State) : Bool := s.boot.resetClass == 2 && decide (6 ≤ s.stage) && decide (s.stage ≤ 9)

/-- BETONY_WATCHDOG: the hub restarts the complex, for cause 0 a watchdog, 1 an exception, 2 a code error; the fourth restart
within 60 s of the first of four leaves it HALTED; a warm reset absorbs it (R532, R534, R535, R586). -/
def execBetonyWatchdog (core : Fin 8) (cause : Fin 3) (s : State) : Out :=
  .next <|
    if s.betony ≠ 1 ∨ s.warmRunning = true then s
    else
      let recent := (s.now :: s.mgt.restarts.filter (fun t => decide (s.now ≤ t + 60000000000))).take 4
      let s := bump ZG_MGT_RESTARTS 1 s
      let s := { s with mgt := { s.mgt with restarts := recent, restartCore := core, restartCause := cause } }
      let s := (s.setRfld ZG_MGT_STATE 2 0 2).setRfld ZG_MBX_STATUS 2 0 3
      let s := mgtEvent 1 (restartData s) 2 s
      if recent.length = 4 then haltBetony s else s

/-- Admin commands that Betony had taken and not committed: every one but QUEUE_STOP and PARTITION_STOP, which hub hardware
carries out (R277, R279). -/
def State.uncommitted (s : State) : List (Nat × Nat) :=
  ((s.host.queues.filter (fun p => isAdmin p.1)).map (fun p =>
    (p.2.flights.filter (fun f => f.ended.isNone && f.phase == 0 && dOpc f.desc != 0x92 && dOpc f.desc != 0x96)).map
      (fun f => (p.1, f.seq)))).flatten

/-- The mailbox journal after a restart: a command not COMMITTED is done with the aborted status, one that was finishes; then a
doorbell that waited is taken (R282). -/
def resolveJournal (s : State) : State :=
  let j := s.host.mbx
  let s := s.setRfld ZG_MBX_STATUS 2 0 (if s.rfld ZG_MBX_SEQ 63 32 = 0 then 0 else 2)
  let s := if j.phase = 0 then s
    else if j.phase = 3 then roleDone s
    else finishRole 7 [] s
  match s.host.doorbell with
  | some v => takeDoorbell v { s with host := { s.host with doorbell := none } }
  | none => s

/-- BETONY_RESTART_DONE: the image is checked against the hash recorded at its load; the cores run again, the journals are
resolved and emulation goes on; or Betony is HALTED. In a warm reset the reset itself starts Betony (R282, R534, R535, R586). -/
def execBetonyRestartDone (s : State) : Out :=
  .next <|
    if s.betony ≠ 2 ∨ s.stage = 12 then s
    else match imageOk s with
    | (false, s) => haltBetony s
    | (true, s) =>
      let s := s.setRfld ZG_MGT_STATE 2 0 1
      let s := s.uncommitted.foldl (fun s c => endCommand c.1 c.2 7 0 s) s
      answerHeld (resolveJournal s)

end Sys2Proof.Machine
end

