-- ==== Sys2Proof/Machine/Train.lean ====
section
/-! DEFINITION. Training support: DROPOUT, stored activations, virtual stages, deferred regions and filler units
(14_training_support.md R398 to R434). -/
namespace Sys2Proof.Machine

/-! ### Random bindings (R400, R403) -/

/-- A random binding with its index steps (R400). -/
structure Binding where
  ctx : SrCtx
  istride : Nat
  irow : Nat
  icol : Nat

/-- The binding of 40 bytes. -/
def bindingOf (r : List Byte) : Binding :=
  { ctx := { seed := getLE r 0 4, job := getLE r 4 4, mbatch := getLE r 8 4, layer := getLE r 12 2, site := byteAt r 14,
             purpose := byteAt r 15, ibase := getLE r 16 8 },
    istride := getLE r 24 8, irow := getLE r 32 4, icol := getLE r 36 4 }

/-- Reserved bits of a binding are set. -/
def bindingBad (r : List Byte) : Bool := decide (64 ≤ byteAt r 14) || decide (8 ≤ byteAt r 15)

/-- The value of element (r, col) of the cluster with number `rel`, for a purpose (R399, R403). -/
def Binding.draw (b : Binding) (purpose rel r col : Nat) : Nat :=
  { b.ctx with purpose := purpose }.draw (rel * b.istride + r * b.irow + col * b.icol)

/-! ### DROPOUT (R405 to R407) -/

/-- Rows of bytes that do not lie within `n` bytes of one another after `k` steps. -/
def rowsTouch (delta ld n rows : Nat) : Bool :=
  (List.range rows).any (fun k => decide (delta < k * ld + n) && decide (k * ld < delta + n))

/-- Bytes of a mask row (R406). -/
def maskRow (cols : Nat) : Nat := 16 * ceilDiv cols 128

/-- DROPOUT body, SRAM of `size` bytes (R405, R407). -/
def checkDropout (b : List Byte) (size : Nat) (s : State) : Nat :=
  let rows := getLE b 6 2
  let cols := getLE b 8 2
  let n := cols * fmtWidth (byteAt b 2) / 8
  let src := getLE b 0x10 4
  let dst := getLE b 0x14 4
  let ld := getLE b 0x18 4
  let mask := getLE b 0x1C 4
  let span := (rows - 1) * ld + n
  let touches := fun (o : Nat) => (List.range rows).any (fun r =>
    decide (o + r * ld < mask + rows * maskRow cols) && decide (mask < o + r * ld + n))
  failIf (decide (64 ≤ byteAt b 0) || decide (128 ≤ byteAt b 1) || decide (3 ≤ byteAt b 2) || !zeroAt b 3 1 || !zeroAt b 10 2
    || !zeroAt b 0x48 8 || bindingBad (b.drop 0x20) || s.clusterRangeBad (byteAt b 0) (byteAt b 1) || rows == 0 || cols == 0
    || src % 16 != 0 || dst % 16 != 0 || ld % 16 != 0 || decide (ld < n) || decide (size < src + span)
    || decide (size < dst + span) || (src != dst && rowsTouch (max src dst - min src dst) ld n rows)
    || (mask != 0xFFFFFFFF && (mask % 16 != 0 || decide (size < mask + rows * maskRow cols) || touches src || touches dst))) 1

/-- One element: the output, and whether it is kept (R406). -/
def dropElem (reduced : Bool) (fmt p16 scale v x : Nat) : Nat × Bool :=
  if v < p16 then (0, false)
  else (convertTo reduced fmt 0 false 0 (mulExact (decodeElem reduced fmt x) (f32 reduced scale)).1, true)

/-- The bits of a list of truth values, lowest first, in `n` bytes. -/
def bitBytes (n : Nat) (bs : List Bool) : List Byte := natLE n (bs.foldr (fun b m => b2n b + 2 * m) 0)

/-- The rows of DROPOUT in one cluster: the status. -/
def dropRows (b : List Byte) (d c rel : Nat) (part : Option Nat) : List Nat → State → Nat × State
  | [], s => (0, s)
  | r :: rs, s =>
    let fmt := byteAt b 2
    let w := fmtWidth fmt
    let cols := getLE b 8 2
    let ld := getLE b 0x18 4
    let mask := getLE b 0x1C 4
    match sramRead d c (getLE b 0x10 4 + r * ld) (cols * w / 8) 3 part s with
    | (none, s) => (0x30, s)
    | (some row, s) =>
      let es := (List.range cols).map (fun k =>
        dropElem (s.reduced d) fmt (getLE b 4 2) (getLE b 0x0C 4) ((bindingOf (b.drop 0x20)).draw 0 rel r k) (packedGet row w k))
      let (ok, s) := sramWrite d c (getLE b 0x14 4 + r * ld) (packElems w (es.map Prod.fst)) 3 part s
      let s := if ok && mask != 0xFFFFFFFF then
        sramPut d c (mask + r * maskRow cols) (bitBytes (maskRow cols) (es.map Prod.snd)) s else s
      if ok then dropRows b d c rel part rs s else (0x30, s)

/-- DROPOUT: drops elements by regenerated values and scales the kept ones, in every named cluster, in the order of the vector
programs there (R152, R406, R407). -/
def execDropout (q : Qn) (seq : Word64) (s : State) : Out :=
  .next <| withFlight q seq.toNat 0xA0 s fun f =>
    let b := dBody f.desc
    let d := (s.queue q).die
    let first := byteAt b 0
    let n := byteAt b 1
    let bad := checkDropout b (s.sramBound d) s
    if bad ≠ 0 then endCommand q seq.toNat bad 0 s
    else match checkClusters q seq.toNat first n s with
      | (0, _) =>
        let cs := clusterRange first n
        if cs.any (fun c => (s.clus d c).prog.isSome || s.namedAhead q seq.toNat f 0x20 c) then s
        else
          let r := cs.foldl (fun (r : List (Nat × Nat) × State) c =>
            let (st, s) := dropRows b d c (c - first) (s.queuePart q) (List.range (getLE b 6 2)) r.2
            (r.1 ++ [(c, st)], s)) ([], s)
          endClusters q seq.toNat r.1 r.2
      | (st, s) => endCommand q seq.toNat st 0 s

/-! ### Stored activations (R408 to R414) -/

/-- SFMT. -/
def aSfmt (b : List Byte) : Nat := byteAt b 2
/-- CMP. -/
def aCmp (b : List Byte) : Nat := byteAt b 4 / 64
/-- STFMT as the record carries it. -/
def aStfmt (b : List Byte) : Nat := if aCmp b = 2 then 0 else byteAt b 3
/-- RM. -/
def aRm (b : List Byte) : Nat := byteAt b 4 / 8 % 8
/-- SAT. -/
def aSat (b : List Byte) : Bool := bitOf (byteAt b 4) 2
/-- ROWS. -/
def aRows (b : List Byte) : Nat := getLE b 8 2
/-- COLS. -/
def aCols (b : List Byte) : Nat := getLE b 10 2

/-- Whether CMP and STFMT are a combination of R409. -/
def storedForm (cmp st : Nat) : Bool :=
  if cmp = 0 then decide (st ≤ 4) || (decide (0x10 ≤ st) && decide (st ≤ 0x14))
  else if cmp = 1 then decide (st ≤ 4) else cmp == 2

/-- Bytes of a row of the payload, for CMP 0 in a non-MX format and for CMP 2 (R411). -/
def actRow (b : List Byte) : Nat :=
  if aCmp b = 2 then maskRow (aCols b) else 16 * ceilDiv (aCols b * fmtWidth (aStfmt b) / 8) 16

/-- Start of the scale plane of an MX payload (R411). -/
def actScales (b : List Byte) : Nat := 64 * ceilDiv (aRows b * ceilDiv (aCols b) 32 * 4 * fmtWidth (aStfmt b)) 64

/-- PAYLOAD_BYTES of CMP 0 and CMP 2, known from the descriptor (R411, R412). -/
def actKnown (b : List Byte) : Nat :=
  if isMx (aStfmt b) then actScales b + aRows b * ceilDiv (aCols b) 32 else aRows b * actRow b

/-- ACT_STORE and ACT_LOAD body, SRAM of `size` bytes (R408, R409, R412, R414). -/
def checkAct (store : Bool) (b : List Byte) (size : Nat) (s : State) : Nat :=
  let n := aCols b * fmtWidth (aSfmt b) / 8
  failIf (decide (64 ≤ byteAt b 0) || decide (128 ≤ byteAt b 1) || decide (3 ≤ byteAt b 2) || decide (32 ≤ byteAt b 3)
    || byteAt b 4 % 4 != 0 || !zeroAt b 5 3 || !zeroAt b 0x28 8 || !zeroAt b 0x58 8 || bindingBad (b.drop 0x30)
    || s.clusterRangeBad (byteAt b 0) (byteAt b 1) || !storedForm (aCmp b) (aStfmt b) || !rmValid (aRm b)
    || aRows b == 0 || aCols b == 0 || getLE b 0x0C 4 % 16 != 0 || getLE b 0x10 4 % 16 != 0 || getLE b 0x14 4 % 4096 != 0
    || getLE b 0x18 8 % 4096 != 0 || decide (size < getLE b 0x0C 4 + (aRows b - 1) * getLE b 0x10 4 + n)
    || (store && aCmp b != 1 && decide (getLE b 0x14 4 < actKnown b + 64))) 1

/-- The header of a record (R410). -/
def actHeader (b : List Byte) (payload : List Byte) : List Byte :=
  withCheck (natLE 2 1 ++ natLE 1 (aStfmt b) ++ natLE 1 (aCmp b) ++ natLE 1 (aSfmt b) ++ zeros 3 ++ natLE 2 (aRows b)
    ++ natLE 2 (aCols b) ++ natLE 4 payload.length ++ natLE 4 (crc32c payload) ++ zeros 42)

/-- Bytes followed by zeros up to a length. -/
def padTo (n : Nat) (bs : List Byte) : List Byte := bs ++ zeros (n - bs.length)

/-- A list in pieces of `n`. -/
def piecesOf {α : Type} (n : Nat) (xs : List α) : List (List α) :=
  (List.range (ceilDiv xs.length n)).map (fun i => (xs.drop (i * n)).take n)

/-- The elements of a row and their positions, as stored without scales. -/
def actElems (reduced : Bool) (b : List Byte) (rel r : Nat) (row : List Nat) : List Nat :=
  row.zipIdx.map (fun p => (cvtLane reduced (aSfmt b) (aStfmt b) (aRm b) (aSat b)
    (if aRm b = 4 then (bindingOf (b.drop 0x30)).draw 2 rel r p.2 else 0) p.1).1)

/-- The MX blocks of a row: scale and 32 elements each (R50, R62). -/
def actBlocks (reduced : Bool) (b : List Byte) (rel r : Nat) (row : List Nat) : List (Nat × List Nat) :=
  (piecesOf 32 row.zipIdx).map (fun ps =>
    let x := mxBlock (aStfmt b) (aRm b) (ps.map (fun p => decodeElem reduced (aSfmt b) p.1))
      (ps.map (fun p => if aRm b = 4 then (bindingOf (b.drop 0x30)).draw 2 rel r p.2 else 0))
    (x.1, x.2.1 ++ List.replicate (32 - ps.length) 0))

/-- A block of CMP 1: the bitmap and the elements that are not ±0 (R411). -/
def zeroSkipBlock (w : Nat) (es : List Nat) : List Byte :=
  let on := es.map (fun e => e % 2 ^ (w - 1) != 0)
  let kept := es.filter (fun e => e % 2 ^ (w - 1) != 0)
  padTo (32 + 16 * ceilDiv (kept.length * w / 8) 16) (bitBytes 32 on ++ packElems w kept)

/-- Offsets of consecutive pieces, from `a`. -/
def startsFrom : Nat → List (List Byte) → List Nat
  | _, [] => []
  | a, p :: ps => a :: startsFrom (a + p.length) ps

/-- The payload of a record (R411). -/
def actPayload (reduced : Bool) (b : List Byte) (rel : Nat) (rows : List (List Nat)) : List Byte :=
  let w := fmtWidth (aStfmt b)
  if aCmp b = 2 then
    (rows.map (fun row => bitBytes (actRow b) (row.map (fun v =>
      let x := decodeElem reduced (aSfmt b) v
      !x.s && (x.cls == .fin || x.cls == .inf))))).flatten
  else if isMx (aStfmt b) then
    let bs := (rows.zipIdx.map (fun p => actBlocks reduced b rel p.2 p.1)).flatten
    padTo (actScales b) (packElems w (bs.map Prod.snd).flatten) ++ bs.map (fun p => BitVec.ofNat 8 p.1)
  else
    let es := rows.zipIdx.map (fun p => actElems reduced b rel p.2 p.1)
    if aCmp b = 0 then (es.map (fun row => padTo (actRow b) (packElems w row))).flatten
    else
      let blocks := (piecesOf 256 es.flatten).map (zeroSkipBlock w)
      let dir := 16 * ceilDiv (4 * blocks.length) 16
      padTo dir ((startsFrom dir blocks).map (natLE 4)).flatten ++ blocks.flatten

/-- How a stored-activation command ended in a cluster. -/
inductive ActRes where
  | ended (status : Nat) (s : State)
  /-- It waits at a stopped stack. -/
  | wait (stack va : Nat)

/-- Rows of a tensor in SRAM, as elements; none on an uncorrectable error. -/
def readTensor (b : List Byte) (d c : Nat) (part : Option Nat) : List Nat → State → Option (List (List Nat)) × State
  | [], s => (some [], s)
  | r :: rs, s =>
    let w := fmtWidth (aSfmt b)
    match sramRead d c (getLE b 0x0C 4 + r * getLE b 0x10 4) (aCols b * w / 8) 1 part s with
    | (none, s) => (none, s)
    | (some row, s) =>
      match readTensor b d c part rs s with
      | (none, s) => (none, s)
      | (some rows, s) => (some ((List.range (aCols b)).map (packedGet row w) :: rows), s)

/-- The data of an access of a cluster, or the cluster's end. -/
def actAcc {α : Type} (rq : Req) (x : Acc α) (g : α → State → ActRes) : ActRes :=
  match x with
  | .ok a s => g a s
  | .fault k va s => .ended (faultStatus k) (recordFault rq k va s)
  | .wait m va _ => .wait m va

/-- ACT_STORE in one cluster: a header of zeros, the payload, the header (R412). -/
def actStoreIn (rq : Req) (b : List Byte) (d c rel : Nat) (part : Option Nat) (s : State) : ActRes :=
  let va := (getLE b 0x18 8 + rel * getLE b 0x20 8) % two64
  actAcc rq (vaWrite rq va (zeros 64) s) fun _ s =>
    match readTensor b d c part (List.range (aRows b)) s with
    | (none, s) => .ended 0x30 s
    | (some rows, s) =>
      let payload := actPayload (s.reduced d) b rel rows
      let room := getLE b 0x14 4 - 64
      actAcc rq (vaWrite rq ((va + 64) % two64) (payload.take room) s) fun _ s =>
        if room < payload.length then .ended 0x0401 s
        else actAcc rq (vaWrite rq va (actHeader b payload) s) fun _ s => .ended 0 s

/-- Which check of a header fails: some 0 the header itself, some 2 a field that differs from the descriptor (R413, R433). -/
def headerFault (b h : List Byte) : Option Nat :=
  if getLE h 0 2 ≠ 1 ∨ getLE h 0x3E 2 ≠ check16 (h.take 0x3E) then some 0
  else if byteAt h 2 ≠ aStfmt b ∨ byteAt h 3 ≠ aCmp b ∨ byteAt h 4 ≠ aSfmt b ∨ getLE h 8 2 ≠ aRows b ∨ getLE h 10 2 ≠ aCols b then
    some 2
  else none

/-- `w` bits of a payload from a bit position; none where the payload ends before them. -/
def payloadBits (p : List Byte) (at_ w : Nat) : Option Nat :=
  if at_ + w ≤ 8 * p.length then some (bitsOf (getLE p (at_ / 8) (w / 8 + 2)) (at_ % 8 + w - 1) (at_ % 8)) else none

/-- A loaded element at a position of a payload, in SFMT (R409, R411, R413). -/
def actElemAt (reduced : Bool) (b p : List Byte) (r col : Nat) : Option Nat :=
  let st := aStfmt b
  let w := fmtWidth st
  let conv := fun (v : Nat) => (cvtLane reduced st (aSfmt b) 0 (aSat b) 0 v).1
  if aCmp b = 2 then
    (payloadBits p (8 * (r * actRow b) + col) 1).map (fun v =>
      if v = 1 then convertTo false (aSfmt b) 0 false 0 ⟨.fin, false, 1, 0⟩ else 0)
  else if isMx st then
    let blk := r * ceilDiv (aCols b) 32 + col / 32
    match payloadBits p ((32 * blk + col % 32) * w) w, payloadBits p (8 * (actScales b + blk)) 8 with
    | some v, some u => some (convertTo reduced (aSfmt b) 0 (aSat b) 0 (decodeMx st u v))
    | _, _ => none
  else if aCmp b = 0 then (payloadBits p (8 * (r * actRow b) + col * w) w).map conv
  else
    let pos := r * aCols b + col
    match payloadBits p (32 * (pos / 256)) 32 with
    | none => none
    | some off =>
      match payloadBits p (8 * off) 256 with
      | none => none
      | some map =>
        if bitOf map (pos % 256) then
          (payloadBits p (8 * (off + 32) + popCount 256 (map % 2 ^ (pos % 256)) * w) w).map conv
        else some 0

/-- Elements that the payload does not hold are free values: the spec names none for a sealed record whose payload is too
short for its form (log entry 29). -/
def fillFree : List (Option Nat) → State → List Nat × State
  | [], s => ([], s)
  | some v :: vs, s => let (xs, s) := fillFree vs s; (v :: xs, s)
  | none :: vs, s => let (x, s) := s.draw; let (xs, s) := fillFree vs s; (x :: xs, s)

/-- Loaded rows are written to SRAM; after a failed CRC each 64-byte block holds its previous contents or the loaded bytes,
whichever a free value says (R413). -/
def writeTensor (b : List Byte) (d c : Nat) (part : Option Nat) (all : Bool) (free : Nat) :
    List (Nat × List Nat) → State → Bool × State
  | [], s => (true, s)
  | (r, row) :: rs, s =>
    let a := getLE b 0x0C 4 + r * getLE b 0x10 4
    let bs := packElems (fmtWidth (aSfmt b)) row
    let ps := (rowPieces (bs.length / 64 + 2) 0 a bs.length).filter (fun p => all || Config.freeValue (free + p.dst / 64) % 2 == 1)
    match moveGroups (fun g s => putPieces d c 2 part (g.map (fun p => (p, (bs.drop p.src).take p.len))) s) (groupPieces ps) s with
    | .done s => writeTensor b d c part all free rs s
    | .failed _ s => (false, s)
    | .wait _ _ => (false, s)

/-- A failed check of ACT_LOAD (R413, R433, R434). -/
def actFail (d c q kind : Nat) (part : Option Nat) (s : State) : State :=
  trnEvent d 4 q part (q % 65536 + c * 65536 + kind * 2 ^ 22) 2 (bump (ZG_TRN_ACT_FAIL d) 1 s)

/-- ACT_LOAD in one cluster (R413). -/
def actLoadIn (rq : Req) (b : List Byte) (d c rel : Nat) (part : Option Nat) (s : State) : ActRes :=
  let va := (getLE b 0x18 8 + rel * getLE b 0x20 8) % two64
  actAcc rq (vaRead rq va 64 s) fun h s =>
    match headerFault b h with
    | some k => .ended 0x0402 (actFail d c rq.queue k part s)
    | none =>
      actAcc rq (vaRead rq ((va + 64) % two64) (getLE h 0x0C 4) s) fun p s =>
        let ok := crc32c p == getLE h 0x10 4
        let es := ((List.range (aRows b)).map (fun r => (List.range (aCols b)).map (actElemAt (s.reduced d) b p r))).flatten
        let (vs, s) := fillFree es s
        let free := s.openCount
        let s := { s with openCount := free + sramSize / 64 }
        let rows := (List.range (aRows b)).map (fun r => (r, (vs.drop (r * aCols b)).take (aCols b)))
        match writeTensor b d c part ok free rows s with
        | (true, s) => if ok then .ended 0 s else .ended 0x0402 (actFail d c rq.queue 1 part s)
        | (false, s) => .ended 0x30 s

/-- A stored-activation command in each named cluster. -/
def actClusters (run : Nat → State → ActRes) : List Nat → List (Nat × Nat) → State → ActRes ⊕ (List (Nat × Nat) × State)
  | [], ends, s => .inr (ends, s)
  | c :: cs, ends, s =>
    match run c s with
    | .ended st s => actClusters run cs (ends ++ [(c, st)]) s
    | w => .inl w

/-- A stored-activation command: its checks, and its work in the named clusters once no move runs there (R138, R414). -/
def actCommand (q seq opc unit : Nat) (store : Bool) (s : State)
    (run : Req → List Byte → Nat → Nat → Nat → Option Nat → State → ActRes) : State :=
  withFlight q seq opc s fun f =>
    let b := dBody f.desc
    let d := (s.queue q).die
    let first := byteAt b 0
    let n := byteAt b 1
    let bad := checkAct store b (s.sramBound d) s
    if bad ≠ 0 then endCommand q seq bad 0 s
    else match checkClusters q seq first n s with
      | (0, _) =>
        let cs := clusterRange first n
        if cs.any (fun c => (s.clus d c).mv.isSome || s.namedAhead q seq f 0x21 c) then s
        else
          let rq := s.req q f unit
          match actClusters (fun c s => run rq b d c (c - first) (s.queuePart q) s) cs [] s with
          | .inr (ends, s) => endClusters q seq ends s
          | .inl (.wait m va) => waitAtStack ⟨m, q, seq, unit, va, none⟩ s
          | .inl (.ended _ s) => s
      | (st, s) => endCommand q seq st 0 s

/-- ACT_STORE (R412). -/
def execActStore (q : Qn) (seq : Word64) (s : State) : Out := .next (actCommand q seq.toNat 0xA1 1 true s actStoreIn)

/-- ACT_LOAD (R413). -/
def execActLoad (q : Qn) (seq : Word64) (s : State) : Out := .next (actCommand q seq.toNat 0xA2 0 false s actLoadIn)

/-! ### Virtual stages (R415 to R418) -/

/-- The stages of a die. -/
def State.stg (s : State) (d : Nat) : StageSt := s.trn.stages.getD d {}

/-- ZG_TRN_STAGE of the stages of a die. -/
def stageReg (x : StageSt) : Nat :=
  b2n x.active * 2 ^ 63 + b2n x.loop * 2 ^ 62 + x.part % 64 * 2 ^ 56
    + ((List.range 8).foldl (fun n k => n + if cget 0 x.ctxs k = 0 then 0 else 2 ^ k) 0) * 2 ^ 48
    + x.entries.getD x.pos 0 % 8 * 2 ^ 45 + x.pos % 2048 * 2 ^ 34 + x.entries.length % 2048 * 2 ^ 23

/-- Replace the stages of a die. -/
def State.setStg (s : State) (d : Nat) (x : StageSt) : State :=
  { s with trn := { s.trn with stages := s.trn.stages.set d x } }.setRegN (ZG_TRN_STAGE d) (stageReg x)

/-- The context a queue is bound to. -/
def StageSt.ctxOf (x : StageSt) (q : Nat) : Option Nat := (List.range 8).find? (fun k => cget 0 x.ctxs k == q + 1)

/-- Whether a STAGE_MARK of a context waits. -/
def State.markWaits (s : State) (d k : Nat) : Bool :=
  (s.stg d).ctxs.any (fun p => p.1 == k &&
    (s.queue (p.2 - 1)).flights.any (fun f => f.ended.isNone && dOpc f.desc == 0xA7 && f.phase == 1))

/-- Whether the contexts of a die belong to another partition (R415). -/
def StageSt.foreign (x : StageSt) (p : Nat) : Bool := x.ctxs != [] && x.part != p

/-- STAGE_SET body. -/
def checkStageSet (b : List Byte) : Nat := failIf (decide (8 ≤ byteAt b 0) || decide (2 ≤ byteAt b 1) || !zeroAt b 4 12) 1

/-- A queue that may not be bound to a context: outside the partition, of another die, or bound to another context (R417). -/
def stageQueueBad (d p ctx n : Nat) (s : State) : Bool :=
  let x := s.part p
  decide (n < x.qFirst) || decide (x.qFirst + x.qCount ≤ n) || ((s.queue n).state != .disabled && (s.queue n).die != d)
    || ((s.stg d).ctxOf n).any (fun k => k != ctx)

/-- STAGE_SET, bind (R415, R417). -/
def execStageSetBind (q : Qn) (seq : Word64) (s : State) : Out :=
  .next <| withFlight q seq.toNat 0xA3 s fun f =>
    let b := dBody f.desc
    let d := (s.queue q).die
    let p := (s.queue q).part
    let ctx := byteAt b 0
    let x := s.stg d
    if byteAt b 1 = 1 then s
    else
      let bad := firstFail [checkStageSet b, failIf (stageQueueBad d p ctx (getLE b 2 2) s) 1, failIf (x.foreign p) 0x0403,
        failIf (s.markWaits d ctx) 9]
      if bad ≠ 0 then endCommand q seq.toNat bad 0 s
      else endCommand q seq.toNat 0 0 (s.setStg d { x with part := p, ctxs := cset 0 x.ctxs ctx (getLE b 2 2 + 1) })

/-- STAGE_SET, clear (R415, R417). -/
def execStageSetClear (q : Qn) (seq : Word64) (s : State) : Out :=
  .next <| withFlight q seq.toNat 0xA3 s fun f =>
    let b := dBody f.desc
    let d := (s.queue q).die
    let ctx := byteAt b 0
    let x := s.stg d
    if byteAt b 1 ≠ 1 then s
    else
      let bad := firstFail [checkStageSet b, failIf (x.foreign (s.queue q).part || (x.active && x.entries.contains ctx)) 0x0403]
      if bad ≠ 0 then endCommand q seq.toNat bad 0 s
      else
        let ctxs := cset 0 x.ctxs ctx 0
        endCommand q seq.toNat 0 0 (s.setStg d (if ctxs = [] then { x with ctxs := ctxs, part := 0 } else { x with ctxs := ctxs }))

/-- STAGE_SCHED body. -/
def checkStageSched (b : List Byte) : Nat :=
  failIf (decide (1024 < getLE b 0 2) || decide (2 ≤ byteAt b 2) || !zeroAt b 3 5) 1

/-- STAGE_SCHED: loads or stops the schedule (R416, R417). -/
def execStageSched (q : Qn) (seq : Word64) (s : State) : Out :=
  .next <| withFlight q seq.toNat 0xA4 s fun f =>
    let b := dBody f.desc
    let d := (s.queue q).die
    let n := getLE b 0 2
    let x := s.stg d
    let rq := s.req q f 6
    let bad := checkStageSched b
    if bad ≠ 0 then endCommand q seq.toNat bad 0 s
    else finishAcc q seq.toNat rq s (vaRead rq (getLE b 8 8) n s) fun bs s =>
      let es := bs.map (·.toNat)
      let bad := firstFail [failIf (es.any (fun k => decide (8 ≤ k) || cget 0 x.ctxs k == 0)) 1,
        failIf ((List.range 8).any (fun k => s.markWaits d k)) 9, failIf (x.foreign (s.queue q).part) 0x0403]
      if bad ≠ 0 then endCommand q seq.toNat bad 0 s
      else endCommand q seq.toNat 0 0
        (s.setStg d { x with active := n != 0, loop := byteAt b 2 == 1 && n != 0, entries := es, pos := 0 })

/-- The position moves to the next entry; a schedule without LOOP ends after its last (R418). -/
def StageSt.advance (x : StageSt) : StageSt :=
  if x.pos + 1 < x.entries.length then { x with pos := x.pos + 1 }
  else if x.loop then { x with pos := 0 }
  else { x with active := false, entries := [], pos := 0 }

/-- STAGE_MARK: waits for its context's turn and advances the schedule (R418); in a region it fails (R419). -/
def execStageMark (q : Qn) (seq : Word64) (s : State) : Out :=
  .next <| withFlight q seq.toNat 0xA7 s fun f =>
    let d := (s.queue q).die
    let x := s.stg d
    if f.deferred then endCommand q seq.toNat 1 0 s
    else match x.ctxOf q with
      | none => endCommand q seq.toNat 0 0 s
      | some k =>
        if x.active ∧ x.entries.getD x.pos 8 = k then endCommand q seq.toNat 0 0 (s.setStg d x.advance)
        else if f.phase = 1 then s
        else if x.active then noteRun q (s.updFlight q seq.toNat (fun f => { f with phase := 1 }))
        else endCommand q seq.toNat 0x0404 0
          (trnEvent d 5 q (s.queuePart q) (q.val % 65536 + k * 65536) 0 s)

/-! ### Deferred regions (R419, R420) -/

/-- DEFER_BEGIN body on a queue with 2^log2 slots. -/
def checkDeferBegin (b : List Byte) (log2 : Nat) : Nat :=
  let n := getLE b 0 2
  failIf (n == 0 || decide (1024 < n) || decide (2 ^ log2 ≤ n) || !zeroAt b 2 14) 1

/-- DEFER_BEGIN: the descriptors that follow form a region, and the main lane goes on after them; at a seventeenth pending
region it waits (R419, R420). -/
def execDeferBegin (q : Qn) (seq : Word64) (s : State) : Out :=
  .next <| withFlight q seq.toNat 0xA5 s fun f =>
    let b := dBody f.desc
    let x := s.queue q
    let n := getLE b 0 2
    let bad := firstFail [failIf (x.cls != 1) 9, failIf f.deferred 1, checkDeferBegin b x.sqLog2]
    if bad ≠ 0 then endCommand q seq.toNat bad 0 s
    else if 16 ≤ x.regions.length then s
    else
      let r : DeferRegion := { first := seq.toNat + 1, count := n, fetchedTo := seq.toNat, next := seq.toNat + 1 }
      endCommand q seq.toNat 0 0 (s.setQueue q { x with regions := x.regions ++ [r], mainSeq := seq.toNat + n }.settleFetched)

/-- DEFER_DRAIN: waits until every earlier region of its queue has completed (R419). -/
def execDeferDrain (q : Qn) (seq : Word64) (s : State) : Out :=
  .next <| withFlight q seq.toNat 0xA6 s fun f =>
    let x := s.queue q
    let bad := firstFail [failIf (x.cls != 1) 9, failIf f.deferred 1]
    if bad ≠ 0 then endCommand q seq.toNat bad 0 s
    else if x.regions.any (fun r => decide (r.first < seq.toNat) && !x.regionDone r) then s
    else endCommand q seq.toNat 0 0 s

/-! ### Filler units (R425) -/

/-- FILL_BEGIN body. -/
def checkFillBegin (b : List Byte) : Nat :=
  let n := getLE b 0 2
  failIf (n == 0 || decide (256 < n) || byteAt b 2 == 0 || decide (64 < byteAt b 2) || !zeroAt b 3 1 || !zeroAt b 8 8) 1

/-- Whether a unit may not hold a command (R425). -/
def unitIllegal (width vmax : Nat) (desc : List Byte) : Bool :=
  let o := dOpc desc
  let b := dBody desc
  let kind := o == 0x01 || o == 0x08 || o == 0x10 || o == 0x21
    || (o == 0x20 && getLE b 24 8 != 0 && decide (getLE b 24 8 ≤ vmax * 1024))
    || (o == 0x30 && decide (byteAt b 0 ≤ 8) && !bitOf (byteAt b 4) 3)
  !kind || (namedClusters desc).any (fun p => decide (width < p.1 + p.2))

/-- FILL_BEGIN: once the unit is fetched whole it is checked and opened, and the command completes; a unit that holds an
illegal command, or a slot that was given up, fails whole (R425; log entry 30). -/
def execFillBegin (q : Qn) (seq : Word64) (s : State) : Out :=
  .next <| withFlight q seq.toNat 0xA8 s fun f =>
    let b := dBody f.desc
    let x := s.queue q
    let n := getLE b 0 2
    let vmax := s.rfld (ZG_TRN_CTRL x.die) 31 24
    let bad := firstFail [failIf f.deferred 1, failIf (x.cls != 2) 9, checkFillBegin b]
    if bad ≠ 0 then endCommand q seq.toNat bad 0 s
    else if x.unit.isSome ∨ (x.fetched.length < n ∧ x.bad.isNone) then s
    else
      let ds := x.fetched.take n
      let u : FillUnit := { first := seq.toNat + 1, width := byteAt b 2, maxTries := getLE b 4 4, descs := ds }
      let s := endCommand q seq.toNat 0 0 s
      let s := s.setQueue q { s.queue q with unit := some u, fetched := x.fetched.drop n }
      if ds.length < n ∨ ds.any (unitIllegal u.width vmax) = true then takeBad q (failUnit q 0x0405 s) else s

end Sys2Proof.Machine
end

