-- ==== Sys2Proof/Machine/Sorrel.lean ====
section
/-! DEFINITION. Commands of the Sorrel update unit (15_sorrel_update.md R435 to R458). -/
namespace Sys2Proof.Machine

/-! ### The tensor record (R437, R438) -/

/-- RULE. -/
def rRule (r : List Byte) : Nat := byteAt r 2
/-- ROWS. -/
def rRows (r : List Byte) : Nat := getLE r 4 4
/-- COLS. -/
def rCols (r : List Byte) : Nat := getLE r 8 4
/-- WFMT. -/
def rW (r : List Byte) : Nat := byteAt r 0x0C
/-- GFMT. -/
def rG (r : List Byte) : Nat := byteAt r 0x0D
/-- MFMT. -/
def rM (r : List Byte) : Nat := byteAt r 0x0E
/-- PFMT. -/
def rP (r : List Byte) : Nat := byteAt r 0x0F
/-- PEXP. -/
def rPexp (r : List Byte) : Nat := byteAt r 0x10
/-- STEP. -/
def rStep (r : List Byte) : Nat := getLE r 0x50 8
/-- TENSOR_ID. -/
def rId (r : List Byte) : Nat := getLE r 0x68 8
/-- A VA field of a record: W, G, M, L, R, LI, RI by number 0 to 6. -/
def rVa (r : List Byte) (k : Nat) : Nat := getLE r (0x18 + 8 * k) 8

/-- Bytes of an element of a Sorrel format. -/
def srlW (fmt : Nat) : Nat := fmtWidth fmt / 8

/-- The arrays of a record as (address, bytes) (R437). -/
def rArrays (r : List Byte) : List (Nat × Nat) :=
  let n := rRows r * rCols r
  [(rVa r 0, n * srlW (rW r)), (rVa r 1, n * srlW (rG r)), (rVa r 2, n * srlW (rM r))]
    ++ (if rRule r = 2 then
          [(rVa r 3, rRows r ^ 2 * srlW (rP r)), (rVa r 4, rCols r ^ 2 * srlW (rP r)),
           (rVa r 5, rRows r ^ 2 * srlW (rP r)), (rVa r 6, rCols r ^ 2 * srlW (rP r))] else [])

/-- Whether two of a list of ranges share a byte. -/
def rangesMeet : List (Nat × Nat) → Bool
  | [] => false
  | x :: xs => xs.any (fun y => decide (x.1 < y.1 + y.2) && decide (y.1 < x.1 + x.2)) || rangesMeet xs

/-- A record that is not well formed (R438). -/
def recordBad (va : Nat) (r : List Byte) : Bool :=
  let rule := rRule r
  let lo := min (rRows r) (rCols r)
  let hi := max (rRows r) (rCols r)
  let used := if rule = 2 then 7 else 3
  getLE r 0 2 != 1 || getLE r 0x7E 2 != check16 (r.take 0x7E) || decide (2 < rule) || decide (2 ≤ byteAt r 3)
    || !zeroAt r 0x11 7 || !zeroAt r 0x70 14 || lo == 0 || decide (2 ^ 34 < rRows r * rCols r)
    || (rule == 1 && (decide (16384 < lo) || decide (1048576 < hi))) || (rule == 2 && decide (16384 < hi))
    || (rW r != 1 && rW r != 2) || decide (2 < rG r) || decide (2 < rM r)
    || (if rule = 2 then (rP r != 0 && rP r != 2) || (rPexp r != 2 && rPexp r != 4) else rP r != 0 || rPexp r != 0)
    || (List.range 7).any (fun k => if k < used then rVa r k == 0 || rVa r k % 64 != 0 else rVa r k != 0)
    || rangesMeet ((va, 128) :: rArrays r)

/-- A record with its CHECK. -/
def sealRecord (r : List Byte) : List Byte := putAt r 0x7E (natLE 2 (check16 (r.take 0x7E)))

/-! ### Bodies (R439, R440, R447) -/

/-- SRL_UPDATE body. BIND_VA and COEF_VA have no alignment the spec states (log entry 31). -/
def checkSrlUpdate (b : List Byte) : Nat :=
  failIf (byteAt b 0 % 4 != 0 || decide (16 ≤ byteAt b 1) || decide (3 ≤ byteAt b 2) || decide (64 < byteAt b 3)
    || !zeroAt b 0x1C 4 || !zeroAt b 0x58 8 || getLE b 0x20 8 % 128 != 0 || getLE b 0x28 8 % 4096 != 0
    || getLE b 0x48 8 % 32 != 0 || decide (8 < byteAt b 1)
    || (getLE b 0x50 8 == 0 && (!bitOf (byteAt b 0) 5 || bitOf (byteAt b 0) 4))) 1

/-- SRL_ROOT body. -/
def checkSrlRoot (b : List Byte) : Nat :=
  let eps := decodeElem false 0 (getLE b 4 4)
  failIf (decide (32 ≤ byteAt b 0) || byteAt b 0 == 0 || decide (3 ≤ byteAt b 1) || decide (64 < byteAt b 2) || !zeroAt b 3 1
    || !zeroAt b 0x0C 4 || getLE b 0x10 8 % 128 != 0 || getLE b 0x18 8 % 4096 != 0
    || eps.s || eps.cls == .nan || eps.cls == .zero) 1

/-- Scratch an SRL_UPDATE requires (R458). -/
def updateScratch (r : List Byte) (qf : Nat) : Nat :=
  let qb := srlW qf
  let k := min (rRows r) (rCols r)
  let n := max (rRows r) (rCols r)
  let x := if rRule r = 0 then 0
    else if rRule r = 1 then (12 + qb) * k * n + (8 + 2 * qb) * k ^ 2
    else (12 + 3 * qb) * rRows r * rCols r + qb * (rRows r ^ 2 + rCols r ^ 2)
  4096 * ceilDiv x 4096

/-- Scratch an SRL_ROOT requires (R458). -/
def rootScratch (r : List Byte) (qf : Nat) : Nat :=
  4096 * ceilDiv ((16 + 4 * srlW qf) * max (rRows r) (rCols r) ^ 2) 4096

/-- Whether the partition owns no cluster of a die whose carve-out allows a borrow (R441 step 6). -/
def noArrays (d p : Nat) (s : State) : Bool :=
  decide (s.clu.carve.getD d 0 < 2) || !(List.range 64).any (fun c => s.ownsCluster p d c)

/-! ### Elements and products (R442, R445) -/

/-- dec: the binary32 value of an element. -/
def srlDec (red : Bool) (fmt v : Nat) : Nat := (cvtLane red fmt 0 0 false 0 v).1

/-- cvt: a binary32 value in a format. -/
def srlCvt (red : Bool) (fmt rm : Nat) (sat : Bool) (r v : Nat) : Nat := (cvtLane red 0 fmt rm sat r v).1

/-- A matrix by rows. -/
abbrev Mat := List (List Nat)

/-- Transposition. -/
def transposeM (cols : Nat) (m : Mat) : Mat := (List.range cols).map (fun j => m.map (fun row => row.getD j 0))

/-- Every element under a function. -/
def mapM (g : Nat → Nat) (m : Mat) : Mat := m.map (fun row => row.map g)

/-- q: every element in QFMT, RNE, saturating (R442). -/
def qMat (red : Bool) (qf : Nat) (m : Mat) : Mat := mapM (srlCvt red qf 0 true 0) m

/-- Sum of products of two strings of elements in ascending K order, drained to binary32 (R71 to R83, R445). -/
def dotProd (red : Bool) (fmt : Nat) (init : Window) (xs ys : List Nat) : Nat :=
  drainTo red 0 false (windowSteps init (List.zipWith (fun x y => mulNum (decodeElem red fmt x) (decodeElem red fmt y)) xs ys))

/-- prod(P, Q, C), with Q given by its columns (R445). -/
def prodM (red : Bool) (qf : Nat) (p qcols : Mat) (c : Option Mat) : Mat :=
  p.zipIdx.map (fun row => qcols.zipIdx.map (fun col =>
    let init := match c with
      | some m => initialWindow (decodeElem red 0 ((m.getD row.2 []).getD col.2 0))
      | none => {}
    dotProd red qf init row.1 col.1))

/-- fro2: the window sum of squares in row-major order (R445). -/
def fro2 (red : Bool) (m : Mat) : Nat := dotProd red 0 {} m.flatten m.flatten

/-- Every element times a binary32 factor. -/
def scaleM (red : Bool) (k : Nat) (m : Mat) : Mat := mapM (fun v => (fmul red false k v).1) m

/-- FSUB. -/
def fsub (red : Bool) (a b : Nat) : Nat := (fma red false true a 0x3F800000 b).1

/-- The diagonal under one function of the element, the rest under another. -/
def diagM (on off : Nat → Nat) (m : Mat) : Mat :=
  m.zipIdx.map (fun row => row.1.zipIdx.map (fun x => if x.2 = row.2 then on x.1 else off x.1))

/-- The coefficient triples of the iterations: the table's, or the default (R445). -/
def nsCoefs (n : Nat) (table : List Byte) : List (Nat × Nat × Nat) :=
  (List.range n).map (fun j =>
    if table = [] then (0x40400000, 0xC04CCCCD, 0x3F99999A)
    else (getLE table (12 * j) 4, getLE table (12 * j + 4) 4, getLE table (12 * j + 8) 4))

/-- ORTHO(D) times OSCALE (R445). -/
def orthoM (red : Bool) (qf eps oscale cols : Nat) (coefs : List (Nat × Nat × Nat)) (dm : Mat) : Mat :=
  let tall := decide (cols < dm.length)
  let x := if tall then transposeM cols dm else dm
  let n := max cols dm.length
  let g := (rsqrt red (fadd red (fro2 red x) eps).1).1
  let x := coefs.foldl (fun x (k : Nat × Nat × Nat) =>
    let xq := qMat red qf x
    let a := prodM red qf xq xq none
    let aq := qMat red qf a
    let b := prodM red qf (qMat red qf (scaleM red k.2.2 a)) (transposeM aq.length aq) (some (scaleM red k.2.1 a))
    prodM red qf (qMat red qf b) (transposeM n xq) (some (scaleM red k.1 x))) (scaleM red g x)
  let u := scaleM red oscale x
  if tall then transposeM n u else u

/-- The inverse p-th root iteration of one factor: X, and whether it converged (R448, R449). -/
def rootM (red : Bool) (qf p iters eps tol : Nat) (a : Mat) : Mat × Bool :=
  let n := a.length
  let p1 := if p = 2 then 0x40400000 else 0x40A00000
  let inv := if p = 2 then 0x3F000000 else 0x3E800000
  let a := diagM (fun v => (fadd red v eps).1) id a
  let sq := fro2 red a
  let nrm := (fmul red false sq (rsqrt red sq).1).1
  let rr := (fmul red false p1 (rcp red (fadd red nrm nrm).1).1).1
  let x0 := (exp2 red (fmul red false (log2 red rr).1 inv).1).1
  let r := (List.range iters).foldl (fun (r : Mat × Mat) _ =>
    let t := diagM (fun v => (fmul red false inv (fsub red p1 v)).1) (fun v => (fmul red false (inv + 0x80000000) v).1) r.2
    let tq := qMat red qf t
    let tc := transposeM n tq
    let x := prodM red qf (qMat red qf r.1) tc none
    let t2 := prodM red qf tq tc none
    let t2q := qMat red qf t2
    let t2 := if p = 4 then prodM red qf t2q (transposeM n t2q) none else t2
    (x, prodM red qf (qMat red qf t2) (transposeM n (qMat red qf r.2)) none))
    (diagM (fun _ => x0) (fun _ => 0) a, scaleM red rr a)
  let rho := fro2 red (diagM (fun v => fsub red v 0x3F800000) id r.2)
  let fin := (f32 red rho).cls == .fin || (f32 red rho).cls == .zero
  (r.1, fin && (fcmp red 2 rho (fmul red false tol tol).1).1)

/-! ### HBM arrays -/

/-- A matrix read from HBM, as encodings. -/
def readMat (rq : Req) (va rows cols fmt : Nat) (s : State) : Acc Mat :=
  let w := fmtWidth fmt
  (vaRead rq va (rows * cols * w / 8) s).bind fun bs s =>
    .ok ((List.range rows).map (fun r => (List.range cols).map (fun c => packedGet bs w (r * cols + c)))) s

/-- The bytes of a matrix in a format. -/
def matBytes (fmt : Nat) (m : Mat) : List Byte := packElems (fmtWidth fmt) m.flatten

/-- Bytes of scratch hold what the command left there, which the spec does not define: free values. Scratch must be mapped
writable (R458). -/
def writeScratch (rq : Req) (va n : Nat) (s : State) : Acc Unit :=
  let k := s.openCount
  vaWrite rq va ((List.range n).map (fun i => BitVec.ofNat 8 (Config.freeValue (k + i)))) { s with openCount := k + n }

/-! ### The update (R443, R444, R446) -/

/-- What a command writes in its commit: arrays as (address, bytes) in order, and the bytes of its digest. -/
structure SrlResult where
  writes : List (Nat × List Byte)
  digest : List Byte

/-- A value drawn for an element of M' (`mom`) or W' (R444). -/
def srlDraw (bind : Binding) (step : Nat) (mom : Bool) (r c : Nat) : Nat :=
  let i := (bind.ctx.ibase + r * bind.irow + c * bind.icol) % two64
  drawRandom bind.ctx.seed bind.ctx.job (step % 4294967296) bind.ctx.layer bind.ctx.site 1
    (if mom then Nat.lor i (2 ^ 63) else i)

/-- KRON(D, G), with the statistics if they are accumulated: (U, L, R) (R446). -/
def kronM (red : Bool) (qf oscale beta2 : Nat) (stats : Bool) (rec_ : List Byte) (dm gm l r li ri : Mat) : Mat × Mat × Mat :=
  let cols := rCols rec_
  let pf := rP rec_
  let dec := srlDec red pf
  let gq := qMat red qf gm
  let gt := transposeM cols gq
  let back := fun m => mapM (srlCvt red pf 0 true 0) m
  let l2 := if stats then back (prodM red qf gq gq (some (scaleM red beta2 (mapM dec l)))) else l
  let r2 := if stats then back (prodM red qf gt gt (some (scaleM red beta2 (mapM dec r)))) else r
  let y := prodM red qf (qMat red qf (mapM dec li)) (transposeM cols (qMat red qf dm)) none
  let u := scaleM red oscale (prodM red qf (qMat red qf y) (transposeM cols (qMat red qf (mapM dec ri))) none)
  (u, l2, r2)

/-- The new state of an SRL_UPDATE (R443). -/
def updateResult (rq : Req) (red : Bool) (b rec_ bindB coefB : List Byte) (s : State) : Acc SrlResult :=
  let rows := rRows rec_
  let cols := rCols rec_
  let fl := byteAt b 0
  let qf := byteAt b 2
  let sat := bitOf fl 3
  let beta := getLE b 8 4
  let step := getLE b 0x38 8 + 1
  let bind := bindingOf bindB
  (readMat rq (rVa rec_ 1) rows cols (rG rec_) s).bind fun g s =>
  (readMat rq (rVa rec_ 2) rows cols (rM rec_) s).bind fun m s =>
  (readMat rq (rVa rec_ 0) rows cols (rW rec_) s).bind fun w s =>
    let gm := mapM (srlDec red (rG rec_)) g
    let at_ := fun (x : Mat) (r c : Nat) => (x.getD r []).getD c 0
    let grid := fun (h : Nat → Nat → Nat) => (List.range rows).map (fun r => (List.range cols).map (fun c => h r c))
    let mNew := grid fun r c =>
      srlCvt red (rM rec_) (if bitOf fl 4 then 4 else 0) sat (if bitOf fl 4 then srlDraw bind step true r c else 0)
        (fma red false false beta (srlDec red (rM rec_) (at_ m r c)) (at_ gm r c)).1
    let dm := grid fun r c =>
      let mt := srlDec red (rM rec_) (at_ mNew r c)
      if bitOf fl 6 then (fma red false false beta mt (at_ gm r c)).1 else mt
    let finish := fun (u : Mat) (more : List (Nat × List Byte)) (tail : List Byte) (s : State) =>
      let wNew := grid fun r c =>
        let wv := srlDec red (rW rec_) (at_ w r c)
        let t := (fma red false false (getLE b 0x0C 4) wv (at_ u r c)).1
        let wn := (fma red true false (getLE b 4 4) t wv).1
        srlCvt red (rW rec_) (if bitOf fl 5 then 0 else 4) sat (if bitOf fl 5 then 0 else srlDraw bind step false r c) wn
      let wb := matBytes (rW rec_) wNew
      let mb := matBytes (rM rec_) mNew
      (.ok { writes := (rVa rec_ 2, mb) :: (rVa rec_ 0, wb) :: more, digest := wb ++ mb ++ tail } s : Acc SrlResult)
    if rRule rec_ = 0 then finish dm [] [] s
    else if rRule rec_ = 1 then
      finish (orthoM red qf (getLE b 0x10 4) (getLE b 0x14 4) cols (nsCoefs (byteAt b 1) coefB) dm) [] [] s
    else
      let pf := rP rec_
      (readMat rq (rVa rec_ 3) rows rows pf s).bind fun l s =>
      (readMat rq (rVa rec_ 4) cols cols pf s).bind fun r s =>
      (readMat rq (rVa rec_ 5) rows rows pf s).bind fun li s =>
      (readMat rq (rVa rec_ 6) cols cols pf s).bind fun ri s =>
        let stats := bitOf fl 2
        let (u, l2, r2) := kronM red qf (getLE b 0x14 4) (getLE b 0x18 4) stats rec_ dm gm l r li ri
        let lb := matBytes pf l2
        let rb := matBytes pf r2
        finish u (if stats then [(rVa rec_ 3, lb), (rVa rec_ 4, rb)] else []) (lb ++ rb) s

/-! ### Commit (R450 to R453) -/

/-- A command fails inside its commit: the record keeps TORN (R451). -/
def tornEnd (d q seq status : Nat) (id : Nat × Nat) (s : State) : State :=
  endCommand q seq status 0x8000 (tornEvent d q id (dropSorrel q seq s))

/-- The state before a command, with its record marked TORN and its clusters given back: a commit that waits at a stopped stack
waits there (R220, R450, R451). -/
def markedWait (q seq va : Nat) (rec_ : List Byte) (rq : Req) (s0 : State) : State :=
  match vaWrite rq va (sealRecord (putAt rec_ 3 [1])) s0 with
  | .ok _ t => srlOwn rq.die q seq 4 (some (rStep rec_, rId rec_)) (dropSorrel q seq t)
  | _ => s0

/-- A stage of the commit: the next stage, the torn end, or a wait inside the commit. -/
def tornAcc {α : Type} (q seq va : Nat) (rec_ : List Byte) (rq : Req) (s0 : State) (x : Acc α) (g : α → State → State) : State :=
  match x with
  | .ok a s => g a s
  | .fault k a s => tornEnd rq.die q seq (faultStatus k) (rStep rec_, rId rec_) (recordFault rq k a s)
  | .wait m a _ => waitAtStack ⟨m, q, seq, rq.unit, a, none⟩ (markedWait q seq va rec_ rq s0)

/-- A stage of a command that may already have marked its record: then its failure is inside the commit (R451). -/
def srlAcc {α : Type} (q seq : Nat) (rq : Req) (s0 : State) (x : Acc α) (g : α → State → State) : State :=
  match s0.srlTorn q seq, x with
  | some id, .fault k va s => tornEnd rq.die q seq (faultStatus k) id (recordFault rq k va s)
  | _, x => finishAcc q seq rq s0 x g

/-- The digest of a command (R452). -/
def srlDigest (rec_ : List Byte) (state : List Byte) : Nat :=
  crc64 (state ++ rec_.take 0x18 ++ (rec_.drop 0x50).take 16 ++ (rec_.drop 0x68).take 8)

/-- The digest record of a command from the tensor record it committed (R453). -/
def digestRecord (kind : Nat) (rec_ : List Byte) : List Byte :=
  withCheck (natLE 8 (rId rec_) ++ natLE 8 (rStep rec_) ++ (rec_.drop 0x60).take 8 ++ natLE 1 kind ++ zeros 5)

/-- Step 5 of R450: the digest record, if one is wanted, and the end of the command; a wait at a stopped stack keeps what is
committed. -/
def srlTell (q seq : Nat) (rq : Req) (digestVa kind : Nat) (rec_ : List Byte) (s : State) : State :=
  if digestVa = 0 then endCommand q seq 0 0 s
  else match vaWrite rq digestVa (digestRecord kind rec_) s with
    | .ok _ s => endCommand q seq 0 0 (dropSorrel q seq s)
    | .fault k va s => endCommand q seq (faultStatus k) 0 (dropSorrel q seq (recordFault rq k va s))
    | .wait m va _ => waitAtStack ⟨m, q, seq, rq.unit, va, none⟩ (srlOwn rq.die q seq 6 none s)

/-- The commit of a command from the result of `body`: under `stream` the record is marked before the body runs (R450). -/
def srlCommit (q seq : Nat) (rq : Req) (s0 : State) (va : Nat) (rec_ next : List Byte) (stream : Bool) (kind digestVa : Nat)
    (body : State → Acc SrlResult) (s : State) (done : State → State) : State :=
  let mark := fun s => vaWrite rq va (sealRecord (putAt rec_ 3 [1])) s
  let finish := fun (r : SrlResult) s =>
    tornAcc q seq va rec_ rq s0 (Acc.forEach (fun p s => vaWriteWhole rq p.1 p.2 s) r.writes s) fun _ s =>
      let last := sealRecord (putAt next 0x60 (natLE 8 (srlDigest next r.digest)))
      tornAcc q seq va rec_ rq s0 (vaWrite rq va last s) fun _ s => srlTell q seq rq digestVa kind last (done s)
  if stream then
    srlAcc q seq rq s0 (mark s) fun _ s => tornAcc q seq va rec_ rq s0 (body s) finish
  else
    finishAcc q seq rq s0 (body s) fun r s => finishAcc q seq rq s0 (mark s) fun _ s => finish r s

/-! ### Running (R435, R441, R454) -/

/-- Whether Sorrel may take up a held command now: it runs none, the command is the oldest held whose partition has none in
progress or set aside, and no command set aside has an eligible cluster (R435). -/
def srlMayStart (d q : Nat) (f : Flight) (s : State) : Bool :=
  let x := s.srlOf d
  let p := (s.queue q).part
  let busy := fun n => x.aside.any (fun a => (s.queue a.queue).part == n)
  let held := (s.srlHeld d).filter (fun h => !busy (s.queue h.1).part)
  x.cur.isNone && !busy p && held.all (fun h => decide (f.order ≤ h.2.order))
    && x.aside.all (fun a => s.eligible d (s.queue a.queue).part == [])

/-- A command that needs arrays takes clusters and is in progress, or is set aside (R435, R454). -/
def srlBegin (d q seq limit : Nat) (s : State) : State :=
  let p := (s.queue q).part
  let s := srlTake d q seq p limit s
  let x := s.srlOf d
  if s.borrowed d q seq = [] then
    (s.setSrl d { x with aside := x.aside ++ [{ queue := q, seq := seq, since := s.now }] }).updFlight q seq
      (fun f => { f with phase := 5 })
  else srlOwn d q seq 3 none s

/-- What the checks of R441 leave: the record, the binding, the coefficients. -/
structure SrlInput where
  rec_ : List Byte
  bind : List Byte
  coefs : List Byte

/-- Read the record, the binding and the coefficient table of an SRL_UPDATE (R441). -/
def updateInput (rq : Req) (b : List Byte) (s : State) : Acc SrlInput :=
  let bva := getLE b 0x50 8
  let cva := getLE b 0x40 8
  (vaRead rq (getLE b 0x20 8) 128 s).bind fun r s =>
  (vaRead rq bva (if bva = 0 then 0 else 40) s).bind fun bd s =>
  (vaRead rq cva (if cva = 0 ∨ rRule r ≠ 1 then 0 else 12 * byteAt b 1) s).bind fun co s =>
    .ok { rec_ := r, bind := bd, coefs := co } s

/-- Steps 1 to 5 of R441 for SRL_UPDATE. -/
def updateChecks (b : List Byte) (x : SrlInput) : Nat :=
  firstFail [failIf (recordBad (getLE b 0x20 8) x.rec_ || bindingBad x.bind) 0x12, failIf (byteAt x.rec_ 3 == 1) 0x0505,
    failIf (rStep x.rec_ != getLE b 0x38 8) 0x0504, failIf (rRule x.rec_ == 1 && byteAt b 1 == 0) 1,
    failIf (decide (getLE b 0x30 8 < updateScratch x.rec_ (byteAt b 2))) 1]

/-- An SRL_UPDATE computes and commits; one that has marked its record goes on inside its commit. -/
def updateFinish (q seq : Nat) (rq : Req) (s0 : State) (b : List Byte) (x : SrlInput) (s : State) : State :=
  let d := rq.die
  let red := s.reduced d
  let r := x.rec_
  let next := putAt (putAt r 3 [0]) 0x50 (natLE 8 (getLE b 0x38 8 + 1))
  let n := updateScratch r (byteAt b 2)
  let body := fun s =>
    (if rRule r = 0 then Acc.ok () s else writeScratch rq (getLE b 0x28 8) n s).bind fun _ s =>
      updateResult rq red b r x.bind x.coefs s
  srlCommit q seq rq s0 (getLE b 0x20 8) r next (rRule r == 0 || (s0.srlTorn q seq).isSome) 0 (getLE b 0x48 8) body (dropSorrel q seq s) fun s =>
    pmcCount d 9 (s.queuePart q) (rRows r * rCols r) (bump (ZG_SRL_ELEMS d) (rRows r * rCols r) (bump (ZG_SRL_UPDATES d) 1 s))

/-- CHECK_FINITE: whether the gradient holds a NaN or an infinity (R441 step 7). -/
def gradientBad (rq : Req) (r : List Byte) (s : State) : Acc Bool :=
  (readMat rq (rVa r 1) (rRows r) (rCols r) (rG r) s).bind fun g s =>
    .ok (g.flatten.any (fun v => let c := (decodeElem false (rG r) v).cls; c == .nan || c == .inf)) s

/-- What the residue compare of the element datapath does to a finishing command: one mismatch is recomputed and counted; a
second fails the command, with the record at `va` marked when the state was already being written (R450, R451, R467). -/
def srlMismatch (res : Nat) (q seq : Nat) (rq : Req) (s0 : State) (va : Nat) (rec_ : List Byte) (torn : Bool) (s : State)
    (go : State → State) : State :=
  let d := rq.die
  let count := fun (s : State) =>
    let s := bump (ZG_INT_SRL_RES d) 1 s
    auditEvent { cls := 0x0C, code := 0, src := d, queue := q, part := s.queuePart q,
                 data := (s.reg (ZG_INT_SRL_RES d)).toNat } s
  if res = 0 then go s
  else if res = 1 then go (count s)
  else
    let s := dropSorrel q seq (count s)
    if torn then
      srlAcc q seq rq s0 (vaWrite rq va (sealRecord (putAt rec_ 3 [1])) s) fun _ s => tornEnd d q seq 0x31 (rStep rec_, rId rec_) s
    else endCommand q seq 0x31 0 s

/-- A command that waited to write its digest record writes it (R450). -/
def srlTellLater (q seq : Nat) (rq : Req) (va digestVa : Nat) (s : State) : State :=
  finishAcc q seq rq s (vaRead rq va 128 s) fun r s => srlTell q seq rq digestVa 0 r s

/-- SRL_UPDATE: its checks; rule 0 runs at once; another rule takes clusters, and runs when its command comes again with
clusters borrowed (R435, R441, R443, R454); `res` counts the mismatches of one element's compare (R467). -/
def execSrlUpdate (q : Qn) (seq : Word64) (res : Fin 3) (s : State) : Out :=
  .next <| withFlight q seq.toNat 0x70 s fun f =>
    let b := dBody f.desc
    let d := (s.queue q).die
    let rq := s.req q f 4
    let bad := checkSrlUpdate b
    if f.phase = 5 then s
    else if bad ≠ 0 then endCommand q seq.toNat bad 0 s
    else if f.phase = 6 then srlTellLater q seq.toNat rq (getLE b 0x20 8) (getLE b 0x48 8) s
    else if f.phase = 3 ∨ f.phase = 4 then
      if f.phase = 3 ∧ s.borrowed d q seq.toNat = [] then s
      else srlAcc q seq.toNat rq s (updateInput rq b s) fun x s1 =>
        srlMismatch res q seq.toNat rq s (getLE b 0x20 8) x.rec_ (f.phase == 4) s1 (updateFinish q seq.toNat rq s b x)
    else if !srlMayStart d q f s then s
    else finishAcc q seq.toNat rq s (updateInput rq b s) fun x s1 =>
      let st := firstFail [updateChecks b x, failIf (rRule x.rec_ != 0 && noArrays d rq.part s) 0x0501]
      if st ≠ 0 then endCommand q seq.toNat st 0 s1
      else
        let scan := if bitOf (byteAt b 0) 7 then gradientBad rq x.rec_ s1 else .ok false s1
        finishAcc q seq.toNat rq s scan fun bad s2 =>
          if bad then
            endCommand q seq.toNat 0x0502 0
              (srlEvent d 1 q (s2.queuePart q) (rStep x.rec_) (rId x.rec_) (bump (ZG_SRL_SKIPPED d) 1 s2))
          else if rRule x.rec_ = 0 then srlMismatch res q seq.toNat rq s (getLE b 0x20 8) x.rec_ true s2 (updateFinish q seq.toNat rq s b x)
          else srlBegin d q seq.toNat (byteAt b 3) s2

/-- Steps 1 to 3 and 5 of R441, and the record's rule, for SRL_ROOT (R447). -/
def rootChecks (b r : List Byte) : Nat :=
  firstFail [failIf (recordBad (getLE b 0x10 8) r) 0x12, failIf (rRule r != 2) 1, failIf (byteAt r 3 == 1) 0x0505,
    failIf (rStep r != getLE b 0x28 8) 0x0504, failIf (decide (getLE b 0x20 8 < rootScratch r (byteAt b 1))) 1]

/-- SRL_ROOT computes, and commits when both factors converge (R448, R449). -/
def rootFinish (q seq : Nat) (rq : Req) (s0 : State) (b r : List Byte) (s : State) : State :=
  let d := rq.die
  let red := s.reduced d
  let pf := rP r
  let s := dropSorrel q seq s
  let input := (writeScratch rq (getLE b 0x18 8) (rootScratch r (byteAt b 1)) s).bind fun _ s =>
    (readMat rq (rVa r 3) (rRows r) (rRows r) pf s).bind fun l s =>
    (readMat rq (rVa r 4) (rCols r) (rCols r) pf s).bind fun m s => Acc.ok (l, m) s
  srlAcc q seq rq s0 input fun x s =>
    let root := fun m => rootM red (byteAt b 1) (rPexp r) (byteAt b 0) (getLE b 4 4) (getLE b 8 4) (mapM (srlDec red pf) m)
    let (l, okL) := root x.1
    let (m, okR) := root x.2
    if okL && okR then
      let lb := matBytes pf (mapM (srlCvt red pf 0 true 0) l)
      let rb := matBytes pf (mapM (srlCvt red pf 0 true 0) m)
      let next := putAt (putAt r 3 [0]) 0x58 (natLE 8 (rStep r))
      srlCommit q seq rq s0 (getLE b 0x10 8) r next (s0.srlTorn q seq).isSome 1 0
        (fun s => .ok { writes := [(rVa r 5, lb), (rVa r 6, rb)], digest := lb ++ rb } s) s (bump (ZG_SRL_ROOTS d) 1)
    else
      endCommand q seq 0x0503 (b2n (!okL) + 2 * b2n (!okR))
        (srlEvent d 2 q (s.queuePart q) (rStep r) (rId r) (bump (ZG_SRL_DIVERGED d) 1 s))

/-- SRL_ROOT: its checks; it takes clusters, and runs when its command comes again with clusters borrowed (R435, R447,
R448, R454); `res` counts the mismatches of one element's compare (R467). -/
def execSrlRoot (q : Qn) (run : RootRun) (s : State) : Out :=
  .next <| withFlight q run.seq.toNat 0x71 s fun f =>
    let b := dBody f.desc
    let d := (s.queue q).die
    let rq := s.req q f 4
    let bad := checkSrlRoot b
    if f.phase = 5 then s
    else if bad ≠ 0 then endCommand q run.seq.toNat bad 0 s
    else if f.phase = 3 ∨ f.phase = 4 then
      if f.phase = 3 ∧ s.borrowed d q run.seq.toNat = [] then s
      else srlAcc q run.seq.toNat rq s (vaRead rq (getLE b 0x10 8) 128 s) fun r s1 =>
        srlMismatch run.res q run.seq.toNat rq s (getLE b 0x10 8) r (f.phase == 4) s1 (rootFinish q run.seq.toNat rq s b r)
    else if !srlMayStart d q f s then s
    else finishAcc q run.seq.toNat rq s (vaRead rq (getLE b 0x10 8) 128 s) fun r s1 =>
      let st := firstFail [rootChecks b r, failIf (noArrays d rq.part s) 0x0501]
      if st ≠ 0 then endCommand q run.seq.toNat st 0 s1 else srlBegin d q run.seq.toNat (byteAt b 2) s1

/-- BORROW_MAX of a held command. -/
def srlLimit (q seq : Nat) (s : State) : Nat :=
  match s.flight q seq with
  | some f => byteAt (dBody f.desc) (if dOpc f.desc = 0x70 then 3 else 2)
  | none => 0

/-- SRL_RESUME: the oldest command set aside that has an eligible cluster goes on, while Sorrel runs none (R435, R454). -/
def execSrlResume (die : Die) (s : State) : Out :=
  .next <|
    let x := s.srlOf die
    if x.cur.isSome then s
    else match x.aside.find? (fun a => s.eligible die (s.queue a.queue).part != []) with
      | none => s
      | some a =>
        let s := srlTake die a.queue a.seq (s.queue a.queue).part (srlLimit a.queue a.seq s) s
        if s.borrowed die a.queue a.seq = [] then s
        else
          srlOwn die a.queue a.seq 3 none (s.setSrl die { s.srlOf die with aside := x.aside.filter (· ≠ a) })

/-- Whether a command of the owner's queues is ready to use a cluster: dispatched, or at the head of a running queue
(R455). -/
def State.ownerWants (s : State) (d p c : Nat) : Bool :=
  s.ownerUses d c || s.host.queues.any (fun x => !isAdmin x.1 && x.2.die == d && x.2.part == p && x.2.state == .running &&
    (x.2.fetched.take 1 ++ ((x.2.regions.take 1).map (fun r => r.lane.take 1)).flatten).any (fun desc =>
      match namedClusters desc with
      | some (first, n) => (clusterRange first n).contains c
      | none => false))

/-- SRL_SLICE_END: clusters that the owner wants, or whose owner changes, go back; others may join; with none left the
command is set aside, but not inside its commit (R435, R454, R455). -/
def execSrlSliceEnd (die : Die) (s : State) : Out :=
  .next <|
    match (s.srlOf die).cur with
    | none => s
    | some (q, seq) =>
      let p := (s.queue q).part
      let s := s.setSrl die { s.srlOf die with waitMs := s.rfld (ZG_SRL_CTRL die) 15 8 }
      if (s.flight q seq).any (fun f => f.phase != 3) then s else
      let back := (s.borrowed die q seq).filter (fun c =>
        s.ownerWants die p c || (s.clus die c).loan.any (·.ending) || !s.ownsCluster p die c)
      let s := back.foldl (fun s c => returnCluster die c s) s
      let cs := (s.eligible die p).filter (fun c => !back.contains c)
      let room := (if srlLimit q seq s = 0 then 64 else srlLimit q seq s) - (s.borrowed die q seq).length
      let s := (cs.take room).foldl (fun s c => takeCluster die q seq p c s) s
      if s.borrowed die q seq = [] then
        let x := s.srlOf die
        (s.setSrl die { x with cur := none, aside := x.aside ++ [{ queue := q, seq := seq, since := s.now }] }).updFlight q seq
          (fun f => { f with phase := 5 })
      else s

/-- SRL_WAIT_EVENT: a command has waited WAIT_MS for a cluster: event 0x0B.0x04, once (R454). -/
def execSrlWaitEvent (q : Qn) (seq : Word64) (s : State) : Out :=
  .next <| match s.flight q seq.toNat with
    | none => s
    | some f =>
      let d := (s.queue q).die
      let x := s.srlOf d
      let ms := s.srlWaitMs d
      match x.aside.find? (fun a => a.queue == q.val && a.seq == seq.toNat) with
      | none => s
      | some a =>
        if ms = 0 ∨ a.raised = true ∨ s.now < a.since + ms * 1000000 then s
        else
          let va := getLE (dBody f.desc) (if dOpc f.desc = 0x70 then 0x20 else 0x10) 8
          let r := match vaRead (s.req q f 4) va 128 s with
            | .ok r _ => r
            | _ => []
          let s := s.setSrl d { x with aside := x.aside.map (fun y => if y = a then { a with raised := true } else y) }
          srlEvent d 4 q (s.queuePart q) (rStep r) (rId r) s

end Sys2Proof.Machine
end

