-- ==== Sys2Proof/Machine/BootOps.lean ====
section
/-! DEFINITION. The steps of bring-up and of the resets (19_startup_reset.md R568 to R589; 21_package_ordering.md R607 to
R613). -/
namespace Sys2Proof.Machine

/-! ### Events and stages (R572, R576, R588) -/

/-- An event of class 0x0F, with ZG_BOOT_LAST. -/
def bootEvent (code data sev : Nat) (s : State) : State :=
  let seq := (s.rfld ZG_BOOT_LAST 49 36 + 1) % 16384
  let s := (s.setRegN ZG_BOOT_LAST (seq * 2 ^ 36 + code * 2 ^ 32)).setRegN ZG_BOOT_LAST_NS s.now
  raiseEvent { cls := 0x0F, code := code, data := data, alarm := sev } s

/-- Set STAGE. -/
def setStage (n : Nat) (s : State) : State := s.setRfld ZG_BOOT_STATE 7 0 n

/-- Set READY. -/
def setReady (on : Bool) (s : State) : State := s.setRfld ZG_BOOT_STATE 15 15 (b2n on)

/-- FAIL_STATUS, FAIL_DETAIL and FAIL_DIE, with event 0x0F.0x02 for a failure in a stage. -/
def reportFailure (stage status detail die : Nat) (s : State) : State :=
  let s := ((s.setRfld ZG_BOOT_STATE 47 32 status).setRfld ZG_BOOT_STATE 31 24 detail).setRfld ZG_BOOT_STATE 23 21 die
  bootEvent 2 (status + stage * 65536 + detail * 2 ^ 24 + die * 2 ^ 32) 3 s

/-- A failure that stops bring-up: STAGE 11, until the reset class of R576. -/
def failBoot (status die : Nat) (s : State) : State :=
  let s := setReady false (setStage 11 (reportFailure s.stage status 0 die s))
  { s with boot := { s.boot with failUntil := if status = 0x0903 ∨ status = 0x0904 then 2 else 1, step13 := false } }

/-- The start-up count advances (R569). -/
def countStartup (s : State) : State :=
  let n := s.store.startups + 1
  ({ s with store := { s.store with startups := n }, integ := { s.integ with alive := [0, 0, 0, 0] } }).setRfld ZG_BOOT_STATE 63 48 n

/-! ### The health record at a start-up (R503, R541, R570, R571) -/

/-- Entries that HEALTH_CLEAR named are gone from the health record, for the dies that start up. -/
def dropCleared (ds : List Nat) (s : State) : State :=
  let gone := s.boot.healthClear.filter (fun e => ds.contains e.die)
  let keep := fun (e : HealthEntry) => !gone.contains e
  let s := { s with boot := { s.boot with health := s.boot.health.filter keep,
                                          healthClear := s.boot.healthClear.filter keep },
                    store := { s.store with health := s.store.health.filter keep } }
  { s with power := { s.power with overrides := s.power.overrides.filter (fun p => !gone.any (fun e => e.kind == 4 && e.die == p.1)) } }

/-- The voltage tables of dies that start up: the override of the health record, or the fused table (R502, R503). -/
def takeTables (ds : List Nat) (s : State) : State :=
  ds.foldl (fun s d =>
    let o := s.power.overrides.find? (fun p => p.1 == d)
    let t := (o.map Prod.snd).getD (s.fuses.vtables.getD d {})
    let rest := s.power.overriding.filter (· ≠ d)
    refreshTable d { s with power := { s.power with tables := s.power.tables.set d t,
                                                    overriding := if o.isSome then rest ++ [d] else rest } }) s

/-- The spare byte of a cluster as the health record sets it: SPARE_BAD as it is, DEGRADED for a recorded degradation, SUBST and
ARRAY for the recorded substitution, the first where there are several; a second one finds S in service, so the cluster is
degraded (R116 to R118, R468). -/
def applySpare (d : Nat) (subst degs : List HealthEntry) (s : State) (c : Nat) : State :=
  let mine := (subst.filter (fun e => e.index / 8 == c)).map (fun e => e.index % 8)
  let deg := degs.any (fun e => e.index == c) || decide (2 ≤ mine.eraseDups.length)
  let v := putBits (s.spareByte d c / 128 * 128) 6 6 (b2n deg)
  (setSpareByte d c (match mine with
    | a :: _ => putBits v 3 0 (8 + a)
    | [] => v) s).updClus d c fun x => { x with degraded := deg }

/-- Substitutions, degradations and retirements of a die are applied (R118, R212, R468, R572 step 12). -/
def applyHealth (d : Nat) (s : State) : State :=
  let mine := fun k => s.boot.health.filter (fun e => e.kind == k && e.die == d)
  let s := (List.range 64).foldl (applySpare d (mine 0) (mine 2)) s
  (mine 3).foldl (fun s e =>
    if (cget 0 s.hbm.bytes (frameAddr d e.index)).toNat < 128 then s.setFrameByte d e.index 0x40 else s) s

/-! ### Training (R185, R210 to R212, R232, R234) -/

/-- The receiving end that an entry of the repair map names. -/
def repairEnd (e : HealthEntry) : Nat := if e.index / 256 = 0 then 3 * e.die + e.index / 64 else 12 + e.die

/-- Wires of a strand that the repair map replaces (R232). -/
def storedWires (l k : Nat) (s : State) : List Nat :=
  (s.boot.health.filter (fun e => e.kind == 1 && e.index % 64 == k && linkOf (repairEnd e) == l)).map
    (fun e => intoEnd (repairEnd e) * 66 + e.value % 66)

/-- A strand is trained: the wires of the repair map are replaced again, then those that show an error; one that would need more than 4
spares in a direction, or that does not lock, stays DOWN (R232, R233). -/
def trainStrand (t : Training) (l : Nat) (s : State) (k : Nat) : State :=
  let s := s.setStrand l k { st := 1, wires := storedWires l k s }
  let found := fun (e : Nat) => (t.wires.filter (fun p => p.1.val == e && p.2.1.val == k)).map (fun p => p.2.2.val)
  let short := (linkEnds l).any (fun e => decide (4 < ((s.strand l k).repaired e).length + (found e).length))
  if short || t.down.any (fun p => p.1.val == l && p.2.val == k) then s.setStrand l k { s.strand l k with st := 3 }
  else (linkEnds l).foldl (fun s e => repairWires e k (found e) s) s

/-- A link is trained, strand by strand; nothing is in flight (R232). -/
def trainLink (t : Training) (s : State) (l : Nat) : State :=
  let s := (linkEnds l).foldl (fun s e =>
    let x := s.d2d
    { s with d2d := { x with tx := cclear x.tx (e * 64) (e * 64 + 64), rx := cclear x.rx (e * 64) (e * 64 + 64),
                             wire := cclear x.wire (e * 64) (e * 64 + 64), turn := cset 0 x.turn e 0,
                             out := cclear x.out (e * 16) (e * 16 + 16), arb := cclear x.arb (2 * e) (2 * e + 2) } }) s
  let s := (List.range (linkStrands l)).foldl (trainStrand t l) s
  let s := ((linkEnds l).filter (· < 12)).foldl (fun s e =>
    s.setRfld (ZG_D2D_PORT (endDie e) (portOf e)) 52 51 0 |>.setRfld (ZG_D2D_PORT (endDie e) (portOf e)) 27 27 0) s
  refreshPort l s

/-- Links trained at a start-up; a ring edge with too few strands stays out of service, with a critical alarm (R234,
R576). -/
def trainLinks (t : Training) (ls : List Nat) (s : State) : State :=
  let s := ls.foldl (trainLink t) s
  (ls.filter (fun l => decide (l < 4) && decide (s.strandsIn l 1 < s.edgeMin l))).foldl (fun s l =>
    raiseAlarm 0x0F 3 4 (s.reg ZG_BOOT_LAST).toNat (edgeOutOfService l (3 * l) s)) s

/-- The hub link, of those trained, that has no strand in service (R235, R576). -/
def deadHubLink (ls : List Nat) (s : State) : Option Nat :=
  (ls.find? (fun l => decide (4 ≤ l) && s.strandsIn l 1 == 0)).map (· - 4)

/-- The rows a stack has listed for repair, in the order of their entries. -/
def listedRows (m : Nat) (s : State) : List HealthEntry :=
  s.boot.health.filter (fun e => e.kind == 5 && e.die == m / 4 && e.index == m)

/-- Post-package repair of one listed row: the listing goes, the frames whose failed row it was are no longer retired, and a
record of kind 9 is written (R210, R212). The spec does not say which address of the row the record names. -/
def repairRow (m : Nat) (s : State) (e : HealthEntry) : State :=
  let healed := s.boot.health.filter (fun x => x.kind == 3 && x.die == m / 4 && x.value == e.value)
  let keep := fun (x : HealthEntry) => x != e && !healed.contains x
  let s := { s with boot := { s.boot with health := s.boot.health.filter keep },
                    store := { s.store with health := s.store.health.filter keep },
                    fuses := { s.fuses with repaired := cset 0 s.fuses.repaired m (cget 0 s.fuses.repaired m + 1) } }
  let s := healed.foldl (fun s x =>
    if s.boot.health.any (fun y => y.kind == 3 && y.die == x.die && y.index == x.index) then s
    else s.setFrameByte x.die x.index 0) s
  let (v, s) := s.draw
  errRecordAt 9 (m / 4 * 0x4000000000 + v % 0x100000000 * 64) m 0 0 255 255 s

/-- The stacks of a die are trained (R185); with `repair`, listed rows are repaired while spare rows remain (R210, R211). -/
def trainStack (t : Training) (repair : Bool) (s : State) (m : Nat) : State :=
  let slow := t.slow.any (fun x => x.val == m)
  let dead := t.dead.any (fun x => x.val == m)
  let rows := listedRows m s
  let fix := if repair then rows.take (Config.spareRows m - cget 0 s.fuses.repaired m) else []
  let r := stackReg m
  let v := setFld (setFld (s.reg r) 36 36 (b2n slow)) 35 35 (b2n !dead)
  let v := setFld (setFld v 34 26 (min fix.length 511)) 25 16 (min (rows.length - fix.length) 1023)
  let s := s.setReg r v
  let s := s.setStack m { s.stack m with selfRefresh := false, writeBacks := [], turn := none }
  let s := if slow && !dead then raiseEvent { cls := 5, code := 5, src := m / 4, data := m, alarm := 1, log := false } s else s
  if dead then s else fix.foldl (repairRow m) s

/-- The first stack of those trained that failed at both rates (R185). -/
def deadStack (t : Training) (ms : List Nat) : Option Nat := ms.find? (fun m => t.dead.any (fun x => x.val == m))

/-! ### Dies (R572, R580) -/

/-- The sequences of transactions from or to a die start afresh. -/
def dropNode {α : Type} (d : Nat) (m : List (Nat × α)) : List (Nat × α) :=
  m.filter (fun p => p.1 / 256 / 5 != d && p.1 / 256 % 5 != d)

/-- Everything of a die that a reset of it clears (R580): clusters, vector registers, Teasel slots, arrays and the commands on
them, objects, streams, transactions, update unit, stage contexts, admissions. Owner bytes stay. -/
def clearDie (d : Nat) (s : State) : State :=
  let s := dropFramesOf d s
  let onDie := fun q => (s.queue q).die == d
  let cl := (List.range 64).foldl (fun m c =>
    let x := cget ({} : ClusterSt) m (d * 64 + c)
    cset {} m (d * 64 + c) { ownTarget := x.ownTarget, degraded := x.degraded, lastBorrower := none }) s.clu.cl
  let arrays := (List.range 512).foldl (fun m i =>
    let x := cget ({} : ArraySt) m (d * 512 + i)
    cset {} m (d * 512 + i) { trans := x.trans }) s.tile.arrays
  let s := { s with
    hbm := { s.hbm with tlb := cset [] s.hbm.tlb d [], mapBuf := s.hbm.mapBuf.filter (fun p => p.1 / 131072 != d) },
    clu := { s.clu with cl := cl, moves := s.clu.moves.filter (fun m => !onDie m.queue) },
    tile := { s.tile with arrays := arrays, finals := cclear s.tile.finals (d * 64) (d * 64 + 64),
                          spills := cclear s.tile.spills (d * 64) (d * 64 + 64), runs := s.tile.runs.filter (fun r => r.die != d) },
    banks := cclear s.banks (slotTable d 0 0) (slotTable d 0 0 + 1024),
    syn := { s.syn with objs := cclear s.syn.objs (d * 4096) (d * 4096 + 4096),
                        detectors := cclear s.syn.detectors (d * 64) (d * 64 + 64) },
    d2d := { s.d2d with streams := s.d2d.streams.filter (fun x => x.die != d && x.sender != d),
                        txn := dropNode d s.d2d.txn, reqNext := dropNode d s.d2d.reqNext, seen := dropNode d s.d2d.seen,
                        reqHeld := cset [] s.d2d.reqHeld d [] },
    srl := s.srl.set d {},
    trn := { s.trn with stages := s.trn.stages.set d {}, lastRun := cclear s.trn.lastRun (d * 64) (d * 64 + 64) },
    coll := { s.coll with inbox := s.coll.inbox.filter (fun m => m.die != d) },
    wfn := { s.wfn with arrived := s.wfn.arrived.filter (fun a => a.port / 6 != d) } }
  let s := (List.range 4).foldl (fun s k =>
    s.setStack (4 * d + k) { scrubLoc := (s.stack (4 * d + k)).scrubLoc, selfRefresh := true }) s
  s.updPw d fun x => { k := x.k, vreq := x.vreq, vmaxCeil := x.vmaxCeil, tIdx := x.tIdx, cIdx := x.cIdx, sensors := x.sensors }

/-- Betony begins recovery work on a die, which enters reduced service with REASON 0x02 once its commands have ended (R68, R69). -/
def enterReduced (d : Nat) (s : State) : State := if s.reduced d then s else switchService d true 2 s

/-- Betony ends its work on a die, which returns to normal service (R68). -/
def leaveReduced (d : Nat) (s : State) : State := if s.reduced d then switchService d false 0 s else s

/-- The core voltage of a die steps to its NOM, within its limits (R572 step 4, R613); the steps themselves take time the
model leaves out. -/
def seekNom (d : Nat) (s : State) : State :=
  refreshPwd d (s.updPw d fun x => { x with k := min (s.vtable d).nom (min x.vreq x.vmaxCeil) })

/-- Every die takes a state in ZG_BOOT_DIES, but for those that are FAILED. -/
def setDies (v : Nat) (s : State) : State :=
  (List.range 4).foldl (fun s d => if s.dieFailed d then s else setDieState d v s) s

/-- The ports of a die begin to train, or stay OFF (R572 step 13, R583). -/
def trainPorts (d : Nat) (s : State) : State :=
  (List.range 6).foldl (fun s k =>
    let p := 6 * d + k
    if s.portState p = 1 then s else leaveTo p (if s.dieFailed d then 0 else 1) s) s

/-! ### Ready (R572 step 14, R574) -/

/-- Milliseconds since the reset under way began, in REFCLK time. -/
def State.bootMs (s : State) : Nat := (s.now - s.boot.startedAt) / 1000000

/-- Step 14: READY, its time, its events; MIN_SVN takes SVN of an image with RAISE_SVN (R572, R578, R581). -/
def becomeReady (s : State) : State :=
  let b := s.boot
  let s := { s with boot := { b with step13 := false, raiseSvn := false },
                    store := { s.store with minSvn := if b.raiseSvn then b.imageSvn else s.store.minSvn } }
  let s := (setReady true (setStage 10 s)).setRegN ZG_BOOT_READY_NS s.now
  let s := s.setRfld ZG_BOOT_STATE 19 16 b.resetClass
  let s := bootEvent 1 (s.bootMs % 4294967296 + b.resetClass * 4294967296) 0 s
  if b.resetClass = 2 then bootEvent 4 (s.bootMs % 4294967296) 0 (bump ZG_BOOT_WARMS 1 s) else s

/-- Step 13 begins: it ends at once without a plan, at the reference of the field, which is aligned at once, and with an
ALIGN_WAIT_MS of 0 (R574). -/
def beginStep13 (s : State) : State :=
  let s := setStage 9 { s with boot := { s.boot with step13 := true, step12At := s.now, thetas := [] } }
  if s.planned ∧ s.isReference = false ∧ s.rfld ZG_BOOT_CTRL 31 16 ≠ 0 then s
  else becomeReady (if s.isReference then refreshParent s else s)

/-- Step 13 ends after three exchanges that agree within 100 ns with a parent that is aligned: the timebase steps forward by
their mean once since the last cold reset (R34, R574). DESIGN CHOICE (log entry 36): the mean is a quotient of integers rounded
down, since the rule does not say how it is rounded. -/
def alignStep (s : State) : State :=
  let ts := s.boot.thetas
  let hi := ts.foldl max (ts.headD 0)
  let lo := ts.foldl min (ts.headD 0)
  if !s.boot.step13 || ts.length ≠ 3 || decide (100 < hi - lo) then s
  else
    let mean := ts.sum / 3
    if mean ≤ 0 ∨ s.rfld ZG_TIME_STATUS 2 2 = 1 then becomeReady s
    else
      let n := mean.toNat
      let s := { s with time := { s.time with now := (s.now + n) % two64, replica := s.time.replica.map (· + n) },
                        boot := { s.boot with startedAt := s.boot.startedAt + n, step12At := s.boot.step12At + n } }
      becomeReady (bootEvent 0x0A n 0 (s.setRfld ZG_TIME_STATUS 2 2 1))

end Sys2Proof.Machine
end

