-- ==== Sys2Proof/Machine/Align.lean ====
section
/-! DEFINITION. Time alignment over TIME packets (13_wefin_links_topology.md R390 to R392; 02_clockless_timing.md R34, R37;
19_startup_reset.md R574). -/
namespace Sys2Proof.Machine

/-- The body of a TIME packet; the port stamps T1 or T3 as it leaves (R391). -/
def timeBody (msg seq t1 t2 : Nat) (s : State) : List Byte :=
  natLE 1 msg ++ natLE 1 (s.rfld ZG_TOP_TIME 58 51) ++ natLE 2 seq ++ zeros 4 ++ natLE 8 t1 ++ natLE 8 t2 ++ zeros 8

/-- TIME_REQUEST: every 100 µs a REQUEST goes to the parent; a request left unanswered breaks the run of exchanges (R392). -/
def execTimeRequest (s : State) : Out :=
  .next <|
    match s.timeParent with
    | none => s
    | some p =>
      let w := s.wfn
      if s.now < w.timeReqAt + 100000 then s
      else
        let seq := (w.timeSeq + 1) % 65536
        let s := { s with wfn := { w with timeSeq := seq, timeReqAt := s.now, timeWait := true,
                                          timeGood := if w.timeWait then 0 else w.timeGood },
                          boot := { s.boot with thetas := if w.timeWait then [] else s.boot.thetas } }
        sendOneHop p (toPeer p 1 (timeBody 0 seq 0 0 s) s) s

/-- A TIME packet with one MSG that arrived at a port is checked and acted on (R368). -/
def receiveTime (p msg : Nat) (s : State) (go : Arrived → List Byte → State → State) : State :=
  match takeArrived p (fun b => pkType b == 1 && byteAt b 24 == msg) s with
  | none => s
  | some (a, s) => receiveChecks a s fun b s => go a (pkBody b) s

/-- TIME_REQUEST_RECEIVE: the parent answers with SEQ and T1 as they came, and its own DEPTH, T2 and T3 (R391). -/
def execTimeRequestReceive (p : Fin 24) (s : State) : Out :=
  .next <| receiveTime p 0 s fun a b s =>
    sendOneHop p (toPeer p 1 (timeBody 1 (getLE b 2 2) (getLE b 8 8) a.at_ s) s) s

/-- ALIGNED is cleared: DEPTH 0xFF, no slew, event 0x09.0x0A and the alarm of R37. -/
def loseAlignment (s : State) : State :=
  let s := ((s.setRfld ZG_TIME_STATUS 1 1 0).setRfld ZG_TIME_STATUS 31 16 0).setRfld ZG_TOP_TIME 58 51 255
  let s := { s with wfn := { s.wfn with timeGood := 0 } }
  raiseAlarm 9 2 4 0 (wefinEvent 0x0A 4 31 (255 * 2) false s)

/-- An integer limited to a range. -/
def clampInt (lo hi x : Int) : Int := max lo (min hi x)

/-- θ of an exchange (R392): half of the difference, rounded down to a nanosecond. -/
def thetaOf (t1 t2 t3 t4 : Nat) : Int := (((t2 : Int) - t1) - ((t4 : Int) - t3)) / 2

/-- An exchange gives θ toward a parent of depth `pd`: OFFSET_NS, the slew of R34, ALIGNED after ten within 20 ns, and the
offsets that step 13 waits for (R392, R574). -/
def takeTheta (theta : Int) (pd : Nat) (s : State) : State :=
  let aligned := s.rfld ZG_TIME_STATUS 1 1 = 1
  let slew := clampInt (-200) 200 (10 * theta)
  let s := s.setRfld ZG_TOP_TIME 31 0 (BitVec.ofInt 32 (clampInt (-2147483648) 2147483647 theta)).toNat
  let s := s.setRfld ZG_TIME_STATUS 31 16 (BitVec.ofInt 16 slew).toNat
  let good := if -20 ≤ theta ∧ theta ≤ 20 then s.wfn.timeGood + 1 else 0
  let s := { s with wfn := { s.wfn with timeGood := good } }
  let s := { s with boot := { s.boot with thetas := if pd = 255 then [] else (theta :: s.boot.thetas).take 3 } }
  let s :=
    if pd = 255 then (if aligned then loseAlignment s else s)
    else if aligned ∨ 10 ≤ good then
      let s := (s.setRfld ZG_TIME_STATUS 1 1 1).setRfld ZG_TOP_TIME 58 51 (pd + 1)
      if aligned then s else wefinEvent 0x0A 4 31 (1 + (pd + 1) % 256 * 2) false s
    else s
  let s := alignStep s
  { s with wfn := { s.wfn with timeAt := s.now } }

/-- TIME_RESPONSE_RECEIVE: the RESPONSE to the last REQUEST, from the parent, yields θ (R392). -/
def execTimeResponseReceive (p : Fin 24) (s : State) : Out :=
  .next <| receiveTime p 1 s fun a b s =>
    if s.timeParent = some p.val ∧ s.wfn.timeWait ∧ getLE b 2 2 = s.wfn.timeSeq then
      takeTheta (thetaOf (getLE b 8 8) (getLE b 16 8) (getLE b 24 8) a.at_) (byteAt b 1)
        { s with wfn := { s.wfn with timeWait := false } }
    else s

/-- ALIGNMENT_LOST: no exchange with a parent has succeeded for 10 ms (R37, R392). -/
def execAlignmentLost (s : State) : Out :=
  .next <|
    if s.rfld ZG_TIME_STATUS 1 1 = 1 ∧ s.isReference = false ∧ s.wfn.timeAt + 10000000 ≤ s.now then loseAlignment s else s

/-- ALIGN_WAIT_EXPIRE: step 13 ends without a step when ALIGN_WAIT_MS has passed since step 12, or when the package has no
plan or is the reference (R574). -/
def execAlignWaitExpire (s : State) : Out :=
  .next <|
    if s.boot.step13 && s.stage == 9 && (!s.planned || s.isReference
        || decide (s.boot.step12At + s.rfld ZG_BOOT_CTRL 31 16 * 1000000 ≤ s.now)) then becomeReady s
    else s

end Sys2Proof.Machine
end

