-- ==== Sys2Proof/Machine/Banked.lean ====
section
/-! DEFINITION. Shadow writes and copy-backs of the banked tables (07_teasel_irregular.md R171 to R177): Teasel map slots,
page tables, member lists and the route table. -/
namespace Sys2Proof.Machine

/-- BANKED_SHADOW_WRITE: a shadow write that waited goes on once the shadow has no reader and no copy-back is pending: a
TBLWRITE, HBM_RELEASE, HBM_MAP, HBM_UNMAP or GROUP_MEMBERS by its command, the route table by the plan formed (R173, R177). -/
def execBankedShadowWrite (w : ShadowWriter) (s : State) : Out :=
  .next <|
    match w with
    | .command q seq =>
      match s.flight q seq.toNat with
      | none => s
      | some f =>
        match dOpc f.desc with
        | 0x30 => tblwrite q seq.toNat s
        | 0x64 => groupMembers q seq.toNat s
        | 0x81 => hbmRelease q seq.toNat s
        | 0x82 => hbmMap q seq.toNat s
        | 0x83 => hbmUnmap q seq.toNat s
        | _ => s
    | .plan => if s.planned && s.betony == 1 then finishPlan s else s

/-- BANKED_COPYBACK: once the readers of the new shadow have left, it becomes a copy of the active bank (R175). The route
table is written whole before each flip and asks for no copy-back (R383). -/
def execBankedCopyback (t : BankedTable) (s : State) : Out :=
  .next <|
    match t with
    | .slot die cl k => slotCopyback die cl k s
    | .pageTables p => pageCopyback p s
    | .members g => memberCopyback g.toNat s

end Sys2Proof.Machine
end

