-- ==== Sys2Proof/Machine/Boot.lean ====
section
/-! DEFINITION. Power, cold reset, bring-up and the firmware image (19_startup_reset.md R568 to R580; 21_package_ordering.md
R607 to R619). -/
namespace Sys2Proof.Machine

/-! ### Power-on and cold reset (R571, R580, R596, R609, R616) -/

/-- Registers that keep their value across a cold reset: fuses, the counters of the roles, the audit log's HEAD and FLOOR, and
with `trip` the trip record of R522. -/
def keptReg (trip : Bool) (k : Nat) : Bool :=
  decide (k % 0x200000 < 0x1000)
    || [ZG_MGT_ROLE 0, ZG_MGT_ROLE 1, ZG_MGT_ROLE 2, ZG_MGT_AUDIT_HEAD, ZG_MGT_AUDIT_FLOOR].contains k
    || trip && (k == ZG_PWR_TRIP || k == ZG_PWR_TRIP_NS)

/-- The register file after a cold reset. -/
def coldRegs (trip : Bool) (m : List (Nat × Word64)) : List (Nat × Word64) :=
  (m.filter (fun p => keptReg trip p.1)).foldl (fun n p => cset 0 n p.1 p.2) (resetRegs.filter (fun p => !keptReg trip p.1))

/-- HBM bytes that a cold reset keeps: retired frames' bytes of the frame tables and their mirrors, and the management areas
but for the log ring and the trace buffer of CD0 (R579, R580). -/
def keptByte (a : Nat) (v : Byte) : Bool :=
  let o := a % 0x4000000000
  if o < 0x3FC0000000 then false
  else
    let r := o - 0x3FC0000000
    if r < 0xA000000 then (decide (0x1000000 ≤ r) && decide (r < 0x1020000) || decide (0x1800000 ≤ r) && decide (r < 0x1820000)) && v == 0x40
    else !(dieOf a == 0 && decide (r < 0x1E000000))

/-- Whether a block belongs to the management areas but for the log ring and the trace buffer, whose contents a cold reset keeps with the
errors that stand in them (R205, R579, R580). -/
def keptBlock (b : Nat) : Bool :=
  let r := b * 64 % 0x4000000000
  decide (0x3FCA000000 ≤ r) && !(dieOf (b * 64) == 0 && decide (r < 0x3FDE000000))

/-- The package in reset: power-on loses HBM, a cold reset keeps what R580 names; the island's store, the fuses and the health
record stay; `trip` keeps the trip record (R522). What the environment holds, host memory and pins it drives, is untouched. -/
def coldState (powerOn trip : Bool) (s : State) : State :=
  let r := State.reset
  let health := if powerOn then s.store.health else s.boot.health
  let tdp := if s.rfld ZG_ID_PART 23 20 = 1 then 3000 else 3200
  let t := { r with
    regs := coldRegs trip s.regs
    time := { r.time with refclk := s.time.refclk }
    hbm := { r.hbm with bytes := if powerOn then [] else s.hbm.bytes.filter (fun p => keptByte p.1 p.2),
                        errs := if powerOn then [] else s.hbm.errs.filter (fun p => keptBlock p.1) }
    host := { r.host with mem := s.host.mem }
    power := { r.power with ceiling := tdp, cap := tdp, tripNew := trip && s.power.tripNew,
                            overrides := s.power.overrides.filter (fun p => health.any (fun e => e.kind == 4 && e.die == p.1)) }
    mgt := { r.mgt with roles := s.mgt.roles.map (fun (p : Nat × RoleSt) => (p.1, { key := p.2.key })) }
    fuses := s.fuses
    store := s.store
    boot := { r.boot with health := health, healthClear := s.boot.healthClear, resetClass := b2n !powerOn }
    pins := { s.pins with resetN := false, perstN := false, coolantAt := 0, vidEn := false, thermtripN := true, alertN := true,
                          tapEnabled := false, tapReset := true, tdoHighZ := true }
    openCount := s.openCount
    pending := s.pending }
  refreshLimits ((t.setRfld ZG_BOOT_STATE 63 48 s.store.startups).setRfld ZG_BOOT_STATE 19 16 (b2n !powerOn))

/-- POWER_ON: the rails are applied from off, with RESET_N low (R580, R607). -/
def execPowerOn (s : State) : Out :=
  .next <|
    if s.pins.rails = 2 then s
    else
      let t := coldState true (s.pins.rails == 1) s
      { t with pins := { t.pins with rails := 2, powerGood := true } }

/-- COLD_RESET: RESET_N low for 1 µs (R580, R616). A failure that lasts until power-on keeps the package FAILED (R576). -/
def execColdReset (s : State) : Out :=
  .next <|
    if s.pins.rails ≠ 2 ∨ s.pins.resetN = false then s
    else
      let t := coldState false true s
      if s.boot.failUntil = 2 then
        { (t.setReg ZG_BOOT_STATE (s.reg ZG_BOOT_STATE)) with boot := { t.boot with failUntil := 2 },
                                                              pins := { t.pins with resetN := true } }
      else t

/-- POWER_DOWN: the board removes the rails after RESET_N has fallen, or after a trip; with `keepStby` VDD_STBY stays, and with
it the trip and its record (R522, R609, R616). -/
def execPowerDown (keepStby : Bool) (s : State) : Out :=
  .next <|
    if s.pins.rails = 0 ∨ (s.pins.resetN ∧ s.power.tripped = false) then s
    else
      let t := coldState true keepStby s
      let held := keepStby && s.power.tripped
      { t with pins := { t.pins with rails := b2n keepStby, powerGood := false, thermtripN := !held },
               power := { t.power with tripped := held } }

/-! ### Bring-up, steps 2 to 7 (R572, R608, R613, R619) -/

/-- Step 3: the fused tables are checked, the store is read, and what it holds is applied (R502, R503, R507, R522, R568 to
R571). -/
def readStore (s : State) : State :=
  let s := takeTables [0, 1, 2, 3] (dropCleared [0, 1, 2, 3] (countStartup s))
  let s := (List.range 4).foldl (fun s d =>
    refreshPwd d (s.updPw d fun x => { x with vreq := (s.vtable d).nom, vmaxCeil := (s.vtable d).vmax })) s
  let s := if s.store.limits = [] then refreshLimits s else applyLimits s.store.limits s
  let s := if s.store.plan = [] then s else adoptPlan s.store.plan s
  if s.power.tripNew then
    let v := s.reg ZG_PWR_TRIP
    pwrEvent 8 4 (fld v 50 48 + fld v 47 42 * 8 + fld v 41 30 * 512) { s with power := { s.power with tripNew := false } }
  else s

/-- The links of the package. -/
def allLinks : List Nat := List.range 8

/-- Steps 6 and 7: the stacks are trained, and the package waits for an image. -/
def bringUpHbm (t : Training) (s : State) : State :=
  let ms := List.range 16
  let s := ms.foldl (trainStack t true) (setStage 3 s)
  match deadStack t ms with
  | some m => failBoot 0x0901 (m / 4) s
  | none => setStage 4 s

/-- Step 4: core voltage requested, dies held in reduced service, links trained. -/
def bringUpLinks (t : Training) (s : State) : State :=
  let s := setDies 1 (setStage 2 { s with pins := { s.pins with vidEn := true } })
  let s := trainLinks t allLinks ((List.range 4).foldl (fun s d => seekNom d s) s)
  match deadHubLink allLinks s with
  | some d => failBoot 0x0906 d s
  | none => bringUpHbm t s

/-- BRING_UP: RESET_N is released with good rails; `straps` are ADDR1 and ADDR0, `hubOk` the known answers of test 0x01, `t`
what training finds (R572, R576). -/
def execBringUp (straps : Fin 4) (hubOk : Bool) (t : Training) (s : State) : Out :=
  .next <|
    if s.stage ≠ 0 ∨ s.pins.rails ≠ 2 ∨ s.power.tripped ∨ s.power.powerFail then s
    else
      let s := { s with pins := { s.pins with resetN := true, powerGood := true, straps := straps },
                        time := { s.time with refclk := true }, boot := { s.boot with startedAt := s.now } }
      let s := setStage 1 (s.setRfld ZG_TIME_STATUS 0 0 1)
      if hubOk = false then failBoot 0x0903 4 s
      else match (List.range 4).find? (fun d => !s.fuses.vtOk.getD d true) with
        | some d => failBoot 0x0904 d s
        | none => bringUpLinks t (readStore s)

/-! ### The firmware image (R577, R578) -/

/-- CODE_BYTES and MANIFEST_BYTES. -/
def imgCode (b : List Byte) : Nat := getLE b 0x18 4
/-- MANIFEST_BYTES. -/
def imgManifest (b : List Byte) : Nat := getLE b 0x1C 4

/-- The FAIL_DETAIL of the first check of R578 that an image fails; 0 for one that passes. -/
def imageCheck (b : List Byte) (len : Nat) (s : State) : Nat :=
  let code := (b.drop 512).take (imgCode b)
  let manifest := (b.drop (512 + imgCode b)).take (imgManifest b)
  let key := (b.drop 0xA0).take 96
  let at_ := fun off => beNat ((b.drop off).take 48)
  let digest := sha384 key
  if b.take 4 ≠ [0x5A, 0x47, 0x46, 0x57] ∨ getLE b 4 2 ≠ 1 ∨ 2 ≤ getLE b 6 2 ∨ zeroAt b 0x80 32 = false
      ∨ zeroAt b 0x160 160 = false then 1
  else if len ≠ 512 + imgCode b + imgManifest b ∨ imgCode b < 4096 ∨ 14680064 < imgCode b ∨ imgCode b % 4096 ≠ 0
      ∨ ¬(imgManifest b = 0 ∨ imgManifest b = 1048576) then 2
  else if (List.range 8).all (fun k => byteAt b (0x10 + k) == 0xFF || byteAt b (0x10 + k) != s.rfld ZG_ID_PART 31 24) then 3
  else if (List.range 4).all (fun k => s.fuses.keyDigests.getD k [] != digest || s.fuses.revoked.contains k) then 4
  else if ecdsaVerify (at_ 0xA0, at_ 0xD0) (sha384 (b.take 0x100)) (at_ 0x100) (at_ 0x130) = false then 5
  else if (b.drop 0x20).take 48 ≠ sha384 code
      ∨ (b.drop 0x50).take 48 ≠ (if imgManifest b = 0 then zeros 48 else sha384 manifest) then 6
  else if getLE b 0x0C 4 < s.store.minSvn then 7
  else 0

/-! ### Steps 10 to 12 (R570 to R573, R576) -/

/-- Blocks of the health record's copy on a die (R541). -/
def healthBlock (d b : Nat) : Bool := decide ((mgmtBase d + 0x1000000) / 64 ≤ b) && decide (b < (mgmtBase d + 0x1400000) / 64)

/-- Whether the copy on a die passes its digest: no block of it is uncorrectable, and the die answers (R205, R541). -/
def State.healthCopyOk (s : State) (d : Nat) : Bool :=
  !s.dieFailed d && !s.hbm.errs.any (fun p => healthBlock d p.1 && (match rsDecode p.2 with
    | .clean => false
    | .corrected _ => false
    | .uncorrectable => true))

/-- Betony takes the health record: from a copy that survived and passes, with what the store holds and the copy lacks; else both copies
are rebuilt from the store, with a critical alarm when both have failed (R541, R570). -/
def takeHealth (s : State) : State :=
  if s.boot.resetClass ≠ 0 ∧ (s.healthCopyOk 1 || s.healthCopyOk 2) = true then
    { s with boot := { s.boot with health := s.boot.health ++ s.store.health.filter (fun e => !s.boot.health.contains e) } }
  else
    let t := { s with boot := { s.boot with health := s.store.health },
                      hbm := { s.hbm with errs := s.hbm.errs.filter (fun p => !healthBlock 1 p.1 && !healthBlock 2 p.1) } }
    if s.boot.resetClass = 0 then t else raiseAlarm 0x0F 3 4 (t.reg ZG_BOOT_LAST).toNat t

/-- Step 10: Betony runs, the health record is taken, role commands open, the start-up is recorded in the audit log, the ports begin to train (R557, R559,
R572). -/
def startBetony (fw : Nat) (s : State) : State :=
  let s := (setStage 6 s).setRfld ZG_MGT_STATE 63 32 fw
  let s := takeHealth (s.setRfld ZG_MGT_STATE 2 0 1)
  let s := (auditAppend false { kind := 5, path := 3, counter := s.store.aseq, subject := s.store.digest } s).2
  refreshAlert ((List.range 4).foldl (fun s d => trainPorts d s) s)

/-- Step 12: health entries applied, E set, dies in normal service and in service (R572). -/
def applyStep12 (s : State) : State :=
  let s := setEngineCount ((List.range 4).foldl (fun s d => applyHealth d s) (setStage 8 s))
  let ds := (List.range 4).filter (fun d => !s.dieFailed d)
  beginStep13 (setDies 3 (ds.foldl (fun s d => leaveReduced d s) s))

/-- The failures of self-tests act; a failed hub test or a test that fails a die stops the start-up (R470, R471, R576). -/
def takeTests (hubOk : Bool) (fails : List (Fin 4 × TestFail)) (s : State) (done : State → State) : State :=
  let of := fun (d : Nat) => (fails.filter (fun x => x.1.val == d)).map Prod.snd
  let s := (List.range 4).foldl (fun s d => if s.dieFailed d then s else selfTestFailures d (of d) s) (setDies 2 (setStage 7 s))
  if hubOk = false then failBoot 0x0903 4 s
  else match (List.range 4).find? (fun d => !s.dieFailed d && (of d).any (fun x => dieLevel x.test.toNat)) with
    | some d => failBoot 0x0902 d s
    | none => done s

/-- Step 11, which waits for coolant, and the steps after it (R573). -/
def selfTestStep (hubOk : Bool) (fails : List (Fin 4 × TestFail)) (s : State) : State :=
  if s.power.coolantEn ∧ s.pins.coolantOk = false then setStage 14 s else takeTests hubOk fails s applyStep12

/-- BOOT_GO: a write of ZG_BOOT_GO with GO. The image is read into the firmware slot, `fault` when a host read fails, and
checked; bring-up goes on with the results of the self-tests (R572, R578). -/
def execBootGo (f : Func) (value : Word32) (fault hubOk : Bool) (fails : List (Fin 4 × TestFail)) (s : State) : Out :=
  .next <| guardedWrite f ZG_BOOT_GO 4 value.toNat s fun _ new s =>
    if bitOf new 0 = false ∨ s.power.tripped then s
    else
      let len := s.rfld ZG_BOOT_IMG_LEN 23 0
      let b := s.hostRead 0 (s.reg ZG_BOOT_IMG_ADDR).toNat len
      let bad := if fault || !(s.fn 0).bme then 8 else imageCheck b len s
      let s := setStage 5 s
      if bad ≠ 0 then setStage 4 (reportFailure 5 0x0905 bad 7 s)
      else
        let s := paWrite (mgmtBase 3) b s
        let s := { s with boot := { s.boot with imageHash := sha384 b, raiseSvn := bitOf (byteAt b 6) 0, imageSvn := getLE b 0x0C 4 } }
        selfTestStep hubOk fails (startBetony (getLE b 8 4) s)

/-- COOLANT_WAIT_END: COOLANT_OK has been high for 10 ms, and step 11 begins (R573). -/
def execCoolantWaitEnd (hubOk : Bool) (fails : List (Fin 4 × TestFail)) (s : State) : Out :=
  .next <| if s.stage = 14 ∧ s.coolantBack = true ∧ s.power.tripped = false then takeTests hubOk fails s applyStep12 else s

/-! ### Pins (R247, R283, R523, R610, R618) -/

/-- COOLANT_OK_CHANGE: the input changes level. -/
def execCoolantOkChange (level : Bool) (s : State) : Out :=
  .next <| if s.pins.coolantOk = level then s else { s with pins := { s.pins with coolantOk := level, coolantAt := s.now } }

/-- HOST_LINK_UP: the PCIe link trains; `degraded` below 64 GT/s or x16, with LINK_DEGRADED and a warning alarm (R247, R283). -/
def execHostLinkUp (degraded : Bool) (s : State) : Out :=
  .next <|
    if s.pins.resetN = false ∨ s.power.tripped ∨ s.power.powerFail ∨ s.stage = 0 ∨ s.stage = 13 ∨ s.host.linkUp then s
    else
      let s := { s with host := { s.host with linkUp := true }, pins := { s.pins with perstN := true } }
      let s := s.setRfld ZG_ADM_CFG 28 28 (b2n degraded)
      if degraded then raiseAlarm 1 1 4 0 s else s

/-- Every queue, port and die stops, and the host link goes down (R521, R610). -/
def quietPackage (s : State) : State :=
  let s := (List.range 24).foldl (fun s p => if s.portState p = 0 then s else leaveTo p 0 s) s
  resetAllFunctions { s with host := { s.host with linkUp := false } }

/-- POWER_FAIL_STOP: a power-good input goes low for 1 µs while RESET_N is high: pace 0, lanes quiet, the host link down, the
dies in reset, VID_EN low. While RESET_N is low it only holds the package in reset (R608, R610, R613). -/
def execPowerFailStop (s : State) : Out :=
  .next <|
    let s := { s with pins := { s.pins with powerGood := false } }
    if s.pins.resetN = false ∨ s.power.tripped ∨ s.power.powerFail ∨ s.pins.rails ≠ 2 then s
    else
      let s := (List.range 4).foldl (fun s d => clearDie d s) (quietPackage s)
      let s := (List.range 4).foldl (fun s d => refreshPwd d (s.updPw d fun x => { x with p := 0 })) s
      let s := (List.range 4).foldl (fun s d => setDieState d 0 s) s
      let s := setReady false (setStage 0 s)
      refreshAlert { s with power := { s.power with powerFail := true }, pins := { s.pins with vidEn := false },
                            boot := { s.boot with step13 := false } }

end Sys2Proof.Machine
end

