-- ==== Sys2Proof/Machine/SyncRemote.lean ====
section
/-! DEFINITION. Synchronisation between packages and the deadlock detector (11_synchronisation.md R304, R308, R309). -/
namespace Sys2Proof.Machine

/-! ### SYNC_REMOTE (R304) -/

/-- SYNC_REMOTE body (R300, R301). -/
def checkSyncRemote (b : List Byte) : Nat :=
  failIf (!synOpValid (byteAt b 3) || bitsOf (getLE b 4 2) 15 14 != 0 || !zeroAt b 6 2) 1

/-- An operation from another package reaches its object: whether it is APPLIED; a dropped one counts in
ZG_SYN_REMOTE_DROP and raises event 0x07.0x06 at this PF (R295, R304). -/
def remoteOperation (tenant o op v : Nat) (s : State) : Bool × State :=
  let drop := fun (s : State) =>
    raiseEvent { cls := 7, code := 6, src := o / 4096, data := o + tenant * 16384, log := false }
      (bump (ZG_SYN_REMOTE_DROP (o / 4096)) 1 s)
  match applySync { tenant := tenant, part := none } o op v s with
  | (.blocked, s) => (false, drop s)
  | (.dieDown, s) => (false, drop s)
  | (_, s) => (true, s)

/-- The body of a SYNC_REQ packet: operation, object, operand (log entry 27). -/
def syncReqBody (op o v : Nat) : List Byte := natLE 1 op ++ zeros 1 ++ natLE 2 o ++ natLE 4 v

/-- The body of a SYNC_ANS packet: 1 for APPLIED, 0 for DROPPED, and the PKT_ID of the request (log entry 27). -/
def syncAnsBody (applied : Bool) (id : Nat) : List Byte := natLE 1 (b2n applied) ++ zeros 3 ++ natLE 4 id

/-- SYNC_REMOTE: sends its operation to an object of another package and waits for the answer. -/
def execSyncRemote (q : Qn) (seq : Word64) (s : State) : Out :=
  .next <| withFlight q seq.toNat 0x56 s fun f =>
    let b := dBody f.desc
    let bad := checkSyncRemote b
    let dest : Coord := (byteAt b 0, byteAt b 1, byteAt b 2)
    let o := getLE b 4 2
    let op := byteAt b 3
    let v := getLE b 8 4
    let tenant := s.queueTenant q
    if f.phase ≠ 0 then s
    else if bad ≠ 0 then endCommand q seq.toNat bad 0 s
    else if s.planned ∧ dest = s.here then
      let (ok, s) := remoteOperation tenant o op v s
      endCommand q seq.toNat (if ok then 0 else 0x0104) 0 s
    else
      let t : PktTo := { ptype := 5, dest := dest, dfield := s.field, ddie := o / 4096, sdie := (s.queue q).die,
                         tenant := tenant, body := syncReqBody op o v }
      match inject t none s with
      | .noPlan => endCommand q seq.toNat 0x0301 0 s
      | .crossField => endCommand q seq.toNat 0x0302 0 s
      | .unreachable s => endCommand q seq.toNat 0x0040 0 s
      | .sent id s =>
        let s := s.updFlight q seq.toNat (fun g => { g with phase := 1 })
        { s with syn := { s.syn with remotes := s.syn.remotes ++
            [⟨q, seq.toNat, id, packageKey s.field dest * 4 + o / 4096, getLE b 12 4, s.now⟩] } }

/-- A SYNC_REQ packet arrives on a port: the operation is checked and applied, and answered (R304, R368). -/
def execSyncReqReceive (p : Fin 24) (s : State) : Out :=
  .next <| receivePacket p 5 s fun _ b s =>
    let x := pkBody b
    let (ok, s) := remoteOperation (pkTenant b) (getLE x 2 2 % 16384) (byteAt x 0) (getLE x 4 4) s
    let t : PktTo := { ptype := 6, dest := pkSrc b, dfield := pkSField b, ddie := pkSDie b, sdie := pkDDie b,
                       tenant := pkTenant b, body := syncAnsBody ok (pkId b) }
    match inject t none s with
    | .sent _ s => s
    | .unreachable s => s
    | _ => s

/-- A SYNC_ANS packet arrives on a port: it completes the SYNC_REMOTE it answers (R304). -/
def execSyncAnsReceive (p : Fin 24) (s : State) : Out :=
  .next <| receivePacket p 6 s fun _ b s =>
    let x := pkBody b
    let dest := packageKey (pkSField b) (pkSrc b) * 4 + pkSDie b
    match s.syn.remotes.find? (fun r => r.id == getLE x 4 4 && r.dest == dest && (s.queue r.queue).die == pkDDie b) with
    | none => s
    | some r =>
      let s := { s with syn := { s.syn with remotes := s.syn.remotes.filter (fun y => !(y.queue == r.queue && y.seq == r.seq)) } }
      endCommand r.queue r.seq (if byteAt x 0 = 1 then 0 else 0x0104) 0 s

/-- No answer within TIMEOUT_US: the command completes with the timeout status (R304). -/
def execSyncRemoteTimeout (q : Qn) (seq : Word64) (s : State) : Out :=
  .next <|
    match s.syn.remotes.find? (fun r => r.queue == q.val && r.seq == seq.toNat) with
    | none => s
    | some r =>
      if r.timeoutUs ≠ 0 ∧ r.since + r.timeoutUs * 1000 ≤ s.now then
        let s := { s with syn := { s.syn with remotes := s.syn.remotes.filter (fun y => !(y.queue == q.val && y.seq == seq.toNat)) } }
        endCommand q seq.toNat 6 0 s
      else s

/-! ### The deadlock detector (R308, R309) -/

/-- Whether a queue is active: it holds fetched descriptors, those of its regions and of a filler unit among them, or a dispatched command
that has not ended (R308, R420, R425). -/
def Queue.active (x : Queue) : Bool :=
  x.fetched != [] || x.regions.any (fun r => r.lane != []) || x.unit.any (fun u => (u.descs.drop u.pos) != []) || x.flights.any (fun f => f.ended.isNone)

/-- What the head command of a queue's main lane waits on: an object, or a group (true); a waiting STAGE_MARK counts as
blocked and names neither (R308, R418). -/
def State.mainBlockedOn (s : State) (q : Nat) : Option (Bool × Nat) :=
  match (s.queue q).flights.find? (fun f => f.ended.isNone && !f.deferred) with
  | none => none
  | some f =>
    if dOpc f.desc = 0xA7 ∧ f.phase = 1 then some (false, 0)
    else match s.syn.waits.find? (fun w => w.queue == q && w.seq == f.seq) with
    | some w => some (false, w.obj)
    | none =>
      match s.coll.dies.find? (fun p => p.2.ops.any (fun o => o.queue == q && o.seq == f.seq)) with
      | some (k, _) =>
        let g := k / 4
        let d := k % 4
        let current := fun quick => (s.currentOp g d quick).any (fun o => o.queue == q && o.seq == f.seq)
        if (current false && opWaits g d false s) || (current true && opWaits g d true s) then some (true, g) else none
      | none => none

/-- What a queue waits on while it is blocked: no command of its deferred lane runs (R308). -/
def State.blockedOn (s : State) (q : Nat) : Option (Bool × Nat) :=
  if (s.queue q).flights.any (fun f => f.ended.isNone && f.deferred) then none else s.mainBlockedOn q

/-- Active queues of a partition on a die, ascending. -/
def State.activeOn (s : State) (d p : Nat) : List Nat :=
  (s.host.queues.filter (fun x => !isAdmin x.1 && x.2.die == d && x.2.part == p && x.2.active)).map Prod.fst

/-- A partition whose every active queue on a die has been blocked for DL_INTERVAL_MS is reported (R308, R309). -/
def execDeadlockReport (die : Die) (p : Part) (s : State) : Out :=
  .next <|
    let qs := s.activeOn die p
    let k := detKey die p
    let x := cget {} s.syn.detectors k
    let ms := s.rfld (ZG_SYN_CTRL die) 31 16
    if ms = 0 ∨ x.reported = true ∨ qs = [] ∨ qs.any (fun q => (s.blockedOn q).isNone) = true
        ∨ s.now < x.changedAt + ms * 1000000 then s
    else
      let first := qs.headD 0
      let on := (s.blockedOn first).getD (false, 0)
      let others := (List.range 4).any (fun d => d != die.val && (s.activeOn d p).any (fun q => (s.blockedOn q).isNone))
      let seq := (s.rfld (ZG_SYN_DL_LAST die) 57 44 + 1) % 16384
      let v := p.val * 2 ^ 58 + seq * 2 ^ 44 + b2n others * 2 ^ 43 + b2n on.1 * 2 ^ 42 + on.2 % 16384 * 2 ^ 28
        + first % 65536 * 4096 + min qs.length 4095
      let s := (s.setRegN (ZG_SYN_DL_LAST die) v).setRegN (ZG_SYN_DL_NS die) s.now
      let s := bump (ZG_SYN_DL_REPORTS die) 1 s
      let s := { s with syn := { s.syn with detectors := cset {} s.syn.detectors k { x with reported := true, seq := seq } } }
      let s := raiseEvent { cls := 7, code := 4, src := die, part := some p, data := v, pfCopy := true, log := false } s
      (qs.take 256).foldl (fun s q =>
        let on := (s.blockedOn q).getD (false, 0)
        pushLog { cls := 7, code := 4, source := die, kind := 1, queue := q, part := some p, data0 := v, data1 := s.now,
                  detail := natLE 2 on.2 ++ natLE 1 (b2n on.1) } s) s

end Sys2Proof.Machine
end

