-- ==== Sys2Proof/Machine/Front.lean ====
section
/-! DEFINITION. The command front ends: which command is dispatched next, the header check, the deferred lane, loans to filler
units (10_host_queues.md R256 to R263; 14_training_support.md R419 to R430). -/
namespace Sys2Proof.Machine

/-! ### The header check (R260, R261, R263) -/

/-- BODY_LEN of the opcodes that user queues accept (R263). -/
def userBody (o : Nat) : Option Nat :=
  match o with
  | 0x01 => some 0
  | 0x08 => some 2
  | 0x10 => some 6
  | 0x20 => some 4 | 0x21 => some 3
  | 0x30 => some 4 | 0x31 => some 2
  | 0x40 => some 4
  | 0x50 => some 1 | 0x51 => some 1 | 0x52 => some 1 | 0x53 => some 1 | 0x54 => some 1 | 0x55 => some 1 | 0x56 => some 1
  | 0x60 => some 4 | 0x61 => some 4
  | 0x62 => some 2 | 0x63 => some 2 | 0x64 => some 2 | 0x65 => some 2 | 0x66 => some 2
  | 0x70 => some 6 | 0x71 => some 3
  | 0x78 => some 3 | 0x79 => some 2 | 0x7A => some 2 | 0x7B => some 3
  | 0xA0 => some 5 | 0xA1 => some 6 | 0xA2 => some 6 | 0xA3 => some 1 | 0xA4 => some 1 | 0xA5 => some 1 | 0xA6 => some 0
  | 0xA7 => some 0 | 0xA8 => some 1
  | 0xB0 => some 1
  | _ => none

/-- BODY_LEN of the opcodes that admin queues accept (R263, R273). -/
def adminBody (o : Nat) : Option Nat :=
  match o with
  | 0x01 => some 0
  | 0x80 => some 3 | 0x81 => some 3 | 0x82 => some 3 | 0x83 => some 3 | 0x84 => some 3
  | 0x90 => some 4
  | 0x91 => some 1 | 0x92 => some 1 | 0x93 => some 1 | 0x94 => some 1 | 0x95 => some 1 | 0x96 => some 1 | 0x97 => some 1
  | 0xC0 => some 1 | 0xC1 => some 1
  | 0xD0 => some 2 | 0xD1 => some 2 | 0xD2 => some 2 | 0xD3 => some 2 | 0xD4 => some 2
  | _ => none

/-- Opcodes that only the admin queue of the physical function accepts, with the access-denied status elsewhere: 0xD0 to 0xD4
on every queue (R560), 0xC0 and 0xC1 on the other admin queues (R387; DEDUCED, log entry 33). -/
def pfOpcode (q o : Nat) : Bool :=
  q != 65536 && ((decide (0xD0 ≤ o) && decide (o ≤ 0xD4)) || (isAdmin q && (o == 0xC0 || o == 0xC1)))

/-- Step 2 of R261. -/
def opcodeStatus (q o : Nat) : Nat :=
  if pfOpcode q o then 3
  else failIf ((if isAdmin q then adminBody o else userBody o).isNone) 2

/-- Step 3 of R261: reserved fields, SIG_OP of a command that signals, BODY_LEN. -/
def fieldStatus (q : Nat) (d : List Byte) : Nat :=
  failIf (byteAt d 1 % 8 != 0 || decide (8 ≤ byteAt d 2) || decide (0x4000 ≤ dSigObj d) || !zeroAt d 0x12 14
    || (dSigEn d && (dSigOp d == 0 || decide (6 < dSigOp d)))
    || (if isAdmin q then adminBody (dOpc d) else userBody (dOpc d)) != some (dBodyLen d)) 1

/-- Step 4 of R261: the object of a signal belongs to the queue's tenant. -/
def signalStatus (q : Nat) (d : List Byte) (s : State) : Nat :=
  failIf (dSigEn d && !s.synAccepts (s.queueTenant q) (dSigObj d)) 3

/-- Before READY an admin command other than NOP, and from step 10 on other than 0xD0 to 0xD4, fails (R575). -/
def notReadyStatus (q : Nat) (d : List Byte) (s : State) : Nat :=
  let o := dOpc d
  let boot := s.rfld ZG_BOOT_STATE 15 15 == 0
  let reads := decide (0xD0 ≤ o) && decide (o ≤ 0xD4) && decide (7 ≤ s.stage)
  failIf (isAdmin q && boot && o != 0x01 && !reads) 0x0907

/-! ### Dispatch -/

/-- The clusters a command names, as die × 64 + cluster: on its queue's die, and for STREAM_OPEN also on the sender's (R237). -/
def namedKeys (die : Nat) (d : List Byte) : List Nat :=
  match namedClusters d with
  | some (first, n) =>
    let b := dBody d
    (clusterRange first n).map (die * 64 + ·)
      ++ (if dOpc d = 0x40 ∧ byteAt b 0 / 64 = 0 then (clusterRange first n).map (byteAt b 2 / 4 % 4 * 64 + ·) else [])
  | none => []

/-- The lowest cluster a command names that its partition does not own, first on the queue's die (R128). -/
def namedNotOwned (q : Nat) (d : List Byte) (s : State) : Option Nat :=
  let x := s.queue q
  if isAdmin q || (s.unitLoan q (dSeq d)).isSome then none
  else (namedKeys x.die d).find? (fun k => !s.ownsCluster x.part (k / 64) (k % 64))

/-- The banked tables a command binds at its dispatch: the page tables of its partition, and the slot of a foreground Teasel
operation with USE_MAP in every named cluster (R172, R179, R198). -/
def bindFor (q : Nat) (d : List Byte) (f : Flight) (s : State) : State :=
  if isAdmin q then s
  else
    let x := s.queue q
    let s := bindTable q f.seq (ptTable x.part) s
    let b := dBody d
    if dOpc d = 0x30 ∧ zOp b ≤ 8 ∧ zMap b = true ∧ f.refused = none then
      ((clusterRange (byteAt b 2 % 64) (byteAt b 3 % 128)).filter (· < 64)).foldl
        (fun s c => bindTable q f.seq (slotTable x.die c (zSlot b)) s) s
    else s

/-- Dispatched commands of a kind that a unit of a die holds, as (partition, in a reserved place). -/
def State.places (s : State) (d : Nat) (kind : Nat → Bool) : List (Nat × Bool) :=
  ((s.host.queues.filter (fun p => !isAdmin p.1 && p.2.die == d)).map (fun p =>
    (p.2.flights.filter (fun f => f.ended.isNone && kind (dOpc f.desc))).map (fun f => (p.2.part, f.reserved)))).flatten

/-- The place that a command for Sorrel or Campion takes: a shared one, or (true) its partition's reserved one; none while
neither is free (R435, R479). -/
def State.placeFor (s : State) (q : Nat) (d : List Byte) : Option Bool :=
  let x := s.queue q
  let find := fun (held : List (Nat × Bool)) =>
    if (held.filter (fun p => !p.2)).length < 64 then some false
    else if held.contains (x.part, true) then none else some true
  if isAdmin q then some false
  else if isSorrel (dOpc d) then find (s.places x.die isSorrel)
  else if isCampion (dOpc d) then find (s.places x.die isCampion)
  else some false

/-- A descriptor is dispatched: it takes its place in the order of dispatches and is checked (R257, R261); ENERGY_READ takes its
snapshot (R518). -/
def dispatchDesc (q : Nat) (d : List Byte) (deferred : Bool) (s : State) : State :=
  let x := s.queue q
  let early := firstFail [opcodeStatus q (dOpc d), fieldStatus q d]
  let sig := if early = 0 then signalStatus q d s else 0
  let late := if early = 0 ∧ sig = 0 then notReadyStatus q d s else 0
  let n := s.host.dispatched + 1
  let f : Flight := { seq := dSeq d, desc := d, order := n, deferred := deferred,
                      refused := namedNotOwned q d s, noSignal := early != 0 || sig != 0, sigBlocked := sig != 0,
                      reserved := (s.placeFor q d).getD false, work := if dOpc d = 0xB0 then energySnap q s else [] }
  let s := { s with host := { s.host with dispatched := n } }
  let s := s.setQueue q (x.addFlight f)
  let s := if isAdmin q then s else pmcCount x.die 0x0C (some x.part) 1 (noteProgress q s)
  let status := firstFail [early, sig, late]
  if status = 0 then bindFor q d f s
  else
    let s := if sig = 0 then s
      else raiseEvent { cls := 1, code := 6, src := if isAdmin q then 4 else x.die, queue := queueField q, part := s.queuePart q,
                        data := dSigObj d, log := false } (bumpF (s.queueFn q) ZG_HQ_SIG_DENIED 1 s)
    endCommand q (dSeq d) status 0 s

/-! ### What may be dispatched -/

/-- Whether a dispatched command that has not ended keeps the later ones of its lane back: a wait (R298), a collective not yet
posted (R321), a flip (R181), DEFER_BEGIN, DEFER_DRAIN, STAGE_MARK and FILL_BEGIN (R418 to R420, R425). -/
def Flight.holds (f : Flight) : Bool :=
  let o := dOpc f.desc
  f.ended.isNone && (o == 0x51 || o == 0x52 || o == 0x31 || o == 0xA5 || o == 0xA6 || o == 0xA7 || o == 0xA8
    || ((o == 0x60 || o == 0x61 || o == 0x62) && f.phase == 0))

/-- Whether a die dispatches user commands: not cut off from the hub (R235), in service and in normal service, with no change of service mode or self-test asked
for, the package ready, no coolant stop and no trip (R68, R69, R472, R522, R523, R583). -/
def State.dieOpen (s : State) (d : Nat) : Bool :=
  s.stage == 10 && s.dieState d == 3 && !s.reduced d && s.rfld (ZG_FMT_SERVICE d) 1 1 == 0
    && s.rfld (ZG_INT_ST d) 31 31 == 0 && s.power.coolState == 0 && !s.power.tripped && !s.hubLost d

/-- Whether a queue dispatches: RUNNING, its ring not full, its TARGET in order (R251, R259, R469), its die open. -/
def State.queueOpen (s : State) (q : Nat) : Bool :=
  let x := s.queue q
  x.state == .running && !x.cqFull && !s.targetBad q && (if isAdmin q then !s.power.tripped else s.dieOpen x.die)

/-- The commands of a lane: of the region that holds a sequence, or of the main lane (R422). -/
def Queue.laneOf (x : Queue) (region : Option DeferRegion) : List Flight :=
  match region with
  | some r => x.flights.filter (fun f => r.has f.seq)
  | none => x.flights.filter (fun f => !f.deferred)

/-- Whether a descriptor is a wait, which takes the queue's one wait slot (R299). -/
def isWait (d : List Byte) : Bool := dOpc d == 0x51 || dOpc d == 0x52

/-- Whether a descriptor's own conditions hold: the queue's wait slot free for a wait, FENCE within its lane, no earlier command of the lane that holds it back, its
clusters neither lent nor borrowed, a place at its unit (R257, R299, R422, R428, R435, R455, R479). -/
def State.descReady (s : State) (q : Nat) (d : List Byte) (region : Option DeferRegion) : Bool :=
  let x := s.queue q
  let lane := x.laneOf region
  let out := fun (c : Nat) => s.ownsCluster x.part x.die c && (s.clus x.die c).loan.isSome
  !lane.any (·.holds)
    && !(isWait d && x.flights.any (fun f => isWait f.desc && f.ended.isNone && f.heldEnd.isNone))
    && !(dFence d && lane.any (fun f => decide (f.seq < dSeq d) && f.ended.isNone && f.heldEnd.isNone))
    && ((s.unitLoan q (dSeq d)).isSome || !(namedClusters d).any (fun p => (clusterRange p.1 p.2).any out))
    && (s.placeFor q d).isSome

/-- The descriptor that the main lane of a queue would dispatch: while a filler unit is open, the next of its commands, once the
unit has a loan that is not ending (R425, R426); otherwise the first fetched, unless 256 records are held (R423). -/
def State.mainDesc (s : State) (q : Nat) : Option (List Byte) :=
  let x := s.queue q
  match x.unit with
  | some u => if s.lentKeys q = [] ∨ s.loanEnding q = true then none else (u.descs.drop u.pos).head?
  | none => if 256 ≤ x.heldBehind then none else x.fetched.head?

/-- The descriptor that the main lane dispatches when the queue's turn comes. -/
def State.mainReady (s : State) (q : Nat) : Option (List Byte) :=
  if s.queueOpen q then (s.mainDesc q).filter (fun d => s.descReady q d none) else none

/-- The region whose commands the deferred lane dispatches next (R420). -/
def Queue.nextRegion (x : Queue) : Option DeferRegion := x.regions.find? (fun r => !r.sent)

/-- Whether a region is eligible: every main-lane command before it has completed (R421). -/
def Queue.eligible (x : Queue) (r : DeferRegion) : Bool :=
  !x.flights.any (fun f => !f.deferred && f.ended.isNone && decide (f.seq < r.first))

/-- Whether the main lane leaves the queue to its deferred lane: its head command is blocked, it holds no fetched descriptor, a
DEFER_DRAIN is at its head, or 256 records are held (R421, R423). -/
def State.laneYields (s : State) (q : Nat) : Bool :=
  let x := s.queue q
  let head := x.flights.find? (fun f => f.ended.isNone && !f.deferred)
  (s.mainBlockedOn q).isSome || x.fetched == [] || decide (256 ≤ x.heldBehind)
    || (match head with
        | some f => dOpc f.desc == 0xA6
        | none => x.fetched.head?.any (fun d => dOpc d == 0xA6))

/-- The region and descriptor that the deferred lane of a queue dispatches when its turn comes (R421, R422). -/
def State.laneReady (s : State) (q : Nat) : Option (DeferRegion × List Byte) :=
  let x := s.queue q
  match x.nextRegion with
  | none => none
  | some r =>
    if s.queueOpen q && x.eligible r && s.laneYields q then
      (r.lane.head?.filter (fun d => s.descReady q d (some r))).map (fun d => (r, d))
    else none

/-! ### Arbitration (R256) -/

/-- The next of some queues in ascending order after the one served last, cycling; `last` is its number plus one. -/
def nextInTurn (last : Nat) (qs : List Nat) : Option Nat := (qs.find? (fun q => decide (last ≤ q))).or qs.head?

/-- Queues of a class of a die with something to dispatch. -/
def State.readyQueues (s : State) (d cls : Nat) : List Nat :=
  (s.host.queues.filter (fun p => !isAdmin p.1 && p.2.die == d && p.2.cls == cls
    && ((s.mainReady p.1).isSome || (s.laneReady p.1).isSome))).map Prod.fst

/-- Admin queues with something to dispatch, by function. -/
def State.readyAdmin (s : State) : List Nat :=
  (s.host.queues.filter (fun p => isAdmin p.1 && (s.mainReady p.1).isSome)).map Prod.fst

/-- Key of the rotation of a class of a die, and of the admin queues. -/
def turnKey (d cls : Nat) : Nat := d * 3 + cls

/-- The queue whose turn it is among the user queues of a die: the privileged class first, then normal, then filler. -/
def State.nextUser (s : State) (d : Nat) : Option Nat :=
  let pick := fun cls => nextInTurn (cget 0 s.host.rotation (turnKey d cls)) (s.readyQueues d cls)
  ((pick 1).or (pick 0)).or (pick 2)

/-- A queue has taken its turn. -/
def takeTurn (key q : Nat) (s : State) : State :=
  { s with host := { s.host with rotation := cset 0 s.host.rotation key (q + 1) } }

/-- The main lane of a queue dispatches a descriptor. -/
def dispatchMain (q : Nat) (d : List Byte) (s : State) : State :=
  let x := s.queue q
  match x.unit with
  | some u => dispatchDesc q d false (s.setQueue q { x with unit := some { u with pos := u.pos + 1 } })
  | none => takeBad q (dispatchDesc q d false (s.setQueue q { x with fetched := x.fetched.drop 1 }))

/-- COMMAND_DISPATCH: the next ready admin queue, served ahead of every user queue, or the user queue of the die whose turn it is
dispatches one command of its main lane (R256, R273). -/
def execCommandDispatch (die : Die) (s : State) : Out :=
  .next <|
    match nextInTurn (cget 0 s.host.rotation 12) s.readyAdmin with
    | some q =>
      match s.mainReady q with
      | some d => dispatchMain q d (takeTurn 12 q s)
      | none => s
    | none =>
      match s.nextUser die with
      | none => s
      | some q =>
        match s.mainReady q with
        | some d => dispatchMain q d (takeTurn (turnKey die (s.queue q).cls) q s)
        | none => s

/-- DEFERRED_DISPATCH: the user queue of the die whose turn it is dispatches one command of its deferred lane (R421). -/
def execDeferredDispatch (die : Die) (s : State) : Out :=
  .next <|
    match s.nextUser die with
    | none => s
    | some q =>
      match s.laneReady q with
      | none => s
      | some (r, d) =>
        let x := s.queue q
        let rs := x.regions.map (fun (y : DeferRegion) =>
          if y.first = r.first then { y with lane := y.lane.drop 1, next := dSeq d + 1 } else y)
        let s := takeTurn (turnKey die x.cls) q (bump (ZG_TRN_DEFER_DISP die) 1 s)
        takeBad q (dispatchDesc q d true (s.setQueue q { x with regions := rs }))

/-! ### Loans (R424 to R430) -/

/-- LEND_DELAY in ns; 0 acts as 1 (R424). -/
def State.lendDelay (s : State) (d : Nat) : Nat := max 1 (s.rfld (ZG_TRN_CTRL d) 23 12) * 100

/-- Whether a queue keeps its partition's clusters from being idle: it holds fetched descriptors and its head command is not blocked
(R424). A filler queue with an open unit waits for that unit (log entry 71). -/
def State.wants (s : State) (q : Nat) : Bool :=
  let x := s.queue q
  x.unit.isNone && x.fetched != [] && (s.mainBlockedOn q).isNone

/-- Whether a queue has an eligible region with commands still to dispatch (R421). -/
def Queue.regionDue (x : Queue) : Bool :=
  x.state == .running && x.nextRegion.any (fun r => x.eligible r)

/-- Whether a queue of a partition bound to a die meets a condition. -/
def State.partAny (s : State) (d p : Nat) (g : Nat → Queue → Bool) : Bool :=
  s.host.queues.any (fun x => !isAdmin x.1 && x.2.die == d && x.2.part == p && g x.1 x.2)

/-- Whether some queue of a partition keeps its clusters of a die from being idle, or has an eligible region there (R424). -/
def State.partBusy (s : State) (d p : Nat) : Bool := s.partAny d p (fun q x => s.wants q || x.regionDue)

/-- Whether some queue of a partition can run on a die: a wait was released, a descriptor fetched, or a region is eligible
(R428). -/
def State.partWakes (s : State) (d p : Nat) : Bool :=
  s.partAny d p (fun q x => x.state == .running && s.wants q || x.regionDue)

/-- Whether a cluster may be lent, and is idle, for a filler queue (R424, R468, R488). -/
def State.lendable (s : State) (q d c : Nat) : Bool :=
  let x := s.clus d c
  let o := s.cluOwner d c
  let p := o % 64
  bitOf (s.reg (ZG_TRN_LEND d)).toNat c && s.clu.carve.getD d 0 != 0 && s.rfld (ZG_CLU_CARVE d) 8 8 == 0
    && decide (c < s.gradeClusters) && !x.degraded && x.loan.isNone && x.prog.isNone && o / 64 % 2 == 0
    && (o / 128 == 0
      || (!s.clusterInUse d c && !s.partBusy d p && decide (cget 0 s.trn.lastRun (detKey d p) + s.lendDelay d ≤ s.now)
        && (!(s.rfld (ZG_TRN_CTRL d) 1 1 == 1 || (s.part p).audit) || (s.part p).tenant == (s.queue q).tenant)))

/-- Clusters of a die that a filler queue may borrow now, ascending. -/
def State.lendableTo (s : State) (q d : Nat) : List Nat := (List.range 64).filter (fun c => s.lendable q d c)

/-- Filler queues of a die whose unit can be granted a loan now. -/
def State.fillers (s : State) (d : Nat) : List Nat :=
  (s.host.queues.filter (fun p => !isAdmin p.1 && p.2.die == d && s.queueOpen p.1 && s.lentKeys p.1 == []
    && p.2.unit.any (fun u => decide (u.width ≤ (s.lendableTo p.1 d).length)))).map Prod.fst

/-- A cluster is lent: its carve-out is zeroed where the last borrower was of another tenant, and a register set of zeros is put
in place of the owner's (R131, R430). -/
def lendCluster (q d seq c : Nat) (s : State) : State :=
  let y := s.queue q
  let s := if (s.clus d c).lastBorrower.any (fun t => t != y.tenant) then sramZero d c (s.sramBound d) sramSize s else s
  s.updClus d c fun x =>
    { x with loan := some { sorrel := false, queue := q, seq := seq, part := y.part, since := s.now },
             lastBorrower := some y.tenant,
             lentRegs := some { vregs := x.vregs, xregs := x.xregs, masks := x.masks, vstat := x.vstat, ctxs := x.ctxs },
             vregs := [], xregs := [], masks := [], vstat := 0, ctxs := [] }

/-- LOAN_GRANT: the next filler queue of the die, in ascending order and cycling, whose unit finds WIDTH clusters takes the
lowest-numbered of them (R426). -/
def execLoanGrant (die : Die) (s : State) : Out :=
  .next <|
    match nextInTurn (cget 0 s.trn.turn die) (s.fillers die) with
    | none => s
    | some q =>
      let x := s.queue q
      match x.unit with
      | none => s
      | some u =>
        let cs := (s.lendableTo q die).take u.width
        let s := s.setQueue q { x with unit := some { u with pos := 0 } }
        let s := { s with trn := { s.trn with turn := cset 0 s.trn.turn die (q + 1) } }
        bump (ZG_TRN_LOANS die) 1 (cs.foldl (fun s c => lendCluster q die u.first c s) s)

/-- Whether the loan of a filler queue is to end: an owner can run, Sorrel or a new owner takes a cluster, or the queue is
stopped (R428). -/
def State.loanDue (s : State) (q : Nat) : Bool :=
  let x := s.queue q
  x.state != .running || s.loanEnding q
    || (s.lentKeys q).any (fun k =>
      let o := s.cluOwner (k / 64) (k % 64)
      o / 128 == 1 && s.partWakes (k / 64) (o % 64))

/-- LOAN_END: the attempt stops in every cluster; once no vector program of it runs, the clusters go back and the attempt ends
(R428). -/
def execLoanEnd (q : Qn) (s : State) : Out :=
  .next <|
    match (s.queue q).unit with
    | none => s
    | some u =>
      if s.lentKeys q = [] ∨ s.loanDue q = false then s
      else
        let s := (s.lentKeys q).foldl (fun s k => s.updClus (k / 64) (k % 64)
          (fun x => { x with loan := x.loan.map (fun l => { l with ending := true }) })) s
        let s := stopUnitWork q u true s
        if s.clu.cl.any (fun p => p.2.prog.any (fun v => v.queue == q.val && u.has v.seq)) then s else endAttempt q s

end Sys2Proof.Machine
end

