-- ==== Sys2Proof/Machine/Hbm.lean ====
section
/-! DEFINITION. Accesses, refresh, scrubbing and thermal throttle of the stacks (08_hbm_memory.md R186, R187, R201 to R221). -/
namespace Sys2Proof.Machine

/-! ### Accesses (R201) -/

/-- Symbol errors strike a block. -/
def strikeBlock (b : Nat) (es : List SymErr) (s : State) : State :=
  let add := (es.map (fun e => (e.pos.val, e.bits.toNat))).filter (fun e => e.2 != 0)
  if add = [] then s else { s with hbm := { s.hbm with errs := cset [] s.hbm.errs b (rsAdd (cget [] s.hbm.errs b) add) } }

/-- An error pattern that the symbol code detects and cannot correct. -/
def deadPattern : List (Nat × Nat) := [(0, 1), (1, 2), (2, 4)]

/-- A stored line becomes uncorrectable. -/
def killLine (a : Nat) (s : State) : State := { s with hbm := { s.hbm with errs := cset [] s.hbm.errs (a / 64) deadPattern } }

/-- A line with a mirror becomes uncorrectable, in the primary copy or in both. -/
def killCopies (a : Nat) (both : Bool) (s : State) : State :=
  let s := killLine a s
  if both then killLine (a + mirrorGap) s else s

/-- What the environment does to a stored line of the map, of the frame table or of the page tables that an access can meet
(R201, R219). -/
def strikeLine (l : LineFault) (rq : Req) (va : Nat) (s : State) : State :=
  match walkLeaf s rq.part rq.bank va, l with
  | _, .good => s
  | _, .pageTable k => match (walkReads s rq.part rq.bank va)[k.val]? with
    | some a => killLine a s
    | none => s
  | .page, _ => s
  | .ok pa _, .mapCopy => killCopies (mapLineAddr (frameNo pa)) false s
  | .ok pa _, .mapLost => killCopies (mapLineAddr (frameNo pa)) true s
  | .ok pa _, .frameCopy => killCopies (frameAddr (frameNo pa / 131072) (frameNo pa % 131072)) false s
  | .ok pa _, .frameLost => killCopies (frameAddr (frameNo pa / 131072) (frameNo pa % 131072)) true s

/-- What the environment does to the block that an access reaches and to the table lines on the way. -/
def strikeAccess (strike : List SymErr) (l : LineFault) (rq : Req) (va : Nat) (s : State) : State :=
  strikeLine l rq va (match walk s rq.part rq.bank va with
    | .ok pa _ => strikeBlock (pa / 64) strike s
    | .page => s)

/-- HBM_ACCESS: a read or write of a dispatched command through its page tables, after what the environment did to the
block and to the table lines it goes through (R201, R205, R206, R214 to R216, R219). A read delivers its bytes to the
unit. -/
def execHbmAccess (q : Qn) (seq : Word64) (unit : Fin 8) (va : Word64) (what : HbmOp) (strike : List SymErr)
    (line : LineFault) (s : State) : Out :=
  .next <|
    match s.flight q seq.toNat with
    | none => s
    | some f =>
      if isAdmin q then s
      else
        let rq := s.req q f unit
        let s := strikeAccess strike line rq va.toNat s
        let x : Acc (List Byte) := match what with
          | .read n => vaRead rq va.toNat n.toNat s
          | .write bs => (vaWrite rq va.toNat bs s).bind fun _ s => .ok [] s
        match x with
        | .ok bs s => { s with hbm := { s.hbm with delivered := bs } }
        | .fault k a s => failCommand q seq.toNat (faultStatus k) 0 (recordFault rq k a s)
        | .wait m a _ => waitAtStack ⟨m, q, seq.toNat, unit, a, none⟩ s

/-- HBM_CE_WRITEBACK: the oldest corrected block of an idle stack is written back (R205). -/
def execHbmCeWriteback (m : Fin 16) (s : State) : Out :=
  .next <|
    let x := s.stack m
    match x.writeBacks with
    | [] => s
    | b :: bs =>
      let s := s.setStack m { x with writeBacks := bs }
      let data := s.hbmBytes (b * 64) 64
      let errs := cget [] s.hbm.errs b
      let good := match rsDecode errs with
        | .corrected fix => overlay data (rsAdd errs fix)
        | _ => data
      let s := s.hbmPut (b * 64) good
      { s with hbm := { s.hbm with errs := cset [] s.hbm.errs b [] } }

/-! ### Refresh and scrubbing (R186, R207) -/

/-- HBM_REFRESH: per-bank refresh at the JEDEC rate, at twice that rate from 85 °C; refresh goes on at a stopped stack and
changes no data (R186, R220). -/
def execHbmRefresh (m : Fin 16) (s : State) : Out :=
  .next <|
    let x := s.stack m
    let hot := decide (85 ≤ s.rfld (stackReg m) 47 40)
    if x.refreshAt + (if hot then Config.refreshNs / 2 else Config.refreshNs) ≤ s.now then
      s.setStack m { x with refreshAt := s.now } else s

/-- The physical address of a block location of a pseudo-channel of a stack (R189). -/
def paOf (m pc loc : Nat) : Nat :=
  let hi := loc / 4 * 65536
  m / 4 * 0x4000000000 + hi + Nat.xor pc (bitsOf hi 21 16) * 1024 + Nat.xor (m % 4) (bitsOf hi 24 23) * 256 + loc % 4 * 64

/-- HBM_SCRUB: in an idle cycle, the next block of the stack, ascending by loc, is read and corrected if its granule is
present; `strike` are the errors the environment has put there (R205, R207). -/
def execHbmScrub (m : Fin 16) (strike : List SymErr) (s : State) : Out :=
  .next <|
    if s.rfld (ZG_HBM_SCRUB (m / 4)) 16 16 = 0 then s
    else
      let x := s.stack m
      let pa := paOf m (x.scrubLoc % 64) (x.scrubLoc / 64)
      let s := s.setStack m { x with scrubLoc := (x.scrubLoc + 1) % 0x40000000 }
      if !s.present pa then s
      else
        let s := strikeBlock (pa / 64) strike s
        let errs := cget [] s.hbm.errs (pa / 64)
        if errs = [] then s
        else match rsDecode errs with
          | .clean => s
          | .corrected fix => correctBlock 1 pa fix s
          | .uncorrectable => loseBlock 3 pa s

/-! ### Thermal throttle (R187, R220, R221) -/

/-- Entry threshold of a level (R220). -/
def levelAt (s : State) (m level : Nat) : Nat :=
  let t := s.rfld (ZG_HBM_CTRL (m / 4)) 15 8
  if level = 1 then t else if level = 2 then t + 4 else 95

/-- The threshold that entered a level that the stack is at (R220). -/
def levelEnd (s : State) (m level : Nat) : Nat := (s.stack m).thr.getD (level - 1) (levelAt s m level)

/-- The level of a reading, from the level before: the highest level entered, and a level ends 2 °C below the threshold that
entered it (R220). -/
def levelOf (s : State) (m t : Nat) : Nat → Nat
  | 0 => ([1, 2, 3].filter (fun l => decide (levelAt s m l ≤ t))).foldl max 0
  | cur + 1 =>
    let entered := ([1, 2, 3].filter (fun l => decide (levelAt s m l ≤ t))).foldl max 0
    if entered < cur + 1 ∧ t + 2 ≤ levelEnd s m (cur + 1) then levelOf s m t cur else max entered (cur + 1)

/-- Nanoseconds at levels 1 to 3 since the last reading are counted (ZG_HBM_THR_NS). -/
def countThrottle (m : Nat) (s : State) : State :=
  let x := s.stack m
  let s := if s.rfld (stackReg m) 39 38 = 0 then s else bump (ZG_HBM_THR_NS (m / 4)) (s.now - x.readAt) s
  s.setStack m { x with readAt := s.now }

/-- A stack takes a level: a change is recorded with kind 6 and raised; entry to level 3 begins a stop, and its end lets the waiting
requests go, in order (R220, R222). -/
def setLevel (m new : Nat) (s : State) : State :=
  let old := s.rfld (stackReg m) 39 38
  if new = old then s
  else
    let x := s.stack m
    let thr := [1, 2, 3].map (fun l => if old < l ∧ l ≤ new then levelAt s m l else levelEnd s m l)
    let s := s.setStack m { x with thr := thr }
    let s := s.setRfld (stackReg m) 39 38 new
    let s := errRecordAt 6 0 m 0 0 255 255 s
    let s := raiseEvent { cls := 5, code := 3, src := m / 4, alarm := (if new = 3 then 2 else 0), log := false,
                          data := m + new * 16 + s.rfld (stackReg m) 47 40 * 64 + s.rfld (stackReg m) 37 37 * 16384 } s
    let x := s.stack m
    if new = 3 then s.setStack m { x with stoppedAt := s.now, stalledRaised := false, aborting := false }
    else if old = 3 then flushRings (s.setStack m { x with stalledRaised := false, aborting := false })
    else s

/-- STACK_TEMP_READ: a reading, or none for one that fails. Three failures in a row or a reading above 125 °C are a sensor
failure, treated as level 3 until the next good reading (R187, R220, R221). -/
def execStackTempRead (m : Fin 16) (reading : Option Byte) (s : State) : Out :=
  .next <|
    let s := countThrottle m s
    let x := s.stack m
    let fail := fun (s : State) =>
      if s.rfld (stackReg m) 37 37 = 1 then s
      else setLevel m 3 (errRecordAt 7 0 m 0 0 255 255 ((s.setRfld (stackReg m) 37 37 1).setRfld (stackReg m) 47 40 255))
    match reading with
    | none =>
      let s := s.setStack m { x with failedReads := x.failedReads + 1 }
      if x.failedReads + 1 < 3 then s else fail s
    | some t =>
      if 125 < t.toNat then fail (s.setStack m { x with failedReads := 3 })
      else
        let s := s.setStack m { x with failedReads := 0 }
        let s := (s.setRfld (stackReg m) 37 37 0).setRfld (stackReg m) 47 40 t.toNat
        setLevel m (levelOf s m t.toNat (s.rfld (stackReg m) 39 38)) s

/-- STACK_STALLED: 100 µs at level 3 (R220, R222). -/
def execStackStalled (m : Fin 16) (s : State) : Out :=
  .next <|
    let x := s.stack m
    if s.rfld (stackReg m) 39 38 = 3 ∧ x.stalledRaised = false ∧ x.stoppedAt + 100000 ≤ s.now then
      raiseEvent { cls := 5, code := 4, src := m / 4, log := false, data := m + s.rfld (stackReg m) 47 40 * 64 }
        (s.setStack m { x with stalledRaised := true })
    else s

/-- A command with a request waiting at a stack fails with the HBM-thermal status; a stream whose source waits fails in
the same way. -/
def failWait (w : StackWait) (s : State) : State :=
  match (if w.unit = 2 then s.d2d.streams.find? (fun x => x.queue == w.queue && x.seq == w.seq && x.failed.isNone) else none) with
  | some x =>
    let rq : Req := ⟨x.part, x.bank.getD 0, x.epoch, x.queue, x.seq, x.sender, 2, false, false⟩
    failStream x.gen 0x24 (recordFault rq 7 w.va s)
  | none =>
  match s.flight w.queue w.seq with
  | none => s
  | some f =>
    let rq := s.req w.queue f w.unit
    let s := recordFault rq 7 w.va s
    match s.tileRun w.queue w.seq, w.cl with
    | some r, some c => failTile r c 0x24 s
    | _, _ =>
      let detail := match s.clu.moves.find? (fun m => m.queue == w.queue && m.seq == w.seq), w.cl with
        | some m, some c => relCluster m.clFirst m.cls c
        | _, _ => 0
      failCommand w.queue w.seq 0x24 detail s

/-- STACK_STOP_ABORT: STOP_ABORT_MS at level 3; the waiting commands fail, and every new request fails at once until the
stack leaves level 3 (R220, R222). -/
def execStackStopAbort (m : Fin 16) (s : State) : Out :=
  .next <|
    let x := s.stack m
    let ms := s.rfld (ZG_HBM_CTRL (m / 4)) 31 16
    if s.rfld (stackReg m) 39 38 = 3 ∧ x.aborting = false ∧ ms ≠ 0 ∧ x.stoppedAt + ms * 1000000 ≤ s.now then
      let ws := s.hbm.waits.filter (fun w => w.stack == m.val)
      let n := (ws.map (fun w => (w.queue, w.seq))).eraseDups.length
      let s := s.setStack m { x with aborting := true }
      let s := { s with hbm := { s.hbm with waits := s.hbm.waits.filter (fun w => w.stack != m.val) } }
      raiseEvent { cls := 5, code := 6, src := m / 4, alarm := 2, log := false, data := m + n * 65536 } (ws.foldl (fun s w => failWait w s) s)
    else s

end Sys2Proof.Machine
end

