-- ==== Sys2Proof/Machine/PartAdmin.lean ====
section
/-! DEFINITION. PARTITION_CREATE and PARTITION_DESTROY (10_host_queues.md R276, R278; 18 R557). -/
namespace Sys2Proof.Machine

/-- The audit record of a partition change (R557). -/
def partAudit (mcmd p : Nat) (s : State) (tenant : Nat) : Bool × State :=
  auditAppend false { kind := 4, path := 2, part := some p, mcmd := mcmd, tenant := tenant } s

/-! ### PARTITION_CREATE (R276) -/

/-- COUNT of the short body: Q_COUNT − 1. -/
def sCount (b : List Byte) : Nat := getLE b 6 2

/-- Whether two ranges of queues, each a first number and a count, share a queue. -/
def queuesMeet (a n b m : Nat) : Bool := decide (a < b + m) && decide (b < a + n)

/-- PARTITION_CREATE names a partition that exists, leaves Q0 to Q65535, or overlaps another partition. -/
def createPartBad (b : List Byte) (s : State) : Bool :=
  let n := sCount b + 1
  (s.part (sPart b)).present || decide (65536 < sQueue b + n)
    || s.partsNow.any (fun p => queuesMeet (sQueue b) n (s.part p).qFirst (s.part p).qCount)

/-- The accounts of a partition start at zero (R515). -/
def zeroAccounts (p : Nat) (s : State) : State :=
  { s with power := { s.power with eStatic := cset 0 s.power.eStatic p 0, ePart := cset 0 s.power.ePart p 0,
                                   carried := cset (0, 1) s.power.carried (staticKey p) (0, 1) } }

/-- Replace a partition. -/
def State.setPart (s : State) (p : Nat) (x : Partition) : State :=
  { s with host := { s.host with parts := cset {} s.host.parts p x } }

/-- PARTITION_CREATE: the partition with its tenant, queue range and modes; its page tables, accounts and provenance chain
start afresh, and the audit log says so first (R195, R276, R481, R515, R557). -/
def execPartitionCreate (q : Qn) (seq : Word64) (s : State) : Out :=
  .next <| withAdmin q seq.toNat 0x94 s fun f =>
    let b := dBody f.desc
    let p := sPart b
    let tenant := getLE b 4 2
    let bad := firstFail [failIf (q.val != 65536) 3, checkShort b, failIf (createPartBad b s) 1, failIf (tenant == 0) 3,
      failIf (bitOf (s.reg ZG_MGT_STATE).toNat 3) 0x0808]
    if bad ≠ 0 then endCommand q seq.toNat bad 0 s
    else match partAudit 0x94 p s tenant with
      | (false, s) => endCommand q seq.toNat 0x0606 0 s
      | (true, s) =>
        let s := s.setPart p { present := true, tenant := tenant, qFirst := sQueue b, qCount := sCount b + 1,
                               det := bitOf (byteAt b 3) 1, audit := bitOf (byteAt b 3) 2 }
        let s := zeroAccounts p (newRoots p (s.setBank (ptTable p) {}))
        let s := { s with integ := { s.integ with chains := cset ([], 0) s.integ.chains p ([], 0) } }
        endCommand q seq.toNat 0 0 s

/-! ### PARTITION_DESTROY (R278) -/

/-- Step 1: every queue of the partition stops with ABORT and is then DISABLED. -/
def disableQueues (p : Nat) (s : State) : State :=
  let qs := s.partQueues p
  qs.foldl (fun s n =>
    let x := s.queue n
    dropReaders n (s.setQueue n { x with state := .disabled, fetched := [], bad := none, retries := 0, regions := [], unit := none }))
    (stopPartition p true none s)

/-- Step 2: every open stream of the partition closes (R240). -/
def closeStreams (p : Nat) (s : State) : State :=
  (s.d2d.streams.filter (fun x => x.part == p)).foldl (fun s x => endStreamIn x.gen 0x41 (x.cls.map (·.cl)) s) s

/-- Step 3: the blocks of synchronisation objects and of groups that name the partition lose VALID (R296, R313). -/
def releaseBlocks (p : Nat) (s : State) : State :=
  let s := (List.range 256).foldl (fun s i =>
    let d := i / 64
    let b := i % 64
    if s.synOwner (i * 64) / 128 = 1 ∧ s.synOwner (i * 64) % 64 = p then changeSynOwner d b p s else s) s
  (List.range 64).foldl (fun s b =>
    let o := s.rfld (ZG_CGO_OWN (b / 8)) (b % 8 * 8 + 7) (b % 8 * 8)
    if o / 128 = 1 ∧ o % 64 = p then changeCgoOwner b p s else s) s

/-- Step 4: the clusters that name the partition, or are to, lose VALID (R129). -/
def releaseClusters (p : Nat) (s : State) : State :=
  (List.range 256).foldl (fun s i =>
    let d := i / 64
    let c := i % 64
    if (s.clus d c).ownTarget.getD (s.cluOwner d c / 128 * 128 + s.cluOwner d c % 64) = 128 + p then aimOwner d c p s else s) s

/-- The virtual-stage contexts that the partition holds are free (R415). -/
def freeStages (p : Nat) (s : State) : State :=
  (List.range 4).foldl (fun s d => if (s.stg d).ctxs ≠ [] ∧ (s.stg d).part = p then s.setStg d {} else s) s

/-- Whether a cluster still names the partition or is changing owner from it. -/
def clustersName (p : Nat) (s : State) : Bool :=
  (List.range 256).any (fun i =>
    let o := s.cluOwner (i / 64) (i % 64)
    decide (64 ≤ o) && o % 64 == p)

/-- Steps 5 to 7: both page-table banks go, the frames are released, and the partition is no more (R191, R192). -/
def erasePartition (p : Nat) (s : State) : State :=
  let s := { s with hbm := { s.hbm with
    pt := cclear s.hbm.pt (ptKey p 0 0 0) (ptKey (p + 1) 0 0 0), roots := cclear s.hbm.roots (p * 2) (p * 2 + 2),
    tlb := s.hbm.tlb.map (fun (e : Nat × List TlbTag) => (e.1, e.2.filter (fun t => t.part != p))) } }
  let s := s.setBank (ptTable p) {}
  let frames := (s.hbm.bytes.filter (fun e => e.2.toNat / 128 == 1 && e.2.toNat % 64 == p)).filterMap (fun e =>
    let d := e.1 / 0x4000000000
    let base := reservedBase d + 0x1000000
    if base ≤ e.1 ∧ e.1 < base + 130560 then some (d * 131072 + (e.1 - base)) else none)
  let s := frames.foldl releaseFrame s
  let s := (List.range 4).foldl (fun s d =>
    { s with syn := { s.syn with detectors := cset {} s.syn.detectors (detKey d p) {} } }) s
  s.setPart p {}

/-- PARTITION_DESTROY: the steps of R278; the command waits for the clusters and for the readers of the page tables. -/
def execPartitionDestroy (q : Qn) (seq : Word64) (s : State) : Out :=
  .next <| withAdmin q seq.toNat 0x95 s fun f =>
    let b := dBody f.desc
    let p := sPart b
    let bank := s.bank (ptTable p)
    if f.phase = 0 then
      let bad := firstFail [failIf (q.val != 65536) 3, checkShort b, failIf (!(s.part p).present) 1]
      if bad ≠ 0 then endCommand q seq.toNat bad 0 s
      else match partAudit 0x95 p s (s.part p).tenant with
        | (false, s) => endCommand q seq.toNat 0x0606 0 s
        | (true, s) =>
          let s := s.updFlight q seq.toNat (fun g => { g with phase := 1 })
          releaseClusters p (releaseBlocks p (closeStreams p (freeStages p (disableQueues p s))))
    else if clustersName p s || bank.readers0 != 0 || bank.readers1 != 0 then s
    else endCommand q seq.toNat 0 0 (erasePartition p s)

end Sys2Proof.Machine
end

