-- ==== Sys2Proof/Machine/Resets.lean ====
section
/-! DEFINITION. Warm resets, die resets, loss of REFCLK, hub SRAM errors (19_startup_reset.md R580 to R586). -/
namespace Sys2Proof.Machine

/-! ### The warm reset (R581) -/

/-- User queues that are not DISABLED. -/
def State.liveQueues (s : State) : List Nat :=
  (s.host.queues.filter (fun p => !isAdmin p.1 && p.2.state != .disabled)).map Prod.fst

/-- A user queue is DISABLED: its dispatched commands end with the aborted status; what ZG_HQ shows of it stays (R580, R581). -/
def shutQueue (q : Nat) (s : State) : State :=
  let s := abortFlights q 7 s
  s.setQueue q { s.queue q with state := .disabled, fetched := [], bad := none, retries := 0, regions := [], unit := none }

/-- An admin queue is out of service: ENABLE is cleared, and nothing in it completes a record (R581). -/
def shutAdmin (f : Nat) (s : State) : State :=
  let q := 65536 + f
  let s := if (s.queue q) = {} then s else disableQueue q s
  let v := s.regF f ZG_ADM_CFG
  if bitOf v.toNat 31 then s.setRegF f ZG_ADM_CFG (setFld v 31 31 0) else s

/-- A warm reset begins, for cause 0 WARM, 1 the return of REFCLK, 2 a hub SRAM error: ports and work end, the dies and Betony are in
reset, objects and groups are as after their definition was lost, streams are closed (R580, R581). -/
def beginWarm (cause : Nat) (s : State) : State :=
  let s := setReady false (setStage 12 (bootEvent 3 cause 0 s))
  let s := { s with boot := { s.boot with startedAt := s.now, resetClass := 2, step13 := false } }
  let s := (List.range 24).foldl (fun s p => if s.portState p = 0 then s else leaveTo p 0 s) s
  let s := s.liveQueues.foldl (fun s q => shutQueue q s) s
  let s := (List.range 65).foldl (fun s f => shutAdmin f s) s
  let s := { s with coll := {}, banks := cclear s.banks (memberTable 0) routeTable,
                    syn := {}, hbm := { s.hbm with waits := [], tlb := [], mapBuf := [], mapCache := [] }, d2d := { s.d2d with streams := [] },
                    wfn := { s.wfn with controls := [] } }
  let s := setDies 0 ((List.range 4).foldl (fun s d => enterReduced d (clearDie d s)) s)
  (s.setRfld ZG_MGT_STATE 2 0 2).setRfld ZG_MBX_STATUS 2 0 3

/-- The links that join dies that have not FAILED. -/
def State.liveLinks (s : State) : List Nat :=
  allLinks.filter (fun l => if l < 4 then !s.dieFailed l && !s.dieFailed (nextDie l) else !s.dieFailed (l - 4))

/-- Steps 10, 12 and 13 of a warm reset, with tests 0x02 to 0x08 (R581). -/
def warmRun (fails : List (Fin 4 × TestFail)) (s : State) : State :=
  let fw := s.rfld ZG_MGT_STATE 63 32
  match imageOk s with
  | (false, s) => haltBetony (setStage 6 s)
  | (true, s) =>
    let s := resolveJournal (startBetony fw s)
    takeTests true (fails.filter (fun x => decide (2 ≤ x.2.test.toNat) && decide (x.2.test.toNat ≤ 8))) s applyStep12

/-- A warm reset that has begun goes on: training that keeps stack contents, then `warmRun`; a context save area that is lost
makes it a cold reset (R581). -/
def finishWarm (t : Training) (ctxOk : Bool) (fails : List (Fin 4 × TestFail)) (s : State) : State :=
  if ctxOk = false then
    let c := coldState false true s
    { c with pins := { c.pins with resetN := s.pins.resetN } }
  else
    let ds := (List.range 4).filter (fun d => !s.dieFailed d)
    let s := setDies 1 (takeTables ds (dropCleared ds (countStartup s)))
    let ls := s.liveLinks
    let s := trainLinks t ls (ds.foldl (fun s d => seekNom d s) s)
    match deadHubLink ls s with
    | some d => failBoot 0x0906 d s
    | none =>
      let ms := (List.range 16).filter (fun m => !s.dieFailed (m / 4))
      let s := ms.foldl (trainStack t false) s
      match deadStack t ms with
      | some m => failBoot 0x0901 (m / 4) s
      | none => warmRun fails s

/-! ### The die reset (R582, R583) -/

/-- Queues of a die that is reset: their commands end with the die-reset status, and each is in ERROR. -/
def resetQueue (q : Nat) (s : State) : State :=
  let s := abortFlights q 0x0908 s
  let s := s.setQueue q { s.queue q with fetched := [], bad := none, retries := 0, regions := [], unit := none }
  if (s.queue q).state = .error ∨ (s.queue q).state = .disabled then s else enterError q 0x0908 s

/-- A die reset begins: queues, waits on its objects, groups and streams of the die end; its stacks are in self refresh
(R582). -/
def beginDie (d : Nat) (s : State) : State :=
  if s.dieState d ≠ 3 then s
  else
    let s := setDieState d 4 s
    let s := (s.liveQueues.filter (fun q => (s.queue q).die == d)).foldl (fun s q => resetQueue q s) s
    let here := fun (w : SynWait) => w.obj / 4096 == d
    let es := (s.syn.waits.filter here).map (fun w => ({ queue := w.queue, seq := w.seq, status := 0x0908 } : Ending))
    let s := endAll es { s with syn := { s.syn with waits := s.syn.waits.filter (fun w => !here w) } }
    let s := ((s.coll.dies.filter (fun p => p.1 % 4 == d)).map Prod.fst).foldl (fun s k => collAbort (k / 4) d 0x0908 0 0 s) s
    let s := ((s.d2d.streams.filter (fun x => x.die == d || x.sender == d)).map (·.gen)).foldl (fun s g => failStream g 0x0908 s) s
    let s := (List.range 6).foldl (fun s k => if s.portState (6 * d + k) = 0 then s else leaveTo (6 * d + k) 0 s) s
    enterReduced d (clearDie d s)

/-- The links of a die whose other end has not FAILED. -/
def State.dieLinks (s : State) (d : Nat) : List Nat :=
  [d, prevDie d].filter (fun l => !s.dieFailed l && !s.dieFailed (nextDie l)) ++ [4 + d]

/-- A die reset that has begun ends: the die is trained and tested and rejoins, or has FAILED (R582, R583). -/
def finishDie (d : Nat) (t : Training) (fails : List TestFail) (s : State) : State :=
  let cause := b2n (s.rfld (ZG_D2D_PORT d 2) 52 51 == 3)
  let fails := fails.filter (fun x => decide (2 ≤ x.test.toNat) && decide (x.test.toNat ≤ 8))
  let ms := (List.range 4).map (4 * d + ·)
  let s := takeTables [d] (dropCleared [d] (countStartup (bump ZG_BOOT_DIERSTS 1 s)))
  let ls := s.dieLinks d
  let s := ms.foldl (trainStack t false) (trainLinks t ls (seekNom d s))
  if (deadHubLink ls s).isSome || (deadStack t ms).isSome || fails.any (fun x => dieLevel x.test.toNat) then
    let s := updateEngineCount (64 * d) (setDieState d 5 s)
    bootEvent 5 (d + cause * 4) 3 s
  else
    let s := updateEngineCount (64 * d) (applyHealth d (selfTestFailures d fails s))
    let s := trainPorts d (setDieState d 3 (leaveReduced d s))
    let s := { s with time := { s.time with replica := s.time.replica.set d s.now } }
    bootEvent 5 (d + cause * 4 + 32) 0 (flushRings s)

/-! ### Commands -/

/-- Whether a die reset is under way. -/
def State.dieResetting (s : State) : Bool := (List.range 4).any (fun d => s.dieState d == 4)

/-- What a write of ZG_BOOT_CTRL does beside its fields: WARM begins a warm reset, which absorbs the die resets asked for with
it; DIE_RESET begins one for each die named, and is ignored during another die reset (R586). -/
def bootCtrlEffect (new : Nat) (s : State) : State :=
  if bitOf new 8 then beginWarm 0 s
  else if s.dieResetting then s
  else (List.range 4).foldl (fun s d => if bitOf new (4 + d) then beginDie d s else s) s

/-- A reset begins by the write that asks for it. -/
def resetByWrite (cause : ResetBy) (s : State) : State :=
  match cause with
  | .write f v => guardedWrite f ZG_BOOT_CTRL 4 v.toNat s fun _ new s => bootCtrlEffect new s
  | .itself => s

/-- WARM_RESET: a write of WARM begins one, and one that has begun runs to its end; `t` is what training finds, `ctxOk` whether
the context save area passes its digest, `fails` what the tests find (R581). -/
def execWarmReset (cause : ResetBy) (t : Training) (ctxOk : Bool) (fails : List (Fin 4 × TestFail)) (s : State) : Out :=
  .next <|
    let s := resetByWrite cause s
    if s.stage = 12 ∧ s.power.tripped = false then finishWarm t ctxOk fails s else s

/-- DIE_RESET: a write of DIE_RESET, or the loss of the hub link, begins one, and one that has begun runs to its end (R582,
R583, R235). -/
def execDieReset (die : Die) (cause : ResetBy) (t : Training) (fails : List TestFail) (s : State) : Out :=
  .next <|
    let s := resetByWrite cause s
    let s := if cause = .itself ∧ s.ready = true ∧ s.dieResetting = false ∧ s.rfld (ZG_D2D_PORT die 2) 52 51 = 3 then beginDie die s else s
    if s.dieState die = 4 ∧ s.stage = 10 ∧ s.power.tripped = false then finishDie die t fails s else s

/-- REFCLK_LOSS: no edge for 100 ns. The timebase runs on, work stops, stacks are in self refresh, ports and host link are down,
dispatched commands end (R37, R584). -/
def execRefclkLoss (s : State) : Out :=
  .next <|
    if s.time.refclk = false ∨ s.stage = 0 ∨ s.power.tripped then s
    else
      let s := bootEvent 6 0 3 { s with time := { s.time with refclk := false, refclkAt := s.now } }
      let aligned := s.rfld ZG_TIME_STATUS 1 1 = 1
      let s := ((s.setRfld ZG_TIME_STATUS 3 3 1).setRfld ZG_TIME_STATUS 1 1 0).setRfld ZG_TIME_STATUS 31 16 0
      let s := s.setRfld ZG_TOP_TIME 58 51 255
      let s := if aligned then wefinEvent 0x0A 4 31 (255 * 2) false s else s
      let s := quietPackage { s with wfn := { s.wfn with timeGood := 0 } }
      let s := (List.range 16).foldl (fun s m => s.setStack m { s.stack m with selfRefresh := true }) s
      if s.stage = 11 then s else setReady false (setStage 13 { s with boot := { s.boot with step13 := false } })

/-- REFCLK_RETURN: REFCLK has been present for 1 ms; a warm reset begins (R584). -/
def execRefclkReturn (s : State) : Out :=
  .next <|
    if s.time.refclk ∨ s.power.tripped then s
    else
      let us := min ((s.now - s.time.refclkAt) / 1000) 4294967295
      let s := bootEvent 7 us 0 { s with time := { s.time with refclk := true, refclkAt := s.now } }
      if s.stage = 13 then beginWarm 1 s else s

/-- What an uncorrectable error in a region of hub SRAM does (R585). -/
def sramLoss (r : SramRegion) (s : State) : State :=
  match r with
  | .queues => if s.ready then beginWarm 2 s else s
  | .presence die frame =>
    let g := die * 131072 + frame.toNat
    let line := s.hbm.mapCache.find? (fun p => p.1 == g)
    let s := { s with hbm := { s.hbm with mapCache := s.hbm.mapCache.filter (fun p => p.1 != g) } }
    if line = some (g, true) then loseLine g (mapLineAddr g) [g] s else s
  | .alarms slot => refreshAlert (s.setAlarm slot.toNat {})
  | .logFifo =>
    if s.mgt.logFifo = [] then s
    else bump ZG_MGT_LOG_LOST 1 { s with mgt := { s.mgt with logFifo := s.mgt.logFifo.drop 1 } }
  | .traceFifo =>
    if s.mgt.traceFifo = [] then s
    else bump ZG_MGT_TR_DROP 1 { s with mgt := { s.mgt with traceFifo := s.mgt.traceFifo.drop 1 } }
  | .sideband => if s.host.mbx.phase = 1 ∧ s.host.mbx.sb = true then finishRole 1 [] s else s
  | .mailbox => if s.host.mbx.phase = 1 ∧ s.host.mbx.sb = false then finishRole 1 [] s else s
  | .emulation =>
    let s := s.mgt.emuWrites.foldl (fun s w => s.setRegF w.fn ZG_MGT_EMU (setFld (s.regF w.fn ZG_MGT_EMU) 1 1 1)) s
    let s := bump ZG_MGT_WR_DROPPED s.mgt.emuWrites.length s
    let s := s.mgt.emuReads.foldl (fun s r => answerBusy r.fn r.off r.size s) s
    { s with mgt := { s.mgt with emuWrites := [], emuReads := [] } }

/-- The row of R585 a region belongs to. -/
def sramRow (r : SramRegion) : Nat :=
  match r with
  | .queues => 0
  | .presence _ _ => 1
  | .alarms _ => 2
  | .logFifo => 2
  | .traceFifo => 2
  | .sideband => 3
  | .emulation => 3
  | .mailbox => 3

/-- HUB_SRAM_ERROR: event 0x0F.0x08 with its alarm, and the outcome of the region (R585). -/
def execHubSramError (what : SramRegion) (s : State) : Out :=
  .next <| if s.stage = 0 then s else sramLoss what (bootEvent 8 (sramRow what) 3 s)

end Sys2Proof.Machine
end

