-- ==== Sys2Proof/Machine/RegWrite.lean ====
section
/-! DEFINITION. Register writes by offset: those hub hardware takes at once, and those that wait for Betony's core B0
(18_betony_management_security.md R533; 20_register_reference.md R591, R594). -/
namespace Sys2Proof.Machine

/-! ### ZG_TOP_RSEL (R397) -/

/-- The snapshot of the region that ZG_TOP_RSEL selects: its epoch, whether it is STABLE, its packages with an LSA at that
epoch. -/
def snapRegion (new : Nat) (s : State) : State :=
  let r := bitsOf new 7 0
  let x := s.region r
  let seen := (s.wfn.lsas.filter (fun p => p.2 != [] && byteAt p.2 10 == r && getLE p.2 12 4 == x.epoch)).length
  s.setRegN ZG_TOP_REGION (x.epoch % 4294967296 * 2 ^ 32 + b2n x.stable * 2 ^ 31 + min seen 2047 * 2 ^ 20)

/-- TOP_REGION_SELECT: a write of ZG_TOP_RSEL takes a snapshot. -/
def execTopRegionSelect (f : Func) (value : Word32) (s : State) : Out :=
  .next <| guardedWrite f ZG_TOP_RSEL 4 value.toNat s fun _ new s => snapRegion new s

/-! ### What a write of a register does beside its fields -/

/-- The effect of a write of a register of die `d`, at offset `slot` of the region of CD0. -/
def dieWriteEffect (d slot old new : Nat) (s : State) : State :=
  let k := slot % 0x1000 / 8 % 8
  if ZG_CLU_OWN 0 0 ≤ slot ∧ slot ≤ ZG_CLU_OWN 0 7 then aimOwners d k old new s
  else if slot = ZG_CLU_CARVE 0 then s.setRfld (ZG_CLU_CARVE d) 8 8 1
  else if ZG_SYN_OWN 0 0 ≤ slot ∧ slot ≤ ZG_SYN_OWN 0 7 then writeSynOwners d k old new s
  else if slot = ZG_SYN_SEL 0 then snapObject d (bitsOf new 11 0) s
  else if slot = ZG_COL_SEL 0 then snapGroup d (bitsOf new 11 0) s
  else if slot = ZG_INT_ST 0 then testStart d old new s
  else if slot = ZG_D2D_CTRL 0 then judgeLink (prevDie d) (3 * d + 1) (judgeLink d (3 * d) s)
  else if slot = ZG_PWD_VTSEL 0 then refreshTable d s
  else if ZG_PMC_SEL 0 0 ≤ slot ∧ slot ≤ ZG_PMC_SEL 0 7 then pmcPending d k s
  else s

/-- The effect of a write of function `f` to the register of a slot, given the value before and the value written, on the
state with the register written. -/
def writeEffect (f slot old new : Nat) (s : State) : State :=
  if 0x100000 ≤ slot ∧ slot < 0x200000 then dieWriteEffect ((slot - 0x100000) / 0x40000) (normOff slot) old new s
  else if slot = ZG_ADM_CFG then admCfgEffect f old new s
  else if slot = ZG_HQ_SEL then hqSnapshot f new s
  else if slot = ZG_MBX_DOORBELL then ringMailbox new s
  else if slot = ZG_MGT_CREAD then creadClear old new s
  else if slot = ZG_MGT_ALERT then refreshAlert s
  else if slot = ZG_BOOT_CTRL then bootCtrlEffect new s
  else if slot = ZG_PWR_ESEL then snapEnergy new s
  else if slot = ZG_TOP_RSEL then snapRegion new s
  else if ZG_CGO_OWN 0 ≤ slot ∧ slot ≤ ZG_CGO_OWN 7 then writeCgoOwners ((slot - ZG_CGO_OWN 0) / 8) old new s
  else s

/-- A write of function `f` at an offset is checked and takes effect (R594). -/
def applyWrite (f off size value : Nat) (s : State) : State :=
  guardedWrite f off size value s (writeEffect f (off / 8 * 8))

/-- Whether a write is a GO that would be accepted: that is the command BOOT_GO. -/
def isGo (f off size value : Nat) (s : State) : Bool :=
  off == ZG_BOOT_GO && bitOf value 0 && writeKind f off size value s == 0

/-- A write to an emulated register waits for B0; it is dropped while B0 will not answer or the queue of 64 is full (R533,
R535, R575). -/
def queueWrite (f off size value : Nat) (s : State) : State :=
  if s.betony = 3 ∨ s.betony = 0 ∨ s.ready = false ∨ 64 ≤ s.mgt.emuWrites.length then
    bump ZG_MGT_WR_DROPPED 1 (s.setRegF f ZG_MGT_EMU (setFld (s.regF f ZG_MGT_EMU) 1 1 1))
  else { s with mgt := { s.mgt with emuWrites := s.mgt.emuWrites ++ [⟨f, off, size, value⟩] } }

/-- REGISTER_WRITE: a write of any register of BAR0. A register of hub hardware takes it at once, as does the hub a write that
no register occupies; any other waits for B0. The access ends the function's read shadow. A write of BAR2 is a doorbell (R533, R537,
R591, R594, R600). -/
def execRegisterWrite (f : Func) (off : BarOffset) (size : Fin 9) (value : Word64) (s : State) : Out :=
  .next <|
    if s.hasFn f = false then s
    else if off.bar2 then bar2Write f off.off.toNat size value.toNat s
    else if isGo f off.off.toNat size value.toNat s then s
    else
      let s := setShadow f (0, 0) s
      if isHw off.off.toNat || writeKind f off.off.toNat size value.toNat s == 2 then applyWrite f off.off.toNat size value.toNat s
      else queueWrite f off.off.toNat size value.toNat s

/-- EMULATED_WRITE_APPLY: B0 takes the oldest queued write, which is checked against the state at this moment, and then answers
the reads that waited for it (R533, R591, R594). -/
def execEmulatedWriteApply (s : State) : Out :=
  .next <|
    match s.mgt.emuWrites with
    | [] => s
    | w :: ws =>
      if s.betony ≠ 1 ∨ s.ready = false then s
      else
        let s := { s with mgt := { s.mgt with
          emuWrites := ws,
          emuReads := s.mgt.emuReads.map (fun r => if r.fn = w.fn then { r with behind := r.behind - 1 } else r) } }
        answerHeld (applyWrite w.fn w.off w.size w.value s)

end Sys2Proof.Machine
end

