-- ==== Sys2Proof/Machine/Sideband.lean ====
section
/-! DEFINITION. The I3C sideband (18_betony_management_security.md R561 to R564). -/
namespace Sys2Proof.Machine

/-- The response that the next private read returns: result, LEN, data (R563). -/
def sbReply (result : Nat) (data : List Byte) (s : State) : State :=
  { s with mgt := { s.mgt with sbAnswer := natLE 1 result ++ natLE 2 data.length ++ data } }

/-- A sideband command that B5 serves: result 1 while Betony restarts or has not started, 2 while it is HALTED (R563). -/
def sbServed (s : State) (g : State) : State :=
  if s.betony = 1 then g else sbReply (if s.betony = 3 then 2 else 1) [] s

/-- Whether the sideband is there: the rails are applied, and RESET_N has been released, as it is from step 2 of bring-up on (R619). -/
def State.sbUp (s : State) : Bool := s.pins.rails == 2 && s.pins.resetN

/-- A command of the sideband acts where the sideband is there, and is unheard otherwise (R619). -/
def sbHeard (s : State) (g : State) : State := if s.sbUp then g else s

/-- Value of the address straps on ADDR1 and ADDR0 added to 0x58 (R561). -/
def State.sbStatic (s : State) : Nat := 0x58 + s.pins.straps % 4

/-- I3C_CCC: the target answers a supported common command code (R561); the codes' meanings and formats are those of the I3C
Basic specification, which the spec names and does not give. -/
def execI3cCcc (ccc : Ccc) (s : State) : Out :=
  .next <| sbHeard s <|
    let m := s.mgt
    let answer := fun (bs : List Byte) => { s with mgt := { m with sbAnswer := bs } }
    match ccc with
    | .entdaa a => if m.sbDynAddr.isNone then { s with mgt := { m with sbDynAddr := some a.toNat } } else s
    | .setdasa st a =>
      if m.sbDynAddr.isNone && st.toNat == s.sbStatic then { s with mgt := { m with sbDynAddr := some a.toNat } } else s
    | .rstdaa => { s with mgt := { m with sbDynAddr := none } }
    | .enec events => if bitOf events.toNat 0 then { s with mgt := { m with sbIbiEn := true } } else s
    | .disec events => if bitOf events.toNat 0 then { s with mgt := { m with sbIbiEn := false } } else s
    | .getpid => answer (natLE 6 (s.reg ZG_ID_SERIAL).toNat).reverse
    | .getbcr => answer [BitVec.ofNat 8 Config.i3cBcr]
    | .getdcr => answer [BitVec.ofNat 8 Config.i3cDcr]
    | .getstatus =>
      let (v, s) := s.draw
      { s with mgt := { s.mgt with sbAnswer := natLE 2 v } }
    | .getmwl => answer (natLE 2 m.sbMaxWrite).reverse
    | .getmrl => answer ((natLE 2 m.sbMaxRead).reverse ++ [1])
    | .rstact b => { s with mgt := { m with sbRstAct := b.toNat } }

/-- Hottest valid reading × 4 of every die (R564). -/
def State.hottestQ2 (s : State) : Nat :=
  ((List.range 5).map (fun d => ((hottest (s.sensors d)).map Prod.fst).getD 0)).foldl max 0

/-- The 32 bytes of STATUS (R564). -/
def sbStatusBytes (s : State) : List Byte :=
  let c := s.here
  let at_ := fun (x : Nat) => natLE 1 (if s.planned then x else 255)
  natLE 1 (s.betony + b2n s.testMode * 8 + s.rfld ZG_PWR_TRIP 63 63 * 16 + b2n (s.power.coolState == 2) * 32)
    ++ natLE 1 (b2n (!s.pins.alertN)) ++ natLE 2 (s.rfld ZG_MGT_ALARMS 47 32) ++ natLE 2 (s.rfld ZG_MGT_ALARMS 31 16)
    ++ natLE 2 (s.rfld ZG_MGT_ALARMS 15 0) ++ natLE 2 s.hottestQ2 ++ natLE 2 (s.power.p10 / 1000)
    ++ at_ c.1 ++ at_ c.2.1 ++ at_ c.2.2 ++ [0] ++ natLE 8 (s.reg ZG_ID_SERIAL).toNat
    ++ natLE 8 (s.reg ZG_MGT_AUDIT_HEAD).toNat

/-- SB_STATUS, answered by hub hardware; it answers an in-band interrupt (R562, R564). -/
def execSbStatus (s : State) : Out :=
  .next <| sbHeard s <| sbReply 0 (sbStatusBytes s) { s with mgt := { s.mgt with ibiWaiting := false } }

/-- SB_ALARMS: up to 3 non-empty alarm records from a slot, answered by hub hardware (R563). -/
def execSbAlarms (slot : BitVec 16) (s : State) : Out :=
  .next <| sbHeard s <|
    let xs := (s.mgt.alarms.filter (fun p => decide (slot.toNat ≤ p.1) && p.2.everUsed)).take 3
    sbReply 0 (xs.map (fun p => alarmBytes p.1 p.2)).flatten s

/-- SB_CMD_LOAD: bytes go to the sideband command buffer of 4,096 bytes (R563). -/
def execSbCmdLoad (off : BitVec 16) (data : List Byte) (s : State) : Out :=
  .next <| sbHeard s <|
    if 251 < data.length ∨ 4096 < off.toNat + data.length then sbReply 2 [] s
    else sbReply 0 [] { s with mgt := { s.mgt with sbBuf := csetList 0 s.mgt.sbBuf off.toNat data } }

/-- SB_CMD_EXEC: the role command in the buffer takes the next sideband sequence and enters the journal; another that runs
answers busy. B5 serves it, except PARTITION_CONTROL of the operator, which hub hardware runs even while a command that Betony had
accepted stands in the journal of a HALTED complex (R535, R563; log entry 74). -/
def execSbCmdExec (len : BitVec 16) (s : State) : Out :=
  .next <| sbHeard s <|
    let cmd := cgetList 0 s.mgt.sbBuf 0 len.toNat
    let hub := rcRole cmd == 1 && rcMcmd cmd == 4
    let go :=
      if 4096 < len.toNat then sbReply 2 [] s
      else if s.host.mbx.phase ≠ 0 ∧ (s.betony ≠ 3 ∨ s.roleMayRun = true) then sbReply 1 [] s
      else
        let n := (s.mgt.sbSeq + 1) % 4294967296
        let held := if s.host.mbx.phase = 0 then s.host.mbxHeld else s.host.mbx
        sbReply 0 [] { s with host := { s.host with mbx := { phase := 1, cmd := cmd, sb := true, seq := n }, mbxHeld := held },
                              mgt := { s.mgt with sbSeq := n } }
    if hub then go else sbServed s go

/-- SB_CMD_RESULT: the last sideband sequence, its status and its response from an offset; busy while it runs (R563). -/
def execSbCmdResult (off : BitVec 16) (s : State) : Out :=
  .next <| sbHeard s <| sbServed s <|
    if s.host.mbx.phase ≠ 0 ∧ s.host.mbx.sb = true then sbReply 1 [] s
    else sbReply 0 (natLE 4 s.mgt.sbSeq ++ natLE 2 s.mgt.sbStatus ++ (s.mgt.sbResp.drop off.toNat).take 246) s

/-- SB_AUDIT_READ: one audit record; an error where none can be read (R563). -/
def execSbAuditRead (aseq : Word64) (s : State) : Out :=
  .next <| sbHeard s <| sbServed s <|
    match auditRecord aseq.toNat s with
    | (some r, s) => sbReply 0 r s
    | (none, s) => sbReply 2 [] s

/-- SB_PLAN_READ: the plan record in force, if any, then ZG_TOP_PLAN (R563). -/
def execSbPlanRead (s : State) : Out :=
  .next <| sbHeard s <| sbServed s <| sbReply 0 (s.wfn.plan ++ natLE 8 (s.reg ZG_TOP_PLAN).toNat) s

end Sys2Proof.Machine
end

