-- ==== Sys2Proof/Machine/Vector.lean ====
section
/-! DEFINITION. The instructions of the vector engine and the vector-program command (06_cluster_sram_vector.md R142 to
R152; 03_number_formats.md R60 to R64; 14_training_support.md R402). A command names the cluster that issues; its
operands are the fields of the instructions whose encoding the spec does not give. -/
namespace Sys2Proof.Machine

/-! ### Control (R143, R144) -/

/-- END: ends the program in the cluster (R152). -/
def execEndProg (die : Die) (cl : Cluster) (s : State) : Out := .next <| vissue die cl 1 s fun _ _ _ => .stop

/-- Whether an instruction index lies in the body of the LOOP at index `i` (R144). -/
def inBody (ibuf : List Nat) (i t : Nat) : Bool :=
  let w := ibuf.getD i 0
  w / 2 ^ 56 == 4 && decide (i < t) && decide (t ≤ i + w % 2048)

/-- Whether a branch would enter or leave a LOOP body, or leave the code (R144). DESIGN CHOICE (log entry 60): a target equal to
the code's length ends the program, one beyond it is illegal. -/
def branchBad (x : ClusterSt) (pc t : Nat) : Bool :=
  decide (x.ibuf.length < t) || (List.range x.ibuf.length).any (fun i => inBody x.ibuf i pc != inBody x.ibuf i t)

/-- BR: the instruction with index `target` follows (R143). -/
def execBr (die : Die) (cl : Cluster) (target : BitVec 12) (s : State) : Out :=
  .next <| vissue die cl 2 s fun p _ x => if branchBad x p.pc target.toNat then .illegal else .go s (some target.toNat)

/-- BNZ: as BR if the named scalar register is not zero (R143). -/
def execBnz (die : Die) (cl : Cluster) (xs : Fin 32) (target : BitVec 12) (s : State) : Out :=
  .next <| vissue die cl 3 s fun p _ x =>
    if branchBad x p.pc target.toNat then .illegal
    else .go s (if x.xreg xs = 0 then none else some target.toNat)

/-- LOOP: runs the next BODY instructions X[XC] times (R144). -/
def execLoop (die : Die) (cl : Cluster) (s : State) : Out :=
  .next <| vissue die cl 4 s fun p w x =>
    let body := bitsOf w 10 0
    let last := p.pc + 1 + body
    let n := x.xreg (bitsOf w 55 51)
    if bitsOf w 50 11 ≠ 0 ∨ body = 0 ∨ 4 ≤ p.loops.length ∨ (p.loops.any (fun l => decide (l.last < last))) = true then .illegal
    else if n = 0 then .go s (some last)
    else .go (s.setClus die cl { x with prog := some { p with loops := ⟨p.pc + 1, last, n⟩ :: p.loops } }) none

/-! ### Scalar (R143) -/

/-- XADDI. -/
def execXaddi (die : Die) (cl : Cluster) (xd xa : Fin 32) (imm : Word64) (s : State) : Out :=
  .next <| vissue die cl 0x10 s fun _ _ x => vgo die cl s (x.setXreg xd (x.xreg xa + imm.toNat))

/-- XADD. -/
def execXadd (die : Die) (cl : Cluster) (xd xa xb : Fin 32) (s : State) : Out :=
  .next <| vissue die cl 0x11 s fun _ _ x => vgo die cl s (x.setXreg xd (x.xreg xa + x.xreg xb))

/-- XSUB. -/
def execXsub (die : Die) (cl : Cluster) (xd xa xb : Fin 32) (s : State) : Out :=
  .next <| vissue die cl 0x12 s fun _ _ x => vgo die cl s (x.setXreg xd (x.xreg xa + two64 - x.xreg xb))

/-- XMUL. -/
def execXmul (die : Die) (cl : Cluster) (xd xa xb : Fin 32) (s : State) : Out :=
  .next <| vissue die cl 0x13 s fun _ _ x => vgo die cl s (x.setXreg xd (x.xreg xa * x.xreg xb))

/-- XSHL: a count of 64 or more has no result the spec states, a free value of the operands (log entry 12). -/
def execXshl (die : Die) (cl : Cluster) (xd xa xb : Fin 32) (s : State) : Out :=
  .next <| vissue die cl 0x14 s fun _ _ x =>
    let n := x.xreg xb
    vgo die cl s (x.setXreg xd (if n < 64 then x.xreg xa * 2 ^ n else Config.shiftResult true (x.xreg xa) n))

/-- XSHR: a count of 64 or more, or a source with bit [63] set, has no result the spec states, a free value of the operands
(log entry 12). -/
def execXshr (die : Die) (cl : Cluster) (xd xa xb : Fin 32) (s : State) : Out :=
  .next <| vissue die cl 0x15 s fun _ _ x =>
    let n := x.xreg xb
    vgo die cl s (x.setXreg xd (if n = 0 ∨ n < 64 ∧ x.xreg xa < 2 ^ 63 then x.xreg xa / 2 ^ n
      else Config.shiftResult false (x.xreg xa) n))

/-- XLI: a 48-bit signed immediate. -/
def execXli (die : Die) (cl : Cluster) (xd : Fin 32) (imm : BitVec 48) (s : State) : Out :=
  .next <| vissue die cl 0x18 s fun _ _ x => vgo die cl s (x.setXreg xd (imm.signExtend 64).toNat)

/-! ### Binary32 arithmetic (R145) -/

/-- FADD. -/
def execFadd (die : Die) (cl : Cluster) (s : State) : Out :=
  .next <| vissue die cl 0x20 s fun _ w x => vlanes die cl 2 false false s w x fun _ a b _ => fadd (s.reduced die) a b

/-- FMUL. -/
def execFmul (die : Die) (cl : Cluster) (s : State) : Out :=
  .next <| vissue die cl 0x21 s fun _ w x => vlanes die cl 2 true false s w x fun f a b _ => fmul (s.reduced die) f.negP a b

/-- FMA. -/
def execFma (die : Die) (cl : Cluster) (s : State) : Out :=
  .next <| vissue die cl 0x22 s fun _ w x =>
    vlanes die cl 3 true true s w x fun f a b e => fma (s.reduced die) f.negP f.negC a b e

/-- FMIN. -/
def execFmin (die : Die) (cl : Cluster) (s : State) : Out :=
  .next <| vissue die cl 0x23 s fun _ w x =>
    vlanes die cl 2 false false s w x fun _ a b _ => fminmax (s.reduced die) false a b

/-- FMAX. -/
def execFmax (die : Die) (cl : Cluster) (s : State) : Out :=
  .next <| vissue die cl 0x24 s fun _ w x =>
    vlanes die cl 2 false false s w x fun _ a b _ => fminmax (s.reduced die) true a b

/-- FABS. -/
def execFabs (die : Die) (cl : Cluster) (s : State) : Out :=
  .next <| vissue die cl 0x25 s fun _ w x => vlanes die cl 1 false false s w x fun _ a _ _ => fsign (s.reduced die) false a

/-- FNEG. -/
def execFneg (die : Die) (cl : Cluster) (s : State) : Out :=
  .next <| vissue die cl 0x26 s fun _ w x => vlanes die cl 1 false false s w x fun _ a _ _ => fsign (s.reduced die) true a

/-- FCMP. -/
def execFcmp (die : Die) (cl : Cluster) (s : State) : Out :=
  .next <| vissue die cl 0x27 s fun _ w x => vcompare die cl 3 s w x fun p a b => fcmp (s.reduced die) p a b

/-! ### INT32 and logic (R147) -/

/-- IADD. -/
def execIadd (die : Die) (cl : Cluster) (s : State) : Out :=
  .next <| vissue die cl 0x30 s fun _ w x => vlanes die cl 2 false false s w x fun _ a b _ => (intOp 0x30 a b, {})

/-- ISUB. -/
def execIsub (die : Die) (cl : Cluster) (s : State) : Out :=
  .next <| vissue die cl 0x31 s fun _ w x => vlanes die cl 2 false false s w x fun _ a b _ => (intOp 0x31 a b, {})

/-- IMUL. -/
def execImul (die : Die) (cl : Cluster) (s : State) : Out :=
  .next <| vissue die cl 0x32 s fun _ w x => vlanes die cl 2 false false s w x fun _ a b _ => (intOp 0x32 a b, {})

/-- ISHL. -/
def execIshl (die : Die) (cl : Cluster) (s : State) : Out :=
  .next <| vissue die cl 0x33 s fun _ w x => vlanes die cl 2 false false s w x fun _ a b _ => (intOp 0x33 a b, {})

/-- ISHR. -/
def execIshr (die : Die) (cl : Cluster) (s : State) : Out :=
  .next <| vissue die cl 0x34 s fun _ w x => vlanes die cl 2 false false s w x fun _ a b _ => (intOp 0x34 a b, {})

/-- IAND. -/
def execIand (die : Die) (cl : Cluster) (s : State) : Out :=
  .next <| vissue die cl 0x35 s fun _ w x => vlanes die cl 2 false false s w x fun _ a b _ => (intOp 0x35 a b, {})

/-- IOR. -/
def execIor (die : Die) (cl : Cluster) (s : State) : Out :=
  .next <| vissue die cl 0x36 s fun _ w x => vlanes die cl 2 false false s w x fun _ a b _ => (intOp 0x36 a b, {})

/-- IXOR. -/
def execIxor (die : Die) (cl : Cluster) (s : State) : Out :=
  .next <| vissue die cl 0x37 s fun _ w x => vlanes die cl 2 false false s w x fun _ a b _ => (intOp 0x37 a b, {})

/-- IMIN. -/
def execImin (die : Die) (cl : Cluster) (s : State) : Out :=
  .next <| vissue die cl 0x38 s fun _ w x => vlanes die cl 2 false false s w x fun _ a b _ => (intOp 0x38 a b, {})

/-- IMAX. -/
def execImax (die : Die) (cl : Cluster) (s : State) : Out :=
  .next <| vissue die cl 0x39 s fun _ w x => vlanes die cl 2 false false s w x fun _ a b _ => (intOp 0x39 a b, {})

/-- ICMP. -/
def execIcmp (die : Die) (cl : Cluster) (s : State) : Out :=
  .next <| vissue die cl 0x3A s fun _ w x => vcompare die cl 2 s w x fun p a b => (icmp p a b, {})

/-! ### Converts (R60 to R64) -/

/-- CVT (R60). -/
def execCvt (die : Die) (cl : Cluster) (s : State) : Out :=
  .next <| vissue die cl 0x40 s fun _ w x =>
    let sf := bitsOf w 43 39
    let df := bitsOf w 38 34
    let sw := fmtWidth sf
    let dw := fmtWidth df
    if bitsOf w 20 0 ≠ 0 ∨ sw = 0 ∨ dw = 0 ∨ isMx sf = true ∨ isMx df = true ∨ df = 8 ∨ cvtBad w sw dw = true then .illegal
    else
      let src := partElems (x.vreg (bitsOf w 49 44)) sw (bitsOf w 29 27)
      let rs := (List.range 256).map (fun l =>
        cvtLane (s.reduced die) sf df (bitsOf w 33 31) (bitOf w 30) (cvtRandom x w l) (src.getD l 0))
      let vd := bitsOf w 55 50
      let x := x.setVreg vd (setPart (x.vreg vd) dw (bitsOf w 26 24) (rs.map Prod.fst))
      vgo die cl s (cvtAdvance w (x.raise (rs.foldl (fun a r => a.or r.2) {})))

/-- Set the eight scale bytes of SCSLOT in a register (R62). -/
def setScales (v : List Nat) (slot : Nat) (us : List Nat) : List Nat :=
  bytesLanes (putAt (laneBytes v) (slot * 8) (us.map (BitVec.ofNat 8)))

/-- CVT.MX (R62). DESIGN CHOICE (log entry 59): where VSC is VD and the scale bytes overlap the destination part, the scales are
written over the elements. -/
def execCvtMx (die : Die) (cl : Cluster) (s : State) : Out :=
  .next <| vissue die cl 0x41 s fun _ w x =>
    let sf := bitsOf w 43 39
    let df := bitsOf w 38 34
    let sw := fmtWidth sf
    let dw := fmtWidth df
    if bitsOf w 7 0 ≠ 0 ∨ bitOf w 30 = true ∨ 2 < sf ∨ isMx df = false ∨ cvtBad w sw dw = true then .illegal
    else
      let src := partElems (x.vreg (bitsOf w 49 44)) sw (bitsOf w 29 27)
      let ns := src.map (decodeElem (s.reduced die) sf)
      let bs := (List.range 8).map (fun j =>
        mxBlock df (bitsOf w 33 31) ((ns.drop (32 * j)).take 32) ((List.range 32).map (fun l => cvtRandom x w (32 * j + l))))
      let fl := bs.foldl (fun (a : FpFlags) b => a.or b.2.2) (if sf = 0 then snanFlag src else {})
      let vd := bitsOf w 55 50
      let vs := bitsOf w 20 15
      let x := x.setVreg vd (setPart (x.vreg vd) dw (bitsOf w 26 24) (bs.map (fun b => b.2.1)).flatten)
      let x := x.setVreg vs (setScales (x.vreg vs) (bitsOf w 14 8) (bs.map Prod.fst))
      vgo die cl s (cvtAdvance w (x.raise fl))

/-- CVT.UNMX (R64). -/
def execCvtUnmx (die : Die) (cl : Cluster) (s : State) : Out :=
  .next <| vissue die cl 0x42 s fun _ w x =>
    let sf := bitsOf w 43 39
    let df := bitsOf w 38 34
    let sw := fmtWidth sf
    let dw := fmtWidth df
    if bitsOf w 7 0 ≠ 0 ∨ 2 < df ∨ isMx sf = false ∨ cvtBad w sw dw = true then .illegal
    else
      let src := partElems (x.vreg (bitsOf w 49 44)) sw (bitsOf w 29 27)
      let sc := laneBytes (x.vreg (bitsOf w 20 15))
      let rs := (List.range 256).map (fun l =>
        let u := byteAt sc (bitsOf w 14 8 * 8 + l / 32)
        let (v, f) := convert (s.reduced die) df (bitsOf w 33 31) (bitOf w 30) (cvtRandom x w l) (decodeMx sf u (src.getD l 0))
        (v, f.or { invalid := u == 255 }))
      let vd := bitsOf w 55 50
      let x := x.setVreg vd (setPart (x.vreg vd) dw (bitsOf w 26 24) (rs.map Prod.fst))
      vgo die cl s (cvtAdvance w (x.raise (rs.foldl (fun a r => a.or r.2) {})))

/-- A context record is malformed: a wrong CHECK or a reserved bit set (R402). -/
def ctxRecordBad (r : List Byte) : Bool :=
  getLE r 62 2 != check16 (r.take 62) || !zeroAt r 40 22 || decide (64 ≤ byteAt r 14) || decide (8 ≤ byteAt r 15)

/-- SRLD: loads a stochastic-rounding context (R402). -/
def execSrld (die : Die) (cl : Cluster) (s : State) : Out :=
  .next <| vissue die cl 0x48 s fun p w x =>
    let a := vaddr x w
    let (base, size) := s.sramWindow p.queue p.seq die
    if bitsOf w 52 50 ≠ 0 ∨ bitsOf w 26 0 ≠ 0 ∨ a % 64 ≠ 0 then .illegal
    else if size < a + 64 then .access
    else match sramRead die cl (base + a) 64 3 (s.queuePart p.queue) s with
      | (none, s) => .ue s
      | (some r, s) =>
        if ctxRecordBad r then .illegal
        else
          let c : SrCtx := { seed := getLE r 0 4, job := getLE r 4 4, mbatch := getLE r 8 4, layer := getLE r 12 2,
                             site := byteAt r 14, purpose := byteAt r 15,
                             ibase := (getLE r 16 8 + p.cls.idxOf cl.val * getLE r 24 8) % two64 }
          .go (s.updClus die cl fun x => { x with ctxs := cset {} x.ctxs (bitsOf w 55 53) c }) none

/-! ### Memory (R144) -/

/-- VLD: loads LEN × 64 bytes. -/
def execVld (die : Die) (cl : Cluster) (s : State) : Out :=
  .next <| vissue die cl 0x50 s fun p w x =>
    let a := vaddr x w
    let n := bitsOf w 26 22 * 64
    let (base, size) := s.sramWindow p.queue p.seq die
    if vmemBad w = true ∨ a % 64 ≠ 0 then .illegal
    else if size < a + n then .access
    else match sramRead die cl (base + a) n 3 (s.queuePart p.queue) s with
      | (none, s) => .ue s
      | (some bs, s) =>
        let vd := bitsOf w 55 50
        .go (s.updClus die cl fun x =>
          x.setVreg vd (bytesLanes (putAt (laneBytes (x.vreg vd)) (bitsOf w 21 18 * 64) bs))) none

/-- VST: stores LEN × 64 bytes as whole lines. -/
def execVst (die : Die) (cl : Cluster) (s : State) : Out :=
  .next <| vissue die cl 0x51 s fun p w x =>
    let a := vaddr x w
    let n := bitsOf w 26 22 * 64
    let (base, size) := s.sramWindow p.queue p.seq die
    if vmemBad w = true ∨ a % 64 ≠ 0 then .illegal
    else if size < a + n then .access
    else .go (sramPut die cl (base + a) (((laneBytes (x.vreg (bitsOf w 55 50))).drop (bitsOf w 21 18 * 64)).take n) s) none

/-- VSPLAT: one 32-bit word to every lane (R143). DESIGN CHOICE (log entry 56): the rule does not say where the word comes from;
it is an immediate operand of the instruction. -/
def execVsplat (die : Die) (cl : Cluster) (vd : Fin 64) (word : Word32) (s : State) : Out :=
  .next <| vissue die cl 0x52 s fun _ _ x => vgo die cl s (x.setVreg vd (List.replicate 256 word.toNat))

/-! ### Cross-lane (R143, R148) -/

/-- VRED: reduces the lanes of the mask in a fixed tree into lane 0. -/
def execVred (die : Die) (cl : Cluster) (s : State) : Out :=
  .next <| vissue die cl 0x60 s fun _ w x =>
    let op := bitsOf w 28 26
    if bitsOf w 43 32 ≠ 0 ∨ bitsOf w 25 0 ≠ 0 ∨ 5 < op then .illegal
    else
      let m := x.mask (bitsOf w 31 29)
      let v := (List.range 256).map (fun l => if bitOf m l then (x.vreg (bitsOf w 49 44)).getD l 0 else redNeutral op)
      let (r, fl) := redTree (s.reduced die) op 8 v {}
      let vd := bitsOf w 55 50
      vgo die cl s ((x.setVreg vd ((x.vreg vd).set 0 r)).raise fl)

/-- VROT: rotates the lanes by X, in the direction of Config.rotateUp, which the spec does not state (log entry 12). -/
def execVrot (die : Die) (cl : Cluster) (vd va : Fin 64) (xb : Fin 32) (s : State) : Out :=
  .next <| vissue die cl 0x61 s fun _ _ x =>
    let n := x.xreg xb % 256
    let k := if Config.rotateUp then 256 - n else n
    vgo die cl s (x.setVreg vd ((List.range 256).map (fun l => (x.vreg va).getD ((l + k) % 256) 0)))

/-! ### Special functions (R146) -/

/-- RCP. -/
def execRcp (die : Die) (cl : Cluster) (s : State) : Out :=
  .next <| vissue die cl 0x70 s fun _ w x => vlanes die cl 1 false false s w x fun _ a _ _ => rcp (s.reduced die) a

/-- RSQRT. -/
def execRsqrt (die : Die) (cl : Cluster) (s : State) : Out :=
  .next <| vissue die cl 0x71 s fun _ w x => vlanes die cl 1 false false s w x fun _ a _ _ => rsqrt (s.reduced die) a

/-- EXP2. -/
def execExp2 (die : Die) (cl : Cluster) (s : State) : Out :=
  .next <| vissue die cl 0x72 s fun _ w x => vlanes die cl 1 false false s w x fun _ a _ _ => exp2 (s.reduced die) a

/-- LOG2. -/
def execLog2 (die : Die) (cl : Cluster) (s : State) : Out :=
  .next <| vissue die cl 0x73 s fun _ w x => vlanes die cl 1 false false s w x fun _ a _ _ => log2 (s.reduced die) a

/-- VSTAT: reads the flags, and clears them when CLR = 1 (R149). -/
def execVstat (die : Die) (cl : Cluster) (s : State) : Out :=
  .next <| vissue die cl 0x80 s fun _ w x =>
    if bitsOf w 49 0 ≠ 0 then .illegal
    else
      let y := x.setXreg (bitsOf w 55 51) x.vstat
      vgo die cl s (if bitOf w 50 then { y with vstat := 0 } else y)

/-! ### The vector-program command (R142, R151, R152) -/

/-- Vector-program body. -/
def checkVectorProgram (b : List Byte) (s : State) : Nat :=
  failIf (decide (64 ≤ byteAt b 0) || decide (128 ≤ byteAt b 1) || !zeroAt b 6 2
    || s.clusterRangeBad (byteAt b 0) (byteAt b 1) || getLE b 2 2 == 0 || decide (2048 < getLE b 2 2)
    || decide (getLE b 2 2 ≤ getLE b 4 2) || getLE b 8 8 % 8 != 0) 1

/-- A program starts in one cluster (R142). -/
def startProg (d c : Nat) (p : VProg) (args : List Nat) (code : List Nat) (s : State) : State :=
  s.updClus d c fun x =>
    let x := { x with ibuf := code, masks := [], vstat := 0, ctxs := [], xregs := [], prog := some p }
    let x := x.setXreg 1 (p.cls.idxOf c)
    ((((x.setXreg 2 (args.getD 0 0)).setXreg 3 (args.getD 1 0)).setXreg 4 (args.getD 2 0)).setXreg 5 (args.getD 3 0))

/-- VECTOR_PROGRAM: fetches the code, checks the clusters, loads the code into every named one and starts it; it waits while an
earlier program runs or waits in one of them (R128, R152). -/
def execVectorProgram (q : Qn) (seq : Word64) (s : State) : Out :=
  .next <| withFlight q seq.toNat 0x20 s fun f =>
    let b := dBody f.desc
    let d := (s.queue q).die
    let first := byteAt b 0
    let n := byteAt b 1
    let bad := checkVectorProgram b s
    if f.phase ≠ 0 then s
    else if bad ≠ 0 then endCommand q seq.toNat bad 0 s
    else
      let rq := s.req q f 6
      finishAcc q seq.toNat rq s (vaRead rq (getLE b 8 8) (getLE b 2 2 * 8) s) fun code s1 =>
        match checkClusters q seq.toNat first n s1 with
        | (0, _) =>
          let cs := s.cmdClusters q seq.toNat first n
          if cs.any (fun c => (s.clus d c).prog.isSome || s.namedAhead q seq.toNat f 0x20 c) then s
          else
            let words := (List.range (getLE b 2 2)).map (fun i => getLE code (8 * i) 8)
            let p : VProg := { queue := q, seq := seq.toNat, clFirst := first, cls := cs, flagsVa := getLE b 16 8,
                               maxBeats := getLE b 24 8, pc := getLE b 4 2 }
            let args := (List.range 4).map (fun i => getLE b (32 + 8 * i) 8)
            let s1 := s1.updFlight q seq.toNat (fun f => { f with phase := 1 })
            cs.foldl (fun s c => startProg d c p args words s) s1
        | (st, s1) => endCommand q seq.toNat st 0 s1

/-- A cluster has run MAX_BEATS beats without END: the program stops there with the timeout status (R152). -/
def execVprogMaxBeats (die : Die) (cl : Cluster) (s : State) : Out :=
  .next <|
    match (s.clus die cl).prog with
    | some p =>
      if p.maxBeats ≠ 0 ∧ p.maxBeats ≤ p.beats then
        vectorFault die cl p 3 ((s.clus die cl).ibuf.getD p.pc 0 / 2 ^ 56) s
      else s
    | none => s

end Sys2Proof.Machine
end

