-- ==== Sys2Proof/Machine/Dispatch.lean ====
section
/-! DEFINITION. exec: one arm per command. -/
namespace Sys2Proof.Machine

/-- The effect of a command on everything but the queue of waiting commands. -/
def exec (i : Instr) (s : State) : Host.Outcome State Fault Refusal :=
  match i with
  | .beatWindowPublish die q0 q1 q2 q3 => Sys2Proof.Machine.execBeatWindowPublish die q0 q1 q2 q3 s
  | .replicaCorrection die => Sys2Proof.Machine.execReplicaCorrection die s
  | .refclkLoss => Sys2Proof.Machine.execRefclkLoss s
  | .refclkReturn => Sys2Proof.Machine.execRefclkReturn s
  | .serviceModeChange die => Sys2Proof.Machine.execServiceModeChange die s
  | .endProg die cl => Sys2Proof.Machine.execEndProg die cl s
  | .br die cl target => Sys2Proof.Machine.execBr die cl target s
  | .bnz die cl xs target => Sys2Proof.Machine.execBnz die cl xs target s
  | .loop die cl => Sys2Proof.Machine.execLoop die cl s
  | .xaddi die cl xd xa imm => Sys2Proof.Machine.execXaddi die cl xd xa imm s
  | .xadd die cl xd xa xb => Sys2Proof.Machine.execXadd die cl xd xa xb s
  | .xsub die cl xd xa xb => Sys2Proof.Machine.execXsub die cl xd xa xb s
  | .xmul die cl xd xa xb => Sys2Proof.Machine.execXmul die cl xd xa xb s
  | .xshl die cl xd xa xb => Sys2Proof.Machine.execXshl die cl xd xa xb s
  | .xshr die cl xd xa xb => Sys2Proof.Machine.execXshr die cl xd xa xb s
  | .xli die cl xd imm => Sys2Proof.Machine.execXli die cl xd imm s
  | .fadd die cl => Sys2Proof.Machine.execFadd die cl s
  | .fmul die cl => Sys2Proof.Machine.execFmul die cl s
  | .fma die cl => Sys2Proof.Machine.execFma die cl s
  | .fmin die cl => Sys2Proof.Machine.execFmin die cl s
  | .fmax die cl => Sys2Proof.Machine.execFmax die cl s
  | .fabs die cl => Sys2Proof.Machine.execFabs die cl s
  | .fneg die cl => Sys2Proof.Machine.execFneg die cl s
  | .fcmp die cl => Sys2Proof.Machine.execFcmp die cl s
  | .iadd die cl => Sys2Proof.Machine.execIadd die cl s
  | .isub die cl => Sys2Proof.Machine.execIsub die cl s
  | .imul die cl => Sys2Proof.Machine.execImul die cl s
  | .ishl die cl => Sys2Proof.Machine.execIshl die cl s
  | .ishr die cl => Sys2Proof.Machine.execIshr die cl s
  | .iand die cl => Sys2Proof.Machine.execIand die cl s
  | .ior die cl => Sys2Proof.Machine.execIor die cl s
  | .ixor die cl => Sys2Proof.Machine.execIxor die cl s
  | .imin die cl => Sys2Proof.Machine.execImin die cl s
  | .imax die cl => Sys2Proof.Machine.execImax die cl s
  | .icmp die cl => Sys2Proof.Machine.execIcmp die cl s
  | .cvt die cl => Sys2Proof.Machine.execCvt die cl s
  | .cvtMx die cl => Sys2Proof.Machine.execCvtMx die cl s
  | .cvtUnmx die cl => Sys2Proof.Machine.execCvtUnmx die cl s
  | .srld die cl => Sys2Proof.Machine.execSrld die cl s
  | .vld die cl => Sys2Proof.Machine.execVld die cl s
  | .vst die cl => Sys2Proof.Machine.execVst die cl s
  | .vsplat die cl vd word => Sys2Proof.Machine.execVsplat die cl vd word s
  | .vred die cl => Sys2Proof.Machine.execVred die cl s
  | .vrot die cl vd va xb => Sys2Proof.Machine.execVrot die cl vd va xb s
  | .rcp die cl => Sys2Proof.Machine.execRcp die cl s
  | .rsqrt die cl => Sys2Proof.Machine.execRsqrt die cl s
  | .exp2 die cl => Sys2Proof.Machine.execExp2 die cl s
  | .log2 die cl => Sys2Proof.Machine.execLog2 die cl s
  | .vstat die cl => Sys2Proof.Machine.execVstat die cl s
  | .tilePass q seq => Sys2Proof.Machine.execTilePass q seq s
  | .stationaryLoad die cl a => Sys2Proof.Machine.execStationaryLoad die cl a s
  | .passStart die cl a => Sys2Proof.Machine.execPassStart die cl a s
  | .arrayBeat die cl a => Sys2Proof.Machine.execArrayBeat die cl a s
  | .bankUnload die cl => Sys2Proof.Machine.execBankUnload die cl s
  | .spillWrite die cl => Sys2Proof.Machine.execSpillWrite die cl s
  | .tileComplete q seq => Sys2Proof.Machine.execTileComplete q seq s
  | .residueMismatch die cl a engine source => Sys2Proof.Machine.execResidueMismatch die cl a engine source s
  | .repeatDone die cl a mismatch => Sys2Proof.Machine.execRepeatDone die cl a mismatch s
  | .substitutedRunDone die cl a mismatch => Sys2Proof.Machine.execSubstitutedRunDone die cl a mismatch s
  | .sramCeWriteback die cl line => Sys2Proof.Machine.execSramCeWriteback die cl line s
  | .scrubRead die cl idle => Sys2Proof.Machine.execScrubRead die cl idle s
  | .scrubStarvePriority die cl bank => Sys2Proof.Machine.execScrubStarvePriority die cl bank s
  | .cluOwnerWrite f die k value => Sys2Proof.Machine.execCluOwnerWrite f die k value s
  | .cluOwnerClear die cl => Sys2Proof.Machine.execCluOwnerClear die cl s
  | .carveWrite f die value => Sys2Proof.Machine.execCarveWrite f die value s
  | .carveTakeEffect die => Sys2Proof.Machine.execCarveTakeEffect die s
  | .move q seq => Sys2Proof.Machine.execMove q seq s
  | .moveLoad die cl i0 => Sys2Proof.Machine.execMoveLoad die cl i0 s
  | .moveStore die cl i0 => Sys2Proof.Machine.execMoveStore die cl i0 s
  | .moveCopy die cl i0 => Sys2Proof.Machine.execMoveCopy die cl i0 s
  | .moveZero die cl i0 => Sys2Proof.Machine.execMoveZero die cl i0 s
  | .moveFence die cl drain i0 => Sys2Proof.Machine.execMoveFence die cl drain i0 s
  | .vectorProgram q seq => Sys2Proof.Machine.execVectorProgram q seq s
  | .vprogMaxBeats die cl => Sys2Proof.Machine.execVprogMaxBeats die cl s
  | .sort q seq => Sys2Proof.Machine.execSort q seq s
  | .bucket q seq => Sys2Proof.Machine.execBucket q seq s
  | .gather q seq => Sys2Proof.Machine.execGather q seq s
  | .scatter q seq => Sys2Proof.Machine.execScatter q seq s
  | .scatterAdd q seq => Sys2Proof.Machine.execScatterAdd q seq s
  | .segreduce q seq => Sys2Proof.Machine.execSegreduce q seq s
  | .union q seq => Sys2Proof.Machine.execUnion q seq s
  | .intersect q seq => Sys2Proof.Machine.execIntersect q seq s
  | .diff q seq => Sys2Proof.Machine.execDiff q seq s
  | .tbldef q seq => Sys2Proof.Machine.execTbldef q seq s
  | .tblwrite q seq => Sys2Proof.Machine.execTblwrite q seq s
  | .teaselFlip q seq => Sys2Proof.Machine.execTeaselFlip q seq s
  | .bankedShadowWrite w => Sys2Proof.Machine.execBankedShadowWrite w s
  | .bankedCopyback t => Sys2Proof.Machine.execBankedCopyback t s
  | .hbmAccess q seq unit va what strike line => Sys2Proof.Machine.execHbmAccess q seq unit va what strike line s
  | .hbmCeWriteback m => Sys2Proof.Machine.execHbmCeWriteback m s
  | .hbmRefresh m => Sys2Proof.Machine.execHbmRefresh m s
  | .hbmScrub m strike => Sys2Proof.Machine.execHbmScrub m strike s
  | .stackTempRead m reading => Sys2Proof.Machine.execStackTempRead m reading s
  | .stackStalled m => Sys2Proof.Machine.execStackStalled m s
  | .stackStopAbort m => Sys2Proof.Machine.execStackStopAbort m s
  | .hbmAssign q seq => Sys2Proof.Machine.execHbmAssign q seq s
  | .hbmRelease q seq => Sys2Proof.Machine.execHbmRelease q seq s
  | .hbmMap q seq => Sys2Proof.Machine.execHbmMap q seq s
  | .hbmUnmap q seq => Sys2Proof.Machine.execHbmUnmap q seq s
  | .hbmFlip q seq => Sys2Proof.Machine.execHbmFlip q seq s
  | .d2dFrameSend e what => Sys2Proof.Machine.execD2dFrameSend e what s
  | .d2dFrameReceive e k a => Sys2Proof.Machine.execD2dFrameReceive e k a s
  | .d2dReplayTimeout e k => Sys2Proof.Machine.execD2dReplayTimeout e k s
  | .strandRetrain e k => Sys2Proof.Machine.execStrandRetrain e k s
  | .strandRetrainDone e k ok bad => Sys2Proof.Machine.execStrandRetrainDone e k ok bad s
  | .streamOpen q seq => Sys2Proof.Machine.execStreamOpen q seq s
  | .streamRelease q seq => Sys2Proof.Machine.execStreamRelease q seq s
  | .streamReleaseApply q seq => Sys2Proof.Machine.execStreamReleaseApply q seq s
  | .streamClose q seq => Sys2Proof.Machine.execStreamClose q seq s
  | .streamStall die num cl => Sys2Proof.Machine.execStreamStall die num cl s
  | .streamAbort die num cl => Sys2Proof.Machine.execStreamAbort die num cl s
  | .sqDoorbell f q aligned value => Sys2Proof.Machine.execSqDoorbell f q aligned value s
  | .cqDoorbell f q aligned value => Sys2Proof.Machine.execCqDoorbell f q aligned value s
  | .eventDoorbell f aligned value => Sys2Proof.Machine.execEventDoorbell f aligned value s
  | .adminSqDoorbell f aligned value => Sys2Proof.Machine.execAdminSqDoorbell f aligned value s
  | .adminCqDoorbell f aligned value => Sys2Proof.Machine.execAdminCqDoorbell f aligned value s
  | .descriptorFetch q deferred n fault => Sys2Proof.Machine.execDescriptorFetch q deferred n fault s
  | .seqRefetch q fault => Sys2Proof.Machine.execSeqRefetch q fault s
  | .commandDispatch die => Sys2Proof.Machine.execCommandDispatch die s
  | .intHoldoffExpire f v => Sys2Proof.Machine.execIntHoldoffExpire f v s
  | .cqFullTimeout q => Sys2Proof.Machine.execCqFullTimeout q s
  | .nop q seq => Sys2Proof.Machine.execNop q seq s
  | .copy q seq fault => Sys2Proof.Machine.execCopy q seq fault s
  | .queueCreate q seq => Sys2Proof.Machine.execQueueCreate q seq s
  | .queueDestroy q seq => Sys2Proof.Machine.execQueueDestroy q seq s
  | .queueStop q seq => Sys2Proof.Machine.execQueueStop q seq s
  | .queueStart q seq => Sys2Proof.Machine.execQueueStart q seq s
  | .partitionCreate q seq => Sys2Proof.Machine.execPartitionCreate q seq s
  | .partitionDestroy q seq => Sys2Proof.Machine.execPartitionDestroy q seq s
  | .partitionStop q seq => Sys2Proof.Machine.execPartitionStop q seq s
  | .eventRingSet q seq => Sys2Proof.Machine.execEventRingSet q seq s
  | .mbxDoorbell f value => Sys2Proof.Machine.execMbxDoorbell f value s
  | .mbxCommit done => Sys2Proof.Machine.execMbxCommit done s
  | .flrVf p => Sys2Proof.Machine.execFlrVf p s
  | .flrPf => Sys2Proof.Machine.execFlrPf s
  | .hotReset => Sys2Proof.Machine.execHotReset s
  | .busMasterEnable f on => Sys2Proof.Machine.execBusMasterEnable f on s
  | .adminEnable f value => Sys2Proof.Machine.execAdminEnable f value s
  | .adminDisable f value => Sys2Proof.Machine.execAdminDisable f value s
  | .functionQuiesce f on => Sys2Proof.Machine.execFunctionQuiesce f on s
  | .hqSelect f value => Sys2Proof.Machine.execHqSelect f value s
  | .syncSignal q seq => Sys2Proof.Machine.execSyncSignal q seq s
  | .syncWait q seq => Sys2Proof.Machine.execSyncWait q seq s
  | .syncArriveWait q seq => Sys2Proof.Machine.execSyncArriveWait q seq s
  | .syncConfig q seq => Sys2Proof.Machine.execSyncConfig q seq s
  | .syncSave q seq => Sys2Proof.Machine.execSyncSave q seq s
  | .syncRestore q seq => Sys2Proof.Machine.execSyncRestore q seq s
  | .syncRemote q seq => Sys2Proof.Machine.execSyncRemote q seq s
  | .syncOpSet q obj v failed => Sys2Proof.Machine.execSyncOpSet q obj v failed s
  | .syncOpAdd q obj v failed => Sys2Proof.Machine.execSyncOpAdd q obj v failed s
  | .syncOpSub q obj v failed => Sys2Proof.Machine.execSyncOpSub q obj v failed s
  | .syncOpMax q obj v failed => Sys2Proof.Machine.execSyncOpMax q obj v failed s
  | .syncOpArrive q obj v failed => Sys2Proof.Machine.execSyncOpArrive q obj v failed s
  | .syncOpClearFail q obj v failed => Sys2Proof.Machine.execSyncOpClearFail q obj v failed s
  | .syncWaitTimeout q seq => Sys2Proof.Machine.execSyncWaitTimeout q seq s
  | .synOwnerWrite f die k value => Sys2Proof.Machine.execSynOwnerWrite f die k value s
  | .syncReqReceive p => Sys2Proof.Machine.execSyncReqReceive p s
  | .syncAnsReceive p => Sys2Proof.Machine.execSyncAnsReceive p s
  | .syncRemoteTimeout q seq => Sys2Proof.Machine.execSyncRemoteTimeout q seq s
  | .deadlockReport die p => Sys2Proof.Machine.execDeadlockReport die p s
  | .groupDefine q seq => Sys2Proof.Machine.execGroupDefine q seq s
  | .groupMembers q seq => Sys2Proof.Machine.execGroupMembers q seq s
  | .groupFlip q seq => Sys2Proof.Machine.execGroupFlip q seq s
  | .groupReset q seq => Sys2Proof.Machine.execGroupReset q seq s
  | .cgoOwnerWrite f k value => Sys2Proof.Machine.execCgoOwnerWrite f k value s
  | .reduceScatter q seq => Sys2Proof.Machine.execReduceScatter q seq s
  | .allGather q seq => Sys2Proof.Machine.execAllGather q seq s
  | .quick q seq => Sys2Proof.Machine.execQuick q seq s
  | .collChunkSend die => Sys2Proof.Machine.execCollChunkSend die s
  | .collChunkReceive die p res => Sys2Proof.Machine.execCollChunkReceive die p res s
  | .collCreditReceive die p => Sys2Proof.Machine.execCollCreditReceive die p s
  | .collAckReceive die p => Sys2Proof.Machine.execCollAckReceive die p s
  | .collAbortReceive die p => Sys2Proof.Machine.execCollAbortReceive die p s
  | .collQuickReceive die p => Sys2Proof.Machine.execCollQuickReceive die p s
  | .collResend die g => Sys2Proof.Machine.execCollResend die g s
  | .collStall die g quick => Sys2Proof.Machine.execCollStall die g quick s
  | .collAbortTimeout die g quick => Sys2Proof.Machine.execCollAbortTimeout die g quick s
  | .wefinFlitSend p pool => Sys2Proof.Machine.execWefinFlitSend p pool s
  | .wefinFlitReceive p lane blocks wrong => Sys2Proof.Machine.execWefinFlitReceive p lane blocks wrong s
  | .wefinAckIdle p => Sys2Proof.Machine.execWefinAckIdle p s
  | .wefinReplayTimeout p => Sys2Proof.Machine.execWefinReplayTimeout p s
  | .laneLockLoss p lane => Sys2Proof.Machine.execLaneLockLoss p lane s
  | .portRetrain p => Sys2Proof.Machine.execPortRetrain p s
  | .portRetrainDone p ok => Sys2Proof.Machine.execPortRetrainDone p ok s
  | .portTrained p => Sys2Proof.Machine.execPortTrained p s
  | .helloSend p => Sys2Proof.Machine.execHelloSend p s
  | .helloReceive p => Sys2Proof.Machine.execHelloReceive p s
  | .packetForward p => Sys2Proof.Machine.execPacketForward p s
  | .lsaFlood => Sys2Proof.Machine.execLsaFlood s
  | .lsaReceive p => Sys2Proof.Machine.execLsaReceive p s
  | .regionSettle r => Sys2Proof.Machine.execRegionSettle r s
  | .planForm => Sys2Proof.Machine.execPlanForm s
  | .controlReceive p => Sys2Proof.Machine.execControlReceive p s
  | .ctrlStopPartition tenant => Sys2Proof.Machine.execCtrlStopPartition tenant s
  | .ctrlQuiesce tenant => Sys2Proof.Machine.execCtrlQuiesce tenant s
  | .ctrlResume tenant => Sys2Proof.Machine.execCtrlResume tenant s
  | .controlAnswerReceive p => Sys2Proof.Machine.execControlAnswerReceive p s
  | .wefinControl q seq => Sys2Proof.Machine.execWefinControl q seq s
  | .wefinControlTimeout q seq => Sys2Proof.Machine.execWefinControlTimeout q seq s
  | .portEnable q seq => Sys2Proof.Machine.execPortEnable q seq s
  | .portQuiesce q seq => Sys2Proof.Machine.execPortQuiesce q seq s
  | .portDisable q seq => Sys2Proof.Machine.execPortDisable q seq s
  | .portForceRetrain q seq => Sys2Proof.Machine.execPortForceRetrain q seq s
  | .timeRequest => Sys2Proof.Machine.execTimeRequest s
  | .timeRequestReceive p => Sys2Proof.Machine.execTimeRequestReceive p s
  | .timeResponseReceive p => Sys2Proof.Machine.execTimeResponseReceive p s
  | .alignmentLost => Sys2Proof.Machine.execAlignmentLost s
  | .dropout q seq => Sys2Proof.Machine.execDropout q seq s
  | .actStore q seq => Sys2Proof.Machine.execActStore q seq s
  | .actLoad q seq => Sys2Proof.Machine.execActLoad q seq s
  | .stageSetBind q seq => Sys2Proof.Machine.execStageSetBind q seq s
  | .stageSetClear q seq => Sys2Proof.Machine.execStageSetClear q seq s
  | .stageSched q seq => Sys2Proof.Machine.execStageSched q seq s
  | .stageMark q seq => Sys2Proof.Machine.execStageMark q seq s
  | .deferBegin q seq => Sys2Proof.Machine.execDeferBegin q seq s
  | .deferDrain q seq => Sys2Proof.Machine.execDeferDrain q seq s
  | .deferredDispatch die => Sys2Proof.Machine.execDeferredDispatch die s
  | .fillBegin q seq => Sys2Proof.Machine.execFillBegin q seq s
  | .loanGrant die => Sys2Proof.Machine.execLoanGrant die s
  | .loanEnd q => Sys2Proof.Machine.execLoanEnd q s
  | .srlUpdate q seq res => Sys2Proof.Machine.execSrlUpdate q seq res s
  | .srlRoot q run => Sys2Proof.Machine.execSrlRoot q run s
  | .srlResume die => Sys2Proof.Machine.execSrlResume die s
  | .srlSliceEnd die => Sys2Proof.Machine.execSrlSliceEnd die s
  | .srlWaitEvent q seq => Sys2Proof.Machine.execSrlWaitEvent q seq s
  | .chkScan q seq => Sys2Proof.Machine.execChkScan q seq s
  | .chkCompare q seq => Sys2Proof.Machine.execChkCompare q seq s
  | .twinDigest q seq => Sys2Proof.Machine.execTwinDigest q seq s
  | .provenance q seq => Sys2Proof.Machine.execProvenance q seq s
  | .digestReceive p => Sys2Proof.Machine.execDigestReceive p s
  | .twinTimeout q seq => Sys2Proof.Machine.execTwinTimeout q seq s
  | .twinHoldExpire => Sys2Proof.Machine.execTwinHoldExpire s
  | .selftestStart f die value => Sys2Proof.Machine.execSelftestStart f die value s
  | .selftestDone die fails => Sys2Proof.Machine.execSelftestDone die fails s
  | .injectArm f die value => Sys2Proof.Machine.execInjectArm f die value s
  | .powerSample r0 r1 r2 r3 hub work => Sys2Proof.Machine.execPowerSample r0 r1 r2 r3 hub work s
  | .paceWindow die => Sys2Proof.Machine.execPaceWindow die s
  | .governorLoop die => Sys2Proof.Machine.execGovernorLoop die s
  | .arrayAdmit die => Sys2Proof.Machine.execArrayAdmit die s
  | .arrayRelease die => Sys2Proof.Machine.execArrayRelease die s
  | .ballastUpdate die => Sys2Proof.Machine.execBallastUpdate die s
  | .sensorConvert die readings => Sys2Proof.Machine.execSensorConvert die readings s
  | .thermalTrip die sensor temp => Sys2Proof.Machine.execThermalTrip die sensor temp s
  | .coolantStop => Sys2Proof.Machine.execCoolantStop s
  | .coolantResume => Sys2Proof.Machine.execCoolantResume s
  | .coolantHoldAbort => Sys2Proof.Machine.execCoolantHoldAbort s
  | .energyRead q seq => Sys2Proof.Machine.execEnergyRead q seq s
  | .pwrEsel f value => Sys2Proof.Machine.execPwrEsel f value s
  | .betonyWatchdog core cause => Sys2Proof.Machine.execBetonyWatchdog core cause s
  | .betonyRestartDone => Sys2Proof.Machine.execBetonyRestartDone s
  | .emuRead f what size => Sys2Proof.Machine.execEmuRead f what size s
  | .emuReadTimeout => Sys2Proof.Machine.execEmuReadTimeout s
  | .counterRead f off size => Sys2Proof.Machine.execCounterRead f off size s
  | .creadClear f value => Sys2Proof.Machine.execCreadClear f value s
  | .pmcSelect f die k value => Sys2Proof.Machine.execPmcSelect f die k value s
  | .pmcBoundary die => Sys2Proof.Machine.execPmcBoundary die s
  | .logRecordWrite => Sys2Proof.Machine.execLogRecordWrite s
  | .traceOccurrence tp src arg0 arg1 => Sys2Proof.Machine.execTraceOccurrence tp src arg0 arg1 s
  | .alarmOccurrence cls code src data queue part sev => Sys2Proof.Machine.execAlarmOccurrence cls code src data queue part sev s
  | .alarmNoticeRepeat => Sys2Proof.Machine.execAlarmNoticeRepeat s
  | .getInfo => Sys2Proof.Machine.execGetInfo s
  | .alarmClear => Sys2Proof.Machine.execAlarmClear s
  | .powerSet => Sys2Proof.Machine.execPowerSet s
  | .partitionControl => Sys2Proof.Machine.execPartitionControl s
  | .auditRead => Sys2Proof.Machine.execAuditRead s
  | .planSet => Sys2Proof.Machine.execPlanSet s
  | .limitsSet => Sys2Proof.Machine.execLimitsSet s
  | .keySet => Sys2Proof.Machine.execKeySet s
  | .auditTrim => Sys2Proof.Machine.execAuditTrim s
  | .testMode => Sys2Proof.Machine.execTestMode s
  | .vtOverride => Sys2Proof.Machine.execVtOverride s
  | .healthClear => Sys2Proof.Machine.execHealthClear s
  | .fuseProgram => Sys2Proof.Machine.execFuseProgram s
  | .authLockExpire r => Sys2Proof.Machine.execAuthLockExpire r s
  | .auditRefusalSummary r => Sys2Proof.Machine.execAuditRefusalSummary r s
  | .mgtLogRead q seq => Sys2Proof.Machine.execMgtLogRead q seq s
  | .mgtTraceCfg q seq => Sys2Proof.Machine.execMgtTraceCfg q seq s
  | .mgtTraceRead q seq => Sys2Proof.Machine.execMgtTraceRead q seq s
  | .mgtAlarmRead q seq => Sys2Proof.Machine.execMgtAlarmRead q seq s
  | .mgtAuditRead q seq => Sys2Proof.Machine.execMgtAuditRead q seq s
  | .i3cCcc ccc => Sys2Proof.Machine.execI3cCcc ccc s
  | .sbStatus => Sys2Proof.Machine.execSbStatus s
  | .sbAlarms slot => Sys2Proof.Machine.execSbAlarms slot s
  | .sbCmdLoad off data => Sys2Proof.Machine.execSbCmdLoad off data s
  | .sbCmdExec len => Sys2Proof.Machine.execSbCmdExec len s
  | .sbCmdResult off => Sys2Proof.Machine.execSbCmdResult off s
  | .sbAuditRead aseq => Sys2Proof.Machine.execSbAuditRead aseq s
  | .sbPlanRead => Sys2Proof.Machine.execSbPlanRead s
  | .powerOn => Sys2Proof.Machine.execPowerOn s
  | .coldReset => Sys2Proof.Machine.execColdReset s
  | .bringUp straps hubOk t => Sys2Proof.Machine.execBringUp straps hubOk t s
  | .bootGo f value fault hubOk fails => Sys2Proof.Machine.execBootGo f value fault hubOk fails s
  | .alignWaitExpire => Sys2Proof.Machine.execAlignWaitExpire s
  | .coolantWaitEnd hubOk fails => Sys2Proof.Machine.execCoolantWaitEnd hubOk fails s
  | .warmReset cause t ctxOk fails => Sys2Proof.Machine.execWarmReset cause t ctxOk fails s
  | .dieReset die cause t fails => Sys2Proof.Machine.execDieReset die cause t fails s
  | .hubSramError what => Sys2Proof.Machine.execHubSramError what s
  | .powerFailStop => Sys2Proof.Machine.execPowerFailStop s
  | .registerWrite f off size value => Sys2Proof.Machine.execRegisterWrite f off size value s
  | .synSelect f die value => Sys2Proof.Machine.execSynSelect f die value s
  | .colSelect f die value => Sys2Proof.Machine.execColSelect f die value s
  | .topRegionSelect f value => Sys2Proof.Machine.execTopRegionSelect f value s
  | .powerDown keepStby => Sys2Proof.Machine.execPowerDown keepStby s
  | .hostLinkUp degraded => Sys2Proof.Machine.execHostLinkUp degraded s
  | .coolantOkChange level => Sys2Proof.Machine.execCoolantOkChange level s
  | .emulatedWriteApply => Sys2Proof.Machine.execEmulatedWriteApply s

end Sys2Proof.Machine
end

