-- ==== Sys2Proof/Safety.lean ====
section
/-! DEFINITION. What a safe run is: one whose waiting commands are all commands of this hardware, so that no step stops;
and the terms the statements about single commands use. -/
namespace Sys2Proof.Machine

/-- Every waiting command is well formed. -/
def State.safe (s : State) : Prop := ∀ c ∈ s.pending, c.wf = true

/-- A step that goes on to a safe state. -/
def stepsSafely (s : State) : Prop := ∃ t, step s = .next t ∧ t.safe

/-- The sparse memories, the register file and the tables of functions, queues, partitions, banked tables, clusters, arrays
and drains stand in canonical form: keys rising, no entry equal to what an unlisted key reads as. -/
def State.canonical (s : State) : Bool :=
  cwf (0 : Word64) s.regs && cwf (0 : Byte) s.hbm.bytes && cwf (0 : Byte) s.host.mem && cwf 0 s.hbm.pt
    && cwf {} s.host.fns && cwf {} s.host.queues && cwf {} s.host.parts && cwf {} s.banks && cwf {} s.clu.cl
    && cwf {} s.tile.arrays && cwf [] s.tile.finals && cwf [] s.tile.spills

/-! ### Links -/

/-- The repair map gives no strand more spares in a direction than it has (R224, R232). -/
def State.mapFits (s : State) : Prop :=
  ∀ l < 8, ∀ k < 64, ∀ e ∈ linkEnds l, (({ wires := storedWires l k s } : Strand).repaired e).length ≤ 4

/-! ### Dispatched commands -/

/-- Command `seq` of queue `q`, with opcode `opc`, is under way as `f` in a package that has not tripped, and no earlier command of its
queue still works on its memory. -/
def State.runs (s : State) (q : Qn) (seq : Word64) (opc : Nat) (f : Flight) : Prop :=
  s.power.tripped = false ∧ s.flight q seq.toNat = some f ∧ dOpc f.desc = opc ∧ s.memoryAhead q f = false

/-- The same for an admin command, with Betony running and the queue's function standing for a partition that exists
(R277 to R279). -/
def State.adminRuns (s : State) (q : Qn) (seq : Word64) (opc : Nat) (f : Flight) : Prop :=
  s.runs q seq opc f ∧ s.betony = 1 ∧ adminRefusal q s = 0

/-- Command `seq` of queue `q` ends with a status and a detail and has no other effect. -/
def State.endsWith (s : State) (q : Qn) (seq : Word64) (status detail : Nat) : Out :=
  .next (endCommand q seq.toNat status detail s)

/-! ### The vector engine -/

/-- The engine of cluster `c` of die `d` is to issue instruction word `w` with opcode `opc` of program `p` (R142, R143). -/
def State.issues (s : State) (d c opc : Nat) (p : VProg) (w : Nat) : Prop :=
  (s.clus d c).prog = some p ∧ (p.maxBeats = 0 ∨ p.beats < p.maxBeats) ∧ p.pc < (s.clus d c).ibuf.length
    ∧ (s.clus d c).ibuf.getD p.pc 0 = w ∧ w / 2 ^ 56 = opc

/-- A program after an instruction of `beats` beats: the next instruction, the one a branch names, or the first of a LOOP
body that runs again (R144). -/
def VProg.after (p : VProg) (beats : Nat) (next : Option Nat) : VProg :=
  { p with pc := (loopNext p.loops (next.getD (p.pc + 1))).2, loops := (loopNext p.loops (next.getD (p.pc + 1))).1,
           beats := p.beats + beats }

/-- The state once an instruction of program `p` whose own effect gives `s1` has issued for `beats` beats from state `s`. -/
def State.afterIssue (s : State) (d c : Nat) (p : VProg) (beats : Nat) (next : Option Nat) (s1 : State) : State :=
  vadvance d c beats next (pmcCount d 2 (s.queuePart p.queue) 1 s1)

/-- The same where the instruction changes its own cluster alone, to `x`. -/
def State.ran (s : State) (d c : Nat) (p : VProg) (beats : Nat) (x : ClusterSt) : Out :=
  .next (s.afterIssue d c p beats none (s.setClus d c x))

/-- The three-source form of R145 without a reserved bit, for an instruction with `n` sources that takes NEG_P and NEG_C as
`np` and `nc` say. -/
def formOk (n : Nat) (np nc : Bool) (w : Nat) : Prop :=
  bitsOf w 26 0 = 0 ∧ (n < 3 → (vfields w).vc = 0) ∧ (n < 2 → (vfields w).vb = 0)
    ∧ (np = false → (vfields w).negP = false) ∧ (nc = false → (vfields w).negC = false)

/-- Lane `l` of the operation `g` on the registers an instruction word names. -/
def laneOf (g : Vf → Nat → Nat → Nat → Nat × FpFlags) (x : ClusterSt) (w l : Nat) : Nat × FpFlags :=
  g (vfields w) ((x.vreg (vfields w).va).getD l 0) ((x.vreg (vfields w).vb).getD l 0) ((x.vreg (vfields w).vc).getD l 0)

/-- Some lane of the mask raises a flag. -/
def someLane (g : Vf → Nat → Nat → Nat → Nat × FpFlags) (x : ClusterSt) (w : Nat) (h : FpFlags → Bool) : Bool :=
  (List.range 256).any (fun l => bitOf (x.mask (vfields w).msk) l && h (laneOf g x w l).2)

/-- What a lane instruction of the three-source form does: in the legal form every lane of MK takes the operation's result,
every other lane of VD keeps its value, and the flags of the lanes of MK join VSTAT; another form is an illegal
instruction. -/
def LaneInstr (i : Die → Cluster → Instr) (opc beats n : Nat) (np nc : Bool)
    (g : State → Die → Vf → Nat → Nat → Nat → Nat × FpFlags) : Prop :=
  ∀ (d : Die) (c : Cluster) (s : State) (p : VProg) (w : Nat), s.issues d c opc p w →
    (formOk n np nc w → ∃ (v : List Nat) (fl : FpFlags),
      exec (i d c) s = s.ran d c p beats (((s.clus d c).setVreg (vfields w).vd v).raise fl)
      ∧ v.length = 256
      ∧ (∀ l < 256, v.getD l 0 =
          if bitOf ((s.clus d c).mask (vfields w).msk) l then (laneOf (g s d) (s.clus d c) w l).1
          else ((s.clus d c).vreg (vfields w).vd).getD l 0)
      ∧ fl = ⟨someLane (g s d) (s.clus d c) w (·.invalid), someLane (g s d) (s.clus d c) w (·.overflow),
              someLane (g s d) (s.clus d c) w (·.underflow), someLane (g s d) (s.clus d c) w (·.inexact),
              someLane (g s d) (s.clus d c) w (·.divzero)⟩)
    ∧ (¬ formOk n np nc w → exec (i d c) s = .next (vectorFault d c p 1 opc s))

/-- What a compare does: in the legal form every lane of MK writes its bit of the mask register, every other bit stays, and
the flags of the lanes of MK join VSTAT. -/
def CompareInstr (i : Die → Cluster → Instr) (opc most : Nat)
    (g : State → Die → Nat → Nat → Nat → Bool × FpFlags) : Prop :=
  ∀ (d : Die) (c : Cluster) (s : State) (p : VProg) (w : Nat), s.issues d c opc p w →
    bitsOf w 26 0 = 0 → bitsOf w 55 53 = 0 → (vfields w).vc ≤ most → (vfields w).negP = false → (vfields w).negC = false →
    ∃ (v : Nat) (fl : FpFlags),
      exec (i d c) s = s.ran d c p 1 (((s.clus d c).setMask (bitsOf w 52 50) v).raise fl)
      ∧ v < 2 ^ 256
      ∧ (∀ l < 256, bitOf v l =
          if bitOf ((s.clus d c).mask (vfields w).msk) l then
            (g s d (vfields w).vc (((s.clus d c).vreg (vfields w).va).getD l 0) (((s.clus d c).vreg (vfields w).vb).getD l 0)).1
          else bitOf ((s.clus d c).mask (bitsOf w 52 50)) l)
      ∧ (fl.invalid = true ↔ ∃ l < 256, bitOf ((s.clus d c).mask (vfields w).msk) l = true ∧
          (g s d (vfields w).vc (((s.clus d c).vreg (vfields w).va).getD l 0)
            (((s.clus d c).vreg (vfields w).vb).getD l 0)).2.invalid = true)

/-- Two states agree on everything but cluster `c` of die `d`, the programmable counters of the die and the wrap bits of
counters. -/
def State.sameButCluster (s t : State) (d : Die) (c : Cluster) : Prop :=
  (∀ k, k ≠ d.val * 64 + c.val → cget ({} : ClusterSt) t.clu.cl k = cget {} s.clu.cl k)
  ∧ (∀ a, (∀ k < 8, a ≠ ZG_PMC_CNT d k) → t.reg a = s.reg a)
  ∧ { t with clu := { t.clu with cl := s.clu.cl }, regs := s.regs, mgt := { t.mgt with ctrBits := s.mgt.ctrBits } } = s

/-- The lanes an instruction of the convert group converts, as results and flags, and the register they go to. -/
def convertTo256 (x : ClusterSt) (w dw : Nat) (rs : List (Nat × FpFlags)) : ClusterSt :=
  cvtAdvance w ((x.setVreg (bitsOf w 55 50)
    (setPart (x.vreg (bitsOf w 55 50)) dw (bitsOf w 26 24) (rs.map Prod.fst))).raise (rs.foldl (fun a r => a.or r.2) {}))

/-! ### Register writes -/

/-- A write of function `f` passes the checks of R594 and finds the register `r` (R593, R594). -/
def State.accepts (s : State) (f off size value : Nat) (r : RegDesc) : Prop :=
  s.hasFn f = true ∧ s.answers off = true ∧ writeKind f off size value s = 0 ∧ descOf off = some r

/-- The state after an accepted write: the register's new value under the access types of its fields, then the register's
own effect, given the value before and the value written; zeros written to the high half of a 32-bit register's slot reach no field
(R590, R593 to R595). -/
def State.afterWrite (s : State) (f off size value : Nat) (r : RegDesc) (effect : Nat → Nat → State → State) : State :=
  if off % 8 = 4 ∧ r.wide = false then s
  else
  let old := (cget 0 s.regs (viewKey f off)).toNat
  let new := if off % 8 = 4 then value % 2 ^ 32 * 2 ^ 32 + old % 2 ^ 32
             else if r.wide = true ∧ size = 4 then old / 2 ^ 32 * 2 ^ 32 + value % 2 ^ 32 else value
  effect old new { s with regs := cset 0 s.regs (viewKey f off) (BitVec.ofNat 64 (newValue r old new)) }

/-! ### Moves -/

/-- Entry `i` of the feeder or drain program of the move in cluster `c` of die `d`, an entry `e` with operation `op`, is ready
to start: the move `m` of command `a` runs there as flight `f` (R133, R134, R136). -/
def State.entryAt (s : State) (d c : Nat) (drain : Bool) (i op : Nat) (a : MoveAt) (m : MoveRun) (f : Flight) (e : MoveEntry) :
    Prop :=
  (s.clus d c).mv = some a ∧ s.moveRun a.queue a.seq = some m ∧ s.flight a.queue a.seq = some f
    ∧ (if drain then m.drain else m.feed)[i]? = some e ∧ e.op = op ∧ entryReady m a drain i = true

/-- The state once entry `i` has completed in a cluster with `s1` as its effect: it counts as done, and the move ends there
when both programs have run (R137). -/
def entryDone (m : MoveRun) (d c : Nat) (drain : Bool) (i : Nat) (s1 : State) : State :=
  settleMove m d c (s1.updClus d c fun x => { x with mv := x.mv.map (fun a =>
    if drain then { a with drainDone := a.drainDone ++ [i] } else { a with feedDone := a.feedDone ++ [i] }) })

/-! ### Streams -/

/-- The clusters of a stream body (R236). -/
def streamClusters (b : List Byte) : List Nat := clusterRange (byteAt b 0 % 64) (byteAt b 1)

/-! ### Teasel operations -/

/-- The clusters that a Teasel command names. -/
def State.tslNamed (s : State) (q : Qn) (seq : Word64) (f : Flight) : List Nat :=
  s.cmdClusters q seq.toNat (byteAt (dBody f.desc) 2) (byteAt (dBody f.desc) 3)

/-- A Teasel command with operation `op` is under way as `f`, nothing dispatched earlier stands before it in the lane of a cluster
it names, and its body, the regions the body gives and the clusters it names pass their checks (R128, R158, R160, R169). -/
def State.teaselRuns (s : State) (q : Qn) (seq : Word64) (op : Nat) (f : Flight) : Prop :=
  s.runs q seq 0x30 f ∧ zOp (dBody f.desc) = op ∧ laneAhead q f.order (decide (9 ≤ op)) (s.tslNamed q seq f) s = false
    ∧ tslEarly q seq.toNat (dBody f.desc) s = 0 ∧ (checkClusters q seq.toNat (byteAt (dBody f.desc) 2) (byteAt (dBody f.desc) 3) s).1 = 0

/-- What a Teasel command does then: the operation in each named cluster in turn, and the command's end with the status and
number of the first cluster that fails, or success (R160, R168). -/
def State.teaselEnd (s : State) (q : Qn) (seq : Word64) (f : Flight) (run : TslCtx → Nat → State → TslRes) : Out :=
  let cs := s.tslNamed q seq f
  let r := tslClusters q seq.toNat f (s.queue q).die (byteAt (dBody f.desc) 2) cs run cs s
  .next (endCommand q seq.toNat ((r.1.head?.map Prod.snd).getD 0) ((r.1.head?.map Prod.fst).getD 0) r.2)

/-- The context of an operation in one cluster. -/
def tslContext (q : Qn) (seq : Word64) (f : Flight) (d c : Nat) (s : State) : TslCtx :=
  let b := dBody f.desc
  let slot := s.slot d c (zSlot b)
  { b := b, d := d, c := c, base := (s.sramWindow q seq.toNat d).1, part := s.queuePart q, reduced := s.reduced d,
    map := if zMap b && decide (zOp b ≤ 8) then
        some (if f.bankOf (slotTable d c (zSlot b)) = 0 then slot.off0 else slot.off1, slot.nkeys) else none }

/-! ### Role commands -/

/-- The journal holds an ACCEPTED command `c` with code `m` that may run and passes every check of R551, and the audit log
takes its record, which leaves `s1` (R280, R551, R557). -/
def State.rolePasses (s : State) (m : Nat) (c : List Byte) (s1 : State) : Prop :=
  s.host.mbx.phase = 1 ∧ s.host.mbx.cmd = c ∧ rcMcmd c = m ∧ s.roleMayRun = true ∧ (rcCheck c s).1 = 0
    ∧ roleAudit s.host.mbx s = (true, s1)

/-- The counter of the command's role stored, where it has one (R549, R551). -/
def State.counted (s : State) (c : List Byte) : State :=
  if rcRole c = 0 then s else s.setRegN (ZG_MGT_ROLE (rcRole c - 1)) (rcCounter c)

/-- The end of a role command with its effect `t` and response `resp`: event 0x0E.0x04 and DONE with success, in the mailbox
or over the sideband (R281, R551, R563). -/
def roleEnds (j : Journal) (resp : List Byte) (t : State) : Out :=
  let u := mgtEvent 4 (rcRole j.cmd + rcMcmd j.cmd * 4 + b2n j.sb * 2 ^ 18 + rcCounter j.cmd % 2 ^ 45 * 2 ^ 19) 0 t
  .next (finishRole 0 resp { u with host := { u.host with mbx := { j with phase := 3, status := 0, resp := resp } } })

/-! ### Synchronisation -/

/-- Object `o` of a die in service is owned by the tenant of queue `q` and holds `x` (R285, R294). -/
def State.synReaches (s : State) (q o : Nat) (x : SynObj) : Prop :=
  s.synAccepts (s.queueTenant q) o = true ∧ s.dieDown (o / 4096) = 0 ∧ s.synObj o = x ∧ cwf {} s.syn.objs = true

/-- The outcome in which object `o` becomes `y`, every wait on it that `y` satisfies leaves the list and ends, and no other
object changes (R292, R298). -/
def State.synTurns (s : State) (o : Nat) (y : SynObj) (out : Out) : Prop :=
  ∃ t, out = .next (endAll ((s.syn.waits.filter (fun w => w.obj == o && (waitResult y w).isSome)).map
      (fun w => { queue := w.queue, seq := w.seq, status := (waitResult y w).getD 0 })) t)
    ∧ t.synObj o = y ∧ (∀ k, k ≠ o → t.synObj k = s.synObj k)
    ∧ t.syn.waits = s.syn.waits.filter (fun w => !(w.obj == o && (waitResult y w).isSome))

/-- The outcome of misuse: the object is unchanged, the misuse is counted, and event 0x07.0x03 goes out; the signal of a failed
command sets FAILED all the same (R290, R291). -/
def State.synMisused (s : State) (q op o : Nat) (x : SynObj) (failed : Bool) (out : Out) : Prop :=
  (failed = false → out = .next (synEvent 3 o (o + op * 16384) (syncReqOf q s) (bump (ZG_SYN_MISUSE (o / 4096)) 1 s)))
  ∧ (failed = true → s.synTurns o { x with failed := true } out)

/-- A packet that `want` asks for has arrived on port `p` as `a`; it passes the checks of R368 (TTL, trailer, tag, duplicate) and
leaves `s1`. -/
def State.packetTaken (s : State) (p : Nat) (want : List Byte → Bool) (a : Arrived) (s1 : State) : Prop :=
  ∃ s0, takeArrived p want s = some (a, s0) ∧ pkTtl a.bytes ≠ 0 ∧ trailerOk a.bytes = true
    ∧ (4 ≤ pkType a.bytes → pkTenant a.bytes ≠ 0)
    ∧ (let k := packageKey (pkSField a.bytes) (pkSrc a.bytes) * 4 + pkSDie a.bytes
       if pkType a.bytes = 3 ∨ pkType a.bytes = 5 ∨ pkType a.bytes = 6 then
         ∃ y, seePkt (cget none s0.wfn.seen k) (pkId a.bytes) = some y
           ∧ s1 = { s0 with wfn := { s0.wfn with seen := cset none s0.wfn.seen k (some y) } }
       else s1 = s0)

/-- The same for a packet of type `t`, for this package where its type has a destination beyond one hop, with bytes `b`. -/
def State.packetComes (s : State) (p t : Nat) (b : List Byte) (s1 : State) : Prop :=
  ∃ a, a.bytes = b ∧ s.packetTaken p (fun b => pkType b == t && (decide (t ≤ 2) || s.forHere b)) a s1

/-! ### Collective messages -/

/-- A collective message of a kind that die `d` may take, from the ring edges (`p` none) or from port `p` after the checks of
R368, passes the checks of R325 as `i` and leaves `s1`: its group is owned with its tenant, its rank names its sender in the
active bank, its generation is the group's. -/
def State.collComes (s : State) (d : Nat) (p : Option Nat) (kind : Nat) (i : CollIn) (s1 : State) : Prop :=
  (match p with
    | none => ∃ m, s.coll.inbox.find? (fun m => m.die == d && mKind m.bytes == kind && !heldMsg d ⟨m.entry, m.tenant, m.bytes⟩ s) = some m
        ∧ i = ⟨m.entry, m.tenant, m.bytes⟩ ∧ s1 = { s with coll := { s.coll with inbox := s.coll.inbox.erase m } }
    | some p => ∃ a, takeArrived p (fun b => pkType b == 4 && s.forHere b && pkDDie b == d && mKind (pkBody b) == kind
          && !heldMsg d (packetIn b) s) s = some (a, s1)
        ∧ pkTtl a.bytes ≠ 0 ∧ trailerOk a.bytes = true ∧ pkTenant a.bytes ≠ 0
        ∧ i = packetIn a.bytes)
  ∧ (let g := mGroup i.bytes
     s1.groupOwned g = true ∧ i.tenant = s1.groupTenant g
     ∧ ((s1.group g).members (s1.bank (memberTable g)).active)[mRank i.bytes]? = some i.entry ∧ mGgen i.bytes = (s1.group g).ggen)

/-- A message is for the current operation of a lane, with the EPOCH it bound and, where `digest` asks, its digest; once noted
it leaves `s2`, where the operation is `o` (R319, R320, R326, R340). -/
def State.collNoted (s1 : State) (d : Nat) (quick digest : Bool) (m : List Byte) (o : CollOp) (s2 : State) : Prop :=
  ∃ x, s1.currentOp (mGroup m) d quick = some x ∧ x.num = mNum m ∧ x.began = true ∧ mEpoch m = x.epoch % 65536
    ∧ (digest = true → mDigest m = x.digest) ∧ s2 = noteMsg (mGroup m) d quick m s1 ∧ s2.currentOp (mGroup m) d quick = some o

/-! ### Wefin -/

/-- Port `p` is in VERIFY, UP or QUIESCED with flit `f`: its acknowledgement taken, `f` is to be judged by its CRC (R359). -/
def State.flitSeen (s : State) (p : Nat) (f : List Byte) : State :=
  if crc8 ((f.drop 4).take 2) = byteAt f 6 then wfnTakeAck p (leNat ((f.drop 4).take 2)) s else countPort p 5 1 s

/-- A WEFIN_PORT command of the physical function's admin queue runs with ACTION `act` on port `p` (R387, R389). -/
def State.portRun (s : State) (q : Qn) (seq : Word64) (act p : Nat) (f : Flight) : Prop :=
  s.adminRuns q seq 0xC1 f ∧ q.val = 65536 ∧ f.phase = 0 ∧ byteAt (dBody f.desc) 0 = p ∧ p < 24
    ∧ byteAt (dBody f.desc) 1 = act ∧ zeroAt (dBody f.desc) 2 14 = true

/-! ### The security version -/

/-- The image in use, where it is to raise MIN_SVN at READY, is not below it (R578). -/
def State.svnInv (s : State) : Prop := s.boot.raiseSvn = true → s.store.minSvn ≤ s.boot.imageSvn

end Sys2Proof.Machine
end

