-- ==== Sys2Proof/Certificates/Slice0/Obligations.lean ====
section
/-! DEFINITION. The statements about the model: what its commands do, by family of the table. -/
open Sys2Proof Sys2Proof.Machine

/-- For every command c and state s, the step of s with c at the front of its queue is exec of c on s with the queue's
rest: same outcome, nothing around it. (02_clockless_timing.md R33) -/
def Obligations.StepRunsTheCommandAtTheFront : Prop :=
  ∀ (c : Instr) (cs : List Instr) (s : State), step { s with pending := c :: cs } = exec c { s with pending := cs }

/-- On an empty queue a step goes on; while TIME_STATUS says the timebase runs it advances by 1 ns plus the slew of
SLEW_PPM accumulated to whole nanoseconds, otherwise it stands, and nothing but the timebase, its slew remainder
and the four replicas, each within 4 ns of it, changes. That an idle step is 1 ns is the model's choice (log entry 5).
(R33; R34; R36) -/
def Obligations.IdleStepAdvancesTheTimebaseOnly : Prop :=
  ∀ s : State, s.pending = [] → ∃ t, step s = .next t
    ∧ { t with time := s.time } = s ∧ { t.time with now := s.time.now, slewRem := s.time.slewRem, replica := s.time.replica } = s.time
    ∧ (s.rfld ZG_TIME_STATUS 0 0 = 1 → s.time.replica.length = 4 → ∀ d < 4, t.replicaOf d ≤ t.now + 4 ∧ t.now ≤ t.replicaOf d + 4)
    ∧ (s.rfld ZG_TIME_STATUS 0 0 = 0 → t = s)
    ∧ (s.rfld ZG_TIME_STATUS 0 0 = 1 → ∀ ppm : Int, ppm = sext 16 (s.rfld ZG_TIME_STATUS 31 16) → -200 ≤ ppm → ppm ≤ 200 →
        0 ≤ s.time.slewRem → s.time.slewRem < 1000000 →
        0 ≤ t.time.slewRem ∧ t.time.slewRem < 1000000
        ∧ 1000000 * (t.time.now : Int) + t.time.slewRem = 1000000 * (s.time.now : Int) + 1000000 + ppm + s.time.slewRem
        ∧ s.time.now ≤ t.time.now)

/-- For every command and every state, exec faults (illFormed) when the operands name what the package does not have (a
Wefin flit, a set of sensor readings, a die-to-die frame of the wrong shape) and otherwise answers a next state; no
command is ever refused. (R359; R519; R225; R226) -/
def Obligations.IllFormedOperandsFaultAndNothingElseStops : Prop :=
  ∀ (c : Instr) (s : State),
    (c.wf = false → exec c s = .fault .illFormed) ∧ (c.wf = true → ∃ t, exec c s = .next t)

/-- State.reset has RESET_N low with power applied, STAGE 0, the timebase at zero, an empty queue of commands, memories
with nothing listed, every queue disabled with no command in flight, no partition, and, among the registers, the
identification, voltage and doorbell-stride values of the Reset columns; its sparse memories stand in canonical form
and no image that is to raise MIN_SVN is in use. Registers and inputs for which the spec gives no reset value stand at
the model's values of log entry 2. (R580; R602; R33; R251; R273) -/
def Obligations.ResetLeavesTheStatedValues : Prop :=
  State.reset.pending = [] ∧ State.reset.canonical = true ∧ State.reset.time.now = 0
  ∧ State.reset.pins.resetN = false ∧ State.reset.rfld ZG_BOOT_STATE 7 0 = 0
  ∧ State.reset.hbm.bytes = [] ∧ State.reset.host.mem = []
  ∧ (∀ q, State.reset.queue q = {}) ∧ (∀ p, (State.reset.part p).present = false)
  ∧ (State.reset.queue 0).state = .disabled ∧ (State.reset.queue 0).flights = []
  ∧ (∀ r ∈ regResets, State.reset.reg r.1 = r.2)
  ∧ State.reset.svnInv

/-- After an instruction whose own effect gives state s1 has issued in cluster c of die d, the cluster holds what s1 gave
it with the program advanced (next instruction, branch target or LOOP body again, and the beats spent), every other
cluster, every register but the eight programmable counters of the die, and everything else but counter wrap bits is
as in s1; a programmable counter that selects vector beats of every partition counts one more. (R143; R144; R539) -/
def Obligations.IssuedInstructionChangesItsClusterOnly : Prop :=
  ∀ (d : Die) (c : Cluster) (s s1 : State) (p p1 : VProg) (beats : Nat) (next : Option Nat),
    s1.canonical = true → (s1.clus d c).prog = some p1 →
    (s.afterIssue d c p beats next s1).clus d c = { s1.clus d c with prog := some (p1.after beats next) }
    ∧ s1.sameButCluster (s.afterIssue d c p beats next s1) d c
    ∧ (∀ k < 8, cget 0 s1.mgt.pmcSel (d.val * 8 + k) = 2 →
        (s.afterIssue d c p beats next s1).reg (ZG_PMC_CNT d k) = s1.reg (ZG_PMC_CNT d k) + 1)

/-- Each scalar instruction completes in one beat and writes X[XD] modulo 2^64: a sum, difference, product, left shift,
right shift or sign-extended immediate. A shift by 64 or more, and a right shift of a negative value by a count other
than 0, have no stated result: a free value of the operands alone (log entry 12, the model's choice). (R143; R141) -/
def Obligations.ScalarInstructionsWriteOneRegister : Prop :=
  ∀ (d : Die) (c : Cluster) (s : State) (p : VProg) (w : Nat) (xd xa xb : Fin 32) (imm : Word64) (i48 : BitVec 48),
    let x := s.clus d c
    (s.issues d c 0x10 p w → exec (.xaddi d c xd xa imm) s = s.ran d c p 1 (x.setXreg xd (x.xreg xa + imm.toNat)))
    ∧ (s.issues d c 0x11 p w → exec (.xadd d c xd xa xb) s = s.ran d c p 1 (x.setXreg xd (x.xreg xa + x.xreg xb)))
    ∧ (s.issues d c 0x12 p w → exec (.xsub d c xd xa xb) s = s.ran d c p 1 (x.setXreg xd (x.xreg xa + 2 ^ 64 - x.xreg xb)))
    ∧ (s.issues d c 0x13 p w → exec (.xmul d c xd xa xb) s = s.ran d c p 1 (x.setXreg xd (x.xreg xa * x.xreg xb)))
    ∧ (s.issues d c 0x14 p w → x.xreg xb < 64 → exec (.xshl d c xd xa xb) s = s.ran d c p 1 (x.setXreg xd (x.xreg xa * 2 ^ x.xreg xb)))
    ∧ (s.issues d c 0x14 p w → 64 ≤ x.xreg xb →
        exec (.xshl d c xd xa xb) s = s.ran d c p 1 (x.setXreg xd (Config.shiftResult true (x.xreg xa) (x.xreg xb))))
    ∧ (s.issues d c 0x15 p w → x.xreg xb < 64 → x.xreg xa < 2 ^ 63 →
        exec (.xshr d c xd xa xb) s = s.ran d c p 1 (x.setXreg xd (x.xreg xa / 2 ^ x.xreg xb)))
    ∧ (s.issues d c 0x15 p w → x.xreg xb = 0 → exec (.xshr d c xd xa xb) s = s.ran d c p 1 (x.setXreg xd (x.xreg xa)))
    ∧ (s.issues d c 0x15 p w → 64 ≤ x.xreg xb ∨ 2 ^ 63 ≤ x.xreg xa ∧ x.xreg xb ≠ 0 →
        exec (.xshr d c xd xa xb) s = s.ran d c p 1 (x.setXreg xd (Config.shiftResult false (x.xreg xa) (x.xreg xb))))
    ∧ (s.issues d c 0x18 p w → exec (.xli d c xd i48) s = s.ran d c p 1 (x.setXreg xd (i48.signExtend 64).toNat))

/-- Where the register files of a cluster stand in canonical form, writing X[i] leaves them so and makes X[i] read as the
value modulo 2^64 and every other scalar register as before, and writing MK[i] likewise; a write of X0 or MK0 is
ignored, X0 reads as zero and MK0 as all ones. (R141) -/
def Obligations.ScalarAndMaskRegistersReadBack : Prop :=
  ∀ (x : ClusterSt) (i : Nat) (v : Nat), cwf 0 x.xregs = true → cwf allLanes x.masks = true →
    cwf 0 (x.setXreg i v).xregs = true ∧ cwf allLanes (x.setMask i v).masks = true
    ∧ (∀ r, (x.setXreg i v).xreg r = if r = i ∧ r ≠ 0 then v % 2 ^ 64 else x.xreg r)
    ∧ (∀ r, (x.setMask i v).mask r = if r = i ∧ r ≠ 0 then v else x.mask r)
    ∧ x.xreg 0 = 0 ∧ x.mask 0 = 2 ^ 256 - 1
    ∧ (x.setXreg 0 v) = x ∧ (x.setMask 0 v) = x
    ∧ { x.setXreg i v with xregs := x.xregs } = x ∧ { x.setMask i v with masks := x.masks } = x

/-- FADD, FMUL, FMA, FMIN, FMAX, FABS, FNEG, the ten INT32 and logic instructions, RCP, RSQRT, EXP2 and LOG2 complete in
the legal three-source form: each lane of MK takes the operation's result, the other lanes of VD stay, the flags of
the lanes of MK join VSTAT; with a reserved bit set they are illegal instructions. (R142; R143; R145; R146; R149) -/
def Obligations.LaneInstructionsWriteTheLanesOfTheirMask : Prop :=
  LaneInstr .fadd 0x20 1 2 false false (fun s d _ a b _ => fadd (s.reduced d) a b)
  ∧ LaneInstr .fmul 0x21 1 2 true false (fun s d f a b _ => fmul (s.reduced d) f.negP a b)
  ∧ LaneInstr .fma 0x22 1 3 true true (fun s d f a b e => fma (s.reduced d) f.negP f.negC a b e)
  ∧ LaneInstr .fmin 0x23 1 2 false false (fun s d _ a b _ => fminmax (s.reduced d) false a b)
  ∧ LaneInstr .fmax 0x24 1 2 false false (fun s d _ a b _ => fminmax (s.reduced d) true a b)
  ∧ LaneInstr .fabs 0x25 1 1 false false (fun s d _ a _ _ => fsign (s.reduced d) false a)
  ∧ LaneInstr .fneg 0x26 1 1 false false (fun s d _ a _ _ => fsign (s.reduced d) true a)
  ∧ LaneInstr .iadd 0x30 1 2 false false (fun _ _ _ a b _ => (intOp 0x30 a b, {}))
  ∧ LaneInstr .isub 0x31 1 2 false false (fun _ _ _ a b _ => (intOp 0x31 a b, {}))
  ∧ LaneInstr .imul 0x32 1 2 false false (fun _ _ _ a b _ => (intOp 0x32 a b, {}))
  ∧ LaneInstr .ishl 0x33 1 2 false false (fun _ _ _ a b _ => (intOp 0x33 a b, {}))
  ∧ LaneInstr .ishr 0x34 1 2 false false (fun _ _ _ a b _ => (intOp 0x34 a b, {}))
  ∧ LaneInstr .iand 0x35 1 2 false false (fun _ _ _ a b _ => (intOp 0x35 a b, {}))
  ∧ LaneInstr .ior 0x36 1 2 false false (fun _ _ _ a b _ => (intOp 0x36 a b, {}))
  ∧ LaneInstr .ixor 0x37 1 2 false false (fun _ _ _ a b _ => (intOp 0x37 a b, {}))
  ∧ LaneInstr .imin 0x38 1 2 false false (fun _ _ _ a b _ => (intOp 0x38 a b, {}))
  ∧ LaneInstr .imax 0x39 1 2 false false (fun _ _ _ a b _ => (intOp 0x39 a b, {}))
  ∧ LaneInstr .rcp 0x70 4 1 false false (fun s d _ a _ _ => rcp (s.reduced d) a)
  ∧ LaneInstr .rsqrt 0x71 4 1 false false (fun s d _ a _ _ => rsqrt (s.reduced d) a)
  ∧ LaneInstr .exp2 0x72 4 1 false false (fun s d _ a _ _ => exp2 (s.reduced d) a)
  ∧ LaneInstr .log2 0x73 4 1 false false (fun s d _ a _ _ => log2 (s.reduced d) a)

/-- In every lane of MK, IADD, ISUB and IMUL give the sum, difference and product modulo 2^32, ISHL the left shift and
ISHR the arithmetic right shift by the count modulo 32, IAND, IOR and IXOR the bitwise results, IMIN and IMAX the
lesser and greater of the signed values; VSTAT keeps its value, and so does every lane outside MK. (R147) -/
def Obligations.Int32InstructionsWrapAndSetNoFlags : Prop :=
  ∀ (d : Die) (c : Cluster) (s : State) (p : VProg) (w : Nat), formOk 2 false false w →
    let r := fun (i : Instr) (opc : Nat) (g : Nat → Nat → Int) => s.issues d c opc p w →
      ∃ v : List Nat, exec i s = s.ran d c p 1 ((s.clus d c).setVreg (vfields w).vd v)
        ∧ ∀ l < 256, v.getD l 0 =
            if bitOf ((s.clus d c).mask (vfields w).msk) l then
              (g (((s.clus d c).vreg (vfields w).va).getD l 0) (((s.clus d c).vreg (vfields w).vb).getD l 0) % 2 ^ 32).toNat
            else ((s.clus d c).vreg (vfields w).vd).getD l 0
    r (.iadd d c) 0x30 (fun a b => a + b)
    ∧ r (.isub d c) 0x31 (fun a b => a - b)
    ∧ r (.imul d c) 0x32 (fun a b => a * b)
    ∧ r (.ishl d c) 0x33 (fun a b => a * 2 ^ (b % 32))
    ∧ r (.ishr d c) 0x34 (fun a b => (BitVec.ofNat 32 a).toInt / 2 ^ (b % 32))
    ∧ r (.imin d c) 0x38 (fun a b => min (BitVec.ofNat 32 a).toInt (BitVec.ofNat 32 b).toInt)
    ∧ r (.imax d c) 0x39 (fun a b => max (BitVec.ofNat 32 a).toInt (BitVec.ofNat 32 b).toInt)
    ∧ (let q := fun (i : Instr) (opc : Nat) (g : Nat → Nat → Nat) => s.issues d c opc p w →
        ∃ v : List Nat, exec i s = s.ran d c p 1 ((s.clus d c).setVreg (vfields w).vd v)
          ∧ ∀ l < 256, v.getD l 0 =
              if bitOf ((s.clus d c).mask (vfields w).msk) l then
                g (((s.clus d c).vreg (vfields w).va).getD l 0) (((s.clus d c).vreg (vfields w).vb).getD l 0)
              else ((s.clus d c).vreg (vfields w).vd).getD l 0
      q (.iand d c) 0x35 Nat.land ∧ q (.ior d c) 0x36 Nat.lor ∧ q (.ixor d c) 0x37 Nat.xor)

/-- FCMP (predicates 0 to 3) and ICMP (predicates 0 to 2), in the legal form, write one bit of mask register VD for every
lane of MK and keep the other bits; INVALID is raised exactly when a lane of MK raises it. (R145; R147; R143) -/
def Obligations.CompareInstructionsWriteAMask : Prop :=
  CompareInstr .fcmp 0x27 3 (fun s d q a b => fcmp (s.reduced d) q a b)
  ∧ CompareInstr .icmp 0x3A 2 (fun _ _ q a b => (icmp q a b, {}))

/-- In legal form CVT, CVT.MX and CVT.UNMX complete: CVT converts element l of the source part to element l of the
destination part for every l below 256, CVT.MX converts blocks of 32 elements and then writes their eight scale bytes to
SCSLOT (in this order where VSC is VD: the model's choice, log entry 59), CVT.UNMX scales MX elements back; under RM 4 the
context's IBASE moves by 256, and the flags raised join VSTAT. The part written reads back as the elements and every other
byte of VD stays; the scale bytes read back and every other byte of VSC stays; no other register changes. With a reserved
mode, a part outside the register, a format of the other kind or a reserved bit they are illegal instructions.
(R59; R60; R61; R62; R64) -/
def Obligations.ConvertsRewriteOnePartOfARegister : Prop :=
  ∀ (d : Die) (c : Cluster) (s : State) (p : VProg) (w : Nat),
    let x := s.clus d c
    let sf := bitsOf w 43 39
    let df := bitsOf w 38 34
    let src := partElems (x.vreg (bitsOf w 49 44)) (fmtWidth sf) (bitsOf w 29 27)
    let partsOk := bitsOf w 33 31 ≤ 4 ∧ bitsOf w 29 27 < partsOf (fmtWidth sf) ∧ bitsOf w 26 24 < partsOf (fmtWidth df)
    let cvtOk := bitsOf w 20 0 = 0 ∧ fmtWidth sf ≠ 0 ∧ fmtWidth df ≠ 0 ∧ isMx sf = false ∧ isMx df = false ∧ df ≠ 8 ∧ partsOk
    let mxOk := bitsOf w 7 0 = 0 ∧ bitOf w 30 = false ∧ sf ≤ 2 ∧ isMx df = true ∧ partsOk
    let unmxOk := bitsOf w 7 0 = 0 ∧ df ≤ 2 ∧ isMx sf = true ∧ partsOk
    (s.issues d c 0x40 p w →
      (cvtOk → exec (.cvt d c) s = s.ran d c p 1 (convertTo256 x w (fmtWidth df) ((List.range 256).map (fun l =>
        cvtLane (s.reduced d) sf df (bitsOf w 33 31) (bitOf w 30) (cvtRandom x w l) (src.getD l 0)))))
      ∧ (¬ cvtOk → exec (.cvt d c) s = .next (vectorFault d c p 1 0x40 s)))
    ∧ (s.issues d c 0x41 p w →
      let bs := (List.range 8).map (fun j => mxBlock df (bitsOf w 33 31)
        (((src.map (decodeElem (s.reduced d) sf)).drop (32 * j)).take 32)
        ((List.range 32).map (fun l => cvtRandom x w (32 * j + l))))
      let z := x.setVreg (bitsOf w 55 50) (setPart (x.vreg (bitsOf w 55 50)) (fmtWidth df) (bitsOf w 26 24)
        (bs.map (fun b => b.2.1)).flatten)
      (mxOk → exec (.cvtMx d c) s = s.ran d c p 1 (cvtAdvance w
        ((z.setVreg (bitsOf w 20 15) (setScales (z.vreg (bitsOf w 20 15)) (bitsOf w 14 8) (bs.map Prod.fst))).raise
          (bs.foldl (fun a b => a.or b.2.2) (if sf = 0 then snanFlag src else {})))))
      ∧ (¬ mxOk → exec (.cvtMx d c) s = .next (vectorFault d c p 1 0x41 s)))
    ∧ (s.issues d c 0x42 p w →
      (unmxOk → exec (.cvtUnmx d c) s = s.ran d c p 1 (convertTo256 x w (fmtWidth df) ((List.range 256).map (fun l =>
        let u := byteAt (laneBytes (x.vreg (bitsOf w 20 15))) (bitsOf w 14 8 * 8 + l / 32)
        let r := convert (s.reduced d) df (bitsOf w 33 31) (bitOf w 30) (cvtRandom x w l) (decodeMx sf u (src.getD l 0))
        (r.1, r.2.or { invalid := u == 255 })))))
      ∧ (¬ unmxOk → exec (.cvtUnmx d c) s = .next (vectorFault d c p 1 0x42 s)))
    ∧ (∀ y : ClusterSt, cwf {} y.ctxs = true →
      { cvtAdvance w y with ctxs := y.ctxs } = y
      ∧ (bitsOf w 33 31 ≠ 4 → cvtAdvance w y = y)
      ∧ (bitsOf w 33 31 = 4 → ∀ k, (cvtAdvance w y).ctx k =
          if k = bitsOf w 23 21 then { y.ctx k with ibase := ((y.ctx k).ibase + 256) % 2 ^ 64 } else y.ctx k))
    ∧ (∀ (v es : List Nat) (k i : Nat), v.length = 256 → es.length = 256 → k ∈ [4, 6, 8, 16, 32] → i < partsOf k →
      (setPart v k i es).length = 256
      ∧ ((∀ e ∈ es, e < 2 ^ k) → partElems (setPart v k i es) k i = es)
      ∧ (∀ j < 1024, j < i * k * 32 ∨ (i + 1) * k * 32 ≤ j →
          byteAt (laneBytes (setPart v k i es)) j = byteAt (laneBytes v) j))
    ∧ (∀ (v us : List Nat) (i : Nat), v.length = 256 → us.length = 8 → i < 128 →
      (setScales v i us).length = 256
      ∧ (∀ j < 1024, byteAt (laneBytes (setScales v i us)) j =
          if i * 8 ≤ j ∧ j < i * 8 + 8 then us.getD (j - i * 8) 0 % 256 else byteAt (laneBytes v) j))
    ∧ (∀ (y : ClusterSt) (r : Nat) (v : List Nat) (fl : FpFlags), cwf (List.replicate 256 0) y.vregs = true →
      cwf (List.replicate 256 0) (y.setVreg r v).vregs = true
      ∧ (∀ k, (y.setVreg r v).vreg k = if k = r then v else y.vreg k)
      ∧ { y.setVreg r v with vregs := y.vregs } = y
      ∧ { y.raise fl with vstat := y.vstat } = y
      ∧ (∀ k, bitOf (y.raise fl).vstat k = (bitOf y.vstat k || (k == 0 && fl.inexact) || (k == 1 && fl.underflow)
          || (k == 2 && fl.overflow) || (k == 3 && fl.invalid) || (k == 4 && fl.divzero))))

/-- VLD puts LEN × 64 bytes of SRAM from X[XB] + OFF × 64 into the bytes DOFF × 64 onward of VD, VST stores such bytes,
SRLD loads a stochastic-rounding context whose record passes its check, with IBASE moved by the cluster's number times
the record's stride, VSPLAT writes one word to every lane. A reserved bit, LEN 0 or over 16, DOFF + LEN over 16 or a
misaligned address is illegal; an address range past the bound of R130 is an access fault; an uncorrectable SRAM error
ends the program with status 0x0030. (R143; R144; R402; R126; R130) -/
def Obligations.VectorLoadsAndStoresMoveLinesOfSram : Prop :=
  ∀ (d : Die) (c : Cluster) (s : State) (p : VProg) (w : Nat),
    let x := s.clus d c
    let a := (x.xreg (bitsOf w 49 45) + bitsOf w 44 27 * 64) % 2 ^ 64
    let n := bitsOf w 26 22 * 64
    let base := (s.sramWindow p.queue p.seq d).1
    let size := (s.sramWindow p.queue p.seq d).2
    let ok := bitsOf w 17 0 = 0 ∧ 1 ≤ bitsOf w 26 22 ∧ bitsOf w 26 22 ≤ 16 ∧ bitsOf w 21 18 + bitsOf w 26 22 ≤ 16 ∧ a % 64 = 0
    (s.issues d c 0x50 p w →
      (ok → a + n ≤ size → ∀ (bs : List Byte) (s1 : State),
        sramRead d c (base + a) n 3 (s.queuePart p.queue) s = (some bs, s1) →
        exec (.vld d c) s = .next (s.afterIssue d c p 1 none (s1.updClus d c (fun y =>
          y.setVreg (bitsOf w 55 50) (bytesLanes (putAt (laneBytes (y.vreg (bitsOf w 55 50))) (bitsOf w 21 18 * 64) bs))))))
      ∧ (ok → a + n ≤ size → ∀ s1, sramRead d c (base + a) n 3 (s.queuePart p.queue) s = (none, s1) →
        exec (.vld d c) s = .next (finishProg d c p 0x30 s s1))
      ∧ (ok → size < a + n → exec (.vld d c) s = .next (vectorFault d c p 2 0x50 s))
      ∧ (¬ ok → exec (.vld d c) s = .next (vectorFault d c p 1 0x50 s)))
    ∧ (s.issues d c 0x51 p w →
      (ok → a + n ≤ size → exec (.vst d c) s = .next (s.afterIssue d c p 1 none
        (sramPut d c (base + a) (((laneBytes (x.vreg (bitsOf w 55 50))).drop (bitsOf w 21 18 * 64)).take n) s)))
      ∧ (ok → size < a + n → exec (.vst d c) s = .next (vectorFault d c p 2 0x51 s))
      ∧ (¬ ok → exec (.vst d c) s = .next (vectorFault d c p 1 0x51 s)))
    ∧ (s.issues d c 0x48 p w →
      let okS := bitsOf w 52 50 = 0 ∧ bitsOf w 26 0 = 0 ∧ a % 64 = 0
      let record := fun (r : List Byte) => ({ seed := getLE r 0 4, job := getLE r 4 4, mbatch := getLE r 8 4,
                                              layer := getLE r 12 2, site := byteAt r 14, purpose := byteAt r 15,
                                              ibase := (getLE r 16 8 + p.cls.idxOf c.val * getLE r 24 8) % 2 ^ 64 } : SrCtx)
      (okS → a + 64 ≤ size → ∀ (r : List Byte) (s1 : State), sramRead d c (base + a) 64 3 (s.queuePart p.queue) s = (some r, s1) →
        (ctxRecordBad r = false → exec (.srld d c) s = .next (s.afterIssue d c p 1 none (s1.updClus d c (fun y =>
          { y with ctxs := cset {} y.ctxs (bitsOf w 55 53) (record r) }))))
        ∧ (ctxRecordBad r = true → exec (.srld d c) s = .next (vectorFault d c p 1 0x48 s)))
      ∧ (okS → a + 64 ≤ size → ∀ s1, sramRead d c (base + a) 64 3 (s.queuePart p.queue) s = (none, s1) →
        exec (.srld d c) s = .next (finishProg d c p 0x30 s s1))
      ∧ (okS → size < a + 64 → exec (.srld d c) s = .next (vectorFault d c p 2 0x48 s))
      ∧ (¬ okS → exec (.srld d c) s = .next (vectorFault d c p 1 0x48 s)))
    ∧ (s.issues d c 0x52 p w → ∀ (vd : Fin 64) (word : Word32),
      exec (.vsplat d c vd word) s = s.ran d c p 1 (x.setVreg vd (List.replicate 256 word.toNat)))

/-- VRED puts the reduction of the lanes of MK, others neutral, in the fixed tree of R148 into lane 0 of VD, keeps the
other lanes and joins its flags; OP 6 or 7 or a reserved bit is illegal. VROT moves every lane by X[XB] modulo 256 in
one direction (which one is a free choice, log entry 12). VSTAT writes the five flags to X[XD] and with CLR clears
them. (R143; R148; R149) -/
def Obligations.CrossLaneInstructionsAndVstatComplete : Prop :=
  ∀ (d : Die) (c : Cluster) (s : State) (p : VProg) (w : Nat),
    let x := s.clus d c
    (s.issues d c 0x60 p w →
      let ok := bitsOf w 43 32 = 0 ∧ bitsOf w 25 0 = 0 ∧ bitsOf w 28 26 ≤ 5
      let r := redTree (s.reduced d) (bitsOf w 28 26) 8 ((List.range 256).map (fun l =>
        if bitOf (x.mask (bitsOf w 31 29)) l then (x.vreg (bitsOf w 49 44)).getD l 0 else redNeutral (bitsOf w 28 26))) {}
      (ok → exec (.vred d c) s =
        s.ran d c p 8 ((x.setVreg (bitsOf w 55 50) ((x.vreg (bitsOf w 55 50)).set 0 r.1)).raise r.2))
      ∧ (¬ ok → exec (.vred d c) s = .next (vectorFault d c p 1 0x60 s)))
    ∧ (s.issues d c 0x61 p w → ∀ (vd va : Fin 64) (xb : Fin 32), ∃ v : List Nat,
      exec (.vrot d c vd va xb) s = s.ran d c p 1 (x.setVreg vd v) ∧ v.length = 256 ∧
      ((∀ l < 256, v.getD l 0 = (x.vreg va).getD ((l + x.xreg xb) % 256) 0)
        ∨ (∀ l < 256, v.getD ((l + x.xreg xb) % 256) 0 = (x.vreg va).getD l 0)))
    ∧ (s.issues d c 0x80 p w →
      (bitsOf w 49 0 = 0 → exec (.vstat d c) s = s.ran d c p 1
        { x.setXreg (bitsOf w 55 51) x.vstat with vstat := if bitOf w 50 then 0 else x.vstat })
      ∧ (bitsOf w 49 0 ≠ 0 → exec (.vstat d c) s = .next (vectorFault d c p 1 0x80 s)))

/-- BR and BNZ go on at their target inside the code and the same LOOP bodies, and otherwise are illegal; LOOP with a
count of 0 skips its body, otherwise enters it, and is illegal with a reserved bit, an empty body, a fifth level or a
body reaching past its enclosing one; END ends the program in the cluster with success and without further effect; a
program whose beats reach a MAX_BEATS other than 0 stops with a fault of kind 3. (R142; R143; R144; R150; R152) -/
def Obligations.ProgramControlFollowsBranchesLoopsAndEnds : Prop :=
  ∀ (d : Die) (c : Cluster) (s : State) (p : VProg) (w : Nat),
    let x := s.clus d c
    (s.issues d c 1 p w → exec (.endProg d c) s = .next (finishProg d c p 0 s (pmcCount d 2 (s.queuePart p.queue) 1 s)))
    ∧ (s.issues d c 2 p w → ∀ t : BitVec 12,
      (branchBad x p.pc t.toNat = false → exec (.br d c t) s = .next (s.afterIssue d c p 1 (some t.toNat) s))
      ∧ (branchBad x p.pc t.toNat = true → exec (.br d c t) s = .next (vectorFault d c p 1 2 s)))
    ∧ (s.issues d c 3 p w → ∀ (xs : Fin 32) (t : BitVec 12),
      (branchBad x p.pc t.toNat = false → x.xreg xs ≠ 0 →
        exec (.bnz d c xs t) s = .next (s.afterIssue d c p 1 (some t.toNat) s))
      ∧ (branchBad x p.pc t.toNat = false → x.xreg xs = 0 → exec (.bnz d c xs t) s = .next (s.afterIssue d c p 1 none s))
      ∧ (branchBad x p.pc t.toNat = true → exec (.bnz d c xs t) s = .next (vectorFault d c p 1 3 s)))
    ∧ (s.issues d c 4 p w →
      let last := p.pc + 1 + bitsOf w 10 0
      let ok := bitsOf w 50 11 = 0 ∧ bitsOf w 10 0 ≠ 0 ∧ p.loops.length < 4 ∧ ∀ l ∈ p.loops, last ≤ l.last
      (ok → x.xreg (bitsOf w 55 51) = 0 → exec (.loop d c) s = .next (s.afterIssue d c p 1 (some last) s))
      ∧ (ok → x.xreg (bitsOf w 55 51) ≠ 0 → exec (.loop d c) s =
          s.ran d c p 1 { x with prog := some { p with loops := ⟨p.pc + 1, last, x.xreg (bitsOf w 55 51)⟩ :: p.loops } })
      ∧ (¬ ok → exec (.loop d c) s = .next (vectorFault d c p 1 4 s)))
    ∧ (x.prog = some p → p.maxBeats ≠ 0 → p.maxBeats ≤ p.beats →
      exec (.vprogMaxBeats d c) s = .next (vectorFault d c p 3 (x.ibuf.getD p.pc 0 / 2 ^ 56) s))

/-- TILE_PASS, dispatched after every earlier tile command of its die has dealt, with a legal body, extents inside its
SRAM window, its streams in order, clusters its partition owns and chunk tables that are permutations, joins the tile
commands under way with all blocks left; array i of the P in ARRAY_MASK, in every named cluster, gains the blocks b
with b mod P = i in ascending order at the end of its chain, and no other array changes its chain. A body that breaks
a check ends it with the invalid-descriptor status. TILE_COMPLETE ends a tile command with success once no block and
no spilled row is left. (R94; R95; R97; R98; R100; R103; R128) -/
def Obligations.TilePassDealsItsBlocksToItsArrays : Prop :=
  (∀ (q : Qn) (seq : Word64) (s s0 s1 : State) (f : Flight) (ga gb : Option Nat) (tabs : List (Nat × List Nat)),
    s.runs q seq 0x10 f → f.phase = 0 → tileAhead (s.queue q).die f.order s = false →
    let b := dBody f.desc
    let cs := s.cmdClusters q seq.toNat (byteAt b 5) (byteAt b 6)
    let w := s.sramWindow q seq.toNat (s.queue q).die
    (checkTile b s ≠ 0 → exec (.tilePass q seq) s = s.endsWith q seq (checkTile b s) 0)
    ∧ (checkTile b s = 0 → tileRangeBad b w.2 = false → tileStreams q cs b s = (0, ga, gb) →
        checkClusters q seq.toNat (byteAt b 5) (byteAt b 6) s = (0, s0) →
        (if tKMode b then chunkTables (s.queue q).die w.1 (s.queuePart q) b cs s else ([], [], s)) = (tabs, [], s1) →
        let r : TileRun := { queue := q, seq := seq.toNat, die := (s.queue q).die, order := f.order, body := b, cls := cs,
                             base := w.1, ktabs := tabs, aStream := ga, bStream := gb, left := tBlocks b * cs.length }
        let s2 := s1.updFlight q seq.toNat (fun f => { f with phase := 1 })
        exec (.tilePass q seq) s = .next (cs.foldl (fun s c => dealCluster r c s)
          { s2 with tile := { s2.tile with runs := s2.tile.runs ++ [r] } })))
  ∧ (∀ (r : TileRun) (c : Cluster) (s : State) (i : Nat), s.canonical = true →
      i < (maskArrays (byteAt r.body 7)).length →
      ((dealCluster r c s).array r.die c ((maskArrays (byteAt r.body 7)).getD i 0)).chain
        = (s.array r.die c ((maskArrays (byteAt r.body 7)).getD i 0)).chain
          ++ ((List.range (tBlocks r.body)).filter (fun b => b % (maskArrays (byteAt r.body 7)).length == i)).map
               (fun b => ⟨r.queue, r.seq, b⟩))
  ∧ (∀ (q : Qn) (seq : Word64) (s : State) (r : TileRun), s.tileRun q seq.toNat = some r → r.left = 0 →
      (∀ c ∈ r.cls, ∀ x ∈ s.spills r.die c, ¬ (x.queue = r.queue ∧ x.seq = r.seq)) →
      exec (.tileComplete q seq) s = (dropTile q seq.toNat s).endsWith q seq 0 0)

/-- STATIONARY_LOAD puts the next pass of an array with its initial windows into the free bank; PASS_START begins it when
no other pass streams, the gate is open and its operands are present; ARRAY_BEAT takes the operands of both edges and
completes one beat of all started passes; BANK_UNLOAD writes the block of the bank that became final first and counts
it off, or waits with the rest of it where the write buffer is full; SPILL_WRITE writes the oldest spilled row of the cluster. A closed gate or a missing operand freezes the array
with that cause, an uncorrectable word fails the command with status 0x0030 and a page that is not writable with
0x0020. (R91; R93; R101; R102; R105; R106; R107; R111; R126; R140) -/
def Obligations.ArraysLoadStartBeatAndUnload : Prop :=
  ∀ (d : Die) (c : Cluster) (a : Fin 8) (s s1 : State) (p : PassId) (rest : List PassId) (x : Pass) (r : TileRun),
    (s.tileRun p.queue p.seq = some r → (s.array d c a).chain = p :: rest →
      (∀ y ∈ (s.array d c a).passes, y.bank ≠ (s.array d c a).nextBank) →
      let load := fun (wins : List Window) (s2 : State) => s2.setArray d c a { s.array d c a with
        chain := rest, nextBank := 1 - (s.array d c a).nextBank,
        passes := (s.array d c a).passes ++ [{ id := p, bank := (s.array d c a).nextBank, wins := wins }] }
      (tInit r.body = 0 → exec (.stationaryLoad d c a) s = .next (load (blockWindows r.body []) s))
      ∧ (tInit r.body ≠ 0 → ∀ rows, loadRows r c p.block (s.queuePart p.queue) (blockRows r.body p.block) s = (.inr rows, s1) →
          exec (.stationaryLoad d c a) s = .next (load (blockWindows r.body rows) s1))
      ∧ (tInit r.body ≠ 0 → ∀ e, loadRows r c p.block (s.queuePart p.queue) (blockRows r.body p.block) s = (.inl e, s1) →
          exec (.stationaryLoad d c a) s = .next (failTile r c e s1)))
    ∧ (s.tileRun x.id.queue x.id.seq = some r →
      ((s.array d c a).passes.find? (fun p => !p.started) = some x →
        (∀ o ∈ (s.array d c a).passes, streaming s o = false) →
        (s.gateOpen d c a = false → exec (.passStart d c a) s = .next (freeze d c a 2 s))
        ∧ (s.gateOpen d c a = true → (tT r.body = 0 ∨ readBeat r c x 0 s ≠ .missing) →
            exec (.passStart d c a) s = .next ((thaw d c a s).setArray d c a { (thaw d c a s).array d c a with
              passes := ((thaw d c a s).array d c a).passes.map (fun o => if o.bank = x.bank then { o with started := true } else o) }))
        ∧ (s.gateOpen d c a = true → tT r.body ≠ 0 → readBeat r c x 0 s = .missing → endedStream r c x 0 s = none →
            exec (.passStart d c a) s = .next (if flushing (s.array d c a) then s else freeze d c a 0 s)))
      ∧ ((s.array d c a).passes.find? (streaming s) = some x → x.started = true → x.final = false →
        (s.gateOpen d c a = false → exec (.arrayBeat d c a) s = .next (freeze d c a 2 s))
        ∧ (s.gateOpen d c a = true → ∀ ea eb s2, readBeat r c x x.t s = .edges ea eb s2 →
            exec (.arrayBeat d c a) s = .next (arrayBeat d c a (some x.bank) (ea, eb) s2))
        ∧ (s.gateOpen d c a = true → ∀ s2, readBeat r c x x.t s = .ue s2 → exec (.arrayBeat d c a) s = .next (failTile r c 0x30 s2))
        ∧ (s.gateOpen d c a = true → readBeat r c x x.t s = .missing → endedStream r c x x.t s = none →
            exec (.arrayBeat d c a) s = .next (freeze d c a 0 s)))
      ∧ (∀ (bank : Nat) (fin : List (Nat × Nat)), s.finals d c = (a.val, bank) :: fin →
        (s.array d c a).passes.find? (fun p => p.bank == bank) = some x → (s.array d c a).drainRep = none →
        ((s.spills d c).map (fun y => y.bytes.length)).sum ≤ 65472 → drainFault (s.reduced d) r.body x = none →
        let items := drainItems r c (s.reduced d) x
        (drainOut r c (items.drop x.drained) s = .done s1 → exec (.bankUnload d c) s =
          .next (let s2 := s1.setFinals d c (s1.finals d c).tail
                 let s3 := s2.setArray d c a { s2.array d c a with
                   passes := (s2.array d c a).passes.filter (fun y => y.bank != bank) }
                 pmcCount d 1 (s3.queuePart x.id.queue) 1 (s3.updRun x.id.queue x.id.seq (fun r => { r with left := r.left - 1 }))))
        ∧ (∀ left, drainOut r c (items.drop x.drained) s = .full left s1 → exec (.bankUnload d c) s =
            .next (s1.setArray d c a { s1.array d c a with passes := (s1.array d c a).passes.map (fun o =>
              if o.bank = bank then { o with drained := items.length - left } else o) }))
        ∧ (drainOut r c (items.drop x.drained) s = .ue s1 → exec (.bankUnload d c) s = .next (failTile r c 0x30 s1))))
    ∧ (∀ (y : Spill) (more : List Spill) (f : Flight), s.spills d c = y :: more → s.flight y.queue y.seq = some f →
      s.tileRun y.queue y.seq = some r →
      (vaWrite (s.req y.queue f 1) y.va y.bytes s = .ok () s1 → exec (.spillWrite d c) s = .next (s1.setSpills d c more))
      ∧ (∀ va, vaWrite (s.req y.queue f 1) y.va y.bytes s = .fault 2 va s1 →
          exec (.spillWrite d c) s = .next (failTile r c 0x20 (recordFault (s.req y.queue f 1) 2 va s1))))

/-- A mismatch in an array with no repeat under way, on a pass of its banks and below TRANS_LIMIT, returns the
undrained passes to the front of the chain, empties the banks and starts a repeat of them; a mismatch of the drain
repeats the unload. A repeat whose passes all reached their final window without a mismatch is classed transient,
counts against the array (not for the drain) and marks the command repeated; a mismatch in it, told of as such or met
anew, is classed permanent or, for the drain, unrecovered. A run on the spare array that completes is classed permanent, and is recorded as a substitution. (R113;
R114; R115; R116; R117; R119) -/
def Obligations.ResidueEventsRepeatSubstituteOrFail : Prop :=
  ∀ (d : Die) (c : Cluster) (a : Fin 8) (s : State) (r : Repeat) (p : Pass) (ps : List Pass) (engine : Fin 16) (source : Fin 6),
    let x := s.array d c a
    (s.canonical = true → x.rep = none → source.val ≠ 5 → x.passes = p :: ps →
      (s.rfld (ZG_MXE_CTRL d) 15 12 = 0 ∨ x.trans < s.rfld (ZG_MXE_CTRL d) 15 12) →
      ∃ t, exec (.residueMismatch d c a engine source) s = .next t
        ∧ (t.array d c a).passes = [] ∧ (t.array d c a).chain = (p :: ps).map (·.id) ++ x.chain
        ∧ (t.array d c a).rep = some { source := source, engine := engine, queue := p.id.queue, seq := p.id.seq,
                                       left := (p :: ps).map (·.id) }
        ∧ t.finals d c = (s.finals d c).filter (fun y => y.1 != a.val))
    ∧ (x.drainRep = none → source.val = 5 → ∀ bank fin, s.finals d c = (a.val, bank) :: fin →
      x.passes.find? (fun p => p.bank == bank) = some p →
      exec (.residueMismatch d c a engine source) s = .next (s.setArray d c a { x with
        passes := x.passes.map (fun o => if o.bank = bank then { o with drained := 0 } else o),
        drainRep := some (bank, { source := 5, engine := 0, queue := p.id.queue, seq := p.id.seq, left := [] }) }))
    ∧ (x.rep = some r → r.onS = false → r.source ≠ 5 →
      (r.left = [] → ∃ t, exec (.repeatDone d c a false) s =
        .next (classify 1 d c a r.source r.engine r.queue (s.queuePart r.queue) t)
        ∧ t = (s.setArray d c a { x with rep := none, trans := x.trans + 1 }).updFlight r.queue r.seq
            (fun f => { f with repeated := true }))
      ∧ exec (.repeatDone d c a true) s = .next (classPermanent d c a r s)
      ∧ (source.val ≠ 5 → exec (.residueMismatch d c a engine source) s = .next (classPermanent d c a r s)))
    ∧ (∀ bank, x.rep = none → x.drainRep = some (bank, r) →
      (∃ t, exec (.repeatDone d c a false) s = .next (classify 1 d c a r.source r.engine r.queue (s.queuePart r.queue) t)
        ∧ t = (s.setArray d c a { x with drainRep := none }).updFlight r.queue r.seq (fun f => { f with repeated := true }))
      ∧ exec (.repeatDone d c a true) s = .next (unrecovered d c a r s)
      ∧ (source.val = 5 → exec (.residueMismatch d c a engine source) s = .next (unrecovered d c a r s)))
    ∧ (x.rep = some r → r.onS = true → r.left = [] →
      exec (.substitutedRunDone d c a false) s = .next (classify 2 d c a r.source r.engine r.queue (s.queuePart r.queue)
        (addHealth ⟨0, d, c * 8 + a, 0⟩ (s.setArray d c a { x with rep := none, trans := 0 }))))

/-- SRAM_CE_WRITEBACK of a marked line leaves none of its eight words in error and the mark gone, every byte and every
other word's error as it was. With SCRUB_EN, SCRUB_READ reads the next line of every idle bank and
SCRUB_STARVE_PRIORITY that of its bank. Once no dispatched command and no loan uses the cluster, CLU_OWNER_CLEAR ends
its streams, leaves every byte of SRAM and every vector register zero and gives the cluster its new owner byte.
CARVE_TAKE_EFFECT, with a change pending and no loan on the die, sets the new size and zeroes the bytes between the
old and the new bound. (R124; R125; R127; R129; R130; R132; R241) -/
def Obligations.SramIsWrittenBackScrubbedAndCleared : Prop :=
  (∀ (d : Die) (c : Cluster) (line : BitVec 18) (s : State), s.canonical = true → line.toNat ∈ (s.clus d c).writeBacks →
    ∃ t, exec (.sramCeWriteback d c line) s = .next t
      ∧ (∀ j < 8, cget 0 (t.clus d c).sramErrs (line.toNat * 8 + j) = 0)
      ∧ (t.clus d c).sramErrs = cclear (s.clus d c).sramErrs (line.toNat * 8) (line.toNat * 8 + 8)
      ∧ line.toNat ∉ (t.clus d c).writeBacks ∧ (t.clus d c).sram = (s.clus d c).sram
      ∧ { t with clu := s.clu } = s)
  ∧ (∀ (d : Die) (c : Cluster) (idle : BitVec 32) (bank : Fin 32) (s : State), s.scrubOn d = true →
    exec (.scrubRead d c idle) s =
      .next ((List.range 32).foldl (fun s k => if idle.toNat.testBit k then scrubBank d c k s else s) s)
    ∧ exec (.scrubStarvePriority d c bank) s = .next (scrubBank d c bank s))
  ∧ (∀ (d : Die) (c : Cluster) (s : State) (new : Nat), (s.clus d c).ownTarget = some new → s.clusterInUse d c = false →
    (s.clus d c).loan = none →
    exec (.cluOwnerClear d c) s = .next (raiseEvent { cls := 3, code := 4, src := d, data := c + new / 128 * 64 + new % 64 * 128 }
      (((sramZero d c 0 0xC00000 (endStreamsAt d c s)).updClus d c (fun x =>
          { x with vregs := [], slots := [], ownTarget := none, lastBorrower := none })).setRfld
        (ZG_CLU_OWN d (c / 8)) (c % 8 * 8 + 7) (c % 8 * 8) new)))
  ∧ (∀ (d : Die) (s : State), s.rfld (ZG_CLU_CARVE d) 8 8 = 1 → s.loansOn d = false →
    let s1 := { s with clu := { s.clu with carve := s.clu.carve.set d.val (s.rfld (ZG_CLU_CARVE d) 4 0) } }
    exec (.carveTakeEffect d) s = .next (((List.range 64).foldl (fun t c =>
      sramZero d c (min (s.sramBound d) (s1.sramBound d)) (max (s.sramBound d) (s1.sramBound d)) t) s1).setRfld
        (ZG_CLU_CARVE d) 8 8 0))

/-- A MOVE whose body, programs and clusters pass their checks starts in every named cluster with both programs fetched;
one that breaks a check ends with that status. A ready MOVE_LOAD entry moves its rows from HBM to SRAM, MOVE_STORE
from SRAM to HBM, MOVE_COPY within SRAM, MOVE_ZERO writes zeros, each in groups of one destination block, and
MOVE_FENCE does nothing but wait for its turn; the entry then counts as done, and the move ends in the cluster when
both programs have run. An entry that fails leaves its status and ends the move there. (R133; R134; R135; R136; R137;
R138; R139) -/
def Obligations.MoveCommandsRunTheirPrograms : Prop :=
  (∀ (q : Qn) (seq : Word64) (s s0 s1 s2 : State) (f : Flight) (feed drain : List Byte), s.runs q seq 0x21 f → f.phase = 0 →
    let b := dBody f.desc
    let rq := s.req q f 6
    let cs := s.cmdClusters q seq.toNat (byteAt b 0) (byteAt b 1)
    let size := (s.sramWindow q seq.toNat (s.queue q).die).2
    (checkMove b s ≠ 0 → exec (.move q seq) s = s.endsWith q seq (checkMove b s) 0)
    ∧ (checkMove b s = 0 → vaRead rq (getLE b 8 8) (getLE b 4 2 * 32) s = .ok feed s1 →
        vaRead rq (getLE b 16 8) (getLE b 6 2 * 32) s1 = .ok drain s2 →
        programBad false (getLE b 4 2) (2 ^ 64) feed = false → programBad true (getLE b 6 2) (2 ^ 64) drain = false →
        programBad false (getLE b 4 2) size feed = false → programBad true (getLE b 6 2) size drain = false →
        checkClusters q seq.toNat (byteAt b 0) (byteAt b 1) s2 = (0, s0) →
        (∀ c ∈ cs, (s.clus (s.queue q).die c).mv = none ∧ s.namedAhead q seq.toNat f 0x21 c = false) →
        let m : MoveRun := { queue := q, seq := seq.toNat, clFirst := byteAt b 0, cls := cs, inOrder := byteAt b 2 == 1,
                             vaStep := getLE b 24 8, feed := programOf (getLE b 4 2) feed, drain := programOf (getLE b 6 2) drain }
        let s3 := { s2 with clu := { s2.clu with moves := s2.clu.moves ++ [m] } }.updFlight q seq.toNat
          (fun f => { f with phase := 1 })
        exec (.move q seq) s = .next (cs.foldl (fun t c => settleMove m (s.queue q).die c t)
          (cs.foldl (fun t c => t.updClus (s.queue q).die c fun x => { x with mv := some { queue := q, seq := seq.toNat } }) s3))))
  ∧ (∀ (d : Die) (c : Cluster) (i : BitVec 12) (s s1 : State) (a : MoveAt) (m : MoveRun) (f : Flight) (e : MoveEntry),
    let base := (s.sramWindow m.queue m.seq d).1
    let part := s.queuePart a.queue
    (s.entryAt d c false i.toNat 1 a m f e → e.bcast = false →
      moveGroups (fun g t => fromAcc (s.req a.queue f 0) (readPieces (s.req a.queue f 0) g t) fun data t => putPieces d c 2 part data t)
        (groupPieces (entryPieces e.rows e.rowBytes (entryVa m e c) e.vaStride (base + e.off) e.stride)) s = .done s1 →
      exec (.moveLoad d c i) s = .next (entryDone m d c false i.toNat s1))
    ∧ (s.entryAt d c false i.toNat 1 a m f e → e.bcast = true → ∀ k data, m.bcast.find? (fun p => p.1 == i.toNat) = some (k, data) →
      moveGroups (fun g t => putPieces d c 2 part (g.map (fun p => (p, (data.drop p.src).take p.len))) t)
        (groupPieces (entryPieces e.rows e.rowBytes 0 e.rowBytes (base + e.off) e.stride)) s = .done s1 →
      exec (.moveLoad d c i) s = .next (entryDone m d c false i.toNat s1))
    ∧ (s.entryAt d c false i.toNat 1 a m f e → e.bcast = true → m.bcast.find? (fun p => p.1 == i.toNat) = none → ∀ data s0,
      readPieces (s.req a.queue f 0)
        (entryPieces e.rows e.rowBytes (entryVa m e c) e.vaStride (base + e.off) e.stride) s = .ok data s0 →
      let all := (data.map Prod.snd).flatten
      moveGroups (fun g t => putPieces d c 2 part (g.map (fun p => (p, (all.drop p.src).take p.len))) t)
        (groupPieces (entryPieces e.rows e.rowBytes 0 e.rowBytes (base + e.off) e.stride))
        { s0 with clu := { s0.clu with moves := s0.clu.moves.map (fun n =>
          if n.queue == m.queue && n.seq == m.seq then { n with bcast := n.bcast ++ [(i.toNat, all)] } else n) } } = .done s1 →
      exec (.moveLoad d c i) s = .next (entryDone m d c false i.toNat s1))
    ∧ (s.entryAt d c true i.toNat 2 a m f e →
      moveGroups (fun g t => match sramPieces d c 1 part g t with
        | (none, t) => .failed 0x30 t
        | (some bs, t) => fromAcc (s.req a.queue f 1)
            (Acc.forEach (fun p t => vaWrite (s.req a.queue f 1) (p.1.dst % two64) p.2 t) bs t) fun _ t => .done t)
        (groupPieces (entryPieces e.rows e.rowBytes (base + e.off) e.stride (entryVa m e c) e.vaStride)) s = .done s1 →
      exec (.moveStore d c i) s = .next (entryDone m d c true i.toNat s1))
    ∧ (s.entryAt d c false i.toNat 3 a m f e →
      moveGroups (fun g t => match sramPieces d c 2 part g t with
        | (none, t) => .failed 0x30 t
        | (some bs, t) => putPieces d c 2 part bs t)
        (groupPieces (entryPieces e.rows e.rowBytes (base + e.off) e.stride (base + e.va) e.vaStride)) s = .done s1 →
      exec (.moveCopy d c i) s = .next (entryDone m d c false i.toNat s1))
    ∧ (s.entryAt d c false i.toNat 5 a m f e →
      moveGroups (fun g t => putPieces d c 2 part (g.map (fun p => (p, zeros p.len))) t)
        (groupPieces (entryPieces e.rows e.rowBytes 0 0 (base + e.off) e.stride)) s = .done s1 →
      exec (.moveZero d c i) s = .next (entryDone m d c false i.toNat s1))
    ∧ (s.entryAt d c false i.toNat 5 a m f e → ∀ st,
      moveGroups (fun g t => putPieces d c 2 part (g.map (fun p => (p, zeros p.len))) t)
        (groupPieces (entryPieces e.rows e.rowBytes 0 0 (base + e.off) e.stride)) s = .failed st s1 →
      exec (.moveZero d c i) s = .next (settleMove m d c (s1.updClus d c fun x =>
        { x with mv := x.mv.map (fun a => { a with failed := some st }) })))
    ∧ (∀ drain, s.entryAt d c drain i.toNat 4 a m f e →
      exec (.moveFence d c drain i) s = .next (entryDone m d c drain i.toNat s)))

/-- An OPEN (ACTION 0) that passes the checks of its body and of the clusters of both dies, with a route, opens the stream
in every named cluster, and completes at once unless WAIT; without a route it ends with the link-down status 0x0040. A
RELEASE (ACTION 1) of an open, sound stream of its partition whose mark does not move back waits in order, and
RELEASE_APPLY sets the mark once no earlier tile command names the stream, or fails where the mark has moved past it.
The reserved ACTION 3 fails. A CLOSE (ACTION 2) ends the stream in its
clusters. A stall of STALL_US, at least 10 µs, is counted with event 0x06.0x06; one of a non-zero ABORT_MS fails the
stream with status 0x0042. (R236; R237; R239; R240; R243; R244; R128) -/
def Obligations.StreamsOpenReleaseCloseStallAndAbort : Prop :=
  (∀ (q : Qn) (seq : Word64) (s s0 : State) (f : Flight), s.runs q seq 0x40 f →
    let b := dBody f.desc
    let x := s.queue q
    let bad := checkStream x.die b s
    let sender := byteAt b 2 / 4 % 4
    let st : Stream :=
      { gen := s.d2d.streamGen + 1, die := x.die, num := getLE b 4 2, part := x.part, tenant := x.tenant, sender := sender,
        srcHbm := bitOf (byteAt b 2) 1, feed := bitOf (byteAt b 2) 0, length := getLE b 8 8, srcOff := getLE b 0x10 4,
        landOff := getLE b 0x14 4, landBytes := getLE b 0x18 4, srcVa := getLE b 0x20 8, srcStride := getLE b 0x28 8,
        bank := if bitOf (byteAt b 2) 1 then some (s.bank (ptTable x.part)).active else none,
        epoch := if bitOf (byteAt b 2) 1 then (s.bank (ptTable x.part)).epoch else 0, queue := q, seq := seq.toNat,
        waiting := bitOf (byteAt b 3) 0, cls := (streamClusters b).map (fun c => { cl := c, stallFrom := s.now }) }
    let s1 := if bitOf (byteAt b 2) 1 then s.setBank (ptTable x.part) (s.bank (ptTable x.part)).bind else s
    let s2 := { s1 with d2d := { s1.d2d with streams := s1.d2d.streams ++ [st], streamGen := s1.d2d.streamGen + 1 } }
    (f.phase = 0 → byteAt b 0 / 64 = 0 ∨ byteAt b 0 / 64 = 3 → bad ≠ 0 → exec (.streamOpen q seq) s = s.endsWith q seq bad 0)
    ∧ (f.phase = 0 → byteAt b 0 / 64 = 0 → bad = 0 → checkBoth q seq.toNat (byteAt b 0 % 64) (byteAt b 1) sender s = (0, s0) →
      (s.noRoute x.die sender = true → exec (.streamOpen q seq) s = s.endsWith q seq 0x40 0)
      ∧ (s.noRoute x.die sender = false → bitOf (byteAt b 3) 0 = false → exec (.streamOpen q seq) s = s2.endsWith q seq 0 0)
      ∧ (s.noRoute x.die sender = false → bitOf (byteAt b 3) 0 = true →
          exec (.streamOpen q seq) s = .next (s2.updFlight q seq.toNat (fun f => { f with phase := 1 }))))
    ∧ (∀ y : Stream, bad = 0 → checkClusters q seq.toNat (byteAt b 0 % 64) (byteAt b 1) s = (0, s0) →
      streamRefusal x.die x.part (getLE b 4 2) (streamClusters b) s = .inr y →
      (f.phase = 0 → byteAt b 0 / 64 = 1 → y.failed = none → getLE b 8 8 ≤ y.length →
        (∀ c ∈ streamClusters b, ∀ z ∈ y.at? c, z.mark ≤ getLE b 8 8) →
        exec (.streamRelease q seq) s = .next (s.updFlight q seq.toNat (fun f => { f with phase := 1, work := [y.gen] })))
      ∧ (byteAt b 0 / 64 = 2 →
        exec (.streamClose q seq) s = (endStreamIn y.gen 0x41 (streamClusters b) s).endsWith q seq 0 0))
    ∧ (∀ gen : Nat, f.phase = 1 → f.work = [gen] →
      (∀ r ∈ s.tile.runs, r.order < f.order → r.aStream ≠ some gen ∧ r.bStream ≠ some gen) →
      (∀ p ∈ s.host.queues, ∀ g ∈ p.2.flights, ¬ (g.phase = 0 ∧ dOpc g.desc = 0x10)) →
      ((∃ y ∈ s.streamGen gen, ∃ z ∈ y.cls, byteAt b 0 % 64 ≤ z.cl ∧ z.cl < byteAt b 0 % 64 + byteAt b 1 ∧ getLE b 8 8 < z.mark) →
        exec (.streamReleaseApply q seq) s = s.endsWith q seq 1 0)
      ∧ ((∀ y ∈ s.streamGen gen, ∀ z ∈ y.cls, byteAt b 0 % 64 ≤ z.cl → z.cl < byteAt b 0 % 64 + byteAt b 1 → z.mark ≤ getLE b 8 8) →
      exec (.streamReleaseApply q seq) s = (updStream gen (fun y => { y with cls := y.cls.map (fun z =>
        if byteAt b 0 % 64 ≤ z.cl ∧ z.cl < byteAt b 0 % 64 + byteAt b 1 then
          { z with mark := getLE b 8 8, stallFrom := if y.mayLand z then z.stallFrom else s.now }
        else z) }) s).endsWith q seq 0 0)))
  ∧ (∀ (d : Die) (num : BitVec 10) (c : Cluster) (s : State) (x : Stream) (y : StreamCl) (n : Nat),
    s.stream d num.toNat = some x → x.at? c = some y → stallNs x y s = some n →
    (y.stalled = false → 10000 ≤ n → s.rfld (ZG_D2D_WDOG d) 15 0 * 1000 ≤ n →
      exec (.streamStall d num c) s = .next (streamEvent x 6 c (bump (ZG_D2D_STALLS d) 1
        (updStreamCl x.gen c (fun y => { y with stalled := true }) s))))
    ∧ (s.rfld (ZG_D2D_WDOG d) 31 16 ≠ 0 → s.rfld (ZG_D2D_WDOG d) 31 16 * 1000000 ≤ n →
      exec (.streamAbort d num c) s = .next (failStream x.gen 0x42 s)))

/-- Where a write to ZG_CLU_OWN, ZG_CLU_CARVE, ZG_SYN_OWN, ZG_SYN_SEL, ZG_CGO_OWN, ZG_COL_SEL, ZG_HQ_SEL, ZG_ADM_CFG,
ZG_MBX_DOORBELL, ZG_INT_ST, ZG_INT_INJECT, ZG_PWR_ESEL, ZG_PMC_SEL, ZG_MGT_CREAD or ZG_TOP_RSEL passes every check of
R594, the register takes its new value and the effect of its chapter follows. REGISTER_WRITE does so at once for hub
hardware; a write of an emulated register waits in the queue of 64, and EMULATED_WRITE_APPLY applies the oldest one
and answers the reads that waited for it. A write that fails a check at hub hardware is rejected with that kind and
nothing else (an accepted GO is the command BOOT_GO). (R129; R132; R273; R280; R296; R312; R313; R397; R538; R594;
R595) -/
def Obligations.RegisterWritesTakeEffectOrAreRejected : Prop :=
  (∀ (f : Func) (die : Die) (k : Fin 8) (v : Word64) (w : Word32) (r : RegDesc) (s : State),
    (s.accepts f (ZG_CLU_OWN die k) 8 v.toNat r →
      exec (.cluOwnerWrite f die k v) s = .next (s.afterWrite f (ZG_CLU_OWN die k) 8 v.toNat r (aimOwners die k)))
    ∧ (s.accepts f (ZG_CLU_CARVE die) 4 w.toNat r →
      exec (.carveWrite f die w) s = .next (s.afterWrite f (ZG_CLU_CARVE die) 4 w.toNat r
        fun _ _ t => t.setRfld (ZG_CLU_CARVE die) 8 8 1))
    ∧ (s.accepts f (ZG_SYN_OWN die k) 8 v.toNat r →
      exec (.synOwnerWrite f die k v) s = .next (s.afterWrite f (ZG_SYN_OWN die k) 8 v.toNat r (writeSynOwners die k)))
    ∧ (s.accepts f (ZG_SYN_SEL die) 4 w.toNat r →
      exec (.synSelect f die w) s = .next (s.afterWrite f (ZG_SYN_SEL die) 4 w.toNat r
        fun _ new t => snapObject die (bitsOf new 11 0) t))
    ∧ (s.accepts f (ZG_CGO_OWN k) 8 v.toNat r →
      exec (.cgoOwnerWrite f k v) s = .next (s.afterWrite f (ZG_CGO_OWN k) 8 v.toNat r (writeCgoOwners k)))
    ∧ (s.accepts f (ZG_COL_SEL die) 4 w.toNat r →
      exec (.colSelect f die w) s = .next (s.afterWrite f (ZG_COL_SEL die) 4 w.toNat r
        fun _ new t => snapGroup die (bitsOf new 11 0) t))
    ∧ (s.accepts f ZG_HQ_SEL 4 w.toNat r →
      exec (.hqSelect f w) s = .next (s.afterWrite f ZG_HQ_SEL 4 w.toNat r fun _ new t => hqSnapshot f new t))
    ∧ (s.accepts f ZG_ADM_CFG 4 w.toNat r → w.toNat.testBit 31 = true →
      exec (.adminEnable f w) s = .next (s.afterWrite f ZG_ADM_CFG 4 w.toNat r (admCfgEffect f)))
    ∧ (s.accepts f ZG_ADM_CFG 4 w.toNat r → w.toNat.testBit 31 = false →
      exec (.adminDisable f w) s = .next (s.afterWrite f ZG_ADM_CFG 4 w.toNat r (admCfgEffect f)))
    ∧ (∀ on v, v = (setFld (s.regF f ZG_ADM_CFG) 31 29
          (b2n (bitOf (s.regF f ZG_ADM_CFG).toNat 31) * 4 + b2n on * 2)).toNat → s.accepts f ZG_ADM_CFG 4 v r →
      exec (.functionQuiesce f on) s = .next (s.afterWrite f ZG_ADM_CFG 4 v r (admCfgEffect f)))
    ∧ (s.accepts f ZG_MBX_DOORBELL 8 v.toNat r →
      exec (.mbxDoorbell f v) s = .next (s.afterWrite f ZG_MBX_DOORBELL 8 v.toNat r fun _ new t => ringMailbox new t))
    ∧ (s.accepts f (ZG_INT_ST die) 4 w.toNat r →
      exec (.selftestStart f die w) s = .next (s.afterWrite f (ZG_INT_ST die) 4 w.toNat r (testStart die)))
    ∧ (s.accepts f (ZG_INT_INJECT die) 4 w.toNat r →
      exec (.injectArm f die w) s = .next (s.afterWrite f (ZG_INT_INJECT die) 4 w.toNat r fun _ _ t => t))
    ∧ (s.accepts f ZG_PWR_ESEL 4 w.toNat r →
      exec (.pwrEsel f w) s = .next (s.afterWrite f ZG_PWR_ESEL 4 w.toNat r fun _ new t => snapEnergy new t))
    ∧ (s.accepts f (ZG_PMC_SEL die k) 4 w.toNat r →
      exec (.pmcSelect f die k w) s = .next (s.afterWrite f (ZG_PMC_SEL die k) 4 w.toNat r fun _ _ t => pmcPending die k t))
    ∧ (s.accepts f ZG_MGT_CREAD 8 v.toNat r →
      exec (.creadClear f v) s = .next (s.afterWrite f ZG_MGT_CREAD 8 v.toNat r creadClear))
    ∧ (s.accepts f ZG_TOP_RSEL 4 w.toNat r →
      exec (.topRegionSelect f w) s = .next (s.afterWrite f ZG_TOP_RSEL 4 w.toNat r fun _ new t => snapRegion new t)))
  ∧ (∀ (f : Func) (off : BitVec 21) (size : Fin 9) (v : Word64) (r : RegDesc) (s : State),
    let s0 := setShadow f (0, 0) s
    (isHw off.toNat = true → off.toNat ≠ ZG_BOOT_GO → s0.accepts f off.toNat size v.toNat r →
      exec (.registerWrite f ⟨false, off⟩ size v) s =
        .next (s0.afterWrite f off.toNat size v.toNat r (writeEffect f (off.toNat / 8 * 8))))
    ∧ (isHw off.toNat = true ∨ writeKind f off.toNat size v.toNat s0 = 2 → off.toNat ≠ ZG_BOOT_GO →
      writeKind f off.toNat size v.toNat s0 ≠ 0 → s.hasFn f = true →
      exec (.registerWrite f ⟨false, off⟩ size v) s = .next (rejectWrite f off.toNat (writeKind f off.toNat size v.toNat s0)
        (if size.val = 4 then v.toNat % 2 ^ 32 else v.toNat) s0))
    ∧ (isHw off.toNat = false → writeKind f off.toNat size v.toNat s0 ≠ 2 → off.toNat ≠ ZG_BOOT_GO → s0.betony = 1 ∨ s0.betony = 2 →
      s0.ready = true → s0.mgt.emuWrites.length < 64 → s.hasFn f = true →
      exec (.registerWrite f ⟨false, off⟩ size v) s =
        .next { s0 with mgt := { s0.mgt with emuWrites := s0.mgt.emuWrites ++ [⟨f, off.toNat, size, v.toNat⟩] } })
    ∧ (s.hasFn f = false → exec (.registerWrite f ⟨false, off⟩ size v) s = .next s))
  ∧ (∀ (s : State) (w : EmuWrite) (ws : List EmuWrite) (r : RegDesc), s.mgt.emuWrites = w :: ws → s.betony = 1 → s.ready = true →
    let s0 := { s with mgt := { s.mgt with
      emuWrites := ws, emuReads := s.mgt.emuReads.map (fun (x : EmuRead) => if x.fn = w.fn then { x with behind := x.behind - 1 } else x) } }
    s0.accepts w.fn w.off w.size w.value r →
      exec .emulatedWriteApply s =
        .next (answerHeld (s0.afterWrite w.fn w.off w.size w.value r (writeEffect w.fn (w.off / 8 * 8)))))

/-- For every register of the map and every bit: in a RW, LCK or WOS field the bit takes the value written, in a RO or
FUSE field it keeps its value, in a W1C field it stays set only if it was set and is written 0, and in a WO or
reserved field, or in no field, it is zero. (R593) -/
def Obligations.RegisterFieldsTakeTheirAccessTypes : Prop :=
  ∀ r ∈ regTable, ∀ (old new i : Nat),
    (∀ fl ∈ r.fields, fl.2.1 ≤ i → i ≤ fl.1 →
      (newValue r old new).testBit i = match fl.2.2 with
        | .rw | .lck | .wos => new.testBit i
        | .ro | .fuse => old.testBit i
        | .w1c => old.testBit i && !new.testBit i
        | .wo | .rsv => false)
    ∧ ((∀ fl ∈ r.fields, ¬ (fl.2.1 ≤ i ∧ i ≤ fl.1)) → (newValue r old new).testBit i = false)

/-- In every canonical state: after a rejection of kind 1 to 8 the writing function's ZG_REG_ERR holds what it held and
the bit of the kind, ZG_REG_LAST holds kind and offset, ZG_REG_LAST_NS the timebase and ZG_REG_LAST_DATA the value;
nothing but those registers and the log changes (and the PF ring, where a loss of log records is announced), and a log record is pushed only where the same function, offset and
kind was not logged within 100 µs. (R595) -/
def Obligations.RejectedWritesAreCountedRecordedAndChangeNothingElse : Prop :=
  ∀ (f : Func) (off kind value : Nat) (s : State), s.canonical = true → 1 ≤ kind → kind ≤ 8 →
    let t := rejectWrite f off kind value s
    let repeated := (cget (0, 0, 0) s.mgt.lastReject f.val).1 = off ∧ (cget (0, 0, 0) s.mgt.lastReject f.val).2.1 = kind
      ∧ s.now < (cget (0, 0, 0) s.mgt.lastReject f.val).2.2 + 100000
    (repeated ∨ s.mgt.logLoss = 0 ∨ s.logRoom = false → { t with regs := s.regs, mgt := s.mgt } = s)
    ∧ t.regF f ZG_REG_ERR = BitVec.ofNat 64 (Nat.lor (s.regF f ZG_REG_ERR).toNat (2 ^ (kind - 1)))
    ∧ (t.regF f ZG_REG_REJECTS).toNat = ((s.regF f ZG_REG_REJECTS).toNat + 1) % 2 ^ 64
    ∧ (t.regF f ZG_REG_LAST).toNat % 2 ^ 36 = kind * 2 ^ 32 + off % 2 ^ 21
    ∧ t.regF f ZG_REG_LAST_NS = BitVec.ofNat 64 s.now ∧ t.regF f ZG_REG_LAST_DATA = BitVec.ofNat 64 value
    ∧ (∀ k, k ∉ [regKey f ZG_REG_ERR, regKey f ZG_REG_REJECTS, regKey f ZG_REG_LAST, regKey f ZG_REG_LAST_NS,
          regKey f ZG_REG_LAST_DATA, ZG_MGT_LOG_HEAD, ZG_MGT_LOG_LOST] → cget 0 t.regs k = cget 0 s.regs k)
    ∧ (repeated → t.mgt.logFifo = s.mgt.logFifo ∧ t.reg ZG_MGT_LOG_HEAD = s.reg ZG_MGT_LOG_HEAD)
    ∧ (¬ repeated → s.mgt.logFifo.length < 4096 → s.mgt.logLoss = 0 →
        ∃ b, t.mgt.logFifo = s.mgt.logFifo ++ [b]
          ∧ (t.reg ZG_MGT_LOG_HEAD).toNat = ((s.reg ZG_MGT_LOG_HEAD).toNat + 1) % 2 ^ 64)

/-- A Teasel command whose lane is free and whose body and clusters pass their checks runs its operation in every named
cluster; TBLDEF waits while a reader is bound to either bank of a named slot, TBLWRITE while one is bound to the
shadow or a copy-back is pending. In a cluster whose N, regions and map are legal the operation's own function runs on
N records or indices and its result is recorded; where N cannot be read the result is SRAM-uncorrectable. A body that breaks
a check, regions that break one, and OP 11 to 15 end the command with the invalid-descriptor status. (R158; R160; R162; R163; R164; R165; R167; R168; R169; R178) -/
def Obligations.TeaselOperationsRunInEveryNamedCluster : Prop :=
  (∀ (q : Qn) (seq : Word64) (s : State) (f : Flight),
    (s.teaselRuns q seq 0 f → exec (.sort q seq) s = s.teaselEnd q seq f sortRun)
    ∧ (s.teaselRuns q seq 1 f → exec (.bucket q seq) s = s.teaselEnd q seq f bucketRun)
    ∧ (s.teaselRuns q seq 2 f → exec (.gather q seq) s = s.teaselEnd q seq f gatherRun)
    ∧ (s.teaselRuns q seq 3 f → exec (.scatter q seq) s = s.teaselEnd q seq f scatterRun)
    ∧ (s.teaselRuns q seq 4 f → exec (.scatterAdd q seq) s = s.teaselEnd q seq f scatterAddRun)
    ∧ (s.teaselRuns q seq 5 f → exec (.segreduce q seq) s = s.teaselEnd q seq f segreduceRun)
    ∧ (s.teaselRuns q seq 6 f → exec (.union q seq) s = s.teaselEnd q seq f (setRun (fun _ => true) true))
    ∧ (s.teaselRuns q seq 7 f → exec (.intersect q seq) s = s.teaselEnd q seq f (setRun id false))
    ∧ (s.teaselRuns q seq 8 f → exec (.diff q seq) s = s.teaselEnd q seq f (setRun not false))
    ∧ (let cs := s.tslNamed q seq f
       let bank := fun c => s.bank (slotTable (s.queue q).die c (zSlot (dBody f.desc)))
       (s.teaselRuns q seq 9 f → (∀ c ∈ cs, (bank c).readers0 = 0 ∧ (bank c).readers1 = 0) →
         exec (.tbldef q seq) s = s.teaselEnd q seq f tbldefRun)
       ∧ (s.teaselRuns q seq 10 f → (∀ c ∈ cs, (bank c).readers (bank c).shadow = 0 ∧ (bank c).copyPending = false) →
         exec (.tblwrite q seq) s = s.teaselEnd q seq f tblwriteRun))
    ∧ (s.runs q seq 0x30 f → zOp (dBody f.desc) = 0 → 
        laneAhead q f.order false (s.tslNamed q seq f) s = false →
        (checkTeasel (dBody f.desc) s ≠ 0 → exec (.sort q seq) s = s.endsWith q seq (checkTeasel (dBody f.desc) s) 0)
        ∧ (checkTeasel (dBody f.desc) s = 0 → zNSrc (dBody f.desc) = false → regionsBad (dBody f.desc) (zN (dBody f.desc)) = true →
            exec (.sort q seq) s = s.endsWith q seq 1 0))
    ∧ (s.runs q seq 0x30 f → 10 < zOp (dBody f.desc) → exec (.sort q seq) s = s.endsWith q seq 1 0))
  ∧ (∀ (q : Qn) (seq : Word64) (f : Flight) (d c n : Nat) (run : TslCtx → Nat → State → TslRes) (s s1 : State),
    let b := dBody f.desc
    let x := tslContext q seq f d c s
    let t := pmcCount d 3 x.part n s1
    let size := (s.sramWindow q seq.toNat d).2
    let epoch := if x.map.isSome then f.epochOf (slotTable d c (zSlot b)) else 0
    (tslCount x s = (some n, s1) → tslBound b n size = 0 → (x.map.isSome = true → (s.slot d c (zSlot b)).defined = true) →
      tslCluster q seq.toNat f d c run s = ((run x n t).st,
        settleTsl x q epoch (recordFits b (some n) size) (x.leaves s1 (run x n t))))
    ∧ (tslCount x s = (none, s1) → tslCluster q seq.toNat f d c run s =
        (0x30, settleTsl x q epoch (recordFits b none size) { st := 0x30, s := s1 })))

/-- Where the N records can be read and the destination written, SORT answers with success and writes the leading records
of a list that holds the same records in ascending order of key under KORD, or descending with DIR, and in which the
records of each key stand in input order: all of them with CAP = 0, otherwise the first min(N, CAP); OUT_COUNT is how
many it writes. (R162) -/
def Obligations.SortIsStableAndWritesTheFirstCapRecords : Prop :=
  ∀ (x : TslCtx) (n : Nat) (s s1 s3 : State) (bs : List Byte) (all : List (List Byte)),
    let r := rfmtBytes (zRfmt x.b)
    let key := keyRank (zKord x.b) (zRfmt x.b)
    let keep := if zCap x.b = 0 then n else min n (zCap x.b)
    x.get (zSrc x.b) (n * r) s = (some bs, s1) →
    all.Perm (chunksOf r bs) →
    all.Pairwise (fun a b => if zDir x.b = true then key b ≤ key a else key a ≤ key b) →
    (∀ k : Int, all.filter (fun a => decide (key a = k)) = (chunksOf r bs).filter (fun a => decide (key a = k))) →
    sramWrite x.d x.c (x.base + zDst x.b) (all.take keep).flatten 4 x.part
      (x.scratch (if 4096 < n then n * r else 0) s1) = (true, s3) →
    sortRun x n s = { st := 0, out := keep, s := s3 }

/-- For two strictly ascending input sets A and B, the records that UNION, INTERSECT and DIFF write are strictly ascending
and are exactly: A's records and B's records whose key A lacks; A's records whose key B has; A's records whose key B
lacks. An input out of order ends the operation with the malformed-input status and writes nothing. (R167) -/
def Obligations.KeySetOperationsKeepEachKeyOnce : Prop :=
  ∀ (x : TslCtx) (n : Nat) (s s1 s2 s3 : State) (abs bbs : List Byte) (out : List (List Byte)) (keepA : Bool → Bool) (addB : Bool),
    let r := rfmtBytes (zRfmt x.b)
    let key := keyRank (zKord x.b) (zRfmt x.b)
    let A := chunksOf r abs
    let B := chunksOf r bbs
    x.get (zSrc x.b) (n * r) s = (some abs, s1) → x.get (zSrc2 x.b) (zN2 x.b * r) s1 = (some bbs, s2) →
    (¬ (A.Pairwise (fun a b => key a < key b) ∧ B.Pairwise (fun a b => key a < key b)) →
      setRun keepA addB x n s = { st := 0x12, s := s2 })
    ∧ (A.Pairwise (fun a b => key a < key b) → B.Pairwise (fun a b => key a < key b) →
      out.Pairwise (fun a b => key a < key b) →
      (∀ e, e ∈ out ↔ (e ∈ A ∧ keepA (decide (∃ b ∈ B, key b = key e)) = true)
          ∨ (addB = true ∧ e ∈ B ∧ ¬ ∃ a ∈ A, key a = key e)) →
      sramWrite x.d x.c (x.base + zDst x.b) out.flatten 4 x.part s2 = (true, s3) →
      setRun keepA addB x n s = { st := 0, out := out.length, s := s3 })

/-- A flip whose body and clusters pass, with every named slot defined, at the expected epoch if one is given, not
SHADOW_BAD and with no copy-back pending, completes: it changes ACTIVE and steps EPOCH modulo 2^32 in every named slot and
counts them; a body or clusters that break a check end it with their status, an undefined slot, a wrong epoch or SHADOW_BAD
with the state-conflict, epoch-mismatch or SRAM-uncorrectable status, and it flips nothing; it waits, changing nothing, for a
copy-back of a named slot and for the flips and background work it follows (log entry 63). BANKED_COPYBACK with COPY_PENDING
and no reader on the shadow completes: a slot's shadow bytes become the active bank's and no other byte of SRAM changes, a
member list's banks become equal, page tables are copied entry by entry, and COPY_PENDING is 0; a slot's copy that meets an
uncorrectable error leaves it SHADOW_BAD; before, it changes nothing. BANKED_SHADOW_WRITE completes as the waiting TBLWRITE,
HBM_RELEASE, HBM_MAP, HBM_UNMAP, GROUP_MEMBERS or plan does. (R171; R173; R174; R175; R180; R181) -/
def Obligations.FlipsAndCopyBacksSwitchBanksInOneStep : Prop :=
  (∀ (b : Banked) (copy : Bool), (b.flip copy).active = 1 - b.active ∧ (b.flip copy).epoch = (b.epoch + 1) % 2 ^ 32
    ∧ (b.flip copy).copyPending = copy ∧ (b.flip copy).readers0 = b.readers0 ∧ (b.flip copy).readers1 = b.readers1)
  ∧ (∀ (q : Qn) (seq : Word64) (s : State) (f : Flight), s.runs q seq 0x31 f →
    let b := dBody f.desc
    let d := (s.queue q).die
    let cs := s.cmdClusters q seq.toNat (byteAt b 0) (byteAt b 1)
    let rel := relCluster (byteAt b 0) cs
    let all := (cs.map (fun c =>
      ((List.range 16).filter (fun k => bitOf (getLE b 2 2) k)).map (fun k => (c, k)))).flatten
    (flipAhead q f.order cs s = true → exec (.teaselFlip q seq) s = .next s)
    ∧ (flipAhead q f.order cs s = false → checkFlip b s ≠ 0 →
      exec (.teaselFlip q seq) s = s.endsWith q seq (checkFlip b s) 0)
    ∧ (flipAhead q f.order cs s = false → checkFlip b s = 0 → ∀ (st : Nat) (t : State),
      checkClusters q seq.toNat (byteAt b 0) (byteAt b 1) s = (st, t) → st ≠ 0 →
      exec (.teaselFlip q seq) s = (if st = 3 then tslFail d ((s.notOwned q seq.toNat cs).getD (cs.headD 0)) 15 4 q
        (s.queuePart q) t else t).endsWith q seq st 0 ∧ t.banks = s.banks)
    ∧ (flipAhead q f.order cs s = false → checkFlip b s = 0 →
      (checkClusters q seq.toNat (byteAt b 0) (byteAt b 1) s).1 = 0 →
    let undef := fun p : Nat × Nat => !(s.slot d p.1 p.2).defined
    let stale := fun p : Nat × Nat => bitOf (byteAt b 4) 0 && (s.bank (slotTable d p.1 p.2)).epoch != getLE b 8 4
    (∀ p, all.find? undef = some p →
      exec (.teaselFlip q seq) s = (refuseFlip d p.1 6 q s).endsWith q seq 9 (rel p.1))
    ∧ (all.find? undef = none → ∀ p, all.find? stale = some p →
      exec (.teaselFlip q seq) s = (refuseFlip d p.1 5 q s).endsWith q seq 8 (rel p.1))
    ∧ (all.find? undef = none → all.find? stale = none → ∀ p, all.find? (fun p => (s.slot d p.1 p.2).shadowBad) = some p →
      exec (.teaselFlip q seq) s = (refuseFlip d p.1 3 q s).endsWith q seq 0x30 (rel p.1))
    ∧ (all.find? undef = none → all.find? stale = none → (∀ p ∈ all, (s.slot d p.1 p.2).shadowBad = false) →
        (∃ p ∈ all, (s.bank (slotTable d p.1 p.2)).copyPending = true) → exec (.teaselFlip q seq) s = .next s)
    ∧ (all.find? undef = none → all.find? stale = none →
        (∀ p ∈ all, (s.slot d p.1 p.2).shadowBad = false ∧ (s.bank (slotTable d p.1 p.2)).copyPending = false) →
        s.canonical = true → d < 4 → ∃ t : State,
          exec (.teaselFlip q seq) s = (bump (ZG_TSL_FLIPS d) all.length t).endsWith q seq 0 0
          ∧ { t with banks := s.banks, clu := s.clu } = s
          ∧ (∀ p ∈ all, t.bank (slotTable d p.1 p.2) = (s.bank (slotTable d p.1 p.2)).flip (bitOf (byteAt b 4) 1))
          ∧ (∀ k, k ∉ all.map (fun p => slotTable d p.1 p.2) → t.bank k = s.bank k)
          ∧ (bitOf (byteAt b 4) 1 = false → t.clu = s.clu)
          ∧ (bitOf (byteAt b 4) 1 = true → ∀ p ∈ all, t.slot d p.1 p.2 =
              { s.slot d p.1 p.2 with copyBy := some { queue := q, part := s.queuePart q, order := f.order } }))))
  ∧ (∀ (d c kind q : Nat) (s : State), (refuseFlip d c kind q s).banks = s.banks)
  ∧ (∀ (d : Die) (c : Cluster) (k : Fin 16) (s : State),
    let b := s.bank (slotTable d c k)
    let x := s.slot d c k
    let y := x.copyBy.getD { queue := 0xFFFF, part := none, order := 0 }
    let src := if b.active = 0 then x.off0 else x.off1
    let dst := if b.active = 0 then x.off1 else x.off0
    (b.copyPending = false ∨ x.shadowBad = true ∨ b.readers b.shadow ≠ 0 → exec (.bankedCopyback (.slot d c k)) s = .next s)
    ∧ (b.copyPending = true → x.shadowBad = false → b.readers b.shadow = 0 →
      (∀ s1, sramRead d c src (4 * x.nkeys) 4 y.part s = (none, s1) →
        exec (.bankedCopyback (.slot d c k)) s = .next (shadowBad d c k y s1))
      ∧ (∀ bs s1 s2, sramRead d c src (4 * x.nkeys) 4 y.part s = (some bs, s1) →
        (sramWrite d c dst bs 4 y.part s1 = (false, s2) →
          exec (.bankedCopyback (.slot d c k)) s = .next (shadowBad d c k y s2))
        ∧ (sramWrite d c dst bs 4 y.part s1 = (true, s2) →
          exec (.bankedCopyback (.slot d c k)) s = .next (s2.setBank (slotTable d c k) { b with copyPending := false })
          ∧ (s.canonical = true → cwf 0 (s.clus d c).sram = true →
            (∀ i < 4 * x.nkeys, cget 0 (s2.clus d c).sram (dst + i) = cget 0 (s.clus d c).sram (src + i))
            ∧ (∀ a, (a < dst ∨ dst + 4 * x.nkeys ≤ a) → cget 0 (s2.clus d c).sram a = cget 0 (s.clus d c).sram a))))))
  ∧ (∀ (p : Fin 64) (s : State), let b := s.bank (ptTable p)
    (b.copyPending = true → b.readers b.shadow = 0 → exec (.bankedCopyback (.pageTables p)) s =
      .next ((copyTables p s).setBank (ptTable p) { b with copyPending := false }))
    ∧ (b.copyPending = false ∨ b.readers b.shadow ≠ 0 → exec (.bankedCopyback (.pageTables p)) s = .next s))
  ∧ (∀ (g : BitVec 12) (s : State), let b := s.bank (memberTable g.toNat)
    (b.copyPending = true → b.readers b.shadow = 0 → ∃ x : Group,
      exec (.bankedCopyback (.members g)) s = .next ((s.setGroup g.toNat x).setBank (memberTable g.toNat)
        { b with copyPending := false })
      ∧ x.bank0 = (s.group g.toNat).members b.active ∧ x.bank1 = (s.group g.toNat).members b.active
      ∧ { x with bank0 := (s.group g.toNat).bank0, bank1 := (s.group g.toNat).bank1 } = s.group g.toNat)
    ∧ (b.copyPending = false ∨ b.readers b.shadow ≠ 0 → exec (.bankedCopyback (.members g)) s = .next s))
  ∧ (∀ (q : Qn) (seq : Word64) (s : State) (f : Flight),
    (s.teaselRuns q seq 10 f → (∀ c ∈ s.tslNamed q seq f, slotBlocked (s.queue q).die c (zSlot (dBody f.desc)) s = false) →
      exec (.bankedShadowWrite (.command q seq)) s = s.teaselEnd q seq f tblwriteRun)
    ∧ (s.flight q seq.toNat = some f →
      (dOpc f.desc = 0x30 → exec (.bankedShadowWrite (.command q seq)) s = exec (.tblwrite q seq) s)
      ∧ (dOpc f.desc = 0x64 → exec (.bankedShadowWrite (.command q seq)) s = exec (.groupMembers q seq) s)
      ∧ (dOpc f.desc = 0x81 → exec (.bankedShadowWrite (.command q seq)) s = exec (.hbmRelease q seq) s)
      ∧ (dOpc f.desc = 0x82 → exec (.bankedShadowWrite (.command q seq)) s = exec (.hbmMap q seq) s)
      ∧ (dOpc f.desc = 0x83 → exec (.bankedShadowWrite (.command q seq)) s = exec (.hbmUnmap q seq) s)))
  ∧ (∀ (s : State), s.planned = true → s.betony = 1 → exec (.bankedShadowWrite .plan) s = .next (finishPlan s))
  ∧ (∀ (s : State), s.planned = false ∨ s.betony ≠ 1 ∨ s.wfn.forming = none → exec (.bankedShadowWrite .plan) s = .next s)
  ∧ (∀ (s : State) (rs ds : List Nat) (via : Option Nat), s.planned = true → s.betony = 1 →
    s.wfn.forming = some (s.epochs, rs, ds, via) → rs.length ≤ 1024 → cwf 0 s.wfn.routes = true →
    (rs ≠ s.tableOf (s.bank routeTable).active ∨ via ≠ s.twinVia (s.bank routeTable).active) →
    (s.bank routeTable).writeBlocked = false → ∃ t, exec (.bankedShadowWrite .plan) s = .next (flipRoutes t)
      ∧ t.wfn.forming = none ∧ t.wfn.formed = some s.epochs ∧ t.banks = s.banks
      ∧ (∀ i < rs.length, t.routeEntry (s.bank routeTable).shadow i = rs.getD i 0))

/-- With a legal body, clusters its partition owns and none of them running a program or kept for an earlier one,
VECTOR_PROGRAM reads its code through the page tables and starts in each named cluster with that code, fresh masks, flags and contexts, X1 the
number of the cluster among those named, X2 to X5 the four arguments and every other X register zero, at the entry
instruction; a body that breaks a check ends it with the invalid-descriptor status. (R142; R151; R152; R128) -/
def Obligations.VectorProgramsLoadTheirCodeAndStart : Prop :=
  (∀ (q : Qn) (seq : Word64) (s s0 s1 : State) (f : Flight) (code : List Byte), s.runs q seq 0x20 f → f.phase = 0 →
    let b := dBody f.desc
    let cs := s.cmdClusters q seq.toNat (byteAt b 0) (byteAt b 1)
    let p : VProg := { queue := q, seq := seq.toNat, clFirst := byteAt b 0, cls := cs, flagsVa := getLE b 16 8,
                       maxBeats := getLE b 24 8, pc := getLE b 4 2 }
    (checkVectorProgram b s ≠ 0 → exec (.vectorProgram q seq) s = s.endsWith q seq (checkVectorProgram b s) 0)
    ∧ (checkVectorProgram b s = 0 → vaRead (s.req q f 6) (getLE b 8 8) (getLE b 2 2 * 8) s = .ok code s1 →
        checkClusters q seq.toNat (byteAt b 0) (byteAt b 1) s1 = (0, s0) →
        (∀ c ∈ cs, (s.clus (s.queue q).die c).prog = none ∧ s.namedAhead q seq.toNat f 0x20 c = false) →
        exec (.vectorProgram q seq) s = .next (cs.foldl (fun t c => startProg (s.queue q).die c p
            ((List.range 4).map (fun i => getLE b (32 + 8 * i) 8))
            ((List.range (getLE b 2 2)).map (fun i => getLE code (8 * i) 8)) t)
          (s1.updFlight q seq.toNat (fun f => { f with phase := 1 })))))
  ∧ (∀ (d c : Nat) (p : VProg) (a0 a1 a2 a3 : Nat) (code : List Nat) (s : State), s.canonical = true →
      a0 < 2 ^ 64 → a1 < 2 ^ 64 → a2 < 2 ^ 64 → a3 < 2 ^ 64 → p.cls.idxOf c < 2 ^ 64 →
      let x := (startProg d c p [a0, a1, a2, a3] code s).clus d c
      x.prog = some p ∧ x.ibuf = code ∧ x.vstat = 0 ∧ x.masks = [] ∧ x.ctxs = []
      ∧ (List.range 32).map x.xreg = [0, p.cls.idxOf c, a0, a1, a2, a3] ++ List.replicate 26 0
      ∧ x.sram = (s.clus d c).sram ∧ x.vregs = (s.clus d c).vregs)

/-- HBM_ACCESS of a dispatched command of a user queue runs its read or write through the active bank it bound, after the
environment's errors have struck the block and its table line: a read delivers its bytes, a write stores them, a fault
is recorded and fails the command with the status of its kind, and a stopped stack makes it wait, the command itself
unchanged. (R196; R201; R205; R214; R215; R216; R219) -/
def Obligations.HbmAccessesGoThroughThePageTables : Prop :=
  ∀ (q : Qn) (seq : Word64) (unit : Fin 8) (va : Word64) (strike : List SymErr) (line : LineFault) (s : State) (f : Flight),
    s.flight q seq.toNat = some f → isAdmin q = false →
    let rq := s.req q f unit
    let s1 := strikeAccess strike line rq va.toNat s
    (∀ (n : BitVec 16) (bs : List Byte) (t : State), vaRead rq va.toNat n.toNat s1 = .ok bs t →
      exec (.hbmAccess q seq unit va (.read n) strike line) s = .next { t with hbm := { t.hbm with delivered := bs } })
    ∧ (∀ (bs : List Byte) (t : State), vaWrite rq va.toNat bs s1 = .ok () t →
      exec (.hbmAccess q seq unit va (.write bs) strike line) s = .next { t with hbm := { t.hbm with delivered := [] } })
    ∧ (∀ (n : BitVec 16) (k a : Nat) (t : State), vaRead rq va.toNat n.toNat s1 = .fault k a t →
      exec (.hbmAccess q seq unit va (.read n) strike line) s =
        .next (failCommand q seq.toNat (faultStatus k) 0 (recordFault rq k a t)))
    ∧ (∀ (bs : List Byte) (m a : Nat) (t : State), vaWrite rq va.toNat bs s1 = .wait m a t →
      exec (.hbmAccess q seq unit va (.write bs) strike line) s =
        .next (waitAtStack ⟨m, q, seq.toNat, unit, a, none⟩ s1))

/-- In a canonical state, whatever errors stand in the block and whether or not its granule has been written before: after
a write within one 64-byte block goes through, a read of the same bytes by the same requester goes through and gives
them. (R201; R205; R206; R213; R214; R215) -/
def Obligations.HbmWritesReadBack : Prop :=
  ∀ (rq : Req) (va : Nat) (bs : List Byte) (s t : State), s.canonical = true → cwf [] s.hbm.errs = true →
    cwf {} s.hbm.stackSt = true → 0 < bs.length → va % 64 + bs.length ≤ 64 → vaWrite rq va bs s = .ok () t →
    ∃ u, vaRead rq va bs.length t = .ok bs u

/-- In a canonical state, where the entries above it are empty or well formed and the frame is assigned to the partition:
after a page of 64 KiB or 2 MiB is mapped in a bank, a walk of that bank at any offset of the page gives the page's
physical address at that offset and its W; and after the page is cleared the walk gives no translation. The other
partitions and the other bank translate as before. (R193; R194; R196; R200) -/
def Obligations.MappedPagesTranslate : Prop :=
  ∀ (part bank : Nat) (small w : Bool) (va pa off : Nat) (s : State),
    let size := if small then 0x10000 else 0x200000
    s.canonical = true → part < 64 → bank < 2 → va % size = 0 → pa % size = 0 → pa < 2 ^ 40 → va < 2 ^ 41 → off < size →
    (let e1 := s.ptEntry part bank 1 (va / 0x40000000)
     e1 % 2 = 1 → bitsOf e1 63 40 = 0 ∧ bitsOf e1 11 1 = 0) →
    (small = true → let e2 := s.ptEntry part bank 2 (va / 0x200000)
     e2 % 2 = 1 → bitsOf e2 63 40 = 0 ∧ bitsOf e2 7 3 = 0 ∧ bitOf e2 1 = false) →
    let t := mapPage part bank small w va pa s
    (s.frameByte (pa + off) / 128 = 1 → s.frameByte (pa + off) % 64 = part → walk t part bank (va + off) = .ok (pa + off) w)
    ∧ walk (unmapPage part bank small va t) part bank (va + off) = .page
    ∧ (∀ p b v, (p ≠ part ∨ b ≠ bank) → b < 2 → walk t p b v = walk s p b v)

/-- On the physical function's admin queue, with a legal body naming a partition that exists: ASSIGN gives free frames to
the partition; RELEASE unmaps assigned frames in the shadow and clears them; MAP and UNMAP change the shadow bank;
each of the last three waits, and says so, while the shadow has readers or a copy-back is pending. FLIP at the
expected epoch swaps the banks. A wrong body ends the command with the invalid-descriptor status, a wrong epoch with
the epoch-mismatch status and a full pool with the resource-limit status, without that effect. (R192; R198; R199;
R200; R173; R174) -/
def Obligations.HbmAdminCommandsManageFramesAndPages : Prop :=
  ∀ (q : Qn) (seq : Word64) (s : State) (f : Flight),
    let b := dBody f.desc
    let p := aPart b
    let bk := s.bank (ptTable p)
    let gs := framesFrom (aPa b) (aCount b)
    let n := aCount b
    let s1 := s.setBank (ptTable p) { bk with writeWait := false }
    let free := shadowWriteAhead q seq.toNat p s = false ∧ bk.writeBlocked = false
    (s.adminRuns q seq 0x80 f → checkHbmAdmin q b s = 0 → countBad b = false → aPa b % 0x200000 = 0 →
      (∀ g ∈ gs, g < 524288 ∧ s.frame g / 64 = 0) →
      exec (.hbmAssign q seq) s =
        (gs.foldl (fun t g => t.setFrameByte (g / 131072) (g % 131072) (128 + p)) s).endsWith q seq 0 0)
    ∧ (s.adminRuns q seq 0x80 f → checkHbmAdmin q b s ≠ 0 →
      exec (.hbmAssign q seq) s = s.endsWith q seq (checkHbmAdmin q b s) 0)
    ∧ (s.adminRuns q seq 0x81 f → checkHbmAdmin q b s = 0 → countBad b = false → aPa b % 0x200000 = 0 →
      (∀ g ∈ gs, s.frameOf p g = true ∧ g ∉ mappedFrames p bk.active s) → free →
      exec (.hbmRelease q seq) s = (gs.foldl releaseFrame (unmapFrames p bk.shadow gs s1)).endsWith q seq 0 0)
    ∧ (s.adminRuns q seq 0x81 f → checkHbmAdmin q b s = 0 → countBad b = false → aPa b % 0x200000 = 0 →
      (∀ g ∈ gs, s.frameOf p g = true ∧ g ∉ mappedFrames p bk.active s) →
      shadowWriteAhead q seq.toNat p s = false → bk.writeBlocked = true →
      exec (.hbmRelease q seq) s = .next (s.setBank (ptTable p) { bk with writeWait := true }))
    ∧ (s.adminRuns q seq 0x82 f → checkHbmAdmin q b s = 0 → countBad b = false → aPa b % aSize b = 0 → aVa b % aSize b = 0 →
      (∀ i < n, s.frameOf p ((aPa b + i * aSize b) / 0x200000) = true) → aVa b + n * aSize b ≤ 2 ^ 41 → free →
      (aPage64 b = true → ∀ i < n, leafAt p bk.shadow (aVa b + i * aSize b) s1 = false) →
      let t := mapPages p bk.shadow (aPage64 b) (aWrite b) (aVa b) (aPa b) n s1
      exec (.hbmMap q seq) s = if poolFull t then s1.endsWith q seq 5 0 else t.endsWith q seq 0 0)
    ∧ (s.adminRuns q seq 0x83 f → checkHbmAdmin q b s = 0 → countBad b = false → aVa b % aSize b = 0 → free →
      (aPage64 b = true → ∀ i < n, leafAt p bk.shadow (aVa b + i * 0x10000) s1 = false) →
      exec (.hbmUnmap q seq) s = (unmapPages p bk.shadow (aPage64 b) (aVa b) n s1).endsWith q seq 0 0)
    ∧ (s.adminRuns q seq 0x84 f → checkHbmAdmin q b s = 0 → shadowWriteAhead q seq.toNat p s = false → bk.copyPending = false →
      (aExpectEn b = true → bk.epoch ≠ getLE b 4 4 → exec (.hbmFlip q seq) s = s.endsWith q seq 8 0)
      ∧ ((aExpectEn b = true → bk.epoch = getLE b 4 4) → (aCopyback b = true → copybackFull p s = false) →
        exec (.hbmFlip q seq) s = (s.setBank (ptTable p) (bk.flip (aCopyback b))).endsWith q seq 0 0))

/-- A stack's oldest waiting write-back stores the corrected block and clears its errors; refresh is due at the JEDEC
interval, half of it from 85 degrees C; SCRUB_EN's scrub moves to the next block and leaves one without errors as it
is; a good reading up to 125 degrees C is shown and sets the level of its thresholds; at level 3 a stall is raised
after 100 µs, and STOP_ABORT_MS after the stop every waiting command of the stack fails. (R186; R187; R205; R207;
R220; R221; R222) -/
def Obligations.StacksRefreshScrubAndThrottle : Prop :=
  ∀ (m : Fin 16) (s : State),
    let x := s.stack m
    (∀ (b : Nat) (bs : List Nat), x.writeBacks = b :: bs →
      let s1 := s.setStack m { x with writeBacks := bs }
      let errs := cget [] s.hbm.errs b
      let good := match rsDecode errs with
        | .corrected fix => overlay (s.hbmBytes (b * 64) 64) (rsAdd errs fix)
        | _ => s.hbmBytes (b * 64) 64
      let s2 := s1.hbmPut (b * 64) good
      exec (.hbmCeWriteback m) s = .next { s2 with hbm := { s2.hbm with errs := cset [] s.hbm.errs b [] } })
    ∧ (x.refreshAt + (if 85 ≤ s.rfld (stackReg m) 47 40 then Config.refreshNs / 2 else Config.refreshNs) ≤ s.now →
      exec (.hbmRefresh m) s = .next (s.setStack m { x with refreshAt := s.now }))
    ∧ (s.rfld (ZG_HBM_SCRUB (m / 4)) 16 16 = 1 → cget [] s.hbm.errs (paOf m (x.scrubLoc % 64) (x.scrubLoc / 64) / 64) = [] →
      exec (.hbmScrub m []) s = .next (s.setStack m { x with scrubLoc := (x.scrubLoc + 1) % 2 ^ 30 }))
    ∧ (∀ (fix : List (Nat × Nat)), let pa := paOf m (x.scrubLoc % 64) (x.scrubLoc / 64)
      s.rfld (ZG_HBM_SCRUB (m / 4)) 16 16 = 1 → s.present pa = true →
      cget [] s.hbm.errs (pa / 64) ≠ [] → rsDecode (cget [] s.hbm.errs (pa / 64)) = .corrected fix →
      exec (.hbmScrub m []) s = .next (correctBlock 1 pa fix (s.setStack m { x with scrubLoc := (x.scrubLoc + 1) % 2 ^ 30 })))
    ∧ (∀ t : Byte, t.toNat ≤ 125 →
      let s1 := (((countThrottle m s).setStack m { (countThrottle m s).stack m with failedReads := 0 }).setRfld
        (stackReg m) 37 37 0).setRfld (stackReg m) 47 40 t.toNat
      exec (.stackTempRead m (some t)) s = .next (setLevel m (levelOf s1 m t.toNat (s1.rfld (stackReg m) 39 38)) s1))
    ∧ (∀ t cur : Nat, cur ≤ 3 → (s.rfld (ZG_HBM_CTRL (m / 4)) 15 8 ≤ 91) →
      let l := levelOf s m t cur
      l ≤ 3 ∧ (95 ≤ t → l = 3) ∧ (∀ k, 1 ≤ k → k ≤ 3 → levelAt s m k ≤ t → k ≤ l)
      ∧ (∀ k, 1 ≤ k → k ≤ cur → levelEnd s m k < t + 2 → k ≤ l)
      ∧ (1 ≤ l → (∃ j, l ≤ j ∧ j ≤ 3 ∧ levelAt s m j ≤ t) ∨ (l ≤ cur ∧ levelEnd s m l < t + 2)))
    ∧ (s.rfld (stackReg m) 39 38 = 3 → x.stalledRaised = false → x.stoppedAt + 100000 ≤ s.now →
      exec (.stackStalled m) s = .next (raiseEvent
        { cls := 5, code := 4, src := m / 4, log := false, data := m + s.rfld (stackReg m) 47 40 * 64 }
        (s.setStack m { x with stalledRaised := true })))
    ∧ (let ms := s.rfld (ZG_HBM_CTRL (m / 4)) 31 16
       let ws := s.hbm.waits.filter (fun w => w.stack == m.val)
       s.rfld (stackReg m) 39 38 = 3 → x.aborting = false → ms ≠ 0 → x.stoppedAt + ms * 1000000 ≤ s.now →
       let s1 := s.setStack m { x with aborting := true }
       let s2 := { s1 with hbm := { s1.hbm with waits := s.hbm.waits.filter (fun w => w.stack != m.val) } }
       let n := (ws.map (fun w => (w.queue, w.seq))).eraseDups.length
       exec (.stackStopAbort m) s = .next (raiseEvent
         { cls := 5, code := 6, src := m / 4, alarm := 2, log := false, data := m + n * 65536 }
         (ws.foldl (fun t w => failWait w t) s2)))

/-- Dealing a frame puts it, with the next FSEQ and one send, at the end of the replay buffer of one strand that is in
service, holds fewer than 32 frames and has a credit for the class and pool, puts it on that strand's wires with the ACK of
the reverse direction and a credit total, and touches nothing else; where no strand can take it, nothing is sent.
D2D_FRAME_SEND puts an IDLE or PROBE frame on the wires of a strand in service, lets a frame of another unit join those
that wait with its unit's next transaction number, and deals the next; a CTRL frame that a strand can take goes before
all of other classes. A frame off the wires with a right CRC and the expected FSEQ is delivered and steps FSEQ modulo 4096;
one with a wrong FSEQ is discarded, one with a wrong CRC is counted and leaves FSEQ and credits. A frame for another die
joins those that wait for the next end of its route. 200 ns without an ACK, every unacknowledged frame is sent again with
its FSEQ. (R225; R226; R227; R228; R229; R230; R231; R233) -/
def Obligations.FramesAreDealtAcknowledgedAndReplayed : Prop :=
  (∀ (e : Nat) (f : D2dFrame) (s : State),
    let pool := poolOf e f
    ((∀ k < linkStrands (linkOf e), s.canTake e k f.buf pool = false) → dealFrame e f s = none)
    ∧ (∀ k < linkStrands (linkOf e), s.canTake e k f.buf pool = true → ∃ k' t, dealFrame e f s = some t
        ∧ k' < linkStrands (linkOf e) ∧ s.canTake e k' f.buf pool = true ∧ (s.tx e k').replay.length < 32
        ∧ (s.strand (linkOf e) k').st = 1
        ∧ (t.tx e k').replay = (s.tx e k').replay ++ [⟨(s.tx e k').next, 1, pool, f⟩]
        ∧ (t.tx e k').next = ((s.tx e k').next + 1) % 4096
        ∧ cget [] t.d2d.wire (e * 64 + k') = cget [] s.d2d.wire (e * 64 + k')
            ++ [⟨1, (s.tx e k').next, ((s.rx e k').expect + 4095) % 4096, (s.tx e k').turn,
                 cget 0 (s.rx e k').freed (s.tx e k').turn % 128, pool, some f⟩]
        ∧ (∀ e' j, e' * 64 + j ≠ e * 64 + k' → t.tx e' j = s.tx e' j
            ∧ cget [] t.d2d.wire (e' * 64 + j) = cget [] s.d2d.wire (e' * 64 + j))
        ∧ { t with d2d := { t.d2d with tx := s.d2d.tx, turn := s.d2d.turn, wire := s.d2d.wire } } = s))
  ∧ (∀ (e : LinkEnd) (k : Fin 64) (s : State), (s.strand (linkOf e) k).st = 1 →
      exec (.d2dFrameSend e (.idle k)) s = .next (putOnWire e k 0 0 0 none s)
      ∧ exec (.d2dFrameSend e (.probe k)) s = .next (putOnWire e k 2 0 0 none s))
  ∧ (∀ (e : LinkEnd) (u : D2dUnit) (s : State), u.wf = true → u.cls ≠ 1 → s.mayOffer e u.cls u.dest = true →
      let key := seqKey (nodeOf e) u.dest u.cls u.unit.toNat
      let n := cget 0 s.d2d.txn key
      let s1 := { s with d2d := { s.d2d with txn := cset 0 s.d2d.txn key ((n + 1) % 2048) } }
      exec (.d2dFrameSend e (.data u)) s = .next (dealNext e (enqueueFrame e 0
        ⟨u.cls, u.unit.toNat * 2048 + n, u.offset.toNat, u.dest, nodeOf e, 0, 0, u.data, 0⟩ s1)))
  ∧ (∀ (e : LinkEnd) (key : Nat) (s : State), key < 3 → cwf [] s.d2d.out = true → (dealHead e key s).isSome = true →
      ∃ t, exec (.d2dFrameSend e .deal) s = .next t ∧ (∃ key' came f, key' < 3 ∧ s.waiting e 0 key' = (came, f) :: t.waiting e 0 key')
        ∧ ∀ cls hops, 1 ≤ cls → cls ≤ 16 → hops < 3 → t.waiting e cls hops = s.waiting e cls hops)
  ∧ (∀ (e : LinkEnd) (k : Fin 64) (w : WireFrame) (ws : List WireFrame) (s : State),
      cget [] s.d2d.wire (peerEnd e * 64 + k) = w :: ws → (s.strand (linkOf e) k).st = 1 →
      let s0 := { s with d2d := { s.d2d with wire := cset [] s.d2d.wire (peerEnd e * 64 + k) ws } }
      let s1 := takeAck e k w.ack s0
      (∀ f, w.frame = some f →
        let t := s1.tx e k
        let s2 := s1.setTx e k { t with back := cset 0 t.back w.creditKey w.credit }
        (w.fseq = (s2.rx e k).expect → exec (.d2dFrameReceive e k ⟨true, true⟩) s =
          .next (deliverFrame e k w.pool f (s2.setRx e k { s2.rx e k with expect := ((s2.rx e k).expect + 1) % 4096 })))
        ∧ (w.fseq ≠ (s2.rx e k).expect → exec (.d2dFrameReceive e k ⟨true, true⟩) s = .next s2))
      ∧ (∃ t, exec (.d2dFrameReceive e k ⟨false, true⟩) s = .next t ∧ (t.rx e k).expect = (s.rx e k).expect
          ∧ t.d2d.tx = s1.d2d.tx
          ∧ (e.val < 12 → t = bump (ZG_D2D_CRC (endDie e) (portOf e)) 1 (s1.setRx e k { s1.rx e k with
              crcAt := s.now :: (s1.rx e k).crcAt.filter (fun t => decide (s.now < t + 1000000)) })))
      ∧ (e.val < 12 → exec (.d2dFrameReceive e k ⟨false, false⟩) s = .next (bump (ZG_D2D_CRC (endDie e) (portOf e)) 1
          (let s3 := bump (ZG_D2D_ACKBAD (endDie e)) 1 s0
           s3.setRx e k { s3.rx e k with crcAt := s3.now :: (s3.rx e k).crcAt.filter (fun t => decide (s3.now < t + 1000000)) }))))
  ∧ (∀ (e : LinkEnd) (k : Fin 64) (pool : Nat) (f : D2dFrame) (s : State), pool ≠ 0 →
      deliverFrame e k pool f s = enqueueFrame (s.routeEnd (nodeOf e) f.dest) (e * 64 + k + 1) { f with hops := pool } s)
  ∧ (∀ (e : LinkEnd) (k : Fin 64) (s : State), (s.tx e k).replay ≠ [] → (s.tx e k).ackAt + 200 ≤ s.now →
      (s.strand (linkOf e) k).st = 1 → ∃ t, exec (.d2dReplayTimeout e k) s = .next t
        ∧ (t.tx e k).replay = (s.tx e k).replay.map (fun p => { p with sends := p.sends + 1 })
        ∧ (cget [] t.d2d.wire (e * 64 + k)).map (fun w => (w.fseq, w.frame)) =
            (cget [] s.d2d.wire (e * 64 + k)).map (fun w => (w.fseq, w.frame))
              ++ (s.tx e k).replay.map (fun p => (p.fseq, some p.frame))
        ∧ (t.tx e k).ackAt = s.now ∧ (t.tx e k).next = (s.tx e k).next ∧ t.d2d.rx = s.d2d.rx)

/-- A strand in service with RETRAIN_ERR CRC failures within 1 ms, or a frame sent for the eighth time, enters RETRAIN,
counted with its event, and the link is judged. A retrain that succeeds with no more than 4 wires replaced in its
direction replaces them, puts the strand back in service and replays at both ends; one that fails is tried again, and
after the third, or where more wires are bad, the strand is DOWN, its frames wait again for their routes at both ends and
its link is judged: a ring edge with fewer than EDGE_MIN strands goes out of service, a hub link with none in service is
lost. (R232; R233; R234; R235) -/
def Obligations.StrandsRetrainRejoinOrGoDown : Prop :=
  ∀ (e : LinkEnd) (k : Fin 64) (s : State),
    let l := linkOf e
    let x := s.strand l k
    let d := endDie e
    k.val < linkStrands l →
    (x.st = 1 →
      (max 1 (s.rfld (ZG_D2D_CTRL d) 31 24) ≤ ((s.rx e k).crcAt.filter (fun t => decide (s.now < t + 1000000))).length
        ∨ ∃ p ∈ (s.tx e k).replay, 8 ≤ p.sends) →
      let s1 := clearWire l k (s.setStrand l k { x with st := 2 })
      exec (.strandRetrain e k) s = .next (judgeLink l e (refreshPort l (d2dEvent d 1 (portOf e) k 0 0 none
        (bump (ZG_D2D_RETRAIN d) 1 (s1.setRx e k { s1.rx e k with crcAt := [] }))))))
    ∧ (∀ (ok : Bool) (bad : List (Fin 66)), x.st = 2 →
      let n := (x.repaired e).length + bad.length
      ((4 < n ∨ (ok = false ∧ 2 ≤ x.fails)) →
        exec (.strandRetrainDone e k ok bad) s = .next (judgeLink l e (refreshPort l ((linkEnds l).foldl
          (fun t e => redealStrand e k t) (d2dEvent d 3 (portOf e) k 0 0 none
            (s.setStrand l k { x with st := 3, fails := x.fails + 1 }))))))
      ∧ (n ≤ 4 → ok = false → x.fails < 2 →
        exec (.strandRetrainDone e k ok bad) s = .next (s.setStrand l k { x with fails := x.fails + 1 }))
      ∧ (n ≤ 4 → ok = true →
        exec (.strandRetrainDone e k ok bad) s = .next (refreshPort l ((linkEnds l).foldl (fun t e => replayEnd e k t)
          (repairWires e k (bad.map Fin.val) (s.setStrand l k { x with st := 1, fails := 0 }))))))
    ∧ (s.strandsIn l 1 + s.strandsIn l 2 < s.edgeMin d → s.strandsIn l 0 ≠ 64 → l < 4 → s.edgeOut l = false →
        judgeLink l e s = edgeOutOfService l e s)
    ∧ (4 ≤ l → s.strandsIn l 1 = 0 → s.rfld (ZG_D2D_PORT (l - 4) 2) 52 51 ≠ 3 →
        judgeLink l e s = hubLinkLost (l - 4) s)

/-- A submission doorbell that is aligned, names a queue of the function's partition (or the function's admin queue) that
is not DISABLED, and lies above the last accepted value and at most FETCHED_SEQ + 2^SQ_LOG2, becomes DB_SEQ; a
completion doorbell up to CMPL_SEQ becomes CQ_CONSUMED and held records follow; an event doorbell up to the newest
EVT_SEQ written returns room. An unaligned write, a DISABLED queue and a value not above the last count in
ZG_HQ_DB_STALE, a queue of another function in ZG_HQ_DB_DENIED with event 0x01.0x02, and a value too high raises event
0x01.0x03; none of these changes the queue. A virtual function that is not enabled rings nothing. In BAR2, queue Q's
doorbells stand at Q × 16 and Q × 16 + 8, the function's own from 0x10_0000 on, and a read of a doorbell gives the last
value accepted, zero for a queue of another function. (R253; R254; R259; R270; R600) -/
def Obligations.DoorbellsAdvanceAQueueOrAreCounted : Prop :=
  (∀ (f : Func) (q : BitVec 16) (al : Bool) (v : Word64) (s : State),
    let x := s.queue q.toNat
    let mine := f.val ≠ 0 ∧ (s.part (f - 1)).qFirst ≤ q.toNat ∧ q.toNat < (s.part (f - 1)).qFirst + (s.part (f - 1)).qCount
    let high := raiseEvent { cls := 1, code := 3, src := x.die, queue := q.toNat,
                             part := if f.val = 0 then none else some (f - 1), data := v.toNat, log := false } s
    let both := fun i : Instr =>
      (s.hasFn f = false → exec i s = .next s)
      ∧ (s.hasFn f = true → (al = false → exec i s = .next (bumpF f ZG_HQ_DB_STALE 1 s))
      ∧ (al = true → ¬ mine → exec i s = .next (raiseEvent
          { cls := 1, code := 2, queue := q.toNat, data := q.toNat + f * 65536, log := false } (bumpF f ZG_HQ_DB_DENIED 1 s)))
      ∧ (al = true → mine → x.state = .disabled → exec i s = .next (bumpF f ZG_HQ_DB_STALE 1 s)))
    both (.sqDoorbell f q al v) ∧ both (.cqDoorbell f q al v)
    ∧ (s.hasFn f = true → al = true → mine → x.state ≠ .disabled →
      (v.toNat ≤ x.dbSeq → exec (.sqDoorbell f q al v) s = .next (bumpF f ZG_HQ_DB_STALE 1 s))
      ∧ (x.dbSeq < v.toNat → x.fetchedSeq + 2 ^ x.sqLog2 < v.toNat → exec (.sqDoorbell f q al v) s = .next high)
      ∧ (x.dbSeq < v.toNat → v.toNat ≤ x.fetchedSeq + 2 ^ x.sqLog2 →
          exec (.sqDoorbell f q al v) s = .next (s.setQueue q.toNat { x with dbSeq := v.toNat }))
      ∧ (v.toNat ≤ x.cqConsumed → exec (.cqDoorbell f q al v) s = .next (bumpF f ZG_HQ_DB_STALE 1 s))
      ∧ (x.cqConsumed < v.toNat → x.cmplSeq < v.toNat → exec (.cqDoorbell f q al v) s = .next high)
      ∧ (x.cqConsumed < v.toNat → v.toNat ≤ x.cmplSeq →
          exec (.cqDoorbell f q al v) s = .next (writeHeld q.toNat (s.setQueue q.toNat { x with cqConsumed := v.toNat })))))
  ∧ (∀ (f : Func) (v : Word64) (s : State),
    let x := s.queue (65536 + f)
    s.hasFn f = true →
    (x.state ≠ .disabled → x.dbSeq < v.toNat → v.toNat ≤ x.fetchedSeq + 2 ^ x.sqLog2 →
      exec (.adminSqDoorbell f true v) s = .next (s.setQueue (65536 + f) { x with dbSeq := v.toNat }))
    ∧ (x.state = .disabled → exec (.adminSqDoorbell f true v) s = .next (bumpF f ZG_HQ_DB_STALE 1 s))
    ∧ (x.state ≠ .disabled → x.cqConsumed < v.toNat → v.toNat ≤ x.cmplSeq → exec (.adminCqDoorbell f true v) s =
        .next (writeHeld (65536 + f) (s.setQueue (65536 + f) { x with cqConsumed := v.toNat })))
    ∧ ((s.fn f).evConsumed < v.toNat → v.toNat ≤ (s.fn f).evWritten → exec (.eventDoorbell f true v) s =
        .next (announceLost f (s.setFn f { s.fn f with evConsumed := v.toNat })))
    ∧ (v.toNat ≤ (s.fn f).evConsumed → exec (.eventDoorbell f true v) s = .next (bumpF f ZG_HQ_DB_STALE 1 s))
    ∧ exec (.registerWrite f ⟨true, 0x100000#21⟩ 8 v) s = exec (.eventDoorbell f true v) s
    ∧ exec (.registerWrite f ⟨true, 0x100008#21⟩ 8 v) s = exec (.adminSqDoorbell f true v) s
    ∧ exec (.registerWrite f ⟨true, 0x100010#21⟩ 8 v) s = exec (.adminCqDoorbell f true v) s
    ∧ exec (.registerWrite f ⟨true, 0x100018#21⟩ 8 v) s = .next (bumpF f ZG_HQ_DB_STALE 1 s))
  ∧ (∀ (f : Func) (q : BitVec 16) (v : Word64) (s : State), s.hasFn f = true →
    let seen := f.val = 0 ∨ (s.part (f - 1)).qFirst ≤ q.toNat ∧ q.toNat < (s.part (f - 1)).qFirst + (s.part (f - 1)).qCount
    let sq : BitVec 21 := BitVec.ofNat 21 (q.toNat * 16)
    let cq : BitVec 21 := BitVec.ofNat 21 (q.toNat * 16 + 8)
    exec (.registerWrite f ⟨true, sq⟩ 8 v) s = exec (.sqDoorbell f q true v) s
    ∧ exec (.registerWrite f ⟨true, cq⟩ 8 v) s = exec (.cqDoorbell f q true v) s
    ∧ exec (.emuRead f (.bar2 sq) 8) s = .next (answerRead f (0x200000 + sq.toNat) (if seen then (s.queue q.toNat).dbSeq else 0) s)
    ∧ exec (.emuRead f (.bar2 cq) 8) s =
        .next (answerRead f (0x200000 + cq.toNat) (if seen then (s.queue q.toNat).cqConsumed else 0) s))

/-- For a queue that may read descriptors: DESCRIPTOR_FETCH takes the announced ones in order into their lane; one whose
SUBMIT_SEQ is not the expected one is marked for another read after 1 µs, SEQ_REFETCH takes it if it is right then,
and after three reads the slot is given up with the sequence-error status. NOP ends with success and no effect; COPY
moves its bytes between host memory and HBM or within HBM and ends, a wrong body ends it with the invalid-descriptor
status. A held interrupt is sent when its holdoff has passed, and a completion ring full for 100 µs raises event
0x01.0x04 once. (R249; R250; R252; R254; R255; R259; R263; R267; R271; R272) -/
def Obligations.DescriptorsAreFetchedInSubmitOrder : Prop :=
  (∀ (q : Qn) (lane : Bool) (first : Nat) (s : State) (d : List Byte), s.mayFetch q = true →
    let x := s.queue q
    (x.retries = 0 → x.wantSeq lane = some first →
      (∀ (n : Fin 32) (fault : Option (Fin 32)), exec (.descriptorFetch q lane n fault) s =
        .next (fetchN q first lane (fault.map Fin.val) (n.val + 1) s))
      ∧ (x.sqHbm = false → s.hostRead (s.queueFn q) (x.sqBase + first % 2 ^ x.sqLog2 * 128) 128 = d →
        (dSeq d = first → exec (.descriptorFetch q lane 0 none) s = .next (s.setQueue q (x.takeDesc lane first d)))
        ∧ (dSeq d ≠ first → exec (.descriptorFetch q lane 0 none) s =
            .next (s.setQueue q { x with retries := 1, retryAt := s.now, retryLane := lane }))
        ∧ exec (.descriptorFetch q lane 0 (some 0)) s = .next (hostFetchFault q first first s)))
    ∧ (x.retries ≠ 0 → x.retryAt + 1000 ≤ s.now → x.retryLane = lane → x.wantSeq lane = some first → x.sqHbm = false →
      s.hostRead (s.queueFn q) (x.sqBase + first % 2 ^ x.sqLog2 * 128) 128 = d →
      (dSeq d = first → exec (.seqRefetch q false) s = .next (s.setQueue q (x.takeDesc lane first d)))
      ∧ (dSeq d ≠ first → x.retries < 3 →
          exec (.seqRefetch q false) s = .next (s.setQueue q { x with retries := x.retries + 1, retryAt := s.now }))
      ∧ (dSeq d ≠ first → x.retries = 3 → exec (.seqRefetch q false) s = .next (failSlot q first 4 s))))
  ∧ (∀ (f : Func) (v : Fin 2048) (s : State), (s.vector f v).held = true → (s.fn f).bme = true →
      (s.vector f v).sentAt + (s.vector f v).holdoff * 1000 ≤ s.now →
      exec (.intHoldoffExpire f v) s = .next (sendInterrupt f v s))
  ∧ (∀ (q : Qn) (s : State), let x := s.queue q
      x.cqFull = true → x.fullRaised = none → x.fullSince + 100000 ≤ s.now →
      exec (.cqFullTimeout q) s = .next (raiseEvent
        { cls := 1, code := 4, src := if isAdmin q then 4 else x.die, queue := queueField q, part := s.queuePart q,
          data := x.cmplSeq + 1, log := false } (s.setQueue q { x with fullRaised := some (x.cmplSeq + 1) })))
  ∧ (∀ (q : Qn) (seq : Word64) (s : State) (f : Flight),
    (s.runs q seq 0x01 f → (isAdmin q = true → s.betony = 1) → exec (.nop q seq) s = s.endsWith q seq 0 0)
    ∧ (s.runs q seq 0x08 f →
      let b := dBody f.desc
      let src := getLE b 8 8
      let dst := getLE b 16 8
      let n := getLE b 24 8
      let fn := s.queueFn q
      let rq := s.req q f 6
      (checkCopy b ≠ 0 → exec (.copy q seq none) s = s.endsWith q seq (checkCopy b) 0)
      ∧ (checkCopy b = 0 → byteAt b 0 = 0 → (s.fn fn).bme = true → s.hubLost (s.queue q).die = false → ∀ t, vaWrite rq dst (s.hostRead fn src n) s = .ok () t →
          exec (.copy q seq none) s = t.endsWith q seq 0 0)
      ∧ (checkCopy b = 0 → byteAt b 0 = 1 → (s.fn fn).bme = true → s.hubLost (s.queue q).die = false → ∀ bs t, vaRead rq src n s = .ok bs t →
          exec (.copy q seq none) s = (t.hostWrite fn dst bs).endsWith q seq 0 0)
      ∧ (checkCopy b = 0 → byteAt b 0 = 2 → ∀ bs t u, vaRead rq src n s = .ok bs t → vaWrite rq dst bs t = .ok () u →
          exec (.copy q seq none) s = u.endsWith q seq 0 0)))

/-- Of the dispatched commands of a queue with no deferred region, exactly those before the first that has not ended
leave, DONE_SEQ becomes the sequence of the last of them, and each but a QUIET success adds its record to those held,
in order. A held record for which the ring has room is written as the 32 bytes of R264 in the slot CMPL_SEQ + 1 modulo
the ring size, CMPL_SEQ advancing by one. (R258; R264; R266) -/
def Obligations.EndedCommandsLeaveInSubmitOrder : Prop :=
  (∀ (fl : List Flight) (done : Nat) (held : List HeldRec), (∀ f ∈ fl, ∀ e, f.ended = some e → e.noDesc = false) →
    let out := fl.takeWhile (fun f => f.ended.isSome)
    takeEnded [] fl done held =
      (fl.dropWhile (fun f => f.ended.isSome), (out.getLast?.map (fun f => f.seq)).getD done,
       held ++ out.filterMap (fun f => f.ended.bind (fun e =>
        if dQuiet f.desc = true ∧ e.status = 0 then none else some ⟨f.seq, e, dInt f.desc, false, f.binds⟩))))
  ∧ (∀ (q : Nat) (h : HeldRec) (s : State), s.canonical = true → isAdmin q = false →
      let x := s.queue q
      x.held = [h] → x.cqHbm = false → x.cqFull = false → h.ending.noDesc = false →
      x.cmplSeq + 1 ≤ x.cqConsumed + 2 ^ x.cqLog2 → (s.fn (s.queueFn q)).bme = true →
      let t := writeHeld q s
      (t.queue q).cmplSeq = x.cmplSeq + 1 ∧ (t.queue q).held = [] ∧ (t.queue q).doneSeq = x.doneSeq
      ∧ t.hostRead (s.queueFn q) (x.cqBase + (x.cmplSeq + 1) % 2 ^ x.cqLog2 * 32) 32 = recordBytes h (x.cmplSeq + 1) x.die
      ∧ (∀ f a, (f ≠ s.queueFn q ∨ a < x.cqBase + (x.cmplSeq + 1) % 2 ^ x.cqLog2 * 32
            ∨ x.cqBase + (x.cmplSeq + 1) % 2 ^ x.cqLog2 * 32 + 32 ≤ a) → a < 2 ^ 64 →
          x.cqBase + 2 ^ x.cqLog2 * 32 ≤ 2 ^ 64 → t.hostRead f a 1 = s.hostRead f a 1)
      ∧ t.hbm = s.hbm ∧ t.clu = s.clu ∧ t.regs = s.regs)
  ∧ (∀ (h : HeldRec) (cmpl die : Nat), (recordBytes h cmpl die).length = 32
      ∧ getLE (recordBytes h cmpl die) 0 8 = h.seq % 2 ^ 64 ∧ getLE (recordBytes h cmpl die) 8 8 = cmpl % 2 ^ 64
      ∧ getLE (recordBytes h cmpl die) 0x10 8 = h.ending.endNs % 2 ^ 64
      ∧ getLE (recordBytes h cmpl die) 0x18 2 = h.ending.status % 2 ^ 16
      ∧ byteAt (recordBytes h cmpl die) 0x1A = b2n h.ending.repeated * 8 + b2n h.ending.sigBlocked * 4 + b2n h.slow * 2
          + b2n h.ending.unwritten
      ∧ getLE (recordBytes h cmpl die) 0x1C 2 = h.ending.detail % 2 ^ 16
      ∧ getLE (recordBytes h cmpl die) 0x1E 2 = check16 ((recordBytes h cmpl die).take 30) % 2 ^ 16)

/-- With bodies and names that pass: QUEUE_CREATE makes the queue RUNNING with the class, partition, die, rings, vector
and TARGET of its body and every sequence at FIRST_SEQ - 1; QUEUE_DESTROY of a STOPPED or ERROR queue makes it
DISABLED; QUEUE_START makes it RUNNING; QUEUE_STOP and PARTITION_STOP make queues STOPPING and wait, with ABORT ending
their dispatched commands; EVENT_RING_SET sets or removes the function's ring. PARTITION_CREATE, once audited, makes
the partition with its tenant, queues and modes; PARTITION_DESTROY, once audited, disables its queues, closes its
streams and releases its stages, blocks and clusters, and, when no cluster names it and no reader is bound, erases it.
A command that breaks a check ends with that status. (R251; R270; R274; R275; R276; R277; R278; R557) -/
def Obligations.QueueCommandsMoveQueuesThroughTheirStates : Prop :=
  ∀ (q : Qn) (seq : Word64) (s : State) (f : Flight),
    let b := dBody f.desc
    let n := getLE b 0 2
    let x := s.queue n
    (s.adminRuns q seq 0x90 f → partDenied q (byteAt b 2 % 64) = 0 → queueDenied q (getLE b 0 2) s = 0 → createBad b s = false →
      (byteAt b 2 / 64 = 1 → s.privileged (byteAt b 2 % 64) < 4) → targetStatus (getLE b 0x20 2) s = 0 →
      let s1 := abortFlights n 7 s
      let t := s1.setQueue n
        { state := .running, cls := byteAt b 2 / 64, part := byteAt b 2 % 64, tenant := (s1.part (byteAt b 2 % 64)).tenant,
          die := byteAt b 3 % 4, sqHbm := bitOf (byteAt b 3) 5, cqHbm := bitOf (byteAt b 3) 4, intAll := bitOf (byteAt b 3) 3,
          sqLog2 := byteAt b 4, cqLog2 := byteAt b 5, intVec := getLE b 6 2, sqBase := getLE b 8 8, cqBase := getLE b 16 8,
          dbSeq := getLE b 24 8 - 1, fetchedSeq := getLE b 24 8 - 1, mainSeq := getLE b 24 8 - 1, doneSeq := getLE b 24 8 - 1,
          target := getLE b 0x20 2, holdoffUs := byteAt b 0x22 }
      exec (.queueCreate q seq) s = ({ t with power := { t.power with
        eQueue := cset 0 t.power.eQueue n 0, carried := cset (0, 1) t.power.carried n (0, 1) } } : State).endsWith q seq 0 0)
    ∧ (s.adminRuns q seq 0x90 f → partDenied q (byteAt b 2 % 64) = 0 → queueDenied q (getLE b 0 2) s = 0 → createBad b s = true →
      exec (.queueCreate q seq) s = s.endsWith q seq 1 0)
    ∧ (s.adminRuns q seq 0x91 f → checkShort b = 0 → queueDenied q n s = 0 → x.state = .stopped ∨ x.state = .error →
      let s1 := endAttempt n s
      exec (.queueDestroy q seq) s = (dropReaders n (s1.setQueue n { s1.queue n with
        state := .disabled, fetched := [], bad := none, retries := 0, regions := [], unit := none })).endsWith q seq 0 0)
    ∧ (s.adminRuns q seq 0x91 f → checkShort b = 0 → queueDenied q n s = 0 → x.state = .running ∨ x.state = .stopping →
      exec (.queueDestroy q seq) s = s.endsWith q seq 9 0)
    ∧ (s.adminRuns q seq 0x93 f → checkShort b = 0 → queueDenied q n s = 0 → x.state = .stopped ∨ x.state = .error →
      s.dieDown x.die = 0 → targetStatus x.target s = 0 →
      exec (.queueStart q seq) s = (takeBad n (s.setQueue n { x with state := .running, retries := 0 })).endsWith q seq 0 0)
    ∧ (s.runs q seq 0x92 f → f.phase = 0 → adminRefusal q s = 0 → checkShort b = 0 → queueDenied q n s = 0 →
      x.state ≠ .disabled → exec (.queueStop q seq) s =
        .next (stopQueue n (sAbort b) (q, seq.toNat) (s.updFlight q seq.toNat (fun g => { g with phase := 1 }))))
    ∧ (s.runs q seq 0x96 f → f.phase = 0 → adminRefusal q s = 0 → checkShort b = 0 → partDenied q (sPart b) = 0 →
      (s.part (sPart b)).present = true →
      (s.partQueues (sPart b) = [] → exec (.partitionStop q seq) s = s.endsWith q seq 0 0)
      ∧ (s.partQueues (sPart b) ≠ [] → exec (.partitionStop q seq) s = .next (stopPartition (sPart b) (sAbort b)
          (some (q.val, seq.toNat)) (s.updFlight q seq.toNat (fun g => { g with phase := 1 })))))
    ∧ (s.adminRuns q seq 0x97 f → checkShort b = 0 →
      let r := s.fn (q.val - 65536)
      let log2 := getLE b 6 2 % 32
      (getLE b 8 8 = 0 → exec (.eventRingSet q seq) s = (s.setFn (q.val - 65536) { r with evSet := false }).endsWith q seq 0 0)
      ∧ (getLE b 8 8 ≠ 0 → getLE b 8 8 % 4096 = 0 → 6 ≤ log2 → log2 ≤ 16 → (q.val = 65536 → sAbort b = false) →
          getLE b 4 2 < (if q.val = 65536 then 2048 else 64) → 65536 ≤ q.val →
          exec (.eventRingSet q seq) s = (announceLost (q.val - 65536) (s.setFn (q.val - 65536)
            { r with evSet := true, evHbm := sAbort b, evBase := getLE b 8 8, evLog2 := log2, evVec := getLE b 4 2,
                     evConsumed := r.evAssigned })).endsWith q seq 0 0))
    ∧ (s.adminRuns q seq 0x94 f → q.val = 65536 → checkShort b = 0 → createPartBad b s = false → getLE b 4 2 ≠ 0 →
      s.testMode = false → ∀ t, partAudit 0x94 (sPart b) s (getLE b 4 2) = (true, t) →
      let u := zeroAccounts (sPart b) (newRoots (sPart b) ((t.setPart (sPart b)
        { present := true, tenant := getLE b 4 2, qFirst := n, qCount := getLE b 6 2 + 1, det := bitOf (byteAt b 3) 1,
          audit := bitOf (byteAt b 3) 2 }).setBank (ptTable (sPart b)) {}))
      exec (.partitionCreate q seq) s = ({ u with integ := { u.integ with
        chains := cset ([], 0) u.integ.chains (sPart b) ([], 0) } } : State).endsWith q seq 0 0)
    ∧ (s.adminRuns q seq 0x95 f → q.val = 65536 → checkShort b = 0 → (s.part (sPart b)).present = true →
      (f.phase = 0 → ∀ t, partAudit 0x95 (sPart b) s (s.part (sPart b)).tenant = (true, t) →
        exec (.partitionDestroy q seq) s = .next (releaseClusters (sPart b) (releaseBlocks (sPart b) (closeStreams (sPart b)
          (freeStages (sPart b) (disableQueues (sPart b) (t.updFlight q seq.toNat (fun g => { g with phase := 1 }))))))))
      ∧ (f.phase ≠ 0 → clustersName (sPart b) s = false → (s.bank (sPart b)).readers0 = 0 → (s.bank (sPart b)).readers1 = 0 →
        exec (.partitionDestroy q seq) s = (erasePartition (sPart b) s).endsWith q seq 0 0))

/-- FLR_VF, FLR_PF, HOT_RESET and BUS_MASTER_ENABLE complete in every state. FLR_VF resets its virtual function; FLR_PF and
HOT_RESET reset every function, clear VF Enable and ZG_MBX_BUF and lose a mailbox doorbell not yet accepted, the link going
down with the latter. A function that is reset has its event ring removed, Bus Master Enable and its vectors cleared (log entry
23), and each of its queues DISABLED with its dispatched commands aborted; where no command of it was dispatched, nothing
else changes: no partition, page table or byte of memory, and no other function or queue. The registers such a reset resets
take their reset values, ZG_ADM_CFG 0x660 among them, and no register of another function changes. Clearing Bus Master Enable
changes only that; setting it again writes the held event records, counts lost ones, and writes the held completion records
of the function's queues. The physical function's write also carries VF Enable, whose clearing resets every virtual function;
one that is not enabled does not answer. (R250; R282; R283; R596) -/
def Obligations.ResetsDisableTheQueuesOfTheirFunctions : Prop :=
  (∀ (p : Part) (s : State), exec (.flrVf p) s = .next (functionReset (p + 1) s))
  ∧ (∀ s : State,
      let all := fun t : State => let u := (List.range 65).foldl (fun t f => functionReset f t) t
        { u with regs := cclear u.regs (ZG_MBX_BUF 0) (ZG_MBX_RESP 0), host := { u.host with vfEnable := false, doorbell := none } }
      exec .flrPf s = .next (all s)
      ∧ exec .hotReset s = .next (all { s with host := { s.host with linkUp := false } }))
  ∧ (∀ (f : Nat) (s : State), s.canonical = true → cwf (0, 0) s.mgt.shadows = true →
      let t := resetFnRegs f s
      t.regF f ZG_ADM_CFG = 0x660 ∧ t.regF f ZG_ADM_SQ_BASE = 0 ∧ t.regF f ZG_ADM_CQ_BASE = 0 ∧ t.regF f ZG_HQ_SEL = 0
      ∧ t.regF f ZG_REG_ERR = 0 ∧ cget (0, 0) t.mgt.shadows f = (0, 0) ∧ (∀ k, k / 0x200000 ≠ f → cget 0 t.regs k = cget 0 s.regs k)
      ∧ { t with regs := s.regs, mgt := s.mgt } = s)
  ∧ (∀ (f : Nat) (s : State),
      let t := s.setFn f { s.fn f with bme := false, evSet := false, evHeld := [] }
      let u := (t.fnQueues f).foldl (fun t q => disableQueue q t) t
      functionReset f s =
        resetFnRegs f { u with host := { u.host with vectors := cclear u.host.vectors (f * 2048) (f * 2048 + 2048) } })
  ∧ (∀ (q : Nat) (s : State), let x := s.queue q
      let t := abortFlights q 7 ((releaseBanks (x.held.flatMap (·.binds)) s).setQueue q
        { x with state := .disabled, mute := true, held := [], fetched := [], bad := none, retries := 0, cqFull := false,
                 fullRaised := none, stopWaiters := [] })
      ∃ es, disableQueue q s = endAll es (t.setQueue q { t.queue q with regions := [], unit := none })
        ∧ ∀ e ∈ es, (e.queue, e.seq) ∈ x.stopWaiters ∧ e.status = 0 ∧ e.detail = 0)
  ∧ (∀ (f : Nat) (s : State), s.canonical = true →
      (∀ q ∈ s.fnQueues f, (s.queue q).flights = [] ∧ (s.queue q).stopWaiters = [] ∧ (s.queue q).unit = none) →
      let t := functionReset f s
      (∀ q ∈ s.fnQueues f, (t.queue q).state = .disabled ∧ (t.queue q).fetched = [] ∧ (t.queue q).held = []
        ∧ (t.queue q).doneSeq = (s.queue q).doneSeq)
      ∧ (∀ q, q ∉ s.fnQueues f → t.queue q = s.queue q)
      ∧ t.fn f = { s.fn f with bme := false, evSet := false, evHeld := [] } ∧ (∀ g, g ≠ f → t.fn g = s.fn g)
      ∧ t.host.vectors = cclear s.host.vectors (f * 2048) (f * 2048 + 2048)
      ∧ { t.host with fns := s.host.fns, queues := s.host.queues, vectors := s.host.vectors } = s.host
      ∧ { t with regs := s.regs, mgt := s.mgt, banks := s.banks, host := s.host } = s)
  ∧ (∀ (f : Func) (vfs : Bool) (s₀ : State),
      (s₀.hasFn f = false → ∀ on, exec (.busMasterEnable f ⟨on, vfs⟩) s₀ = .next s₀)
      ∧ (s₀.hasFn f = true →
        let r := if vfs = true then s₀ else (List.range 64).foldl (fun t p => functionReset (p + 1) t) s₀
        let s := if f.val = 0 ∧ vfs ≠ s₀.host.vfEnable then { r with host := { r.host with vfEnable := vfs } } else s₀
        exec (.busMasterEnable f ⟨false, vfs⟩) s₀ = .next (s.setFn f { s.fn f with bme := false })
        ∧ ((s.fn f).bme = true → exec (.busMasterEnable f ⟨true, vfs⟩) s₀ = .next (s.setFn f { s.fn f with bme := true }))
        ∧ ((s.fn f).bme = false → exec (.busMasterEnable f ⟨true, vfs⟩) s₀ =
          .next (((s.setFn f { s.fn f with bme := true }).fnQueues f).foldl (fun t q => writeHeld q t)
            (announceLost f (writeHeldEvents f (s.fn f).evHeld (s.setFn f { s.fn f with bme := true })))))))

/-- COMMAND_DISPATCH takes the next ready admin queue in turn, else the user queue of the die whose turn it is, privileged
class before normal before filler, and dispatches the descriptor at the head of its main lane; DEFERRED_DISPATCH
dispatches the next descriptor of a region. A dispatched descriptor joins the flights under way with the next number
in the order of dispatches; one that breaks the header check ends at once with the first status of its steps.
LOAN_GRANT gives the next filler queue whose unit finds WIDTH clusters the lowest-numbered of them; LOAN_END stops the
attempt in every cluster and, once no program of it runs, ends it. (R256; R257; R261; R263; R273; R421; R424; R426;
R427; R428) -/
def Obligations.FrontEndsDispatchInTurnAndLendIdleClusters : Prop :=
  (∀ (die : Die) (s : State) (q : Nat) (d : List Byte), s.mainReady q = some d →
    (nextInTurn (cget 0 s.host.rotation 12) s.readyAdmin = some q →
      exec (.commandDispatch die) s = .next (dispatchMain q d (takeTurn 12 q s)))
    ∧ (s.readyAdmin = [] → s.nextUser die = some q →
      exec (.commandDispatch die) s = .next (dispatchMain q d (takeTurn (turnKey die (s.queue q).cls) q s))))
  ∧ (∀ (die : Die) (s : State) (q : Nat) (d : List Byte) (r : DeferRegion), s.nextUser die = some q → s.laneReady q = some (r, d) →
      exec (.deferredDispatch die) s = .next (takeBad q (dispatchDesc q d true
        ((takeTurn (turnKey die (s.queue q).cls) q (bump (ZG_TRN_DEFER_DISP die) 1 s)).setQueue q { s.queue q with
          regions := (s.queue q).regions.map (fun (y : DeferRegion) =>
            if y.first = r.first then { y with lane := y.lane.drop 1, next := dSeq d + 1 } else y) }))))
  ∧ (∀ (q : Nat) (d : List Byte) (late : Bool) (s : State),
    let early := firstFail [opcodeStatus q (dOpc d), fieldStatus q d]
    let x := s.queue q
    let f : Flight := { seq := dSeq d, desc := d, order := s.host.dispatched + 1, deferred := late,
                        refused := namedNotOwned q d s, noSignal := early != 0, sigBlocked := false,
                        reserved := (s.placeFor q d).getD false, work := if dOpc d = 0xB0 then energySnap q s else [] }
    let joins := fun g : Flight =>
      let s1 := ({ s with host := { s.host with dispatched := s.host.dispatched + 1 } } : State).setQueue q (x.addFlight g)
      if isAdmin q then s1 else pmcCount x.die 0x0C (some x.part) 1 (noteProgress q s1)
    let s2 := joins f
    let s3 := joins { f with noSignal := true, sigBlocked := true }
    (early = 0 → signalStatus q d s = 0 → notReadyStatus q d s = 0 → dispatchDesc q d late s = bindFor q d f s2)
    ∧ (early ≠ 0 → dispatchDesc q d late s = endCommand q (dSeq d) early 0 s2)
    ∧ (early = 0 → signalStatus q d s = 0 → notReadyStatus q d s ≠ 0 →
        dispatchDesc q d late s = endCommand q (dSeq d) (notReadyStatus q d s) 0 s2)
    ∧ (early = 0 → signalStatus q d s ≠ 0 → dispatchDesc q d late s = endCommand q (dSeq d) 3 0 (raiseEvent
        { cls := 1, code := 6, src := if isAdmin q then 4 else x.die, queue := queueField q, part := s3.queuePart q,
          data := dSigObj d, log := false } (bumpF (s3.queueFn q) ZG_HQ_SIG_DENIED 1 s3))))
  ∧ (∀ (q : Nat) (d : List Byte), pfOpcode q (dOpc d) = false →
      (isAdmin q = false → (userBody (dOpc d) = none ↔ opcodeStatus q (dOpc d) = 2))
      ∧ (isAdmin q = true → (adminBody (dOpc d) = none ↔ opcodeStatus q (dOpc d) = 2)))
  ∧ (∀ (last : Nat) (qs : List Nat) (q : Nat), nextInTurn last qs = some q → q ∈ qs)
  ∧ (∀ (die : Die) (s : State) (q : Nat) (u : FillUnit), nextInTurn (cget 0 s.trn.turn die) (s.fillers die) = some q →
      (s.queue q).unit = some u →
      let s1 := s.setQueue q { s.queue q with unit := some { u with pos := 0 } }
      exec (.loanGrant die) s = .next (bump (ZG_TRN_LOANS die) 1
        (((s.lendableTo q die).take u.width).foldl (fun t c => lendCluster q die u.first c t)
          { s1 with trn := { s1.trn with turn := cset 0 s1.trn.turn die (q + 1) } })))
  ∧ (∀ (q : Qn) (s : State) (u : FillUnit), (s.queue q).unit = some u → s.lentKeys q ≠ [] → s.loanDue q = true →
      let t := stopUnitWork q u true ((s.lentKeys q).foldl (fun t k => t.updClus (k / 64) (k % 64)
        (fun x => { x with loan := x.loan.map (fun l => { l with ending := true }) })) s)
      exec (.loanEnd q) s = .next (if t.clu.cl.any (fun p => p.2.prog.any (fun v => v.queue == q.val && u.has v.seq)) then t
        else endAttempt q t))

/-- Each role command in the journal that passes every check and whose audit record is taken stores its role's counter,
has its own effect and response, raises event 0x0E.0x04 and is done with success, in one step. One that fails a check
is done with that check's status, changes no counter and no key, and counts in its role's refusal window; a wrong tag
also counts as an authentication failure, and the sixteenth within 1 s locks the role. The lock ends 1 s later; a
refusal window that has passed is summed up in one audit record. A command whose counter does not exceed the stored
one of its role never passes. (R280; R281; R549; R551; R552; R553; R554; R555; R556; R557) -/
def Obligations.RoleCommandsCommitOnceTheirChecksPass : Prop :=
  (∀ (s s1 : State) (c : List Byte),
    let b := rcBody c
    let j := s.host.mbx
    let t := s1.counted c
    (s.rolePasses 1 c s1 → exec .getInfo s = roleEnds j (infoBytes t) t)
    ∧ (s.rolePasses 2 c s1 → exec .alarmClear s = roleEnds j [] (effectAlarmClear b t))
    ∧ (s.rolePasses 3 c s1 → exec .powerSet s = roleEnds j [] (effectPowerSet b t))
    ∧ (s.rolePasses 4 c s1 → exec .partitionControl s = roleEnds j [] (controlAct (byteAt b 0) (getLE b 1 2) t).2)
    ∧ (s.rolePasses 5 c s1 → exec .auditRead s =
        let (rs, u) := readRecords auditRecord ((List.range 31).map (getLE b 0 8 + ·)) t
        roleEnds j (rs.filterMap id).flatten u)
    ∧ (s.rolePasses 0x10 c s1 → exec .planSet s = roleEnds j [] (adoptPlan b { t with store := { t.store with plan := b } }))
    ∧ (s.rolePasses 0x11 c s1 → exec .limitsSet s = roleEnds j [] (effectLimitsSet b t))
    ∧ (s.rolePasses 0x12 c s1 → exec .keySet s = roleEnds j [] (effectKeySet (rcRole c) (rcCounter c) b t))
    ∧ (s.rolePasses 0x13 c s1 → exec .auditTrim s = roleEnds j [] (t.setRegN ZG_MGT_AUDIT_FLOOR (getLE b 0 8)))
    ∧ (s.rolePasses 0x20 c s1 → exec .testMode s = roleEnds j [] (effectTestMode b t))
    ∧ (∀ t : State, t.canonical = true → let u := effectTestMode b t
        u.testMode = bitOf (byteAt b 0) 0 ∧ u.pins.tapEnabled = bitOf (byteAt b 0) 0
        ∧ (bitOf (byteAt b 0) 0 = false → u.pins.tapReset = true ∧ u.pins.tdoHighZ = true))
    ∧ (s.rolePasses 0x21 c s1 → exec .vtOverride s = roleEnds j [] (effectOverride b t))
    ∧ (s.rolePasses 0x22 c s1 → exec .healthClear s = roleEnds j [] (effectHealthClear b t))
    ∧ (s.rolePasses 0x23 c s1 → exec .fuseProgram s = roleEnds j [] (effectFuse b t)))
  ∧ (∀ (s : State) (step status : Nat), s.host.mbx.phase = 1 → s.roleMayRun = true → rcCheck s.host.mbx.cmd s = (step, status) →
      step ≠ 0 → s.host.mbxHeld.phase ≠ 3 →
      let r := rcRole s.host.mbx.cmd
      let s1 := if step = 6 then noteAuthFail r s.host.mbx.sb s else s
      exec (.mbxCommit true) s = .next (finishRole status [] (if 2 ≤ step then noteRefusal r status s1 else s1)))
  ∧ (∀ (s : State) (c : List Byte), 1 ≤ rcRole c → rcCounter c ≤ s.roleCounter (rcRole c) → (rcCheck c s).1 ≠ 0)
  ∧ (∀ (s : State) (c : List Byte), 1 ≤ rcRole c → rcTagOk c s = false → (rcCheck c s).1 ≠ 0)
  ∧ (∀ (r : Fin 3) (s : State),
      ((s.role (r + 1)).locked = true → (s.role (r + 1)).lockedAt + 1000000000 ≤ s.now →
        exec (.authLockExpire r) s = .next (s.setRole (r + 1) { s.role (r + 1) with locked := false }))
      ∧ ((s.role (r + 1)).windowAt < s.now / 1000000000 → exec (.auditRefusalSummary r) s = .next (closeWindow (r + 1) s)))
  ∧ (∀ (s : State), s.host.mbx.phase = 3 → s.roleMayRun = true →
      exec (.mbxCommit true) s = .next (finishRole s.host.mbx.status s.host.mbx.resp s)
      ∧ exec (.mbxCommit false) s = .next s)

/-- A read of configuration space gives the function's field; one that hub hardware answers gives the register's value; one of an emulated register is held until B0 answers, or
is BUSY after 20 µs. A PMC boundary takes every pending selection; the oldest log record, or else trace record, goes
to its slot; one occurrence in 2^SHIFT of an enabled trace point is kept; an alarm becomes ACTIVE with its notice,
repeats count, and the notice repeats after 100 ms; one with no room in the log engine waits with NOTIFY_PENDING. The management admin commands write the records they name to host
memory. A watchdog restarts Betony, the fourth time within 60 s halts it; a restart that finds its image unchanged
aborts the uncommitted admin commands, resolves the mailbox journal and answers held reads. (R532; R533; R534; R535;
R537; R538; R539; R543; R544; R545; R546; R560) -/
def Obligations.ManagementReadsRecordsAlarmsAndRestarts : Prop :=
  (∀ (f : Func) (off : BitVec 21) (size : Fin 9) (s : State),
    let now : Out := .next (answerRead f off.toNat (readReg f off.toNat size s).1 (readReg f off.toNat size s).2)
    s.hasFn f = true →
    (reachesB0 f off.toNat size = false → exec (.emuRead f (.bar0 off) size) s = now)
    ∧ (reachesB0 f off.toNat size = false → isCounter off.toNat = true → exec (.counterRead f off size) s = now)
    ∧ (reachesB0 f off.toNat size = true → s.b0Absent = false → s.mgt.emuReads.length < 16 → isCounter off.toNat = false →
        exec (.emuRead f (.bar0 off) size) s = .next (answerHeld { s with mgt := { s.mgt with
          emuReads := s.mgt.emuReads ++ [{ fn := f, off := off.toNat, size := size, capture := none, at_ := s.now,
                                           behind := (s.mgt.emuWrites.filter (fun w => w.fn == f.val)).length }] } }))
    ∧ (∀ x : ConfigField, exec (.emuRead f (.config x) size) s = .next (answerRead f 0x400000 (configValue f x s) s)))
  ∧ (∀ s : State, (configValue 0 .classCode s, configValue 0 .firstVfOffset s, configValue 0 .vfStride s, configValue 0 .totalVfs s)
        = (0x120000, 1, 1, 64)
      ∧ (configValue 0 .vsecId s, configValue 0 .vsecRev s, configValue 0 .vsecLength s, configValue 0 .vsecZgId s) = (1, 1, 16, 0))
  ∧ (∀ (s : State) (r : EmuRead), s.mgt.emuReads = [r] → r.at_ + 20000 ≤ s.now →
      exec .emuReadTimeout s = .next (countOverrun (answerBusy r.fn r.off r.size { s with mgt := { s.mgt with emuReads := [] } })))
  ∧ (∀ (die : Die) (s : State), exec (.pmcBoundary die) s =
      .next ((List.range 8).foldl (fun t k => pmcTake die k (t.replicaOf die / 1000 * 1000) t) s))
  ∧ (∀ (s : State) (r : List Byte) (rs : List (List Byte)),
      s.hubLost 0 = false →
      (s.mgt.logFifo = r :: rs → exec .logRecordWrite s =
        .next (sendPending (paWrite (mgmtBase 0 + getLE r 0 8 % 2 ^ 20 * 64) r { s with mgt := { s.mgt with logFifo := rs } })))
      ∧ (s.mgt.logFifo = [] → s.mgt.traceFifo = r :: rs →
        let n := (s.reg ZG_MGT_TRACE_HEAD).toNat + 1
        exec .logRecordWrite s = .next (paWrite (mgmtBase 0 + 0x4000000 + n % 2 ^ 23 * 32) r
          { s.setRegN ZG_MGT_TRACE_HEAD n with mgt := { s.mgt with traceFifo := rs } })))
  ∧ (∀ (tp : Fin 4096) (src : BitVec 7) (a b : Word64) (s : State) (x : TracePoint), cget {} s.mgt.traces tp = x → x.enable = true →
      let m := { s.mgt with traces := cset {} s.mgt.traces tp { x with occ := x.occ + 1 } }
      (x.occ % 2 ^ x.shift = 0 → s.mgt.traceFifo.length < 4096 → exec (.traceOccurrence tp src a b) s = .next { s with mgt := { m with
        traceFifo := s.mgt.traceFifo ++ [traceBytes s.now tp src.toNat ((x.occ + 1) % 2 ^ 32) a.toNat b.toNat] } })
      ∧ (x.occ % 2 ^ x.shift ≠ 0 → exec (.traceOccurrence tp src a b) s = .next (bump ZG_MGT_TR_SAMPLED 1 { s with mgt := m })))
  ∧ (∀ (cls : Fin 15) (code : Byte) (src : Fin 5) (data : Word64) (p : Option Part) (sev : Fin 3) (s : State),
      let slot := alarmSlot (cls + 1) code.toNat src
      let e : Ev := { cls := cls + 1, code := code.toNat, src := src, data := data.toNat, part := p.map Fin.val, alarm := sev + 1 }
      let i : Instr := .alarmOccurrence cls code src data none p sev
      let a := s.alarm slot
      (a.active = true → exec i s = .next (s.setAlarm slot { a with
        count := min (a.count + 1) (2 ^ 32 - 1), lastNs := s.now, data := data.toNat, queue := 65535, part := partByte e.part,
        since := a.since + 1 }))
      ∧ (a.active = false → exec i s = .next (requestIbi (sev + 1) (refreshAlert (alarmNotice e 1 false (s.setAlarm slot { a with
        active := true, everUsed := true, firstNs := s.now, lastNs := s.now, count := 1, severity := sev + 1, data := data.toNat,
        queue := 65535, part := partByte e.part, noticeAt := s.now, since := 0 }))))))
  ∧ (∀ (s : State) (k : Nat) (a : Alarm), s.mgt.alarms = [(k, a)] → a.active = true → a.since ≠ 0 → a.pending = none →
      a.noticeAt + 100000000 ≤ s.now → exec .alarmNoticeRepeat s =
        .next (alarmNotice (alarmEv k a) a.count true (s.setAlarm k { a with noticeAt := s.now, since := 0 })))
  ∧ (∀ (e : Ev) (n : Nat) (c : Bool) (s : State), s.logRoom = false →
      let slot := alarmSlot e.cls e.code e.src
      alarmNotice e n c s = s.setAlarm slot { s.alarm slot with pending := some c })
  ∧ (∀ (q : Qn) (seq : Word64) (s : State) (f : Flight),
      let b := dBody f.desc
      let ns := (List.range (mCount b)).map (· + mFirst b)
      let reads := fun (i : Instr) (opc : Nat) (held : Nat → State → Option (List Byte) × State) => s.adminRuns q seq opc f →
        checkMgt q b true = 0 → (s.fn 0).bme = true → ∃ skipped ≤ 65535,
          let (rs, t) := readRecords held ns s
          exec i s = (t.hostWrite 0 (mDst b) (rs.filterMap id).flatten).endsWith q seq 0 skipped
      reads (.mgtLogRead q seq) 0xD0 logRecord ∧ reads (.mgtTraceRead q seq) 0xD2 traceRecord
      ∧ reads (.mgtAuditRead q seq) 0xD4 auditRecord
      ∧ (s.adminRuns q seq 0xD1 f → checkMgt q b false = 0 → mFirst b + mCount b ≤ 4096 →
          exec (.mgtTraceCfg q seq) s = ({ s with mgt := { s.mgt with traces := (List.range (mCount b)).foldl (fun m i =>
            cset {} m (mFirst b + i) { enable := bitOf (byteAt b 12) 1, shift := bitsOf (byteAt b 12) 6 2 }) s.mgt.traces } }
              : State).endsWith q seq 0 0)
      ∧ (s.adminRuns q seq 0xD3 f → checkMgt q b true = 0 → (s.fn 0).bme = true →
          let out := (s.mgt.alarms.filter (fun p => decide (mFirst b ≤ p.1) && decide (p.1 < 19200) && p.2.everUsed
            && (!bitOf (byteAt b 12) 0 || p.2.active))).take (mCount b)
          exec (.mgtAlarmRead q seq) s = (s.hostWrite 0 (mDst b) (out.map (fun p => alarmBytes p.1 p.2)).flatten).endsWith q seq 0
            (min out.length 65535)))
  ∧ (∀ (core : Fin 8) (cause : Fin 3) (s : State), s.betony = 1 → s.warmRunning = false →
      let recent := (s.now :: s.mgt.restarts.filter (fun t => decide (s.now ≤ t + 60000000000))).take 4
      let s1 := bump ZG_MGT_RESTARTS 1 s
      let s2 := { s1 with mgt := { s1.mgt with restarts := recent, restartCore := core, restartCause := cause } }
      let s3 := mgtEvent 1 (restartData ((s2.setRfld ZG_MGT_STATE 2 0 2).setRfld ZG_MBX_STATUS 2 0 3)) 2
        ((s2.setRfld ZG_MGT_STATE 2 0 2).setRfld ZG_MBX_STATUS 2 0 3)
      (recent.length < 4 → exec (.betonyWatchdog core cause) s = .next s3)
      ∧ (recent.length = 4 → exec (.betonyWatchdog core cause) s = .next (haltBetony s3)))
  ∧ (∀ s : State, s.betony = 2 → s.stage ≠ 12 →
      ((imageOk s).1 = true →
        let s1 := (imageOk s).2.setRfld ZG_MGT_STATE 2 0 1
        exec .betonyRestartDone s =
          .next (answerHeld (resolveJournal (s1.uncommitted.foldl (fun t c => endCommand c.1 c.2 7 0 t) s1))))
      ∧ ((imageOk s).1 = false → exec .betonyRestartDone s = .next (haltBetony (imageOk s).2)))

/-- ENTDAA gives an address where none is assigned, SETDASA one to the static address of the straps, RSTDAA drops it, ENEC
and DISEC set in-band interrupts, RSTACT the reset action, and the GET codes answer. SB_STATUS answers the 32 bytes of
R564 and ends a waiting interrupt, SB_ALARMS up to three records, SB_CMD_LOAD fills the command buffer up to 4,096
bytes, SB_CMD_EXEC puts its command in the journal with the next sideband sequence or answers busy, and RESULT,
AUDIT_READ and PLAN_READ answer while Betony runs; they answer result 1 while it restarts and 2 while it is HALTED, when
PARTITION_CONTROL of the operator still enters the journal. None is heard while RESET_N is low or the rails are off.
(R561; R562; R563; R564) -/
def Obligations.SidebandCommandsAnswer : Prop :=
  (∀ s : State, s.sbUp = true →
    (∀ a : BitVec 7, s.mgt.sbDynAddr = none →
      exec (.i3cCcc (.entdaa a)) s = .next { s with mgt := { s.mgt with sbDynAddr := some a.toNat } }
      ∧ (∀ st : BitVec 7, st.toNat = 0x58 + s.pins.straps % 4 →
          exec (.i3cCcc (.setdasa st a)) s = .next { s with mgt := { s.mgt with sbDynAddr := some a.toNat } }))
    ∧ exec (.i3cCcc .rstdaa) s = .next { s with mgt := { s.mgt with sbDynAddr := none } }
    ∧ exec (.i3cCcc (.enec 1)) s = .next { s with mgt := { s.mgt with sbIbiEn := true } }
    ∧ exec (.i3cCcc (.disec 1)) s = .next { s with mgt := { s.mgt with sbIbiEn := false } }
    ∧ exec (.i3cCcc .getpid) s = .next { s with mgt := { s.mgt with sbAnswer := (natLE 6 (s.reg ZG_ID_SERIAL).toNat).reverse } }
    ∧ exec (.i3cCcc .getmwl) s = .next { s with mgt := { s.mgt with sbAnswer := (natLE 2 s.mgt.sbMaxWrite).reverse } }
    ∧ (∀ b : Byte, exec (.i3cCcc (.rstact b)) s = .next { s with mgt := { s.mgt with sbRstAct := b.toNat } })
    ∧ exec .sbStatus s = .next (sbReply 0 (sbStatusBytes s) { s with mgt := { s.mgt with ibiWaiting := false } })
    ∧ (sbStatusBytes s).length = 32
    ∧ (∀ slot : BitVec 16, let xs := (s.mgt.alarms.filter (fun p => decide (slot.toNat ≤ p.1) && p.2.everUsed)).take 3
        exec (.sbAlarms slot) s = .next (sbReply 0 (xs.map (fun p => alarmBytes p.1 p.2)).flatten s))
    ∧ (∀ (off : BitVec 16) (data : List Byte),
        (data.length ≤ 251 → off.toNat + data.length ≤ 4096 → exec (.sbCmdLoad off data) s =
          .next (sbReply 0 [] { s with mgt := { s.mgt with sbBuf := csetList 0 s.mgt.sbBuf off.toNat data } }))
        ∧ (4096 < off.toNat + data.length → exec (.sbCmdLoad off data) s = .next (sbReply 2 [] s)))
    ∧ (∀ len : BitVec 16, s.betony = 1 → len.toNat ≤ 4096 →
        (s.host.mbx.phase ≠ 0 → exec (.sbCmdExec len) s = .next (sbReply 1 [] s))
        ∧ (s.host.mbx.phase = 0 → let n := (s.mgt.sbSeq + 1) % 2 ^ 32
            exec (.sbCmdExec len) s = .next (sbReply 0 [] { s with
              host := { s.host with mbx := { phase := 1, cmd := cgetList 0 s.mgt.sbBuf 0 len.toNat, sb := true, seq := n } },
              mgt := { s.mgt with sbSeq := n } })))
    ∧ (s.betony = 1 → (s.host.mbx.phase ≠ 0 → s.host.mbx.sb = false) → ∀ off : BitVec 16, exec (.sbCmdResult off) s =
        .next (sbReply 0 (natLE 4 s.mgt.sbSeq ++ natLE 2 s.mgt.sbStatus ++ (s.mgt.sbResp.drop off.toNat).take 246) s))
    ∧ (s.betony = 1 → ∀ aseq : Word64,
        (∀ r t, auditRecord aseq.toNat s = (some r, t) → exec (.sbAuditRead aseq) s = .next (sbReply 0 r t))
        ∧ (∀ t, auditRecord aseq.toNat s = (none, t) → exec (.sbAuditRead aseq) s = .next (sbReply 2 [] t)))
    ∧ (s.betony = 1 → exec .sbPlanRead s = .next (sbReply 0 (s.wfn.plan ++ natLE 8 (s.reg ZG_TOP_PLAN).toNat) s))
    ∧ (s.betony = 3 → exec .sbPlanRead s = .next (sbReply 2 [] s) ∧ ∀ a, exec (.sbAuditRead a) s = .next (sbReply 2 [] s))
    ∧ (s.betony = 2 → exec .sbPlanRead s = .next (sbReply 1 [] s))
    ∧ (∀ len : BitVec 16, let cmd := cgetList 0 s.mgt.sbBuf 0 len.toNat
        s.betony = 3 → len.toNat ≤ 4096 → rcRole cmd = 1 → rcMcmd cmd = 4 → s.host.mbx.phase ≠ 0 → s.host.mbx.sb = false →
        ∃ t, exec (.sbCmdExec len) s = .next t ∧ t.host.mbx.cmd = cmd ∧ t.host.mbx.phase = 1 ∧ t.roleMayRun = true
          ∧ t.host.mbxHeld = s.host.mbx))
  ∧ (∀ s : State, s.sbUp = false → ∀ i ∈ [Instr.i3cCcc .rstdaa, .sbStatus, .sbAlarms 0, .sbCmdLoad 0 [], .sbCmdExec 0, .sbCmdResult 0,
      .sbAuditRead 0, .sbPlanRead], exec i s = .next s)

/-- At an object its tenant may use, SET stores the operand, ADD and SUB saturate and set OVERFLOW or UNDERFLOW, MAX keeps
the greater, ARRIVE adds its weight or completes the generation with any excess discarded, CLEAR_FAIL clears the three
flags. The signal of a failed command also sets FAILED. The waits that the new value satisfies end; every other object
keeps its value. What the table calls misuse leaves the object as it was (but for FAILED from a failed command),
counts and raises an event. An object of another tenant, or unowned, refuses every operation and counts it. (R287;
R288; R289; R290; R291; R292; R294; R295) -/
def Obligations.SynchronisationOperationsFollowTheirTable : Prop :=
  ∀ (q : Qn) (obj : BitVec 14) (v : Word32) (failed : Bool) (s : State) (x : SynObj),
    let o := obj.toNat
    let n := v.toNat
    (s.synReaches q o x →
      (x.barrier = false →
        s.synTurns o { x with value := n, failed := failed } (exec (.syncOpSet q obj v failed) s)
        ∧ (x.value + n < 2 ^ 32 →
            s.synTurns o { x with value := x.value + n, failed := x.failed || failed } (exec (.syncOpAdd q obj v failed) s))
        ∧ (2 ^ 32 ≤ x.value + n →
            s.synTurns o { x with value := 2 ^ 32 - 1, overflow := true, failed := x.failed || failed }
              (exec (.syncOpAdd q obj v failed) s))
        ∧ (n ≤ x.value →
            s.synTurns o { x with value := x.value - n, failed := x.failed || failed } (exec (.syncOpSub q obj v failed) s))
        ∧ (x.value < n →
            s.synTurns o { x with value := 0, underflow := true, failed := x.failed || failed } (exec (.syncOpSub q obj v failed) s))
        ∧ s.synTurns o { x with value := max x.value n, failed := x.failed || failed } (exec (.syncOpMax q obj v failed) s)
        ∧ s.synMisused q 5 o x failed (exec (.syncOpArrive q obj v failed) s))
      ∧ (x.barrier = true →
        (n < x.target → s.synTurns o { x with value := n, failed := failed } (exec (.syncOpSet q obj v failed) s))
        ∧ (x.target ≤ n → s.synMisused q 1 o x failed (exec (.syncOpSet q obj v failed) s))
        ∧ s.synMisused q 2 o x failed (exec (.syncOpAdd q obj v failed) s)
        ∧ s.synMisused q 3 o x failed (exec (.syncOpSub q obj v failed) s)
        ∧ s.synMisused q 4 o x failed (exec (.syncOpMax q obj v failed) s)
        ∧ (n = 0 → s.synMisused q 5 o x failed (exec (.syncOpArrive q obj v failed) s))
        ∧ (n ≠ 0 → x.value + n < x.target →
            s.synTurns o { x with value := x.value + n, failed := x.failed || failed } (exec (.syncOpArrive q obj v failed) s))
        ∧ (n ≠ 0 → x.value + n = x.target →
            s.synTurns o { x with gen := (x.gen + 1) % 65536, value := 0, failed := x.failed || failed }
              (exec (.syncOpArrive q obj v failed) s))
        ∧ (n ≠ 0 → x.target < x.value + n →
            s.synTurns o { x with gen := (x.gen + 1) % 65536, value := 0, overflow := true, failed := x.failed || failed }
              (exec (.syncOpArrive q obj v failed) s)))
      ∧ s.synTurns o { x with failed := failed, overflow := false, underflow := false } (exec (.syncOpClearFail q obj v failed) s))
    ∧ (s.synAccepts (s.queueTenant q) o = false →
        ∀ i ∈ [Instr.syncOpSet q obj v failed, .syncOpAdd q obj v failed, .syncOpSub q obj v failed, .syncOpMax q obj v failed,
          .syncOpArrive q obj v failed, .syncOpClearFail q obj v failed],
          exec i s = .next (synBlocked { syncReqOf q s with failed := failed } o s))

/-- Each command whose body is legal and whose objects its tenant may use has its effect, a signal after the earlier ones of
its front end to the same object. SYNC_WAIT and SYNC_ARRIVE_WAIT
end at once where their wait is satisfied and wait otherwise, until a timeout ends them. SYNC_CONFIG and SYNC_RESTORE
set exactly the named objects; a saved record restores the object it was made from. SYNC_REMOTE sends its operation
and its queue waits; the operation is applied and answered by the other package, and the answer or a timeout ends the
command. A partition all of whose active queues on a die have been blocked for the interval is reported once, and the
report changes no queue, wait, object or group. (R298; R300; R301; R302; R303; R304; R308; R309) -/
def Obligations.SynchronisationCommandsSignalWaitConfigureAndSave : Prop :=
  (∀ (q : Qn) (seq : Word64) (s : State) (f : Flight),
    let b := dBody f.desc
    let o := getLE b 0 2
    let n := getLE b 2 2
    (s.runs q seq 0x50 f → checkSyncSignal b = 0 → s.syncAhead q f o = true → exec (.syncSignal q seq) s = .next s)
    ∧ (s.runs q seq 0x50 f → checkSyncSignal b = 0 → s.syncAhead q f o = false → ∀ (t : State) (es : List Ending),
      (synOp (syncReqOf q s) o (byteAt b 2) (getLE b 4 4) s = (.applied, t, es) →
        exec (.syncSignal q seq) s = .next (endWith q seq.toNat 0 0 es t))
      ∧ (synOp (syncReqOf q s) o (byteAt b 2) (getLE b 4 4) s = (.misuse, t, es) →
        exec (.syncSignal q seq) s = .next (endWith q seq.toNat 0 1 es t))
      ∧ (synOp (syncReqOf q s) o (byteAt b 2) (getLE b 4 4) s = (.blocked, t, es) →
        exec (.syncSignal q seq) s = .next (endWith q seq.toNat 3 0 es t)))
    ∧ (s.runs q seq 0x51 f → checkSyncWait b = 0 → s.synAccepts (s.queueTenant q) o = true → s.dieDown (o / 4096) = 0 →
      let w : SynWait := ⟨q, seq.toNat, o, byteAt b 2, getLE b 4 4, byteAt b 3 == 1, getLE b 8 4, s.now⟩
      (∀ st, waitResult (s.synObj o) w = some st → exec (.syncWait q seq) s = s.endsWith q seq st 0)
      ∧ (waitResult (s.synObj o) w = none → (∀ x ∈ s.syn.waits, ¬(x.queue = q.val ∧ x.seq = seq.toNat)) →
        exec (.syncWait q seq) s = .next (noteRun q { s with syn := { s.syn with waits := s.syn.waits ++ [w] } })))
    ∧ (s.runs q seq 0x52 f → f.phase ≠ 0 → exec (.syncArriveWait q seq) s = .next s)
    ∧ (s.runs q seq 0x52 f → f.phase = 0 → checkSyncArriveWait b = 0 → s.syncAhead q f o = false → s.synAccepts (s.queueTenant q) o = true → s.dieDown (o / 4096) = 0 →
      ((s.synObj o).barrier = false → exec (.syncArriveWait q seq) s = s.endsWith q seq 9 0)
      ∧ ((s.synObj o).barrier = true → ∃ t es,
          synOp (syncReqOf q s) o 5 (getLE b 4 4) (s.updFlight q seq.toNat (fun f => { f with phase := 1 })) = (.applied, t, es)
          ∧ exec (.syncArriveWait q seq) s = .next (registerWait
              ⟨q, seq.toNat, o, 2, (s.synObj o).gen, byteAt b 3 == 1, getLE b 8 4, t.now⟩ (endAll es t))))
    ∧ (s.runs q seq 0x53 f → checkSyncConfig b = 0 → (∀ k < n, s.synAccepts (s.queueTenant q) (o + k) = true) →
      s.dieDown (o / 4096) = 0 → cwf {} s.syn.objs = true →
      (anyWaiter o n s = true → exec (.syncConfig q seq) s = s.endsWith q seq 0x0102 0)
      ∧ (anyWaiter o n s = false → ∃ t, exec (.syncConfig q seq) s = .next (endCommand q seq.toNat 0 0 t)
          ∧ (∀ k < n, t.synObj (o + k) = { value := getLE b 12 4, target := getLE b 8 4, barrier := byteAt b 4 == 1 })
          ∧ (∀ i, ¬(o ≤ i ∧ i < o + n) → t.synObj i = s.synObj i)
          ∧ { t with syn := { t.syn with objs := s.syn.objs } } = s))
    ∧ (s.runs q seq 0x54 f → checkSyncSave b = 0 → (∀ k < n, s.synAccepts (s.queueTenant q) (o + k) = true) →
      s.dieDown (o / 4096) = 0 → ∀ (u : Unit) (t : State),
        vaWrite (s.req q f 6) (getLE b 8 8) ((List.range n).map (fun k => saveBytes (o + k) (s.synObj (o + k)))).flatten s = .ok u t →
        exec (.syncSave q seq) s = .next (endCommand q seq.toNat 0 0 t))
    ∧ (s.runs q seq 0x55 f → checkSyncSave b = 0 → (∀ k < n, s.synAccepts (s.queueTenant q) (o + k) = true) →
      s.dieDown (o / 4096) = 0 → ∀ (bs : List Byte) (t : State), vaRead (s.req q f 6) (getLE b 8 8) (n * 16) s = .ok bs t →
        cwf {} t.syn.objs = true →
        ((∃ k < n, saveBad ((bs.drop (k * 16)).take 16) = true) → exec (.syncRestore q seq) s = .next (endCommand q seq.toNat 0x12 0 t))
        ∧ ((∀ k < n, saveBad ((bs.drop (k * 16)).take 16) = false) → anyWaiter o n t = false →
          ∃ u, exec (.syncRestore q seq) s = .next (endCommand q seq.toNat 0 0 u)
            ∧ (∀ k < n, u.synObj (o + k) = restoreObj ((bs.drop (k * 16)).take 16))
            ∧ (∀ i, ¬(o ≤ i ∧ i < o + n) → u.synObj i = t.synObj i)
            ∧ { u with syn := { u.syn with objs := t.syn.objs } } = t)))
  ∧ (∀ (o : Nat) (x : SynObj), o < 16384 → x.value < 2 ^ 32 → x.target < 2 ^ 32 → x.gen < 2 ^ 16 →
      (x.barrier = true → x.value < x.target) → saveBad (saveBytes o x) = false ∧ restoreObj (saveBytes o x) = x
        ∧ (saveBytes o x).length = 16)
  ∧ (∀ (q : Qn) (seq : Word64) (s : State) (w : SynWait), s.syn.waits.find? (fun w => w.queue == q.val && w.seq == seq.toNat) = some w →
      w.timeoutUs ≠ 0 → w.since + w.timeoutUs * 1000 ≤ s.now →
      exec (.syncWaitTimeout q seq) s = .next (endCommand q seq.toNat 6 0
        { s with syn := { s.syn with waits := s.syn.waits.filter (fun w => !(w.queue == q.val && w.seq == seq.toNat)) } }))
  ∧ (∀ (q : Qn) (seq : Word64) (s : State) (f : Flight),
      let b := dBody f.desc
      let o := getLE b 4 2
      let dest : Coord := (byteAt b 0, byteAt b 1, byteAt b 2)
      let x : PktTo := { ptype := 5, dest := dest, dfield := s.field, ddie := o / 4096, sdie := (s.queue q).die,
                         tenant := s.queueTenant q, body := syncReqBody (byteAt b 3) o (getLE b 8 4) }
      s.runs q seq 0x56 f → f.phase = 0 → checkSyncRemote b = 0 → ¬(s.planned = true ∧ dest = s.here) →
      (∀ id t, inject x none s = .sent id t →
        let u := t.updFlight q seq.toNat (fun g => { g with phase := 1 })
        exec (.syncRemote q seq) s = .next { u with syn := { u.syn with remotes := u.syn.remotes ++
          [⟨q, seq.toNat, id, packageKey s.field dest * 4 + o / 4096, getLE b 12 4, s.now⟩] } })
      ∧ (s.planned = false → exec (.syncRemote q seq) s = s.endsWith q seq 0x0301 0))
  ∧ (∀ (p : Fin 24) (s s1 : State) (b : List Byte), s.packetComes p 5 b s1 →
      let r := remoteOperation (pkTenant b) (getLE (pkBody b) 2 2 % 16384) (byteAt (pkBody b) 0) (getLE (pkBody b) 4 4) s1
      let x : PktTo := { ptype := 6, dest := pkSrc b, dfield := pkSField b, ddie := pkSDie b, sdie := pkDDie b,
                         tenant := pkTenant b, body := syncAnsBody r.1 (pkId b) }
      (∀ id t, inject x none r.2 = .sent id t → exec (.syncReqReceive p) s = .next t)
      ∧ (∀ t, inject x none r.2 = .unreachable t → exec (.syncReqReceive p) s = .next t))
  ∧ (∀ (tenant o op v : Nat) (s : State),
      (s.synAccepts tenant o = false → (remoteOperation tenant o op v s).1 = false
        ∧ (remoteOperation tenant o op v s).2.syn.objs = s.syn.objs)
      ∧ (s.synAccepts tenant o = true → s.dieDown (o / 4096) ≠ 0 → remoteOperation tenant o op v s = (false,
          raiseEvent { cls := 7, code := 6, src := o / 4096, data := o + tenant * 16384, log := false }
            (bump (ZG_SYN_REMOTE_DROP (o / 4096)) 1 s)))
      ∧ (s.synAccepts tenant o = true → s.dieDown (o / 4096) = 0 →
          remoteOperation tenant o op v s = (true, (applySync { tenant := tenant, part := none } o op v s).2)))
  ∧ (∀ (p : Fin 24) (s s1 : State) (b : List Byte) (r : RemoteOp), s.packetComes p 6 b s1 →
      s1.syn.remotes.find? (fun r => r.id == getLE (pkBody b) 4 4 && r.dest == packageKey (pkSField b) (pkSrc b) * 4 + pkSDie b
        && (s1.queue r.queue).die == pkDDie b) = some r →
      exec (.syncAnsReceive p) s = .next (endCommand r.queue r.seq (if byteAt (pkBody b) 0 = 1 then 0 else 0x0104) 0
        { s1 with syn := { s1.syn with remotes := s1.syn.remotes.filter (fun y => !(y.queue == r.queue && y.seq == r.seq)) } }))
  ∧ (∀ (q : Qn) (seq : Word64) (s : State) (r : RemoteOp), s.syn.remotes.find? (fun r => r.queue == q.val && r.seq == seq.toNat) = some r →
      r.timeoutUs ≠ 0 → r.since + r.timeoutUs * 1000 ≤ s.now →
      exec (.syncRemoteTimeout q seq) s = .next (endCommand q seq.toNat 6 0
        { s with syn := { s.syn with remotes := s.syn.remotes.filter (fun y => !(y.queue == q.val && y.seq == seq.toNat)) } }))
  ∧ (∀ (d : Die) (p : Part) (s : State),
      let ms := s.rfld (ZG_SYN_CTRL d) 31 16
      let x := cget {} s.syn.detectors (detKey d p)
      ms ≠ 0 → x.reported = false → s.activeOn d p ≠ [] → (∀ q ∈ s.activeOn d p, (s.blockedOn q).isSome = true) →
      x.changedAt + ms * 1000000 ≤ s.now →
      ∃ t, exec (.deadlockReport d p) s = .next t ∧ t.host.queues = s.host.queues ∧ t.syn.objs = s.syn.objs
        ∧ t.syn.waits = s.syn.waits ∧ t.coll = s.coll
        ∧ (cget {} t.syn.detectors (detKey d p)).reported = true
        ∧ exec (.deadlockReport d p) t = .next t)

/-- GROUP_DEFINE, GROUP_MEMBERS, GROUP_FLIP and GROUP_RESET of the tenant that owns the group, with legal fields, complete: each
has the effect of R317 and succeeds, GROUP_RESET with ABORT ending every posted operation of the group with the peer-aborted
status; each failure of R317 ends the command with its status (an undefined group under GROUP_FLIP with the state-conflict
status: the model's choice, log entry 22) and changes nothing else; GROUP_MEMBERS and GROUP_FLIP wait for an earlier
GROUP_MEMBERS of their queue and for the shadow bank. REDUCE_SCATTER, ALL_GATHER and QUICK are checked for ownership, ABORTED,
EPOCH and membership in that order, then for their body; one that passes completes its posting: it joins the bulk or quick
lane with the next number, bound to the active bank, and the lane begins what it can; while the lane holds 16 it waits with
everything unchanged. (R313; R315; R316; R317; R318; R320; R321; R327; R347) -/
def Obligations.GroupsAreDefinedFilledFlippedResetAndPostedTo : Prop :=
  (∀ (q : Qn) (seq : Word64) (s : State) (f : Flight),
    let b := dBody f.desc
    let g := cGroup b
    let n := getLE b 2 2 % 4096 + 1
    s.runs q seq 0x63 f →
    let used := (s.coll.groups.map (fun p => if p.1 = g then 0 else memberUnits p.2.n)).sum
    (ownsGroup q g s = false → exec (.groupDefine q seq) s = s.endsWith q seq 3 0)
    ∧ (ownsGroup q g s = true → s.groupPosted g = true → exec (.groupDefine q seq) s = s.endsWith q seq 9 0)
    ∧ (ownsGroup q g s = true → s.groupPosted g = false → 8192 < used + memberUnits n →
      exec (.groupDefine q seq) s = s.endsWith q seq 5 0)
    ∧ (ownsGroup q g s = true → s.groupPosted g = false → used + memberUnits n ≤ 8192 → groupDefineBad b = true →
      exec (.groupDefine q seq) s = s.endsWith q seq 1 0)
    ∧ (ownsGroup q g s = true → s.groupPosted g = false → used + memberUnits n ≤ 8192 → groupDefineBad b = false →
      exec (.groupDefine q seq) s = .next (endCommand q seq.toNat 0 0 (refreshMemberStore
        (((List.range 4).foldl (fun t d => t.setGdie g d { state := 1 })
          (s.setGroup g { n := n, stageKib := getLE b 6 2, stageVa := getLE b 8 8, stageStride := getLE b 0x10 8,
                          paceFollow := bitOf (byteAt b 4) 0, bank0 := List.replicate n 0xFFFFFFFF,
                          bank1 := List.replicate n 0xFFFFFFFF })).setBank (memberTable g) {})))))
  ∧ (∀ (q : Qn) (seq : Word64) (s t : State) (f : Flight) (bs : List Byte),
    let b := dBody f.desc
    let g := cGroup b
    let first := getLE b 2 2
    let n := getLE b 4 2
    let ok := getLE b 0 2 < 4096 ∧ 1 ≤ n ∧ n ≤ 4096 ∧ first + n ≤ (s.group g).n ∧ zeroAt b 6 2 = true ∧ getLE b 8 8 % 4 = 0
      ∧ zeroAt b 0x10 16 = true
    s.runs q seq 0x64 f →
      (ownsGroup q g s = false → exec (.groupMembers q seq) s = s.endsWith q seq 3 0)
      ∧ (ownsGroup q g s = true → ¬ ok → exec (.groupMembers q seq) s = s.endsWith q seq 1 0)
      ∧ (ownsGroup q g s = true → ok → membersAhead q seq.toNat g s = true → exec (.groupMembers q seq) s = .next s)
      ∧ (ownsGroup q g s = true → ok → membersAhead q seq.toNat g s = false → (s.bank (memberTable g)).writeBlocked = true →
        exec (.groupMembers q seq) s = .next (s.setBank (memberTable g) { s.bank (memberTable g) with writeWait := true }))
      ∧ (ownsGroup q g s = true → ok → membersAhead q seq.toNat g s = false →
        (s.bank (memberTable g)).writeBlocked = false → vaRead (s.req q f 3) (getLE b 8 8) (4 * n) s = .ok bs t →
        let x := t.group g
        let y := if (t.bank (memberTable g)).shadow = 0 then { x with bank0 := putEntries x.bank0 first (elemsOf 4 bs) }
                 else { x with bank1 := putEntries x.bank1 first (elemsOf 4 bs) }
        exec (.groupMembers q seq) s = .next (endCommand q seq.toNat 0 0
          ((t.setGroup g y).setBank (memberTable g) { t.bank (memberTable g) with writeWait := false }))))
  ∧ (∀ (q : Qn) (seq : Word64) (s : State) (f : Flight),
    let b := dBody f.desc
    let g := cGroup b
    let x := s.bank (memberTable g)
    let ok := getLE b 0 2 < 4096 ∧ byteAt b 2 < 4 ∧ zeroAt b 3 1 = true ∧ zeroAt b 8 24 = true
    s.runs q seq 0x65 f →
      (ownsGroup q g s = false → exec (.groupFlip q seq) s = s.endsWith q seq 3 0)
      ∧ (ownsGroup q g s = true → ¬ ok → exec (.groupFlip q seq) s = s.endsWith q seq 1 0)
      ∧ (ownsGroup q g s = true → ok → (s.group g).n = 0 → exec (.groupFlip q seq) s = s.endsWith q seq 9 0)
      ∧ (ownsGroup q g s = true → ok → (s.group g).n ≠ 0 → (membersAhead q seq.toNat g s = true ∨ x.copyPending = true) →
        exec (.groupFlip q seq) s = .next s)
      ∧ (ownsGroup q g s = true → ok → (s.group g).n ≠ 0 → membersAhead q seq.toNat g s = false → x.copyPending = false →
      (membersBad ((s.group g).members x.shadow) = true → exec (.groupFlip q seq) s = s.endsWith q seq 0x12 0)
      ∧ (membersBad ((s.group g).members x.shadow) = false →
        (bitOf (byteAt b 2) 0 = true → x.epoch ≠ getLE b 4 4 → exec (.groupFlip q seq) s = s.endsWith q seq 8 0)
        ∧ ((bitOf (byteAt b 2) 0 = false ∨ x.epoch = getLE b 4 4) → exec (.groupFlip q seq) s =
            .next (endCommand q seq.toNat 0 0 (s.setBank (memberTable g) (x.flip (bitOf (byteAt b 2) 1))))))))
  ∧ (∀ (q : Qn) (seq : Word64) (s : State) (f : Flight),
    let b := dBody f.desc
    let g := cGroup b
    let abort := bitOf (byteAt b 2) 0
    let ok := getLE b 0 2 < 4096 ∧ byteAt b 2 < 2 ∧ zeroAt b 3 29 = true
    let ds := s.localDies g
    let rank := ((s.group g).members (s.bank (memberTable g)).active).idxOf
      (s.memberHere (if ds.contains (s.queue q).die then (s.queue q).die else ds.headD 0))
    let idle := fun (x : GroupDie) => { x with
            state := 1, bulk := [], quick := [], opSeq := 0, qSeq := 0, lastBulk := none, lastQuick := none }
    s.runs q seq 0x66 f →
      (ownsGroup q g s = false → exec (.groupReset q seq) s = s.endsWith q seq 3 0)
      ∧ (ownsGroup q g s = true → ¬ ok → exec (.groupReset q seq) s = s.endsWith q seq 1 0)
      ∧ (ownsGroup q g s = true → ok → (s.group g).n = 0 → exec (.groupReset q seq) s = s.endsWith q seq 9 0)
      ∧ (ownsGroup q g s = true → ok → (s.group g).n ≠ 0 → abort = false → s.groupPosted g = true →
        exec (.groupReset q seq) s = s.endsWith q seq 9 0)
      ∧ (ownsGroup q g s = true → ok → (s.group g).n ≠ 0 → (abort = true ∨ s.groupPosted g = false) → ∃ t,
        exec (.groupReset q seq) s = .next (endCommand q seq.toNat 0 0
          (t.setGroup g { t.group g with ggen := ((t.group g).ggen + 1) % 65536 }))
        ∧ (abort = false → t = (List.range 4).foldl (fun t d => t.setGdie g d (idle (t.gdie g d))) s)
        ∧ (abort = true → t = (List.range 4).foldl (fun u d =>
            if ds.contains d || (u.gdie g d).ops != [] then resetOn g d rank true u else u.setGdie g d (idle (u.gdie g d))) s)
        ∧ (∀ (d : Nat) (u : State), let x := u.gdie g d
            let o := (x.ops.head?).getD (idleOp g d u)
            let v := dropPrefetch x.ops (u.setGdie g d (idle x))
            resetOn g d rank true u = endAll (laneEndings x 0x0203 0x0203 rank) (if x.state = 3 then v else
              collEvent d 5 g o.rank (g + 0x0203 * 4096 + o.num * 2 ^ 28) false
                (bump (ZG_COL_ABORTS d) 1 (sendAborts g d 0x0203 o v))))))
  ∧ (∀ (q : Qn) (seq : Word64) (s : State) (f : Flight), ∀ p ∈ [(0x60, Instr.reduceScatter q seq), (0x61, .allGather q seq), (0x62, .quick q seq)],
    let b := dBody f.desc
    let g := cGroup b
    let d := (s.queue q).die
    let x := s.gdie g d
    let bank := s.bank (memberTable g)
    let ms := (s.group g).members bank.active
    let quick := p.1 == 0x62
    let bad := if p.1 = 0x62 then checkQuick b else checkBulk p.1 (s.group g).n b
    s.runs q seq p.1 f → f.phase = 0 →
      (ownsGroup q g s = false → exec p.2 s = s.endsWith q seq 3 0)
      ∧ (ownsGroup q g s = true →
        (x.state = 3 → exec p.2 s = s.endsWith q seq 0x0202 0)
        ∧ (x.state ≠ 3 → bank.epoch = 0 → exec p.2 s = s.endsWith q seq 9 0)
        ∧ (x.state ≠ 3 → bank.epoch ≠ 0 → s.memberHere d ∉ ms → exec p.2 s = s.endsWith q seq 0x0206 0)
        ∧ (x.state ≠ 3 → bank.epoch ≠ 0 → s.memberHere d ∈ ms →
          (bad ≠ 0 → exec p.2 s = s.endsWith q seq bad 0)
          ∧ (bad = 0 → 16 ≤ (x.lane quick).length → exec p.2 s = .next s)
          ∧ (bad = 0 → (x.lane quick).length < 16 →
            let num := ((if quick then x.qSeq else x.opSeq) + 1) % 4294967296
            let o : CollOp := { queue := q, seq := seq.toNat, num := num, opc := p.1, body := b, bank := bank.active,
                                epoch := bank.epoch, rank := ms.idxOf (s.memberHere d), digest := collDigest p.1 b,
                                lateRank := ms.idxOf (s.memberHere d) }
            let y := if quick then { x with quick := x.quick ++ [o], qSeq := num } else { x with bulk := x.bulk ++ [o], opSeq := num }
            exec p.2 s = .next (runLanes g d (((bindTable q seq.toNat (memberTable g) s).updFlight q seq.toNat
              (fun f => { f with phase := 1 })).setGdie g d y))))))

/-- A die serves its groups in rotation, one chunk in the direction that has sent less. A message that passes the checks
of R325 is noted at the current operation of its lane: a new chunk is placed in a free slot, recorded and
acknowledged, one already received is only acknowledged; a credit raises the direction's credit and an acknowledgement
frees the send slots it covers, neither ever lowering a count; a quick value joins the operation, once. An ABORT ends
every posted operation with the peer-aborted status, or only counts in a group already aborted. A stall is raised once
after STALL_US and fails the operation after ABORT_MS; chunks are sent again after RESEND_US and not before. A failed
operation aborts its group on the die. (R319; R322; R325; R326; R329; R337; R338; R343; R344; R345; R346; R348) -/
def Obligations.CollectiveMessagesMoveChunksCreditsAndAborts : Prop :=
  (∀ (d : Die) (s0 : State),
    let s := runHeldBack d (runPrefetches d s0)
    let gs := s.dieGroups d
    (gs.filter (fun g => canServe g d s) = [] → exec (.collChunkSend d) s0 = .next s)
    ∧ (∀ g, (((gs.filter (fun g => canServe g d s)).filter (fun g => decide (cget 4096 s.coll.turn d < g))).head?).or
        (gs.filter (fun g => canServe g d s)).head? = some g →
      ∀ o, s.currentOp g d false = some o →
        let s1 := noteRun o.queue { s with coll := { s.coll with turn := cset 4096 s.coll.turn d g } }
        (canSend (s.group g) o 0 = true → (canSend (s.group g) o 1 = false ∨ o.cw.sent ≤ o.ccw.sent) →
          exec (.collChunkSend d) s0 = .next (runLanes g d (settleBulk g d (sendChunk g d 0 s1))))
        ∧ (canSend (s.group g) o 1 = true → (canSend (s.group g) o 0 = false ∨ o.ccw.sent < o.cw.sent) →
          exec (.collChunkSend d) s0 = .next (runLanes g d (settleBulk g d (sendChunk g d 1 s1))))))
  ∧ (∀ (d : Die) (p : Option (Fin 24)) (i : CollIn) (s s1 s2 : State) (o : CollOp),
      let m := i.bytes
      let g := mGroup m
      let dir := mDir m
      let y := o.dir dir
      let n := (s2.group g).n
      let t := mPos m / 2 ^ 20
      let c := mPos m % 2 ^ 20
      let ord := orderOf (n - 1) (o.chunks dir) (s2.group g).slots t c
      s.collComes d (p.map (·.val)) 0 i s1 → s1.collNoted d false true m o s2 →
      (∀ x, (s1.gdie g d).lastBulk = some x → x.num ≠ mNum m) →
      t + 1 < n → c < o.chunks dir → (mPayload m).length = (o.chunkAt dir c).2 * wireBytes o.opc o.body →
      (y.seen.contains ord = true → ∀ res, exec (.collChunkReceive d p res) s = .next (runLanes g d (sendAck g d dir s2)))
      ∧ (y.seen.contains ord = false → ∀ slot, freeSlot y.got (s2.group g).slots = some slot →
        ∀ last s3, placeChunk g d dir t c slot (mPayload m) o s2 = .ok (some last) s3 →
          let z := { y with seen := ord :: y.seen, granted := if last then y.granted + 1 else y.granted,
                            got := if last then y.got else y.got ++ [⟨t, c, slot, (mPayload m).length, ord, s3.now⟩] }
          let s4 := sendAck g d dir (s3.setOp g d false (o.setDir dir z))
          exec (.collChunkReceive d p 0) s = .next (runLanes g d (settleBulk g d (if last then sendCredit g d dir s4 else s4)))))
  ∧ (∀ (d : Die) (p : Option (Fin 24)) (i : CollIn) (s s1 s2 : State) (o : CollOp),
      let m := i.bytes
      let g := mGroup m
      let y := o.dir (mDir m)
      (s.collComes d (p.map (·.val)) 1 i s1 → s1.collNoted d false true m o s2 →
        exec (.collCreditReceive d p) s = .next (runLanes g d
          (s2.setOp g d false (o.setDir (mDir m) { y with credit := max y.credit (mPos m) }))))
      ∧ (s.collComes d (p.map (·.val)) 2 i s1 → quickAcked g d m s1 = true → s1.collNoted d true false m o s2 →
        exec (.collAckReceive d p) s = .next (runLanes g d (quickRun g d quickFuel
          (s2.setOp g d true { o with qhold := o.qhold.filter (fun k => k.peer != mRank m) }))))
      ∧ (s.collComes d (p.map (·.val)) 2 i s1 → quickAcked g d m s1 = false → s1.collNoted d false false m o s2 →
        let k := min (mPos m) y.sent
        exec (.collAckReceive d p) s = .next (runLanes g d (settleBulk g d
          (s2.setOp g d false (o.setDir (mDir m) { y with acked := max y.acked k, hold := y.hold.filter (fun h => decide (k ≤ h.order)) })))))
      ∧ (s.collComes d (p.map (·.val)) 4 i s1 → s1.collNoted d true true m o s2 →
        let s3 := sendQuickAck g d (mRank m) s2
        ((∃ k ∈ o.qin, k.1 = mRound m ∧ k.2.1 = mRank m) → exec (.collQuickReceive d p) s = .next (runLanes g d s3))
        ∧ ((∀ k ∈ o.qin, ¬(k.1 = mRound m ∧ k.2.1 = mRank m)) → exec (.collQuickReceive d p) s = .next (runLanes g d
            (quickRun g d quickFuel (s3.setOp g d true { o with qin := o.qin ++ [(mRound m, mRank m, mPayload m)] })))))
      ∧ (s.collComes d (p.map (·.val)) 3 i s1 →
        let x := s1.gdie g d
        (x.state ≠ 1 → exec (.collAbortReceive d p) s = .next (bump (ZG_COL_ABORTS d) 1 s1))
        ∧ (x.state = 1 → ∃ t, exec (.collAbortReceive d p) s = .next (endAll (abortEndings x m (s1.group g).n) t)
            ∧ (mPos m % 65536 ≠ 0x0201 → mPos m % 65536 ≠ 0x0205 → abortEndings x m (s1.group g).n = x.ops.map (fun o =>
                { queue := o.queue, seq := o.seq, status := 0x0203, detail := mRank m }))
            ∧ t.gdie g d = { x with state := 3, bulk := [], quick := [] } ∧ t.coll.inbox = s1.coll.inbox
            ∧ t.wfn = s1.wfn ∧ (∀ h e, h * 4 + e ≠ g * 4 + d.val → t.gdie h e = s1.gdie h e))))
  ∧ (∀ (d : Nat) (m : CollIn) (s : State) (go : List Byte → State → State),
      let g := mGroup m.bytes
      ((s.groupOwned g = false ∨ m.tenant ≠ s.groupTenant g
        ∨ ((s.group g).members (s.bank (memberTable g)).active)[mRank m.bytes]? ≠ some m.entry) → checkMsg d m s go = dropMsg d m s)
      ∧ (dropMsg d m s).coll = s.coll)
  ∧ (∀ (d : Die) (g : Fin 4096) (s : State),
      ((∀ o, s.currentOp g d false = some o → ∀ k ∈ o.cw.hold ++ o.ccw.hold,
          s.now < k.at_ + max 2 (s.rfld (ZG_COL_WDOG d) 31 16) * 1000) →
        (∀ o, s.currentOp g d true = some o → ∀ k ∈ o.qhold, s.now < k.at_ + max 2 (s.rfld (ZG_COL_WDOG d) 31 16) * 1000) →
        exec (.collResend d g) s = .next s)
      ∧ (s.lastDefence = true → exec (.collResend d g) s = .next s)
      ∧ (∀ (o : CollOp) (k : CollChunk) (bs : List Byte) (t : State), s.currentOp g d false = some o → o.cw.hold = [k] →
          let due := fun (at_ : Nat) => decide (at_ + max 2 (s.rfld (ZG_COL_WDOG d) 31 16) * 1000 ≤ s.now)
          due k.at_ = true → s.lastDefence = false → vaRead (s.collReq o) (stageVa (s.group g) d 2 k.slot) k.len s = .ok bs t →
          exec (.collResend d g) s = .next (resendQuick g d (fun h => due h.at_) (resendChunks g d 1 (fun h => due h.at_)
            (collSend g d false (ringNext o.rank (s.group g).n 0) 0 0 0 (k.step * 2 ^ 20 + k.idx) bs (some k.idx)
              (bump (ZG_COL_RESENDS d) 1 (t.setOp g d false { o with cw := { o.cw with hold := [{ k with at_ := t.now }] } })) id)))))
  ∧ (∀ (d : Die) (g : Fin 4096) (quick : Bool) (s : State) (o : CollOp), s.currentOp g d quick = some o → opWaits g d quick s = true →
      (o.stalled = false → o.lastMsg + max 10 (s.rfld (ZG_COL_WDOG d) 15 0) * 1000 ≤ s.now →
        exec (.collStall d g quick) s = .next (collEvent d 1 g (awaited g o s)
          (g + awaited g o s * 4096 + o.num * 2 ^ 24 + b2n quick * 2 ^ 56) false
          (bump (ZG_COL_STALLS d) 1 (s.setOp g d quick { o with stalled := true }))))
      ∧ (o.stalled = true → exec (.collStall d g quick) s = .next s)
      ∧ (s.rfld (ZG_COL_CTRL d) 31 16 ≠ 0 → o.lastMsg + s.rfld (ZG_COL_CTRL d) 31 16 * 1000000 ≤ s.now →
        exec (.collAbortTimeout d g quick) s = .next (collAbort g d 0x0204 o.queue o.seq (endCommand o.queue o.seq 0x0204 0 s)))
      ∧ (s.rfld (ZG_COL_CTRL d) 31 16 = 0 → exec (.collAbortTimeout d g quick) s = .next s))

/-- Sending takes the next 240 bytes of a packet with a credit, in the pool and channel served, appends the flit to the
replay buffer with the next FSEQ and touches no other port; with nothing to send an IDLE flit goes. A received flit
with a wrong CRC or lost codewords is only counted; a DATA flit with the expected FSEQ extends its packet, one with
another FSEQ is not taken again. A whole packet arrives with its last flit. After ACK_TIMEOUT every unacknowledged
flit is sent again with its FSEQ, until the retries are spent and the port retrains. A port fails at its third failed
retrain. WEFIN_PORT enables, drains, disables or retrains a port in the states it applies to. (R357; R358; R359; R360;
R361; R362; R364; R366; R387; R389) -/
def Obligations.FlitsAreDeliveredOnceInOrderAndPortsRetrain : Prop :=
  (∀ (p : Fin 24) (pool : Fin 3) (s : State), s.portRuns p = true →
    let x := s.port p
    (x.replay.length < 1024 → cwf 0 x.used = true → ∀ vp o, x.pick (s.portState p) pool = some vp → x.front (s.portState p) vp = some o → ∃ t,
      exec (.wefinFlitSend p pool) s = .next t
      ∧ (∃ f, (t.port p).replay = x.replay ++ [⟨x.next, 1, o.id, f⟩] ∧ (t.port p).last = f ∧ f.length = 256 ∧ getLE f 2 2 = x.next % 65536)
      ∧ (t.port p).next = (x.next + 1) % 65536 ∧ cget 0 (t.port p).used vp = (cget 0 x.used vp + 1) % 65536
      ∧ (∀ k, k ≠ p.val → t.port k = s.port k) ∧ t.wfn.arrived = s.wfn.arrived ∧ t.wfn.held = s.wfn.held)
    ∧ ((1024 ≤ x.replay.length ∨ x.pick (s.portState p) pool = none) →
      exec (.wefinFlitSend p pool) s = .next (s.setPort p (idleFlit p x))))
  ∧ (∀ (p : Nat) (x : WPort) (f : List Byte),
      let bs := x.txBlocks ++ flitBlocks f
      let y := x.lay p f
      (bs.length < 20 → y = { x with txBlocks := bs })
      ∧ (20 ≤ bs.length → y.txBlocks = bs.drop 20
        ∧ (alignRound x.txWords = false → y.txWords = x.txWords + 1 ∧ cget [] y.line (x.txWords % 4) = bs.take 20)
        ∧ (alignRound x.txWords = true → y.txWords = x.txWords + 5 ∧ cget [] y.line (x.txWords % 4) = bs.take 20
            ∧ ∀ i, 1 ≤ i → i < 4 → cget [] y.line ((x.txWords + i) % 4) = alignWord p (x.txWords + i))))
  ∧ (∀ (w : LaneWord) (x : WPort), let (y, sym, lost) := x.takeWord w
      y.rxWords = x.rxWords + 1
      ∧ (w.wrong.toNat ≤ 15 → sym = w.wrong.toNat ∧ lost = 0
          ∧ y.rxBlocks = x.rxBlocks ++ (w.blocks.filter blockData).map (fun b => (b, false)))
      ∧ (15 < w.wrong.toNat → sym = 0 ∧ lost = 1 ∧ (x.rxAlign ≠ some (x.rxWords / 4 % 4096) →
          y.rxBlocks = x.rxBlocks ++ w.blocks.map (fun b => (b, true)))))
  ∧ (∀ (p : Fin 24) (lane : Fin 4) (blocks : List (BitVec 257)) (wrong : BitVec 10) (s : State),
      let ws := laneWords lane blocks wrong
      wordsWf ws = true → s.portRuns p = true →
      let s0 := arriveWords p ws s
      (nextFlit p s0 = none → exec (.wefinFlitReceive p lane blocks wrong) s = .next s0)
      ∧ (∀ f lost s1, nextFlit p s0 = some (f, lost, s1) →
        let s2 := s1.flitSeen p f
        let s3 := takeCredit p f s2
        ((lost = true ∨ flitCrcOk f = false) → exec (.wefinFlitReceive p lane blocks wrong) s = .next (countPort p 2 1 s2))
        ∧ (lost = false → flitCrcOk f = true →
          (byteAt f 0 / 64 ≠ 1 → exec (.wefinFlitReceive p lane blocks wrong) s = .next s3)
          ∧ (byteAt f 0 / 64 = 1 → byteAt f 0 / 4 % 4 ≠ 3 →
            (getLE f 2 2 = (s3.port p).expect → s3.bufferUsed p (flitVp f) < bufferSize (flitVp f) →
              exec (.wefinFlitReceive p lane blocks wrong) s = .next (acceptFlit p f s3))
            ∧ ((getLE f 2 2 ≠ (s3.port p).expect ∨ bufferSize (flitVp f) ≤ s3.bufferUsed p (flitVp f)) → exec (.wefinFlitReceive p lane blocks wrong) s =
                .next (countPort p 3 1 (s3.setPort p { s3.port p with owes := true })))))))
  ∧ (∀ (p : Nat) (f : List Byte) (s : State),
      let x := s.port p
      let vp := flitVp f
      let waits := s.wfn.arrived.any (fun a => a.port == p && a.vp == vp)
      let t := acceptFlit p f s
      (waits = false → bitOf (byteAt f 0) 0 = false → cwf 0 x.behind = true → t.bufferUsed p vp = s.bufferUsed p vp
        ∧ (cwf 0 x.freed = true → cget 0 (t.port p).freed vp = (cget 0 x.freed vp + 1) % 65536))
      ∧ ((waits = true ∨ bitOf (byteAt f 0) 0 = true) → cwf 0 x.behind = true →
        t.bufferUsed p vp = s.bufferUsed p vp + 1 ∧ (t.port p).freed = x.freed)
      ∧ (t.port p).expect = (x.expect + 1) % 65536 ∧ (t.port p).owes = true ∧ (∀ k, k ≠ p → t.port k = s.port k)
      ∧ (bitOf (byteAt f 0) 0 = false → t.wfn.arrived = s.wfn.arrived)
      ∧ (bitOf (byteAt f 0) 0 = true → t.wfn.arrived = s.wfn.arrived ++
          [⟨p, s.now, vp, (if bitOf (byteAt f 0) 1 then [] else cget [] x.partials vp) ++ (f.drop 12).take (16 * (byteAt f 1 / 16)),
            cget 0 x.behind vp + 1⟩]))
  ∧ (∀ (a : Arrived) (s : State), cwf {} s.wfn.ports = true → cwf 0 (s.port a.port).behind = true → (∀ b ∈ s.wfn.arrived, ¬(b.port = a.port ∧ b.vp = a.vp)) →
      (leaveBuffer a s).bufferUsed a.port a.vp = 0
      ∧ (cwf 0 (s.port a.port).freed = true → cget 0 ((leaveBuffer a s).port a.port).freed a.vp
          = (cget 0 (s.port a.port).freed a.vp + a.hold + cget 0 (s.port a.port).behind a.vp) % 65536))
  ∧ (∀ (p : Fin 24) (s : State), s.portRuns p = true →
      ((s.port p).owes = true → exec (.wefinAckIdle p) s = .next (s.setPort p (idleFlit p (s.port p))))
      ∧ (∀ lane, exec (.laneLockLoss p lane) s = .next (enterRetrain p s))
      ∧ (s.ackLate p = true → s.retriesSpent p = true →
          exec (.wefinReplayTimeout p) s = .next (enterRetrain p s) ∧ exec (.portRetrain p) s = .next (enterRetrain p s))
      ∧ (s.ackLate p = true → s.retriesSpent p = false → ((s.port p).replay.map WFlit.fseq).Nodup → ∃ t,
          exec (.wefinReplayTimeout p) s = .next t ∧ (t.port p).ackAt = s.now
          ∧ (t.port p).replay.map (fun f => (f.fseq, f.sends, f.pkt)) = (s.port p).replay.map (fun f => (f.fseq, f.sends + 1, f.pkt))
          ∧ (t.port p).out = (s.port p).out ∧ (∀ k, k ≠ p.val → t.port k = s.port k)))
  ∧ (∀ (p : Fin 24) (s : State),
      (s.portState p = 5 →
        ((s.port p).cmd = none → exec (.portRetrainDone p true) s = .next ((s.setRfld (portReg p) 63 61 2).setPort p
          { s.port p with fails := 0, helloSeen := false, helloAt := 0 }))
        ∧ ((s.port p).fails < 2 → exec (.portRetrainDone p false) s = .next (s.setPort p { s.port p with fails := (s.port p).fails + 1 }))
        ∧ (2 ≤ (s.port p).fails → exec (.portRetrainDone p false) s = .next (endPortCmd p 0x40
            ((s.setPort p { s.port p with fails := (s.port p).fails + 1 }).setRfld (portReg p) 63 61 6))))
      ∧ (s.portState p = 1 → exec (.portTrained p) s = .next ((s.setRfld (portReg p) 63 61 2).setPort p {})))
  ∧ (∀ (q : Qn) (seq : Word64) (s : State) (f : Flight) (p : Nat),
      (s.portRun q seq 0 p f → (s.portState p = 0 ∨ s.portState p = 6) →
        exec (.portEnable q seq) s = .next (endCommand q seq.toNat 0 0 ((s.setRfld (portReg p) 63 61 1).setPort p {})))
      ∧ (s.portRun q seq 0 p f → s.portState p ≠ 0 → s.portState p ≠ 6 → exec (.portEnable q seq) s = s.endsWith q seq 9 0)
      ∧ (s.portRun q seq 1 p f → s.portState p = 3 →
        let t := leaveTo p 4 (s.updFlight q seq.toNat (fun g => { g with phase := 1 }))
        exec (.portQuiesce q seq) s = .next (finishQuiesce p ((((t.port p).out.filter (fun o => o.sent == 0)).filter
          (fun o => o.dir != 7)).foldl (fun u o => sendBundle (p / 6) none o u)
            (t.setPort p { t.port p with out := (t.port p).out.filter (fun o => o.sent != 0), cmd := some (q.val, seq.toNat) }))))
      ∧ (s.portRun q seq 1 p f → s.portState p ≠ 3 → exec (.portQuiesce q seq) s = s.endsWith q seq 9 0)
      ∧ (s.portRun q seq 2 p f → 1 ≤ s.portState p → s.portState p ≤ 6 →
        exec (.portDisable q seq) s = .next (endCommand q seq.toNat 0 0 (endPortCmd p 0 (leaveTo p 0 s))))
      ∧ (s.portRun q seq 3 p f → (s.portState p = 2 ∨ s.portState p = 3) →
        exec (.portForceRetrain q seq) s = .next (endCommand q seq.toNat 0 0 (enterRetrain p s))))

/-- A HELLO goes out when due; one received records the peer and verifies the port, which is UP only where plan, plan hash
and the peer's package agree. A transit packet loses a hop and leaves by its route, or is dropped with its cause. An
LSA of an older epoch is discarded, of the present one kept and forwarded when newer, of a newer one adopted. A region
settles once quiet, and with every region stable a plan is formed, discarded if an epoch moved, and flipped unless it
changes nothing. A control command acts on every partition of its tenant, here and at each package it is sent to, and
ends with its answers or its timeout. (R368; R376; R377; R379; R380; R381; R382; R383; R384; R386; R387; R388) -/
def Obligations.PacketsAreVerifiedForwardedFloodedAndRouted : Prop :=
  (∀ (p : Fin 24) (s : State), (s.portState p = 2 ∨ s.portState p = 3) →
    (s.port p).helloAt + (if (s.port p).helloSeen then 1000000 else 10000) ≤ s.now →
    exec (.helloSend p) s = .next (sendOneHop p (toPeer p 0 (helloBody p s) s) (s.setPort p { s.port p with helloAt := s.now })))
  ∧ (∀ (p : Fin 24) (b : List Byte) (s s1 : State), s.packetComes p 0 b s1 → (s1.portState p = 2 ∨ s1.portState p = 3) →
      let h := pkBody b
      let s2 := s1.setPort p { s1.port p with hello := h, helloSeen := true }
      let v := setFld (setFld (setFld (s2.reg (portReg p)) 53 46 (byteAt h 8)) 45 38 (byteAt h 9)) 37 30 (byteAt h 10)
      exec (.helloReceive p) s = .next (verifyPort p
        (s2.setReg (portReg p) (setFld (setFld v 29 29 (byteAt h 11 % 2)) 28 24 (byteAt h 12)))))
  ∧ (∀ (p : Nat) (h : List Byte) (s : State), (verifyRow p h s).1 = 3 →
      s.planned = true ∧ (h.drop 0x10).take 8 = (s.wfn.plan.drop 0x10).take 8 ∧ getLE h 0 8 ≠ (s.reg ZG_ID_SERIAL).toNat
      ∧ entryPackage (helloEntry h) = entryPackage (planPort s.wfn.plan p))
  ∧ (∀ (p : Fin 24) (a : Arrived) (s s1 : State),
      takeArrived p (fun b => decide (8 ≤ pkType b) || (decide (3 ≤ pkType b) && !s.forHere b)) s = some (a, s1) →
      let d := p.val / 6
      let b := putAt a.bytes 1 [BitVec.ofNat 8 (pkTtl a.bytes - 1)]
      let came := if s1.portDir p < 6 then some (opposite (s1.portDir p), a.vp % 3) else none
      (8 ≤ pkType a.bytes → exec (.packetForward p) s = .next (dropPacket d 1 a.bytes s1))
      ∧ (pkType a.bytes < 8 → pkTtl a.bytes = 0 → exec (.packetForward p) s = .next (dropPacket d 0 a.bytes s1))
      ∧ (pkType a.bytes < 8 → pkTtl a.bytes ≠ 0 → pkDField b ≠ s1.field → s1.portDir p = 6 →
          exec (.packetForward p) s = .next (dropPacket d 6 b s1))
      ∧ (pkType a.bytes < 8 → pkTtl a.bytes ≠ 0 → pkDField b = s1.field →
          (∀ t, routePacket d none came b (linearOf s1.dims (pkDest b)) s1 = some t → exec (.packetForward p) s = .next t)
          ∧ (routePacket d none came b (linearOf s1.dims (pkDest b)) s1 = none →
              exec (.packetForward p) s = .next (dropUnreachable d b s1))))
  ∧ (∀ (s : State), s.planned = true → s.wfn.lsaAt + 10000000 ≤ s.now → exec .lsaFlood s = .next (floodOwn s))
  ∧ (∀ (p : Fin 24) (b : List Byte) (s s1 : State), s.packetComes p 2 b s1 → s1.planned = true →
      let l := pkBody b
      let r := byteAt l 10
      let e := getLE l 0x0C 4
      (l.drop 0x20).take 8 = (s1.wfn.plan.drop 0x10).take 8 → r < s1.regionCount →
      (e < (s1.region r).epoch → exec (.lsaReceive p) s = .next s1)
      ∧ (e = (s1.region r).epoch → exec (.lsaReceive p) s = .next (keepLsa p b l s1))
      ∧ ((s1.region r).epoch < e → exec (.lsaReceive p) s = .next (keepLsa p b l
          (if r = (unsettle r e s1).here.2.2 then floodOwn (unsettle r e s1) else unsettle r e s1))))
  ∧ (∀ (r : BitVec 8) (s : State), r.toNat < s.regionCount → (s.region r.toNat).stable = false →
      (s.region r.toNat).changedAt + max 20 (s.rfld ZG_TOP_CTRL 31 16) * 1000 ≤ s.now →
      (∀ i ∈ (s.reachFrom false s.hereIx).map Prod.fst, (coordOf s.dims i).2.2 = r.toNat →
        s.lsa i ≠ [] ∧ getLE (s.lsa i) 0x0C 4 = (s.region r.toNat).epoch) →
      exec (.regionSettle r) s = .next (refreshDisc (s.setRegion r.toNat { s.region r.toNat with stable := true })))
  ∧ (∀ (s : State), s.planned = true → s.betony = 1 →
      (s.wfn.forming = none → (∀ r < s.regionCount, (s.region r).stable = true) → s.wfn.formed ≠ some s.epochs →
        exec .planForm s = .next (finishPlan (formPlan s)))
      ∧ (∀ es rs ds via, s.wfn.forming = some (es, rs, ds, via) →
        let bank := s.bank routeTable
        (es ≠ s.epochs → exec .planForm s =
          .next (bump ZG_TOP_DISCARDS 1 { s with wfn := { s.wfn with forming := none } }))
        ∧ (es = s.epochs → rs = s.tableOf bank.active → via = s.twinVia bank.active →
          exec .planForm s = .next (refreshParent { s with wfn := { s.wfn with forming := none, formed := some es } }))
        ∧ (es = s.epochs → (rs ≠ s.tableOf bank.active ∨ via ≠ s.twinVia bank.active) →
          (bank.writeBlocked = true → exec .planForm s = .next (s.setBank routeTable { bank with writeWait := true }))
          ∧ (bank.writeBlocked = false → ∃ t, exec .planForm s = .next (flipRoutes t) ∧ t.wfn.formed = some es
              ∧ t.wfn.forming = none ∧ (∀ i < rs.length, rs.length ≤ 1024 → cwf 0 s.wfn.routes = true → t.routeEntry bank.shadow i = rs.getD i 0)))))
  ∧ (∀ (t : BitVec 16) (s : State),
      exec (.ctrlStopPartition t) s = .next ((s.tenantParts t.toNat).foldl (fun u p => stopPartition p true none u) s)
      ∧ exec (.ctrlQuiesce t) s = .next ((s.tenantParts t.toNat).foldl (fun u p => setQuiesce (p + 1) true u) s)
      ∧ exec (.ctrlResume t) s = .next ((s.tenantParts t.toNat).foldl (fun u p => setQuiesce (p + 1) false u) s))
  ∧ (∀ (p : Fin 24) (a : Arrived) (s s1 : State),
      let x := pkBody a.bytes
      let k := (packageKey (pkSField a.bytes) (pkSrc a.bytes), getLE x 4 4)
      (s.packetTaken p (fun b => pkType b == 3 && s.forHere b && byteAt (pkBody b) 0 != 4) a s1 →
        1 ≤ byteAt x 0 → byteAt x 0 ≤ 3 → ∀ id t,
        inject { ptype := 3, dest := pkSrc a.bytes, dfield := pkSField a.bytes, ddie := pkSDie a.bytes, sdie := 0, tenant := 0,
                 body := controlBody 4 (controlAct (byteAt x 0) (getLE x 2 2) s1).1 (getLE x 2 2) (getLE x 4 4) } none
          (controlAct (byteAt x 0) (getLE x 2 2) s1).2 = .sent id t → exec (.controlReceive p) s = .next t)
      ∧ (∀ c, s.packetTaken p (fun b => pkType b == 3 && s.forHere b && byteAt (pkBody b) 0 == 4) a s1 →
        s1.wfn.controls.find? (fun c => c.waiting.contains k) = some c →
        let c1 := { c with waiting := c.waiting.erase k, answered := c.answered + 1 }
        (c1.waiting = [] → exec (.controlAnswerReceive p) s = .next (endControl c1 0 s1))
        ∧ (c1.waiting ≠ [] → exec (.controlAnswerReceive p) s = .next { s1 with wfn := { s1.wfn with
            controls := s1.wfn.controls.map (fun y => if y.queue = c.queue ∧ y.seq = c.seq then c1 else y) } })))
  ∧ (∀ (q : Qn) (seq : Word64) (s : State) (f : Flight), s.adminRuns q seq 0xC0 f → f.phase = 0 →
      let b := dBody f.desc
      let dest : Coord := (byteAt b 2, byteAt b 3, byteAt b 4)
      let c : ControlRun := { queue := q, seq := seq.toNat, waiting := [], answered := 0, all := bitOf (byteAt b 1) 0,
                              timeoutUs := (if getLE b 8 4 = 0 then 10000 else getLE b 8 4), since := s.now }
      (q.val ≠ 65536 → exec (.wefinControl q seq) s = s.endsWith q seq 3 0)
      ∧ (q.val = 65536 → checkWefinControl b = 0 →
        ((s.planned = false ∨ s.wfn.formed = none) → exec (.wefinControl q seq) s = s.endsWith q seq 0x0301 0)
        ∧ (s.planned = true → s.wfn.formed ≠ none → bitOf (byteAt b 1) 0 = false →
          (dest = s.here → exec (.wefinControl q seq) s =
            .next (endCommand q seq.toNat 0 1 (controlAct (byteAt b 0) (getLE b 6 2) s).2))
          ∧ (dest ≠ s.here → ∀ c1 t, sendControl (byteAt b 0) (getLE b 6 2) dest c s = (some c1, t) →
            exec (.wefinControl q seq) s = .next (waitControl c1 (t.updFlight q seq.toNat (fun g => { g with phase := 1 })))))))
  ∧ (∀ (q : Qn) (seq : Word64) (s : State) (c : ControlRun),
      s.wfn.controls.find? (fun c => c.queue == q.val && c.seq == seq.toNat) = some c → c.since + c.timeoutUs * 1000 ≤ s.now →
      exec (.wefinControlTimeout q seq) s = .next (endControl c (if c.all then 0 else 6) s))

/-- While no command waits a running timebase advances by one per ns, plus or minus the slew, and never decreases; a
stopped one stays. A request goes to the parent every 100 us and is answered with its sequence number, T1 and the
arrival time; a response to it gives the offset, a slew of at most 200 ppm, and ALIGNED after ten offsets within 20 ns
(offsets rounded down to a nanosecond are the model's choice, log entry 36). Alignment is lost after 10 ms, or at once
when the parent is not aligned. Step 13 ends after ALIGN_WAIT_MS. A beat window publishes its four counts with their
minimum; a die held in reset publishes zeros. A replica takes the hub's time, and a service mode changes only when the
die runs no user command. (R28; R29; R33; R34; R36; R37; R68; R69; R70; R391; R392; R574) -/
def Obligations.TimeAdvancesAlignsAndIsPublished : Prop :=
  (∀ (s : State), s.pending = [] → 0 ≤ s.time.slewRem → ∃ t, step s = .next t ∧ s.time.now ≤ t.time.now ∧ 0 ≤ t.time.slewRem
    ∧ (s.rfld ZG_TIME_STATUS 0 0 = 0 → t = s) ∧ (s.rfld ZG_TIME_STATUS 31 16 = 0 → s.rfld ZG_TIME_STATUS 0 0 = 1 →
      s.time.slewRem < 1000000 → t.time.now = s.time.now + 1))
  ∧ (∀ (s : State) (p : Nat), s.timeParent = some p → s.wfn.timeReqAt + 100000 ≤ s.now →
      let w := s.wfn
      let s1 := { s with wfn := { w with timeSeq := (w.timeSeq + 1) % 65536, timeReqAt := s.now, timeWait := true,
                                         timeGood := if w.timeWait then 0 else w.timeGood },
                         boot := { s.boot with thetas := if w.timeWait then [] else s.boot.thetas } }
      exec .timeRequest s = .next (sendOneHop p (toPeer p 1 (timeBody 0 ((w.timeSeq + 1) % 65536) 0 0 s1) s1) s1))
  ∧ (∀ (p : Fin 24) (a : Arrived) (s s1 : State),
      let b := pkBody a.bytes
      (s.packetTaken p (fun b => pkType b == 1 && byteAt b 24 == 0) a s1 →
        exec (.timeRequestReceive p) s =
          .next (sendOneHop p (toPeer p 1 (timeBody 1 (getLE b 2 2) (getLE b 8 8) a.at_ s1) s1) s1))
      ∧ (s.packetTaken p (fun b => pkType b == 1 && byteAt b 24 == 1) a s1 →
        (s1.timeParent = some p.val → s1.wfn.timeWait = true → getLE b 2 2 = s1.wfn.timeSeq →
          exec (.timeResponseReceive p) s = .next (takeTheta (thetaOf (getLE b 8 8) (getLE b 16 8) (getLE b 24 8) a.at_) (byteAt b 1)
            { s1 with wfn := { s1.wfn with timeWait := false } }))
        ∧ (getLE b 2 2 ≠ s1.wfn.timeSeq → exec (.timeResponseReceive p) s = .next s1)))
  ∧ (∀ (theta : Int) (pd : Nat) (s : State), s.canonical = true → s.boot.step13 = false → pd ≠ 255 →
      let t := takeTheta theta pd s
      t.rfld ZG_TIME_STATUS 31 16 = (BitVec.ofInt 16 (max (-200) (min 200 (10 * theta)))).toNat
      ∧ t.wfn.timeGood = (if -20 ≤ theta ∧ theta ≤ 20 then s.wfn.timeGood + 1 else 0) ∧ t.wfn.timeAt = s.now
      ∧ t.time.now = s.time.now
      ∧ (s.rfld ZG_TIME_STATUS 1 1 = 1 → t.rfld ZG_TIME_STATUS 1 1 = 1)
      ∧ (s.rfld ZG_TIME_STATUS 1 1 = 0 → (t.rfld ZG_TIME_STATUS 1 1 = 1 ↔ 10 ≤ t.wfn.timeGood)))
  ∧ (∀ (t1 t2 t3 t4 : Nat) (k : Int), (t2 : Int) - t1 - (t4 - t3) = 2 * k → thetaOf t1 t2 t3 t4 = k)
  ∧ (∀ (s : State), s.rfld ZG_TIME_STATUS 1 1 = 1 → s.isReference = false → s.wfn.timeAt + 10000000 ≤ s.now →
      exec .alignmentLost s = .next (loseAlignment s))
  ∧ (∀ (s : State), s.boot.step13 = true → s.stage = 9 →
      ((s.boot.step12At + s.rfld ZG_BOOT_CTRL 31 16 * 1000000 ≤ s.now ∨ s.planned = false ∨ s.isReference = true) →
        exec .alignWaitExpire s = .next (becomeReady s))
      ∧ (s.now < s.boot.step12At + s.rfld ZG_BOOT_CTRL 31 16 * 1000000 → s.planned = true → s.isReference = false →
        exec .alignWaitExpire s = .next s))
  ∧ (∀ (d : Die) (q0 q1 q2 q3 : BitVec 16) (s : State), s.canonical = true →
      let off := s.dieState d = 0 ∨ s.dieState d = 4 ∨ s.dieState d = 5
      (s.windowDue d = false → exec (.beatWindowPublish d q0 q1 q2 q3) s = .next s) ∧ (s.windowDue d = true → ∃ t, exec (.beatWindowPublish d q0 q1 q2 q3) s = .next t
        ∧ (off → t.reg (ZG_BEAT_QUAD d) = 0 ∧ t.rfld (ZG_BEAT_WINDOW d) 15 0 = 0 ∧ t.reg (ZG_BEAT_COUNT d) = s.reg (ZG_BEAT_COUNT d))
        ∧ (¬ off → t.reg (ZG_BEAT_QUAD d) = BitVec.ofNat 64 (q3.toNat * 2 ^ 48 + q2.toNat * 2 ^ 32 + q1.toNat * 65536 + q0.toNat)
            ∧ t.rfld (ZG_BEAT_WINDOW d) 15 0 = min (min q0.toNat q1.toNat) (min q2.toNat q3.toNat)
            ∧ (t.reg (ZG_BEAT_COUNT d)) = s.reg (ZG_BEAT_COUNT d) + BitVec.ofNat 64 (min (min q0.toNat q1.toNat) (min q2.toNat q3.toNat)))
        ∧ t.rfld (ZG_BEAT_WINDOW d) 47 16 = (s.rfld (ZG_BEAT_WINDOW d) 47 16 + 1) % 2 ^ 32
        ∧ t.reg (ZG_BEAT_STAMP d) = BitVec.ofNat 64 (s.replicaOf d / 1000 * 1000)))
  ∧ (∀ (d : Die) (s : State), exec (.replicaCorrection d) s =
      .next { s with time := { s.time with replica := s.time.replica.set d.val s.now } })
  ∧ (∀ (d : Die) (s : State),
      (s.dieBusy d = true → exec (.serviceModeChange d) s = .next s)
      ∧ (s.dieBusy d = false → s.rfld (ZG_FMT_SERVICE d) 1 1 = 1 → s.canonical = true →
        ∃ t, exec (.serviceModeChange d) s = .next t ∧ t.reduced d = !s.reduced d ∧ t.rfld (ZG_FMT_SERVICE d) 1 1 = 0
          ∧ t.reg (ZG_FMT_SVC_STAMP d) = BitVec.ofNat 64 s.now))

/-- DROPOUT with a legal body runs in each named cluster once no vector program runs or waits before it there, and ends with
the lowest cluster that failed. An element is dropped to +0 exactly when its regenerated value lies below P16, else it is the
product converted to FMT. ACT_STORE writes a header of zeros, the payload and the header, or fails for want of
capacity; a header it writes passes the checks of ACT_LOAD and tells the payload's length and CRC. ACT_LOAD with a
failed header check fails the cluster before any write to SRAM; with a failed payload CRC it fails after. (R399; R400;
R406; R407; R409; R410; R411; R412; R413; R414; R434) -/
def Obligations.DropoutAndStoredActivationsRunInNamedClusters : Prop :=
  (∀ (q : Qn) (seq : Word64) (s : State) (f : Flight),
    let b := dBody f.desc
    let d := (s.queue q).die
    let cs := clusterRange (byteAt b 0) (byteAt b 1)
    s.runs q seq 0xA0 f →
    (checkDropout b (s.sramBound d) s ≠ 0 → exec (.dropout q seq) s = s.endsWith q seq (checkDropout b (s.sramBound d) s) 0)
    ∧ (checkDropout b (s.sramBound d) s = 0 → (checkClusters q seq.toNat (byteAt b 0) (byteAt b 1) s).1 = 0 →
      ((∃ c ∈ cs, (s.clus d c).prog.isSome = true ∨ s.namedAhead q seq.toNat f 0x20 c = true) → exec (.dropout q seq) s = .next s)
      ∧ ((∀ c ∈ cs, (s.clus d c).prog = none ∧ s.namedAhead q seq.toNat f 0x20 c = false) →
        let r := cs.foldl (fun (r : List (Nat × Nat) × State) c =>
          let x := dropRows b d c (c - byteAt b 0) (s.queuePart q) (List.range (getLE b 6 2)) r.2
          (r.1 ++ [(c, x.1)], x.2)) ([], s)
        exec (.dropout q seq) s = .next (endClusters q seq.toNat r.1 r.2))))
  ∧ (∀ (reduced : Bool) (fmt p16 scale v x : Nat),
      (v < p16 → dropElem reduced fmt p16 scale v x = (0, false))
      ∧ (p16 ≤ v → (dropElem reduced fmt p16 scale v x).2 = true
        ∧ (dropElem reduced fmt p16 scale v x).1 =
            convertTo reduced fmt 0 false 0 (mulExact (decodeElem reduced fmt x) (f32 reduced scale)).1))
  ∧ (∀ (q : Qn) (seq : Word64) (s : State) (f : Flight),
      let b := dBody f.desc
      let d := (s.queue q).die
      let cs := clusterRange (byteAt b 0) (byteAt b 1)
      (s.runs q seq 0xA1 f → checkAct true b (s.sramBound d) s = 0 → (checkClusters q seq.toNat (byteAt b 0) (byteAt b 1) s).1 = 0 →
        (∀ c ∈ cs, (s.clus d c).mv = none ∧ s.namedAhead q seq.toNat f 0x21 c = false) → ∀ ends t,
        actClusters (fun c t => actStoreIn (s.req q f 1) b d c (c - byteAt b 0) (t.queuePart q) t) cs [] s = .inr (ends, t) →
        exec (.actStore q seq) s = .next (endClusters q seq.toNat ends t))
      ∧ (s.runs q seq 0xA2 f → checkAct false b (s.sramBound d) s = 0 → (checkClusters q seq.toNat (byteAt b 0) (byteAt b 1) s).1 = 0 →
        (∀ c ∈ cs, (s.clus d c).mv = none ∧ s.namedAhead q seq.toNat f 0x21 c = false) → ∀ ends t,
        actClusters (fun c t => actLoadIn (s.req q f 0) b d c (c - byteAt b 0) (t.queuePart q) t) cs [] s = .inr (ends, t) →
        exec (.actLoad q seq) s = .next (endClusters q seq.toNat ends t)))
  ∧ (∀ (rq : Req) (b : List Byte) (d c rel : Nat) (part : Option Nat) (s s1 s2 s3 : State) (rows : List (List Nat)) (u : Unit),
      let va := (getLE b 0x18 8 + rel * getLE b 0x20 8) % two64
      let payload := actPayload (s2.reduced d) b rel rows
      let room := getLE b 0x14 4 - 64
      vaWrite rq va (zeros 64) s = .ok u s1 → readTensor b d c part (List.range (aRows b)) s1 = (some rows, s2) →
      vaWrite rq ((va + 64) % two64) (payload.take room) s2 = .ok u s3 →
      (room < payload.length → actStoreIn rq b d c rel part s = .ended 0x0401 s3)
      ∧ (payload.length ≤ room → ∀ t, vaWrite rq va (actHeader b payload) s3 = .ok u t → actStoreIn rq b d c rel part s = .ended 0 t))
  ∧ (∀ (b p : List Byte), aStfmt b < 256 → aCmp b < 256 → aSfmt b < 256 → p.length < 2 ^ 32 →
      (actHeader b p).length = 64 ∧ headerFault b (actHeader b p) = none ∧ getLE (actHeader b p) 0x0C 4 = p.length
      ∧ getLE (actHeader b p) 0x10 4 = crc32c p % 2 ^ 32)
  ∧ (∀ (rq : Req) (b h : List Byte) (d c rel k : Nat) (part : Option Nat) (s s1 : State),
      vaRead rq ((getLE b 0x18 8 + rel * getLE b 0x20 8) % two64) 64 s = .ok h s1 → headerFault b h = some k →
      ∃ t, actLoadIn rq b d c rel part s = .ended 0x0402 t ∧ t.clu = s1.clu)

/-- STAGE_SET binds a queue to a context or clears one, STAGE_SCHED loads or stops the schedule, each with the failures of
R417. STAGE_MARK of the context whose turn it is completes and advances the schedule; another waits while the schedule
runs, fails once it does not, and an unbound queue's completes at once. DEFER_BEGIN of a normal-class queue opens a
region of the descriptors that follow, and waits at a seventeenth; DEFER_DRAIN waits for earlier regions. FILL_BEGIN
waits for its unit, opens it when every command in it is legal, and fails the whole unit otherwise. (R415; R416; R417;
R418; R419; R420; R425) -/
def Obligations.StagesRegionsAndUnitsFollowTheirRules : Prop :=
  (∀ (q : Qn) (seq : Word64) (s : State) (f : Flight),
    let b := dBody f.desc
    let d := (s.queue q).die
    let p := (s.queue q).part
    let x := s.stg d
    (s.runs q seq 0xA3 f → byteAt b 1 ≠ 1 →
      (checkStageSet b ≠ 0 → exec (.stageSetBind q seq) s = s.endsWith q seq 1 0)
      ∧ (checkStageSet b = 0 → stageQueueBad d p (byteAt b 0) (getLE b 2 2) s = true → exec (.stageSetBind q seq) s = s.endsWith q seq 1 0)
      ∧ (checkStageSet b = 0 → stageQueueBad d p (byteAt b 0) (getLE b 2 2) s = false →
        (x.foreign p = true → exec (.stageSetBind q seq) s = s.endsWith q seq 0x0403 0)
        ∧ (x.foreign p = false → s.markWaits d (byteAt b 0) = true → exec (.stageSetBind q seq) s = s.endsWith q seq 9 0)
        ∧ (x.foreign p = false → s.markWaits d (byteAt b 0) = false → exec (.stageSetBind q seq) s =
            .next (endCommand q seq.toNat 0 0 (s.setStg d { x with part := p, ctxs := cset 0 x.ctxs (byteAt b 0) (getLE b 2 2 + 1) })))))
    ∧ (s.runs q seq 0xA3 f → byteAt b 1 = 1 → checkStageSet b = 0 →
      ((x.foreign p = true ∨ (x.active = true ∧ byteAt b 0 ∈ x.entries)) → exec (.stageSetClear q seq) s = s.endsWith q seq 0x0403 0)
      ∧ (x.foreign p = false → (x.active = false ∨ byteAt b 0 ∉ x.entries) →
        exec (.stageSetClear q seq) s = .next (endCommand q seq.toNat 0 0 (s.setStg d
          { x with ctxs := cset 0 x.ctxs (byteAt b 0) 0, part := if cset 0 x.ctxs (byteAt b 0) 0 = [] then 0 else x.part }))))
    ∧ (s.runs q seq 0xA4 f → checkStageSched b = 0 → ∀ bs t, vaRead (s.req q f 6) (getLE b 8 8) (getLE b 0 2) s = .ok bs t →
      (∀ e ∈ bs, e.toNat < 8 ∧ cget 0 x.ctxs e.toNat ≠ 0) → (∀ k < 8, t.markWaits d k = false) → x.foreign (t.queue q).part = false →
      exec (.stageSched q seq) s = .next (endCommand q seq.toNat 0 0 (t.setStg d
        { x with active := getLE b 0 2 != 0, loop := byteAt b 2 == 1 && getLE b 0 2 != 0, entries := bs.map (·.toNat), pos := 0 })))
    ∧ (s.runs q seq 0xA7 f →
      (f.deferred = true → exec (.stageMark q seq) s = s.endsWith q seq 1 0)
      ∧ (f.deferred = false → x.ctxOf q = none → exec (.stageMark q seq) s = s.endsWith q seq 0 0)
      ∧ (∀ k, f.deferred = false → x.ctxOf q = some k →
        (x.active = true → x.entries.getD x.pos 8 = k →
          exec (.stageMark q seq) s = .next (endCommand q seq.toNat 0 0 (s.setStg d x.advance)))
        ∧ (x.active = true → x.entries.getD x.pos 8 ≠ k → f.phase ≠ 1 →
          exec (.stageMark q seq) s = .next (noteRun q (s.updFlight q seq.toNat (fun g => { g with phase := 1 }))))
        ∧ (x.active = false → f.phase ≠ 1 → exec (.stageMark q seq) s = .next (endCommand q seq.toNat 0x0404 0
            (trnEvent d 5 q (s.queuePart q) (q.val % 65536 + k * 65536) 0 s))))))
  ∧ (∀ x : StageSt, x.active = true → x.pos < x.entries.length →
      (x.pos + 1 < x.entries.length → x.advance = { x with pos := x.pos + 1 })
      ∧ (x.pos + 1 = x.entries.length → x.loop = true → x.advance = { x with pos := 0 })
      ∧ (x.pos + 1 = x.entries.length → x.loop = false → x.advance = { x with active := false, entries := [], pos := 0 }))
  ∧ (∀ (q : Qn) (seq : Word64) (s : State) (f : Flight),
      let b := dBody f.desc
      let x := s.queue q
      let n := getLE b 0 2
      (s.runs q seq 0xA5 f →
        (x.cls ≠ 1 → exec (.deferBegin q seq) s = s.endsWith q seq 9 0)
        ∧ (x.cls = 1 → (f.deferred = true ∨ checkDeferBegin b x.sqLog2 ≠ 0) → exec (.deferBegin q seq) s = s.endsWith q seq 1 0)
        ∧ (x.cls = 1 → f.deferred = false → checkDeferBegin b x.sqLog2 = 0 →
          (16 ≤ x.regions.length → exec (.deferBegin q seq) s = .next s)
          ∧ (x.regions.length < 16 → exec (.deferBegin q seq) s = .next (endCommand q seq.toNat 0 0 (s.setQueue q
              ({ x with regions := x.regions ++ [{ first := seq.toNat + 1, count := n, fetchedTo := seq.toNat, next := seq.toNat + 1 }],
                        mainSeq := seq.toNat + n } : Queue).settleFetched)))))
      ∧ (s.runs q seq 0xA6 f → x.cls = 1 → f.deferred = false →
        ((∃ r ∈ x.regions, r.first < seq.toNat ∧ x.regionDone r = false) → exec (.deferDrain q seq) s = .next s)
        ∧ ((∀ r ∈ x.regions, seq.toNat ≤ r.first ∨ x.regionDone r = true) → exec (.deferDrain q seq) s = s.endsWith q seq 0 0))
      ∧ (s.runs q seq 0xA8 f → x.cls = 2 → f.deferred = false → checkFillBegin b = 0 →
        let ds := x.fetched.take n
        let u : FillUnit := { first := seq.toNat + 1, width := byteAt b 2, maxTries := getLE b 4 4, descs := ds }
        let s1 := endCommand q seq.toNat 0 0 s
        let s2 := s1.setQueue q { s1.queue q with unit := some u, fetched := x.fetched.drop n }
        ((x.unit.isSome = true ∨ (x.fetched.length < n ∧ x.bad = none)) → exec (.fillBegin q seq) s = .next s)
        ∧ (x.unit = none → n ≤ x.fetched.length →
          ((∀ e ∈ ds, unitIllegal (byteAt b 2) (s.rfld (ZG_TRN_CTRL x.die) 31 24) e = false) → exec (.fillBegin q seq) s = .next s2)
          ∧ ((∃ e ∈ ds, unitIllegal (byteAt b 2) (s.rfld (ZG_TRN_CTRL x.die) 31 24) e = true) →
            exec (.fillBegin q seq) s = .next (takeBad q (failUnit q 0x0405 s2))))))

/-- SRL_UPDATE and SRL_ROOT read their record and fail with the first check of R441 or R447 that fails, writing nothing.
Rule 0 marks the record TORN, writes the state and then the record with TORN 0, STEP + 1 and the digest; another rule
takes clusters or is set aside, and finishes when its command comes again with clusters borrowed. A record that was
marked stays well formed and is refused as torn; an update repeated after its commit is refused as a step mismatch. A
command set aside resumes when a cluster is eligible; at a slice end the owner's clusters go back, but nothing is set
aside inside a commit; a long wait raises its event once. (R435; R441; R443; R447; R448; R449; R450; R451; R452; R454; R455; R467) -/
def Obligations.SorrelUpdatesCheckBorrowCommitAndDigest : Prop :=
  (∀ (q : Qn) (seq : Word64) (res : Fin 3) (s : State) (f : Flight),
    let b := dBody f.desc
    let d := (s.queue q).die
    let rq := s.req q f 4
    s.runs q seq 0x70 f →
    (f.phase = 5 → exec (.srlUpdate q seq res) s = .next s)
    ∧ (f.phase ≠ 5 → checkSrlUpdate b ≠ 0 → exec (.srlUpdate q seq res) s = s.endsWith q seq 1 0)
    ∧ (f.phase = 0 → checkSrlUpdate b = 0 → srlMayStart d q f s = false → exec (.srlUpdate q seq res) s = .next s)
    ∧ (f.phase = 0 → checkSrlUpdate b = 0 → srlMayStart d q f s = true → ∀ x s1, updateInput rq b s = .ok x s1 →
      let st := firstFail [updateChecks b x, failIf (rRule x.rec_ != 0 && noArrays d rq.part s) 0x0501]
      (st ≠ 0 → exec (.srlUpdate q seq res) s = .next (endCommand q seq.toNat st 0 s1))
      ∧ (st = 0 → bitOf (byteAt b 0) 7 = true → ∀ s2, gradientBad rq x.rec_ s1 = .ok true s2 →
        exec (.srlUpdate q seq res) s = .next (endCommand q seq.toNat 0x0502 0
          (srlEvent d 1 q (s2.queuePart q) (rStep x.rec_) (rId x.rec_) (bump (ZG_SRL_SKIPPED d) 1 s2))))
      ∧ (st = 0 → bitOf (byteAt b 0) 7 = false → rRule x.rec_ ≠ 0 →
        exec (.srlUpdate q seq res) s = .next (srlBegin d q seq.toNat (byteAt b 3) s1))
      ∧ (st = 0 → bitOf (byteAt b 0) 7 = false → rRule x.rec_ = 0 → getLE b 0x48 8 = 0 →
        ∀ (u : Unit) (r : SrlResult) (s2 s3 s4 s5 : State),
        let va := getLE b 0x20 8
        let next := putAt (putAt x.rec_ 3 [0]) 0x50 (natLE 8 (getLE b 0x38 8 + 1))
        let s0 := dropSorrel q seq.toNat s1
        vaWrite rq va (sealRecord (putAt x.rec_ 3 [1])) s0 = .ok u s2 →
        updateResult rq (s1.reduced d) b x.rec_ x.bind x.coefs s2 = .ok r s3 →
        Acc.forEach (fun p t => vaWriteWhole rq p.1 p.2 t) r.writes s3 = .ok u s4 →
        vaWrite rq va (sealRecord (putAt next 0x60 (natLE 8 (srlDigest next r.digest)))) s4 = .ok u s5 →
        exec (.srlUpdate q seq 0) s = .next (endCommand q seq.toNat 0 0 (pmcCount d 9 (s5.queuePart q) (rRows x.rec_ * rCols x.rec_)
          (bump (ZG_SRL_ELEMS d) (rRows x.rec_ * rCols x.rec_) (bump (ZG_SRL_UPDATES d) 1 s5))))))
    ∧ ((f.phase = 3 ∧ s.borrowed d q seq.toNat ≠ [] ∨ f.phase = 4) → checkSrlUpdate b = 0 → ∀ x s1, updateInput rq b s = .ok x s1 →
        exec (.srlUpdate q seq 0) s = .next (updateFinish q seq.toNat rq s b x s1))
    ∧ (f.phase = 6 → checkSrlUpdate b = 0 → getLE b 0x48 8 ≠ 0 → ∀ r s1 u s2, vaRead rq (getLE b 0x20 8) 128 s = .ok r s1 →
        vaWrite rq (getLE b 0x48 8) (digestRecord 0 r) s1 = .ok u s2 →
        exec (.srlUpdate q seq res) s = .next (endCommand q seq.toNat 0 0 (dropSorrel q seq.toNat s2))))
  ∧ (∀ (b : List Byte) (x : SrlInput) (dig : Nat), x.rec_.length = 128 → updateChecks b x = 0 →
      updateChecks b { x with rec_ := sealRecord (putAt x.rec_ 3 [1]) } = 0x0505
      ∧ updateChecks b { x with rec_ := sealRecord (putAt (putAt (putAt x.rec_ 3 [0]) 0x50 (natLE 8 (getLE b 0x38 8 + 1))) 0x60
          (natLE 8 dig)) } = 0x0504)
  ∧ (∀ (q : Qn) (seq : Word64) (res : Fin 3) (s : State) (f : Flight),
      let b := dBody f.desc
      let d := (s.queue q).die
      let rq := s.req q f 4
      s.runs q seq 0x71 f → checkSrlRoot b = 0 → ∀ r s1, vaRead rq (getLE b 0x10 8) 128 s = .ok r s1 →
      (f.phase = 0 → srlMayStart d q f s = true →
        (rootChecks b r ≠ 0 → exec (.srlRoot q ⟨seq, res⟩) s = .next (endCommand q seq.toNat (rootChecks b r) 0 s1))
        ∧ (rootChecks b r = 0 → noArrays d rq.part s = true → exec (.srlRoot q ⟨seq, res⟩) s = .next (endCommand q seq.toNat 0x0501 0 s1))
        ∧ (rootChecks b r = 0 → noArrays d rq.part s = false →
          exec (.srlRoot q ⟨seq, res⟩) s = .next (srlBegin d q seq.toNat (byteAt b 2) s1)))
      ∧ ((f.phase = 3 ∧ s.borrowed d q seq.toNat ≠ [] ∨ f.phase = 4) →
        exec (.srlRoot q ⟨seq, 0⟩) s = .next (rootFinish q seq.toNat rq s b r s1)))
  ∧ (∀ (d q seq limit : Nat) (s : State),
      let t := srlTake d q seq (s.queue q).part limit s
      (t.borrowed d q seq = [] → srlBegin d q seq limit s = (t.setSrl d { t.srlOf d with
          aside := (t.srlOf d).aside ++ [{ queue := q, seq := seq, since := t.now }] }).updFlight q seq (fun f => { f with phase := 5 }))
      ∧ (t.borrowed d q seq ≠ [] → srlBegin d q seq limit s = srlOwn d q seq 3 none t))
  ∧ (∀ (d : Die) (s : State) (a : SrlAside), (s.srlOf d).cur = none →
      (s.srlOf d).aside.find? (fun a => s.eligible d (s.queue a.queue).part != []) = some a →
      let t := srlTake d a.queue a.seq (s.queue a.queue).part (srlLimit a.queue a.seq s) s
      (t.borrowed d a.queue a.seq = [] → exec (.srlResume d) s = .next t)
      ∧ (t.borrowed d a.queue a.seq ≠ [] → exec (.srlResume d) s = .next
          (srlOwn d a.queue a.seq 3 none (t.setSrl d { t.srlOf d with aside := (s.srlOf d).aside.filter (· ≠ a) }))))
  ∧ (∀ (d : Die) (s0 : State) (q seq : Nat) (f : Flight), (s0.srlOf d).cur = some (q, seq) → s0.flight q seq = some f →
      let s := s0.setSrl d { s0.srlOf d with waitMs := s0.rfld (ZG_SRL_CTRL d) 15 8 }
      let p := (s.queue q).part
      let back := (s.borrowed d q seq).filter (fun c =>
        s.ownerWants d p c || (s.clus d c).loan.any (·.ending) || !s.ownsCluster p d c)
      let s1 := back.foldl (fun t c => returnCluster d c t) s
      let s2 := (((s1.eligible d p).filter (fun c => !back.contains c)).take
        ((if srlLimit q seq s1 = 0 then 64 else srlLimit q seq s1) - (s1.borrowed d q seq).length)).foldl
          (fun t c => takeCluster d q seq p c t) s1
      let x : SrlDie := { s2.srlOf d with cur := none, aside := (s2.srlOf d).aside ++ [{ queue := q, seq := seq, since := s2.now }] }
      (f.phase ≠ 3 → exec (.srlSliceEnd d) s0 = .next s)
      ∧ (f.phase = 3 → s2.borrowed d q seq ≠ [] → exec (.srlSliceEnd d) s0 = .next s2)
      ∧ (f.phase = 3 → s2.borrowed d q seq = [] → exec (.srlSliceEnd d) s0 =
          .next ((s2.setSrl d x).updFlight q seq (fun f => { f with phase := 5 }))))
  ∧ (∀ (q : Qn) (seq : Word64) (s s1 : State) (f : Flight) (a : SrlAside) (r : List Byte), s.flight q seq.toNat = some f →
      let d := (s.queue q).die
      let x := s.srlOf d
      x.aside.find? (fun a => a.queue == q.val && a.seq == seq.toNat) = some a →
      (a.raised = true → exec (.srlWaitEvent q seq) s = .next s)
      ∧ (a.raised = false → s.srlWaitMs d ≠ 0 → a.since + s.srlWaitMs d * 1000000 ≤ s.now →
        vaRead (s.req q f 4) (getLE (dBody f.desc) (if dOpc f.desc = 0x70 then 0x20 else 0x10) 8) 128 s = .ok r s1 →
        exec (.srlWaitEvent q seq) s = .next (srlEvent d 4 q (s.queuePart q) (rStep r) (rId r)
          (s.setSrl d { x with aside := x.aside.map (fun y => if y = a then { a with raised := true } else y) }))))

/-- On the command's turn at the Campion engine, CHK_SCAN computes and records its check value and fails only where it is
asked to match and differs; CHK_COMPARE succeeds exactly when the two ranges are equal, and else names the first
16-byte unit that differs. PROVENANCE takes one step of its partition's chain, not without its audit record where one
is due. TWIN_DIGEST waits for the twin's digest; equal digests end it with success, others with the mismatch status, a
lapse with the timeout status, and the entry is freed. An arriving digest is entered once. A self-test that found
nothing passes and the die returns to normal service; one with failures is recorded as failed. (R471; R472; R474;
R475; R476; R478; R479; R481; R482; R483; R490; R491) -/
def Obligations.CheckValuesChainsTwinsAndSelfTestsDecide : Prop :=
  (∀ (q : Qn) (seq : Word64) (s : State) (f : Flight),
    let b := dBody f.desc
    let d := (s.queue q).die
    let rq := s.req q f 5
    (s.runs q seq 0x78 f → campionTurn d f.order s = true → checkScan b = 0 → ∀ bs s1 u s2,
      vaRead rq (getLE b 8 8) (getLE b 0x10 8) s = .ok bs s1 →
      let r := codeFrom (byteAt b 0 % 4) (if bitOf (byteAt b 0) 2 then getLE b 0x18 8 else 0) bs
      let miss := bitOf (byteAt b 0) 3 && r != getLE b 0x20 8
      writeScanRecord rq (getLE b 0x28 8) (scanRecord r (nextAlive d s1) (getLE b 0x10 8) (byteAt b 0 % 4) d
        (((s1.flight q seq.toNat).map (·.unwritten)).getD false) miss) s1 = .ok u s2 →
      (miss = false → exec (.chkScan q seq) s = .next (endCommand q seq.toNat 0 0 (bump (ZG_INT_SCANS d) 1 s2)))
      ∧ (miss = true → exec (.chkScan q seq) s =
          .next (checkMismatch q seq.toNat d 1 (q % 65536 + d * 65536) 0 (bump (ZG_INT_SCANS d) 1 s2))))
    ∧ (s.runs q seq 0x79 f → campionTurn d f.order s = true → checkCompare b = 0 → ∀ xs ys s1 s2,
      vaRead rq (getLE b 0 8) (getLE b 0x10 8) s = .ok xs s1 → vaRead rq (getLE b 8 8) (getLE b 0x10 8) s1 = .ok ys s2 →
      (xs = ys → exec (.chkCompare q seq) s = .next (endCommand q seq.toNat 0 0 s2))
      ∧ (xs ≠ ys → ∃ k t, exec (.chkCompare q seq) s = .next (endCommand q seq.toNat 0x0602 k t)
          ∧ (xs.length = ys.length → (xs.drop (16 * k)).take 16 ≠ (ys.drop (16 * k)).take 16 ∨ k = 65535)
          ∧ xs.take (16 * k) = ys.take (16 * k)))
    ∧ (s.runs q seq 0x78 f → campionTurn d f.order s = false → exec (.chkScan q seq) s = .next s)
    ∧ (s.runs q seq 0x7B f → campionTurn d f.order s = true → checkProvenance b = 0 → ∀ data s1,
      provData rq b s = .ok (some data) s1 →
      let p := rq.part
      let pseq := ((s1.chain p).2 + 1) % two64
      let digest := sha384 ((s1.chain p).1 ++ natLE 8 pseq ++ sha384 data)
      let unw := ((s1.flight q seq.toNat).map (·.unwritten)).getD false
      (bitOf (byteAt b 0) 0 = false → (s1.part p).audit = false → ∀ u s2,
        vaWrite rq (getLE b 0x18 8) (provRecord (sha384 data) digest pseq s1.now (s1.part p).tenant p false unw)
          { s1 with integ := { s1.integ with chains := cset ([], 0) s1.integ.chains p (digest, pseq) } } = .ok u s2 →
        exec (.provenance q seq) s = .next (endCommand q seq.toNat 0 0 (bump (ZG_INT_PROV rq.die) 1 s2)))
      ∧ ((bitOf (byteAt b 0) 0 = true ∨ (s1.part p).audit = true) → ∀ t,
        auditAppend false { kind := 2, path := 3, part := some p, tenant := (s1.part p).tenant, aux := pseq, subject := digest } s1 = (false, t) →
        exec (.provenance q seq) s = .next (endCommand q seq.toNat 0x0606 0 t))))
  ∧ (∀ (q : Qn) (seq : Word64) (s s1 t : State) (f : Flight) (bs : List Byte) (id : Nat),
      let b := dBody f.desc
      let tenant := s1.queueTenant q
      let tag := getLE b 0 4
      let limit := (if getLE b 0x18 4 = 0 then 10000 else getLE b 0x18 4) * 1000000
      let o : TwinOwn := { queue := q, seq := seq.toNat, digest := tableDigest bs, limit := limit, since := s1.now }
      let e : TwinEntry := { tenant := tenant, tag := tag, interval := getLE b 8 8, own := some o }
      s.runs q seq 0x7A f → f.phase = 0 → checkTwinDigest b = 0 → s.planned = true → byteAt s.wfn.plan 5 ≠ 0 →
      s.rfld ZG_TOP_TWIN 63 62 ≠ 3 → s.twin (s.queueTenant q) tag (getLE b 8 8) = none → s.integ.twins.length < 4096 →
      vaRead (s.req q f 6) (getLE b 0x10 8) (8 * byteAt b 4) s = .ok bs s1 → s1.twin tenant tag (getLE b 8 8) = none →
      inject { ptype := 7, dest := s1.here, dfield := 1 - s1.field, ddie := 0, sdie := (s1.queue q).die, tenant := tenant,
               body := digestBody tag (getLE b 8 8) (tableDigest bs) } none s1 = .sent id t →
      exec (.twinDigest q seq) s = .next ((putTwin e t).updFlight q seq.toNat (fun g => { g with phase := 1 })))
  ∧ (∀ (e : TwinEntry) (o : TwinOwn) (x : List Byte) (s : State), e.own = some o → e.twin = some x → ∃ t,
      (e.conflict = false → o.digest = x → settleTwin e s = endCommand o.queue o.seq 0 0 t)
      ∧ ((e.conflict = true ∨ o.digest ≠ x) → settleTwin e s = endCommand o.queue o.seq 0x0603 0 t)
      ∧ t.integ.twins = s.integ.twins.filter (fun y => !y.hasKey e.tenant e.tag e.interval))
  ∧ (∀ (p : Fin 24) (s s1 : State) (b : List Byte), s.packetComes p 7 b s1 → byteAt (pkBody b) 0 = 0 →
      let x := pkBody b
      let tag := getLE x 4 4
      let digest := (x.drop 1).take 1 ++ (x.drop 0x10).take 48
      (tag = 0 → exec (.digestReceive p) s = .next (twinDropped (pkTenant b) 2 0 s1))
      ∧ (tag ≠ 0 →
        (∀ e, s1.twin (pkTenant b) tag (getLE x 8 8) = some e → e.twin = none →
          exec (.digestReceive p) s = .next (settleTwin { e with twin := some digest, twinAt := s1.now } s1))
        ∧ (∀ e y, s1.twin (pkTenant b) tag (getLE x 8 8) = some e → e.twin = some y → y ≠ digest →
          exec (.digestReceive p) s = .next (putTwin { e with conflict := true } s1))
        ∧ (s1.twin (pkTenant b) tag (getLE x 8 8) = none → s1.integ.twins.length < 4096 →
          let hold := max 1 (s1.rfld ZG_INTH_CTRL 31 16) * 100000000
          exec (.digestReceive p) s = .next (putTwin ⟨pkTenant b, tag, getLE x 8 8, none, some digest, s1.now, hold, false⟩ s1))))
  ∧ (∀ (q : Qn) (seq : Word64) (s : State) (e : TwinEntry) (o : TwinOwn), s.integ.twins = [e] → e.own = some o →
      o.queue = q.val → o.seq = seq.toNat →
      (o.since + o.limit ≤ s.now → exec (.twinTimeout q seq) s = .next (twinGone e false s))
      ∧ (s.now < o.since + o.limit → exec (.twinTimeout q seq) s = .next s))
  ∧ (∀ s : State, ∃ t, exec .twinHoldExpire s = .next t
      ∧ t.integ.twins = s.integ.twins.filter (fun e => !(e.own.isNone && decide (e.twinAt + e.hold ≤ s.now))))
  ∧ (∀ (d : Die) (fails : List TestFail) (s : State), s.rfld (ZG_INT_ST d) 30 28 = 2 →
      let fs := fails.filter (fun x => decide (2 ≤ x.test.toNat) && decide (x.test.toNat ≤ 8))
      let runs := s.rfld (ZG_INT_ST d) 15 0
      (fs = [] → exec (.selftestDone d fails) s = .next (switchService d false 0 (intEvent d 8 65535 none d 0
        (s.setRegN (ZG_INT_ST d) (3 * 2 ^ 28 + runs)))))
      ∧ (∀ x rest, fs = x :: rest →
        let t := selfTestFailures d fs (s.setRegN (ZG_INT_ST d) (4 * 2 ^ 28 + x.test.toNat * 65536 + runs))
        ((∃ y ∈ fs, dieLevel y.test.toNat = true) → exec (.selftestDone d fails) s = .next t)
        ∧ ((∀ y ∈ fs, dieLevel y.test.toNat = false) → exec (.selftestDone d fails) s = .next (switchService d false 0 t))))

/-- A power sample updates the three powers and the excursion credit; a share of energy rounds down and carries the exact
rest. A pace window changes p by at most one step of R500 unless a stop closes the gates. The governor moves k at most
one step toward the least of its limits, and only while Betony runs. The lowest pending array is admitted no sooner
than t_adm after the last, the highest idle one released. A reading is valid within 0 to 125 C and 30 C of the median
(of an even number the mean of the middle two, the model's choice, log entry 41). A sensor at 115 C trips the package;
a coolant stop lowers k to VMIN, a hold that lasts aborts user commands. ENERGY_READ writes its record. (R496; R499;
R504; R505; R506; R508; R509; R510; R517; R519; R521; R524) -/
def Obligations.PowerIsMeasuredGovernedAndSharedOut : Prop :=
  (∀ (r0 r1 r2 r3 : Rails) (hub : BitVec 32) (work : List Activity) (s : State), ∃ t,
    exec (.powerSample r0 r1 r2 r3 hub work) s = .next t
    ∧ (let total := ([r0, r1, r2, r3].map (fun r => r.core.toNat + r.hbm.toNat + r.serdes.toNat)).sum + hub.toNat
       t.power.samples = (total :: s.power.samples).take 100 ∧ t.power.p1 = total
       ∧ t.power.p10 = ((total :: s.power.samples).take 10).sum / 10 ∧ t.power.p100 = t.power.samples.sum / 100
       ∧ t.power.eTotal = s.power.eTotal + total
       ∧ t.power.credit = if s.power.cap * 1000 < t.power.p10 then s.power.credit - 10 else min 100000 (s.power.credit + 1)))
  ∧ (∀ (key num den : Nat) (s : State), key < 0x100000 → 0 < den → cwf (0, 1) s.power.carried = true → cwf 0 s.power.eQueue = true →
      0 < (cget (0, 1) s.power.carried key).2 →
      let t := chargeShare key num den s
      let old := cget (0, 1) s.power.carried key
      let new := cget (0, 1) t.power.carried key
      new.1 < new.2 ∧ cget 0 s.power.eQueue key ≤ cget 0 t.power.eQueue key
      ∧ (cget 0 t.power.eQueue key - cget 0 s.power.eQueue key) * (old.2 * den) * new.2 + new.1 * (old.2 * den)
          = (old.1 * den + num * old.2) * new.2)
  ∧ (∀ (d : Die) (s : State), s.power.dies.length = 4 →
      (s.replicaOf d / 100 ≤ (s.pw d).window → exec (.paceWindow d) s = .next s)
      ∧ ((s.pw d).window < s.replicaOf d / 100 → ∃ t, exec (.paceWindow d) s = .next t ∧ (t.pw d).p = nextPace d s
          ∧ (t.pw d).window = s.replicaOf d / 100 ∧ (t.pw d).k = (s.pw d).k))
  ∧ (∀ (d : Nat) (s : State), (s.pw d).p ≤ 64 → nextPace d s ≤ 64 ∧ nextPace d s ≤ (s.pw d).p + s.paceStep d
      ∧ ((s.power.tripped = true ∨ s.power.coolState = 2) → nextPace d s = 0)
      ∧ (s.power.tripped = false → s.power.coolState ≠ 2 → (s.pw d).p ≤ nextPace d s + s.paceStep d)
      ∧ (s.power.tripped = false → s.power.coolState = 0 → 1 ≤ (s.pw d).p → 1 ≤ nextPace d s))
  ∧ (∀ (d : Die) (s : State),
      (s.betony ≠ 1 → exec (.governorLoop d) s = .next s)
      ∧ (s.betony = 1 → s.power.tripped = false → (s.power.coolState = 0 ∨ s.power.coolState = 3) → s.power.dies.length = 4 →
        ∃ t, exec (.governorLoop d) s = .next t
        ∧ (t.pw d).k = stepTo (s.pw d).k (min (s.kLimit d) (min (t.pw d).tIdx (t.pw d).cIdx))
        ∧ (t.pw d).k ≤ (s.pw d).k + 1 ∧ (s.pw d).k ≤ (t.pw d).k + 1
        ∧ (t.pw d).p = (s.pw d).p ∧ (t.pw d).limited = false
        ∧ ((s.pw d).p ≤ 64 → ∀ v, (t.pw d).want = some v → v ≤ 64)
        ∧ (372 < s.hotQ2 d → s.hotQ2 d < 380 → (t.pw d).tIdx = (s.pw d).tIdx)))
  ∧ (∀ (d : Die) (s : State) (i : Nat) (rest : List Nat), s.wantAdmit d = i :: rest → s.power.dies.length = 4 →
      let x := s.pw d
      (rampDue x.admitPs (s.admitPs d) s.now = false → exec (.arrayAdmit d) s = .next s)
      ∧ (s.lastDefence = false → rampDue x.admitPs (s.admitPs d) s.now = true → ∃ t, exec (.arrayAdmit d) s = .next t
          ∧ (t.pw d).admitted = x.admitted.filter (fun j => decide (j < i)) ++ i :: x.admitted.filter (fun j => decide (i < j))
          ∧ (t.pw d).admitPs = some (rampMoment x.admitPs (s.admitPs d) s.now)))
  ∧ (∀ (last step now : Nat), rampDue (some last) step now = true → last + step ≤ rampMoment (some last) step now
      ∧ rampMoment (some last) step now < (now + 1) * 1000)
  ∧ (∀ (d : Die) (s : State) (i : Nat), ((s.pw d).admitted.filter (fun i => releasable d i s)).getLast? = some i →
      s.power.dies.length = 4 → s.lastDefence = false → rampDue (s.pw d).releasePs (s.admitPs d) s.now = true →
      ∃ t, exec (.arrayRelease d) s = .next t ∧ (t.pw d).admitted = (s.pw d).admitted.filter (· ≠ i)
        ∧ (t.pw d).releasePs = some (rampMoment (s.pw d).releasePs (s.admitPs d) s.now))
  ∧ (∀ (d : Die) (s : State),
      let x := s.pw d
      let idle := x.openArrays.filter (fun i => decide (cget 0 x.lastBeat i + 10 ≤ s.now + 1) || cget 0 x.lastBeat i == 0)
      (s.power.ballastEn = false → exec (.ballastUpdate d) s = .next s)
      ∧ (s.power.ballastEn = true → s.power.tripped = false → exec (.ballastUpdate d) s = .next (s.updPw d fun x => { x with
          ballastPj := idle.foldl (fun m i => cset 0 m (cget 0 x.issued i) (cget 0 m (cget 0 x.issued i) + s.pArray d * 10)) x.ballastPj })))
  ∧ (∀ (die : Fin 5) (readings : List (BitVec 12)) (s : State), s.power.dies.length = 4 →
      (readingsWf die readings = false → exec (.sensorConvert die readings) s = .fault .illFormed)
      ∧ (readingsWf die readings = true → ∃ t, exec (.sensorConvert die readings) s = .next t
          ∧ t.sensors die = validated (readings.map (·.toInt))))
  ∧ (∀ (xs : List Int), (validated xs).map Prod.fst = xs ∧ ∀ p ∈ validated xs,
      (p.2 = true ↔ 0 ≤ p.1 ∧ p.1 ≤ 500 ∧ 2 * p.1 - median2 xs ≤ 240 ∧ median2 xs - 2 * p.1 ≤ 240))
  ∧ (∀ (die : Fin 5) (sensor : Fin 64) (temp : BitVec 12) (s : State), (die.val = 4 → sensor.val < 8) → s.stage ≠ 0 →
      s.power.tripped = false → s.power.dies.length = 4 →
      (temp.toNat < 460 → exec (.thermalTrip die sensor temp) s = .next s)
      ∧ (460 ≤ temp.toNat → ∃ t, (let u := (List.range 24).foldl (fun t p => leaveTo p 0 t) t
          exec (.thermalTrip die sensor temp) s = .next (resetAllFunctions { u with host := { u.host with linkUp := false } }))
          ∧ t.power.tripped = true ∧ t.pins.thermtripN = false ∧ (∀ d < 4, (t.pw d).p = 0)))
  ∧ (∀ (s : State), s.stage ≠ 0 → s.power.tripped = false → s.power.dies.length = 4 →
      (s.power.coolantEn = true → s.pins.coolantOk = false → s.pins.coolantAt + 10000 ≤ s.now → s.power.coolState = 0 → ∃ t,
        exec .coolantStop s = .next (settleCool t) ∧ t.power.coolState = 1 ∧ t.power.holdAt = s.now
        ∧ (∀ d < 4, (t.pw d).k = (s.vtable d).vmin))
      ∧ ((s.power.coolState = 1 ∨ s.power.coolState = 2) →
        ((s.power.coolantEn = false ∨ (s.pins.coolantOk = true ∧ s.pins.coolantAt + 10000000 ≤ s.now)) →
          exec .coolantResume s = .next (settleCool (setCool 3 s)))
        ∧ (s.power.coolantEn = true → s.pins.coolantOk = false → exec .coolantResume s = .next s))
      ∧ (s.power.coolState = 2 → s.power.coolantHoldMs ≠ 0 → s.power.holdAborted = false →
        s.power.holdAt + s.power.coolantHoldMs * 1000000 ≤ s.now →
        let qs := (s.host.queues.filter (fun p => !isAdmin p.1)).map Prod.fst
        let n := (qs.map (fun q => ((s.queue q).flights.filter (·.ended.isNone)).length)).sum
        exec .coolantHoldAbort s = .next (pwrEvent 7 4 (n % 4294967296)
          (qs.foldl (fun t q => abortFlights q 0x0701 t) { s with power := { s.power with holdAborted := true } }))))
  ∧ (∀ (q : Qn) (seq : Word64) (s : State) (f : Flight), s.runs q seq 0xB0 f →
      let b := dBody f.desc
      ((getLE b 0 8 % 32 ≠ 0 ∨ zeroAt b 8 8 = false) → exec (.energyRead q seq) s = s.endsWith q seq 1 0)
      ∧ (getLE b 0 8 % 32 = 0 → zeroAt b 8 8 = true → ∀ u t, vaWrite (s.req q f 6) (getLE b 0 8) (energyRecord f.work) s = .ok u t →
        exec (.energyRead q seq) s = .next (endCommand q seq.toNat 0 0 t)))

/-- Power-on loses HBM and takes the health record from the store; a cold reset keeps the bytes of HBM and the registers
that the table of reset classes keeps, and a package failed until power-on stays at STAGE 11. Bring-up ends at STAGE
4, or at STAGE 11 with the status of the first failure: hub self-test, voltage table, HBM training of the lowest
stack. An image that breaks a check returns STAGE to 4; one that passes was signed with a fused key that is not
revoked, its hashes match and its SVN is not below MIN_SVN. A passing image waits at STAGE 14 for coolant; else the
self-tests decide between STAGE 11 and readiness. A failed power-good input stops every die. That a RESET_N pulse
while RESET_N is low does nothing is the model's choice, log entry 43. (R522; R568; R572; R573; R576; R577; R578;
R580; R608; R609; R610; R613) -/
def Obligations.BringUpStepsAreTakenOrStopWithTheirFailure : Prop :=
  (∀ s : State,
    (s.pins.rails = 2 → exec .powerOn s = .next s)
    ∧ (s.pins.rails ≠ 2 → ∃ t, exec .powerOn s = .next t ∧ t.pins.rails = 2 ∧ t.pins.powerGood = true ∧ t.pins.resetN = false
        ∧ t.hbm.bytes = [] ∧ t.host.queues = [] ∧ t.host.mem = s.host.mem ∧ t.fuses = s.fuses ∧ t.store = s.store
        ∧ t.boot.health = s.store.health ∧ t.time.now = 0 ∧ t.clu = {} ∧ t.syn = {} ∧ t.coll = {} ∧ t.pending = s.pending))
  ∧ (∀ s : State,
    ((s.pins.rails ≠ 2 ∨ s.pins.resetN = false) → exec .coldReset s = .next s)
    ∧ (s.pins.rails = 2 → s.pins.resetN = true → ∃ t, exec .coldReset s = .next t ∧ t.host.queues = [] ∧ t.hbm.pt = []
        ∧ t.boot.health = s.boot.health ∧ t.store = s.store ∧ t.fuses = s.fuses ∧ t.power.tripped = false ∧ t.time.now = 0
        ∧ t.pins.thermtripN = true ∧ t.clu = {} ∧ t.banks = [] ∧ t.pending = s.pending
        ∧ (s.canonical = true → ∀ a, cget 0 t.hbm.bytes a = if keptByte a (cget 0 s.hbm.bytes a) then cget 0 s.hbm.bytes a else 0)
        ∧ (s.canonical = true → ∀ k, keptReg true k = true → t.reg k = s.reg k)
        ∧ (s.boot.failUntil = 2 → s.reg ZG_BOOT_STATE ≠ 0 → t.reg ZG_BOOT_STATE = s.reg ZG_BOOT_STATE ∧ t.pins.resetN = true
            ∧ t.boot.failUntil = 2)
        ∧ (s.boot.failUntil ≠ 2 → t.pins.resetN = false ∧ t.boot.failUntil = 0)))
  ∧ (∀ (a : Nat) (v : Byte), a % 0x4000000000 < 0x3FC0000000 → keptByte a v = false)
  ∧ (∀ (keep : Bool) (s : State),
    ((s.pins.rails = 0 ∨ (s.pins.resetN = true ∧ s.power.tripped = false)) → exec (.powerDown keep) s = .next s)
    ∧ (s.pins.rails ≠ 0 → (s.pins.resetN = false ∨ s.power.tripped = true) → ∃ t, exec (.powerDown keep) s = .next t
        ∧ t.pins.rails = (if keep then 1 else 0) ∧ t.pins.powerGood = false ∧ t.hbm.bytes = [] ∧ t.store = s.store
        ∧ t.power.tripped = (keep && s.power.tripped) ∧ t.pins.thermtripN = !(keep && s.power.tripped)))
  ∧ (∀ (straps : Fin 4) (hubOk : Bool) (tr : Training) (s : State),
    ((s.stage ≠ 0 ∨ s.pins.rails ≠ 2 ∨ s.power.tripped = true ∨ s.power.powerFail = true) → exec (.bringUp straps hubOk tr) s = .next s)
    ∧ (s.stage = 0 → s.pins.rails = 2 → s.power.tripped = false → s.power.powerFail = false →
        (hubOk = false → ∃ u, u.pins.straps = straps.val ∧ u.pins.resetN = true ∧ exec (.bringUp straps hubOk tr) s = .next (failBoot 0x0903 4 u))
        ∧ (∀ d, hubOk = true → (List.range 4).find? (fun d => !s.fuses.vtOk.getD d true) = some d →
            ∃ u, exec (.bringUp straps hubOk tr) s = .next (failBoot 0x0904 d u))
        ∧ (hubOk = true → (List.range 4).find? (fun d => !s.fuses.vtOk.getD d true) = none → tr.down = [] → tr.wires = [] →
            s.mapFits → (tr.dead = [] → ∃ t, exec (.bringUp straps hubOk tr) s = .next t ∧ t.stage = 4 ∧ t.pins.vidEn = true
              ∧ t.pins.straps = straps.val ∧ t.store.startups = s.store.startups + 1 ∧ t.boot.startedAt = s.now)
            ∧ (∀ m, deadStack tr (List.range 16) = some m →
              ∃ u, exec (.bringUp straps hubOk tr) s = .next (failBoot 0x0901 (m / 4) u)))))
  ∧ (∀ (status die : Nat) (s : State), (failBoot status die s).stage = 11 ∧ (failBoot status die s).ready = false
      ∧ (failBoot status die s).boot.step13 = false
      ∧ (failBoot status die s).boot.failUntil = if status = 0x0903 ∨ status = 0x0904 then 2 else 1)
  ∧ (∀ (f : Func) (v : Word32) (fault hubOk : Bool) (fails : List (Fin 4 × TestFail)) (s : State) (r : RegDesc),
      s.accepts f ZG_BOOT_GO 4 v.toNat r →
      let u := s.afterWrite f ZG_BOOT_GO 4 v.toNat r (fun _ _ t => t)
      let len := u.rfld ZG_BOOT_IMG_LEN 23 0
      let b := u.hostRead 0 (u.reg ZG_BOOT_IMG_ADDR).toNat len
      let readBad := fault = true ∨ (u.fn 0).bme = false
      let x := paWrite (mgmtBase 3) b (setStage 5 u)
      let loaded := startBetony (getLE b 8 4) { x with boot := { x.boot with imageHash := sha384 b, raiseSvn := bitOf (byteAt b 6) 0, imageSvn := getLE b 0x0C 4 } }
      (v.toNat.testBit 0 = false ∨ s.power.tripped = true → exec (.bootGo f v fault hubOk fails) s = .next u)
      ∧ (v.toNat.testBit 0 = true → s.power.tripped = false →
        (readBad → exec (.bootGo f v fault hubOk fails) s = .next (setStage 4 (reportFailure 5 0x0905 8 7 (setStage 5 u))))
        ∧ (¬ readBad → imageCheck b len u ≠ 0 →
          exec (.bootGo f v fault hubOk fails) s = .next (setStage 4 (reportFailure 5 0x0905 (imageCheck b len u) 7 (setStage 5 u))))
        ∧ (¬ readBad → imageCheck b len u = 0 →
          (s.power.coolantEn = true → s.pins.coolantOk = false → exec (.bootGo f v fault hubOk fails) s = .next (setStage 14 loaded))
          ∧ ((s.power.coolantEn = false ∨ s.pins.coolantOk = true) →
            exec (.bootGo f v fault hubOk fails) s = .next (takeTests hubOk fails loaded applyStep12)))))
  ∧ (∀ (b : List Byte) (len : Nat) (s : State), imageCheck b len s ≤ 7
      ∧ (imageCheck b len s = 0 → len = 512 + imgCode b + imgManifest b ∧ imgCode b % 4096 = 0 ∧ s.store.minSvn ≤ getLE b 0x0C 4
        ∧ (∃ k < 4, s.fuses.keyDigests.getD k [] = sha384 ((b.drop 0xA0).take 96) ∧ s.fuses.revoked.contains k = false)
        ∧ ecdsaVerify (beNat ((b.drop 0xA0).take 48), beNat ((b.drop 0xD0).take 48)) (sha384 (b.take 0x100))
            (beNat ((b.drop 0x100).take 48)) (beNat ((b.drop 0x130).take 48)) = true
        ∧ (b.drop 0x20).take 48 = sha384 ((b.drop 512).take (imgCode b))))
  ∧ (∀ (hubOk : Bool) (fails : List (Fin 4 × TestFail)) (s : State),
      (hubOk = false → (takeTests hubOk fails s applyStep12).stage = 11)
      ∧ (hubOk = true → (∀ x ∈ fails, dieLevel x.2.test.toNat = false) →
        let t := takeTests hubOk fails s applyStep12
        (t.stage = 9 ∧ t.boot.step13 = true) ∨ (t.stage = 10 ∧ t.ready = true ∧ t.boot.step13 = false))
      ∧ (hubOk = true → (∀ d < 4, s.dieFailed d = false) → (∃ x ∈ fails, dieLevel x.2.test.toNat = true) →
        (takeTests hubOk fails s applyStep12).stage = 11)
      ∧ (s.stage = 14 → s.power.tripped = false → s.coolantBack = true →
        exec (.coolantWaitEnd hubOk fails) s = .next (takeTests hubOk fails s applyStep12))
      ∧ (s.stage ≠ 14 ∨ s.power.tripped = true ∨ s.coolantBack = false → exec (.coolantWaitEnd hubOk fails) s = .next s))
  ∧ (∀ (level : Bool) (s : State), ∃ t, exec (.coolantOkChange level) s = .next t ∧ t.pins.coolantOk = level
      ∧ t.pins.coolantAt = (if s.pins.coolantOk = level then s.pins.coolantAt else s.now) ∧ t.regs = s.regs ∧ t.power = s.power)
  ∧ (∀ (degraded : Bool) (s : State), s.pins.resetN = true → s.power.tripped = false → s.power.powerFail = false → s.stage ≠ 0 →
      s.stage ≠ 13 → s.host.linkUp = false → ∃ t, exec (.hostLinkUp degraded) s = .next t ∧ t.host.linkUp = true ∧ t.pins.perstN = true
        ∧ (degraded = true → t.rfld ZG_ADM_CFG 28 28 = 1 ∧ (t.alarm (alarmSlot 0x0E 0x41 4)).active = true))
  ∧ (∀ s : State,
      ((s.pins.resetN = false ∨ s.power.tripped = true ∨ s.power.powerFail = true ∨ s.pins.rails ≠ 2) →
        exec .powerFailStop s = .next { s with pins := { s.pins with powerGood := false } })
      ∧ (s.pins.resetN = true → s.power.tripped = false → s.power.powerFail = false → s.pins.rails = 2 → s.power.dies.length = 4 →
        ∃ t, exec .powerFailStop s = .next t ∧ t.power.powerFail = true ∧ t.pins.vidEn = false ∧ t.pins.powerGood = false
        ∧ t.host.linkUp = false ∧ t.boot.step13 = false ∧ (∀ d < 4, (t.pw d).p = 0)))

/-- A warm reset disables every user queue, ends its commands as aborted and clears objects, groups and streams; it goes
on with training that keeps HBM, and ends in STAGE 9 or 10, in the failure of what did not train, or, when no copy of
the context save area passes, as a cold reset. A die reset ends the commands of the queues of its die with the
die-reset status and leaves other dies' clusters alone; the die rejoins or is FAILED. Loss of REFCLK brings STAGE 13, the
host link down and every stack into self refresh; its return begins a warm reset. An uncorrectable hub SRAM error
raises event 0x0F.0x08 and has the outcome of its region. That a reset whose condition does not hold changes nothing
is log entry 1. (R37; R235; R580; R581; R582; R583; R584; R585; R586) -/
def Obligations.ResetsEndWorkAndRejoinOrFail : Prop :=
  (∀ (cause : ResetBy) (tr : Training) (ctxOk : Bool) (fails : List (Fin 4 × TestFail)) (s : State),
    let u := resetByWrite cause s
    (u.stage ≠ 12 ∨ u.power.tripped = true → exec (.warmReset cause tr ctxOk fails) s = .next u)
    ∧ (u.stage = 12 → u.power.tripped = false →
      (ctxOk = false → ∃ t, exec (.warmReset cause tr ctxOk fails) s = .next t ∧ t.host.queues = [] ∧ t.hbm.pt = [] ∧ t.time.now = 0
        ∧ t.boot.health = u.boot.health ∧ t.store = u.store ∧ t.pins.resetN = u.pins.resetN ∧ t.pending = s.pending)
      ∧ (ctxOk = true → u.canonical = true → tr.down = [] → tr.wires = [] → u.mapFits →
        (∀ m, deadStack tr ((List.range 16).filter (fun m => !u.dieFailed (m / 4))) = some m →
          ∃ v, exec (.warmReset cause tr ctxOk fails) s = .next (failBoot 0x0901 (m / 4) v))
        ∧ (tr.dead = [] → ∃ v, exec (.warmReset cause tr ctxOk fails) s = .next (warmRun fails v)
            ∧ v.store.startups = u.store.startups + 1 ∧ v.host.queues = u.host.queues ∧ v.boot.imageHash = u.boot.imageHash))))
  ∧ (∀ (f : Func) (v : Word32) (s : State) (r : RegDesc), s.accepts f ZG_BOOT_CTRL 4 v.toNat r →
      resetByWrite (.write f v) s = s.afterWrite f ZG_BOOT_CTRL 4 v.toNat r (fun _ new t => bootCtrlEffect new t)
      ∧ ∀ t : State, bootCtrlEffect v.toNat t = if v.toNat.testBit 8 then beginWarm 0 t
          else if (∃ d < 4, t.dieState d = 4) then t else (List.range 4).foldl (fun t d => if v.toNat.testBit (4 + d) then beginDie d t else t) t)
  ∧ (∀ (cause : Nat) (s : State), (beginWarm cause s).stage = 12 ∧ (beginWarm cause s).ready = false
      ∧ (beginWarm cause s).coll = {} ∧ (beginWarm cause s).syn = {} ∧ (beginWarm cause s).d2d.streams = []
      ∧ (beginWarm cause s).betony = 2 ∧ (beginWarm cause s).boot.resetClass = 2
      ∧ (beginWarm cause s).store.startups = s.store.startups ∧ (beginWarm cause s).store.minSvn = s.store.minSvn
      ∧ (beginWarm cause s).store.limits = s.store.limits ∧ (beginWarm cause s).store.plan = s.store.plan
      ∧ (beginWarm cause s).hbm.pt = s.hbm.pt)
  ∧ (∀ (q : Qn) (s : State), (shutQueue q s).queue q = { (abortFlights q 7 s).queue q with state := .disabled, fetched := [], bad := none, retries := 0, regions := [], unit := none }
      ∨ { (abortFlights q 7 s).queue q with state := .disabled, fetched := [], bad := none, retries := 0, regions := [], unit := none } = ({} : Queue))
  ∧ (∀ (fails : List (Fin 4 × TestFail)) (s : State),
      ((imageOk s).1 = false → (warmRun fails s).betony = 3)
      ∧ ((imageOk s).1 = true →
        (∀ x ∈ fails, dieLevel x.2.test.toNat = true → x.2.test.toNat < 2 ∨ 8 < x.2.test.toNat) →
        (warmRun fails s).stage = 9 ∨ (warmRun fails s).stage = 10))
  ∧ (∀ (die : Die) (cause : ResetBy) (tr : Training) (fails : List TestFail) (s : State),
      let u := resetByWrite cause s
      let v := if cause = .itself ∧ u.ready = true ∧ u.dieResetting = false ∧ u.rfld (ZG_D2D_PORT die 2) 52 51 = 3 then beginDie die u else u
      (v.dieState die ≠ 4 ∨ v.stage ≠ 10 ∨ v.power.tripped = true → exec (.dieReset die cause tr fails) s = .next v)
      ∧ (v.dieState die = 4 → v.stage = 10 → v.power.tripped = false → ∃ t, exec (.dieReset die cause tr fails) s = .next t
        ∧ t.store.startups = v.store.startups + 1
        ∧ ((∃ m, m < 4 ∧ tr.dead.any (fun x => x.val == 4 * die.val + m) = true)
            ∨ (∃ x ∈ fails, 2 ≤ x.test.toNat ∧ x.test.toNat ≤ 8 ∧ dieLevel x.test.toNat = true) → t.dieState die = 5)
        ∧ (tr.dead = [] → tr.down = [] → tr.wires = [] → v.mapFits → (∀ x ∈ fails, dieLevel x.test.toNat = false) →
            t.dieState die = 3 ∧ t.time.replica = v.time.replica.set die.val v.now)))
  ∧ (∀ (die : Die) (s : State), s.dieState die ≠ 3 → beginDie die s = s)
  ∧ (∀ (die : Die) (s : State), s.dieState die = 3 → s.canonical = true → (beginDie die s).dieState die = 4
      ∧ (∀ e < 4, e ≠ die.val → (beginDie die s).dieState e = s.dieState e)
      ∧ (∀ o, o / 4096 = die.val → cget {} (beginDie die s).syn.objs o = {})
      ∧ (∀ w ∈ (beginDie die s).syn.waits, w.obj / 4096 ≠ die.val)
      ∧ (beginDie die s).hbm.pt = s.hbm.pt ∧ (beginDie die s).store.startups = s.store.startups
      ∧ (beginDie die s).store.limits = s.store.limits ∧ (beginDie die s).store.plan = s.store.plan)
  ∧ (∀ s : State,
      ((s.time.refclk = false ∨ s.stage = 0 ∨ s.power.tripped = true) → exec .refclkLoss s = .next s)
      ∧ (s.time.refclk = true → s.stage ≠ 0 → s.power.tripped = false → ∃ t, exec .refclkLoss s = .next t
        ∧ t.time.refclk = false ∧ t.time.refclkAt = s.now ∧ t.time.now = s.now ∧ t.host.linkUp = false
        ∧ t.rfld ZG_TIME_STATUS 3 3 = 1 ∧ (∀ m < 16, (t.stack m).selfRefresh = true)
        ∧ (s.stage ≠ 11 → t.stage = 13 ∧ t.ready = false ∧ t.boot.step13 = false)))
  ∧ (∀ s : State,
      ((s.time.refclk = true ∨ s.power.tripped = true) → exec .refclkReturn s = .next s)
      ∧ (s.time.refclk = false → s.power.tripped = false →
        let t := bootEvent 7 (min ((s.now - s.time.refclkAt) / 1000) 4294967295) 0 { s with time := { s.time with refclk := true, refclkAt := s.now } }
        (t.stage = 13 → exec .refclkReturn s = .next (beginWarm 1 t)) ∧ (t.stage ≠ 13 → exec .refclkReturn s = .next t)))
  ∧ (∀ (what : SramRegion) (s : State),
      (s.stage = 0 → exec (.hubSramError what) s = .next s)
      ∧ (s.stage ≠ 0 →
        let u := fun (row : Nat) => bootEvent 8 row 3 s
        (what = .queues → exec (.hubSramError what) s = .next (if (u 0).ready then beginWarm 2 (u 0) else u 0))
        ∧ (∀ d fr, what = .presence d fr →
            let g := d.val * 131072 + fr.toNat
            let v := { u 1 with hbm := { (u 1).hbm with mapCache := (u 1).hbm.mapCache.filter (fun p => p.1 != g) } }
            ((u 1).hbm.mapCache.find? (fun p => p.1 == g) = some (g, true) →
              exec (.hubSramError what) s = .next (loseLine g (mapLineAddr g) [g] v))
            ∧ ((u 1).hbm.mapCache.find? (fun p => p.1 == g) ≠ some (g, true) → exec (.hubSramError what) s = .next v))
        ∧ (∀ slot, what = .alarms slot → exec (.hubSramError what) s = .next (refreshAlert ((u 2).setAlarm slot.toNat {})))
        ∧ (what = .logFifo → ∃ t, exec (.hubSramError what) s = .next t ∧ t.mgt.logFifo = (u 2).mgt.logFifo.drop 1
            ∧ ((u 2).mgt.logFifo ≠ [] → t = bump ZG_MGT_LOG_LOST 1 { u 2 with mgt := { (u 2).mgt with logFifo := (u 2).mgt.logFifo.drop 1 } }))
        ∧ (what = .traceFifo → ∃ t, exec (.hubSramError what) s = .next t ∧ t.mgt.traceFifo = (u 2).mgt.traceFifo.drop 1)
        ∧ (what = .sideband → exec (.hubSramError what) s =
            .next (if (u 3).host.mbx.phase = 1 ∧ (u 3).host.mbx.sb = true then finishRole 1 [] (u 3) else u 3))
        ∧ (what = .mailbox → exec (.hubSramError what) s =
            .next (if (u 3).host.mbx.phase = 1 ∧ (u 3).host.mbx.sb = false then finishRole 1 [] (u 3) else u 3))
        ∧ (what = .emulation → ∃ t, exec (.hubSramError what) s = .next t ∧ t.mgt.emuWrites = [] ∧ t.mgt.emuReads = [])))

/-- From every state in canonical form, whatever command stands in front and also with none, a step that goes on leaves
HBM, host memory, the page tables, the register file and the tables of functions, queues, partitions, banked tables,
clusters and arrays in canonical form, so that equal contents are equal data, and leaves the waiting commands but for
the one it took. The canonical form is the model's own (log entry 3). (R217; R593) -/
def Obligations.EveryStepKeepsTheStoresCanonical : Prop :=
  ∀ (s t : State), s.canonical = true → step s = .next t → t.canonical = true ∧ t.pending = s.pending.tail

/-- From every state in which an image with RAISE_SVN that is in use has an SVN of at least MIN_SVN, every step keeps that
so, and neither MIN_SVN nor the start-up count of the persistent store falls, whatever the command: image loads,
resets of every class, role commands and power loss among them. (R568; R569; R578; R580) -/
def Obligations.NoStepLowersTheMinimumSecurityVersion : Prop :=
  ∀ (s t : State), s.svnInv → step s = .next t →
    t.svnInv ∧ s.store.minSvn ≤ t.store.minSvn ∧ s.store.startups ≤ t.store.startups
end

