-- ==== Sys2Proof/Laws/Cells.lean ====
section
/-! SUPPORT. Laws of the sparse memories: a read after a write, and every operation keeps the canonical form. -/
namespace Sys2Proof.Machine
open Sys2Proof

variable {α : Type}

theorem cwfFrom_mono [DecidableEq α] (d : α) {lo lo' : Nat} (h : lo' ≤ lo) :
    ∀ m : List (Nat × α), cwfFrom d lo m = true → cwfFrom d lo' m = true
  | [], _ => rfl
  | (a, x) :: m, w => by
    simp only [cwfFrom, Bool.and_eq_true, decide_eq_true_eq] at w ⊢
    exact ⟨⟨by omega, w.1.2⟩, w.2⟩

/-- Below the lowest listed address a memory reads as its default. -/
theorem cget_below [DecidableEq α] (d : α) : ∀ {lo : Nat} {m : List (Nat × α)} {a : Nat},
    cwfFrom d lo m = true → a < lo → cget d m a = d
  | _, [], _, _, _ => rfl
  | lo, (b, x) :: m, a, w, h => by
    simp only [cwfFrom, Bool.and_eq_true, decide_eq_true_eq] at w
    simp only [cget]
    rw [if_neg (by omega), if_pos (by omega)]

/-- Canonical form is decided above any bound below the lowest address. -/
theorem cwfFrom_cset [DecidableEq α] (d : α) : ∀ {lo : Nat} {m : List (Nat × α)} {a : Nat} {v : α},
    cwfFrom d lo m = true → cwfFrom d (min lo a) (cset d m a v) = true
  | lo, [], a, v, _ => by
    simp only [cset]
    split
    · rfl
    · simp_all [cwfFrom]
  | lo, (b, x) :: m, a, v, w => by
    simp only [cwfFrom, Bool.and_eq_true, decide_eq_true_eq] at w
    simp only [cset]
    split
    · split
      · simp only [cwfFrom, Bool.and_eq_true, decide_eq_true_eq]
        exact ⟨⟨by omega, w.1.2⟩, w.2⟩
      · simp only [cwfFrom, Bool.and_eq_true, decide_eq_true_eq]
        exact ⟨⟨by omega, ‹_›⟩, ⟨by omega, w.1.2⟩, w.2⟩
    · split
      · split
        · exact cwfFrom_mono d (by omega) m w.2
        · simp only [cwfFrom, Bool.and_eq_true, decide_eq_true_eq]
          exact ⟨⟨by omega, ‹_›⟩, cwfFrom_mono d (by omega) m w.2⟩
      · simp only [cwfFrom, Bool.and_eq_true, decide_eq_true_eq]
        refine ⟨⟨by omega, w.1.2⟩, ?_⟩
        have := cwfFrom_cset d (a := a) (v := v) w.2
        rwa [Nat.min_eq_left (by omega)] at this

/-- A write keeps the canonical form. -/
theorem cwf_cset [DecidableEq α] {d : α} {m : List (Nat × α)} (a : Nat) (v : α) (w : cwf d m = true) :
    cwf d (cset d m a v) = true := by
  have := cwfFrom_cset d (a := a) (v := v) w
  simpa [cwf] using this

/-- A read of the address just written. -/
theorem cget_cset_self [DecidableEq α] (d : α) : ∀ {lo : Nat} {m : List (Nat × α)} (a : Nat) (v : α),
    cwfFrom d lo m = true → cget d (cset d m a v) a = v
  | _, [], a, v, _ => by
    simp only [cset]; split <;> simp_all [cget]
  | lo, (b, x) :: m, a, v, w => by
    simp only [cwfFrom, Bool.and_eq_true, decide_eq_true_eq] at w
    simp only [cset]
    split
    · split
      · rw [cget, if_neg (by omega), if_pos ‹_›]; exact Eq.symm ‹_›
      · simp [cget]
    · split
      · split
        · rw [cget_below d w.2 (by omega)]; exact Eq.symm ‹_›
        · simp [cget]
      · rw [cget, if_neg ‹_›, if_neg ‹_›]
        exact cget_cset_self d a v w.2

/-- A read of another address. -/
theorem cget_cset_ne [DecidableEq α] (d : α) : ∀ {lo : Nat} {m : List (Nat × α)} {a a' : Nat} (v : α),
    cwfFrom d lo m = true → a' ≠ a → cget d (cset d m a v) a' = cget d m a'
  | _, [], a, a', v, _, h => by
    simp only [cset]; split
    · rfl
    · simp [cget, h]
  | lo, (b, x) :: m, a, a', v, w, h => by
    simp only [cwfFrom, Bool.and_eq_true, decide_eq_true_eq] at w
    simp only [cset]
    split
    · split
      · rfl
      · rw [cget, if_neg h]
        split
        · rw [cget, if_neg (by omega), if_pos (by omega)]
        · rfl
    · split
      · subst_vars
        split
        · rw [cget, if_neg h]
          split
          · exact cget_below d w.2 (by omega)
          · rfl
        · simp [cget, h]
      · simp only [cget]
        split
        · rfl
        · split
          · rfl
          · exact cget_cset_ne d v w.2 h

theorem cget_cset [DecidableEq α] {d : α} {m : List (Nat × α)} (w : cwf d m = true) (a a' : Nat) (v : α) :
    cget d (cset d m a v) a' = if a' = a then v else cget d m a' := by
  split
  · subst_vars; exact cget_cset_self d _ v w
  · exact cget_cset_ne d v w ‹_›

/-- A read of the address just written, in any list, for a value that is listed. -/
theorem cget_cset_listed [DecidableEq α] (d : α) : ∀ (m : List (Nat × α)) (a : Nat) {v : α}, v ≠ d →
    cget d (cset d m a v) a = v
  | [], a, v, h => by simp [cset, cget, h]
  | (b, x) :: m, a, v, h => by
    simp only [cset]
    split
    · simp [cget]
    · split
      · simp [cget]
      · rw [cget, if_neg ‹_›, if_neg ‹_›]
        exact cget_cset_listed d m a h

/-- A read of another address, in any list, for a value that is listed. -/
theorem cget_cset_listed_ne [DecidableEq α] (d : α) : ∀ (m : List (Nat × α)) {a a' : Nat} {v : α}, v ≠ d → a' ≠ a →
    cget d (cset d m a v) a' = cget d m a'
  | [], a, a', v, h, n => by simp [cset, cget, h, n]
  | (b, x) :: m, a, a', v, h, n => by
    simp only [cset]
    split
    · simp only [cget, if_neg n]
      split
      · rw [if_neg (by omega), if_pos (by omega)]
      · rfl
    · split
      · subst_vars; simp [cget, n]
      · simp only [cget]
        split
        · rfl
        · split
          · rfl
          · exact cget_cset_listed_ne d m h n

theorem cwfFrom_cclear [DecidableEq α] (d : α) (x y : Nat) : ∀ {lo : Nat} {m : List (Nat × α)},
    cwfFrom d lo m = true → cwfFrom d lo (cclear m x y) = true
  | _, [], _ => rfl
  | lo, (b, v) :: m, w => by
    simp only [cwfFrom, Bool.and_eq_true, decide_eq_true_eq] at w
    have ih := cwfFrom_cclear d x y w.2
    simp only [cclear, List.filter_cons] at ih ⊢
    split
    · simp only [cwfFrom, Bool.and_eq_true, decide_eq_true_eq]
      exact ⟨⟨w.1.1, w.1.2⟩, ih⟩
    · exact cwfFrom_mono d (by omega) _ ih

/-- Clearing a range keeps the canonical form. -/
theorem cwf_cclear [DecidableEq α] {d : α} {m : List (Nat × α)} (x y : Nat) (w : cwf d m = true) :
    cwf d (cclear m x y) = true := cwfFrom_cclear d x y w

theorem cwfFrom_filter [DecidableEq α] (d : α) (g : Nat × α → Bool) : ∀ {lo : Nat} {m : List (Nat × α)},
    cwfFrom d lo m = true → cwfFrom d lo (m.filter g) = true
  | _, [], _ => rfl
  | lo, (b, v) :: m, w => by
    simp only [cwfFrom, Bool.and_eq_true, decide_eq_true_eq] at w
    have ih := cwfFrom_filter d g w.2
    simp only [List.filter_cons]
    split
    · simp only [cwfFrom, Bool.and_eq_true, decide_eq_true_eq]
      exact ⟨⟨w.1.1, w.1.2⟩, ih⟩
    · exact cwfFrom_mono d (by omega) _ ih

/-- Dropping entries keeps the canonical form. -/
theorem cwf_filter [DecidableEq α] {d : α} {m : List (Nat × α)} (g : Nat × α → Bool) (w : cwf d m = true) :
    cwf d (m.filter g) = true := cwfFrom_filter d g w

/-- Writing a list of values keeps the canonical form. -/
theorem cwf_csetList [DecidableEq α] {d : α} : ∀ {m : List (Nat × α)} (a : Nat) (vs : List α), cwf d m = true →
    cwf d (csetList d m a vs) = true
  | _, _, [], w => w
  | _, a, v :: vs, w => cwf_csetList (a + 1) vs (cwf_cset a v w)

/-- A read after a list of values is written: inside the range the value written, outside what was there. -/
theorem cget_csetList [DecidableEq α] {d : α} : ∀ {m : List (Nat × α)} (a : Nat) (vs : List α) (a' : Nat), cwf d m = true →
    cget d (csetList d m a vs) a' = if a ≤ a' ∧ a' < a + vs.length then vs.getD (a' - a) d else cget d m a'
  | m, a, [], a', w => by simp [csetList]
  | m, a, v :: vs, a', w => by
    simp only [csetList, List.length_cons]
    rw [cget_csetList (a + 1) vs a' (cwf_cset a v w), cget_cset w]
    by_cases h : a' = a
    · subst h; simp
    · by_cases h2 : a + 1 ≤ a' ∧ a' < a + 1 + vs.length
      · rw [if_pos h2, if_pos ⟨by omega, by omega⟩]
        have : a' - a = (a' - (a + 1)) + 1 := by omega
        rw [this, List.getD_cons_succ]
      · rw [if_neg h2, if_neg h, if_neg (by omega)]

end Sys2Proof.Machine
end

