-- ==== Sys2Proof/Laws/State.lean ====
section
/-! SUPPORT. What each update of the state leaves as it was: one lemma per field and update. -/
namespace Sys2Proof.Machine
open Sys2Proof

/-! State.setReg -/

@[simp] theorem State.setReg_time (s : State) (off : Nat) (v : Word64) : (s.setReg off v).time = s.time := rfl
@[simp] theorem State.setReg_hbm (s : State) (off : Nat) (v : Word64) : (s.setReg off v).hbm = s.hbm := rfl
@[simp] theorem State.setReg_banks (s : State) (off : Nat) (v : Word64) : (s.setReg off v).banks = s.banks := rfl
@[simp] theorem State.setReg_host (s : State) (off : Nat) (v : Word64) : (s.setReg off v).host = s.host := rfl
@[simp] theorem State.setReg_power (s : State) (off : Nat) (v : Word64) : (s.setReg off v).power = s.power := rfl
@[simp] theorem State.setReg_mgt (s : State) (off : Nat) (v : Word64) : (s.setReg off v).mgt = s.mgt := rfl
@[simp] theorem State.setReg_fuses (s : State) (off : Nat) (v : Word64) : (s.setReg off v).fuses = s.fuses := rfl
@[simp] theorem State.setReg_store (s : State) (off : Nat) (v : Word64) : (s.setReg off v).store = s.store := rfl
@[simp] theorem State.setReg_boot (s : State) (off : Nat) (v : Word64) : (s.setReg off v).boot = s.boot := rfl
@[simp] theorem State.setReg_pins (s : State) (off : Nat) (v : Word64) : (s.setReg off v).pins = s.pins := rfl
@[simp] theorem State.setReg_syn (s : State) (off : Nat) (v : Word64) : (s.setReg off v).syn = s.syn := rfl
@[simp] theorem State.setReg_clu (s : State) (off : Nat) (v : Word64) : (s.setReg off v).clu = s.clu := rfl
@[simp] theorem State.setReg_d2d (s : State) (off : Nat) (v : Word64) : (s.setReg off v).d2d = s.d2d := rfl
@[simp] theorem State.setReg_tile (s : State) (off : Nat) (v : Word64) : (s.setReg off v).tile = s.tile := rfl
@[simp] theorem State.setReg_wfn (s : State) (off : Nat) (v : Word64) : (s.setReg off v).wfn = s.wfn := rfl
@[simp] theorem State.setReg_coll (s : State) (off : Nat) (v : Word64) : (s.setReg off v).coll = s.coll := rfl
@[simp] theorem State.setReg_integ (s : State) (off : Nat) (v : Word64) : (s.setReg off v).integ = s.integ := rfl
@[simp] theorem State.setReg_trn (s : State) (off : Nat) (v : Word64) : (s.setReg off v).trn = s.trn := rfl
@[simp] theorem State.setReg_srl (s : State) (off : Nat) (v : Word64) : (s.setReg off v).srl = s.srl := rfl
@[simp] theorem State.setReg_openCount (s : State) (off : Nat) (v : Word64) : (s.setReg off v).openCount = s.openCount := rfl
@[simp] theorem State.setReg_pending (s : State) (off : Nat) (v : Word64) : (s.setReg off v).pending = s.pending := rfl

/-! State.setRegF -/

@[simp] theorem State.setRegF_time (s : State) (f off : Nat) (v : Word64) : (s.setRegF f off v).time = s.time := rfl
@[simp] theorem State.setRegF_hbm (s : State) (f off : Nat) (v : Word64) : (s.setRegF f off v).hbm = s.hbm := rfl
@[simp] theorem State.setRegF_banks (s : State) (f off : Nat) (v : Word64) : (s.setRegF f off v).banks = s.banks := rfl
@[simp] theorem State.setRegF_host (s : State) (f off : Nat) (v : Word64) : (s.setRegF f off v).host = s.host := rfl
@[simp] theorem State.setRegF_power (s : State) (f off : Nat) (v : Word64) : (s.setRegF f off v).power = s.power := rfl
@[simp] theorem State.setRegF_mgt (s : State) (f off : Nat) (v : Word64) : (s.setRegF f off v).mgt = s.mgt := rfl
@[simp] theorem State.setRegF_fuses (s : State) (f off : Nat) (v : Word64) : (s.setRegF f off v).fuses = s.fuses := rfl
@[simp] theorem State.setRegF_store (s : State) (f off : Nat) (v : Word64) : (s.setRegF f off v).store = s.store := rfl
@[simp] theorem State.setRegF_boot (s : State) (f off : Nat) (v : Word64) : (s.setRegF f off v).boot = s.boot := rfl
@[simp] theorem State.setRegF_pins (s : State) (f off : Nat) (v : Word64) : (s.setRegF f off v).pins = s.pins := rfl
@[simp] theorem State.setRegF_syn (s : State) (f off : Nat) (v : Word64) : (s.setRegF f off v).syn = s.syn := rfl
@[simp] theorem State.setRegF_clu (s : State) (f off : Nat) (v : Word64) : (s.setRegF f off v).clu = s.clu := rfl
@[simp] theorem State.setRegF_d2d (s : State) (f off : Nat) (v : Word64) : (s.setRegF f off v).d2d = s.d2d := rfl
@[simp] theorem State.setRegF_tile (s : State) (f off : Nat) (v : Word64) : (s.setRegF f off v).tile = s.tile := rfl
@[simp] theorem State.setRegF_wfn (s : State) (f off : Nat) (v : Word64) : (s.setRegF f off v).wfn = s.wfn := rfl
@[simp] theorem State.setRegF_coll (s : State) (f off : Nat) (v : Word64) : (s.setRegF f off v).coll = s.coll := rfl
@[simp] theorem State.setRegF_integ (s : State) (f off : Nat) (v : Word64) : (s.setRegF f off v).integ = s.integ := rfl
@[simp] theorem State.setRegF_trn (s : State) (f off : Nat) (v : Word64) : (s.setRegF f off v).trn = s.trn := rfl
@[simp] theorem State.setRegF_srl (s : State) (f off : Nat) (v : Word64) : (s.setRegF f off v).srl = s.srl := rfl
@[simp] theorem State.setRegF_openCount (s : State) (f off : Nat) (v : Word64) : (s.setRegF f off v).openCount = s.openCount := rfl
@[simp] theorem State.setRegF_pending (s : State) (f off : Nat) (v : Word64) : (s.setRegF f off v).pending = s.pending := rfl

/-! State.setRegN -/

@[simp] theorem State.setRegN_time (s : State) (off v : Nat) : (s.setRegN off v).time = s.time := rfl
@[simp] theorem State.setRegN_hbm (s : State) (off v : Nat) : (s.setRegN off v).hbm = s.hbm := rfl
@[simp] theorem State.setRegN_banks (s : State) (off v : Nat) : (s.setRegN off v).banks = s.banks := rfl
@[simp] theorem State.setRegN_host (s : State) (off v : Nat) : (s.setRegN off v).host = s.host := rfl
@[simp] theorem State.setRegN_power (s : State) (off v : Nat) : (s.setRegN off v).power = s.power := rfl
@[simp] theorem State.setRegN_mgt (s : State) (off v : Nat) : (s.setRegN off v).mgt = s.mgt := rfl
@[simp] theorem State.setRegN_fuses (s : State) (off v : Nat) : (s.setRegN off v).fuses = s.fuses := rfl
@[simp] theorem State.setRegN_store (s : State) (off v : Nat) : (s.setRegN off v).store = s.store := rfl
@[simp] theorem State.setRegN_boot (s : State) (off v : Nat) : (s.setRegN off v).boot = s.boot := rfl
@[simp] theorem State.setRegN_pins (s : State) (off v : Nat) : (s.setRegN off v).pins = s.pins := rfl
@[simp] theorem State.setRegN_syn (s : State) (off v : Nat) : (s.setRegN off v).syn = s.syn := rfl
@[simp] theorem State.setRegN_clu (s : State) (off v : Nat) : (s.setRegN off v).clu = s.clu := rfl
@[simp] theorem State.setRegN_d2d (s : State) (off v : Nat) : (s.setRegN off v).d2d = s.d2d := rfl
@[simp] theorem State.setRegN_tile (s : State) (off v : Nat) : (s.setRegN off v).tile = s.tile := rfl
@[simp] theorem State.setRegN_wfn (s : State) (off v : Nat) : (s.setRegN off v).wfn = s.wfn := rfl
@[simp] theorem State.setRegN_coll (s : State) (off v : Nat) : (s.setRegN off v).coll = s.coll := rfl
@[simp] theorem State.setRegN_integ (s : State) (off v : Nat) : (s.setRegN off v).integ = s.integ := rfl
@[simp] theorem State.setRegN_trn (s : State) (off v : Nat) : (s.setRegN off v).trn = s.trn := rfl
@[simp] theorem State.setRegN_srl (s : State) (off v : Nat) : (s.setRegN off v).srl = s.srl := rfl
@[simp] theorem State.setRegN_openCount (s : State) (off v : Nat) : (s.setRegN off v).openCount = s.openCount := rfl
@[simp] theorem State.setRegN_pending (s : State) (off v : Nat) : (s.setRegN off v).pending = s.pending := rfl

/-! State.setRfld -/

@[simp] theorem State.setRfld_time (s : State) (off hi lo v : Nat) : (s.setRfld off hi lo v).time = s.time := rfl
@[simp] theorem State.setRfld_hbm (s : State) (off hi lo v : Nat) : (s.setRfld off hi lo v).hbm = s.hbm := rfl
@[simp] theorem State.setRfld_banks (s : State) (off hi lo v : Nat) : (s.setRfld off hi lo v).banks = s.banks := rfl
@[simp] theorem State.setRfld_host (s : State) (off hi lo v : Nat) : (s.setRfld off hi lo v).host = s.host := rfl
@[simp] theorem State.setRfld_power (s : State) (off hi lo v : Nat) : (s.setRfld off hi lo v).power = s.power := rfl
@[simp] theorem State.setRfld_mgt (s : State) (off hi lo v : Nat) : (s.setRfld off hi lo v).mgt = s.mgt := rfl
@[simp] theorem State.setRfld_fuses (s : State) (off hi lo v : Nat) : (s.setRfld off hi lo v).fuses = s.fuses := rfl
@[simp] theorem State.setRfld_store (s : State) (off hi lo v : Nat) : (s.setRfld off hi lo v).store = s.store := rfl
@[simp] theorem State.setRfld_boot (s : State) (off hi lo v : Nat) : (s.setRfld off hi lo v).boot = s.boot := rfl
@[simp] theorem State.setRfld_pins (s : State) (off hi lo v : Nat) : (s.setRfld off hi lo v).pins = s.pins := rfl
@[simp] theorem State.setRfld_syn (s : State) (off hi lo v : Nat) : (s.setRfld off hi lo v).syn = s.syn := rfl
@[simp] theorem State.setRfld_clu (s : State) (off hi lo v : Nat) : (s.setRfld off hi lo v).clu = s.clu := rfl
@[simp] theorem State.setRfld_d2d (s : State) (off hi lo v : Nat) : (s.setRfld off hi lo v).d2d = s.d2d := rfl
@[simp] theorem State.setRfld_tile (s : State) (off hi lo v : Nat) : (s.setRfld off hi lo v).tile = s.tile := rfl
@[simp] theorem State.setRfld_wfn (s : State) (off hi lo v : Nat) : (s.setRfld off hi lo v).wfn = s.wfn := rfl
@[simp] theorem State.setRfld_coll (s : State) (off hi lo v : Nat) : (s.setRfld off hi lo v).coll = s.coll := rfl
@[simp] theorem State.setRfld_integ (s : State) (off hi lo v : Nat) : (s.setRfld off hi lo v).integ = s.integ := rfl
@[simp] theorem State.setRfld_trn (s : State) (off hi lo v : Nat) : (s.setRfld off hi lo v).trn = s.trn := rfl
@[simp] theorem State.setRfld_srl (s : State) (off hi lo v : Nat) : (s.setRfld off hi lo v).srl = s.srl := rfl
@[simp] theorem State.setRfld_openCount (s : State) (off hi lo v : Nat) : (s.setRfld off hi lo v).openCount = s.openCount := rfl
@[simp] theorem State.setRfld_pending (s : State) (off hi lo v : Nat) : (s.setRfld off hi lo v).pending = s.pending := rfl

/-! State.hostWrite -/

@[simp] theorem State.hostWrite_regs (s : State) (f a : Nat) (bs : List Byte) : (s.hostWrite f a bs).regs = s.regs := rfl
@[simp] theorem State.hostWrite_time (s : State) (f a : Nat) (bs : List Byte) : (s.hostWrite f a bs).time = s.time := rfl
@[simp] theorem State.hostWrite_hbm (s : State) (f a : Nat) (bs : List Byte) : (s.hostWrite f a bs).hbm = s.hbm := rfl
@[simp] theorem State.hostWrite_banks (s : State) (f a : Nat) (bs : List Byte) : (s.hostWrite f a bs).banks = s.banks := rfl
@[simp] theorem State.hostWrite_power (s : State) (f a : Nat) (bs : List Byte) : (s.hostWrite f a bs).power = s.power := rfl
@[simp] theorem State.hostWrite_mgt (s : State) (f a : Nat) (bs : List Byte) : (s.hostWrite f a bs).mgt = s.mgt := rfl
@[simp] theorem State.hostWrite_fuses (s : State) (f a : Nat) (bs : List Byte) : (s.hostWrite f a bs).fuses = s.fuses := rfl
@[simp] theorem State.hostWrite_store (s : State) (f a : Nat) (bs : List Byte) : (s.hostWrite f a bs).store = s.store := rfl
@[simp] theorem State.hostWrite_boot (s : State) (f a : Nat) (bs : List Byte) : (s.hostWrite f a bs).boot = s.boot := rfl
@[simp] theorem State.hostWrite_pins (s : State) (f a : Nat) (bs : List Byte) : (s.hostWrite f a bs).pins = s.pins := rfl
@[simp] theorem State.hostWrite_syn (s : State) (f a : Nat) (bs : List Byte) : (s.hostWrite f a bs).syn = s.syn := rfl
@[simp] theorem State.hostWrite_clu (s : State) (f a : Nat) (bs : List Byte) : (s.hostWrite f a bs).clu = s.clu := rfl
@[simp] theorem State.hostWrite_d2d (s : State) (f a : Nat) (bs : List Byte) : (s.hostWrite f a bs).d2d = s.d2d := rfl
@[simp] theorem State.hostWrite_tile (s : State) (f a : Nat) (bs : List Byte) : (s.hostWrite f a bs).tile = s.tile := rfl
@[simp] theorem State.hostWrite_wfn (s : State) (f a : Nat) (bs : List Byte) : (s.hostWrite f a bs).wfn = s.wfn := rfl
@[simp] theorem State.hostWrite_coll (s : State) (f a : Nat) (bs : List Byte) : (s.hostWrite f a bs).coll = s.coll := rfl
@[simp] theorem State.hostWrite_integ (s : State) (f a : Nat) (bs : List Byte) : (s.hostWrite f a bs).integ = s.integ := rfl
@[simp] theorem State.hostWrite_trn (s : State) (f a : Nat) (bs : List Byte) : (s.hostWrite f a bs).trn = s.trn := rfl
@[simp] theorem State.hostWrite_srl (s : State) (f a : Nat) (bs : List Byte) : (s.hostWrite f a bs).srl = s.srl := rfl
@[simp] theorem State.hostWrite_openCount (s : State) (f a : Nat) (bs : List Byte) : (s.hostWrite f a bs).openCount = s.openCount := rfl
@[simp] theorem State.hostWrite_pending (s : State) (f a : Nat) (bs : List Byte) : (s.hostWrite f a bs).pending = s.pending := rfl

/-! State.hbmPut -/

@[simp] theorem State.hbmPut_regs (s : State) (pa : Nat) (bs : List Byte) : (s.hbmPut pa bs).regs = s.regs := rfl
@[simp] theorem State.hbmPut_time (s : State) (pa : Nat) (bs : List Byte) : (s.hbmPut pa bs).time = s.time := rfl
@[simp] theorem State.hbmPut_banks (s : State) (pa : Nat) (bs : List Byte) : (s.hbmPut pa bs).banks = s.banks := rfl
@[simp] theorem State.hbmPut_host (s : State) (pa : Nat) (bs : List Byte) : (s.hbmPut pa bs).host = s.host := rfl
@[simp] theorem State.hbmPut_power (s : State) (pa : Nat) (bs : List Byte) : (s.hbmPut pa bs).power = s.power := rfl
@[simp] theorem State.hbmPut_mgt (s : State) (pa : Nat) (bs : List Byte) : (s.hbmPut pa bs).mgt = s.mgt := rfl
@[simp] theorem State.hbmPut_fuses (s : State) (pa : Nat) (bs : List Byte) : (s.hbmPut pa bs).fuses = s.fuses := rfl
@[simp] theorem State.hbmPut_store (s : State) (pa : Nat) (bs : List Byte) : (s.hbmPut pa bs).store = s.store := rfl
@[simp] theorem State.hbmPut_boot (s : State) (pa : Nat) (bs : List Byte) : (s.hbmPut pa bs).boot = s.boot := rfl
@[simp] theorem State.hbmPut_pins (s : State) (pa : Nat) (bs : List Byte) : (s.hbmPut pa bs).pins = s.pins := rfl
@[simp] theorem State.hbmPut_syn (s : State) (pa : Nat) (bs : List Byte) : (s.hbmPut pa bs).syn = s.syn := rfl
@[simp] theorem State.hbmPut_clu (s : State) (pa : Nat) (bs : List Byte) : (s.hbmPut pa bs).clu = s.clu := rfl
@[simp] theorem State.hbmPut_d2d (s : State) (pa : Nat) (bs : List Byte) : (s.hbmPut pa bs).d2d = s.d2d := rfl
@[simp] theorem State.hbmPut_tile (s : State) (pa : Nat) (bs : List Byte) : (s.hbmPut pa bs).tile = s.tile := rfl
@[simp] theorem State.hbmPut_wfn (s : State) (pa : Nat) (bs : List Byte) : (s.hbmPut pa bs).wfn = s.wfn := rfl
@[simp] theorem State.hbmPut_coll (s : State) (pa : Nat) (bs : List Byte) : (s.hbmPut pa bs).coll = s.coll := rfl
@[simp] theorem State.hbmPut_integ (s : State) (pa : Nat) (bs : List Byte) : (s.hbmPut pa bs).integ = s.integ := rfl
@[simp] theorem State.hbmPut_trn (s : State) (pa : Nat) (bs : List Byte) : (s.hbmPut pa bs).trn = s.trn := rfl
@[simp] theorem State.hbmPut_srl (s : State) (pa : Nat) (bs : List Byte) : (s.hbmPut pa bs).srl = s.srl := rfl
@[simp] theorem State.hbmPut_openCount (s : State) (pa : Nat) (bs : List Byte) : (s.hbmPut pa bs).openCount = s.openCount := rfl
@[simp] theorem State.hbmPut_pending (s : State) (pa : Nat) (bs : List Byte) : (s.hbmPut pa bs).pending = s.pending := rfl

/-! State.setFn -/

@[simp] theorem State.setFn_regs (s : State) (f : Nat) (x : Fn) : (s.setFn f x).regs = s.regs := rfl
@[simp] theorem State.setFn_time (s : State) (f : Nat) (x : Fn) : (s.setFn f x).time = s.time := rfl
@[simp] theorem State.setFn_hbm (s : State) (f : Nat) (x : Fn) : (s.setFn f x).hbm = s.hbm := rfl
@[simp] theorem State.setFn_banks (s : State) (f : Nat) (x : Fn) : (s.setFn f x).banks = s.banks := rfl
@[simp] theorem State.setFn_power (s : State) (f : Nat) (x : Fn) : (s.setFn f x).power = s.power := rfl
@[simp] theorem State.setFn_mgt (s : State) (f : Nat) (x : Fn) : (s.setFn f x).mgt = s.mgt := rfl
@[simp] theorem State.setFn_fuses (s : State) (f : Nat) (x : Fn) : (s.setFn f x).fuses = s.fuses := rfl
@[simp] theorem State.setFn_store (s : State) (f : Nat) (x : Fn) : (s.setFn f x).store = s.store := rfl
@[simp] theorem State.setFn_boot (s : State) (f : Nat) (x : Fn) : (s.setFn f x).boot = s.boot := rfl
@[simp] theorem State.setFn_pins (s : State) (f : Nat) (x : Fn) : (s.setFn f x).pins = s.pins := rfl
@[simp] theorem State.setFn_syn (s : State) (f : Nat) (x : Fn) : (s.setFn f x).syn = s.syn := rfl
@[simp] theorem State.setFn_clu (s : State) (f : Nat) (x : Fn) : (s.setFn f x).clu = s.clu := rfl
@[simp] theorem State.setFn_d2d (s : State) (f : Nat) (x : Fn) : (s.setFn f x).d2d = s.d2d := rfl
@[simp] theorem State.setFn_tile (s : State) (f : Nat) (x : Fn) : (s.setFn f x).tile = s.tile := rfl
@[simp] theorem State.setFn_wfn (s : State) (f : Nat) (x : Fn) : (s.setFn f x).wfn = s.wfn := rfl
@[simp] theorem State.setFn_coll (s : State) (f : Nat) (x : Fn) : (s.setFn f x).coll = s.coll := rfl
@[simp] theorem State.setFn_integ (s : State) (f : Nat) (x : Fn) : (s.setFn f x).integ = s.integ := rfl
@[simp] theorem State.setFn_trn (s : State) (f : Nat) (x : Fn) : (s.setFn f x).trn = s.trn := rfl
@[simp] theorem State.setFn_srl (s : State) (f : Nat) (x : Fn) : (s.setFn f x).srl = s.srl := rfl
@[simp] theorem State.setFn_openCount (s : State) (f : Nat) (x : Fn) : (s.setFn f x).openCount = s.openCount := rfl
@[simp] theorem State.setFn_pending (s : State) (f : Nat) (x : Fn) : (s.setFn f x).pending = s.pending := rfl

/-! State.setQueue -/

@[simp] theorem State.setQueue_regs (s : State) (q : Nat) (x : Queue) : (s.setQueue q x).regs = s.regs := rfl
@[simp] theorem State.setQueue_time (s : State) (q : Nat) (x : Queue) : (s.setQueue q x).time = s.time := rfl
@[simp] theorem State.setQueue_hbm (s : State) (q : Nat) (x : Queue) : (s.setQueue q x).hbm = s.hbm := rfl
@[simp] theorem State.setQueue_banks (s : State) (q : Nat) (x : Queue) : (s.setQueue q x).banks = s.banks := rfl
@[simp] theorem State.setQueue_power (s : State) (q : Nat) (x : Queue) : (s.setQueue q x).power = s.power := rfl
@[simp] theorem State.setQueue_mgt (s : State) (q : Nat) (x : Queue) : (s.setQueue q x).mgt = s.mgt := rfl
@[simp] theorem State.setQueue_fuses (s : State) (q : Nat) (x : Queue) : (s.setQueue q x).fuses = s.fuses := rfl
@[simp] theorem State.setQueue_store (s : State) (q : Nat) (x : Queue) : (s.setQueue q x).store = s.store := rfl
@[simp] theorem State.setQueue_boot (s : State) (q : Nat) (x : Queue) : (s.setQueue q x).boot = s.boot := rfl
@[simp] theorem State.setQueue_pins (s : State) (q : Nat) (x : Queue) : (s.setQueue q x).pins = s.pins := rfl
@[simp] theorem State.setQueue_syn (s : State) (q : Nat) (x : Queue) : (s.setQueue q x).syn = s.syn := rfl
@[simp] theorem State.setQueue_clu (s : State) (q : Nat) (x : Queue) : (s.setQueue q x).clu = s.clu := rfl
@[simp] theorem State.setQueue_d2d (s : State) (q : Nat) (x : Queue) : (s.setQueue q x).d2d = s.d2d := rfl
@[simp] theorem State.setQueue_tile (s : State) (q : Nat) (x : Queue) : (s.setQueue q x).tile = s.tile := rfl
@[simp] theorem State.setQueue_wfn (s : State) (q : Nat) (x : Queue) : (s.setQueue q x).wfn = s.wfn := rfl
@[simp] theorem State.setQueue_coll (s : State) (q : Nat) (x : Queue) : (s.setQueue q x).coll = s.coll := rfl
@[simp] theorem State.setQueue_integ (s : State) (q : Nat) (x : Queue) : (s.setQueue q x).integ = s.integ := rfl
@[simp] theorem State.setQueue_trn (s : State) (q : Nat) (x : Queue) : (s.setQueue q x).trn = s.trn := rfl
@[simp] theorem State.setQueue_srl (s : State) (q : Nat) (x : Queue) : (s.setQueue q x).srl = s.srl := rfl
@[simp] theorem State.setQueue_openCount (s : State) (q : Nat) (x : Queue) : (s.setQueue q x).openCount = s.openCount := rfl
@[simp] theorem State.setQueue_pending (s : State) (q : Nat) (x : Queue) : (s.setQueue q x).pending = s.pending := rfl

/-! State.setVector -/

@[simp] theorem State.setVector_regs (s : State) (f v : Nat) (x : Vector) : (s.setVector f v x).regs = s.regs := rfl
@[simp] theorem State.setVector_time (s : State) (f v : Nat) (x : Vector) : (s.setVector f v x).time = s.time := rfl
@[simp] theorem State.setVector_hbm (s : State) (f v : Nat) (x : Vector) : (s.setVector f v x).hbm = s.hbm := rfl
@[simp] theorem State.setVector_banks (s : State) (f v : Nat) (x : Vector) : (s.setVector f v x).banks = s.banks := rfl
@[simp] theorem State.setVector_power (s : State) (f v : Nat) (x : Vector) : (s.setVector f v x).power = s.power := rfl
@[simp] theorem State.setVector_mgt (s : State) (f v : Nat) (x : Vector) : (s.setVector f v x).mgt = s.mgt := rfl
@[simp] theorem State.setVector_fuses (s : State) (f v : Nat) (x : Vector) : (s.setVector f v x).fuses = s.fuses := rfl
@[simp] theorem State.setVector_store (s : State) (f v : Nat) (x : Vector) : (s.setVector f v x).store = s.store := rfl
@[simp] theorem State.setVector_boot (s : State) (f v : Nat) (x : Vector) : (s.setVector f v x).boot = s.boot := rfl
@[simp] theorem State.setVector_pins (s : State) (f v : Nat) (x : Vector) : (s.setVector f v x).pins = s.pins := rfl
@[simp] theorem State.setVector_syn (s : State) (f v : Nat) (x : Vector) : (s.setVector f v x).syn = s.syn := rfl
@[simp] theorem State.setVector_clu (s : State) (f v : Nat) (x : Vector) : (s.setVector f v x).clu = s.clu := rfl
@[simp] theorem State.setVector_d2d (s : State) (f v : Nat) (x : Vector) : (s.setVector f v x).d2d = s.d2d := rfl
@[simp] theorem State.setVector_tile (s : State) (f v : Nat) (x : Vector) : (s.setVector f v x).tile = s.tile := rfl
@[simp] theorem State.setVector_wfn (s : State) (f v : Nat) (x : Vector) : (s.setVector f v x).wfn = s.wfn := rfl
@[simp] theorem State.setVector_coll (s : State) (f v : Nat) (x : Vector) : (s.setVector f v x).coll = s.coll := rfl
@[simp] theorem State.setVector_integ (s : State) (f v : Nat) (x : Vector) : (s.setVector f v x).integ = s.integ := rfl
@[simp] theorem State.setVector_trn (s : State) (f v : Nat) (x : Vector) : (s.setVector f v x).trn = s.trn := rfl
@[simp] theorem State.setVector_srl (s : State) (f v : Nat) (x : Vector) : (s.setVector f v x).srl = s.srl := rfl
@[simp] theorem State.setVector_openCount (s : State) (f v : Nat) (x : Vector) : (s.setVector f v x).openCount = s.openCount := rfl
@[simp] theorem State.setVector_pending (s : State) (f v : Nat) (x : Vector) : (s.setVector f v x).pending = s.pending := rfl

/-! State.setAlarm -/

@[simp] theorem State.setAlarm_regs (s : State) (slot : Nat) (x : Alarm) : (s.setAlarm slot x).regs = s.regs := rfl
@[simp] theorem State.setAlarm_time (s : State) (slot : Nat) (x : Alarm) : (s.setAlarm slot x).time = s.time := rfl
@[simp] theorem State.setAlarm_hbm (s : State) (slot : Nat) (x : Alarm) : (s.setAlarm slot x).hbm = s.hbm := rfl
@[simp] theorem State.setAlarm_banks (s : State) (slot : Nat) (x : Alarm) : (s.setAlarm slot x).banks = s.banks := rfl
@[simp] theorem State.setAlarm_host (s : State) (slot : Nat) (x : Alarm) : (s.setAlarm slot x).host = s.host := rfl
@[simp] theorem State.setAlarm_power (s : State) (slot : Nat) (x : Alarm) : (s.setAlarm slot x).power = s.power := rfl
@[simp] theorem State.setAlarm_fuses (s : State) (slot : Nat) (x : Alarm) : (s.setAlarm slot x).fuses = s.fuses := rfl
@[simp] theorem State.setAlarm_store (s : State) (slot : Nat) (x : Alarm) : (s.setAlarm slot x).store = s.store := rfl
@[simp] theorem State.setAlarm_boot (s : State) (slot : Nat) (x : Alarm) : (s.setAlarm slot x).boot = s.boot := rfl
@[simp] theorem State.setAlarm_pins (s : State) (slot : Nat) (x : Alarm) : (s.setAlarm slot x).pins = s.pins := rfl
@[simp] theorem State.setAlarm_syn (s : State) (slot : Nat) (x : Alarm) : (s.setAlarm slot x).syn = s.syn := rfl
@[simp] theorem State.setAlarm_clu (s : State) (slot : Nat) (x : Alarm) : (s.setAlarm slot x).clu = s.clu := rfl
@[simp] theorem State.setAlarm_d2d (s : State) (slot : Nat) (x : Alarm) : (s.setAlarm slot x).d2d = s.d2d := rfl
@[simp] theorem State.setAlarm_tile (s : State) (slot : Nat) (x : Alarm) : (s.setAlarm slot x).tile = s.tile := rfl
@[simp] theorem State.setAlarm_wfn (s : State) (slot : Nat) (x : Alarm) : (s.setAlarm slot x).wfn = s.wfn := rfl
@[simp] theorem State.setAlarm_coll (s : State) (slot : Nat) (x : Alarm) : (s.setAlarm slot x).coll = s.coll := rfl
@[simp] theorem State.setAlarm_integ (s : State) (slot : Nat) (x : Alarm) : (s.setAlarm slot x).integ = s.integ := rfl
@[simp] theorem State.setAlarm_trn (s : State) (slot : Nat) (x : Alarm) : (s.setAlarm slot x).trn = s.trn := rfl
@[simp] theorem State.setAlarm_srl (s : State) (slot : Nat) (x : Alarm) : (s.setAlarm slot x).srl = s.srl := rfl
@[simp] theorem State.setAlarm_openCount (s : State) (slot : Nat) (x : Alarm) : (s.setAlarm slot x).openCount = s.openCount := rfl
@[simp] theorem State.setAlarm_pending (s : State) (slot : Nat) (x : Alarm) : (s.setAlarm slot x).pending = s.pending := rfl

/-! State.setBank -/

@[simp] theorem State.setBank_regs (s : State) (t : Nat) (b : Banked) : (s.setBank t b).regs = s.regs := rfl
@[simp] theorem State.setBank_time (s : State) (t : Nat) (b : Banked) : (s.setBank t b).time = s.time := rfl
@[simp] theorem State.setBank_hbm (s : State) (t : Nat) (b : Banked) : (s.setBank t b).hbm = s.hbm := rfl
@[simp] theorem State.setBank_host (s : State) (t : Nat) (b : Banked) : (s.setBank t b).host = s.host := rfl
@[simp] theorem State.setBank_power (s : State) (t : Nat) (b : Banked) : (s.setBank t b).power = s.power := rfl
@[simp] theorem State.setBank_mgt (s : State) (t : Nat) (b : Banked) : (s.setBank t b).mgt = s.mgt := rfl
@[simp] theorem State.setBank_fuses (s : State) (t : Nat) (b : Banked) : (s.setBank t b).fuses = s.fuses := rfl
@[simp] theorem State.setBank_store (s : State) (t : Nat) (b : Banked) : (s.setBank t b).store = s.store := rfl
@[simp] theorem State.setBank_boot (s : State) (t : Nat) (b : Banked) : (s.setBank t b).boot = s.boot := rfl
@[simp] theorem State.setBank_pins (s : State) (t : Nat) (b : Banked) : (s.setBank t b).pins = s.pins := rfl
@[simp] theorem State.setBank_syn (s : State) (t : Nat) (b : Banked) : (s.setBank t b).syn = s.syn := rfl
@[simp] theorem State.setBank_clu (s : State) (t : Nat) (b : Banked) : (s.setBank t b).clu = s.clu := rfl
@[simp] theorem State.setBank_d2d (s : State) (t : Nat) (b : Banked) : (s.setBank t b).d2d = s.d2d := rfl
@[simp] theorem State.setBank_tile (s : State) (t : Nat) (b : Banked) : (s.setBank t b).tile = s.tile := rfl
@[simp] theorem State.setBank_wfn (s : State) (t : Nat) (b : Banked) : (s.setBank t b).wfn = s.wfn := rfl
@[simp] theorem State.setBank_coll (s : State) (t : Nat) (b : Banked) : (s.setBank t b).coll = s.coll := rfl
@[simp] theorem State.setBank_integ (s : State) (t : Nat) (b : Banked) : (s.setBank t b).integ = s.integ := rfl
@[simp] theorem State.setBank_trn (s : State) (t : Nat) (b : Banked) : (s.setBank t b).trn = s.trn := rfl
@[simp] theorem State.setBank_srl (s : State) (t : Nat) (b : Banked) : (s.setBank t b).srl = s.srl := rfl
@[simp] theorem State.setBank_openCount (s : State) (t : Nat) (b : Banked) : (s.setBank t b).openCount = s.openCount := rfl
@[simp] theorem State.setBank_pending (s : State) (t : Nat) (b : Banked) : (s.setBank t b).pending = s.pending := rfl

/-! State.updFlight -/

@[simp] theorem State.updFlight_regs (s : State) (q seq : Nat) (g : Flight → Flight) : (s.updFlight q seq g).regs = s.regs := rfl
@[simp] theorem State.updFlight_time (s : State) (q seq : Nat) (g : Flight → Flight) : (s.updFlight q seq g).time = s.time := rfl
@[simp] theorem State.updFlight_hbm (s : State) (q seq : Nat) (g : Flight → Flight) : (s.updFlight q seq g).hbm = s.hbm := rfl
@[simp] theorem State.updFlight_banks (s : State) (q seq : Nat) (g : Flight → Flight) : (s.updFlight q seq g).banks = s.banks := rfl
@[simp] theorem State.updFlight_power (s : State) (q seq : Nat) (g : Flight → Flight) : (s.updFlight q seq g).power = s.power := rfl
@[simp] theorem State.updFlight_mgt (s : State) (q seq : Nat) (g : Flight → Flight) : (s.updFlight q seq g).mgt = s.mgt := rfl
@[simp] theorem State.updFlight_fuses (s : State) (q seq : Nat) (g : Flight → Flight) : (s.updFlight q seq g).fuses = s.fuses := rfl
@[simp] theorem State.updFlight_store (s : State) (q seq : Nat) (g : Flight → Flight) : (s.updFlight q seq g).store = s.store := rfl
@[simp] theorem State.updFlight_boot (s : State) (q seq : Nat) (g : Flight → Flight) : (s.updFlight q seq g).boot = s.boot := rfl
@[simp] theorem State.updFlight_pins (s : State) (q seq : Nat) (g : Flight → Flight) : (s.updFlight q seq g).pins = s.pins := rfl
@[simp] theorem State.updFlight_syn (s : State) (q seq : Nat) (g : Flight → Flight) : (s.updFlight q seq g).syn = s.syn := rfl
@[simp] theorem State.updFlight_clu (s : State) (q seq : Nat) (g : Flight → Flight) : (s.updFlight q seq g).clu = s.clu := rfl
@[simp] theorem State.updFlight_d2d (s : State) (q seq : Nat) (g : Flight → Flight) : (s.updFlight q seq g).d2d = s.d2d := rfl
@[simp] theorem State.updFlight_tile (s : State) (q seq : Nat) (g : Flight → Flight) : (s.updFlight q seq g).tile = s.tile := rfl
@[simp] theorem State.updFlight_wfn (s : State) (q seq : Nat) (g : Flight → Flight) : (s.updFlight q seq g).wfn = s.wfn := rfl
@[simp] theorem State.updFlight_coll (s : State) (q seq : Nat) (g : Flight → Flight) : (s.updFlight q seq g).coll = s.coll := rfl
@[simp] theorem State.updFlight_integ (s : State) (q seq : Nat) (g : Flight → Flight) : (s.updFlight q seq g).integ = s.integ := rfl
@[simp] theorem State.updFlight_trn (s : State) (q seq : Nat) (g : Flight → Flight) : (s.updFlight q seq g).trn = s.trn := rfl
@[simp] theorem State.updFlight_srl (s : State) (q seq : Nat) (g : Flight → Flight) : (s.updFlight q seq g).srl = s.srl := rfl
@[simp] theorem State.updFlight_openCount (s : State) (q seq : Nat) (g : Flight → Flight) : (s.updFlight q seq g).openCount = s.openCount := rfl
@[simp] theorem State.updFlight_pending (s : State) (q seq : Nat) (g : Flight → Flight) : (s.updFlight q seq g).pending = s.pending := rfl

/-! State.setClus -/

@[simp] theorem State.setClus_regs (s : State) (d c : Nat) (x : ClusterSt) : (s.setClus d c x).regs = s.regs := rfl
@[simp] theorem State.setClus_time (s : State) (d c : Nat) (x : ClusterSt) : (s.setClus d c x).time = s.time := rfl
@[simp] theorem State.setClus_hbm (s : State) (d c : Nat) (x : ClusterSt) : (s.setClus d c x).hbm = s.hbm := rfl
@[simp] theorem State.setClus_banks (s : State) (d c : Nat) (x : ClusterSt) : (s.setClus d c x).banks = s.banks := rfl
@[simp] theorem State.setClus_host (s : State) (d c : Nat) (x : ClusterSt) : (s.setClus d c x).host = s.host := rfl
@[simp] theorem State.setClus_power (s : State) (d c : Nat) (x : ClusterSt) : (s.setClus d c x).power = s.power := rfl
@[simp] theorem State.setClus_mgt (s : State) (d c : Nat) (x : ClusterSt) : (s.setClus d c x).mgt = s.mgt := rfl
@[simp] theorem State.setClus_fuses (s : State) (d c : Nat) (x : ClusterSt) : (s.setClus d c x).fuses = s.fuses := rfl
@[simp] theorem State.setClus_store (s : State) (d c : Nat) (x : ClusterSt) : (s.setClus d c x).store = s.store := rfl
@[simp] theorem State.setClus_boot (s : State) (d c : Nat) (x : ClusterSt) : (s.setClus d c x).boot = s.boot := rfl
@[simp] theorem State.setClus_pins (s : State) (d c : Nat) (x : ClusterSt) : (s.setClus d c x).pins = s.pins := rfl
@[simp] theorem State.setClus_syn (s : State) (d c : Nat) (x : ClusterSt) : (s.setClus d c x).syn = s.syn := rfl
@[simp] theorem State.setClus_d2d (s : State) (d c : Nat) (x : ClusterSt) : (s.setClus d c x).d2d = s.d2d := rfl
@[simp] theorem State.setClus_tile (s : State) (d c : Nat) (x : ClusterSt) : (s.setClus d c x).tile = s.tile := rfl
@[simp] theorem State.setClus_wfn (s : State) (d c : Nat) (x : ClusterSt) : (s.setClus d c x).wfn = s.wfn := rfl
@[simp] theorem State.setClus_coll (s : State) (d c : Nat) (x : ClusterSt) : (s.setClus d c x).coll = s.coll := rfl
@[simp] theorem State.setClus_integ (s : State) (d c : Nat) (x : ClusterSt) : (s.setClus d c x).integ = s.integ := rfl
@[simp] theorem State.setClus_trn (s : State) (d c : Nat) (x : ClusterSt) : (s.setClus d c x).trn = s.trn := rfl
@[simp] theorem State.setClus_srl (s : State) (d c : Nat) (x : ClusterSt) : (s.setClus d c x).srl = s.srl := rfl
@[simp] theorem State.setClus_openCount (s : State) (d c : Nat) (x : ClusterSt) : (s.setClus d c x).openCount = s.openCount := rfl
@[simp] theorem State.setClus_pending (s : State) (d c : Nat) (x : ClusterSt) : (s.setClus d c x).pending = s.pending := rfl

/-! State.updClus -/

@[simp] theorem State.updClus_regs (s : State) (d c : Nat) (g : ClusterSt → ClusterSt) : (s.updClus d c g).regs = s.regs := rfl
@[simp] theorem State.updClus_time (s : State) (d c : Nat) (g : ClusterSt → ClusterSt) : (s.updClus d c g).time = s.time := rfl
@[simp] theorem State.updClus_hbm (s : State) (d c : Nat) (g : ClusterSt → ClusterSt) : (s.updClus d c g).hbm = s.hbm := rfl
@[simp] theorem State.updClus_banks (s : State) (d c : Nat) (g : ClusterSt → ClusterSt) : (s.updClus d c g).banks = s.banks := rfl
@[simp] theorem State.updClus_host (s : State) (d c : Nat) (g : ClusterSt → ClusterSt) : (s.updClus d c g).host = s.host := rfl
@[simp] theorem State.updClus_power (s : State) (d c : Nat) (g : ClusterSt → ClusterSt) : (s.updClus d c g).power = s.power := rfl
@[simp] theorem State.updClus_mgt (s : State) (d c : Nat) (g : ClusterSt → ClusterSt) : (s.updClus d c g).mgt = s.mgt := rfl
@[simp] theorem State.updClus_fuses (s : State) (d c : Nat) (g : ClusterSt → ClusterSt) : (s.updClus d c g).fuses = s.fuses := rfl
@[simp] theorem State.updClus_store (s : State) (d c : Nat) (g : ClusterSt → ClusterSt) : (s.updClus d c g).store = s.store := rfl
@[simp] theorem State.updClus_boot (s : State) (d c : Nat) (g : ClusterSt → ClusterSt) : (s.updClus d c g).boot = s.boot := rfl
@[simp] theorem State.updClus_pins (s : State) (d c : Nat) (g : ClusterSt → ClusterSt) : (s.updClus d c g).pins = s.pins := rfl
@[simp] theorem State.updClus_syn (s : State) (d c : Nat) (g : ClusterSt → ClusterSt) : (s.updClus d c g).syn = s.syn := rfl
@[simp] theorem State.updClus_d2d (s : State) (d c : Nat) (g : ClusterSt → ClusterSt) : (s.updClus d c g).d2d = s.d2d := rfl
@[simp] theorem State.updClus_tile (s : State) (d c : Nat) (g : ClusterSt → ClusterSt) : (s.updClus d c g).tile = s.tile := rfl
@[simp] theorem State.updClus_wfn (s : State) (d c : Nat) (g : ClusterSt → ClusterSt) : (s.updClus d c g).wfn = s.wfn := rfl
@[simp] theorem State.updClus_coll (s : State) (d c : Nat) (g : ClusterSt → ClusterSt) : (s.updClus d c g).coll = s.coll := rfl
@[simp] theorem State.updClus_integ (s : State) (d c : Nat) (g : ClusterSt → ClusterSt) : (s.updClus d c g).integ = s.integ := rfl
@[simp] theorem State.updClus_trn (s : State) (d c : Nat) (g : ClusterSt → ClusterSt) : (s.updClus d c g).trn = s.trn := rfl
@[simp] theorem State.updClus_srl (s : State) (d c : Nat) (g : ClusterSt → ClusterSt) : (s.updClus d c g).srl = s.srl := rfl
@[simp] theorem State.updClus_openCount (s : State) (d c : Nat) (g : ClusterSt → ClusterSt) : (s.updClus d c g).openCount = s.openCount := rfl
@[simp] theorem State.updClus_pending (s : State) (d c : Nat) (g : ClusterSt → ClusterSt) : (s.updClus d c g).pending = s.pending := rfl

/-! State.draw -/

@[simp] theorem State.draw_regs (s : State) : (s.draw.2).regs = s.regs := rfl
@[simp] theorem State.draw_time (s : State) : (s.draw.2).time = s.time := rfl
@[simp] theorem State.draw_hbm (s : State) : (s.draw.2).hbm = s.hbm := rfl
@[simp] theorem State.draw_banks (s : State) : (s.draw.2).banks = s.banks := rfl
@[simp] theorem State.draw_host (s : State) : (s.draw.2).host = s.host := rfl
@[simp] theorem State.draw_power (s : State) : (s.draw.2).power = s.power := rfl
@[simp] theorem State.draw_mgt (s : State) : (s.draw.2).mgt = s.mgt := rfl
@[simp] theorem State.draw_fuses (s : State) : (s.draw.2).fuses = s.fuses := rfl
@[simp] theorem State.draw_store (s : State) : (s.draw.2).store = s.store := rfl
@[simp] theorem State.draw_boot (s : State) : (s.draw.2).boot = s.boot := rfl
@[simp] theorem State.draw_pins (s : State) : (s.draw.2).pins = s.pins := rfl
@[simp] theorem State.draw_syn (s : State) : (s.draw.2).syn = s.syn := rfl
@[simp] theorem State.draw_clu (s : State) : (s.draw.2).clu = s.clu := rfl
@[simp] theorem State.draw_d2d (s : State) : (s.draw.2).d2d = s.d2d := rfl
@[simp] theorem State.draw_tile (s : State) : (s.draw.2).tile = s.tile := rfl
@[simp] theorem State.draw_wfn (s : State) : (s.draw.2).wfn = s.wfn := rfl
@[simp] theorem State.draw_coll (s : State) : (s.draw.2).coll = s.coll := rfl
@[simp] theorem State.draw_integ (s : State) : (s.draw.2).integ = s.integ := rfl
@[simp] theorem State.draw_trn (s : State) : (s.draw.2).trn = s.trn := rfl
@[simp] theorem State.draw_srl (s : State) : (s.draw.2).srl = s.srl := rfl
@[simp] theorem State.draw_pending (s : State) : (s.draw.2).pending = s.pending := rfl

/-! ### Reads after an update -/

/-- The wrap bits of counters are all that a count changes beside its register. -/
theorem bumpKey_mgt (key n : Nat) (s : State) :
    (bumpKey key n s).mgt = { s.mgt with ctrBits := (bumpKey key n s).mgt.ctrBits } := by
  unfold bumpKey; simp only; split <;> rfl

theorem bumpKey_regs (key n : Nat) (s : State) :
    (bumpKey key n s).regs = cset 0 s.regs key (BitVec.ofNat 64 ((cget 0 s.regs key).toNat + n)) := by
  unfold bumpKey; simp only; split <;> rfl

/-- A count changes the register file and the wrap bits only. -/
theorem bumpKey_rest (key n : Nat) (s : State) :
    bumpKey key n s = { s with regs := (bumpKey key n s).regs,
                               mgt := { s.mgt with ctrBits := (bumpKey key n s).mgt.ctrBits } } := by
  unfold bumpKey; simp only; split <;> rfl

theorem State.setReg_reg {s : State} (w : cwf 0 s.regs = true) (off off' : Nat) (v : Word64) :
    (s.setReg off v).reg off' = if off' = off then v else s.reg off' := cget_cset w off off' v

theorem State.setRegN_reg {s : State} (w : cwf 0 s.regs = true) (off off' v : Nat) :
    (s.setRegN off v).reg off' = if off' = off then BitVec.ofNat 64 v else s.reg off' := cget_cset w off off' _

theorem State.setReg_cwf {s : State} (w : cwf 0 s.regs = true) (off : Nat) (v : Word64) :
    cwf 0 (s.setReg off v).regs = true := cwf_cset off v w

theorem State.setRegN_cwf {s : State} (w : cwf 0 s.regs = true) (off v : Nat) :
    cwf 0 (s.setRegN off v).regs = true := cwf_cset off _ w

theorem bumpKey_cwf {s : State} (w : cwf 0 s.regs = true) (key n : Nat) : cwf 0 (bumpKey key n s).regs = true := by
  rw [bumpKey_regs]; exact cwf_cset key _ w

/-- A counter after a count, and every other register. -/
theorem bumpKey_reg {s : State} (w : cwf 0 s.regs = true) (key n off : Nat) :
    (bumpKey key n s).reg off = if off = key then s.reg key + BitVec.ofNat 64 n else s.reg off := by
  show cget 0 (bumpKey key n s).regs off = _
  rw [bumpKey_regs, cget_cset w]
  split
  · simp [State.reg, BitVec.ofNat_add]
  · rfl

/-- A cluster after it is replaced by one that is not empty, and every other. -/
theorem State.setClus_clus (s : State) (d c : Nat) {x : ClusterSt} (h : x ≠ {}) : (s.setClus d c x).clus d c = x :=
  cget_cset_listed _ _ _ h

theorem State.setClus_other (s : State) (d c k : Nat) {x : ClusterSt} (h : x ≠ {}) (n : k ≠ d * 64 + c) :
    cget ({} : ClusterSt) (s.setClus d c x).clu.cl k = cget {} s.clu.cl k := cget_cset_listed_ne _ _ h n

/-- A queue after it is replaced by one that is not empty, and every other. -/
theorem State.setQueue_queue (s : State) (q : Nat) {x : Queue} (h : x ≠ {}) : (s.setQueue q x).queue q = x :=
  cget_cset_listed _ _ _ h

theorem State.setQueue_other (s : State) {q q' : Nat} {x : Queue} (h : x ≠ {}) (n : q' ≠ q) :
    (s.setQueue q x).queue q' = s.queue q' := cget_cset_listed_ne _ _ h n

/-- Bytes of HBM after a write of the package's own. -/
theorem State.hbmPut_byte {s : State} (w : cwf 0 s.hbm.bytes = true) (pa : Nat) (bs : List Byte) (a : Nat) :
    cget 0 (s.hbmPut pa bs).hbm.bytes a = if pa ≤ a ∧ a < pa + bs.length then bs.getD (a - pa) 0 else cget 0 s.hbm.bytes a :=
  cget_csetList pa bs a w

/-- Bytes of host memory after a write of the package. -/
theorem State.hostWrite_byte {s : State} (w : cwf 0 s.host.mem = true) (f a : Nat) (bs : List Byte) (k : Nat) :
    cget 0 (s.hostWrite f a bs).host.mem k =
      if hostKey f a ≤ k ∧ k < hostKey f a + bs.length then bs.getD (k - hostKey f a) 0 else cget 0 s.host.mem k :=
  cget_csetList (hostKey f a) bs k w


end Sys2Proof.Machine
end

