-- ==== Sys2Proof/Laws/Ops.lean ====
section
/-! SUPPORT. What the named operations over the state do, each said once. -/
namespace Sys2Proof.Machine
open Sys2Proof

/-- A fold of updates that each change the register file and counter wrap bits only changes these only. -/
theorem foldl_counts {β : Type} (g : State → β → State)
    (h : ∀ s b, g s b = { s with regs := (g s b).regs, mgt := { s.mgt with ctrBits := (g s b).mgt.ctrBits } }) :
    ∀ (bs : List β) (s : State),
      bs.foldl g s = { s with regs := (bs.foldl g s).regs, mgt := { s.mgt with ctrBits := (bs.foldl g s).mgt.ctrBits } }
  | [], _ => rfl
  | b :: bs, s => by
    rw [List.foldl_cons, foldl_counts g h bs (g s b), h s b]

/-- Work of the programmable counters changes the register file and counter wrap bits only. -/
theorem pmcCount_rest (d e : Nat) (p : Option Nat) (n : Nat) (s : State) :
    pmcCount d e p n s = { s with regs := (pmcCount d e p n s).regs,
                                  mgt := { s.mgt with ctrBits := (pmcCount d e p n s).mgt.ctrBits } } := by
  unfold pmcCount
  refine foldl_counts _ (fun s k => ?_) _ s
  simp only
  split
  · exact bumpKey_rest _ _ s
  · rfl

/-- What a programmable counter holds after work is counted. -/
theorem pmcCount_fold (d e : Nat) (p : Option Nat) (n : Nat) (sel : Nat → Nat) :
    ∀ (ks : List Nat) (s : State), cwf 0 s.regs = true → (∀ k, cget 0 s.mgt.pmcSel (d * 8 + k) = sel k) →
      let t := ks.foldl (fun s k =>
        if cget 0 s.mgt.pmcSel (d * 8 + k) % 256 = e ∧ (!bitOf (cget 0 s.mgt.pmcSel (d * 8 + k)) 14 ||
          p == some (bitsOf (cget 0 s.mgt.pmcSel (d * 8 + k)) 13 8)) = true then bump (ZG_PMC_CNT d k) n s else s) s
      cwf 0 t.regs = true ∧
      ∀ a, t.reg a = s.reg a + BitVec.ofNat 64 ((ks.filter (fun k => ZG_PMC_CNT d k = a ∧ sel k % 256 = e ∧
          (!bitOf (sel k) 14 || p == some (bitsOf (sel k) 13 8)) = true)).length * n)
  | [], s, w, _ => ⟨w, fun a => by simp⟩
  | k :: ks, s, w, hs => by
    simp only [List.foldl_cons]
    rw [hs k]
    by_cases hc : sel k % 256 = e ∧ (!bitOf (sel k) 14 || p == some (bitsOf (sel k) 13 8)) = true
    · rw [if_pos hc]
      have ih := pmcCount_fold d e p n sel ks (bump (ZG_PMC_CNT d k) n s) (bumpKey_cwf w _ _)
        (fun k' => by
          show cget 0 (bumpKey (ZG_PMC_CNT d k) n s).mgt.pmcSel _ = _
          rw [bumpKey_mgt]; exact hs k')
      refine ⟨ih.1, fun a => ?_⟩
      rw [ih.2 a, show bump (ZG_PMC_CNT d k) n s = bumpKey (ZG_PMC_CNT d k) n s from rfl, bumpKey_reg w]
      by_cases ha : a = ZG_PMC_CNT d k
      · subst ha
        rw [if_pos rfl, List.filter_cons_of_pos (by simpa using hc), List.length_cons, Nat.succ_mul, Nat.add_comm,
          BitVec.ofNat_add, BitVec.add_assoc]
      · rw [if_neg ha, List.filter_cons_of_neg (by simp [Ne.symm ha])]
    · rw [if_neg hc]
      have ih := pmcCount_fold d e p n sel ks s w hs
      refine ⟨ih.1, fun a => ?_⟩
      rw [ih.2 a, List.filter_cons_of_neg (by simp only [decide_eq_true_eq]; exact fun h => hc h.2)]

end Sys2Proof.Machine
end

