-- ==== Sys2Proof/Laws/Units.lean ====
section
/-! SUPPORT. What each update of one unit of the package (a stack, a strand, an array, a group and the rest) leaves as it was: one
lemma per field and update. -/
namespace Sys2Proof.Machine
open Sys2Proof

/-! State.setStack -/

@[simp] theorem State.setStack_regs (s : State) (m : Nat) (x : Stack) : (s.setStack m x).regs = s.regs := rfl
@[simp] theorem State.setStack_time (s : State) (m : Nat) (x : Stack) : (s.setStack m x).time = s.time := rfl
@[simp] theorem State.setStack_banks (s : State) (m : Nat) (x : Stack) : (s.setStack m x).banks = s.banks := rfl
@[simp] theorem State.setStack_host (s : State) (m : Nat) (x : Stack) : (s.setStack m x).host = s.host := rfl
@[simp] theorem State.setStack_power (s : State) (m : Nat) (x : Stack) : (s.setStack m x).power = s.power := rfl
@[simp] theorem State.setStack_mgt (s : State) (m : Nat) (x : Stack) : (s.setStack m x).mgt = s.mgt := rfl
@[simp] theorem State.setStack_fuses (s : State) (m : Nat) (x : Stack) : (s.setStack m x).fuses = s.fuses := rfl
@[simp] theorem State.setStack_store (s : State) (m : Nat) (x : Stack) : (s.setStack m x).store = s.store := rfl
@[simp] theorem State.setStack_boot (s : State) (m : Nat) (x : Stack) : (s.setStack m x).boot = s.boot := rfl
@[simp] theorem State.setStack_pins (s : State) (m : Nat) (x : Stack) : (s.setStack m x).pins = s.pins := rfl
@[simp] theorem State.setStack_syn (s : State) (m : Nat) (x : Stack) : (s.setStack m x).syn = s.syn := rfl
@[simp] theorem State.setStack_clu (s : State) (m : Nat) (x : Stack) : (s.setStack m x).clu = s.clu := rfl
@[simp] theorem State.setStack_d2d (s : State) (m : Nat) (x : Stack) : (s.setStack m x).d2d = s.d2d := rfl
@[simp] theorem State.setStack_tile (s : State) (m : Nat) (x : Stack) : (s.setStack m x).tile = s.tile := rfl
@[simp] theorem State.setStack_wfn (s : State) (m : Nat) (x : Stack) : (s.setStack m x).wfn = s.wfn := rfl
@[simp] theorem State.setStack_coll (s : State) (m : Nat) (x : Stack) : (s.setStack m x).coll = s.coll := rfl
@[simp] theorem State.setStack_integ (s : State) (m : Nat) (x : Stack) : (s.setStack m x).integ = s.integ := rfl
@[simp] theorem State.setStack_trn (s : State) (m : Nat) (x : Stack) : (s.setStack m x).trn = s.trn := rfl
@[simp] theorem State.setStack_srl (s : State) (m : Nat) (x : Stack) : (s.setStack m x).srl = s.srl := rfl
@[simp] theorem State.setStack_openCount (s : State) (m : Nat) (x : Stack) : (s.setStack m x).openCount = s.openCount := rfl
@[simp] theorem State.setStack_pending (s : State) (m : Nat) (x : Stack) : (s.setStack m x).pending = s.pending := rfl

/-! State.setPart -/

@[simp] theorem State.setPart_regs (s : State) (p : Nat) (x : Partition) : (s.setPart p x).regs = s.regs := rfl
@[simp] theorem State.setPart_time (s : State) (p : Nat) (x : Partition) : (s.setPart p x).time = s.time := rfl
@[simp] theorem State.setPart_hbm (s : State) (p : Nat) (x : Partition) : (s.setPart p x).hbm = s.hbm := rfl
@[simp] theorem State.setPart_banks (s : State) (p : Nat) (x : Partition) : (s.setPart p x).banks = s.banks := rfl
@[simp] theorem State.setPart_power (s : State) (p : Nat) (x : Partition) : (s.setPart p x).power = s.power := rfl
@[simp] theorem State.setPart_mgt (s : State) (p : Nat) (x : Partition) : (s.setPart p x).mgt = s.mgt := rfl
@[simp] theorem State.setPart_fuses (s : State) (p : Nat) (x : Partition) : (s.setPart p x).fuses = s.fuses := rfl
@[simp] theorem State.setPart_store (s : State) (p : Nat) (x : Partition) : (s.setPart p x).store = s.store := rfl
@[simp] theorem State.setPart_boot (s : State) (p : Nat) (x : Partition) : (s.setPart p x).boot = s.boot := rfl
@[simp] theorem State.setPart_pins (s : State) (p : Nat) (x : Partition) : (s.setPart p x).pins = s.pins := rfl
@[simp] theorem State.setPart_syn (s : State) (p : Nat) (x : Partition) : (s.setPart p x).syn = s.syn := rfl
@[simp] theorem State.setPart_clu (s : State) (p : Nat) (x : Partition) : (s.setPart p x).clu = s.clu := rfl
@[simp] theorem State.setPart_d2d (s : State) (p : Nat) (x : Partition) : (s.setPart p x).d2d = s.d2d := rfl
@[simp] theorem State.setPart_tile (s : State) (p : Nat) (x : Partition) : (s.setPart p x).tile = s.tile := rfl
@[simp] theorem State.setPart_wfn (s : State) (p : Nat) (x : Partition) : (s.setPart p x).wfn = s.wfn := rfl
@[simp] theorem State.setPart_coll (s : State) (p : Nat) (x : Partition) : (s.setPart p x).coll = s.coll := rfl
@[simp] theorem State.setPart_integ (s : State) (p : Nat) (x : Partition) : (s.setPart p x).integ = s.integ := rfl
@[simp] theorem State.setPart_trn (s : State) (p : Nat) (x : Partition) : (s.setPart p x).trn = s.trn := rfl
@[simp] theorem State.setPart_srl (s : State) (p : Nat) (x : Partition) : (s.setPart p x).srl = s.srl := rfl
@[simp] theorem State.setPart_openCount (s : State) (p : Nat) (x : Partition) : (s.setPart p x).openCount = s.openCount := rfl
@[simp] theorem State.setPart_pending (s : State) (p : Nat) (x : Partition) : (s.setPart p x).pending = s.pending := rfl

/-! State.setRole -/

@[simp] theorem State.setRole_regs (s : State) (r : Nat) (x : RoleSt) : (s.setRole r x).regs = s.regs := rfl
@[simp] theorem State.setRole_time (s : State) (r : Nat) (x : RoleSt) : (s.setRole r x).time = s.time := rfl
@[simp] theorem State.setRole_hbm (s : State) (r : Nat) (x : RoleSt) : (s.setRole r x).hbm = s.hbm := rfl
@[simp] theorem State.setRole_banks (s : State) (r : Nat) (x : RoleSt) : (s.setRole r x).banks = s.banks := rfl
@[simp] theorem State.setRole_host (s : State) (r : Nat) (x : RoleSt) : (s.setRole r x).host = s.host := rfl
@[simp] theorem State.setRole_power (s : State) (r : Nat) (x : RoleSt) : (s.setRole r x).power = s.power := rfl
@[simp] theorem State.setRole_fuses (s : State) (r : Nat) (x : RoleSt) : (s.setRole r x).fuses = s.fuses := rfl
@[simp] theorem State.setRole_store (s : State) (r : Nat) (x : RoleSt) : (s.setRole r x).store = s.store := rfl
@[simp] theorem State.setRole_boot (s : State) (r : Nat) (x : RoleSt) : (s.setRole r x).boot = s.boot := rfl
@[simp] theorem State.setRole_pins (s : State) (r : Nat) (x : RoleSt) : (s.setRole r x).pins = s.pins := rfl
@[simp] theorem State.setRole_syn (s : State) (r : Nat) (x : RoleSt) : (s.setRole r x).syn = s.syn := rfl
@[simp] theorem State.setRole_clu (s : State) (r : Nat) (x : RoleSt) : (s.setRole r x).clu = s.clu := rfl
@[simp] theorem State.setRole_d2d (s : State) (r : Nat) (x : RoleSt) : (s.setRole r x).d2d = s.d2d := rfl
@[simp] theorem State.setRole_tile (s : State) (r : Nat) (x : RoleSt) : (s.setRole r x).tile = s.tile := rfl
@[simp] theorem State.setRole_wfn (s : State) (r : Nat) (x : RoleSt) : (s.setRole r x).wfn = s.wfn := rfl
@[simp] theorem State.setRole_coll (s : State) (r : Nat) (x : RoleSt) : (s.setRole r x).coll = s.coll := rfl
@[simp] theorem State.setRole_integ (s : State) (r : Nat) (x : RoleSt) : (s.setRole r x).integ = s.integ := rfl
@[simp] theorem State.setRole_trn (s : State) (r : Nat) (x : RoleSt) : (s.setRole r x).trn = s.trn := rfl
@[simp] theorem State.setRole_srl (s : State) (r : Nat) (x : RoleSt) : (s.setRole r x).srl = s.srl := rfl
@[simp] theorem State.setRole_openCount (s : State) (r : Nat) (x : RoleSt) : (s.setRole r x).openCount = s.openCount := rfl
@[simp] theorem State.setRole_pending (s : State) (r : Nat) (x : RoleSt) : (s.setRole r x).pending = s.pending := rfl

/-! State.setSynObj -/

@[simp] theorem State.setSynObj_regs (s : State) (o : Nat) (x : SynObj) : (s.setSynObj o x).regs = s.regs := rfl
@[simp] theorem State.setSynObj_time (s : State) (o : Nat) (x : SynObj) : (s.setSynObj o x).time = s.time := rfl
@[simp] theorem State.setSynObj_hbm (s : State) (o : Nat) (x : SynObj) : (s.setSynObj o x).hbm = s.hbm := rfl
@[simp] theorem State.setSynObj_banks (s : State) (o : Nat) (x : SynObj) : (s.setSynObj o x).banks = s.banks := rfl
@[simp] theorem State.setSynObj_host (s : State) (o : Nat) (x : SynObj) : (s.setSynObj o x).host = s.host := rfl
@[simp] theorem State.setSynObj_power (s : State) (o : Nat) (x : SynObj) : (s.setSynObj o x).power = s.power := rfl
@[simp] theorem State.setSynObj_mgt (s : State) (o : Nat) (x : SynObj) : (s.setSynObj o x).mgt = s.mgt := rfl
@[simp] theorem State.setSynObj_fuses (s : State) (o : Nat) (x : SynObj) : (s.setSynObj o x).fuses = s.fuses := rfl
@[simp] theorem State.setSynObj_store (s : State) (o : Nat) (x : SynObj) : (s.setSynObj o x).store = s.store := rfl
@[simp] theorem State.setSynObj_boot (s : State) (o : Nat) (x : SynObj) : (s.setSynObj o x).boot = s.boot := rfl
@[simp] theorem State.setSynObj_pins (s : State) (o : Nat) (x : SynObj) : (s.setSynObj o x).pins = s.pins := rfl
@[simp] theorem State.setSynObj_clu (s : State) (o : Nat) (x : SynObj) : (s.setSynObj o x).clu = s.clu := rfl
@[simp] theorem State.setSynObj_d2d (s : State) (o : Nat) (x : SynObj) : (s.setSynObj o x).d2d = s.d2d := rfl
@[simp] theorem State.setSynObj_tile (s : State) (o : Nat) (x : SynObj) : (s.setSynObj o x).tile = s.tile := rfl
@[simp] theorem State.setSynObj_wfn (s : State) (o : Nat) (x : SynObj) : (s.setSynObj o x).wfn = s.wfn := rfl
@[simp] theorem State.setSynObj_coll (s : State) (o : Nat) (x : SynObj) : (s.setSynObj o x).coll = s.coll := rfl
@[simp] theorem State.setSynObj_integ (s : State) (o : Nat) (x : SynObj) : (s.setSynObj o x).integ = s.integ := rfl
@[simp] theorem State.setSynObj_trn (s : State) (o : Nat) (x : SynObj) : (s.setSynObj o x).trn = s.trn := rfl
@[simp] theorem State.setSynObj_srl (s : State) (o : Nat) (x : SynObj) : (s.setSynObj o x).srl = s.srl := rfl
@[simp] theorem State.setSynObj_openCount (s : State) (o : Nat) (x : SynObj) : (s.setSynObj o x).openCount = s.openCount := rfl
@[simp] theorem State.setSynObj_pending (s : State) (o : Nat) (x : SynObj) : (s.setSynObj o x).pending = s.pending := rfl

/-! State.setSlot -/

@[simp] theorem State.setSlot_regs (s : State) (d c k : Nat) (x : TslSlot) : (s.setSlot d c k x).regs = s.regs := rfl
@[simp] theorem State.setSlot_time (s : State) (d c k : Nat) (x : TslSlot) : (s.setSlot d c k x).time = s.time := rfl
@[simp] theorem State.setSlot_hbm (s : State) (d c k : Nat) (x : TslSlot) : (s.setSlot d c k x).hbm = s.hbm := rfl
@[simp] theorem State.setSlot_banks (s : State) (d c k : Nat) (x : TslSlot) : (s.setSlot d c k x).banks = s.banks := rfl
@[simp] theorem State.setSlot_host (s : State) (d c k : Nat) (x : TslSlot) : (s.setSlot d c k x).host = s.host := rfl
@[simp] theorem State.setSlot_power (s : State) (d c k : Nat) (x : TslSlot) : (s.setSlot d c k x).power = s.power := rfl
@[simp] theorem State.setSlot_mgt (s : State) (d c k : Nat) (x : TslSlot) : (s.setSlot d c k x).mgt = s.mgt := rfl
@[simp] theorem State.setSlot_fuses (s : State) (d c k : Nat) (x : TslSlot) : (s.setSlot d c k x).fuses = s.fuses := rfl
@[simp] theorem State.setSlot_store (s : State) (d c k : Nat) (x : TslSlot) : (s.setSlot d c k x).store = s.store := rfl
@[simp] theorem State.setSlot_boot (s : State) (d c k : Nat) (x : TslSlot) : (s.setSlot d c k x).boot = s.boot := rfl
@[simp] theorem State.setSlot_pins (s : State) (d c k : Nat) (x : TslSlot) : (s.setSlot d c k x).pins = s.pins := rfl
@[simp] theorem State.setSlot_syn (s : State) (d c k : Nat) (x : TslSlot) : (s.setSlot d c k x).syn = s.syn := rfl
@[simp] theorem State.setSlot_d2d (s : State) (d c k : Nat) (x : TslSlot) : (s.setSlot d c k x).d2d = s.d2d := rfl
@[simp] theorem State.setSlot_tile (s : State) (d c k : Nat) (x : TslSlot) : (s.setSlot d c k x).tile = s.tile := rfl
@[simp] theorem State.setSlot_wfn (s : State) (d c k : Nat) (x : TslSlot) : (s.setSlot d c k x).wfn = s.wfn := rfl
@[simp] theorem State.setSlot_coll (s : State) (d c k : Nat) (x : TslSlot) : (s.setSlot d c k x).coll = s.coll := rfl
@[simp] theorem State.setSlot_integ (s : State) (d c k : Nat) (x : TslSlot) : (s.setSlot d c k x).integ = s.integ := rfl
@[simp] theorem State.setSlot_trn (s : State) (d c k : Nat) (x : TslSlot) : (s.setSlot d c k x).trn = s.trn := rfl
@[simp] theorem State.setSlot_srl (s : State) (d c k : Nat) (x : TslSlot) : (s.setSlot d c k x).srl = s.srl := rfl
@[simp] theorem State.setSlot_openCount (s : State) (d c k : Nat) (x : TslSlot) : (s.setSlot d c k x).openCount = s.openCount := rfl
@[simp] theorem State.setSlot_pending (s : State) (d c k : Nat) (x : TslSlot) : (s.setSlot d c k x).pending = s.pending := rfl

/-! State.setStrand -/

@[simp] theorem State.setStrand_regs (s : State) (l k : Nat) (x : Strand) : (s.setStrand l k x).regs = s.regs := rfl
@[simp] theorem State.setStrand_time (s : State) (l k : Nat) (x : Strand) : (s.setStrand l k x).time = s.time := rfl
@[simp] theorem State.setStrand_hbm (s : State) (l k : Nat) (x : Strand) : (s.setStrand l k x).hbm = s.hbm := rfl
@[simp] theorem State.setStrand_banks (s : State) (l k : Nat) (x : Strand) : (s.setStrand l k x).banks = s.banks := rfl
@[simp] theorem State.setStrand_host (s : State) (l k : Nat) (x : Strand) : (s.setStrand l k x).host = s.host := rfl
@[simp] theorem State.setStrand_power (s : State) (l k : Nat) (x : Strand) : (s.setStrand l k x).power = s.power := rfl
@[simp] theorem State.setStrand_mgt (s : State) (l k : Nat) (x : Strand) : (s.setStrand l k x).mgt = s.mgt := rfl
@[simp] theorem State.setStrand_fuses (s : State) (l k : Nat) (x : Strand) : (s.setStrand l k x).fuses = s.fuses := rfl
@[simp] theorem State.setStrand_store (s : State) (l k : Nat) (x : Strand) : (s.setStrand l k x).store = s.store := rfl
@[simp] theorem State.setStrand_boot (s : State) (l k : Nat) (x : Strand) : (s.setStrand l k x).boot = s.boot := rfl
@[simp] theorem State.setStrand_pins (s : State) (l k : Nat) (x : Strand) : (s.setStrand l k x).pins = s.pins := rfl
@[simp] theorem State.setStrand_syn (s : State) (l k : Nat) (x : Strand) : (s.setStrand l k x).syn = s.syn := rfl
@[simp] theorem State.setStrand_clu (s : State) (l k : Nat) (x : Strand) : (s.setStrand l k x).clu = s.clu := rfl
@[simp] theorem State.setStrand_tile (s : State) (l k : Nat) (x : Strand) : (s.setStrand l k x).tile = s.tile := rfl
@[simp] theorem State.setStrand_wfn (s : State) (l k : Nat) (x : Strand) : (s.setStrand l k x).wfn = s.wfn := rfl
@[simp] theorem State.setStrand_coll (s : State) (l k : Nat) (x : Strand) : (s.setStrand l k x).coll = s.coll := rfl
@[simp] theorem State.setStrand_integ (s : State) (l k : Nat) (x : Strand) : (s.setStrand l k x).integ = s.integ := rfl
@[simp] theorem State.setStrand_trn (s : State) (l k : Nat) (x : Strand) : (s.setStrand l k x).trn = s.trn := rfl
@[simp] theorem State.setStrand_srl (s : State) (l k : Nat) (x : Strand) : (s.setStrand l k x).srl = s.srl := rfl
@[simp] theorem State.setStrand_openCount (s : State) (l k : Nat) (x : Strand) : (s.setStrand l k x).openCount = s.openCount := rfl
@[simp] theorem State.setStrand_pending (s : State) (l k : Nat) (x : Strand) : (s.setStrand l k x).pending = s.pending := rfl

/-! State.setTx -/

@[simp] theorem State.setTx_regs (s : State) (e k : Nat) (x : StrandTx) : (s.setTx e k x).regs = s.regs := rfl
@[simp] theorem State.setTx_time (s : State) (e k : Nat) (x : StrandTx) : (s.setTx e k x).time = s.time := rfl
@[simp] theorem State.setTx_hbm (s : State) (e k : Nat) (x : StrandTx) : (s.setTx e k x).hbm = s.hbm := rfl
@[simp] theorem State.setTx_banks (s : State) (e k : Nat) (x : StrandTx) : (s.setTx e k x).banks = s.banks := rfl
@[simp] theorem State.setTx_host (s : State) (e k : Nat) (x : StrandTx) : (s.setTx e k x).host = s.host := rfl
@[simp] theorem State.setTx_power (s : State) (e k : Nat) (x : StrandTx) : (s.setTx e k x).power = s.power := rfl
@[simp] theorem State.setTx_mgt (s : State) (e k : Nat) (x : StrandTx) : (s.setTx e k x).mgt = s.mgt := rfl
@[simp] theorem State.setTx_fuses (s : State) (e k : Nat) (x : StrandTx) : (s.setTx e k x).fuses = s.fuses := rfl
@[simp] theorem State.setTx_store (s : State) (e k : Nat) (x : StrandTx) : (s.setTx e k x).store = s.store := rfl
@[simp] theorem State.setTx_boot (s : State) (e k : Nat) (x : StrandTx) : (s.setTx e k x).boot = s.boot := rfl
@[simp] theorem State.setTx_pins (s : State) (e k : Nat) (x : StrandTx) : (s.setTx e k x).pins = s.pins := rfl
@[simp] theorem State.setTx_syn (s : State) (e k : Nat) (x : StrandTx) : (s.setTx e k x).syn = s.syn := rfl
@[simp] theorem State.setTx_clu (s : State) (e k : Nat) (x : StrandTx) : (s.setTx e k x).clu = s.clu := rfl
@[simp] theorem State.setTx_tile (s : State) (e k : Nat) (x : StrandTx) : (s.setTx e k x).tile = s.tile := rfl
@[simp] theorem State.setTx_wfn (s : State) (e k : Nat) (x : StrandTx) : (s.setTx e k x).wfn = s.wfn := rfl
@[simp] theorem State.setTx_coll (s : State) (e k : Nat) (x : StrandTx) : (s.setTx e k x).coll = s.coll := rfl
@[simp] theorem State.setTx_integ (s : State) (e k : Nat) (x : StrandTx) : (s.setTx e k x).integ = s.integ := rfl
@[simp] theorem State.setTx_trn (s : State) (e k : Nat) (x : StrandTx) : (s.setTx e k x).trn = s.trn := rfl
@[simp] theorem State.setTx_srl (s : State) (e k : Nat) (x : StrandTx) : (s.setTx e k x).srl = s.srl := rfl
@[simp] theorem State.setTx_openCount (s : State) (e k : Nat) (x : StrandTx) : (s.setTx e k x).openCount = s.openCount := rfl
@[simp] theorem State.setTx_pending (s : State) (e k : Nat) (x : StrandTx) : (s.setTx e k x).pending = s.pending := rfl

/-! State.setRx -/

@[simp] theorem State.setRx_regs (s : State) (e k : Nat) (x : StrandRx) : (s.setRx e k x).regs = s.regs := rfl
@[simp] theorem State.setRx_time (s : State) (e k : Nat) (x : StrandRx) : (s.setRx e k x).time = s.time := rfl
@[simp] theorem State.setRx_hbm (s : State) (e k : Nat) (x : StrandRx) : (s.setRx e k x).hbm = s.hbm := rfl
@[simp] theorem State.setRx_banks (s : State) (e k : Nat) (x : StrandRx) : (s.setRx e k x).banks = s.banks := rfl
@[simp] theorem State.setRx_host (s : State) (e k : Nat) (x : StrandRx) : (s.setRx e k x).host = s.host := rfl
@[simp] theorem State.setRx_power (s : State) (e k : Nat) (x : StrandRx) : (s.setRx e k x).power = s.power := rfl
@[simp] theorem State.setRx_mgt (s : State) (e k : Nat) (x : StrandRx) : (s.setRx e k x).mgt = s.mgt := rfl
@[simp] theorem State.setRx_fuses (s : State) (e k : Nat) (x : StrandRx) : (s.setRx e k x).fuses = s.fuses := rfl
@[simp] theorem State.setRx_store (s : State) (e k : Nat) (x : StrandRx) : (s.setRx e k x).store = s.store := rfl
@[simp] theorem State.setRx_boot (s : State) (e k : Nat) (x : StrandRx) : (s.setRx e k x).boot = s.boot := rfl
@[simp] theorem State.setRx_pins (s : State) (e k : Nat) (x : StrandRx) : (s.setRx e k x).pins = s.pins := rfl
@[simp] theorem State.setRx_syn (s : State) (e k : Nat) (x : StrandRx) : (s.setRx e k x).syn = s.syn := rfl
@[simp] theorem State.setRx_clu (s : State) (e k : Nat) (x : StrandRx) : (s.setRx e k x).clu = s.clu := rfl
@[simp] theorem State.setRx_tile (s : State) (e k : Nat) (x : StrandRx) : (s.setRx e k x).tile = s.tile := rfl
@[simp] theorem State.setRx_wfn (s : State) (e k : Nat) (x : StrandRx) : (s.setRx e k x).wfn = s.wfn := rfl
@[simp] theorem State.setRx_coll (s : State) (e k : Nat) (x : StrandRx) : (s.setRx e k x).coll = s.coll := rfl
@[simp] theorem State.setRx_integ (s : State) (e k : Nat) (x : StrandRx) : (s.setRx e k x).integ = s.integ := rfl
@[simp] theorem State.setRx_trn (s : State) (e k : Nat) (x : StrandRx) : (s.setRx e k x).trn = s.trn := rfl
@[simp] theorem State.setRx_srl (s : State) (e k : Nat) (x : StrandRx) : (s.setRx e k x).srl = s.srl := rfl
@[simp] theorem State.setRx_openCount (s : State) (e k : Nat) (x : StrandRx) : (s.setRx e k x).openCount = s.openCount := rfl
@[simp] theorem State.setRx_pending (s : State) (e k : Nat) (x : StrandRx) : (s.setRx e k x).pending = s.pending := rfl

/-! State.setWaiting -/

@[simp] theorem State.setWaiting_regs (s : State) (e cls hops : Nat) (fs : List (Nat × D2dFrame)) : (s.setWaiting e cls hops fs).regs = s.regs := rfl
@[simp] theorem State.setWaiting_time (s : State) (e cls hops : Nat) (fs : List (Nat × D2dFrame)) : (s.setWaiting e cls hops fs).time = s.time := rfl
@[simp] theorem State.setWaiting_hbm (s : State) (e cls hops : Nat) (fs : List (Nat × D2dFrame)) : (s.setWaiting e cls hops fs).hbm = s.hbm := rfl
@[simp] theorem State.setWaiting_banks (s : State) (e cls hops : Nat) (fs : List (Nat × D2dFrame)) : (s.setWaiting e cls hops fs).banks = s.banks := rfl
@[simp] theorem State.setWaiting_host (s : State) (e cls hops : Nat) (fs : List (Nat × D2dFrame)) : (s.setWaiting e cls hops fs).host = s.host := rfl
@[simp] theorem State.setWaiting_power (s : State) (e cls hops : Nat) (fs : List (Nat × D2dFrame)) : (s.setWaiting e cls hops fs).power = s.power := rfl
@[simp] theorem State.setWaiting_mgt (s : State) (e cls hops : Nat) (fs : List (Nat × D2dFrame)) : (s.setWaiting e cls hops fs).mgt = s.mgt := rfl
@[simp] theorem State.setWaiting_fuses (s : State) (e cls hops : Nat) (fs : List (Nat × D2dFrame)) : (s.setWaiting e cls hops fs).fuses = s.fuses := rfl
@[simp] theorem State.setWaiting_store (s : State) (e cls hops : Nat) (fs : List (Nat × D2dFrame)) : (s.setWaiting e cls hops fs).store = s.store := rfl
@[simp] theorem State.setWaiting_boot (s : State) (e cls hops : Nat) (fs : List (Nat × D2dFrame)) : (s.setWaiting e cls hops fs).boot = s.boot := rfl
@[simp] theorem State.setWaiting_pins (s : State) (e cls hops : Nat) (fs : List (Nat × D2dFrame)) : (s.setWaiting e cls hops fs).pins = s.pins := rfl
@[simp] theorem State.setWaiting_syn (s : State) (e cls hops : Nat) (fs : List (Nat × D2dFrame)) : (s.setWaiting e cls hops fs).syn = s.syn := rfl
@[simp] theorem State.setWaiting_clu (s : State) (e cls hops : Nat) (fs : List (Nat × D2dFrame)) : (s.setWaiting e cls hops fs).clu = s.clu := rfl
@[simp] theorem State.setWaiting_tile (s : State) (e cls hops : Nat) (fs : List (Nat × D2dFrame)) : (s.setWaiting e cls hops fs).tile = s.tile := rfl
@[simp] theorem State.setWaiting_wfn (s : State) (e cls hops : Nat) (fs : List (Nat × D2dFrame)) : (s.setWaiting e cls hops fs).wfn = s.wfn := rfl
@[simp] theorem State.setWaiting_coll (s : State) (e cls hops : Nat) (fs : List (Nat × D2dFrame)) : (s.setWaiting e cls hops fs).coll = s.coll := rfl
@[simp] theorem State.setWaiting_integ (s : State) (e cls hops : Nat) (fs : List (Nat × D2dFrame)) : (s.setWaiting e cls hops fs).integ = s.integ := rfl
@[simp] theorem State.setWaiting_trn (s : State) (e cls hops : Nat) (fs : List (Nat × D2dFrame)) : (s.setWaiting e cls hops fs).trn = s.trn := rfl
@[simp] theorem State.setWaiting_srl (s : State) (e cls hops : Nat) (fs : List (Nat × D2dFrame)) : (s.setWaiting e cls hops fs).srl = s.srl := rfl
@[simp] theorem State.setWaiting_openCount (s : State) (e cls hops : Nat) (fs : List (Nat × D2dFrame)) : (s.setWaiting e cls hops fs).openCount = s.openCount := rfl
@[simp] theorem State.setWaiting_pending (s : State) (e cls hops : Nat) (fs : List (Nat × D2dFrame)) : (s.setWaiting e cls hops fs).pending = s.pending := rfl

/-! State.setArray -/

@[simp] theorem State.setArray_regs (s : State) (d c a : Nat) (x : ArraySt) : (s.setArray d c a x).regs = s.regs := rfl
@[simp] theorem State.setArray_time (s : State) (d c a : Nat) (x : ArraySt) : (s.setArray d c a x).time = s.time := rfl
@[simp] theorem State.setArray_hbm (s : State) (d c a : Nat) (x : ArraySt) : (s.setArray d c a x).hbm = s.hbm := rfl
@[simp] theorem State.setArray_banks (s : State) (d c a : Nat) (x : ArraySt) : (s.setArray d c a x).banks = s.banks := rfl
@[simp] theorem State.setArray_host (s : State) (d c a : Nat) (x : ArraySt) : (s.setArray d c a x).host = s.host := rfl
@[simp] theorem State.setArray_power (s : State) (d c a : Nat) (x : ArraySt) : (s.setArray d c a x).power = s.power := rfl
@[simp] theorem State.setArray_mgt (s : State) (d c a : Nat) (x : ArraySt) : (s.setArray d c a x).mgt = s.mgt := rfl
@[simp] theorem State.setArray_fuses (s : State) (d c a : Nat) (x : ArraySt) : (s.setArray d c a x).fuses = s.fuses := rfl
@[simp] theorem State.setArray_store (s : State) (d c a : Nat) (x : ArraySt) : (s.setArray d c a x).store = s.store := rfl
@[simp] theorem State.setArray_boot (s : State) (d c a : Nat) (x : ArraySt) : (s.setArray d c a x).boot = s.boot := rfl
@[simp] theorem State.setArray_pins (s : State) (d c a : Nat) (x : ArraySt) : (s.setArray d c a x).pins = s.pins := rfl
@[simp] theorem State.setArray_syn (s : State) (d c a : Nat) (x : ArraySt) : (s.setArray d c a x).syn = s.syn := rfl
@[simp] theorem State.setArray_clu (s : State) (d c a : Nat) (x : ArraySt) : (s.setArray d c a x).clu = s.clu := rfl
@[simp] theorem State.setArray_d2d (s : State) (d c a : Nat) (x : ArraySt) : (s.setArray d c a x).d2d = s.d2d := rfl
@[simp] theorem State.setArray_wfn (s : State) (d c a : Nat) (x : ArraySt) : (s.setArray d c a x).wfn = s.wfn := rfl
@[simp] theorem State.setArray_coll (s : State) (d c a : Nat) (x : ArraySt) : (s.setArray d c a x).coll = s.coll := rfl
@[simp] theorem State.setArray_integ (s : State) (d c a : Nat) (x : ArraySt) : (s.setArray d c a x).integ = s.integ := rfl
@[simp] theorem State.setArray_trn (s : State) (d c a : Nat) (x : ArraySt) : (s.setArray d c a x).trn = s.trn := rfl
@[simp] theorem State.setArray_srl (s : State) (d c a : Nat) (x : ArraySt) : (s.setArray d c a x).srl = s.srl := rfl
@[simp] theorem State.setArray_openCount (s : State) (d c a : Nat) (x : ArraySt) : (s.setArray d c a x).openCount = s.openCount := rfl
@[simp] theorem State.setArray_pending (s : State) (d c a : Nat) (x : ArraySt) : (s.setArray d c a x).pending = s.pending := rfl

/-! State.setFinals -/

@[simp] theorem State.setFinals_regs (s : State) (d c : Nat) (x : List (Nat × Nat)) : (s.setFinals d c x).regs = s.regs := rfl
@[simp] theorem State.setFinals_time (s : State) (d c : Nat) (x : List (Nat × Nat)) : (s.setFinals d c x).time = s.time := rfl
@[simp] theorem State.setFinals_hbm (s : State) (d c : Nat) (x : List (Nat × Nat)) : (s.setFinals d c x).hbm = s.hbm := rfl
@[simp] theorem State.setFinals_banks (s : State) (d c : Nat) (x : List (Nat × Nat)) : (s.setFinals d c x).banks = s.banks := rfl
@[simp] theorem State.setFinals_host (s : State) (d c : Nat) (x : List (Nat × Nat)) : (s.setFinals d c x).host = s.host := rfl
@[simp] theorem State.setFinals_power (s : State) (d c : Nat) (x : List (Nat × Nat)) : (s.setFinals d c x).power = s.power := rfl
@[simp] theorem State.setFinals_mgt (s : State) (d c : Nat) (x : List (Nat × Nat)) : (s.setFinals d c x).mgt = s.mgt := rfl
@[simp] theorem State.setFinals_fuses (s : State) (d c : Nat) (x : List (Nat × Nat)) : (s.setFinals d c x).fuses = s.fuses := rfl
@[simp] theorem State.setFinals_store (s : State) (d c : Nat) (x : List (Nat × Nat)) : (s.setFinals d c x).store = s.store := rfl
@[simp] theorem State.setFinals_boot (s : State) (d c : Nat) (x : List (Nat × Nat)) : (s.setFinals d c x).boot = s.boot := rfl
@[simp] theorem State.setFinals_pins (s : State) (d c : Nat) (x : List (Nat × Nat)) : (s.setFinals d c x).pins = s.pins := rfl
@[simp] theorem State.setFinals_syn (s : State) (d c : Nat) (x : List (Nat × Nat)) : (s.setFinals d c x).syn = s.syn := rfl
@[simp] theorem State.setFinals_clu (s : State) (d c : Nat) (x : List (Nat × Nat)) : (s.setFinals d c x).clu = s.clu := rfl
@[simp] theorem State.setFinals_d2d (s : State) (d c : Nat) (x : List (Nat × Nat)) : (s.setFinals d c x).d2d = s.d2d := rfl
@[simp] theorem State.setFinals_wfn (s : State) (d c : Nat) (x : List (Nat × Nat)) : (s.setFinals d c x).wfn = s.wfn := rfl
@[simp] theorem State.setFinals_coll (s : State) (d c : Nat) (x : List (Nat × Nat)) : (s.setFinals d c x).coll = s.coll := rfl
@[simp] theorem State.setFinals_integ (s : State) (d c : Nat) (x : List (Nat × Nat)) : (s.setFinals d c x).integ = s.integ := rfl
@[simp] theorem State.setFinals_trn (s : State) (d c : Nat) (x : List (Nat × Nat)) : (s.setFinals d c x).trn = s.trn := rfl
@[simp] theorem State.setFinals_srl (s : State) (d c : Nat) (x : List (Nat × Nat)) : (s.setFinals d c x).srl = s.srl := rfl
@[simp] theorem State.setFinals_openCount (s : State) (d c : Nat) (x : List (Nat × Nat)) : (s.setFinals d c x).openCount = s.openCount := rfl
@[simp] theorem State.setFinals_pending (s : State) (d c : Nat) (x : List (Nat × Nat)) : (s.setFinals d c x).pending = s.pending := rfl

/-! State.setSpills -/

@[simp] theorem State.setSpills_regs (s : State) (d c : Nat) (x : List Spill) : (s.setSpills d c x).regs = s.regs := rfl
@[simp] theorem State.setSpills_time (s : State) (d c : Nat) (x : List Spill) : (s.setSpills d c x).time = s.time := rfl
@[simp] theorem State.setSpills_hbm (s : State) (d c : Nat) (x : List Spill) : (s.setSpills d c x).hbm = s.hbm := rfl
@[simp] theorem State.setSpills_banks (s : State) (d c : Nat) (x : List Spill) : (s.setSpills d c x).banks = s.banks := rfl
@[simp] theorem State.setSpills_host (s : State) (d c : Nat) (x : List Spill) : (s.setSpills d c x).host = s.host := rfl
@[simp] theorem State.setSpills_power (s : State) (d c : Nat) (x : List Spill) : (s.setSpills d c x).power = s.power := rfl
@[simp] theorem State.setSpills_mgt (s : State) (d c : Nat) (x : List Spill) : (s.setSpills d c x).mgt = s.mgt := rfl
@[simp] theorem State.setSpills_fuses (s : State) (d c : Nat) (x : List Spill) : (s.setSpills d c x).fuses = s.fuses := rfl
@[simp] theorem State.setSpills_store (s : State) (d c : Nat) (x : List Spill) : (s.setSpills d c x).store = s.store := rfl
@[simp] theorem State.setSpills_boot (s : State) (d c : Nat) (x : List Spill) : (s.setSpills d c x).boot = s.boot := rfl
@[simp] theorem State.setSpills_pins (s : State) (d c : Nat) (x : List Spill) : (s.setSpills d c x).pins = s.pins := rfl
@[simp] theorem State.setSpills_syn (s : State) (d c : Nat) (x : List Spill) : (s.setSpills d c x).syn = s.syn := rfl
@[simp] theorem State.setSpills_clu (s : State) (d c : Nat) (x : List Spill) : (s.setSpills d c x).clu = s.clu := rfl
@[simp] theorem State.setSpills_d2d (s : State) (d c : Nat) (x : List Spill) : (s.setSpills d c x).d2d = s.d2d := rfl
@[simp] theorem State.setSpills_wfn (s : State) (d c : Nat) (x : List Spill) : (s.setSpills d c x).wfn = s.wfn := rfl
@[simp] theorem State.setSpills_coll (s : State) (d c : Nat) (x : List Spill) : (s.setSpills d c x).coll = s.coll := rfl
@[simp] theorem State.setSpills_integ (s : State) (d c : Nat) (x : List Spill) : (s.setSpills d c x).integ = s.integ := rfl
@[simp] theorem State.setSpills_trn (s : State) (d c : Nat) (x : List Spill) : (s.setSpills d c x).trn = s.trn := rfl
@[simp] theorem State.setSpills_srl (s : State) (d c : Nat) (x : List Spill) : (s.setSpills d c x).srl = s.srl := rfl
@[simp] theorem State.setSpills_openCount (s : State) (d c : Nat) (x : List Spill) : (s.setSpills d c x).openCount = s.openCount := rfl
@[simp] theorem State.setSpills_pending (s : State) (d c : Nat) (x : List Spill) : (s.setSpills d c x).pending = s.pending := rfl

/-! State.updRun -/

@[simp] theorem State.updRun_regs (s : State) (q seq : Nat) (g : TileRun → TileRun) : (s.updRun q seq g).regs = s.regs := rfl
@[simp] theorem State.updRun_time (s : State) (q seq : Nat) (g : TileRun → TileRun) : (s.updRun q seq g).time = s.time := rfl
@[simp] theorem State.updRun_hbm (s : State) (q seq : Nat) (g : TileRun → TileRun) : (s.updRun q seq g).hbm = s.hbm := rfl
@[simp] theorem State.updRun_banks (s : State) (q seq : Nat) (g : TileRun → TileRun) : (s.updRun q seq g).banks = s.banks := rfl
@[simp] theorem State.updRun_host (s : State) (q seq : Nat) (g : TileRun → TileRun) : (s.updRun q seq g).host = s.host := rfl
@[simp] theorem State.updRun_power (s : State) (q seq : Nat) (g : TileRun → TileRun) : (s.updRun q seq g).power = s.power := rfl
@[simp] theorem State.updRun_mgt (s : State) (q seq : Nat) (g : TileRun → TileRun) : (s.updRun q seq g).mgt = s.mgt := rfl
@[simp] theorem State.updRun_fuses (s : State) (q seq : Nat) (g : TileRun → TileRun) : (s.updRun q seq g).fuses = s.fuses := rfl
@[simp] theorem State.updRun_store (s : State) (q seq : Nat) (g : TileRun → TileRun) : (s.updRun q seq g).store = s.store := rfl
@[simp] theorem State.updRun_boot (s : State) (q seq : Nat) (g : TileRun → TileRun) : (s.updRun q seq g).boot = s.boot := rfl
@[simp] theorem State.updRun_pins (s : State) (q seq : Nat) (g : TileRun → TileRun) : (s.updRun q seq g).pins = s.pins := rfl
@[simp] theorem State.updRun_syn (s : State) (q seq : Nat) (g : TileRun → TileRun) : (s.updRun q seq g).syn = s.syn := rfl
@[simp] theorem State.updRun_clu (s : State) (q seq : Nat) (g : TileRun → TileRun) : (s.updRun q seq g).clu = s.clu := rfl
@[simp] theorem State.updRun_d2d (s : State) (q seq : Nat) (g : TileRun → TileRun) : (s.updRun q seq g).d2d = s.d2d := rfl
@[simp] theorem State.updRun_wfn (s : State) (q seq : Nat) (g : TileRun → TileRun) : (s.updRun q seq g).wfn = s.wfn := rfl
@[simp] theorem State.updRun_coll (s : State) (q seq : Nat) (g : TileRun → TileRun) : (s.updRun q seq g).coll = s.coll := rfl
@[simp] theorem State.updRun_integ (s : State) (q seq : Nat) (g : TileRun → TileRun) : (s.updRun q seq g).integ = s.integ := rfl
@[simp] theorem State.updRun_trn (s : State) (q seq : Nat) (g : TileRun → TileRun) : (s.updRun q seq g).trn = s.trn := rfl
@[simp] theorem State.updRun_srl (s : State) (q seq : Nat) (g : TileRun → TileRun) : (s.updRun q seq g).srl = s.srl := rfl
@[simp] theorem State.updRun_openCount (s : State) (q seq : Nat) (g : TileRun → TileRun) : (s.updRun q seq g).openCount = s.openCount := rfl
@[simp] theorem State.updRun_pending (s : State) (q seq : Nat) (g : TileRun → TileRun) : (s.updRun q seq g).pending = s.pending := rfl

/-! State.updPw -/

@[simp] theorem State.updPw_regs (s : State) (d : Nat) (g : PwDie → PwDie) : (s.updPw d g).regs = s.regs := rfl
@[simp] theorem State.updPw_time (s : State) (d : Nat) (g : PwDie → PwDie) : (s.updPw d g).time = s.time := rfl
@[simp] theorem State.updPw_hbm (s : State) (d : Nat) (g : PwDie → PwDie) : (s.updPw d g).hbm = s.hbm := rfl
@[simp] theorem State.updPw_banks (s : State) (d : Nat) (g : PwDie → PwDie) : (s.updPw d g).banks = s.banks := rfl
@[simp] theorem State.updPw_host (s : State) (d : Nat) (g : PwDie → PwDie) : (s.updPw d g).host = s.host := rfl
@[simp] theorem State.updPw_mgt (s : State) (d : Nat) (g : PwDie → PwDie) : (s.updPw d g).mgt = s.mgt := rfl
@[simp] theorem State.updPw_fuses (s : State) (d : Nat) (g : PwDie → PwDie) : (s.updPw d g).fuses = s.fuses := rfl
@[simp] theorem State.updPw_store (s : State) (d : Nat) (g : PwDie → PwDie) : (s.updPw d g).store = s.store := rfl
@[simp] theorem State.updPw_boot (s : State) (d : Nat) (g : PwDie → PwDie) : (s.updPw d g).boot = s.boot := rfl
@[simp] theorem State.updPw_pins (s : State) (d : Nat) (g : PwDie → PwDie) : (s.updPw d g).pins = s.pins := rfl
@[simp] theorem State.updPw_syn (s : State) (d : Nat) (g : PwDie → PwDie) : (s.updPw d g).syn = s.syn := rfl
@[simp] theorem State.updPw_clu (s : State) (d : Nat) (g : PwDie → PwDie) : (s.updPw d g).clu = s.clu := rfl
@[simp] theorem State.updPw_d2d (s : State) (d : Nat) (g : PwDie → PwDie) : (s.updPw d g).d2d = s.d2d := rfl
@[simp] theorem State.updPw_tile (s : State) (d : Nat) (g : PwDie → PwDie) : (s.updPw d g).tile = s.tile := rfl
@[simp] theorem State.updPw_wfn (s : State) (d : Nat) (g : PwDie → PwDie) : (s.updPw d g).wfn = s.wfn := rfl
@[simp] theorem State.updPw_coll (s : State) (d : Nat) (g : PwDie → PwDie) : (s.updPw d g).coll = s.coll := rfl
@[simp] theorem State.updPw_integ (s : State) (d : Nat) (g : PwDie → PwDie) : (s.updPw d g).integ = s.integ := rfl
@[simp] theorem State.updPw_trn (s : State) (d : Nat) (g : PwDie → PwDie) : (s.updPw d g).trn = s.trn := rfl
@[simp] theorem State.updPw_srl (s : State) (d : Nat) (g : PwDie → PwDie) : (s.updPw d g).srl = s.srl := rfl
@[simp] theorem State.updPw_openCount (s : State) (d : Nat) (g : PwDie → PwDie) : (s.updPw d g).openCount = s.openCount := rfl
@[simp] theorem State.updPw_pending (s : State) (d : Nat) (g : PwDie → PwDie) : (s.updPw d g).pending = s.pending := rfl

/-! State.setPort -/

@[simp] theorem State.setPort_regs (s : State) (p : Nat) (x : WPort) : (s.setPort p x).regs = s.regs := rfl
@[simp] theorem State.setPort_time (s : State) (p : Nat) (x : WPort) : (s.setPort p x).time = s.time := rfl
@[simp] theorem State.setPort_hbm (s : State) (p : Nat) (x : WPort) : (s.setPort p x).hbm = s.hbm := rfl
@[simp] theorem State.setPort_banks (s : State) (p : Nat) (x : WPort) : (s.setPort p x).banks = s.banks := rfl
@[simp] theorem State.setPort_host (s : State) (p : Nat) (x : WPort) : (s.setPort p x).host = s.host := rfl
@[simp] theorem State.setPort_power (s : State) (p : Nat) (x : WPort) : (s.setPort p x).power = s.power := rfl
@[simp] theorem State.setPort_mgt (s : State) (p : Nat) (x : WPort) : (s.setPort p x).mgt = s.mgt := rfl
@[simp] theorem State.setPort_fuses (s : State) (p : Nat) (x : WPort) : (s.setPort p x).fuses = s.fuses := rfl
@[simp] theorem State.setPort_store (s : State) (p : Nat) (x : WPort) : (s.setPort p x).store = s.store := rfl
@[simp] theorem State.setPort_boot (s : State) (p : Nat) (x : WPort) : (s.setPort p x).boot = s.boot := rfl
@[simp] theorem State.setPort_pins (s : State) (p : Nat) (x : WPort) : (s.setPort p x).pins = s.pins := rfl
@[simp] theorem State.setPort_syn (s : State) (p : Nat) (x : WPort) : (s.setPort p x).syn = s.syn := rfl
@[simp] theorem State.setPort_clu (s : State) (p : Nat) (x : WPort) : (s.setPort p x).clu = s.clu := rfl
@[simp] theorem State.setPort_d2d (s : State) (p : Nat) (x : WPort) : (s.setPort p x).d2d = s.d2d := rfl
@[simp] theorem State.setPort_tile (s : State) (p : Nat) (x : WPort) : (s.setPort p x).tile = s.tile := rfl
@[simp] theorem State.setPort_coll (s : State) (p : Nat) (x : WPort) : (s.setPort p x).coll = s.coll := rfl
@[simp] theorem State.setPort_integ (s : State) (p : Nat) (x : WPort) : (s.setPort p x).integ = s.integ := rfl
@[simp] theorem State.setPort_trn (s : State) (p : Nat) (x : WPort) : (s.setPort p x).trn = s.trn := rfl
@[simp] theorem State.setPort_srl (s : State) (p : Nat) (x : WPort) : (s.setPort p x).srl = s.srl := rfl
@[simp] theorem State.setPort_openCount (s : State) (p : Nat) (x : WPort) : (s.setPort p x).openCount = s.openCount := rfl
@[simp] theorem State.setPort_pending (s : State) (p : Nat) (x : WPort) : (s.setPort p x).pending = s.pending := rfl

/-! State.setRegion -/

@[simp] theorem State.setRegion_regs (s : State) (r : Nat) (x : Region) : (s.setRegion r x).regs = s.regs := rfl
@[simp] theorem State.setRegion_time (s : State) (r : Nat) (x : Region) : (s.setRegion r x).time = s.time := rfl
@[simp] theorem State.setRegion_hbm (s : State) (r : Nat) (x : Region) : (s.setRegion r x).hbm = s.hbm := rfl
@[simp] theorem State.setRegion_banks (s : State) (r : Nat) (x : Region) : (s.setRegion r x).banks = s.banks := rfl
@[simp] theorem State.setRegion_host (s : State) (r : Nat) (x : Region) : (s.setRegion r x).host = s.host := rfl
@[simp] theorem State.setRegion_power (s : State) (r : Nat) (x : Region) : (s.setRegion r x).power = s.power := rfl
@[simp] theorem State.setRegion_mgt (s : State) (r : Nat) (x : Region) : (s.setRegion r x).mgt = s.mgt := rfl
@[simp] theorem State.setRegion_fuses (s : State) (r : Nat) (x : Region) : (s.setRegion r x).fuses = s.fuses := rfl
@[simp] theorem State.setRegion_store (s : State) (r : Nat) (x : Region) : (s.setRegion r x).store = s.store := rfl
@[simp] theorem State.setRegion_boot (s : State) (r : Nat) (x : Region) : (s.setRegion r x).boot = s.boot := rfl
@[simp] theorem State.setRegion_pins (s : State) (r : Nat) (x : Region) : (s.setRegion r x).pins = s.pins := rfl
@[simp] theorem State.setRegion_syn (s : State) (r : Nat) (x : Region) : (s.setRegion r x).syn = s.syn := rfl
@[simp] theorem State.setRegion_clu (s : State) (r : Nat) (x : Region) : (s.setRegion r x).clu = s.clu := rfl
@[simp] theorem State.setRegion_d2d (s : State) (r : Nat) (x : Region) : (s.setRegion r x).d2d = s.d2d := rfl
@[simp] theorem State.setRegion_tile (s : State) (r : Nat) (x : Region) : (s.setRegion r x).tile = s.tile := rfl
@[simp] theorem State.setRegion_coll (s : State) (r : Nat) (x : Region) : (s.setRegion r x).coll = s.coll := rfl
@[simp] theorem State.setRegion_integ (s : State) (r : Nat) (x : Region) : (s.setRegion r x).integ = s.integ := rfl
@[simp] theorem State.setRegion_trn (s : State) (r : Nat) (x : Region) : (s.setRegion r x).trn = s.trn := rfl
@[simp] theorem State.setRegion_srl (s : State) (r : Nat) (x : Region) : (s.setRegion r x).srl = s.srl := rfl
@[simp] theorem State.setRegion_openCount (s : State) (r : Nat) (x : Region) : (s.setRegion r x).openCount = s.openCount := rfl
@[simp] theorem State.setRegion_pending (s : State) (r : Nat) (x : Region) : (s.setRegion r x).pending = s.pending := rfl

/-! State.setGroup -/

@[simp] theorem State.setGroup_regs (s : State) (g : Nat) (x : Group) : (s.setGroup g x).regs = s.regs := rfl
@[simp] theorem State.setGroup_time (s : State) (g : Nat) (x : Group) : (s.setGroup g x).time = s.time := rfl
@[simp] theorem State.setGroup_hbm (s : State) (g : Nat) (x : Group) : (s.setGroup g x).hbm = s.hbm := rfl
@[simp] theorem State.setGroup_banks (s : State) (g : Nat) (x : Group) : (s.setGroup g x).banks = s.banks := rfl
@[simp] theorem State.setGroup_host (s : State) (g : Nat) (x : Group) : (s.setGroup g x).host = s.host := rfl
@[simp] theorem State.setGroup_power (s : State) (g : Nat) (x : Group) : (s.setGroup g x).power = s.power := rfl
@[simp] theorem State.setGroup_mgt (s : State) (g : Nat) (x : Group) : (s.setGroup g x).mgt = s.mgt := rfl
@[simp] theorem State.setGroup_fuses (s : State) (g : Nat) (x : Group) : (s.setGroup g x).fuses = s.fuses := rfl
@[simp] theorem State.setGroup_store (s : State) (g : Nat) (x : Group) : (s.setGroup g x).store = s.store := rfl
@[simp] theorem State.setGroup_boot (s : State) (g : Nat) (x : Group) : (s.setGroup g x).boot = s.boot := rfl
@[simp] theorem State.setGroup_pins (s : State) (g : Nat) (x : Group) : (s.setGroup g x).pins = s.pins := rfl
@[simp] theorem State.setGroup_syn (s : State) (g : Nat) (x : Group) : (s.setGroup g x).syn = s.syn := rfl
@[simp] theorem State.setGroup_clu (s : State) (g : Nat) (x : Group) : (s.setGroup g x).clu = s.clu := rfl
@[simp] theorem State.setGroup_d2d (s : State) (g : Nat) (x : Group) : (s.setGroup g x).d2d = s.d2d := rfl
@[simp] theorem State.setGroup_tile (s : State) (g : Nat) (x : Group) : (s.setGroup g x).tile = s.tile := rfl
@[simp] theorem State.setGroup_wfn (s : State) (g : Nat) (x : Group) : (s.setGroup g x).wfn = s.wfn := rfl
@[simp] theorem State.setGroup_integ (s : State) (g : Nat) (x : Group) : (s.setGroup g x).integ = s.integ := rfl
@[simp] theorem State.setGroup_trn (s : State) (g : Nat) (x : Group) : (s.setGroup g x).trn = s.trn := rfl
@[simp] theorem State.setGroup_srl (s : State) (g : Nat) (x : Group) : (s.setGroup g x).srl = s.srl := rfl
@[simp] theorem State.setGroup_openCount (s : State) (g : Nat) (x : Group) : (s.setGroup g x).openCount = s.openCount := rfl
@[simp] theorem State.setGroup_pending (s : State) (g : Nat) (x : Group) : (s.setGroup g x).pending = s.pending := rfl

/-! State.setGdie -/

@[simp] theorem State.setGdie_regs (s : State) (g d : Nat) (x : GroupDie) : (s.setGdie g d x).regs = s.regs := rfl
@[simp] theorem State.setGdie_time (s : State) (g d : Nat) (x : GroupDie) : (s.setGdie g d x).time = s.time := rfl
@[simp] theorem State.setGdie_hbm (s : State) (g d : Nat) (x : GroupDie) : (s.setGdie g d x).hbm = s.hbm := rfl
@[simp] theorem State.setGdie_banks (s : State) (g d : Nat) (x : GroupDie) : (s.setGdie g d x).banks = s.banks := rfl
@[simp] theorem State.setGdie_host (s : State) (g d : Nat) (x : GroupDie) : (s.setGdie g d x).host = s.host := rfl
@[simp] theorem State.setGdie_power (s : State) (g d : Nat) (x : GroupDie) : (s.setGdie g d x).power = s.power := rfl
@[simp] theorem State.setGdie_mgt (s : State) (g d : Nat) (x : GroupDie) : (s.setGdie g d x).mgt = s.mgt := rfl
@[simp] theorem State.setGdie_fuses (s : State) (g d : Nat) (x : GroupDie) : (s.setGdie g d x).fuses = s.fuses := rfl
@[simp] theorem State.setGdie_store (s : State) (g d : Nat) (x : GroupDie) : (s.setGdie g d x).store = s.store := rfl
@[simp] theorem State.setGdie_boot (s : State) (g d : Nat) (x : GroupDie) : (s.setGdie g d x).boot = s.boot := rfl
@[simp] theorem State.setGdie_pins (s : State) (g d : Nat) (x : GroupDie) : (s.setGdie g d x).pins = s.pins := rfl
@[simp] theorem State.setGdie_syn (s : State) (g d : Nat) (x : GroupDie) : (s.setGdie g d x).syn = s.syn := rfl
@[simp] theorem State.setGdie_clu (s : State) (g d : Nat) (x : GroupDie) : (s.setGdie g d x).clu = s.clu := rfl
@[simp] theorem State.setGdie_d2d (s : State) (g d : Nat) (x : GroupDie) : (s.setGdie g d x).d2d = s.d2d := rfl
@[simp] theorem State.setGdie_tile (s : State) (g d : Nat) (x : GroupDie) : (s.setGdie g d x).tile = s.tile := rfl
@[simp] theorem State.setGdie_wfn (s : State) (g d : Nat) (x : GroupDie) : (s.setGdie g d x).wfn = s.wfn := rfl
@[simp] theorem State.setGdie_integ (s : State) (g d : Nat) (x : GroupDie) : (s.setGdie g d x).integ = s.integ := rfl
@[simp] theorem State.setGdie_trn (s : State) (g d : Nat) (x : GroupDie) : (s.setGdie g d x).trn = s.trn := rfl
@[simp] theorem State.setGdie_srl (s : State) (g d : Nat) (x : GroupDie) : (s.setGdie g d x).srl = s.srl := rfl
@[simp] theorem State.setGdie_openCount (s : State) (g d : Nat) (x : GroupDie) : (s.setGdie g d x).openCount = s.openCount := rfl
@[simp] theorem State.setGdie_pending (s : State) (g d : Nat) (x : GroupDie) : (s.setGdie g d x).pending = s.pending := rfl

/-! State.setSrl -/

@[simp] theorem State.setSrl_regs (s : State) (d : Nat) (x : SrlDie) : (s.setSrl d x).regs = s.regs := rfl
@[simp] theorem State.setSrl_time (s : State) (d : Nat) (x : SrlDie) : (s.setSrl d x).time = s.time := rfl
@[simp] theorem State.setSrl_hbm (s : State) (d : Nat) (x : SrlDie) : (s.setSrl d x).hbm = s.hbm := rfl
@[simp] theorem State.setSrl_banks (s : State) (d : Nat) (x : SrlDie) : (s.setSrl d x).banks = s.banks := rfl
@[simp] theorem State.setSrl_host (s : State) (d : Nat) (x : SrlDie) : (s.setSrl d x).host = s.host := rfl
@[simp] theorem State.setSrl_power (s : State) (d : Nat) (x : SrlDie) : (s.setSrl d x).power = s.power := rfl
@[simp] theorem State.setSrl_mgt (s : State) (d : Nat) (x : SrlDie) : (s.setSrl d x).mgt = s.mgt := rfl
@[simp] theorem State.setSrl_fuses (s : State) (d : Nat) (x : SrlDie) : (s.setSrl d x).fuses = s.fuses := rfl
@[simp] theorem State.setSrl_store (s : State) (d : Nat) (x : SrlDie) : (s.setSrl d x).store = s.store := rfl
@[simp] theorem State.setSrl_boot (s : State) (d : Nat) (x : SrlDie) : (s.setSrl d x).boot = s.boot := rfl
@[simp] theorem State.setSrl_pins (s : State) (d : Nat) (x : SrlDie) : (s.setSrl d x).pins = s.pins := rfl
@[simp] theorem State.setSrl_syn (s : State) (d : Nat) (x : SrlDie) : (s.setSrl d x).syn = s.syn := rfl
@[simp] theorem State.setSrl_clu (s : State) (d : Nat) (x : SrlDie) : (s.setSrl d x).clu = s.clu := rfl
@[simp] theorem State.setSrl_d2d (s : State) (d : Nat) (x : SrlDie) : (s.setSrl d x).d2d = s.d2d := rfl
@[simp] theorem State.setSrl_tile (s : State) (d : Nat) (x : SrlDie) : (s.setSrl d x).tile = s.tile := rfl
@[simp] theorem State.setSrl_wfn (s : State) (d : Nat) (x : SrlDie) : (s.setSrl d x).wfn = s.wfn := rfl
@[simp] theorem State.setSrl_coll (s : State) (d : Nat) (x : SrlDie) : (s.setSrl d x).coll = s.coll := rfl
@[simp] theorem State.setSrl_integ (s : State) (d : Nat) (x : SrlDie) : (s.setSrl d x).integ = s.integ := rfl
@[simp] theorem State.setSrl_trn (s : State) (d : Nat) (x : SrlDie) : (s.setSrl d x).trn = s.trn := rfl
@[simp] theorem State.setSrl_openCount (s : State) (d : Nat) (x : SrlDie) : (s.setSrl d x).openCount = s.openCount := rfl
@[simp] theorem State.setSrl_pending (s : State) (d : Nat) (x : SrlDie) : (s.setSrl d x).pending = s.pending := rfl

end Sys2Proof.Machine
end

