-- ==== Sys2Proof/Tests/Slice0.lean ====
section
/-! SUPPORT. Tests: operands the well-formedness check refuses, check values and worked examples of the spec, and for each
statement with hypotheses a state that meets them. -/
namespace Sys2Proof.Tests
set_option Elab.async false
open Sys2Proof Sys2Proof.Machine

/-- A package with no register set, for tests that read none. -/
def blank : State := { State.reset with regs := [] }

/-- A program of queue 5 at its first instruction. -/
def vecProg : VProg := { queue := 5, seq := 1, clFirst := 0, cls := [0], flagsVa := 0, maxBeats := 0, pc := 0 }

/-- Cluster 0 of die 0 runs the one-word program `w`, with X1 = 63 and X2 = 64. -/
def vecState (w : Nat) : State :=
  { blank with clu := { cl := [(0, { ibuf := [w], prog := some vecProg, xregs := [(1, 63), (2, 64)] })] } }


/-- Queue `q` has dispatched one command: opcode `opc`, the header otherwise zero, `body`. Betony is running. -/
def cmdState (q opc : Nat) (body : List Byte) : State :=
  { blank with
    regs := [(ZG_MGT_STATE, 1)],
    host := { queues := [(q, { state := .running, cqBase := 4096, sqLog2 := 4, cqLog2 := 4,
                               flights := [{ seq := 1, desc := BitVec.ofNat 8 opc :: zeros 31 ++ body }] })],
              fns := [(q - 65536, { bme := true }), (q - 65536 + 1, { bme := true })] } }

/-- The command of `cmdState`. -/
def cmdFlight (opc : Nat) (body : List Byte) : Flight := { seq := 1, desc := BitVec.ofNat 8 opc :: zeros 31 ++ body }

/-- A tile body: FP16 by FP16 into binary32, M = N = 1, K = 0, cluster 0, arrays 0 and 1. -/
def tileBody : List Byte :=
  [0, 1, 1, 0, 0, 0, 1, 3, 1, 0, 1, 0] ++ zeros 4 ++ zeros 4 ++ [16, 0, 0, 0] ++ zeros 4 ++ [16, 0, 0, 0] ++ zeros 24 ++ [16, 0, 0, 0] ++ [4, 0, 0, 0] ++ zeros 32

/-- The same with K = 4. -/
def tileBodyK : List Byte := putAt tileBody 12 [4]

/-- Queue 5 has dispatched `tileBody`; partition 0 owns cluster 0 of die 0. -/
def tileCmd : State :=
  { cmdState 5 0x10 tileBody with regs := [(ZG_ID_CONFIG, 0x4000000000000000), (ZG_CLU_OWN 0 0, 0x80)] }

/-- The tile command of queue 5 under way with nothing left to drain. -/
def tileRunB : TileRun :=
  { queue := 5, seq := 1, die := 0, order := 0, body := tileBody, cls := [0], base := 0, ktabs := [], aStream := none,
    bStream := none, left := 0 }

/-- Array 0 of cluster 0 holds `x`, is admitted and its pace gate open; its bank 0 is final. -/
def tileAt (x : ArraySt) : State :=
  { tileCmd with
    tile := { arrays := cset {} [] 0 x, runs := [tileRunB], finals := [(0, [(0, 0)])] },
    power := { dies := [{ admitted := [0] }, {}, {}, {}] } }

/-- A loaded pass of block 0 in bank 0. -/
def passB : Pass := { id := ⟨5, 1, 0⟩, bank := 0, wins := [] }

/-- A pass of a tile command with body `b` streams in array 0. -/
def beatAt (b : List Byte) : State :=
  { tileAt {} with tile := { arrays := [(0, { passes := [{ passB with started := true }] })], runs := [{ tileRunB with body := b }] } }

/-- A spilled row of queue 5 waits in cluster 0. -/
def spillAt : State := { tileAt {} with tile := { runs := [tileRunB], spills := [(0, [⟨5, 1, 0, [1, 2]⟩])] } }

/-- A tile body with 32 columns of records, all of them past O_LIMIT. -/
def spillBody : List Byte := putAt (putAt (putAt tileBody 0 [8]) 10 [4]) 0x38 [128, 0, 0, 0, 0, 0, 0, 0]

/-- A bank of that body is to be unloaded, and the write buffer has room for one line. -/
def spillFull : State :=
  { tileAt {} with
    tile := { arrays := cset {} [] 0 { passes := [passB] }
              runs := [{ tileRunB with body := spillBody }]
              finals := [(0, [(0, 0)])]
              spills := [(0, [⟨5, 1, 0, zeros 65472⟩])] } }

/-- A repeat with no pass left. -/
def repB : Repeat := { source := 0, engine := 0, queue := 5, seq := 1, left := [] }

/-- A feeder program of two entries at VA 0x1000 in cluster 0. -/
def moveBody : List Byte := [0, 1, 0, 0, 2, 0, 0, 0, 0, 0x10, 0, 0, 0, 0, 0, 0] ++ zeros 32

/-- HBM frame 0 of die 0 belongs to partition 0 and holds, at VA and PA 0x1000, a fence and an END. -/
def moveCmd : State :=
  { cmdState 5 0x21 moveBody with
    regs := [(ZG_ID_CONFIG, 0x4000000000000000), (ZG_CLU_OWN 0 0, 0x80)],
    hbm := { bytes := [(0x1000, 4), (presenceAddr 0x1000, 2), (frameAddr 0 0, 0x80)],
             pt := [(ptKey 0 0 1 0, 1), (ptKey 0 0 2 0, 7)] } }

/-- The move of queue 5 in a cluster. -/
def moveA : MoveAt := { queue := 5, seq := 1 }

/-- A one-row entry of 16 bytes with operation `op`. -/
def entryOf (op : Nat) : MoveEntry := ⟨op, false, 0, 1, 16, 64, 16, 0x1000, 16⟩

/-- A move whose both programs are that entry. -/
def moveRunOf (op : Nat) : MoveRun :=
  { queue := 5, seq := 1, clFirst := 0, cls := [0], inOrder := false, vaStep := 0, feed := [entryOf op], drain := [entryOf op] }

/-- It runs in cluster 0 of die 0. -/
def moveAt (op : Nat) : State := { moveCmd with clu := { cl := [(0, { mv := some moveA })], moves := [moveRunOf op] } }

/-- OPEN of stream 3 in cluster 0 from die 1, 4,096 bytes, landing at 0. -/
def streamBody : List Byte := [0, 1, 4, 0, 3, 0, 0, 0, 0, 0x10, 0, 0, 0, 0, 0, 0] ++ zeros 8 ++ [0, 0x10, 0, 0] ++ zeros 36

/-- That stream, open. -/
def openStream : Stream :=
  { gen := 1, die := 0, num := 3, part := 0, tenant := 0, sender := 1, srcHbm := false, feed := false, length := 4096,
    srcOff := 0, landOff := 0, landBytes := 4096, srcVa := 0, srcStride := 0, bank := none, queue := 5, seq := 9,
    waiting := false, cls := [{ cl := 0, stallFrom := 0 }] }

/-- Queue 5 has dispatched stream body `b`; `n` streams are open; the timebase stands at 5 ms. -/
def streamCmd (n : Nat) (b : List Byte) : State :=
  { cmdState 5 0x40 b with
    regs := [(ZG_ID_CONFIG, 0x4000000000000000), (ZG_CLU_OWN 0 0, 0x80), (ZG_CLU_OWN 1 0, 0x80), (ZG_D2D_WDOG 0, 0x10001)],
    time := { now := 5000000 }, d2d := { streams := List.replicate n openStream } }

/-- READY, with Betony running. -/
def writable : State := { blank with regs := [(ZG_BOOT_STATE, 0x8010), (ZG_MGT_STATE, 1)] }

/-- A Teasel body: operation `op` on cluster 0, RFMT 0, N 4, N2 4, SRC 0, SRC2 0x40, DST 0x80, no result record, no regions
beyond; BKT 0, NB 2, rows of 16 bytes. -/
def tslBody (op : Nat) : List Byte :=
  [BitVec.ofNat 8 op, 0, 0, 1, 0, 0, 0, 1, 4, 0, 0, 0, 4, 0, 0, 0, 0, 0, 0, 0, 0x40, 0, 0, 0, 0x80, 0, 0, 0,
   0, 0, 1, 0, 0, 0x10, 0, 0, 0, 0x20, 0, 0, 0, 0, 1, 0, 0xFF, 0xFF, 0xFF, 0xFF, 16, 0, 0, 0, 16, 0, 0, 0, 4, 0, 0, 0] ++ zeros 36

/-- Queue 5 has dispatched it; partition 0 owns cluster 0 of die 0. -/
def tslCmd (op : Nat) : State :=
  { cmdState 5 0x30 (tslBody op) with regs := [(ZG_ID_CONFIG, 0x4000000000000000), (ZG_CLU_OWN 0 0, 0x80)] }

/-- Four records with keys 2, 1, 2, 1 at offset 0 of cluster 0. -/
def sortState : State := { tslCmd 0 with clu := { cl := [(0, { sram := [(0, 2), (4, 1), (8, 2), (12, 1)] })] } }

/-- A is 1 to 4, B is 3 to 6. -/
def setState : State :=
  { tslCmd 6 with clu := { cl := [(0, { sram := [(0, 1), (4, 2), (8, 3), (12, 4), (64, 3), (68, 4), (72, 5), (76, 6)] })] } }

/-- A flip of slot 0 of cluster 0. -/
def flipBody : List Byte := [0, 1, 1, 0] ++ zeros 92

/-- Queue 5 has dispatched it; slot 0 of cluster 0 is defined with two keys and has banked state `b`. -/
def flipCmd (b : Banked) : State :=
  { cmdState 5 0x31 flipBody with
    regs := [(ZG_ID_CONFIG, 0x4000000000000000), (ZG_CLU_OWN 0 0, 0x80)],
    clu := { cl := [(0, { slots := [(0, { defined := true, off1 := 64, nkeys := 2 })] })] },
    banks := cset {} [] (slotTable 0 0 0) b }

/-- One word at VA 0x1000, on cluster 0, entry 0. -/
def vpBody : List Byte := [0, 1, 1, 0, 0, 0, 0, 0, 0, 0x10] ++ zeros 86

/-- Queue 5 has dispatched it; frame 0 of die 0 holds the word 1 at PA 0x1000. -/
def vpCmd : State :=
  { cmdState 5 0x20 vpBody with
    regs := [(ZG_ID_CONFIG, 0x4000000000000000), (ZG_CLU_OWN 0 0, 0x80)],
    hbm := { bytes := [(0x1000, 1), (presenceAddr 0x1000, 2), (frameAddr 0 0, 0x80)],
             pt := [(ptKey 0 0 1 0, 1), (ptKey 0 0 2 0, 7)] } }

/-- One 2 MiB frame: partition 0, PA 0x200000, VA 0, COUNT 1. -/
def admHbmBody : List Byte := zeros 8 ++ [0, 0, 0x20, 0, 0, 0, 0, 0] ++ zeros 8 ++ [1, 0, 0, 0, 0, 0, 0, 0] ++ zeros 64

/-- The physical function's admin queue has dispatched it; partition 0 exists and frame 1 of die 0 has table byte `v`. -/
def admHbm (opc v : Nat) : State :=
  let s := cmdState 65536 opc admHbmBody
  { s with host := { s.host with parts := [(0, { present := true })] },
           hbm := { bytes := cset 0 [] (frameAddr 0 1) (BitVec.ofNat 8 v) } }

/-- A CTRL frame of one block for die 1. -/
def frameB : D2dFrame := ⟨0, 0, 0, 1, 0, 0, 0, zeros 64, 0⟩

/-- Strand 3 of the link between dies 0 and 1 is in service, its sending side at end 0 being `x`. -/
def linkUp (x : StrandTx) : State :=
  { blank with time := { now := 200 }, d2d := { strands := [(3, { st := 1 })], tx := cset {} [] 3 x } }

/-- One strand of that link in service, and EDGE_MIN 8. -/
def oneStrand : State := { linkUp {} with regs := [(ZG_D2D_CTRL 0, 8 * 2 ^ 17)] }

/-- Die 1 has put a frame on the wires of that strand. -/
def wireAt (w : WireFrame) : State :=
  { linkUp {} with d2d := { strands := [(3, { st := 1 })], wire := cset [] [] (4 * 64 + 3) [w] } }

/-- A CTRL frame of one block that unit 0 gives end 0 for die 1. -/
def unitD : D2dUnit := ⟨0, 0, 0, 1, zeros 64⟩

/-- Queue 5 of partition 0, whose queues are 0 to 15, is `x` with a ring of 64 at 4096, running; its function is a bus master. -/
def ringState (x : Queue) : State :=
  { blank with host := { queues := [(5, { x with state := .running, sqLog2 := 6, cqLog2 := 6, sqBase := 8192, cqBase := 4096 })],
                         fns := [(1, { bme := true })], parts := [(0, { present := true, qCount := 16 })], vfEnable := true } }

/-- COPY of 4 bytes from address 0 to address 0x1000 in direction `dir`. -/
def copyBody (dir : Nat) : List Byte :=
  BitVec.ofNat 8 dir :: zeros 15 ++ [0, 0x10, 0, 0, 0, 0, 0, 0, 4, 0, 0, 0, 0, 0, 0, 0] ++ zeros 64

/-- Queue 5 has dispatched it; VA 0 to 2 MiB is mapped writable. -/
def copyState (dir : Nat) : State :=
  { cmdState 5 0x08 (copyBody dir) with
    hbm := { bytes := [(frameAddr 0 0, 0x80)], pt := [(ptKey 0 0 1 0, 1), (ptKey 0 0 2 0, 7)] } }

/-- A record of sequence 1. -/
def heldB : HeldRec :=
  ⟨1, { status := 0, detail := 0, unwritten := false, repeated := false, sigBlocked := false, endNs := 9, noDesc := false },
   false, false, []⟩

/-- QUEUE_CREATE of queue 5 in partition 0, rings of 64 in host memory, FIRST_SEQ 1. -/
def createBody : List Byte := [5, 0, 0, 0, 6, 6] ++ zeros 18 ++ [1, 0, 0, 0, 0, 0, 0, 0] ++ zeros 64

/-- The physical function's admin queue has dispatched a command; queue 5 of partition 0 is in state `st`. -/
def hostAdm (opc : Nat) (body : List Byte) (st : QState) : State :=
  let s := cmdState 65536 opc body
  { s with host := { s.host with parts := [(0, { present := true, qCount := 16 })],
                                 queues := cset {} s.host.queues 5 { state := st } } }

/-- A NOP that signals ADD to object 0x40. -/
def sigDesc : List Byte := [1, 0x10, 0, 1] ++ zeros 4 ++ 1 :: zeros 7 ++ 0x40 :: zeros 111
/-- NOP with SUBMIT_SEQ 1. -/
def nopDesc : List Byte := 1 :: zeros 7 ++ 1 :: zeros 119

/-- The physical function's admin queue holds a NOP. -/
def adminReady : State :=
  { blank with host := { queues := [(65536, { state := .running, sqLog2 := 4, cqLog2 := 4, fetched := [nopDesc] })] } }

/-- READY with die 0 in service; queue 5 is `x`. -/
def dieUp (x : Queue) : State :=
  { blank with regs := [(ZG_ID_CONFIG, 0x4000000000000000), (ZG_BOOT_STATE, 0x800A), (ZG_BOOT_DIES, 0x60)], host := { queues := [(5, x)] } }

/-- Queue 5 holds a NOP. -/
def userReady : State := dieUp { state := .running, sqLog2 := 4, cqLog2 := 4, fetched := [nopDesc] }

/-- The deferred lane of queue 5 holds a NOP in the region of sequence 1. -/
def lateReady : State :=
  dieUp { state := .running, cls := 1, sqLog2 := 4, cqLog2 := 4, regions := [{ first := 1, count := 1, fetchedTo := 1, next := 1, lane := [nopDesc] }] }

/-- A unit of one NOP of width 1. -/
def unitB : FillUnit := { first := 1, width := 1, maxTries := 0, descs := [nopDesc], pos := 0, tries := 0 }

/-- Queue 5 of the filler class holds a unit, and cluster 0 of die 0 may be lent. -/
def fillState : State :=
  let s := dieUp { state := .running, cls := 2, sqLog2 := 4, cqLog2 := 4, unit := some unitB }
  { s with regs := cset 0 s.regs (ZG_TRN_LEND 0) 1, clu := { carve := [4, 0, 0, 0] } }

/-- The unit holds a loan of cluster 0, and the queue is stopping. -/
def lentState : State :=
  let s := dieUp { state := .stopping, cls := 2, sqLog2 := 4, cqLog2 := 4, unit := some unitB }
  { s with clu := { cl := [(0, { loan := some { sorrel := false, queue := 5, seq := 1, part := 0, since := 0 } })] } }

/-- GET_INFO in open role for serial 0. -/
def infoCmd : List Byte := [1, 0, 1, 0] ++ zeros 28

/-- The mailbox journal holds an accepted command, and Betony runs. -/
def roleState (c : List Byte) : State :=
  { blank with regs := [(ZG_MGT_STATE, 1)], host := { mbx := { phase := 1, cmd := c, seq := 1 } } }

/-- FIRST 1, COUNT 2, DST 0x1000. -/
def mgtBody : List Byte := [1, 0, 0, 0, 0, 0, 0, 0, 2, 0, 0, 0, 0, 0, 0, 0, 0, 0x10] ++ zeros 14

/-- The sideband is there, and Betony is in state `n`. -/
def sbState (n : Nat) : State :=
  { blank with regs := [(ZG_MGT_STATE, BitVec.ofNat 64 n)], pins := { blank.pins with resetN := true } }

/-- Betony is HALTED with a mailbox command in the journal. -/
def sbHalted : State := { sbState 3 with host := { mbx := { phase := 1 } } }

/-- The physical function's admin queue has dispatched it. -/
def mgtCmd (opc : Nat) : State := cmdState 65536 opc mgtBody

/-- Queue 5 has dispatched a command; partition 0 owns objects 0 to 63 of die 0, and object 0 holds `x`. -/
def synState (opc : Nat) (body : List Byte) (x : SynObj) : State :=
  let s := cmdState 5 opc body
  { s with regs := cset 0 s.regs (ZG_SYN_OWN 0 0) 0x80, syn := { objs := cset {} [] 0 x } }

/-- The package at (0, 0, 0) of a field of two packages in x, with port 0 UP toward the other, which is reachable. -/
def inField (s : State) : State :=
  { s with regs := cset 0 s.regs (portReg 0) 0x6000000000000000,
           wfn := { plan := [1, 1, 1, 0, 0, 0, 0, 0, 0, 0], formed := some [0], routes := [(1, 0x80000000)] } }

/-- A packet has arrived on port 0. -/
def arrivedAt (b : List Byte) (s : State) : State :=
  { s with wfn := { s.wfn with arrived := [⟨0, 0, 3, b, 0⟩] } }

/-- A packet of die 0 for this package, which sent it. -/
def ownPacket (ptype tenant : Nat) (body : List Byte) (s : State) : List Byte :=
  packetBytes { ptype := ptype, dest := s.here, dfield := 0, ddie := 0, sdie := 0, tenant := tenant, body := body } 1 0 s

/-- The same with tenant 7 owning the objects. -/
def tenant7 (s : State) : State := { s with host := { s.host with parts := [(0, { present := true, tenant := 7 })] } }

/-- GROUP_DEFINE of group 0 with 2 members and 256 KiB of staging. -/
def defBody : List Byte := [0, 0, 1, 0, 0, 0, 0, 1] ++ zeros 24

/-- GROUP_MEMBERS of ranks 0 and 1 of group 0 from 0x1000. -/
def memBody : List Byte := [0, 0, 0, 0, 2, 0, 0, 0, 0, 0x10] ++ zeros 22

/-- REDUCE_SCATTER of FP32 into FP32, MAX, shard of 4, from 0 to 0x1000. -/
def rsBody : List Byte := [0, 0, 0, 0, 0x40, 0, 0, 0, 4, 0, 0, 0] ++ zeros 4 ++ zeros 8 ++ [0, 0x10] ++ zeros 38

/-- ALL_GATHER of FP32, shard of 4, from 0 to 0x1000. -/
def agBody : List Byte := [0, 0, 0, 0, 0, 0, 0, 0, 4, 0, 0, 0] ++ zeros 4 ++ zeros 8 ++ [0, 0x10] ++ zeros 38

/-- QUICK: ALLREDUCE SUM of one FP32 value. -/
def qkBody : List Byte := [0, 0, 0, 0, 0, 0, 1, 0] ++ zeros 24

/-- Operation 1 of group 0 on die 0, current. -/
def opB : CollOp := { queue := 5, seq := 1, num := 1, opc := 0x61, body := agBody, bank := 0, epoch := 1, rank := 0, digest := collDigest 0x61 agBody,
                      began := true }

/-- A dispatched command of queue 5 in a field; partition 0 owns groups 0 to 63; group 0 has die 0 here and die 0 of the other
package as members, its member table `b` and its bulk lane on die 0 `ops`. -/
def grpState (opc : Nat) (body : List Byte) (b : Banked) (ops : List CollOp) : State :=
  let c := cmdState 5 opc body
  let s : State := { vpCmd with host := c.host, regs := cset 0 vpCmd.regs (ZG_CGO_OWN 0) 0x80, banks := cset {} [] 0x10000 b }
  inField { s with
                   coll := { groups := [(0, { n := 2, stageKib := 256, bank0 := [0, 0x1000000], bank1 := [0, 0x1000000] })],
                             dies := [(0, { state := 1, bulk := ops })] } }

/-- A QUICK operation of group 0, current. -/
def quickB : CollOp := { opB with opc := 0x62, body := qkBody, digest := collDigest 0x62 qkBody, qvals := [0] }

/-- A message of a kind of operation 1 from rank 1. -/
def collPay (k : Nat) : List Byte :=
  collHeader 0 { (if k = 4 then quickB else opB) with rank := 1 } k 0 1 0 0 ++ (if k = 0 then zeros 16 else if k = 4 then zeros 4 else [])

/-- Group 0 with operations on die 0. -/
def collLeft (k : Nat) (bulk quick : List CollOp) : State :=
  let s := grpState 0x61 agBody { epoch := 1 } bulk
  { s with time := { now := k }, coll := { s.coll with dies := [(0, { state := 1, bulk := bulk, quick := quick })] } }

/-- The same with the message waiting. -/
def collBox (k : Nat) (bulk quick : List CollOp) : State :=
  let s := collLeft k bulk quick
  { s with coll := { s.coll with inbox := [⟨0, 0x1000000, 0, collPay k⟩] } }

/-- Port 0 of the package in state `st` with `x`. -/
def portIn (st : Nat) (x : WPort) : State :=
  { blank with regs := cset 0 [] (portReg 0) (BitVec.ofNat 64 (st * 2 ^ 61)), wfn := { ports := cset {} [] 0 x } }

/-- A one-flit packet of channel 1, pool 0. -/
def outB : OutPkt := { id := 0, bytes := 0x50 :: zeros 31, vp := 3, dir := 0, bank := none }

/-- The physical function's admin queue has dispatched WEFIN_PORT with an action on port 0, which is in state `st`. -/
def portCmd (act st : Nat) : State :=
  let s := cmdState 65536 0xC1 (0 :: BitVec.ofNat 8 act :: zeros 14)
  { s with regs := cset 0 s.regs (portReg 0) (BitVec.ofNat 64 (st * 2 ^ 61)) }

/-- A field with nothing waiting. -/
def fieldB : State := inField blank

/-- A transit packet: type byte, TTL; a TTL of 10 stands for one to the other field. -/
def transitB (t ttl : Nat) : List Byte :=
  BitVec.ofNat 8 t :: BitVec.ofNat 8 ttl :: [1, 0, 0] ++ [if ttl = 10 then 0x80 else 0] ++ zeros 26

/-- A field of one region with its epoch 3 settled, Betony running, a plan forming, and the epochs last formed. -/
def formB (forming : Option (List Nat × List Nat × List Nat × Option Nat)) (formed : List Nat) : State :=
  { fieldB with regs := cset 0 fieldB.regs ZG_MGT_STATE 1,
                wfn := { fieldB.wfn with regions := [(0, ⟨3, true, 0⟩)], forming := forming, formed := some formed } }

/-- An admin queue has dispatched WEFIN_CONTROL. -/
def ctrlState (q : Nat) (body : List Byte) : State := inField (cmdState q 0xC0 body)

/-- A package of a field whose reference is another one, over port 0; ALIGNED is bit 1 of `v`. -/
def timeState (v : Nat) : State :=
  { fieldB with regs := cset 0 fieldB.regs ZG_TIME_STATUS (BitVec.ofNat 64 v), time := { now := 10000000 },
                wfn := { fieldB.wfn with plan := [1, 1, 1, 0, 0, 0, 0, 1, 0, 0], routes := [(0, 0x80000000)], timeWait := true } }

/-- DROPOUT of one FP32 row of 4 in cluster 0, in place, P16 0x8000, SCALE 2. -/
def dropBody : List Byte :=
  [0, 1, 0, 0, 0, 0x80, 1, 0, 4, 0, 0, 0, 0, 0, 0, 0x40] ++ zeros 8 ++ [16, 0, 0, 0, 0xFF, 0xFF, 0xFF, 0xFF] ++ zeros 48

/-- A stored activation of one FP32 row of 4 at VA 0x1000, capacity 4,096, stored as FP32. -/
def actBody : List Byte :=
  [0, 1, 0, 0, 0, 0, 0, 0, 1, 0, 4, 0] ++ zeros 4 ++ [16, 0, 0, 0, 0, 0x10, 0, 0, 0, 0x10] ++ zeros 70

/-- Queue 5 has dispatched a training command; its partition owns cluster 0 of die 0 and the frame at VA 0. -/
def trnCmd (opc : Nat) (body : List Byte) : State := { moveCmd with host := (cmdState 5 opc body).host }

/-- STAGE_SET: queue 5 to context 2. -/
def setB : List Byte := [2, 0, 5, 0] ++ zeros 12

/-- STAGE_SCHED of one entry at VA 0x1000. -/
def schedB : List Byte := [1, 0, 0, 0, 0, 0, 0, 0, 0, 0x10] ++ zeros 6

/-- FILL_BEGIN of one command, width 1. -/
def fillB : List Byte := [1, 0, 1] ++ zeros 13

/-- Queue 5, otherwise `x`, has dispatched a command; the stages of die 0 are `st`, and partition 0 has queues 0 to 15. -/
def stgCmd (opc : Nat) (body : List Byte) (st : StageSt) (x : Queue) : State :=
  { trnCmd opc body with
    trn := { blank.trn with stages := [st, {}, {}, {}] },
    host := { (cmdState 5 opc body).host with
              parts := [(0, { present := true, qCount := 16 })],
              queues := [(5, { x with state := .running, cqBase := 4096, sqLog2 := 4, cqLog2 := 4, flights := [cmdFlight opc body] })] } }

/-- SRL_UPDATE: W in RNE, record at 0x1000, EXPECT_STEP 0. -/
def updB : List Byte := [0x20] ++ zeros 31 ++ [0, 0x10] ++ zeros 62

/-- A record of rule 0: one FP16 element each at 0x2000, 0x2040 and 0x2080. -/
def sgdRec : List Byte :=
  sealRecord ([1, 0, 0, 0, 1, 0, 0, 0, 1, 0, 0, 0, 1, 1, 1, 0] ++ zeros 8 ++ natLE 8 0x2000 ++ natLE 8 0x2040 ++ natLE 8 0x2080 ++ zeros 80)

/-- SRL_ROOT: one iteration, record at 0x1000, 4 KiB of scratch. -/
def rootB : List Byte := [1, 0, 0, 0, 0, 0, 0x80, 0x3F] ++ zeros 8 ++ natLE 8 0x1000 ++ natLE 8 0 ++ natLE 8 4096 ++ zeros 56

/-- A record of rule 2, 1 by 1. -/
def kronRec : List Byte :=
  sealRecord ([1, 0, 2, 0, 1, 0, 0, 0, 1, 0, 0, 0, 1, 1, 1, 0, 2] ++ zeros 7
    ++ ((List.range 7).map (fun k => natLE 8 (0x2000 + 64 * k))).flatten ++ zeros 48)

/-- The granules at 0x1000 and 0x2000 of partition 0 are written, `bs` at 0x1000 and zeros else. -/
def memAt (bs : List Byte) (s : State) : State :=
  { s with hbm := { s.hbm with bytes := (bs.zipIdx 0x1000).filterMap (fun p => if p.1 = 0 then none else some (p.2, p.1))
      ++ [(presenceAddr 0x1000, 6), (frameAddr 0 0, 0x80)] } }

/-- Queue 5 has dispatched a Sorrel command; its record stands at 0x1000 and the arrays are zero; die 0 has carve-out `carve`. -/
def srlCmd (opc : Nat) (body rec_ : List Byte) (carve : Nat) : State :=
  memAt rec_ { trnCmd opc body with clu := { carve := [carve, 0, 0, 0] } }

/-- Sorrel of die 0 runs `cur`, with `aside` set aside; queue 5 holds both an SRL_UPDATE and, at its head, a program for
cluster 0, which the update has borrowed. -/
def srlHold (cur : Option (Nat × Nat)) (aside : List SrlAside) : State :=
  let s := srlCmd 0x70 updB sgdRec 2
  { s with srl := [{ cur := cur, aside := aside }, {}, {}, {}],
           clu := { carve := [2, 0, 0, 0], cl := [(0, { loan := some { sorrel := true, queue := 5, seq := 1, part := 0, since := 0 } })] },
           host := { s.host with queues := [(5, { s.queue 5 with fetched := [(0x20 : Byte) :: zeros 31 ++ vpBody] })] } }

/-- CHK_SCAN of 16 bytes at 0x2000, no record. -/
def scanB : List Byte := zeros 8 ++ natLE 8 0x2000 ++ natLE 8 16 ++ zeros 24

/-- CHK_COMPARE of 16 bytes at 0x2000 and 0x2010. -/
def cmpB : List Byte := natLE 8 0x2000 ++ natLE 8 0x2010 ++ natLE 8 16 ++ zeros 8

/-- PROVENANCE of no range bytes: one range of length 0, listed at 0x2000, context at 0x2000, record to 0x2000. -/
def provB : List Byte := [0, 0, 1, 0, 0, 0, 0, 0] ++ natLE 8 0x2000 ++ natLE 8 0x2000 ++ natLE 8 0x2000 ++ zeros 16

/-- TWIN_DIGEST of 8 bytes at 0x2000, TAG 1. -/
def twinB : List Byte := [1, 0, 0, 0, 1, 0, 0, 0] ++ zeros 8 ++ natLE 8 0x2000 ++ zeros 8

/-- Queue 5 has dispatched an integrity command; zeros stand at 0x2000. -/
def intCmd (opc : Nat) (body : List Byte) : State := memAt [] (trnCmd opc body)

/-- The package of a mirrored field with its twin port 23 UP. -/
def twinState (s : State) : State :=
  { s with regs := cset 0 (cset 0 s.regs (portReg 23) 0x6180000000000000) ZG_TOP_TWIN 0x4000000000000000,
           wfn := { plan := [1, 2, 1, 0, 0, 1, 0, 0, 0, 0], formed := some [0] } }

/-- Sorrel has borrowed cluster 0 of die 0; none of its arrays is admitted. -/
def lentTo : State :=
  { blank with clu := { cl := [(0, { loan := some { sorrel := true, queue := 5, seq := 1, part := 0, since := 0 } })] } }

/-- A package that waits for an image. -/
def imageWait : State := { blank with regs := [(ZG_BOOT_STATE, 4)] }

/-- A warm reset is under way. -/
def inWarm : State := { blank with regs := [(ZG_BOOT_STATE, 12)] }

/-- CD1 is in reset in a package that is READY. -/
def inDie : State := { blank with regs := [(ZG_BOOT_STATE, 0x800A), (ZG_BOOT_DIES, 0x8000)] }

/-! ### Operands the well-formedness check refuses -/

/-- A flit has 256 bytes (R357); 255 are none. -/
theorem test_wf_short_codeword : (Instr.wefinFlitReceive 0 0 [0] 0).wf = false
    ∧ exec (.wefinFlitReceive 0 0 [0] 0) blank = .fault .illFormed := ⟨by decide +kernel, rfl⟩

/-- The hub has 8 sensors, a compute die 64 (R519). -/
theorem test_wf_sensor_count : (Instr.sensorConvert 4 (List.replicate 64 0)).wf = false
    ∧ (Instr.sensorConvert 0 (List.replicate 8 0)).wf = false ∧ (Instr.sensorConvert 4 (List.replicate 8 0)).wf = true := by
  decide +kernel

/-- A DATA frame carries whole blocks, at least one (R225). -/
theorem test_wf_empty_frame : (Instr.d2dFrameSend 0 (.data { cls := 0, unit := 0, offset := 0, dest := 0, data := [] })).wf = false := by
  decide +kernel

/-- A DATA frame carries no half block (R225). -/
theorem test_wf_half_block : (Instr.d2dFrameSend 0 (.data { cls := 0, unit := 0, offset := 0, dest := 0, data := zeros 96 })).wf = false := by
  decide +kernel

/-- A frame that is lost once, by its CRC, is delivered by the frame sent again, and the routes between diagonal dies pass
through the lower-numbered die between them (R9, R226, R227). -/
theorem test_frame_again :
    (match step { wireAt ⟨1, 0, 4095, 0, 0, 0, some frameB⟩ with pending := [.d2dFrameReceive 0 3 ⟨false, true⟩] } with
      | .next s => decide ((s.rx 0 3).expect = 0 ∧ cget [] s.d2d.wire (4 * 64 + 3) = [])
      | _ => false) = true
    ∧ blank.routeEnd 1 2 = 4 ∧ blank.routeEnd 2 1 = 6 ∧ blank.routeEnd 3 0 = 10 ∧ blank.routeEnd 0 3 = 0 ∧ blank.routeEnd 0 1 = 0 := by
  decide +kernel

/-! ### Check values and worked examples of the spec -/

/-- The check values of R473 over the ASCII digits 1 to 9. -/
theorem test_check_values :
    let bs : List Byte := [0x31, 0x32, 0x33, 0x34, 0x35, 0x36, 0x37, 0x38, 0x39]
    crc32c bs = 0xE3069283 ∧ crc32 bs = 0xCBF43926 ∧ crc64 bs = 0x6C40DF5F0B497347 := by decide +kernel

/-- The first test vector of R398. -/
theorem test_philox_zero : philox 0 0 0 0 0 0 = (0x6627E8D5, 0xE169C58D, 0xBC57AC4C, 0x9B00DBD8) := by decide +kernel

/-- The check symbols of one set bit (example at R203). -/
theorem test_check_symbols : rsCheck (List.replicate 63 0 ++ [1]) = (0x0F, 0x36, 0x78, 0x40) := by decide +kernel

/-- Stochastic rounding of 1 + 3 / 512 to BF16 (example at R58). -/
theorem test_stochastic_rounding :
    convertTo false 2 4 false 0x2A3B (decodeElem false 0 0x3F80C000) = 0x3F80
    ∧ convertTo false 2 4 false 0x5000 (decodeElem false 0 0x3F80C000) = 0x3F81
    ∧ convertTo false 2 4 false 0x5000 (decodeElem false 0 0xBF80C000) = 0xBF81 := by decide +kernel

/-- Decoding of PA 0x810A3C5E40 (example at R190). -/
theorem test_physical_address : stackOf 0x810A3C5E40 = 10 ∧ pcOf 0x810A3C5E40 = 43 ∧ dieOf 0x810A3C5E40 = 2
    ∧ presenceAddr 0x810A3C5E40 = 0xBFC0021478 := by decide +kernel

/-- Offset 0x462A40 lies in bank 9 (example at R122). -/
theorem test_sram_bank : bankOf 0x462A40 = 9 ∧ bankOf 0x462A80 = 10 := by decide +kernel

/-- One block converted to MXFP4: scale 0x80, elements 0x3, 0x9, 0x6, 0x0 (example at R63). -/
theorem test_mx_block :
    let xs := ([0x40533333, 0xBF333333, 0x41200000, 0x3D23D70A] ++ List.replicate 28 0).map (decodeElem false 0)
    let b := mxBlock 0x14 0 xs (List.replicate 32 0)
    b.1 = 0x80 ∧ b.2.1.take 4 = [0x3, 0x9, 0x6, 0x0] ∧ b.2.2.inexact = true ∧ b.2.2.underflow = true := by decide +kernel

/-- The ordinary step of the window, drained to binary32, BF16 and E4M3. -/
theorem test_window_ordinary :
    let p := fun a b => mulNum (decodeElem false 2 a) (decodeElem false 2 b)
    let w := windowSteps {} [p 0x3F81 0x3F81, p 0x4000 0x3FC0, p 0xBE80 0x3F00, p 0x3F80 0x3A80]
    drainTo false 0 false w = 0x40791100 ∧ drainTo false 2 false w = 0x4079 ∧ drainTo false 3 false w = 0x48 := by decide +kernel

/-- Cancellation kept exact over two steps of the window. -/
theorem test_window_cancellation :
    let p := fun a b => mulNum (decodeElem false 1 a) (decodeElem false 1 b)
    let z := p 0 0
    let w := windowSteps {} [p 0x6400 0x6400, p 0xE400 0x6400, p 0x3C01 0xBC00, z, p 0x1400 0x1400, z, z, z]
    drainTo false 0 false w = 0xBF801FF8 ∧ drainTo false 1 false w = 0xBC01 := by decide +kernel

/-- Truncation below the window. -/
theorem test_window_truncation :
    let p := fun a b => mulNum (decodeElem false 0 a) (decodeElem false 0 b)
    let z := p 0 0
    drainTo false 0 false (windowSteps {} [p 0x4E800000 0x4E800000, p 0x2FE00000 0x30000000, z, z, p 0xCE800000 0x4E800000, z, z, z])
      = 0x20000000 := by decide +kernel

/-- Direction and weight of the Sorrel example: FMA and the conversion of the momentum to BF16. -/
theorem test_sorrel_element :
    (fma false false false 0x3F666666 0x3C800000 0x3C000000).1 = 0x3CB33333
    ∧ convertTo false 2 0 false 0 (decodeElem false 0 0x3CB33333) = 0x3CB3
    ∧ (fma false true false 0x3B800000 0x3CB30000 0x3F800000).1 = 0x3F7FFA68 := by decide +kernel

/-- t_adm of the release example: 11.5 ns at SLOPE 100 W/µs and 1.15 W an array. -/
theorem test_admission_interval : ({ blank with power := { tables := [{ entries := List.replicate 57 (1150 * 2 ^ 12) }, {}, {}, {}] } } : State).admitPs 0 = 11500 := by decide +kernel

/-! IdleStepAdvancesTheTimebaseOnly -/

theorem wit_IdleStepAdvancesTheTimebaseOnly :
    ({ blank with regs := [(ZG_TIME_STATUS, 0xFF380001)] } : State).pending = []
    ∧ ({ blank with regs := [(ZG_TIME_STATUS, 0xFF380001)] } : State).rfld ZG_TIME_STATUS 0 0 = 1
    ∧ sext 16 (({ blank with regs := [(ZG_TIME_STATUS, 0xFF380001)] } : State).rfld ZG_TIME_STATUS 31 16) = -200
    ∧ blank.rfld ZG_TIME_STATUS 0 0 = 0 := by and_intros <;> decide +kernel

/-! IllFormedOperandsFaultAndNothingElseStops -/

theorem wit_IllFormedOperandsFault :
    (Instr.sensorConvert 0 []).wf = false ∧ (Instr.endProg 0 0).wf = true := by decide

/-! IssuedInstructionChangesItsClusterOnly -/

theorem wit_IssuedInstructionChangesItsClusterOnly :
    (vecState 0x0100000000000000).canonical = true ∧ ((vecState 0x0100000000000000).clus 0 0).prog = some vecProg := by decide

/-! ScalarInstructionsWriteOneRegister -/

theorem wit_ScalarInstructionsWriteOneRegister :
    (vecState 0x1000000000000000).issues 0 0 0x10 vecProg 0x1000000000000000
    ∧ (vecState 0x1100000000000000).issues 0 0 0x11 vecProg 0x1100000000000000
    ∧ (vecState 0x1200000000000000).issues 0 0 0x12 vecProg 0x1200000000000000
    ∧ (vecState 0x1300000000000000).issues 0 0 0x13 vecProg 0x1300000000000000
    ∧ ((vecState 0x1400000000000000).issues 0 0 0x14 vecProg 0x1400000000000000
        ∧ ((vecState 0x1400000000000000).clus 0 0).xreg 1 = 63 ∧ ((vecState 0x1400000000000000).clus 0 0).xreg 2 = 64)
    ∧ (vecState 0x1500000000000000).issues 0 0 0x15 vecProg 0x1500000000000000
    ∧ (vecState 0x1800000000000000).issues 0 0 0x18 vecProg 0x1800000000000000 := by
  unfold State.issues; and_intros <;> decide +kernel

/-! ScalarAndMaskRegistersReadBack -/

theorem wit_ScalarAndMaskRegistersReadBack :
    cwf 0 ({ xregs := [(1, 63), (31, 2 ^ 64 - 1)] } : ClusterSt).xregs = true
    ∧ cwf allLanes ({ masks := [(1, 0), (7, 5)] } : ClusterSt).masks = true := by decide

/-! LaneInstructionsWriteTheLanesOfTheirMask -/

theorem wit_LaneInstructionsWriteTheLanesOfTheirMask :
    ((vecState 0x2000000000000000).issues 0 0 0x20 vecProg 0x2000000000000000 ∧ formOk 2 false false 0x2000000000000000)
    ∧ ((vecState 0x2000000000000001).issues 0 0 0x20 vecProg 0x2000000000000001 ∧ ¬ formOk 2 false false 0x2000000000000001)
    ∧ ((vecState 0x2200000018000000).issues 0 0 0x22 vecProg 0x2200000018000000 ∧ formOk 3 true true 0x2200000018000000)
    ∧ ((vecState 0x7000000000000000).issues 0 0 0x70 vecProg 0x7000000000000000 ∧ formOk 1 false false 0x7000000000000000) := by
  unfold State.issues formOk; and_intros <;> decide +kernel

/-! Int32InstructionsWrapAndSetNoFlags -/

theorem wit_Int32InstructionsWrapAndSetNoFlags :
    (vecState 0x3003F00020000000).issues 0 0 0x30 vecProg 0x3003F00020000000 ∧ formOk 2 false false 0x3003F00020000000
    ∧ (vecState 0x3400000000000000).issues 0 0 0x34 vecProg 0x3400000000000000 ∧ formOk 2 false false 0x3400000000000000 := by
  unfold State.issues formOk; and_intros <;> decide +kernel

/-! CompareInstructionsWriteAMask -/

theorem wit_CompareInstructionsWriteAMask :
    (vecState 0x2704000300000000).issues 0 0 0x27 vecProg 0x2704000300000000
    ∧ bitsOf 0x2704000300000000 26 0 = 0 ∧ bitsOf 0x2704000300000000 55 53 = 0 ∧ (vfields 0x2704000300000000).vc ≤ 3
    ∧ (vfields 0x2704000300000000).negP = false ∧ (vfields 0x2704000300000000).negC = false
    ∧ (vecState 0x3A04000200000000).issues 0 0 0x3A vecProg 0x3A04000200000000 ∧ (vfields 0x3A04000200000000).vc ≤ 2 := by
  unfold State.issues; and_intros <;> decide +kernel

/-! ConvertsRewriteOnePartOfARegister -/

theorem wit_ConvertsRewriteOnePartOfARegister :
    (let w := 0x4000000400000000
     (vecState w).issues 0 0 0x40 vecProg w ∧ bitsOf w 20 0 = 0 ∧ fmtWidth (bitsOf w 43 39) = 32
      ∧ fmtWidth (bitsOf w 38 34) = 16 ∧ isMx (bitsOf w 43 39) = false ∧ isMx (bitsOf w 38 34) = false ∧ bitsOf w 38 34 ≠ 8
      ∧ bitsOf w 33 31 ≤ 4 ∧ bitsOf w 29 27 < partsOf (fmtWidth (bitsOf w 43 39))
      ∧ bitsOf w 26 24 < partsOf (fmtWidth (bitsOf w 38 34)))
    ∧ (let w := 0x4000000380000000
       (vecState w).issues 0 0 0x40 vecProg w ∧ 4 < bitsOf w 33 31)
    ∧ (let w := 0x4100004000000000
       (vecState w).issues 0 0 0x41 vecProg w ∧ bitsOf w 7 0 = 0 ∧ bitOf w 30 = false ∧ bitsOf w 43 39 ≤ 2
      ∧ isMx (bitsOf w 38 34) = true ∧ bitsOf w 33 31 ≤ 4 ∧ bitsOf w 29 27 < partsOf (fmtWidth (bitsOf w 43 39))
      ∧ bitsOf w 26 24 < partsOf (fmtWidth (bitsOf w 38 34)))
    ∧ (let w := 0x4100004000000001
       (vecState w).issues 0 0 0x41 vecProg w ∧ bitsOf w 7 0 ≠ 0)
    ∧ (let w := 0x4200080000000000
       (vecState w).issues 0 0 0x42 vecProg w ∧ bitsOf w 7 0 = 0 ∧ bitsOf w 38 34 ≤ 2 ∧ isMx (bitsOf w 43 39) = true
      ∧ bitsOf w 33 31 ≤ 4 ∧ bitsOf w 29 27 < partsOf (fmtWidth (bitsOf w 43 39))
      ∧ bitsOf w 26 24 < partsOf (fmtWidth (bitsOf w 38 34)))
    ∧ (let w := 0x4200080000000001
       (vecState w).issues 0 0 0x42 vecProg w ∧ bitsOf w 7 0 ≠ 0)
    ∧ (let w := 0x4000000600000000
       bitsOf w 33 31 = 4 ∧ cwf ({} : SrCtx) (vecState w |>.clus 0 0).ctxs = true
       ∧ cwf (List.replicate 256 0) (vecState w |>.clus 0 0).vregs = true)
    ∧ ((List.replicate 256 0).length = 256 ∧ 7 < partsOf 4 ∧ 4 < partsOf 6 ∧ (List.replicate 8 127).length = 8) := by
  unfold State.issues; and_intros <;> decide +kernel

/-! VectorLoadsAndStoresMoveLinesOfSram -/

theorem wit_VectorLoadsAndStoresMoveLinesOfSram :
    ((vecState 0x5000000000400000).issues 0 0 0x50 vecProg 0x5000000000400000
      ∧ (sramRead 0 0 0 64 3 none (vecState 0x5000000000400000)).1.isSome = true
      ∧ 64 ≤ ((vecState 0x5000000000400000).sramWindow 5 1 0).2)
    ∧ (vecState 0x5000000000000000).issues 0 0 0x50 vecProg 0x5000000000000000
    ∧ (vecState 0x5100000000400000).issues 0 0 0x51 vecProg 0x5100000000400000
    ∧ ((vecState 0x50001FFFF8400000).issues 0 0 0x50 vecProg 0x50001FFFF8400000
      ∧ ((vecState 0x50001FFFF8400000).sramWindow 5 1 0).2 < 0x3FFFF * 64 + 64)
    ∧ ((vecState 0x4800000000000000).issues 0 0 0x48 vecProg 0x4800000000000000
      ∧ ctxRecordBad (zeros 62 ++ natLE 2 (check16 (zeros 62))) = false)
    ∧ (vecState 0x5200000000000000).issues 0 0 0x52 vecProg 0x5200000000000000 := by
  unfold State.issues; and_intros <;> decide +kernel

/-! CrossLaneInstructionsAndVstatComplete -/

theorem wit_CrossLaneInstructionsAndVstatComplete :
    (vecState 0x6000000000000000).issues 0 0 0x60 vecProg 0x6000000000000000
    ∧ (vecState 0x6000000018000000).issues 0 0 0x60 vecProg 0x6000000018000000 ∧ 5 < bitsOf 0x6000000018000000 28 26
    ∧ (vecState 0x6100000000000000).issues 0 0 0x61 vecProg 0x6100000000000000
    ∧ (vecState 0x8004000000000000).issues 0 0 0x80 vecProg 0x8004000000000000
    ∧ (vecState 0x8000000000000001).issues 0 0 0x80 vecProg 0x8000000000000001 := by
  unfold State.issues; and_intros <;> decide +kernel

/-! ProgramControlFollowsBranchesLoopsAndEnds -/

theorem wit_ProgramControlFollowsBranchesLoopsAndEnds :
    (vecState 0x0100000000000000).issues 0 0 1 vecProg 0x0100000000000000
    ∧ ((vecState 0x0200000000000000).issues 0 0 2 vecProg 0x0200000000000000
      ∧ branchBad ((vecState 0x0200000000000000).clus 0 0) 0 1 = false
      ∧ branchBad ((vecState 0x0200000000000000).clus 0 0) 0 2 = true)
    ∧ (vecState 0x0300000000000000).issues 0 0 3 vecProg 0x0300000000000000
    ∧ ((vecState 0x0408000000000001).issues 0 0 4 vecProg 0x0408000000000001
      ∧ ((vecState 0x0408000000000001).clus 0 0).xreg (bitsOf 0x0408000000000001 55 51) = 63)
    ∧ ((vecState 0x0400000000000001).issues 0 0 4 vecProg 0x0400000000000001
      ∧ ((vecState 0x0400000000000001).clus 0 0).xreg (bitsOf 0x0400000000000001 55 51) = 0)
    ∧ (vecState 0x0400000000000000).issues 0 0 4 vecProg 0x0400000000000000 := by
  unfold State.issues; and_intros <;> decide +kernel
theorem wit_MaxBeats :
    ((({ blank with clu := { cl := [(0, { ibuf := [0], prog := some { vecProg with maxBeats := 9, beats := 9 } })] } } : State).clus 0 0).prog
      = some { vecProg with maxBeats := 9, beats := 9 }) := by decide

/-! TilePassDealsItsBlocksToItsArrays -/

theorem wit_TilePassDealsItsBlocksToItsArrays :
    (tileCmd.runs 5 1 0x10 (cmdFlight 0x10 tileBody) ∧ tileAhead 0 0 tileCmd = false
      ∧ checkTile tileBody tileCmd = 0 ∧ tileRangeBad tileBody (tileCmd.sramWindow 5 1 0).2 = false
      ∧ tileStreams 5 [0] tileBody tileCmd = (0, none, none)
      ∧ tileCmd.cmdClusters 5 1 0 1 = [0] ∧ (checkClusters 5 1 0 1 tileCmd).1 = 0 ∧ tKMode tileBody = false)
    ∧ checkTile (zeros 96) tileCmd ≠ 0
    ∧ (tileCmd.canonical = true ∧ (maskArrays (byteAt tileRunB.body 7)).length = 2)
    ∧ (tileAt {}).tileRun 5 1 = some tileRunB ∧ tileRunB.left = 0 ∧ (tileAt {}).spills 0 0 = [] := by
  unfold State.runs; and_intros <;> decide +kernel

/-! ArraysLoadStartBeatAndUnload -/

theorem wit_ArraysLoadStartBeatAndUnload :
    ((tileAt { chain := [⟨5, 1, 0⟩] }).tileRun 5 1 = some tileRunB
      ∧ ((tileAt { chain := [⟨5, 1, 0⟩] }).array 0 0 0).chain = [⟨5, 1, 0⟩] ∧ tInit tileRunB.body = 0)
    ∧ (((tileAt { passes := [passB] }).array 0 0 0).passes.find? (fun p => !p.started) = some passB
      ∧ (tileAt { passes := [passB] }).gateOpen 0 0 0 = true ∧ tT tileRunB.body = 0)
    ∧ ((tileAt { passes := [passB] }).finals 0 0 = [(0, 0)] ∧ ((tileAt { passes := [passB] }).array 0 0 0).drainRep = none
      ∧ drainFault false tileBody passB = none
      ∧ (match drainOut tileRunB 0 (drainItems tileRunB 0 false passB) (tileAt { passes := [passB] }) with
         | .done _ => true
         | _ => false) = true)
    ∧ (spillFull.finals 0 0 = [(0, 0)] ∧ drainFault false spillBody passB = none
      ∧ ((spillFull.spills 0 0).map (fun y => y.bytes.length)).sum = 65472
      ∧ (match drainOut { tileRunB with body := spillBody } 0 (drainItems { tileRunB with body := spillBody } 0 false passB) spillFull with
         | .full 1 _ => true
         | _ => false) = true)
    ∧ ((((beatAt tileBodyK).array 0 0 0).passes.find? (streaming (beatAt tileBodyK)) = some { passB with started := true })
      ∧ (beatAt tileBodyK).gateOpen 0 0 0 = true
      ∧ (match readBeat { tileRunB with body := tileBodyK } 0 { passB with started := true } 0 (beatAt tileBodyK) with
         | .edges _ _ _ => true
         | _ => false) = true)
    ∧ ((spillAt.spills 0 0) = [⟨5, 1, 0, [1, 2]⟩] ∧ spillAt.tileRun 5 1 = some tileRunB
      ∧ (spillAt.flight 5 1).isSome = true) := by
  and_intros <;> decide +kernel

/-! ResidueEventsRepeatSubstituteOrFail -/

theorem wit_ResidueEventsRepeatSubstituteOrFail :
    (((tileAt { passes := [passB] }).array 0 0 0).rep = none ∧ ((tileAt { passes := [passB] }).array 0 0 0).passes = [passB]
      ∧ (tileAt { passes := [passB] }).rfld (ZG_MXE_CTRL 0) 15 12 = 0 ∧ (tileAt { passes := [passB] }).finals 0 0 = [(0, 0)])
    ∧ ((tileAt { passes := [passB] }).array 0 0 0).drainRep = none
    ∧ ((tileAt { rep := some repB }).array 0 0 0).rep = some repB ∧ repB.onS = false ∧ repB.left = [] ∧ repB.source ≠ 5
    ∧ ((tileAt { drainRep := some (0, { repB with source := 5 }) }).array 0 0 0).rep = none
    ∧ ((tileAt { drainRep := some (0, { repB with source := 5 }) }).array 0 0 0).drainRep = some (0, { repB with source := 5 })
    ∧ ((tileAt { rep := some { repB with onS := true } }).array 0 0 0).rep = some { repB with onS := true } := by
  and_intros <;> decide +kernel

/-! SramIsWrittenBackScrubbedAndCleared -/

theorem wit_SramIsWrittenBackScrubbedAndCleared :
    (7 ∈ (({ blank with clu := { cl := [(0, { writeBacks := [7], sramErrs := [(56, 1)] })] } } : State).clus 0 0).writeBacks
      ∧ ({ blank with clu := { cl := [(0, { writeBacks := [7], sramErrs := [(56, 1)] })] } } : State).canonical = true)
    ∧ ({ blank with regs := [(ZG_CLU_SCRUB 0, 0x10400)] } : State).scrubOn 0 = true
    ∧ ((({ blank with clu := { cl := [(0, { ownTarget := some 128 })] } } : State).clus 0 0).ownTarget = some 128
      ∧ ({ blank with clu := { cl := [(0, { ownTarget := some 128 })] } } : State).clusterInUse 0 0 = false)
    ∧ (({ blank with regs := [(ZG_CLU_CARVE 0, 0x104)] } : State).rfld (ZG_CLU_CARVE 0) 8 8 = 1
      ∧ ({ blank with regs := [(ZG_CLU_CARVE 0, 0x104)] } : State).loansOn 0 = false) := by
  and_intros <;> decide +kernel

/-! MoveCommandsRunTheirPrograms -/

theorem wit_MoveCommandsRunTheirPrograms :
    (moveCmd.runs 5 1 0x21 (cmdFlight 0x21 moveBody) ∧ checkMove moveBody moveCmd = 0
      ∧ (checkClusters 5 1 0 1 moveCmd).1 = 0 ∧ moveCmd.cmdClusters 5 1 0 1 = [0] ∧ (moveCmd.clus 0 0).mv = none
      ∧ moveCmd.namedAhead 5 1 (cmdFlight 0x21 moveBody) 0x21 0 = false
      ∧ (match vaRead (moveCmd.req 5 (cmdFlight 0x21 moveBody) 6) 4096 64 moveCmd with
         | .ok bs _ => !programBad false 2 (2 ^ 64) bs && !programBad false 2 (moveCmd.sramWindow 5 1 0).2 bs
         | _ => false) = true)
    ∧ checkMove (zeros 48) moveCmd ≠ 0
    ∧ ((moveAt 5).entryAt 0 0 false 0 5 moveA (moveRunOf 5) (cmdFlight 0x21 moveBody) (entryOf 5)
      ∧ (match moveGroups (fun g t => putPieces 0 0 2 none (g.map (fun p => (p, zeros p.len))) t)
            (groupPieces (entryPieces 1 16 0 0 64 16)) (moveAt 5) with
         | .done _ => true
         | _ => false) = true)
    ∧ (moveAt 1).entryAt 0 0 false 0 1 moveA (moveRunOf 1) (cmdFlight 0x21 moveBody) (entryOf 1)
    ∧ (moveAt 3).entryAt 0 0 false 0 3 moveA (moveRunOf 3) (cmdFlight 0x21 moveBody) (entryOf 3)
    ∧ (moveAt 4).entryAt 0 0 false 0 4 moveA (moveRunOf 4) (cmdFlight 0x21 moveBody) (entryOf 4)
    ∧ (moveAt 2).entryAt 0 0 true 0 2 moveA (moveRunOf 2) (cmdFlight 0x21 moveBody) (entryOf 2) := by
  unfold State.runs State.entryAt; and_intros <;> decide +kernel

/-! StreamsOpenReleaseCloseStallAndAbort -/

theorem wit_StreamsOpenReleaseCloseStallAndAbort :
    ((streamCmd 0 streamBody).runs 5 1 0x40 (cmdFlight 0x40 streamBody) ∧ byteAt streamBody 0 / 64 = 0
      ∧ checkStream 0 streamBody (streamCmd 0 streamBody) = 0 ∧ (checkBoth 5 1 0 1 1 (streamCmd 0 streamBody)).1 = 0)
    ∧ checkStream 0 (zeros 64) (streamCmd 0 streamBody) ≠ 0
    ∧ ((streamCmd 1 (0x40 :: streamBody.drop 1)).runs 5 1 0x40 (cmdFlight 0x40 (0x40 :: streamBody.drop 1))
      ∧ checkStream 0 (0x40 :: streamBody.drop 1) (streamCmd 1 (0x40 :: streamBody.drop 1)) = 0
      ∧ streamRefusal 0 0 3 [0] (streamCmd 1 (0x40 :: streamBody.drop 1)) = .inr openStream)
    ∧ ((streamCmd 1 (0x80 :: streamBody.drop 1)).runs 5 1 0x40 (cmdFlight 0x40 (0x80 :: streamBody.drop 1))
      ∧ checkStream 0 (0x80 :: streamBody.drop 1) (streamCmd 1 (0x80 :: streamBody.drop 1)) = 0)
    ∧ ((streamCmd 1 streamBody).stream 0 3 = some openStream ∧ openStream.at? 0 = some { cl := 0, stallFrom := 0 }
      ∧ stallNs openStream { cl := 0, stallFrom := 0 } (streamCmd 1 streamBody) = some 5000000) := by
  unfold State.runs; and_intros <;> decide +kernel

/-! RegisterWritesTakeEffectOrAreRejected -/

theorem wit_RegisterWritesTakeEffectOrAreRejected :
    writable.answers (ZG_CLU_OWN 0 0) = true ∧ writable.hasFn 0 = true ∧ writable.hasFn 1 = false
    ∧ (∀ p ∈ [(ZG_CLU_OWN 0 0, 8), (ZG_CLU_CARVE 1, 4), (ZG_SYN_OWN 2 3, 8), (ZG_SYN_SEL 0, 4), (ZG_CGO_OWN 7, 8),
        (ZG_COL_SEL 3, 4), (ZG_HQ_SEL, 4), (ZG_MBX_DOORBELL, 8), (ZG_INT_ST 0, 4), (ZG_PWR_ESEL, 4), (ZG_PMC_SEL 0 0, 4),
        (ZG_MGT_CREAD, 8), (ZG_TOP_RSEL, 4)],
        writable.answers p.1 = true ∧ writeKind 0 p.1 p.2 0 writable = 0 ∧ (descOf p.1).isSome = true) := by
  and_intros <;> decide +kernel
theorem wit_RegisterWritesTakeEffectOrAreRejected_admin :
    writable.answers ZG_ADM_CFG = true ∧ writeKind 0 ZG_ADM_CFG 4 0x80000440 writable = 0
    ∧ writeKind 0 ZG_ADM_CFG 4 0x440 writable = 0 ∧ writeKind 0 (ZG_INT_INJECT 0) 4 0x80000000 { writable with regs := [(ZG_BOOT_STATE, 0x8010),
        (ZG_MGT_STATE, 9)] } = 0
    ∧ writeKind 0 ZG_ADM_CFG 4 (setFld (({ writable with regs := [(ZG_BOOT_STATE, 0x8010), (ZG_ADM_CFG, 0x440), (ZG_MGT_STATE, 1)] }
        : State).regF 0 ZG_ADM_CFG) 31 29 2).toNat { writable with regs := [(ZG_BOOT_STATE, 0x8010), (ZG_ADM_CFG, 0x440),
          (ZG_MGT_STATE, 1)] } = 0
    ∧ isHw ZG_ADM_CFG = true ∧ isHw (ZG_CLU_CARVE 0) = false ∧ (blockOf (ZG_CLU_CARVE 0)).isSome = true
    ∧ writeKind 0 ZG_ADM_CFG 4 1 writable ≠ 0 ∧ writeKind 0 (ZG_CLU_CARVE 0 + 0x800) 8 0 writable = 2
    ∧ writeKind 0 (ZG_CLU_CARVE 0) 4 1 writable ≠ 2 ∧ writable.betony = 1 ∧ writable.ready = true := by
  and_intros <;> decide +kernel

/-! RegisterFieldsTakeTheirAccessTypes -/

theorem wit_RegisterFieldsTakeTheirAccessTypes :
    regTable ≠ [] ∧ (∃ r ∈ regTable, ∃ fl ∈ r.fields, fl.2.1 ≤ 0 ∧ 0 ≤ fl.1) := by decide +kernel

/-! RejectedWritesAreCountedRecordedAndChangeNothingElse -/

theorem wit_RejectedWritesAreCountedRecorded :
    writable.canonical = true ∧ (1 ≤ 5 ∧ 5 ≤ 8) ∧ writable.mgt.logLoss = 0 ∧ (let s := { writable with mgt := { writable.mgt with lastReject := [(0, (0x40, 5, 0))] } }
      (cget (0, 0, 0) s.mgt.lastReject 0).1 = 0x40 ∧ s.now < (cget (0, 0, 0) s.mgt.lastReject 0).2.2 + 100000) := by decide +kernel

/-! TeaselOperationsRunInEveryNamedCluster -/

theorem wit_TeaselOperationsRunInEveryNamedCluster :
    (∀ op : Fin 11, (tslCmd op).teaselRuns 5 1 op (cmdFlight 0x30 (tslBody op)))
    ∧ (tslCmd 9).cmdClusters 5 1 0 1 = [0] ∧ ((tslCmd 9).bank (slotTable 0 0 0)).readers0 = 0 := by
  unfold State.teaselRuns State.runs; decide +kernel
theorem wit_TeaselOperationsRunInEveryNamedCluster_cluster :
    (tslCount (tslContext 5 1 (cmdFlight 0x30 (tslBody 0)) 0 0 (tslCmd 0)) (tslCmd 0)).1 = some 4
    ∧ tslBound (tslBody 0) 4 ((tslCmd 0).sramWindow 5 1 0).2 = 0
    ∧ (tslContext 5 1 (cmdFlight 0x30 (tslBody 0)) 0 0 (tslCmd 0)).map.isSome = false
    ∧ (let x : TslCtx := { b := putAt (tslBody 0) 1 [16], d := 0, c := 0, base := 0, part := none, reduced := false, map := none }
       let s : State := { tslCmd 0 with clu := { cl := [(0, { sramErrs := [(0, 3)] })] } }
       (tslCount x s).1 = none) := by decide +kernel
theorem wit_TeaselOperationsRunInEveryNamedCluster_bad :
    (let b := putAt (tslBody 0) 0x10 [1]
     let s := { tslCmd 0 with host := (cmdState 5 0x30 b).host }
     s.runs 5 1 0x30 (cmdFlight 0x30 b) ∧ laneAhead 5 0 false (s.tslNamed 5 1 (cmdFlight 0x30 b)) s = false
       ∧ checkTeasel b s = 0 ∧ zNSrc b = false ∧ regionsBad b (zN b) = true)
    ∧ (let b := putAt (tslBody 0) 2 [64]
       let s := { tslCmd 0 with host := (cmdState 5 0x30 b).host }
       s.runs 5 1 0x30 (cmdFlight 0x30 b) ∧ laneAhead 5 0 false (s.tslNamed 5 1 (cmdFlight 0x30 b)) s = false
         ∧ checkTeasel b s ≠ 0)
    ∧ 10 < zOp (tslBody 11) := by
  unfold State.runs; and_intros <;> decide +kernel

/-! SortIsStableAndWritesTheFirstCapRecords -/

theorem wit_SortIsStableAndWritesTheFirstCapRecords :
    let x : TslCtx := { b := tslBody 0, d := 0, c := 0, base := 0, part := none, reduced := false, map := none }
    (x.get 0 16 sortState).1 = some [2, 0, 0, 0, 1, 0, 0, 0, 2, 0, 0, 0, 1, 0, 0, 0]
    ∧ (sramWrite 0 0 0x80 [1, 0, 0, 0, 1, 0, 0, 0, 2, 0, 0, 0, 2, 0, 0, 0] 4 none (x.get 0 16 sortState).2).1 = true := by
  decide +kernel

/-! KeySetOperationsKeepEachKeyOnce -/

theorem wit_KeySetOperationsKeepEachKeyOnce :
    let x : TslCtx := { b := tslBody 6, d := 0, c := 0, base := 0, part := none, reduced := false, map := none }
    (x.get 0 16 setState).1 = some [1, 0, 0, 0, 2, 0, 0, 0, 3, 0, 0, 0, 4, 0, 0, 0]
    ∧ (x.get 0x40 16 setState).1 = some [3, 0, 0, 0, 4, 0, 0, 0, 5, 0, 0, 0, 6, 0, 0, 0]
    ∧ (setRun id false x 4 setState).st = 0 ∧ (setRun id false x 4 setState).out = 2
    ∧ (setRun id false x 4 sortState).st = 0x12 := by
  decide +kernel

/-! FlipsAndCopyBacksSwitchBanksInOneStep -/

theorem wit_FlipsAndCopyBacksSwitchBanksInOneStep :
    ((flipCmd {}).runs 5 1 0x31 (cmdFlight 0x31 flipBody) ∧ flipAhead 5 0 [0] (flipCmd {}) = false
      ∧ (flipCmd {}).cmdClusters 5 1 0 1 = [0]
      ∧ checkFlip flipBody (flipCmd {}) = 0 ∧ (checkClusters 5 1 0 1 (flipCmd {})).1 = 0 ∧ (flipCmd {}).canonical = true
      ∧ ((flipCmd {}).slot 0 0 0).defined = true ∧ ((flipCmd {}).slot 0 0 0).shadowBad = false
      ∧ ((flipCmd {}).bank (slotTable 0 0 0)).copyPending = false)
    ∧ (((flipCmd { copyPending := true }).bank (slotTable 0 0 0)).copyPending = true
      ∧ ((flipCmd { copyPending := true }).slot 0 0 0).shadowBad = false
      ∧ (flipCmd { copyPending := true }).bank (slotTable 0 0 0) = { copyPending := true }
      ∧ ((flipCmd { copyPending := true }).slot 0 0 0).copyBy = none
      ∧ (sramRead 0 0 0 8 4 none (flipCmd { copyPending := true })).1.isSome = true
      ∧ (sramWrite 0 0 64 (zeros 8) 4 none (sramRead 0 0 0 8 4 none (flipCmd { copyPending := true })).2).1 = true)
    ∧ (let b := putAt flipBody 4 [1]
       let s := { flipCmd { epoch := 3 } with host := (cmdState 5 0x31 b).host }
       s.runs 5 1 0x31 (cmdFlight 0x31 b) ∧ checkFlip b s = 0 ∧ (s.bank (slotTable 0 0 0)).epoch ≠ getLE b 8 4)
    ∧ (let b := putAt flipBody 0 [1]
       let s := { flipCmd {} with regs := [(ZG_ID_CONFIG, 0x4000000000000000), (ZG_CLU_OWN 0 0, 0x8080)],
                                  host := (cmdState 5 0x31 b).host }
       s.runs 5 1 0x31 (cmdFlight 0x31 b) ∧ checkFlip b s = 0 ∧ (checkClusters 5 1 1 1 s).1 = 0
         ∧ (s.slot 0 1 0).defined = false)
    ∧ (let s := { flipCmd {} with clu := { cl := [(0, { slots := [(0, { defined := true, shadowBad := true })] })] } }
       (s.slot 0 0 0).shadowBad = true ∧ (checkClusters 5 1 0 1 s).1 = 0)
    ∧ (let b := putAt flipBody 1 [0]
       checkFlip b (flipCmd {}) ≠ 0)
    ∧ (({ blank with banks := [(3, { copyPending := true })] } : State).bank (ptTable 3)).copyPending = true
    ∧ (({ blank with banks := [(memberTable 3, { copyPending := true })] } : State).bank (memberTable 3)).copyPending = true
    ∧ (∀ o ∈ [0x30, 0x64, 0x81, 0x82, 0x83], dOpc (cmdFlight o []).desc = o
      ∧ (cmdState 5 o []).flight 5 1 = some (cmdFlight o [])) := by
  unfold State.runs; and_intros <;> decide +kernel
theorem wit_FlipsAndCopyBacksSwitchBanksInOneStep_waits :
    (let g : Flight := { cmdFlight 0x31 flipBody with seq := 2, order := 1 }
     let s := { flipCmd {} with host := { (flipCmd {}).host with
       queues := (flipCmd {}).host.queues.map (fun p => (p.1, { p.2 with flights := p.2.flights ++ [g] })) } }
     s.runs 5 2 0x31 g ∧ flipAhead 5 g.order (s.cmdClusters 5 2 0 1) s = true)
    ∧ (let s := flipCmd { copyPending := true }
       s.runs 5 1 0x31 (cmdFlight 0x31 flipBody) ∧ flipAhead 5 0 [0] s = false ∧ checkFlip flipBody s = 0
         ∧ (checkClusters 5 1 0 1 s).1 = 0 ∧ (s.slot 0 0 0).defined = true ∧ (s.slot 0 0 0).shadowBad = false
         ∧ (s.bank (slotTable 0 0 0)).copyPending = true)
    ∧ (let s := { flipCmd {} with regs := [(ZG_ID_CONFIG, 0x4000000000000000)] }
       s.runs 5 1 0x31 (cmdFlight 0x31 flipBody) ∧ flipAhead 5 0 [0] s = false ∧ checkFlip flipBody s = 0
         ∧ (checkClusters 5 1 0 1 s).1 = 3) := by
  unfold State.runs; and_intros <;> decide +kernel
/-- A slot of `nkeys` keys whose copy-back is pending in a cluster with word errors `errs`. -/
def slotCopyState (nkeys : Nat) (errs : List (Nat × Nat)) : State :=
  { flipCmd { copyPending := true } with
    clu := { cl := [(0, { slots := [(0, { defined := true, off1 := 64, nkeys := nkeys })], sramErrs := errs })] } }
theorem wit_FlipsAndCopyBacksSwitchBanksInOneStep_copies :
    (((slotCopyState 2 []).bank (slotTable 0 0 0)).readers ((slotCopyState 2 []).bank (slotTable 0 0 0)).shadow = 0
      ∧ (slotCopyState 2 []).canonical = true ∧ cwf 0 ((slotCopyState 2 []).clus 0 0).sram = true)
    ∧ (((slotCopyState 2 [(0, 3)]).slot 0 0 0).shadowBad = false ∧ (sramRead 0 0 0 8 4 none (slotCopyState 2 [(0, 3)])).1 = none)
    ∧ ((sramRead 0 0 0 4 4 none (slotCopyState 1 [(8, 3)])).1 = some (zeros 4)
      ∧ (sramWrite 0 0 64 (zeros 4) 4 none (sramRead 0 0 0 4 4 none (slotCopyState 1 [(8, 3)])).2).1 = false)
    ∧ ((flipCmd {}).bank (slotTable 0 0 0)).copyPending = false
    ∧ (let s := { blank with banks := [(ptTable 3, { copyPending := true }), (memberTable 3, { copyPending := true })] }
       (s.bank (ptTable 3)).readers (s.bank (ptTable 3)).shadow = 0 ∧ (s.bank (ptTable 3)).copyPending = true
         ∧ (s.bank (memberTable 3)).readers (s.bank (memberTable 3)).shadow = 0 ∧ (s.bank (memberTable 3)).copyPending = true)
    ∧ (blank.bank (ptTable 3)).copyPending = false ∧ (blank.bank (memberTable 3)).copyPending = false := by
  decide +kernel
theorem wit_FlipsAndCopyBacksSwitchBanksInOneStep_writes :
    ((tslCmd 10).teaselRuns 5 1 10 (cmdFlight 0x30 (tslBody 10))
      ∧ slotBlocked 0 0 (zSlot (tslBody 10)) (tslCmd 10) = false ∧ (tslCmd 10).tslNamed 5 1 (cmdFlight 0x30 (tslBody 10)) = [0])
    ∧ (let s := formB (some ([3], [5], [], none)) []
       s.planned = true ∧ s.betony = 1 ∧ s.epochs = [3] ∧ cwf 0 s.wfn.routes = true
         ∧ [5] ≠ s.tableOf (s.bank routeTable).active ∧ (s.bank routeTable).writeBlocked = false)
    ∧ (formB none []).wfn.forming = none ∧ blank.planned = false ∧ fieldB.betony ≠ 1 := by
  unfold State.teaselRuns State.runs; and_intros <;> decide +kernel

/-! VectorProgramsLoadTheirCodeAndStart -/

theorem wit_VectorProgramsLoadTheirCodeAndStart :
    (vpCmd.runs 5 1 0x20 (cmdFlight 0x20 vpBody) ∧ checkVectorProgram vpBody vpCmd = 0 ∧ (checkClusters 5 1 0 1 vpCmd).1 = 0
      ∧ vpCmd.cmdClusters 5 1 0 1 = [0] ∧ (vpCmd.clus 0 0).prog = none ∧ vpCmd.canonical = true
      ∧ vpCmd.namedAhead 5 1 (cmdFlight 0x20 vpBody) 0x20 0 = false
      ∧ (match vaRead (vpCmd.req 5 (cmdFlight 0x20 vpBody) 6) 4096 8 vpCmd with
         | .ok bs _ => bs == [1, 0, 0, 0, 0, 0, 0, 0]
         | _ => false) = true) := by
  unfold State.runs; and_intros <;> decide +kernel

/-! HbmAccessesGoThroughThePageTables -/

theorem wit_HbmAccessesGoThroughThePageTables :
    vpCmd.flight 5 1 = some (cmdFlight 0x20 vpBody) ∧ isAdmin 5 = false
    ∧ (match vaRead (vpCmd.req 5 (cmdFlight 0x20 vpBody) 6) 0x1000 1 vpCmd with | .ok bs _ => bs == [1] | _ => false) = true
    ∧ (match vaRead (vpCmd.req 5 (cmdFlight 0x20 vpBody) 6) 0x200000 1 vpCmd with | .fault k _ _ => k == 1 | _ => false) = true
    ∧ (match vaWrite (vpCmd.req 5 (cmdFlight 0x20 vpBody) 6) 0x1000 [7] vpCmd with | .ok _ _ => true | _ => false) = true
    ∧ (let s := vpCmd.setRfld (stackReg 0) 39 38 3
       match vaWrite (s.req 5 (cmdFlight 0x20 vpBody) 6) 0x1000 [7] s with | .wait m _ _ => m == 0 | _ => false) = true := by
  decide +kernel

/-! HbmWritesReadBack -/

theorem wit_HbmWritesReadBack :
    vpCmd.canonical = true
    ∧ (match vaWrite (vpCmd.req 5 (cmdFlight 0x20 vpBody) 6) 0x103C [7, 8, 9, 10] vpCmd with | .ok _ _ => true | _ => false) = true := by
  decide +kernel

/-! MappedPagesTranslate -/

theorem wit_MappedPagesTranslate :
    (let s : State := { blank with hbm := { bytes := [(frameAddr 0 3, 0x85)], pt := [(ptKey 5 1 1 2, 0x1001)] } }
     s.canonical = true ∧ 0x80000000 % 0x200000 = 0 ∧ bitsOf (s.ptEntry 5 1 1 2) 63 40 = 0 ∧ bitsOf (s.ptEntry 5 1 1 2) 11 1 = 0
     ∧ s.frameByte (0x600000 + 77) / 128 = 1 ∧ s.frameByte (0x600000 + 77) % 64 = 5
     ∧ s.ptEntry 5 1 2 (0x80000000 / 0x200000) % 2 ≠ 1) := by decide +kernel

/-! HbmAdminCommandsManageFramesAndPages -/

theorem wit_HbmAdminCommandsManageFramesAndPages :
    (∀ o : Fin 5, ((admHbm (0x80 + o) 0).adminRuns 65536 1 (0x80 + o) (cmdFlight (0x80 + o) admHbmBody)))
    ∧ checkHbmAdmin 65536 admHbmBody (admHbm 0x80 0) = 0 ∧ countBad admHbmBody = false
    ∧ aPa admHbmBody % 0x200000 = 0 ∧ aVa admHbmBody % aSize admHbmBody = 0
    ∧ (admHbm 0x80 0).frame 1 / 64 = 0 ∧ framesFrom (aPa admHbmBody) (aCount admHbmBody) = [1]
    ∧ (admHbm 0x81 0x80).frameOf 0 1 = true ∧ mappedFrames 0 0 (admHbm 0x81 0x80) = []
    ∧ shadowWriteAhead 65536 1 0 (admHbm 0x81 0x80) = false ∧ ((admHbm 0x81 0x80).bank 0).writeBlocked = false := by
  unfold State.adminRuns State.runs; decide +kernel

/-! StacksRefreshScrubAndThrottle -/

theorem wit_StacksRefreshScrubAndThrottle :
    (({ blank with hbm := { stackSt := [(2, { writeBacks := [9] })], errs := [(9, [(3, 1)])] } } : State).stack 2).writeBacks = [9]
    ∧ ({ blank with regs := [(ZG_HBM_SCRUB 0, 0x10000)] } : State).rfld (ZG_HBM_SCRUB 0) 16 16 = 1
    ∧ ((125 : Byte).toNat ≤ 125)
    ∧ (let s : State := { blank with regs := cset 0 [] (stackReg 2) (3 * 2 ^ 38), time := { now := 100000 } }
       s.rfld (stackReg 2) 39 38 = 3 ∧ (s.stack 2).stalledRaised = false ∧ (s.stack 2).stoppedAt + 100000 ≤ s.now)
    ∧ (let s : State := { blank with regs := cset 0 (cset 0 [] (stackReg 2) (3 * 2 ^ 38)) (ZG_HBM_CTRL 0) (2 ^ 16 + 88 * 2 ^ 8),
                                     time := { now := 1000000 } }
       s.rfld (ZG_HBM_CTRL 0) 31 16 = 1 ∧ (s.stack 2).aborting = false ∧ s.rfld (ZG_HBM_CTRL 0) 15 8 ≤ 91
       ∧ s.rfld (stackReg 2) 39 38 = 3) := by
  decide +kernel
theorem wit_StacksRefreshScrubAndThrottle_corrected :
    ∃ fix, rsDecode [(3, 1)] = .corrected fix := ⟨[(3, 1)], by decide +kernel⟩

/-! FramesAreDealtAcknowledgedAndReplayed -/

theorem wit_FramesAreDealtAcknowledgedAndReplayed :
    (linkUp {}).canTake 0 3 0 0 = true ∧ poolOf 0 frameB = 0 ∧ 3 < linkStrands (linkOf 0) ∧ blank.canTake 0 3 0 0 = false
    ∧ unitD.wf = true ∧ unitD.cls ≠ 1 ∧ (linkUp {}).mayOffer 0 unitD.cls unitD.dest = true
    ∧ (dealHead 0 0 (enqueueFrame 0 0 frameB (linkUp {}))).isSome = true ∧ ((linkUp {}).strand (linkOf 0) 3).st = 1
    ∧ (∀ s, s = wireAt ⟨1, 0, 4095, 0, 0, 0, some frameB⟩ →
        cget [] s.d2d.wire (peerEnd 0 * 64 + 3) = [⟨1, 0, 4095, 0, 0, 0, some frameB⟩] ∧ (s.strand (linkOf 0) 3).st = 1
        ∧ (s.rx 0 3).expect = 0)
    ∧ ((linkUp { replay := [⟨0, 1, 0, frameB⟩] }).tx 0 3).replay ≠ []
    ∧ ((linkUp { replay := [⟨0, 1, 0, frameB⟩] }).tx 0 3).ackAt + 200 ≤ (linkUp { replay := [⟨0, 1, 0, frameB⟩] }).now := by
  and_intros <;> first | (intro s h; subst h; decide +kernel) | decide +kernel

/-! StrandsRetrainRejoinOrGoDown -/

theorem wit_StrandsRetrainRejoinOrGoDown :
    (3 : Nat) < linkStrands (linkOf 0)
    ∧ ((linkUp { replay := [⟨0, 8, 0, frameB⟩] }).strand (linkOf 0) 3).st = 1
    ∧ (∃ p ∈ ((linkUp { replay := [⟨0, 8, 0, frameB⟩] }).tx 0 3).replay, 8 ≤ p.sends)
    ∧ (({ blank with d2d := { strands := [(3, { st := 2, fails := 2 })] } } : State).strand 0 3).st = 2
    ∧ (oneStrand.strandsIn 0 0 ≠ 64
      ∧ oneStrand.edgeOut 0 = false ∧ oneStrand.strandsIn 0 1 + oneStrand.strandsIn 0 2 < oneStrand.edgeMin 0)
    ∧ (4 ≤ linkOf 2 ∧ blank.strandsIn 4 1 = 0 ∧ blank.rfld (ZG_D2D_PORT 0 2) 52 51 ≠ 3) := by
  decide +kernel

/-! DoorbellsAdvanceAQueueOrAreCounted -/

theorem wit_DoorbellsAdvanceAQueueOrAreCounted :
    (ringState {}).hasFn 1 = true ∧ blank.hasFn 0 = true ∧ blank.hasFn 1 = false ∧ ((ringState {}).queue 5).state ≠ .disabled ∧ ((ringState {}).part 0).qFirst ≤ 5
    ∧ 5 < ((ringState {}).part 0).qFirst + ((ringState {}).part 0).qCount
    ∧ ((ringState {}).queue 5).dbSeq < 64 ∧ 64 ≤ ((ringState {}).queue 5).fetchedSeq + 2 ^ ((ringState {}).queue 5).sqLog2
    ∧ ((ringState { cmplSeq := 2 }).queue 5).cqConsumed < 2 ∧ 2 ≤ ((ringState { cmplSeq := 2 }).queue 5).cmplSeq
    ∧ (blank.queue 5).state = .disabled ∧ (blank.queue 65536).state = .disabled
    ∧ (({ blank with host := { queues := [(65536, { state := .running, sqLog2 := 6, cmplSeq := 2 })] } } : State).queue
        65536).state ≠ .disabled
    ∧ (({ blank with host := { fns := [(0, { evWritten := 3 })] } } : State).fn 0).evConsumed < 3 := by
  decide +kernel

/-! DescriptorsAreFetchedInSubmitOrder -/

theorem wit_DescriptorsAreFetchedInSubmitOrder :
    (ringState { dbSeq := 1 }).mayFetch 5 = true ∧ ((ringState { dbSeq := 1 }).queue 5).wantSeq false = some 1
    ∧ dSeq ((ringState { dbSeq := 1 }).hostRead 1 (8192 + 128) 128) ≠ 1
    ∧ (ringState { dbSeq := 1, retries := 3 }).mayFetch 5 = true
    ∧ ((ringState { dbSeq := 1, retries := 3 }).queue 5).wantSeq false = some 1
    ∧ ((ringState { cqFull := true }).queue 5).fullRaised = none
    ∧ (let s := { ringState {} with host := { (ringState {}).host with vectors := [(2048, { held := true })] } }
       (s.vector 1 0).held = true ∧ (s.fn 1).bme = true ∧ (s.vector 1 0).sentAt + (s.vector 1 0).holdoff * 1000 ≤ s.now) := by
  decide +kernel
theorem wit_DescriptorsAreFetchedInSubmitOrder_commands :
    (cmdState 5 0x01 []).runs 5 1 0x01 (cmdFlight 0x01 [])
    ∧ (copyState 0).runs 5 1 0x08 (cmdFlight 0x08 (copyBody 0)) ∧ checkCopy (copyBody 0) = 0 ∧ checkCopy (copyBody 1) = 0
    ∧ checkCopy (copyBody 2) = 0 ∧ checkCopy (copyBody 3) ≠ 0
    ∧ ((copyState 0).fn ((copyState 0).queueFn 5)).bme = true ∧ (copyState 0).hubLost ((copyState 0).queue 5).die = false
    ∧ (match vaWrite ((copyState 0).req 5 (cmdFlight 0x08 (copyBody 0)) 6) 0x1000 (zeros 4) (copyState 0) with
       | .ok _ _ => true
       | _ => false) = true := by
  unfold State.runs; decide +kernel

/-! EndedCommandsLeaveInSubmitOrder -/

theorem wit_EndedCommandsLeaveInSubmitOrder :
    (ringState { held := [heldB] }).canonical = true
    ∧ ((ringState { held := [heldB] }).fn ((ringState { held := [heldB] }).queueFn 5)).bme = true
    ∧ ((ringState { held := [heldB] }).queue 5).cmplSeq + 1
        ≤ ((ringState { held := [heldB] }).queue 5).cqConsumed + 2 ^ ((ringState { held := [heldB] }).queue 5).cqLog2
    ∧ heldB.ending.noDesc = false ∧ isAdmin 5 = false := by decide +kernel

/-! QueueCommandsMoveQueuesThroughTheirStates -/

theorem wit_QueueCommandsMoveQueuesThroughTheirStates :
    ((hostAdm 0x90 createBody .disabled).adminRuns 65536 1 0x90 (cmdFlight 0x90 createBody)
      ∧ createBad createBody (hostAdm 0x90 createBody .disabled) = false ∧ partDenied 65536 0 = 0
      ∧ targetStatus (getLE createBody 0x20 2) (hostAdm 0x90 createBody .disabled) = 0
      ∧ createBad createBody (hostAdm 0x90 createBody .running) = true)
    ∧ (∀ p ∈ [(0x91, QState.stopped), (0x91, .running), (0x93, .error), (0x92, .running), (0x96, .running), (0x97, .running)],
        (hostAdm p.1 [5] p.2).adminRuns 65536 1 p.1 (cmdFlight p.1 [5])
        ∧ ((hostAdm p.1 [5] p.2).queue 5).state = p.2)
    ∧ checkShort [5] = 0 ∧ queueDenied 65536 5 (hostAdm 0x91 [5] .stopped) = 0 ∧ (hostAdm 0x93 [5] .error).dieDown 0 = 0
    ∧ (hostAdm 0x96 [5] .running).partQueues 0 = [5] ∧ ((hostAdm 0x96 [5] .running).part 0).present = true
    ∧ (hostAdm 0x96 [5] .disabled).partQueues 0 = []
    ∧ ((hostAdm 0x94 [0x20, 0, 1, 0, 7, 0, 3, 0] .running).adminRuns 65536 1 0x94 (cmdFlight 0x94 [0x20, 0, 1, 0, 7, 0, 3, 0])
      ∧ createPartBad [0x20, 0, 1, 0, 7, 0, 3, 0] (hostAdm 0x94 [0x20, 0, 1, 0, 7, 0, 3, 0] .running) = false
      ∧ (hostAdm 0x94 [0x20, 0, 1, 0, 7, 0, 3, 0] .running).testMode = false
      ∧ (partAudit 0x94 1 (hostAdm 0x94 [0x20, 0, 1, 0, 7, 0, 3, 0] .running) 7).1 = true)
    ∧ (hostAdm 0x95 [0, 0, 0, 0] .running).adminRuns 65536 1 0x95 (cmdFlight 0x95 [0, 0, 0, 0])
    ∧ (partAudit 0x95 0 (hostAdm 0x95 [0, 0, 0, 0] .running) 0).1 = true
    ∧ clustersName 0 (hostAdm 0x95 [0, 0, 0, 0] .running) = false := by
  unfold State.adminRuns State.runs; and_intros <;> decide +kernel

/-! ResetsDisableTheQueuesOfTheirFunctions -/

theorem wit_ResetsDisableTheQueuesOfTheirFunctions :
    State.reset.canonical = true ∧ cwf (0, 0) State.reset.mgt.shadows = true ∧ (blank.fn 3).bme = false
    ∧ ((ringState {}).fn 1).bme = true ∧ (ringState {}).hasFn 1 = true ∧ (ringState {}).host.vfEnable = true
    ∧ blank.hasFn 3 = false ∧ blank.host.vfEnable = false ∧ blank.hasFn 0 = true
    ∧ (let s := { ringState {} with host := { (ringState {}).host with fns := [(0, { bme := true })] } }
       (s.fn 0).bme = true ∧ s.host.vfEnable = true)
    ∧ ((ringState {}).canonical = true ∧ (ringState {}).fnQueues 1 = [5] ∧ ((ringState {}).queue 5).flights = []
      ∧ ((ringState {}).queue 5).stopWaiters = [] ∧ ((ringState {}).queue 5).unit = none)
    ∧ ((ringState { stopWaiters := [(65536, 3)] }).queue 5).stopWaiters = [(65536, 3)]
    ∧ blank.hasFn 0 = true ∧ (blank.fn 0).bme = false ∧ true ≠ blank.host.vfEnable := by decide +kernel

/-! FrontEndsDispatchInTurnAndLendIdleClusters -/

theorem wit_FrontEndsDispatchInTurnAndLendIdleClusters :
    (nextInTurn 0 adminReady.readyAdmin = some 65536 ∧ adminReady.mainReady 65536 = some nopDesc)
    ∧ userReady.readyAdmin = [] ∧ userReady.nextUser 0 = some 5 ∧ userReady.mainReady 5 = some nopDesc
    ∧ (firstFail [opcodeStatus 5 (dOpc nopDesc), fieldStatus 5 nopDesc] = 0 ∧ signalStatus 5 nopDesc userReady = 0
      ∧ notReadyStatus 5 nopDesc userReady = 0)
    ∧ firstFail [opcodeStatus 5 0x02, fieldStatus 5 nopDesc] = 2
    ∧ notReadyStatus 65536 (0x90 :: zeros 127) blank ≠ 0
    ∧ (firstFail [opcodeStatus 5 1, fieldStatus 5 sigDesc] = 0 ∧ signalStatus 5 sigDesc userReady ≠ 0)
    ∧ (lateReady.nextUser 0 = some 5 ∧ (lateReady.laneReady 5).isSome = true) := by
  and_intros <;> decide +kernel
theorem wit_FrontEndsDispatchInTurnAndLendIdleClusters_loans :
    (nextInTurn (cget 0 fillState.trn.turn 0) (fillState.fillers 0) = some 5 ∧ (fillState.queue 5).unit.isSome = true
      ∧ (fillState.lendableTo 5 0).take 1 = [0])
    ∧ ((lentState.queue 5).unit.isSome = true ∧ lentState.lentKeys 5 = [0] ∧ lentState.loanDue 5 = true) := by
  and_intros <;> decide +kernel

/-! RoleCommandsCommitOnceTheirChecksPass -/

theorem wit_RoleCommandsCommitOnceTheirChecksPass :
    (roleState infoCmd).host.mbx.phase = 1 ∧ rcMcmd infoCmd = 1 ∧ (roleState infoCmd).roleMayRun = true
    ∧ (rcCheck infoCmd (roleState infoCmd)).1 = 0 ∧ (roleAudit (roleState infoCmd).host.mbx (roleState infoCmd)).1 = true
    ∧ ((rcCheck [2] (roleState [2])).1 = 1 ∧ (roleState [2]).host.mbxHeld.phase ≠ 3)
    ∧ ({ blank with mgt := { roles := [(1, { locked := true })] }, time := { now := 1000000000 } } : State).role 1
        = { locked := true } := by
  decide +kernel
theorem wit_RoleCommandsCommitOnceTheirChecksPass_others :
    (∀ p ∈ [(2, 1, [0, 1, 1, 0]), (4, 1, [1, 1, 0]), (5, 0, zeros 8), (0x20, 3, [(0 : Byte)]), (0x22, 3, [0, 0, 0, 0])],
      (roleCheck p.1 p.2.1 p.2.2 blank = 0 ∧ (rcRoles p.1).contains p.2.1 = true)) := by
  decide +kernel

/-! ManagementReadsRecordsAlarmsAndRestarts -/

theorem wit_ManagementReadsRecordsAlarmsAndRestarts :
    writable.hasFn 0 = true ∧ reachesB0 0 ZG_TIME_NOW 8 = false ∧ reachesB0 0 (ZG_CLU_CARVE 0) 4 = true ∧ writable.b0Absent = false
    ∧ isCounter (ZG_CLU_CARVE 0) = false
    ∧ ({ blank with mgt := { emuReads := [⟨0, 0x100, 4, none, 0, 0⟩] }, time := { now := 20000 } } : State).mgt.emuReads.length = 1
    ∧ ({ blank with mgt := { logFifo := [zeros 64] } } : State).mgt.logFifo = [zeros 64]
    ∧ ({ blank with mgt := { logFifo := [zeros 64] } } : State).hubLost 0 = false
    ∧ (cget ({} : TracePoint) [(7, { enable := true })] 7).enable = true
    ∧ (blank.alarm 0).active = false ∧ writable.betony = 1
    ∧ ({ blank with mgt := { logFifo := List.replicate 4096 [] } } : State).logRoom = false
    ∧ ({ active := true, since := 1 } : Alarm).pending = none
    ∧ ({ blank with regs := [(ZG_BOOT_STATE, 0x800A), (ZG_MGT_STATE, 2)] } : State).betony = 2
    ∧ ({ blank with regs := [(ZG_BOOT_STATE, 0x800A), (ZG_MGT_STATE, 2)] } : State).stage ≠ 12 ∧ writable.warmRunning = false := by
  decide +kernel
theorem wit_ManagementReadsRecordsAlarmsAndRestarts_admin :
    (∀ o : Fin 5, ((mgtCmd (0xD0 + o)).adminRuns 65536 1 (0xD0 + o) (cmdFlight (0xD0 + o) mgtBody)))
    ∧ checkMgt 65536 mgtBody true = 0 ∧ checkMgt 65536 mgtBody false = 0 ∧ ((mgtCmd 0xD0).fn 0).bme = true
    ∧ mFirst mgtBody + mCount mgtBody ≤ 4096
    ∧ ((5 : Nat) :: ([1, 2, 3] : List Nat).filter (fun t => decide (5 ≤ t + 60000000000))).length = 4 := by
  unfold State.adminRuns State.runs; decide +kernel

/-! SidebandCommandsAnswer -/

theorem wit_SidebandCommandsAnswer :
    blank.mgt.sbDynAddr = none ∧ ((0x58 : BitVec 7).toNat = 0x58 + blank.pins.straps % 4 ∨ blank.pins.straps % 4 ≠ 0)
    ∧ blank.sbUp = false ∧ (∀ n ∈ [1, 2, 3], (sbState n).sbUp = true ∧ (sbState n).betony = n ∧ (sbState n).host.mbx.phase = 0)
    ∧ (sbHalted.sbUp = true ∧ sbHalted.betony = 3 ∧ sbHalted.host.mbx.phase ≠ 0 ∧ sbHalted.host.mbx.sb = false)
    ∧ rcRole (cgetList 0 (csetList 0 [] 0 [(1 : Byte), 1, 4, 0]) 0 4) = 1 ∧ rcMcmd (cgetList 0 (csetList 0 [] 0 [(1 : Byte), 1, 4, 0]) 0 4) = 4
    ∧ (mgtCmd 0xD0).betony = 1 ∧ (mgtCmd 0xD0).host.mbx.phase = 0 ∧ (roleState []).host.mbx.phase ≠ 0
    ∧ ({ blank with regs := [(ZG_MGT_STATE, 3)] } : State).betony = 3 ∧ ({ blank with regs := [(ZG_MGT_STATE, 2)] } : State).betony = 2
    ∧ (auditRecord 1 writable).1 = none := by
  decide +kernel

/-! SynchronisationOperationsFollowTheirTable -/

theorem wit_SynchronisationOperationsFollowTheirTable :
    (synState 1 [] { value := 7 }).synReaches 5 0 { value := 7 }
    ∧ (synState 1 [] { value := 2, target := 4, barrier := true }).synReaches 5 0 { value := 2, target := 4, barrier := true }
    ∧ (7 : Nat) + 0xFFFFFFF8 < 2 ^ 32 ∧ 2 ^ 32 ≤ (7 : Nat) + 0xFFFFFFF9 ∧ (2 : Nat) + 1 < 4 ∧ (2 : Nat) + 2 = 4 ∧ 4 < (2 : Nat) + 3
    ∧ (synState 1 [] { value := 7 }).synAccepts ((synState 1 [] { value := 7 }).queueTenant 5) 64 = false := by
  unfold State.synReaches; and_intros <;> decide +kernel

/-! SynchronisationCommandsSignalWaitConfigureAndSave -/

theorem wit_SynchronisationCommandsSignalWaitConfigureAndSave :
    (∀ p ∈ [(0x50, [0, 0, 2, 0, 1]), (0x51, [0, 0, 0, 0, 7]), (0x53, [0, 0, 1, 0]), (0x54, [0, 0, 1, 0]), (0x55, [0, 0, 1, 0])],
        (synState p.1 p.2 { value := 7 }).runs 5 1 p.1 (cmdFlight p.1 p.2))
    ∧ (synState 0x50 [0, 0, 2, 0, 1] { value := 7 }).syncAhead 5 (cmdFlight 0x50 [0, 0, 2, 0, 1]) 0 = false
    ∧ (synState 0x52 [0, 0, 0, 0, 1] { target := 4, barrier := true }).syncAhead 5 (cmdFlight 0x52 [0, 0, 0, 0, 1]) 0 = false
    ∧ checkSyncSignal [0, 0, 2, 0, 1] = 0 ∧ checkSyncWait [0, 0, 0, 0, 7] = 0 ∧ checkSyncConfig [0, 0, 1, 0] = 0
    ∧ checkSyncSave [0, 0, 1, 0] = 0
    ∧ (synState 0x50 [0, 0, 2, 0, 1] { value := 7 }).synReaches 5 0 { value := 7 }
    ∧ waitResult { value := 7 } ⟨5, 1, 0, 0, 7, false, 0, 0⟩ = some 0 ∧ waitResult { value := 6 } ⟨5, 1, 0, 0, 7, false, 0, 0⟩ = none
    ∧ ((synState 0x52 [0, 0, 0, 0, 1] { target := 4, barrier := true }).runs 5 1 0x52 (cmdFlight 0x52 [0, 0, 0, 0, 1])
      ∧ checkSyncArriveWait [0, 0, 0, 0, 1] = 0
      ∧ (synState 0x52 [0, 0, 0, 0, 1] { target := 4, barrier := true }).synReaches 5 0 { target := 4, barrier := true })
    ∧ (synState 1 [] {}).synAccepts 0 64 = false := by
  unfold State.runs State.synReaches; and_intros <;> decide +kernel
theorem wit_SynchronisationCommandsSignalWaitConfigureAndSave_remote :
    ((inField (synState 0x56 [1, 0, 0, 2, 0, 0] {})).runs 5 1 0x56 (cmdFlight 0x56 [1, 0, 0, 2, 0, 0])
      ∧ checkSyncRemote [1, 0, 0, 2, 0, 0] = 0 ∧ (inField blank).here = (0, 0, 0)
      ∧ (match inject { ptype := 5, dest := (1, 0, 0), dfield := 0, ddie := 0, sdie := 0, tenant := 0, body := syncReqBody 2 0 0 } none
          (inField (synState 0x56 [1, 0, 0, 2, 0, 0] {})) with | .sent _ _ => true | _ => false) = true)
    ∧ blank.planned = false
    ∧ (let s := inField (tenant7 (synState 1 [] {}))
       let b := ownPacket 5 7 (syncReqBody 2 0 9) s
       (arrivedAt b s).packetComes 0 5 b { s with wfn := { s.wfn with seen := [(0, some ⟨1, []⟩)] } })
    ∧ (let s := inField (tenant7 (synState 1 [] {}))
       let b := ownPacket 6 7 (syncAnsBody true 3) s
       (arrivedAt b s).packetComes 0 6 b { s with wfn := { s.wfn with seen := [(0, some ⟨1, []⟩)] } })
    ∧ (let s : State := { blank with syn := { waits := [⟨5, 1, 0, 0, 7, false, 1, 0⟩] }, time := { now := 1000 } }
       s.syn.waits.find? (fun w => w.queue == 5 && w.seq == 1) = some ⟨5, 1, 0, 0, 7, false, 1, 0⟩ ∧ 0 + 1 * 1000 ≤ s.now)
    ∧ (let s : State := { cmdState 5 0x51 [] with syn := { waits := [⟨5, 1, 0, 0, 7, false, 0, 0⟩] }, time := { now := 1000000 } }
       let t : State := { s with regs := cset 0 [] (ZG_SYN_CTRL 0) 0x10000 }
       t.activeOn 0 0 = [5] ∧ (t.blockedOn 5).isSome = true ∧ t.rfld (ZG_SYN_CTRL 0) 31 16 = 1) := by
  unfold State.runs State.packetComes State.packetTaken
  refine ⟨?_, ?_, ⟨⟨0, 0, 3, _, 0⟩, rfl, _, rfl, ?_⟩, ⟨⟨0, 0, 3, _, 0⟩, rfl, _, rfl, ?_⟩, ?_, ?_⟩
  · and_intros <;> decide +kernel
  · decide +kernel
  · refine ⟨by decide +kernel, by decide +kernel, by decide +kernel, ?_⟩
    exact (if_pos (by decide +kernel)).mpr ⟨⟨1, []⟩, by decide +kernel, by decide +kernel⟩
  · refine ⟨by decide +kernel, by decide +kernel, by decide +kernel, ?_⟩
    exact (if_pos (by decide +kernel)).mpr ⟨⟨1, []⟩, by decide +kernel, by decide +kernel⟩
  · decide +kernel
  · decide +kernel

/-! GroupsAreDefinedFilledFlippedResetAndPostedTo -/

theorem wit_GroupsAreDefinedFilledFlippedResetAndPostedTo :
    ((grpState 0x63 defBody {} []).runs 5 1 0x63 (cmdFlight 0x63 defBody) ∧ ownsGroup 5 0 (grpState 0x63 defBody {} []) = true
      ∧ (grpState 0x63 defBody {} []).groupPosted 0 = false ∧ groupDefineBad defBody = false
      ∧ ownsGroup 5 64 (grpState 0x63 defBody {} []) = false
      ∧ (grpState 0x63 defBody {} [opB]).groupPosted 0 = true)
    ∧ ((grpState 0x64 memBody {} []).runs 5 1 0x64 (cmdFlight 0x64 memBody)
      ∧ membersAhead 5 1 0 (grpState 0x64 memBody {} []) = false
      ∧ ((grpState 0x64 memBody {} []).bank (memberTable 0)).writeBlocked = false
      ∧ (match vaRead ((grpState 0x64 memBody {} []).req 5 (cmdFlight 0x64 memBody) 3) 0x1000 8 (grpState 0x64 memBody {} []) with
          | .ok _ _ => true | _ => false) = true
      ∧ ((grpState 0x64 memBody { copyPending := true } []).bank (memberTable 0)).writeBlocked = true)
    ∧ ((grpState 0x65 [0, 0, 0, 0] {} []).runs 5 1 0x65 (cmdFlight 0x65 [0, 0, 0, 0])
      ∧ membersBad ((grpState 0x65 [0, 0, 0, 0] {} []).group 0).bank1 = false ∧ membersBad [0, 0] = true)
    ∧ (grpState 0x66 [0, 0, 0, 0] {} []).runs 5 1 0x66 (cmdFlight 0x66 [0, 0, 0, 0])
    ∧ (grpState 0x66 [0, 0, 1, 0] {} [opB]).runs 5 1 0x66 (cmdFlight 0x66 [0, 0, 1, 0])
    ∧ (∀ p ∈ [(0x60, rsBody), (0x61, agBody), (0x62, qkBody)],
        (grpState p.1 p.2 { epoch := 1 } []).runs 5 1 p.1 (cmdFlight p.1 p.2) ∧ ownsGroup 5 0 (grpState p.1 p.2 { epoch := 1 } []) = true
        ∧ (grpState p.1 p.2 { epoch := 1 } []).memberHere 0 ∈ ((grpState p.1 p.2 { epoch := 1 } []).group 0).members 0)
    ∧ checkBulk 0x60 2 rsBody = 0 ∧ checkBulk 0x61 2 agBody = 0 ∧ checkQuick qkBody = 0 ∧ checkQuick (putAt qkBody 7 [1]) ≠ 0 := by
  unfold State.runs; and_intros <;> decide +kernel
theorem wit_GroupsAreDefinedFilledFlippedResetAndPostedTo_fields :
    (getLE memBody 0 2 < 4096 ∧ 1 ≤ getLE memBody 4 2 ∧ getLE memBody 4 2 ≤ 4096 ∧ zeroAt memBody 6 2 = true
      ∧ getLE memBody 2 2 + getLE memBody 4 2 ≤ ((grpState 0x64 memBody {} []).group 0).n ∧ getLE memBody 8 8 % 4 = 0
      ∧ zeroAt memBody 0x10 16 = true ∧ cGroup memBody = 0 ∧ ownsGroup 5 0 (grpState 0x64 memBody {} []) = true)
    ∧ (let b : List Byte := putAt memBody 4 [0, 0]
       (grpState 0x64 b {} []).runs 5 1 0x64 (cmdFlight 0x64 b) ∧ ¬ 1 ≤ getLE b 4 2)
    ∧ (let b : List Byte := putAt memBody 0 [64, 0]
       (grpState 0x64 b {} []).runs 5 1 0x64 (cmdFlight 0x64 b) ∧ ownsGroup 5 (cGroup b) (grpState 0x64 b {} []) = false)
    ∧ (let b : List Byte := zeros 96
       let s := grpState 0x65 b {} []
       s.runs 5 1 0x65 (cmdFlight 0x65 b) ∧ ownsGroup 5 (cGroup b) s = true ∧ getLE b 0 2 < 4096 ∧ byteAt b 2 < 4
         ∧ zeroAt b 3 1 = true ∧ zeroAt b 8 24 = true ∧ (s.group 0).n ≠ 0 ∧ membersAhead 5 1 0 s = false
         ∧ (s.bank (memberTable 0)).copyPending = false ∧ membersBad ((s.group 0).members (s.bank (memberTable 0)).shadow) = false
         ∧ ((grpState 0x65 b { copyPending := true } []).bank (memberTable 0)).copyPending = true
         ∧ ({ s with coll := {} } : State).group 0 = {})
    ∧ (let b : List Byte := putAt (zeros 96) 2 [1]
       let s := grpState 0x65 b { epoch := 3 } []
       bitOf (byteAt b 2) 0 = true ∧ (s.bank (memberTable 0)).epoch ≠ getLE b 4 4)
    ∧ (let b : List Byte := putAt (zeros 96) 2 [4]
       (grpState 0x65 b {} []).runs 5 1 0x65 (cmdFlight 0x65 b) ∧ ¬ byteAt b 2 < 4)
    ∧ (let b : List Byte := zeros 96
       let s := grpState 0x66 b {} []
       s.runs 5 1 0x66 (cmdFlight 0x66 b) ∧ ownsGroup 5 (cGroup b) s = true ∧ getLE b 0 2 < 4096 ∧ byteAt b 2 < 2
         ∧ zeroAt b 3 29 = true ∧ (s.group 0).n ≠ 0 ∧ s.groupPosted 0 = false
         ∧ (grpState 0x66 b {} [opB]).groupPosted 0 = true)
    ∧ (let b : List Byte := putAt (zeros 96) 2 [1]
       bitOf (byteAt b 2) 0 = true ∧ (grpState 0x66 b {} [opB]).localDies 0 = [0] ∧ ¬ byteAt (putAt b 2 [2]) 2 < 2)
    ∧ (let s := { grpState 0x63 defBody {} [] with coll := { groups := (List.range 64).map (fun i => (i + 1, { n := 4096 })) } }
       s.runs 5 1 0x63 (cmdFlight 0x63 defBody) ∧ ownsGroup 5 (cGroup defBody) s = true ∧ s.groupPosted 0 = false
         ∧ 8192 < (s.coll.groups.map (fun p => if p.1 = 0 then 0 else memberUnits p.2.n)).sum + memberUnits (getLE defBody 2 2 % 4096 + 1))
    ∧ groupDefineBad (putAt defBody 5 [1]) = true := by
  unfold State.runs; and_intros <;> decide +kernel

/-! CollectiveMessagesMoveChunksCreditsAndAborts -/

theorem wit_CollectiveMessagesMoveChunksCreditsAndAborts :
    (let s := runHeldBack 0 (runPrefetches 0 (grpState 0x61 agBody { epoch := 1 } [{ opB with cw := { credit := 1 } }]))
     s.dieGroups 0 = [0] ∧ cget 4096 s.coll.turn 0 = 4096 ∧ s.currentOp 0 0 false = some { opB with cw := { credit := 1 } }
     ∧ canServe 0 0 s = true ∧ canSend (s.group 0) { opB with cw := { credit := 1 } } 0 = true
     ∧ canSend (s.group 0) { opB with cw := { credit := 1 } } 1 = false)
    ∧ (let s := grpState 0x61 agBody { epoch := 1 } [opB]
       opWaits 0 0 false s = true ∧ s.currentOp 0 0 false = some opB
       ∧ opB.lastMsg + 10 * 1000 ≤ ({ s with time := { now := 10000 } } : State).now)
    ∧ (let k : CollChunk := ⟨0, 0, 0, 16, 0, 0⟩
       let s := grpState 0x61 agBody { epoch := 1 } [{ opB with cw := { hold := [k] } }]
       match vaRead (s.collReq opB) (stageVa (s.group 0) 0 2 0) 16 s with | .ok _ _ => true | _ => false) = true
    ∧ (collPay 0).length = 48 ∧ opB.chunks 0 = 1 ∧ (mPayload (collPay 0)).length = (opB.chunkAt 0 0).2 * wireBytes opB.opc opB.body
    ∧ freeSlot [] ((grpState 0x61 agBody { epoch := 1 } [opB]).group 0).slots = some 0
    ∧ (match placeChunk 0 0 0 0 0 0 (zeros 16) opB (grpState 0x61 agBody { epoch := 1 } [opB]) with
        | .ok (some _) _ => true | _ => false) = true := by
  and_intros <;> decide +kernel
/-- A quick operation that awaits the acknowledgement of a message to rank 1, and that ACK. -/
def quickHeld : CollOp := { quickB with qpos := 1, qhold := [⟨1, 1, zeros 4, 0⟩] }

theorem wit_CollectiveMessagesMoveChunksCreditsAndAborts_quick :
    (let m := collHeader 0 { quickB with rank := 1 } 2 0 0 1 0
     let s1 := collLeft 4 [] [quickHeld]
     ({ s1 with coll := { s1.coll with inbox := [⟨0, 0x1000000, 0, m⟩] } } : State).collComes 0 none 2 ⟨0x1000000, 0, m⟩ s1
      ∧ quickAcked 0 0 m s1 = true ∧ ∃ o, s1.collNoted 0 true false m o (noteMsg 0 0 true m s1))
    ∧ quickAcked 0 0 (collPay 2) (collLeft 2 [opB] []) = false
    ∧ (let m := collHeader 0 { opB with rank := 1, digest := 0 } 3 0 0 0x0201 0
       ({ state := 1, bulk := [opB] } : GroupDie).otherEnd m 2 = some opB
       ∧ (abortEndings { state := 1, bulk := [opB] } m 2).map (·.status) = [0x0201])
    ∧ (let s := { collLeft 100000 [] [quickHeld] with power := { coolState := 2 } }
       s.lastDefence = true ∧ s.currentOp 0 0 true = some quickHeld)
    ∧ (collLeft 100000 [opB] []).lastDefence = false := by
  unfold State.collComes State.collNoted
  refine ⟨⟨⟨⟨⟨0, 0x1000000, 0, collHeader 0 { quickB with rank := 1 } 2 0 0 1 0⟩, ?_, rfl, ?_⟩, ?_⟩, ?_,
    (noteMsg 0 0 true (collHeader 0 { quickB with rank := 1 } 2 0 0 1 0) (collLeft 4 [] [quickHeld])).currentOp 0 0 true |>.getD quickB,
    quickHeld, ?_⟩, ?_, ?_, ?_, ?_⟩ <;> decide +kernel
theorem wit_CollectiveMessagesMoveChunksCreditsAndAborts_messages :
    (∀ k ∈ [0, 1, 2, 3],
      (collBox k [opB] []).collComes 0 none k ⟨0x1000000, 0, collPay k⟩ (collLeft k [opB] [])
      ∧ (k ≠ 3 → ∃ o, (collLeft k [opB] []).collNoted 0 false true (collPay k) o (noteMsg 0 0 false (collPay k) (collLeft k [opB] []))))
    ∧ ((collBox 4 [] [quickB]).collComes 0 none 4 ⟨0x1000000, 0, collPay 4⟩ (collLeft 4 [] [quickB])
      ∧ ∃ o, (collLeft 4 [] [quickB]).collNoted 0 true true (collPay 4) o (noteMsg 0 0 true (collPay 4) (collLeft 4 [] [quickB]))) := by
  unfold State.collComes State.collNoted
  refine ⟨fun k hk => ⟨⟨⟨⟨0, 0x1000000, 0, collPay k⟩, ?_, rfl, ?_⟩, ?_⟩, fun h => ?_⟩,
    ⟨⟨⟨⟨0, 0x1000000, 0, collPay 4⟩, ?_, rfl, ?_⟩, ?_⟩, ?_⟩⟩
  · revert k; decide +kernel
  · revert k; decide +kernel
  · revert k; decide +kernel
  · have h2 : k = 0 ∨ k = 1 ∨ k = 2 := by simp at hk; omega
    rcases h2 with rfl | rfl | rfl
    · exact ⟨(noteMsg 0 0 false (collPay 0) (collLeft 0 [opB] [])).currentOp 0 0 false |>.getD opB, opB, by decide +kernel,
        by decide +kernel, by decide +kernel, by decide +kernel, by decide +kernel, rfl, by decide +kernel⟩
    · exact ⟨(noteMsg 0 0 false (collPay 1) (collLeft 1 [opB] [])).currentOp 0 0 false |>.getD opB, opB, by decide +kernel,
        by decide +kernel, by decide +kernel, by decide +kernel, by decide +kernel, rfl, by decide +kernel⟩
    · exact ⟨(noteMsg 0 0 false (collPay 2) (collLeft 2 [opB] [])).currentOp 0 0 false |>.getD opB, opB, by decide +kernel,
        by decide +kernel, by decide +kernel, by decide +kernel, by decide +kernel, rfl, by decide +kernel⟩
  · decide +kernel
  · decide +kernel
  · decide +kernel
  · exact ⟨(noteMsg 0 0 true (collPay 4) (collLeft 4 [] [quickB])).currentOp 0 0 true |>.getD quickB, quickB, by decide +kernel,
      by decide +kernel, by decide +kernel, by decide +kernel, by decide +kernel, rfl, by decide +kernel⟩

/-! FlitsAreDeliveredOnceInOrderAndPortsRetrain -/

theorem wit_FlitsAreDeliveredOnceInOrderAndPortsRetrain :
    (let s := portIn 3 { out := [outB] }
     s.portRuns 0 = true ∧ (s.port 0).pick (s.portState 0) 0 = some 3 ∧ (s.port 0).front (s.portState 0) 3 = some outB)
    ∧ (portIn 3 {}).portRuns 0 = true ∧ ((portIn 3 {}).port 0).pick 3 0 = none
    ∧ (flitCrcOk (flitBytes 0x50 0 7 [] {}) = true
      ∧ flitCrcOk (putAt (flitBytes 0x50 0 7 [] {}) 20 [1]) = false
      ∧ byteAt (flitBytes 0x50 0 7 [] {}) 0 / 64 = 1 ∧ byteAt (flitBytes 0x50 0 7 [] {}) 0 / 4 % 4 ≠ 3
      ∧ getLE (flitBytes 0x50 0 7 [] {}) 2 2 = ((takeCredit 0 (flitBytes 0x50 0 7 [] {})
          ((portIn 3 { expect := 7 }).flitSeen 0 (flitBytes 0x50 0 7 [] {}))).port 0).expect
      ∧ byteAt (flitBytes 0 0 7 [] {}) 0 / 64 ≠ 1)
    ∧ ((portIn 3 { owes := true }).port 0).owes = true
    ∧ (let s := { portIn 3 { replay := [⟨0, 1, 0, []⟩, ⟨1, 1, 0, []⟩] } with time := { now := 100000 } }
       s.ackLate 0 = true ∧ s.retriesSpent 0 = false ∧ ((s.port 0).replay.map WFlit.fseq).Nodup)
    ∧ (let s := { portIn 3 { replay := [⟨0, 255, 0, []⟩] } with time := { now := 100000 } }
       s.ackLate 0 = true ∧ s.retriesSpent 0 = true)
    ∧ (portIn 5 { fails := 2 }).portState 0 = 5 ∧ ((portIn 5 { fails := 2 }).port 0).cmd = none ∧ (portIn 1 {}).portState 0 = 1 := by
  and_intros <;> decide +kernel
/-- A port with the blocks of a flit in its byte stream, the last of them from a lost codeword where `lost` says so. -/
def streamIn (f : List Byte) (lost : Bool) : State :=
  portIn 3 { expect := 7, rxBlocks := ((flitBlocks f).take 7).map (fun b => (b, false)) ++ ((flitBlocks f).drop 7).map (fun b => (b, lost)) }
theorem wit_FlitsAreDeliveredOnceInOrderAndPortsRetrain_codewords :
    (let f := flitBytes 0x50 0 7 [] {}
     (streamIn f false).portRuns 0 = true ∧ wordsWf (laneWords 0 [] 0) = true ∧ arriveWords 0 (laneWords 0 [] 0) (streamIn f false) = streamIn f false
     ∧ (nextFlit 0 (streamIn f false)).any (fun r => r.1 == f && !r.2.1 && decide (r.2.2.bufferUsed 0 (flitVp f) < bufferSize (flitVp f))) = true
     ∧ (nextFlit 0 (streamIn f true)).any (fun r => r.2.1) = true ∧ nextFlit 0 (portIn 3 {}) = none)
    ∧ (portBlock true (natLE 1 0xA5 ++ zeros 31)).toNat = 2 * 0xA5 + 1 ∧ (portBlock false (natLE 1 0xA5)).toNat = 2 * 0xA5
    ∧ alignRound 0 = false ∧ alignRound 16380 = true ∧ alignRound 16384 = false
    ∧ (let w : LaneWord := ⟨0, List.replicate 20 1, 15⟩
       (({} : WPort).takeWord w).2 = (15, 0) ∧ (({} : WPort).takeWord { w with wrong := 16 }).2 = (0, 1)
       ∧ laneWords w.lane w.blocks w.wrong = [w] ∧ wordsWf [w] = true) := by
  and_intros <;> decide +kernel
theorem wit_FlitsAreDeliveredOnceInOrderAndPortsRetrain_commands :
    ∀ p ∈ [(0, 0), (0, 6), (0, 3), (1, 3), (1, 2), (2, 1), (2, 6), (3, 2), (3, 3)],
      (portCmd p.1 p.2).portRun 65536 1 p.1 0 (cmdFlight 0xC1 (0 :: BitVec.ofNat 8 p.1 :: zeros 14)) ∧ (portCmd p.1 p.2).portState 0 = p.2 := by
  unfold State.portRun State.adminRuns State.runs; decide +kernel

/-! PacketsAreVerifiedForwardedFloodedAndRouted -/

theorem wit_PacketsAreVerifiedForwardedFloodedAndRouted :
    (let s := { portIn 2 {} with time := { now := 10000 } }
     s.portState 0 = 2 ∧ (s.port 0).helloAt + 10000 ≤ s.now)
    ∧ (let s := { fieldB with wfn := { fieldB.wfn with lsaAt := 0 }, time := { now := 10000000 } }
       s.planned = true ∧ s.wfn.lsaAt + 10000000 ≤ s.now)
    ∧ (∀ p ∈ [(0xF0, 1), (0x50, 0), (0x50, 9), (0x50, 10)],
        (takeArrived 0 (fun b => decide (8 ≤ pkType b) || (decide (3 ≤ pkType b) && !fieldB.forHere b))
          (arrivedAt (transitB p.1 p.2) fieldB)).isSome = true)
    ∧ (routePacket 0 none none (transitB 0x50 9) (linearOf fieldB.dims (1, 0, 0)) fieldB).isSome = true
    ∧ pkDest (transitB 0x50 9) = (1, 0, 0) ∧ pkDField (transitB 0x50 10) = 1
    ∧ (let s := { fieldB with regs := [], time := { now := 20000 }, wfn := { fieldB.wfn with regions := [(0, ⟨3, false, 0⟩)], lsas := [(0, zeros 12 ++ [3] ++ zeros 27)] } }
       (0 : Nat) < s.regionCount ∧ (s.region 0).stable = false ∧ (s.region 0).changedAt + 20 * 1000 ≤ s.now
       ∧ (∀ i ∈ (s.reachFrom false s.hereIx).map Prod.fst, s.lsa i ≠ [] ∧ getLE (s.lsa i) 0x0C 4 = 3))
    ∧ (let s := formB none [1]
       s.planned = true ∧ s.betony = 1 ∧ (∀ r < s.regionCount, (s.region r).stable = true) ∧ s.wfn.formed ≠ some s.epochs)
    ∧ (formB (some ([4], [0, 0], [], none)) [3]).epochs ≠ [4]
    ∧ (formB (some ([3], [0, 0x80000000], [], none)) [3]).epochs = [3]
    ∧ [0, 0x80000000] = (formB (some ([3], [0, 0x80000000], [], none)) [3]).tableOf 0
    ∧ [0, 0x88000000] ≠ (formB (some ([3], [0, 0x80000000], [], none)) [3]).tableOf 0
    ∧ ((formB none [3]).bank routeTable).writeBlocked = false
    ∧ (∀ p ∈ [(65536, [1, 0, 1, 0, 0, 0, 7, 0]), (65536, [1, 0, 0, 0, 0, 0, 7, 0]), (65537, [1, 0, 0, 0, 0, 0, 7, 0])],
        checkWefinControl p.2 = 0 ∧ (ctrlState p.1 p.2).flight p.1 1 = some (cmdFlight 0xC0 p.2)
        ∧ (ctrlState p.1 p.2).planned = true ∧ (ctrlState p.1 p.2).wfn.formed ≠ none)
    ∧ (ctrlState 65536 [1, 0, 1, 0, 0, 0, 7, 0]).adminRuns 65536 1 0xC0 (cmdFlight 0xC0 [1, 0, 1, 0, 0, 0, 7, 0])
    ∧ (sendControl 1 7 (1, 0, 0) ⟨65536, 1, [], 0, false, 10000, 0⟩ (ctrlState 65536 [1, 0, 1, 0, 0, 0, 7, 0])).1.isSome = true
    ∧ ({ blank with wfn := { controls := [⟨65536, 1, [(0, 1)], 0, false, 0, 0⟩] } } : State).wfn.controls.find?
        (fun c => c.queue == 65536 && c.seq == 1) = some ⟨65536, 1, [(0, 1)], 0, false, 0, 0⟩ := by
  unfold State.adminRuns State.runs; and_intros <;> decide +kernel
theorem wit_PacketsAreVerifiedForwardedFloodedAndRouted_packets :
    (arrivedAt (ownPacket 0 0 (zeros 24) fieldB) fieldB).packetComes 0 0 (ownPacket 0 0 (zeros 24) fieldB) fieldB
    ∧ fieldB.portState 0 = 3
    ∧ (arrivedAt (ownPacket 2 0 (zeros 40) fieldB) fieldB).packetComes 0 2 (ownPacket 2 0 (zeros 40) fieldB) fieldB
    ∧ (∀ p ∈ [(1, true), (4, false)], let b := ownPacket 3 0 (controlBody p.1 0 0 1) fieldB
        (arrivedAt b fieldB).packetTaken 0 (fun b => pkType b == 3 && fieldB.forHere b && ((byteAt (pkBody b) 0 != 4) == p.2)) ⟨0, 0, 3, b, 0⟩
          { fieldB with wfn := { fieldB.wfn with seen := [(0, some ⟨1, []⟩)] } })
    ∧ (match inject { ptype := 3, dest := (1, 0, 0), dfield := 0, ddie := 0, sdie := 0, tenant := 0, body := controlBody 4 0 0 1 } none
        (controlAct 1 0 fieldB).2 with | .sent _ _ => true | _ => false) = true := by
  unfold State.packetComes State.packetTaken
  refine ⟨⟨⟨0, 0, 3, _, 0⟩, rfl, _, rfl, ?_⟩, ?_, ⟨⟨0, 0, 3, _, 0⟩, rfl, _, rfl, ?_⟩, fun p hp => ?_, ?_⟩
  · exact ⟨by decide +kernel, by decide +kernel, by decide +kernel, (if_neg (by decide +kernel)).mpr (by decide +kernel)⟩
  · decide +kernel
  · exact ⟨by decide +kernel, by decide +kernel, by decide +kernel, (if_neg (by decide +kernel)).mpr (by decide +kernel)⟩
  · have h2 : p = (1, true) ∨ p = (4, false) := by simpa using hp
    rcases h2 with rfl | rfl
    · refine ⟨fieldB, by decide +kernel, by decide +kernel, by decide +kernel, by decide +kernel, ?_⟩
      exact (if_pos (by decide +kernel)).mpr ⟨⟨1, []⟩, by decide +kernel, by decide +kernel⟩
    · refine ⟨fieldB, by decide +kernel, by decide +kernel, by decide +kernel, by decide +kernel, ?_⟩
      exact (if_pos (by decide +kernel)).mpr ⟨⟨1, []⟩, by decide +kernel, by decide +kernel⟩
  · decide +kernel

/-! TimeAdvancesAlignsAndIsPublished -/

theorem wit_TimeAdvancesAlignsAndIsPublished :
    blank.pending = [] ∧ 0 ≤ blank.time.slewRem
    ∧ (let s := { blank with regs := [(ZG_TIME_STATUS, 1)] }
       s.rfld ZG_TIME_STATUS 31 16 = 0 ∧ s.rfld ZG_TIME_STATUS 0 0 = 1 ∧ s.time.slewRem < 1000000)
    ∧ (timeState 1).timeParent = some 0 ∧ (timeState 1).wfn.timeReqAt + 100000 ≤ (timeState 1).now
    ∧ (timeState 1).wfn.timeWait = true ∧ getLE (pkBody (ownPacket 1 0 (timeBody 1 0 0 0 fieldB) fieldB)) 2 2 = (timeState 1).wfn.timeSeq
    ∧ (timeState 1).canonical = true ∧ (timeState 1).boot.step13 = false
    ∧ (10 : Int) - 0 - ((0 : Nat) - (0 : Nat)) = 2 * 5
    ∧ (timeState 2).rfld ZG_TIME_STATUS 1 1 = 1 ∧ (timeState 2).isReference = false
    ∧ (timeState 2).wfn.timeAt + 10000000 ≤ (timeState 2).now
    ∧ (let s := { blank with regs := [(ZG_BOOT_STATE, 9)], boot := { blank.boot with step13 := true } }
       s.stage = 9 ∧ s.planned = false)
    ∧ (let s := { timeState 1 with regs := cset 0 (cset 0 (timeState 1).regs ZG_BOOT_STATE 9) ZG_BOOT_CTRL 0x10000000 }
       s.stage = 9 ∧ s.now < 0 + s.rfld ZG_BOOT_CTRL 31 16 * 1000000 ∧ s.planned = true ∧ s.isReference = false)
    ∧ blank.dieState 0 = 0 ∧ blank.canonical = true
    ∧ (let s : State := { blank with regs := [(ZG_BOOT_DIES, 0x60)] }
       s.dieState 0 = 3 ∧ s.canonical = true)
    ∧ (cmdState 5 1 []).dieBusy 0 = true ∧ blank.dieBusy 0 = false
    ∧ ({ blank with regs := [(ZG_FMT_SERVICE 0, 2)] } : State).rfld (ZG_FMT_SERVICE 0) 1 1 = 1 := by
  and_intros <;> decide +kernel
theorem wit_TimeAdvancesAlignsAndIsPublished_packets :
    ∀ p ∈ [0, 1], let b := ownPacket 1 0 (timeBody p 0 0 0 (timeState 1)) (timeState 1)
      (arrivedAt b (timeState 1)).packetTaken 0 (fun b => pkType b == 1 && byteAt b 24 == p) ⟨0, 0, 3, b, 0⟩ (timeState 1) := by
  unfold State.packetTaken
  intro p hp
  have h2 : p = 0 ∨ p = 1 := by simpa using hp
  rcases h2 with rfl | rfl
  · exact ⟨timeState 1, by decide +kernel, by decide +kernel, by decide +kernel, by decide +kernel,
      (if_neg (by decide +kernel)).mpr rfl⟩
  · exact ⟨timeState 1, by decide +kernel, by decide +kernel, by decide +kernel, by decide +kernel,
      (if_neg (by decide +kernel)).mpr rfl⟩

/-! DropoutAndStoredActivationsRunInNamedClusters -/

theorem wit_DropoutAndStoredActivationsRunInNamedClusters :
    ((trnCmd 0xA0 dropBody).runs 5 1 0xA0 (cmdFlight 0xA0 dropBody) ∧ checkDropout dropBody ((trnCmd 0xA0 dropBody).sramBound 0) (trnCmd 0xA0 dropBody) = 0
      ∧ checkDropout (putAt dropBody 2 [3]) ((trnCmd 0xA0 dropBody).sramBound 0) (trnCmd 0xA0 dropBody) = 1
      ∧ (checkClusters 5 1 0 1 (trnCmd 0xA0 dropBody)).1 = 0 ∧ ((trnCmd 0xA0 dropBody).clus 0 0).prog = none
      ∧ (trnCmd 0xA0 dropBody).namedAhead 5 1 (cmdFlight 0xA0 dropBody) 0x20 0 = false)
    ∧ (∀ p ∈ [(0xA1, true), (0xA2, false)],
        (trnCmd p.1 actBody).runs 5 1 p.1 (cmdFlight p.1 actBody)
        ∧ checkAct p.2 actBody ((trnCmd p.1 actBody).sramBound 0) (trnCmd p.1 actBody) = 0 ∧ ((trnCmd p.1 actBody).clus 0 0).mv = none
        ∧ (trnCmd p.1 actBody).namedAhead 5 1 (cmdFlight p.1 actBody) 0x21 0 = false)
    ∧ (match actClusters (fun c t => actStoreIn ((trnCmd 0xA1 actBody).req 5 (cmdFlight 0xA1 actBody) 1) actBody 0 c c (t.queuePart 5) t) [0] []
          (trnCmd 0xA1 actBody) with
        | .inr (ends, _) => ends == [(0, 0)] | .inl _ => false) = true
    ∧ (match actClusters (fun c t => actLoadIn ((trnCmd 0xA2 actBody).req 5 (cmdFlight 0xA2 actBody) 0) actBody 0 c c (t.queuePart 5) t) [0] []
          (trnCmd 0xA2 actBody) with
        | .inr (ends, _) => ends == [(0, 0x0402)] | .inl _ => false) = true
    ∧ aStfmt actBody < 256 ∧ aCmp actBody < 256 ∧ aSfmt actBody < 256 := by
  unfold State.runs; and_intros <;> decide +kernel

/-! StagesRegionsAndUnitsFollowTheirRules -/

theorem wit_StagesRegionsAndUnitsFollowTheirRules :
    ((stgCmd 0xA3 setB {} {}).runs 5 1 0xA3 (cmdFlight 0xA3 setB) ∧ checkStageSet setB = 0 ∧ byteAt setB 1 ≠ 1
      ∧ stageQueueBad 0 0 2 5 (stgCmd 0xA3 setB {} {}) = false ∧ stageQueueBad 0 0 2 16 (stgCmd 0xA3 setB {} {}) = true
      ∧ checkStageSet (8 :: zeros 15) ≠ 0 ∧ StageSt.foreign {} 0 = false ∧ StageSt.foreign { ctxs := [(2, 6)], part := 1 } 0 = true)
    ∧ (stgCmd 0xA3 (2 :: 1 :: zeros 14) { ctxs := [(2, 6)] } {}).runs 5 1 0xA3 (cmdFlight 0xA3 (2 :: 1 :: zeros 14))
    ∧ ((stgCmd 0xA4 schedB { ctxs := [(1, 6), (4, 6)] } {}).runs 5 1 0xA4 (cmdFlight 0xA4 schedB) ∧ checkStageSched schedB = 0
      ∧ (match vaRead ((stgCmd 0xA4 schedB { ctxs := [(1, 6), (4, 6)] } {}).req 5 (cmdFlight 0xA4 schedB) 6) 0x1000 1
            (stgCmd 0xA4 schedB { ctxs := [(1, 6), (4, 6)] } {}) with
          | .ok bs _ => bs == [4] | _ => false) = true)
    ∧ (∀ x ∈ [({ ctxs := [(2, 6)], active := true, entries := [2, 1] } : StageSt), { ctxs := [(2, 6)], active := true, entries := [1] }, { ctxs := [(2, 6)] }],
        (stgCmd 0xA7 [] x {}).runs 5 1 0xA7 (cmdFlight 0xA7 []) ∧ (stgCmd 0xA7 [] x {}).stg 0 = x ∧ x.ctxOf 5 = some 2)
    ∧ StageSt.ctxOf {} 5 = none
    ∧ ((stgCmd 0xA5 (2 :: zeros 15) {} { cls := 1 }).runs 5 1 0xA5 (cmdFlight 0xA5 (2 :: zeros 15)) ∧ checkDeferBegin (2 :: zeros 15) 4 = 0
      ∧ checkDeferBegin (16 :: zeros 15) 4 = 1 ∧ checkDeferBegin (15 :: zeros 15) 4 = 0)
    ∧ ((stgCmd 0xA6 [] {} { cls := 1, regions := [⟨0, 1, 0, 0, []⟩] }).runs 5 1 0xA6 (cmdFlight 0xA6 [])
      ∧ ((stgCmd 0xA6 [] {} { cls := 1, regions := [⟨0, 1, 0, 0, []⟩] }).queue 5).regionDone ⟨0, 1, 0, 0, []⟩ = false)
    ∧ ((stgCmd 0xA8 fillB {} { cls := 2, fetched := [nopDesc] }).runs 5 1 0xA8 (cmdFlight 0xA8 fillB) ∧ checkFillBegin fillB = 0
      ∧ unitIllegal 1 0 nopDesc = false ∧ unitIllegal 1 0 (0x60 :: zeros 127) = true) := by
  unfold State.runs; and_intros <;> decide +kernel

/-! SorrelUpdatesCheckBorrowCommitAndDigest -/

theorem wit_SorrelUpdatesCheckBorrowCommitAndDigest :
    ((srlCmd 0x70 updB sgdRec 0).runs 5 1 0x70 (cmdFlight 0x70 updB) ∧ checkSrlUpdate updB = 0 ∧ checkSrlUpdate (putAt updB 0 [1]) ≠ 0
      ∧ srlMayStart 0 5 (cmdFlight 0x70 updB) (srlCmd 0x70 updB sgdRec 0) = true
      ∧ (match updateInput ((srlCmd 0x70 updB sgdRec 0).req 5 (cmdFlight 0x70 updB) 4) updB (srlCmd 0x70 updB sgdRec 0) with
          | .ok x _ => x.rec_ == sgdRec && updateChecks updB x == 0 && x.rec_.length == 128 | _ => false) = true
      ∧ getLE updB 0x48 8 = 0
      ∧ bitOf (byteAt updB 0) 7 = false ∧ rRule sgdRec = 0)
    ∧ (let s := srlCmd 0x70 updB sgdRec 0
       let rq := s.req 5 (cmdFlight 0x70 updB) 4
       match vaWrite rq 0x1000 (sealRecord (putAt sgdRec 3 [1])) (dropSorrel 5 1 s) with
       | .ok _ s2 => (match updateResult rq false updB sgdRec [] [] s2 with
         | .ok r s3 => (match Acc.forEach (fun p t => vaWriteWhole rq p.1 p.2 t) r.writes s3 with
           | .ok _ s4 => (match vaWrite rq 0x1000 sgdRec s4 with | .ok _ _ => true | _ => false)
           | _ => false)
         | _ => false)
       | _ => false) = true := by
  unfold State.runs; and_intros <;> decide +kernel
theorem wit_SorrelUpdatesCheckBorrowCommitAndDigest_arrays :
    updateChecks updB { rec_ := sealRecord (putAt sgdRec 3 [1]), bind := [], coefs := [] } = 0x0505
    ∧ ((srlCmd 0x71 rootB kronRec 0).runs 5 1 0x71 (cmdFlight 0x71 rootB) ∧ checkSrlRoot rootB = 0 ∧ rootChecks rootB kronRec = 0
      ∧ rootChecks rootB sgdRec = 1
      ∧ srlMayStart 0 5 (cmdFlight 0x71 rootB) (srlCmd 0x71 rootB kronRec 0) = true
      ∧ noArrays 0 0 (srlCmd 0x71 rootB kronRec 0) = true ∧ noArrays 0 0 (srlCmd 0x71 rootB kronRec 2) = false)
    ∧ (let s := srlHold (some (5, 1)) []
       (s.srlOf 0).cur = some (5, 1) ∧ s.borrowed 0 5 1 = [0] ∧ s.ownerWants 0 0 0 = true)
    ∧ (let s := { srlHold none [⟨5, 1, 0, false⟩] with clu := { carve := [2, 0, 0, 0] }, time := { now := 1000000 } }
       (s.srlOf 0).cur = none ∧ s.eligible 0 (s.queue 5).part = [0]
       ∧ (srlTake 0 5 1 0 (srlLimit 5 1 s) s).borrowed 0 5 1 = [0]
       ∧ (s.srlOf 0).aside.find? (fun a => a.queue == 5 && a.seq == 1) = some ⟨5, 1, 0, false⟩
       ∧ (match vaRead (s.req 5 (cmdFlight 0x70 updB) 4) 0x1000 128 s with | .ok _ _ => true | _ => false) = true)
    ∧ ({ blank with regs := [(ZG_SRL_CTRL 0, 0x100)] } : State).srlWaitMs 0 = 1 := by
  unfold State.runs; and_intros <;> decide +kernel
theorem wit_SorrelUpdatesCheckBorrowCommitAndDigest_commit :
    (∀ ph ∈ [3, 4, 6],
      let b := putAt updB 0x48 (natLE 8 0x1040)
      let s := (srlCmd 0x70 b sgdRec 0).updFlight 5 1 (fun f => { f with phase := ph })
      s.runs 5 1 0x70 { cmdFlight 0x70 b with phase := ph } ∧ checkSrlUpdate b = 0 ∧ getLE b 0x48 8 ≠ 0
      ∧ (match vaRead (s.req 5 { cmdFlight 0x70 b with phase := ph } 4) 0x1000 128 s with
          | .ok r s1 => (match vaWrite (s.req 5 { cmdFlight 0x70 b with phase := ph } 4) 0x1040 (digestRecord 0 r) s1 with
            | .ok _ _ => true | _ => false)
          | _ => false) = true)
    ∧ (∀ ph ∈ [3, 4],
        let s := (srlHold (some (5, 1)) []).updFlight 5 1 (fun f => { f with phase := ph })
        (s.srlOf 0).cur = some (5, 1) ∧ (s.flight 5 1).map (·.phase) = some ph ∧ s.borrowed 0 5 1 = [0]) := by
  unfold State.runs; decide +kernel

/-! CheckValuesChainsTwinsAndSelfTestsDecide -/

theorem wit_CheckValuesChainsTwinsAndSelfTestsDecide :
    ((intCmd 0x78 scanB).runs 5 1 0x78 (cmdFlight 0x78 scanB) ∧ campionTurn 0 0 (intCmd 0x78 scanB) = true ∧ checkScan scanB = 0
      ∧ (match vaRead ((intCmd 0x78 scanB).req 5 (cmdFlight 0x78 scanB) 5) 0x2000 16 (intCmd 0x78 scanB) with
          | .ok _ _ => true | _ => false) = true
      ∧ campionTurn 0 0 (intCmd 0x78 scanB) = true)
    ∧ ((intCmd 0x79 cmpB).runs 5 1 0x79 (cmdFlight 0x79 cmpB) ∧ checkCompare cmpB = 0)
    ∧ ((intCmd 0x7B provB).runs 5 1 0x7B (cmdFlight 0x7B provB) ∧ checkProvenance provB = 0
      ∧ ((intCmd 0x7B provB).part 0).audit = false)
    ∧ ({ blank with regs := [(ZG_INT_ST 0, 0x20000000)] } : State).rfld (ZG_INT_ST 0) 30 28 = 2
    ∧ dieLevel 4 = false ∧ dieLevel 2 = true := by
  unfold State.runs; and_intros <;> decide +kernel
theorem wit_CheckValuesChainsTwinsAndSelfTestsDecide_provenance :
    (match provData ((intCmd 0x7B provB).req 5 (cmdFlight 0x7B provB) 5) provB (intCmd 0x7B provB) with
      | .ok (some data) _ => data.length == 72 | _ => false) = true := by
  decide +kernel
theorem wit_CheckValuesChainsTwinsAndSelfTestsDecide_twins :
    (let s := twinState (intCmd 0x7A twinB)
     s.runs 5 1 0x7A (cmdFlight 0x7A twinB) ∧ checkTwinDigest twinB = 0 ∧ s.planned = true ∧ byteAt s.wfn.plan 5 ≠ 0
     ∧ s.rfld ZG_TOP_TWIN 63 62 ≠ 3 ∧ s.twin (s.queueTenant 5) 1 0 = none
     ∧ (match inject ⟨7, s.here, 1 - s.field, 0, 0, 0, digestBody 1 0 (tableDigest (zeros 8))⟩ none s with | .sent _ _ => true | _ => false) = true)
    ∧ (arrivedAt (ownPacket 7 7 (digestBody 1 0 (zeros 49)) fieldB) fieldB).packetComes 0 7
        (ownPacket 7 7 (digestBody 1 0 (zeros 49)) fieldB) fieldB
    ∧ byteAt (pkBody (ownPacket 7 7 (digestBody 1 0 (zeros 49)) fieldB)) 0 = 0 ∧ fieldB.twin 7 1 0 = none := by
  unfold State.runs State.packetComes State.packetTaken
  refine ⟨by and_intros <;> decide +kernel, ⟨⟨0, 0, 3, _, 0⟩, rfl, _, rfl, ?_⟩, by decide +kernel, by decide +kernel⟩
  exact ⟨by decide +kernel, by decide +kernel, by decide +kernel, (if_neg (by decide +kernel)).mpr (by decide +kernel)⟩

/-! PowerIsMeasuredGovernedAndSharedOut -/

theorem wit_PowerIsMeasuredGovernedAndSharedOut :
    cwf (0, 1) blank.power.carried = true ∧ cwf 0 blank.power.eQueue = true ∧ 0 < (cget (0, 1) blank.power.carried 5).2
    ∧ blank.power.dies.length = 4 ∧ blank.replicaOf 0 / 100 ≤ (blank.pw 0).window ∧ (blank.pw 0).p ≤ 64
    ∧ (let s := { blank with time := { now := 100, replica := [100, 0, 0, 0] } }
       (s.pw 0).window < s.replicaOf 0 / 100)
    ∧ ({ blank with regs := [(ZG_MGT_STATE, 1)] } : State).betony = 1 ∧ blank.betony ≠ 1
    ∧ (let s := lentTo
       s.wantAdmit 0 = [0, 1, 2, 3, 4, 5, 6, 7] ∧ rampDue (s.pw 0).admitPs (s.admitPs 0) s.now = true ∧ s.lastDefence = false)
    ∧ rampDue (some 5000) 8000 12 = false ∧ rampDue (some 5000) 8000 13 = true
    ∧ (let s := { blank with power := { dies := [{ admitted := [3] }, {}, {}, {}] }, time := { now := 2000 } }
       ((s.pw 0).admitted.filter (fun i => releasable 0 i s)).getLast? = some 3)
    ∧ blank.power.ballastEn = true ∧ blank.power.tripped = false
    ∧ readingsWf 4 (List.replicate 8 100) = true ∧ readingsWf 4 [] = false
    ∧ (let s := { blank with regs := [(ZG_BOOT_STATE, 2)], pins := { blank.pins with coolantOk := false, coolantAt := 0 }, time := { now := 10000 } }
       s.stage ≠ 0 ∧ s.power.tripped = false ∧ s.power.coolantEn = true ∧ s.pins.coolantAt + 10000 ≤ s.now ∧ s.power.coolState = 0)
    ∧ ((trnCmd 0xB0 (natLE 8 0x1000 ++ zeros 8)).runs 5 1 0xB0 (cmdFlight 0xB0 (natLE 8 0x1000 ++ zeros 8))
      ∧ (match vaWrite ((trnCmd 0xB0 (natLE 8 0x1000 ++ zeros 8)).req 5 (cmdFlight 0xB0 (natLE 8 0x1000 ++ zeros 8)) 6) 0x1000
            (energyRecord []) (trnCmd 0xB0 (natLE 8 0x1000 ++ zeros 8)) with
          | .ok _ _ => true | _ => false) = true) := by
  unfold State.runs; and_intros <;> decide +kernel

/-! BringUpStepsAreTakenOrStopWithTheirFailure -/

theorem wit_BringUpStepsAreTakenOrStopWithTheirFailure :
    State.reset.pins.rails = 2 ∧ (let s := { blank with pins := { blank.pins with rails := 0 } }
      s.pins.rails ≠ 2)
    ∧ State.reset.pins.resetN = false ∧ ({ blank with pins := { blank.pins with resetN := true } } : State).pins.resetN = true
    ∧ ({ blank with pins := { blank.pins with resetN := true } } : State).canonical = true ∧ keptReg true 0x10 = true
    ∧ writable.reg ZG_BOOT_STATE ≠ 0 ∧ ({ blank with boot := { failUntil := 2 } } : State).boot.failUntil = 2 ∧ blank.boot.failUntil ≠ 2
    ∧ (blank.stage = 0 ∧ blank.pins.rails = 2 ∧ blank.power.tripped = false ∧ blank.power.powerFail = false)
    ∧ (List.range 4).find? (fun d => !({ blank.fuses with vtOk := [true, false, true, true] } : Fuses).vtOk.getD d true) = some 1
    ∧ (List.range 4).find? (fun d => !blank.fuses.vtOk.getD d true) = none
    ∧ deadStack ⟨[], [], [], [9, 4]⟩ (List.range 16) = some 4
    ∧ writable.stage ≠ 14 ∧ blank.power.dies.length = 4 ∧ blank.mapFits := by
  unfold State.mapFits; and_intros <;> decide +kernel
theorem wit_BringUpStepsAreTakenOrStopWithTheirFailure_image :
    (imageWait.answers ZG_BOOT_GO = true ∧ writeKind 0 ZG_BOOT_GO 4 1 imageWait = 0 ∧ (descOf ZG_BOOT_GO).isSome = true)
    ∧ (imageCheck [] 0 blank = 1 ∧ (imageWait.fn 0).bme = false)
    ∧ (let s := { blank with regs := [(ZG_BOOT_STATE, 14)], pins := { blank.pins with coolantOk := true }, time := { now := 20000000 } }
       s.stage = 14 ∧ s.coolantBack = true)
    ∧ (let s := { imageWait with pins := { blank.pins with resetN := true } }
       s.stage ≠ 0 ∧ s.stage ≠ 13 ∧ s.host.linkUp = false ∧ s.pins.resetN = true)
    ∧ (blank.dieFailed 0 = false ∧ blank.dieFailed 3 = false) := by
  and_intros <;> decide +kernel

/-! ResetsEndWorkAndRejoinOrFail -/

theorem wit_ResetsEndWorkAndRejoinOrFail :
    (resetByWrite .itself inWarm = inWarm ∧ inWarm.stage = 12 ∧ inWarm.power.tripped = false)
    ∧ (resetByWrite .itself blank).stage ≠ 12 ∧ (resetByWrite .itself inWarm).canonical = true
    ∧ deadStack ⟨[], [], [], [3]⟩ ((List.range 16).filter (fun m => !inWarm.dieFailed (m / 4))) = some 3
    ∧ (writable.answers ZG_BOOT_CTRL = true ∧ (descOf ZG_BOOT_CTRL).isSome = true
      ∧ writeKind 0 ZG_BOOT_CTRL 4 0x100 writable = 0)
    ∧ blank.boot.imageHash ≠ [1]
    ∧ (inDie.dieState 1 = 4 ∧ inDie.stage = 10 ∧ inDie.power.tripped = false)
    ∧ ((⟨[], [], [], [6]⟩ : Training).dead.any (fun x => x.val == 4 * (1 : Fin 4).val + 2) = true)
    ∧ blank.dieState 0 ≠ 3 ∧ inWarm.mapFits ∧ inDie.mapFits := by
  unfold State.mapFits; and_intros <;> decide +kernel
theorem wit_ResetsEndWorkAndRejoinOrFail_clock :
    ((dieUp { state := .running }).dieState 0 = 3 ∧ (dieUp { state := .running }).canonical = true)
    ∧ (let s := { writable with time := { refclk := true } }
       s.time.refclk = true ∧ s.stage ≠ 0 ∧ s.power.tripped = false)
    ∧ (let s := { blank with regs := [(ZG_BOOT_STATE, 13)], time := { refclk := false } }
       s.time.refclk = false ∧ s.power.tripped = false
       ∧ (bootEvent 7 (min ((s.now - s.time.refclkAt) / 1000) 4294967295) 0 { s with time := { s.time with refclk := true, refclkAt := s.now } }).stage = 13)
    ∧ (writable.stage ≠ 0 ∧ blank.stage = 0 ∧ writable.stage ≠ 11) := by
  and_intros <;> decide +kernel

/-! EveryStepKeepsTheStoresCanonical -/

theorem wit_EveryStepKeepsTheStoresCanonical : writable.canonical = true ∧ (∃ t, step writable = .next t) := by
  refine ⟨by decide +kernel, tick writable, rfl⟩

/-! NoStepLowersTheMinimumSecurityVersion -/

theorem wit_NoStepLowersTheMinimumSecurityVersion : State.reset.svnInv ∧ (∃ t, step State.reset = .next t)
    ∧ ({ blank with boot := { raiseSvn := true, imageSvn := 4 }, store := { minSvn := 4 } } : State).svnInv :=
  ⟨fun h => absurd h (by decide), ⟨tick State.reset, rfl⟩, fun _ => by decide⟩
end Sys2Proof.Tests
end

section
/-! Fields of registers: what a field reads after a field is set, and when a register reads back. -/
namespace Sys2Proof.Machine
open Sys2Proof

theorem testBit_bitsOf (v hi lo i : Nat) :
    (bitsOf v hi lo).testBit i = (decide (i < hi + 1 - lo) && v.testBit (lo + i)) := by
  rw [bitsOf, Nat.testBit_mod_two_pow, Nat.testBit_div_two_pow, Nat.add_comm i lo]

/-- The number below a field, the field and what stands above it are the parts of a number. -/
theorem parts_of_field (v hi lo : Nat) :
    v = v / 2 ^ lo / 2 ^ (hi + 1 - lo) * 2 ^ (hi + 1 - lo) * 2 ^ lo + bitsOf v hi lo * 2 ^ lo + v % 2 ^ lo := by
  conv_lhs => rw [← Nat.div_add_mod' v (2 ^ lo), ← Nat.div_add_mod' (v / 2 ^ lo) (2 ^ (hi + 1 - lo))]
  rw [bitsOf, Nat.add_mul]

theorem putBits_eq (v hi lo x : Nat) :
    putBits v hi lo x = 2 ^ lo * (2 ^ (hi + 1 - lo) * (v / 2 ^ lo / 2 ^ (hi + 1 - lo)) + x % 2 ^ (hi + 1 - lo)) + v % 2 ^ lo := by
  have h := parts_of_field v hi lo
  rw [putBits]
  calc v - bitsOf v hi lo * 2 ^ lo + x % 2 ^ (hi + 1 - lo) * 2 ^ lo
      = v / 2 ^ lo / 2 ^ (hi + 1 - lo) * 2 ^ (hi + 1 - lo) * 2 ^ lo + v % 2 ^ lo + x % 2 ^ (hi + 1 - lo) * 2 ^ lo := by omega
    _ = _ := by ring

/-- Setting a field replaces the bits of the field and no others. -/
theorem testBit_putBits (v hi lo x i : Nat) :
    (putBits v hi lo x).testBit i = if lo ≤ i ∧ i < hi + 1 then x.testBit (i - lo) else v.testBit i := by
  rw [putBits_eq, Nat.testBit_two_pow_mul_add _ (Nat.mod_lt _ (Nat.two_pow_pos _)),
    Nat.testBit_two_pow_mul_add _ (Nat.mod_lt _ (Nat.two_pow_pos _))]
  simp only [Nat.testBit_mod_two_pow, Nat.testBit_div_two_pow]
  by_cases hlo : i < lo
  · rw [if_pos hlo, if_neg (by omega)]; simp [hlo]
  · rw [if_neg hlo]
    by_cases hhi : i - lo < hi + 1 - lo
    · rw [if_pos hhi, if_pos (by omega)]; simp [hhi]
    · rw [if_neg hhi, if_neg (by omega), show i - lo - (hi + 1 - lo) + (hi + 1 - lo) + lo = i by omega]

/-- Bits of a register after a field is set. -/
theorem testBit_setFld (w : Word64) (hi lo x i : Nat) (h64 : i < 64) :
    (setFld w hi lo x).toNat.testBit i = if lo ≤ i ∧ i < hi + 1 then x.testBit (i - lo) else w.toNat.testBit i := by
  rw [setFld, BitVec.toNat_ofNat, Nat.testBit_mod_two_pow, testBit_putBits]
  simp [h64]

/-- A field just set. -/
theorem fld_setFld_same (w : Word64) {hi lo : Nat} (x : Nat) (h64 : hi < 64) :
    fld (setFld w hi lo x) hi lo = x % 2 ^ (hi + 1 - lo) := by
  refine Nat.eq_of_testBit_eq fun i => ?_
  rw [fld, testBit_bitsOf, Nat.testBit_mod_two_pow]
  by_cases h : i < hi + 1 - lo
  · rw [testBit_setFld _ _ _ _ _ (by omega), if_pos (by omega), Nat.add_sub_cancel_left]
  · simp [h]

/-- A field beside the one set. -/
theorem fld_setFld_other (w : Word64) {hi lo hi' lo' : Nat} (x : Nat) (h64 : hi' < 64) (h : hi < lo' ∨ hi' < lo) :
    fld (setFld w hi lo x) hi' lo' = fld w hi' lo' := by
  refine Nat.eq_of_testBit_eq fun i => ?_
  rw [fld, fld, testBit_bitsOf, testBit_bitsOf]
  by_cases hi' : i < hi' + 1 - lo'
  · rw [testBit_setFld _ _ _ _ _ (by omega), if_neg (by omega)]
  · simp [hi']

theorem fld_zero (hi lo : Nat) : fld 0 hi lo = 0 := by simp [fld, bitsOf]

/-- A register in which some field is not zero is not zero. -/
theorem ne_zero_of_fld {w : Word64} {hi lo : Nat} (h : fld w hi lo ≠ 0) : w ≠ 0 := by
  rintro rfl; exact h (fld_zero hi lo)

/-- A field of a register that holds a number. -/
theorem fld_ofNat {n : Nat} (h : n < 2 ^ 64) (hi lo : Nat) : fld (BitVec.ofNat 64 n) hi lo = bitsOf n hi lo := by
  rw [fld, BitVec.toNat_ofNat, Nat.mod_eq_of_lt h]

/-! Registers of a state -/

/-- A register reads back: in a canonical register file, and in any register file a value other than zero. -/
theorem State.setReg_reg_self {s : State} {a : Nat} {v : Word64} (h : cwf 0 s.regs = true ∨ v ≠ 0) : (s.setReg a v).reg a = v := by
  obtain w | hv := h
  · rw [State.setReg_reg w, if_pos rfl]
  · exact cget_cset_listed 0 s.regs a hv

theorem State.setRfld_cwf {s : State} (w : cwf 0 s.regs = true) (a hi lo v : Nat) : cwf 0 (s.setRfld a hi lo v).regs = true :=
  State.setReg_cwf w a _

/-- The field just set. -/
theorem State.setRfld_rfld_same {s : State} {a hi lo : Nat} {v : Nat} (h64 : hi < 64)
    (h : cwf 0 s.regs = true ∨ v % 2 ^ (hi + 1 - lo) ≠ 0) : (s.setRfld a hi lo v).rfld a hi lo = v % 2 ^ (hi + 1 - lo) := by
  have hv := fld_setFld_same (s.reg a) (lo := lo) v h64
  rw [State.rfld, State.setRfld, State.setReg_reg_self (h.imp_right fun hn => ne_zero_of_fld (hv ▸ hn)), hv]

/-- Another field of the same register. -/
theorem State.setRfld_rfld_beside {s : State} {a hi lo hi' lo' : Nat} {v : Nat} (h64 : hi' < 64) (hd : hi < lo' ∨ hi' < lo)
    (h : cwf 0 s.regs = true ∨ s.rfld a hi' lo' ≠ 0) : (s.setRfld a hi lo v).rfld a hi' lo' = s.rfld a hi' lo' := by
  have hv := fld_setFld_other (s.reg a) v h64 hd
  rw [State.rfld, State.setRfld, State.setReg_reg_self (h.imp_right fun hn => ne_zero_of_fld (ne_of_eq_of_ne hv hn)), hv, State.rfld]

/-- A field of another register. -/
theorem State.setRfld_rfld_other {s : State} (w : cwf 0 s.regs = true) {a b : Nat} (hab : b ≠ a) (hi lo v hi' lo' : Nat) :
    (s.setRfld a hi lo v).rfld b hi' lo' = s.rfld b hi' lo' := by
  rw [State.rfld, State.setRfld, State.setReg_reg w, if_neg hab, State.rfld]

end Sys2Proof.Machine
end

section
/-! What the package's own bookkeeping leaves as it was. Raising an event, ending a command, moving a packet, resetting a function and the
like may write through half the state, and no statement about a reset or about the timebase cares where; `Keeps` names what all of them
keep, and each operation has one lemma. -/
namespace Sys2Proof.Machine
open Sys2Proof

variable {α : Type}

/-! A register that reads as another value than its default reads so after a write beside it, in any list. -/

theorem cget_cset_ne_of_ne [DecidableEq α] {d : α} : ∀ {m : List (Nat × α)} {a b : Nat} (v : α), cget d m b ≠ d → b ≠ a →
    cget d (cset d m a v) b = cget d m b
  | [], _, _, _, h, _ => absurd rfl h
  | (c, x) :: m, a, b, v, h, n => by
    simp only [cget] at h
    simp only [cset]
    split
    · split
      · rfl
      · have hab : ¬ b < a := fun hba => by
          rw [if_neg (by omega), if_pos (by omega)] at h; exact h rfl
        rw [cget, if_neg n, if_neg hab]
    · split
      · next hac =>
        subst hac
        rw [if_neg n] at h
        by_cases hb : b < a
        · rw [if_pos hb] at h; exact absurd rfl h
        · split
          · rw [cget, if_neg n, if_neg hb]
          · simp only [cget, if_neg n, if_neg hb]
      · rw [cget, cget]
        split
        · rfl
        · split
          · rfl
          · rw [if_neg ‹_›, if_neg ‹_›] at h
            exact cget_cset_ne_of_ne v h n

theorem cget_filter_of_ne {d : α} {g : Nat × α → Bool} : ∀ {m : List (Nat × α)} {b : Nat}, cget d m b ≠ d → (∀ x, g (b, x) = true) →
    cget d (m.filter g) b = cget d m b
  | [], _, h, _ => absurd rfl h
  | (c, x) :: m, b, h, hg => by
    by_cases hc : b = c
    · subst hc
      rw [List.filter_cons_of_pos (hg x), cget, cget, if_pos rfl, if_pos rfl]
    · rw [cget, if_neg hc] at h ⊢
      by_cases hb : b < c
      · rw [if_pos hb] at h; exact absurd rfl h
      · rw [if_neg hb] at h ⊢
        rw [List.filter_cons]
        split
        · rw [cget, if_neg hc, if_neg hb]; exact cget_filter_of_ne h hg
        · exact cget_filter_of_ne h hg

/-- An address that no entry has reads as the default. -/
theorem cget_of_not_listed {d : α} : ∀ {m : List (Nat × α)} {a : Nat}, (∀ p ∈ m, p.1 ≠ a) → cget d m a = d
  | [], _, _ => rfl
  | (b, x) :: m, a, h => by
    rw [cget, if_neg (h (b, x) (List.mem_cons_self ..)).symm]
    split
    · rfl
    · exact cget_of_not_listed fun p hp => h p (List.mem_cons_of_mem _ hp)

/-- The registers that carry the timebase's state, STAGE and READY, the states of the dies and Betony's state. -/
def keyRegs : List Nat := [ZG_TIME_STATUS, ZG_BOOT_STATE, ZG_BOOT_DIES, ZG_MGT_STATE]

/-- A register that may be written when of the key registers only those of `w` may. -/
def Free (w : List Nat) (a : Nat) : Prop := a ∈ keyRegs → a ∈ w

theorem free_of_ge {w : List Nat} {a : Nat} (h : 0x100000 ≤ a) : Free w a := by
  intro ha
  simp only [keyRegs, List.mem_cons, List.not_mem_nil, or_false, ZG_TIME_STATUS, ZG_BOOT_STATE, ZG_BOOT_DIES, ZG_MGT_STATE] at ha
  omega

/-- A register of a die. -/
theorem free_die {w : List Nat} (d off : Nat) : Free w (dieBase d + off) := free_of_ge (by rw [dieBase]; omega)

/-- A register of an array of registers of a die. -/
theorem free_dieAt {w : List Nat} (d off k : Nat) : Free w (dieBase d + off + k) := free_of_ge (by rw [dieBase]; omega)

/-- A register of the package that is no key register. -/
theorem free_pkg {w : List Nat} {a : Nat} (h : a ∉ keyRegs) : Free w a := fun ha => absurd ha h

/-- A register that each function has of its own. -/
theorem free_fn {w : List Nat} (f : Nat) {off : Nat} (hlt : off < 0x200000) (h : off ∉ keyRegs) : Free w (regKey f off) := by
  rcases Nat.eq_zero_or_pos f with rfl | hf
  · exact free_pkg (by simpa [regKey] using h)
  · exact free_of_ge (by rw [regKey]; omega)

/-- From state `s` to state `t` only key registers of `w` change, and of the other parts these do not: the timebase, the commands that
wait, the page tables, the host link, the start-up count, the minimum security version, the limits and the plan of the store, the
progress of bring-up; and no wait is added. Where `e`, the change is no more than events and accesses to memory make: Wefin,
the links between dies, the queues and the repair map are as they were. -/
structure Keeps (e : Bool) (w : List Nat) (s t : State) : Prop where
  canon : cwf 0 s.regs = true → cwf 0 t.regs = true
  reg : ∀ a ∈ keyRegs, a ∉ w → cwf 0 s.regs = true ∨ s.reg a ≠ 0 → t.reg a = s.reg a
  time : t.time = s.time
  pending : t.pending = s.pending
  pt : t.hbm.pt = s.hbm.pt
  linkUp : t.host.linkUp = s.host.linkUp
  store : t.store.startups = s.store.startups ∧ t.store.minSvn = s.store.minSvn ∧ t.store.limits = s.store.limits
    ∧ t.store.plan = s.store.plan
  boot : t.boot = { s.boot with health := t.boot.health, refused := t.boot.refused }
  waits : ∀ x ∈ t.syn.waits, x ∈ s.syn.waits
  told : e = true → t.wfn = s.wfn ∧ t.d2d = s.d2d ∧ t.host.queues = s.host.queues
    ∧ t.boot.health.filter (fun x => x.kind == 1) = s.boot.health.filter (fun x => x.kind == 1)

namespace Keeps
variable {e : Bool} {w : List Nat} {s0 s t : State}

theorem refl (s : State) : Keeps e w s s :=
  ⟨id, fun _ _ _ _ => rfl, rfl, rfl, rfl, rfl, ⟨rfl, rfl, rfl, rfl⟩, rfl, fun _ h => h, fun _ => ⟨rfl, rfl, rfl, rfl⟩⟩

theorem trans (h : Keeps e w s0 s) (k : Keeps e w s t) : Keeps e w s0 t where
  canon := k.canon ∘ h.canon
  reg a ha hw hs := by
    have hsa := h.reg a ha hw hs
    exact (k.reg a ha hw (hs.imp h.canon fun hn => hsa ▸ hn)).trans hsa
  time := k.time.trans h.time
  pending := k.pending.trans h.pending
  pt := k.pt.trans h.pt
  linkUp := k.linkUp.trans h.linkUp
  store := by
    obtain ⟨h1, h2, h3, h4⟩ := h.store
    obtain ⟨k1, k2, k3, k4⟩ := k.store
    exact ⟨k1.trans h1, k2.trans h2, k3.trans h3, k4.trans h4⟩
  boot := by rw [k.boot, h.boot]
  waits x hx := h.waits x (k.waits x hx)
  told he := by
    obtain ⟨h1, h2, h3, h4⟩ := h.told he
    obtain ⟨k1, k2, k3, k4⟩ := k.told he
    exact ⟨k1.trans h1, k2.trans h2, k3.trans h3, k4.trans h4⟩

/-- What only events do, more may do. -/
theorem work (h : Keeps true w s t) : Keeps e w s t := { h with told := fun _ => h.told rfl }

theorem ite {c : Prop} [Decidable c] (ht : c → Keeps e w s0 s) (hf : ¬c → Keeps e w s0 t) : Keeps e w s0 (if c then s else t) := by
  split
  · exact ht ‹_›
  · exact hf ‹_›

theorem foldl {β : Type} {g : State → β → State} (hg : ∀ s b, Keeps e w s0 s → Keeps e w s0 (g s b)) :
    ∀ (l : List β) {s : State}, Keeps e w s0 s → Keeps e w s0 (l.foldl g s)
  | [], _, h => h
  | b :: l, s, h => foldl hg l (hg s b h)

/-! Parts of the state that are not kept -/

theorem withBanks (h : Keeps e w s0 s) (x) : Keeps e w s0 { s with banks := x } := { h with }
theorem withPower (h : Keeps e w s0 s) (x) : Keeps e w s0 { s with power := x } := { h with }
theorem withMgt (h : Keeps e w s0 s) (x) : Keeps e w s0 { s with mgt := x } := { h with }
theorem withPins (h : Keeps e w s0 s) (x) : Keeps e w s0 { s with pins := x } := { h with }
theorem withClu (h : Keeps e w s0 s) (x) : Keeps e w s0 { s with clu := x } := { h with }
theorem withTile (h : Keeps e w s0 s) (x) : Keeps e w s0 { s with tile := x } := { h with }
theorem withColl (h : Keeps e w s0 s) (x) : Keeps e w s0 { s with coll := x } := { h with }
theorem withInteg (h : Keeps e w s0 s) (x) : Keeps e w s0 { s with integ := x } := { h with }
theorem withTrn (h : Keeps e w s0 s) (x) : Keeps e w s0 { s with trn := x } := { h with }
theorem withSrl (h : Keeps e w s0 s) (x) : Keeps e w s0 { s with srl := x } := { h with }
theorem withOpenCount (h : Keeps e w s0 s) (x) : Keeps e w s0 { s with openCount := x } := { h with }
theorem withWfn (h : Keeps false w s0 s) (x) : Keeps false w s0 { s with wfn := x } := { h with told := nofun }
theorem withD2d (h : Keeps false w s0 s) (x) : Keeps false w s0 { s with d2d := x } := { h with told := nofun }

/-- HBM beside its page tables. -/
theorem withHbm (h : Keeps e w s0 s) (x : HbmSt) (hpt : x.pt = s.hbm.pt := by rfl) : Keeps e w s0 { s with hbm := x } :=
  { h with pt := hpt.trans h.pt }

/-- The host port beside its link and its queues. -/
theorem withHost (h : Keeps e w s0 s) (x : HostSt) (hl : x.linkUp = s.host.linkUp := by rfl)
    (hq : x.queues = s.host.queues := by rfl) :
    Keeps e w s0 { s with host := x } :=
  { h with linkUp := hl.trans h.linkUp, told := fun he => by
            obtain ⟨h1, h2, h3, h4⟩ := h.told he
            exact ⟨h1, h2, hq.trans h3, h4⟩ }

/-- The host port beside its link. -/
theorem withQueues (h : Keeps false w s0 s) (x : HostSt) (hl : x.linkUp = s.host.linkUp := by rfl) : Keeps false w s0 { s with host := x } :=
  { h with linkUp := hl.trans h.linkUp, told := nofun }

/-- Synchronisation state with no wait added. -/
theorem withSyn (h : Keeps e w s0 s) (x : SynSt) (hx : ∀ y ∈ x.waits, y ∈ s.syn.waits) : Keeps e w s0 { s with syn := x } :=
  { h with waits := fun y hy => h.waits y (hx y hy) }

/-! Registers and counters -/

/-- A register file in which one register is written. -/
theorem withReg (h : Keeps e w s0 s) {a : Nat} (ha : Free w a) (v : Word64) : Keeps e w s0 { s with regs := cset 0 s.regs a v } := by
  have hreg : ∀ b ∈ keyRegs, b ∉ w → cwf 0 s0.regs = true ∨ s0.reg b ≠ 0 → cget 0 (cset 0 s.regs a v) b = s0.reg b := by
    intro b hb hbw hs
    have hba : b ≠ a := fun hba => hbw (hba ▸ ha (hba ▸ hb))
    have hsb := h.reg b hb hbw hs
    rcases hs with hc | hn
    · exact (cget_cset_ne 0 v (h.canon hc) hba).trans hsb
    · rw [cget_cset_ne_of_ne v (ne_of_eq_of_ne hsb hn) hba]; exact hsb
  exact { h with canon := fun hc => cwf_cset a v (h.canon hc), reg := hreg }

end Keeps
end Sys2Proof.Machine
end

section
/-! What writes of registers, accesses to host memory and events leave (`Keeps`). -/
namespace Sys2Proof.Machine
open Sys2Proof
namespace Keeps
variable {e : Bool} {w : List Nat} {s0 s t : State}

theorem setReg (h : Keeps e w s0 s) {a : Nat} (ha : Free w a) (v : Word64) : Keeps e w s0 (s.setReg a v) := h.withReg ha v
theorem setRegN (h : Keeps e w s0 s) {a : Nat} (ha : Free w a) (v : Nat) : Keeps e w s0 (s.setRegN a v) := h.withReg ha _
theorem setRfld (h : Keeps e w s0 s) {a : Nat} (ha : Free w a) (hi lo v : Nat) : Keeps e w s0 (s.setRfld a hi lo v) := h.withReg ha _
theorem setRegF (h : Keeps e w s0 s) {f a : Nat} (ha : Free w (regKey f a)) (v : Word64) : Keeps e w s0 (s.setRegF f a v) := h.withReg ha v

theorem bumpKey (h : Keeps e w s0 s) {a : Nat} (ha : Free w a) (n : Nat) : Keeps e w s0 (bumpKey a n s) := by
  rw [bumpKey_rest, bumpKey_regs]
  exact (h.withReg ha _).withMgt _

theorem bump (h : Keeps e w s0 s) {a : Nat} (ha : Free w a) (n : Nat) : Keeps e w s0 (bump a n s) := h.bumpKey ha n
theorem bumpF (h : Keeps e w s0 s) {f a : Nat} (ha : Free w (regKey f a)) (n : Nat) : Keeps e w s0 (bumpF f a n s) := h.bumpKey ha n

theorem pmcCount (h : Keeps e w s0 s) (d ev : Nat) (p : Option Nat) (n : Nat) : Keeps e w s0 (pmcCount d ev p n s) :=
  foldl (fun _ _ h => .ite (fun _ => h.bump (free_dieAt _ _ _) _) fun _ => h) _ h

/-! Memory, functions and interrupts -/

theorem hbmPut (h : Keeps e w s0 s) (pa : Nat) (bs : List Byte) : Keeps e w s0 (s.hbmPut pa bs) := h.withHbm _
theorem hbmPut2 (h : Keeps e w s0 s) (pa m : Nat) (bs : List Byte) : Keeps e w s0 (s.hbmPut2 pa m bs) := (h.hbmPut _ _).hbmPut _ _
theorem setFrameByte (h : Keeps e w s0 s) (d f v : Nat) : Keeps e w s0 (s.setFrameByte d f v) := h.hbmPut2 _ _ _
theorem setFn (h : Keeps e w s0 s) (f : Nat) (x : Fn) : Keeps e w s0 (s.setFn f x) := h.withHost _
theorem setVector (h : Keeps e w s0 s) (f v : Nat) (x : Vector) : Keeps e w s0 (s.setVector f v x) := h.withHost _
theorem setAlarm (h : Keeps e w s0 s) (k : Nat) (a : Alarm) : Keeps e w s0 (s.setAlarm k a) := h.withMgt _
theorem setStack (h : Keeps e w s0 s) (m : Nat) (x : Stack) : Keeps e w s0 (s.setStack m x) := h.withHbm _

theorem sendInterrupt (h : Keeps e w s0 s) (f v : Nat) : Keeps e w s0 (sendInterrupt f v s) := (h.setVector _ _ _).withHost _

theorem interruptDue (h : Keeps e w s0 s) (f v us : Nat) : Keeps e w s0 (interruptDue f v us s) :=
  .ite (fun _ => h) fun _ => .ite (fun _ => h.setVector _ _ _) fun _ => h.sendInterrupt _ _

/-! ### Events -/

/-- A way of writing ring records that is no more than an access to memory. -/
def Put (put : RingWriter) : Prop :=
  ∀ (e : Bool) (w : List Nat) (s0 s t : State) (f d : Nat) (hbm : Bool) (a : Nat) (bs : List Byte),
    Keeps e w s0 s → put f d hbm a bs s = some t → Keeps e w s0 t

theorem put_hostWriter : Put hostWriter := by
  rintro e w s0 s t f d hbm a bs h ht
  obtain rfl := Option.some.inj ht
  exact .ite (fun _ => h) fun _ => h.withHost _

section
variable {put : RingWriter} (hput : Put put)
include hput

theorem assignBy (h : Keeps e w s0 s) (f : Nat) (ev : Ev) (src : Nat) : Keeps e w s0 (assignBy put f ev src s) := by
  unfold Machine.assignBy
  refine .ite (fun _ => .ite (fun _ => ?_) fun _ => h.setFn _ _) fun _ => h.setFn _ _
  split
  · next ht => exact (hput _ _ _ _ _ _ _ _ _ _ (h.setFn _ _) ht).sendInterrupt _ _
  · exact h.setFn _ _

theorem announceBy (h : Keeps e w s0 s) (f : Nat) : Keeps e w s0 (announceBy put f s) :=
  .ite (fun _ => h) fun _ => (h.setFn _ _).assignBy hput _ _ _

theorem postBy (h : Keeps e w s0 s) (f : Nat) (ev : Ev) : Keeps e w s0 (postBy put f ev s) := by
  unfold Machine.postBy
  have hp (k : Nat) := (h.announceBy hput f).assignBy hput f ev k
  dsimp only
  split
  · exact .ite (fun _ => h.withHost _) fun _ => .ite (fun _ => (hp _).withHost _) fun _ => hp _
  · exact .ite (fun _ => (hp _).withHost _) fun _ => hp _

omit hput in
theorem pushLog (h : Keeps e w s0 s) (r : LogRec) : Keeps e w s0 (pushLog r s) :=
  have hh (n : Nat) : Keeps e w s0 (s.setRegN ZG_MGT_LOG_HEAD n) := h.setRegN (free_pkg (by decide)) n
  .ite (fun _ => ((hh _).bump (free_pkg (by decide)) _).withMgt _) fun _ =>
    .ite (fun _ => (hh _).withMgt _) fun _ => ((hh _).withMgt _).postBy put_hostWriter _ _

omit hput in
theorem refreshAlert (h : Keeps e w s0 s) : Keeps e w s0 (refreshAlert s) := (h.setRegN (free_pkg (by decide)) _).withPins _

omit hput in
theorem requestIbi (h : Keeps e w s0 s) (k : Nat) : Keeps e w s0 (requestIbi k s) :=
  .ite (fun _ => h.withMgt _) fun _ => h

theorem noticeBy (h : Keeps e w s0 s) (ev : Ev) (n : Nat) (c : Bool) : Keeps e w s0 (noticeBy put ev n c s) :=
  .ite (fun _ => h.setAlarm _ _) fun _ => ((h.pushLog _).announceBy hput _).assignBy hput _ _ _

theorem occurBy (h : Keeps e w s0 s) (ev : Ev) : Keeps e w s0 (occurBy put ev s) :=
  .ite (fun _ => h.setAlarm _ _) fun _ => ((h.setAlarm _ _).noticeBy hput _ _ _).refreshAlert.requestIbi _

theorem raiseBy (h : Keeps e w s0 s) (ev : Ev) : Keeps e w s0 (raiseBy put ev s) := by
  unfold Machine.raiseBy
  have hl (r : LogRec) : Keeps e w s0 (if ev.log then Machine.pushLog r s else s) := .ite (fun _ => h.pushLog r) fun _ => h
  extract_lets s1 s2
  have h2 : Keeps e w s0 s2 := by
    unfold s2
    split
    · exact (hl _).postBy hput _ _
    · exact hl _
  exact .ite (fun _ => h2.occurBy hput _) fun _ => .ite (fun _ => h2.postBy hput _ _) fun _ => h2
end

theorem raisePf (h : Keeps e w s0 s) (ev : Ev) : Keeps e w s0 (raisePf ev s) := h.raiseBy put_hostWriter ev
theorem logRegister (h : Keeps e w s0 s) (a b c d n : Nat) : Keeps e w s0 (logRegister a b c d n s) := h.pushLog _

end Keeps
end Sys2Proof.Machine
end

section
/-! What accesses to HBM and the events that rings in HBM take leave (`Keeps`). -/
namespace Sys2Proof.Machine
open Sys2Proof
namespace Keeps
variable {e : Bool} {w : List Nat} {s0 s t : State}

/-! ### HBM below the commands -/

/-- The record of health and its refusals are not kept, the repair map in it is. -/
theorem withHealth (h : Keeps e w s0 s) (x : List HealthEntry) (n : Nat)
    (hx : e = true → x.filter (fun y => y.kind == 1) = s.boot.health.filter (fun y => y.kind == 1)) :
    Keeps e w s0 { s with boot := { s.boot with health := x, refused := n } } :=
  { h with boot := by rw [h.boot]
           told := fun he => by
            obtain ⟨h1, h2, h3, h4⟩ := h.told he
            exact ⟨h1, h2, h3, (hx he).trans h4⟩ }

/-- The store's health record is not kept. -/
theorem withStoreHealth (h : Keeps e w s0 s) (x : List HealthEntry) : Keeps e w s0 { s with store := { s.store with health := x } } :=
  { h with }

/-- The health record takes an entry, for an event one that is none of the repair map. -/
theorem addHealth (h : Keeps e w s0 s) {x : HealthEntry} (hx : e = true → x.kind ≠ 1) : Keeps e w s0 (addHealth x s) := by
  unfold Machine.addHealth
  extract_lets _ s1
  have h1 : Keeps e w s0 s1 := .ite (fun _ => h) fun _ => h.withHealth _ _ fun he => by simp [hx he]
  clear_value s1
  exact .ite (fun _ => h1) fun _ => .ite (fun _ => h1.withStoreHealth _) fun _ => (h1.withHealth _ _ fun _ => rfl).raisePf _

theorem errRecordAt (h : Keeps e w s0 s) (kind pa m pc n a b : Nat) : Keeps e w s0 (errRecordAt kind pa m pc n a b s) := by
  unfold Machine.errRecordAt
  refine .ite (fun _ => ?_) fun _ => ?_
  · exact ((h.withHbm _).hbmPut2 _ _ _).hbmPut2 _ _ _
  · extract_lets seq a s1 _ s2 s3
    have h3 : Keeps e w s0 s3 := ((h.setRfld (free_die _ _) _ _ _).withHbm _).hbmPut2 _ _ _
    clear_value s3
    exact .ite (fun _ => h3) fun _ => h3.raisePf _

theorem errRecord (h : Keeps e w s0 s) (kind pa n a b : Nat) : Keeps e w s0 (errRecord kind pa n a b s) := h.errRecordAt _ _ _ _ _ _ _

theorem markRetire (h : Keeps e w s0 s) (g pa : Nat) : Keeps e w s0 (markRetire g pa s) :=
  .ite (fun _ => h) fun _ => h.addHealth (by simp)

theorem countRow (h : Keeps e w s0 s) (pa : Nat) : Keeps e w s0 (countRow pa s) := by
  unfold Machine.countRow
  refine .ite (fun _ => ?_) fun _ => h.withHbm _
  exact (((h.withHbm _).setRfld (free_dieAt _ _ _) _ _ _).addHealth (by simp)).errRecord _ _ _ _ _

theorem correctBlock (h : Keeps e w s0 s) (kind pa : Nat) (fix : List (Nat × Nat)) : Keeps e w s0 (correctBlock kind pa fix s) :=
  (((h.bump (free_dieAt _ _ _) _).setStack _ _).errRecord _ _ _ _ _).countRow _

theorem loseBlock (h : Keeps e w s0 s) (kind pa : Nat) : Keeps e w s0 (loseBlock kind pa s) :=
  ((h.bump (free_die _ _) _).errRecord _ _ _ _ _).markRetire _ _

theorem readBlock (h : Keeps e w s0 s) (pa : Nat) : Keeps e w s0 (readBlock pa s).2 := by
  unfold Machine.readBlock
  dsimp only
  split
  · exact h
  · split
    · exact h
    · exact h.correctBlock _ _ _
    · exact h.loseBlock _ _

theorem blockStore (h : Keeps e w s0 s) (pa : Nat) (bs : List Byte) : Keeps e w s0 (blockStore pa bs s) :=
  .ite (fun _ => (h.hbmPut _ _).withHbm _) fun _ => h.hbmPut _ _

theorem blockWrite (h : Keeps e w s0 s) (pa : Nat) (bs : List Byte) : Keeps e w s0 (blockWrite pa bs s).2 := by
  have hr := h.readBlock pa
  unfold Machine.blockWrite
  split
  · exact h.blockStore _ _
  · split
    · next hb => rw [hb] at hr; exact hr.blockStore _ _
    · next hb => rw [hb] at hr; exact hr

theorem mirroredLine (h : Keeps e w s0 s) (a : Nat) : Keeps e w s0 (mirroredLine a s).2 := by
  have hb : Keeps e w s0 (Machine.bump (ZG_HBM_UE (dieOf a)) 1 s) := h.bump (free_die _ _) _
  have repair {s : State} (h : Keeps e w s0 s) (b : Nat) (bs : List Byte) :
      Keeps e w s0 (Machine.errRecord 4 a 0 255 255 (Machine.blockStore b bs s)) := (h.blockStore _ _).errRecord _ _ _ _ _
  unfold Machine.mirroredLine
  split
  · exact h
  · exact h.correctBlock _ _ _
  · dsimp only
    split
    · exact repair hb _ _
    · exact repair (hb.correctBlock _ _ _) _ _
    · exact hb.bump (free_die _ _) _

theorem loseLine (h : Keeps e w s0 s) (key a : Nat) (gs : List Nat) : Keeps e w s0 (loseLine key a gs s) :=
  .ite (fun _ => h) fun _ => foldl (fun _ _ h => h.markRetire _ _) _ (Keeps.errRecord (h.withHbm _) _ _ _ _ _)

theorem frameLine (h : Keeps e w s0 s) (g : Nat) : Keeps e w s0 (frameLine g s).2 := by
  have hm := h.mirroredLine (frameAddr (g / 131072) (g % 131072))
  unfold Machine.frameLine
  split
  · exact h
  · split
    · exact h
    · dsimp only
      split
      · next hb => rw [hb] at hm; exact hm
      · next hb => rw [hb] at hm; exact hm.loseLine _ _ _

theorem writeMapLine (h : Keeps e w s0 s) (g : Nat) : Keeps e w s0 (writeMapLine g s) := by
  unfold Machine.writeMapLine
  exact (h.blockStore _ _).blockStore _ _

theorem trimCache (h : Keeps e w s0 s) : Keeps e w s0 (trimCache s) := by
  unfold Machine.trimCache
  split
  · exact .ite (fun _ => .ite (fun _ => (h.withHbm _).writeMapLine _) fun _ => h.withHbm _) fun _ => h
  · exact h

theorem holdLine (h : Keeps e w s0 s) (g : Nat) (c : Bool) : Keeps e w s0 (holdLine g c s) := by
  unfold Machine.holdLine
  dsimp only
  split
  · exact .ite (fun _ => (h.withHbm _).trimCache) fun _ => h.withHbm _
  · exact h.withHbm _

theorem consultMap (h : Keeps e w s0 s) (g : Nat) : Keeps e w s0 (consultMap g s).2 := by
  unfold Machine.consultMap
  split
  · exact h
  · split
    · exact h
    · split
      · exact h
      · extract_lets s1
        have h1 : Keeps e w s0 s1 := h.pmcCount _ _ _ _
        clear_value s1
        have hm := h1.mirroredLine (mapLineAddr g)
        split
        · exact h1.holdLine _ _
        · split
          · next hb => rw [hb] at hm; exact hm.holdLine _ _
          · next hb => rw [hb] at hm; exact hm.loseLine _ _ _

theorem materialise (h : Keeps e w s0 s) (pa : Nat) : Keeps e w s0 (materialise pa s) := by
  unfold Machine.materialise
  refine .ite (fun _ => h) fun _ => ?_
  extract_lets g a v fr _ s1 s2
  have h2 : Keeps e w s0 s2 := (h.withHbm _).hbmPut2 _ _ _
  clear_value s2
  exact .ite (fun _ => h2.withHbm _) fun _ => h2

/-! ### Accesses -/

/-- What an access leaves, however it ends. -/
def Acc (e : Bool) (w : List Nat) (s0 : State) {α : Type} : Machine.Acc α → Prop
  | .ok _ s => Keeps e w s0 s
  | .fault _ _ s => Keeps e w s0 s
  | .wait _ _ s => Keeps e w s0 s

theorem Acc.bind {α β : Type} {x : Machine.Acc α} {g : α → State → Machine.Acc β} (hx : Acc e w s0 x)
    (hg : ∀ a s, Keeps e w s0 s → Acc e w s0 (g a s)) : Acc e w s0 (x.bind g) := by
  cases x with
  | ok a s => exact hg a s hx
  | fault k va s => exact hx
  | wait m va s => exact hx

theorem readTables : ∀ (as : List Nat) {s : State}, Keeps e w s0 s → Keeps e w s0 (readTables as s).2
  | [], _, h => h
  | a :: as, s, h => by
    have hr := h.readBlock a
    unfold Machine.readTables
    split
    · next hb => rw [hb] at hr; exact readTables as hr
    · next hb => rw [hb] at hr; exact hr

theorem lookUp (h : Keeps e w s0 s) (rq : Req) (va : Nat) : Acc e w s0 (lookUp rq va s) := by
  have hc : Keeps e w s0 (Machine.pmcCount rq.die 0x0A none 1 s) := h.pmcCount _ _ _ _
  have ht := readTables (walkReads s rq.part rq.bank va) hc
  unfold Machine.lookUp
  dsimp only
  split
  · exact h
  · split
    · split <;> exact h
    · split
      · next hb => rw [hb] at ht; exact ht
      · next s1 hb =>
        rw [hb] at ht
        split
        · exact ht
        · next pa _ _ =>
          have hf := frameLine ht (frameNo pa)
          split
          · next hb => rw [hb] at hf; exact hf
          · next hb =>
            rw [hb] at hf
            split
            · exact hf.withHbm _
            · exact hf

theorem enterStack (h : Keeps e w s0 s) (rq : Req) (m : Nat) : Keeps e w s0 (enterStack rq m s) :=
  .ite (fun _ => (h.setStack _ _).withHbm _) fun _ => h

theorem translate (h : Keeps e w s0 s) (rq : Req) (va : Nat) (wr : Bool) : Acc e w s0 (translate rq va wr s) := by
  refine Acc.bind (h.lookUp rq va) fun x s h => ?_
  dsimp only
  split
  · exact h
  · split
    · exact h
    · split
      · exact h
      · exact h
      · split
        · exact h.enterStack _ _
        · exact h

theorem vaWritePart (h : Keeps e w s0 s) (rq : Req) (va : Nat) (bs : List Byte) : Acc e w s0 (vaWritePart rq va bs s) := by
  refine Acc.bind (h.translate rq va true) fun pa s h => ?_
  have hc := h.consultMap (frameNo pa)
  split
  · next hb => rw [hb] at hc; exact hc
  · next s1 hb =>
    rw [hb] at hc
    have hw := ((hc.pmcCount rq.die 5 (some rq.part) 1).materialise pa).blockWrite pa bs
    split
    · next hb => rw [hb] at hw; exact hw
    · next hb => rw [hb] at hw; exact hw

theorem vaWriteN (rq : Req) : ∀ (k va : Nat) (bs : List Byte) {s : State}, Keeps e w s0 s → Acc e w s0 (vaWriteN rq k va bs s)
  | 0, _, _, _, h => h
  | k + 1, va, bs, s, h => by
    unfold Machine.vaWriteN
    split
    · exact h
    · exact Acc.bind (h.vaWritePart rq _ _) fun _ _ h => vaWriteN rq k _ _ h

theorem vaWrite (h : Keeps e w s0 s) (rq : Req) (va : Nat) (bs : List Byte) : Acc e w s0 (vaWrite rq va bs s) := vaWriteN rq _ _ _ h

/-! ### Faults and the rings in HBM -/

theorem noteFault (h : Keeps e w s0 s) (rq : Req) (k va : Nat) : Keeps e w s0 (noteFault rq k va s) :=
  (((h.setRegN (free_die _ _) _).setRegN (free_die _ _) _).bump (free_die _ _) _).logRegister _ _ _ _ _

theorem put_ringWrite : Put ringWrite := by
  rintro e w s0 s t f d hbm a bs h ht
  have hw := Keeps.vaWrite h (s.ringReq f d) a bs
  unfold ringWrite at ht
  split at ht
  · exact put_hostWriter _ _ _ _ _ _ _ _ _ _ h ht
  · dsimp only at ht
    split at ht
    · next hb => rw [hb] at hw; obtain rfl := Option.some.inj ht; exact hw
    · exact absurd ht (by simp)
    · next hb =>
      rw [hb] at hw
      split at ht
      · exact absurd ht (by simp)
      · obtain rfl := Option.some.inj ht
        exact .ite (fun _ => noteFault hw _ _ _) fun _ => hw

theorem postEvent (h : Keeps e w s0 s) (f : Nat) (ev : Ev) : Keeps e w s0 (postEvent f ev s) := h.postBy put_ringWrite _ _
theorem raiseEvent (h : Keeps e w s0 s) (ev : Ev) : Keeps e w s0 (raiseEvent ev s) := h.raiseBy put_ringWrite _
theorem raiseAlarm (h : Keeps e w s0 s) (a b c d : Nat) : Keeps e w s0 (raiseAlarm a b c d s) := h.occurBy put_ringWrite _
theorem recordFault (h : Keeps e w s0 s) (rq : Req) (k va : Nat) : Keeps e w s0 (recordFault rq k va s) :=
  .ite (fun _ => h) fun _ => (h.noteFault _ _ _).raiseEvent _

end Keeps
end Sys2Proof.Machine
end

section
/-! The steps of a package: the command at the front, or a nanosecond. -/
namespace Sys2Proof.Machine
open Sys2Proof

theorem Keeps.wefinEvent {e : Bool} {w : List Nat} {s0 s : State} (h : Keeps e w s0 s) (code src port data : Nat) (crit : Bool) :
    Keeps e w s0 (wefinEvent code src port data crit s) := by
  unfold Machine.wefinEvent
  extract_lets seq s1
  have h1 : Keeps e w s0 s1 := .ite (fun _ => h) fun _ => (h.setRegN (free_die _ _) _).setRegN (free_die _ _) _
  exact h1.raiseEvent _

/-! ### Time of an idle package -/

theorem step_idle {s : State} (h : s.pending = []) : step s = .next (tick s) := by rw [step, h]

theorem tick_of_stopped {s : State} (h : s.rfld ZG_TIME_STATUS 0 0 = 0) : tick s = s := if_pos h

/-- SLEW_PPM as a signed number. -/
def State.slew (s : State) : Int := sext 16 (s.rfld ZG_TIME_STATUS 31 16)

theorem slew_range (s : State) : -32768 ≤ s.slew ∧ s.slew < 32768 := by
  have h1 := BitVec.le_toInt (BitVec.ofNat 16 (s.rfld ZG_TIME_STATUS 31 16))
  have h2 := BitVec.toInt_lt (x := BitVec.ofNat 16 (s.rfld ZG_TIME_STATUS 31 16))
  exact ⟨h1, h2⟩

theorem tick_of_running {s : State} (h : s.rfld ZG_TIME_STATUS 0 0 ≠ 0) :
    (tick s).time.now = ((s.time.now : Int) + 1 + (s.time.slewRem + s.slew) / 1000000).toNat
      ∧ (tick s).time.slewRem = (s.time.slewRem + s.slew) % 1000000
      ∧ (tick s).time.replica = s.time.replica.map (replicaTick (tick s).time.now) := by
  rw [tick, if_neg h]; exact ⟨rfl, rfl, rfl⟩

/-- Only the timebase, its remainder and the replicas move. -/
theorem tick_rest (s : State) : { tick s with time := s.time } = s
    ∧ { (tick s).time with now := s.time.now, slewRem := s.time.slewRem, replica := s.time.replica } = s.time := by
  rw [tick]; split <;> exact ⟨rfl, rfl⟩

theorem tick_now_ge {s : State} (h : 0 ≤ s.time.slewRem) : s.time.now ≤ (tick s).time.now ∧ 0 ≤ (tick s).time.slewRem := by
  by_cases hr : s.rfld ZG_TIME_STATUS 0 0 = 0
  · rw [tick_of_stopped hr]; exact ⟨Nat.le_refl _, h⟩
  · obtain ⟨hn, hs, -⟩ := tick_of_running hr
    have hrange := slew_range s
    rw [hn, hs]; omega

theorem replicaTick_near (now r : Nat) : replicaTick now r ≤ now + 4 ∧ now ≤ replicaTick now r + 4 := by
  unfold replicaTick; omega

/-- Settles O1: taking the command from the queue is all that a step adds to its execution. -/
theorem stepRunsTheCommandAtTheFront : Obligations.StepRunsTheCommandAtTheFront := fun _ _ _ => rfl

/-- Settles O2: the idle step is `tick`, which by a running timebase adds the slew to the remainder and carries. -/
theorem idleStepAdvancesTheTimebaseOnly : Obligations.IdleStepAdvancesTheTimebaseOnly := by
  intro s hs
  obtain ⟨hrest, htime⟩ := tick_rest s
  refine ⟨tick s, step_idle hs, hrest, htime, fun hrun hlen d hd => ?_, tick_of_stopped, fun hrun ppm hppm hlo hhi hrem hrem' => ?_⟩
  · obtain ⟨-, -, hrep⟩ := tick_of_running (s := s) (by omega)
    have hd' : d < s.time.replica.length := hlen ▸ hd
    have hr : (tick s).replicaOf d = replicaTick (tick s).time.now s.time.replica[d] := by simp [State.replicaOf, hrep, hd']
    rw [hr]
    exact replicaTick_near _ _
  · obtain ⟨hn, hr, -⟩ := tick_of_running (s := s) (by omega)
    rw [hn, hr, show s.slew = ppm from hppm.symm]
    omega

end Sys2Proof.Machine
end

section
/-! Alignment of the timebase, the beat monitors and the service modes. -/
namespace Sys2Proof.Machine
open Sys2Proof

theorem regs_of_canonical {s : State} (h : s.canonical = true) : cwf 0 s.regs = true := by
  simp only [State.canonical, Bool.and_eq_true] at h
  tauto

/-! ### Exchanges with the parent -/

theorem execTimeRequest_due {s : State} {p : Nat} (hp : s.timeParent = some p) (hdue : s.wfn.timeReqAt + 100000 ≤ s.now) :
    let w := s.wfn
    let s1 := { s with wfn := { w with timeSeq := (w.timeSeq + 1) % 65536, timeReqAt := s.now, timeWait := true,
                                       timeGood := if w.timeWait then 0 else w.timeGood },
                       boot := { s.boot with thetas := if w.timeWait then [] else s.boot.thetas } }
    exec .timeRequest s = .next (sendOneHop p (toPeer p 1 (timeBody 0 ((w.timeSeq + 1) % 65536) 0 0 s1) s1) s1) := by
  show execTimeRequest s = _
  simp only [execTimeRequest, hp, if_neg (Nat.not_lt.2 hdue)]

theorem takeArrived_wants {p : Nat} {want : List Byte → Bool} {s s0 : State} {a : Arrived} (h : takeArrived p want s = some (a, s0)) :
    want a.bytes = true := by
  unfold takeArrived at h
  split at h
  · exact absurd h (by simp)
  · next hf =>
    obtain ⟨rfl, -⟩ := Prod.mk.inj (Option.some.inj h)
    have hw := List.find?_some hf
    rw [Bool.and_eq_true] at hw
    exact hw.2

/-- A TIME packet that passes the checks of R368 is handed on with the state they leave; no duplicates are kept for its type. -/
theorem receiveTime_of_taken {p msg : Nat} {s s1 : State} {a : Arrived}
    (h : s.packetTaken p (fun b => pkType b == 1 && byteAt b 24 == msg) a s1) (go : Arrived → List Byte → State → State) :
    receiveTime p msg s go = go a (pkBody a.bytes) s1 := by
  obtain ⟨s0, hta, httl, htrail, -, hs1⟩ := h
  have htype : pkType a.bytes = 1 := by
    have hw := takeArrived_wants hta
    rw [Bool.and_eq_true, beq_iff_eq] at hw
    exact hw.1
  rw [if_neg (by omega)] at hs1
  subst hs1
  simp only [receiveTime, hta, receiveChecks, if_neg httl, htrail, htype]
  simp

theorem thetaOf_even {t1 t2 t3 t4 : Nat} {k : Int} (h : (t2 : Int) - t1 - (t4 - t3) = 2 * k) : thetaOf t1 t2 t3 t4 = k := by
  unfold thetaOf; omega

/-! ### What an exchange sets -/

/-- The state with OFFSET_NS, the slew, the run of exchanges and the last offsets of an exchange with a parent of depth `pd`. -/
def thetaNoted (theta : Int) (pd : Nat) (s : State) : State :=
  let s := s.setRfld ZG_TOP_TIME 31 0 (BitVec.ofInt 32 (clampInt (-2147483648) 2147483647 theta)).toNat
  let s := s.setRfld ZG_TIME_STATUS 31 16 (BitVec.ofInt 16 (clampInt (-200) 200 (10 * theta))).toNat
  let s := { s with wfn := { s.wfn with timeGood := if -20 ≤ theta ∧ theta ≤ 20 then s.wfn.timeGood + 1 else 0 } }
  { s with boot := { s.boot with thetas := if pd = 255 then [] else (theta :: s.boot.thetas).take 3 } }

/-- ALIGNED with a DEPTH one below a parent's. -/
def alignedBelow (pd : Nat) (s : State) : State := (s.setRfld ZG_TIME_STATUS 1 1 1).setRfld ZG_TOP_TIME 58 51 (pd + 1)

/-- An exchange with an aligned parent has told ALIGNED, which is an event when it was not. -/
def thetaAligned (theta : Int) (pd : Nat) (s : State) : State :=
  if s.rfld ZG_TIME_STATUS 1 1 = 1 ∨ 10 ≤ (thetaNoted theta pd s).wfn.timeGood then
    if s.rfld ZG_TIME_STATUS 1 1 = 1 then alignedBelow pd (thetaNoted theta pd s)
    else wefinEvent 0x0A 4 31 (1 + (pd + 1) % 256 * 2) false (alignedBelow pd (thetaNoted theta pd s))
  else thetaNoted theta pd s

theorem takeTheta_eq (theta : Int) {pd : Nat} (s : State) (hpd : pd ≠ 255) :
    takeTheta theta pd s =
      let t := alignStep (thetaAligned theta pd s)
      { t with wfn := { t.wfn with timeAt := t.now } } := by
  have hcases : takeTheta theta pd s =
      let t := alignStep (if pd = 255 then (if s.rfld ZG_TIME_STATUS 1 1 = 1 then loseAlignment (thetaNoted theta pd s)
        else thetaNoted theta pd s) else thetaAligned theta pd s)
      { t with wfn := { t.wfn with timeAt := t.now } } := rfl
  rw [hcases, if_neg hpd]

theorem alignStep_of_past {s : State} (h : s.boot.step13 = false) : alignStep s = s := by
  unfold alignStep
  simp [h]

section
variable {s : State} (hw : cwf 0 s.regs = true) (theta : Int) (pd : Nat)
include hw

theorem setOffsetSlew_slew (x : Nat) (y : BitVec 16) :
    ((s.setRfld ZG_TOP_TIME 31 0 x).setRfld ZG_TIME_STATUS 31 16 y.toNat).rfld ZG_TIME_STATUS 31 16 = y.toNat :=
  (State.setRfld_rfld_same (by omega) (.inl (State.setRfld_cwf hw ..))).trans (Nat.mod_eq_of_lt y.isLt)

theorem setOffsetSlew_aligned (x y : Nat) :
    ((s.setRfld ZG_TOP_TIME 31 0 x).setRfld ZG_TIME_STATUS 31 16 y).rfld ZG_TIME_STATUS 1 1 = s.rfld ZG_TIME_STATUS 1 1 :=
  (State.setRfld_rfld_beside (by omega) (by omega) (.inl (State.setRfld_cwf hw ..))).trans (State.setRfld_rfld_other hw (by decide) ..)

theorem thetaNoted_cwf : cwf 0 (thetaNoted theta pd s).regs = true := State.setRfld_cwf (State.setRfld_cwf hw ..) ..

theorem thetaNoted_slew :
    (thetaNoted theta pd s).rfld ZG_TIME_STATUS 31 16 = (BitVec.ofInt 16 (max (-200) (min 200 (10 * theta)))).toNat :=
  setOffsetSlew_slew hw _ _

theorem thetaNoted_aligned : (thetaNoted theta pd s).rfld ZG_TIME_STATUS 1 1 = s.rfld ZG_TIME_STATUS 1 1 :=
  setOffsetSlew_aligned hw _ _

theorem alignedBelow_cwf : cwf 0 (alignedBelow pd s).regs = true := State.setRfld_cwf (State.setRfld_cwf hw ..) ..

theorem alignedBelow_aligned : (alignedBelow pd s).rfld ZG_TIME_STATUS 1 1 = 1 :=
  (State.setRfld_rfld_other (State.setRfld_cwf hw ..) (by decide) ..).trans (State.setRfld_rfld_same (by omega) (.inl hw))

theorem alignedBelow_slew : (alignedBelow pd s).rfld ZG_TIME_STATUS 31 16 = s.rfld ZG_TIME_STATUS 31 16 :=
  (State.setRfld_rfld_other (State.setRfld_cwf hw ..) (by decide) ..).trans
    (State.setRfld_rfld_beside (by omega) (by omega) (.inl hw))
end

/-- What of a state the exchange's own event leaves. -/
theorem wefinEvent_rfld {s : State} (hw : cwf 0 s.regs = true) (code src port data : Nat) (crit : Bool) (hi lo : Nat) :
    (wefinEvent code src port data crit s).rfld ZG_TIME_STATUS hi lo = s.rfld ZG_TIME_STATUS hi lo := by
  rw [State.rfld, State.rfld, ((Keeps.refl (e := true) (w := []) s).wefinEvent code src port data crit).reg ZG_TIME_STATUS (by decide)
    (by simp) (.inl hw)]

theorem thetaAligned_keeps (theta : Int) (pd : Nat) (s : State) :
    (thetaAligned theta pd s).wfn = (thetaNoted theta pd s).wfn ∧ (thetaAligned theta pd s).time = s.time
      ∧ (thetaAligned theta pd s).boot.step13 = s.boot.step13 := by
  unfold thetaAligned
  split
  · split
    · exact ⟨rfl, rfl, rfl⟩
    · have hk := (Keeps.refl (e := true) (w := []) (alignedBelow pd (thetaNoted theta pd s))).wefinEvent 0x0A 4 31
        (1 + (pd + 1) % 256 * 2) false
      obtain ⟨hwfn, -⟩ := hk.told rfl
      exact ⟨hwfn, hk.time, by rw [hk.boot]; rfl⟩
  · exact ⟨rfl, rfl, rfl⟩

section
variable {s : State} (hw : cwf 0 s.regs = true) (theta : Int) (pd : Nat)
include hw

theorem thetaAligned_slew :
    (thetaAligned theta pd s).rfld ZG_TIME_STATUS 31 16 = (BitVec.ofInt 16 (max (-200) (min 200 (10 * theta)))).toNat := by
  have hn := thetaNoted_cwf hw theta pd
  have hbelow := (alignedBelow_slew hn pd).trans (thetaNoted_slew hw theta pd)
  unfold thetaAligned
  split
  · split
    · exact hbelow
    · exact (wefinEvent_rfld (alignedBelow_cwf hn pd) ..).trans hbelow
  · exact thetaNoted_slew hw theta pd

theorem thetaAligned_aligned :
    (thetaAligned theta pd s).rfld ZG_TIME_STATUS 1 1 = 1 ↔
      s.rfld ZG_TIME_STATUS 1 1 = 1 ∨ 10 ≤ (thetaNoted theta pd s).wfn.timeGood := by
  have hn := thetaNoted_cwf hw theta pd
  have hbelow := alignedBelow_aligned hn pd
  unfold thetaAligned
  split
  · next hor =>
    refine iff_of_true ?_ hor
    split
    · exact hbelow
    · exact (wefinEvent_rfld (alignedBelow_cwf hn pd) ..).trans hbelow
  · next hor =>
    rw [thetaNoted_aligned hw]
    exact iff_of_false (fun h => hor (.inl h)) hor
end

/-- Past step 13 an exchange changes no more than the alignment. -/
theorem takeTheta_of_past (theta : Int) {pd : Nat} {s : State} (hpd : pd ≠ 255) (hpast : s.boot.step13 = false) :
    takeTheta theta pd s =
      { thetaAligned theta pd s with wfn := { (thetaAligned theta pd s).wfn with timeAt := (thetaAligned theta pd s).now } } := by
  obtain ⟨-, -, hboot⟩ := thetaAligned_keeps theta pd s
  rw [takeTheta_eq theta s hpd, alignStep_of_past (hboot.trans hpast)]

theorem takeTheta_spec (theta : Int) {pd : Nat} {s : State} (hc : s.canonical = true) (hpast : s.boot.step13 = false) (hpd : pd ≠ 255) :
    let t := takeTheta theta pd s
    t.rfld ZG_TIME_STATUS 31 16 = (BitVec.ofInt 16 (max (-200) (min 200 (10 * theta)))).toNat
      ∧ t.wfn.timeGood = (if -20 ≤ theta ∧ theta ≤ 20 then s.wfn.timeGood + 1 else 0) ∧ t.wfn.timeAt = s.now
      ∧ t.time.now = s.time.now
      ∧ (s.rfld ZG_TIME_STATUS 1 1 = 1 → t.rfld ZG_TIME_STATUS 1 1 = 1)
      ∧ (s.rfld ZG_TIME_STATUS 1 1 = 0 → (t.rfld ZG_TIME_STATUS 1 1 = 1 ↔ 10 ≤ t.wfn.timeGood)) := by
  have hw := regs_of_canonical hc
  obtain ⟨hwfn, htime, -⟩ := thetaAligned_keeps theta pd s
  have hal := thetaAligned_aligned hw theta pd
  intro t
  have ht : t = _ := takeTheta_of_past theta hpd hpast
  have hgood : t.wfn.timeGood = (thetaNoted theta pd s).wfn.timeGood := by rw [ht, ← hwfn]
  have hreg : ∀ hi lo, t.rfld ZG_TIME_STATUS hi lo = (thetaAligned theta pd s).rfld ZG_TIME_STATUS hi lo := fun hi lo => by rw [ht]; rfl
  refine ⟨(hreg 31 16).trans (thetaAligned_slew hw theta pd), hgood, ?_, ?_, fun h1 => ?_, fun h0 => ?_⟩
  · rw [ht]; exact congrArg TimeSt.now htime
  · rw [ht]; exact congrArg TimeSt.now htime
  · rw [hreg, hal]; exact .inl h1
  · rw [hreg, hal, hgood, h0]; simp

/-! ### Alignment lost, and the end of step 13 -/

theorem execAlignmentLost_due {s : State} (hal : s.rfld ZG_TIME_STATUS 1 1 = 1) (href : s.isReference = false)
    (hdue : s.wfn.timeAt + 10000000 ≤ s.now) : exec .alignmentLost s = .next (loseAlignment s) := by
  show execAlignmentLost s = _
  rw [execAlignmentLost, if_pos ⟨hal, href, hdue⟩]

/-- Step 13 ends when the time to wait is over or there is nobody to align with. -/
theorem execAlignWaitExpire_iff {s : State} (h13 : s.boot.step13 = true) (hst : s.stage = 9) :
    exec .alignWaitExpire s = .next
      (if s.planned = false ∨ s.isReference = true ∨ s.boot.step12At + s.rfld ZG_BOOT_CTRL 31 16 * 1000000 ≤ s.now then becomeReady s
       else s) := by
  show execAlignWaitExpire s = _
  simp [execAlignWaitExpire, h13, hst, or_assoc]

/-! ### The beat monitors -/

/-- The count a monitor publishes: zero while its die is held in reset. -/
def beatCount (d : Nat) (s : State) (q : BitVec 16) : Nat :=
  if s.dieState d == 0 || s.dieState d == 4 || s.dieState d == 5 then 0 else q.toNat

/-- A window that has ended with its four rates, its minimum and sequence, and its end. -/
def windowPublished (d quad low seq stamp : Nat) (s : State) : State :=
  bump (ZG_BEAT_COUNT d) low (((s.setRegN (ZG_BEAT_QUAD d) quad).setRegN (ZG_BEAT_WINDOW d) (seq * 65536 + low)).setRegN
    (ZG_BEAT_STAMP d) stamp)

theorem exec_beatWindowPublish {d : Die} (s : State) (q0 q1 q2 q3 : BitVec 16) :
    exec (.beatWindowPublish d q0 q1 q2 q3) s =
      let n := beatCount d s
      if s.windowDue d = false then .next s else
        .next (windowPublished d (n q3 * 2 ^ 48 + n q2 * 2 ^ 32 + n q1 * 65536 + n q0) (min (min (n q0) (n q1)) (min (n q2) (n q3)))
          ((s.rfld (ZG_BEAT_WINDOW d) 47 16 + 1) % 2 ^ 32) (s.windowEnd d) s) := by
  rfl

section
variable {s : State} (hw : cwf 0 s.regs = true) (d quad low seq stamp : Nat)
include hw

theorem windowPublished_reg (a : Nat) : (windowPublished d quad low seq stamp s).reg a =
    if a = ZG_BEAT_COUNT d then s.reg a + BitVec.ofNat 64 low
    else if a = ZG_BEAT_STAMP d then BitVec.ofNat 64 stamp
    else if a = ZG_BEAT_WINDOW d then BitVec.ofNat 64 (seq * 65536 + low)
    else if a = ZG_BEAT_QUAD d then BitVec.ofNat 64 quad else s.reg a := by
  have hq := State.setRegN_cwf hw (ZG_BEAT_QUAD d) quad
  have hwin := State.setRegN_cwf hq (ZG_BEAT_WINDOW d) (seq * 65536 + low)
  have hcount : ZG_BEAT_COUNT d ≠ ZG_BEAT_STAMP d ∧ ZG_BEAT_COUNT d ≠ ZG_BEAT_WINDOW d ∧ ZG_BEAT_COUNT d ≠ ZG_BEAT_QUAD d := by
    simp [ZG_BEAT_COUNT, ZG_BEAT_STAMP, ZG_BEAT_WINDOW, ZG_BEAT_QUAD]
  obtain ⟨hcs, hcw, hcq⟩ := hcount
  rw [windowPublished, bump, bumpKey_reg (State.setRegN_cwf hwin ..), State.setRegN_reg hwin, State.setRegN_reg hwin,
    State.setRegN_reg hq, State.setRegN_reg hq, State.setRegN_reg hw, State.setRegN_reg hw, if_neg hcs, if_neg hcw, if_neg hcq]
  split
  · next ha => rw [ha]
  · rfl

theorem windowPublished_count : (windowPublished d quad low seq stamp s).reg (ZG_BEAT_COUNT d)
    = s.reg (ZG_BEAT_COUNT d) + BitVec.ofNat 64 low := by
  rw [windowPublished_reg hw, if_pos rfl]

theorem windowPublished_stamp : (windowPublished d quad low seq stamp s).reg (ZG_BEAT_STAMP d) = BitVec.ofNat 64 stamp := by
  rw [windowPublished_reg hw]; simp [ZG_BEAT_COUNT, ZG_BEAT_STAMP]

theorem windowPublished_quad : (windowPublished d quad low seq stamp s).reg (ZG_BEAT_QUAD d) = BitVec.ofNat 64 quad := by
  rw [windowPublished_reg hw]; simp [ZG_BEAT_COUNT, ZG_BEAT_STAMP, ZG_BEAT_WINDOW, ZG_BEAT_QUAD]

theorem windowPublished_window (hlow : low < 65536) (hseq : seq < 2 ^ 32) :
    (windowPublished d quad low seq stamp s).rfld (ZG_BEAT_WINDOW d) 15 0 = low
      ∧ (windowPublished d quad low seq stamp s).rfld (ZG_BEAT_WINDOW d) 47 16 = seq := by
  have hreg : (windowPublished d quad low seq stamp s).reg (ZG_BEAT_WINDOW d) = BitVec.ofNat 64 (seq * 65536 + low) := by
    rw [windowPublished_reg hw]; simp [ZG_BEAT_COUNT, ZG_BEAT_STAMP, ZG_BEAT_WINDOW]
  rw [State.rfld, State.rfld, hreg, fld_ofNat (by omega), fld_ofNat (by omega)]
  unfold bitsOf
  omega
end

theorem beatCount_lt (d : Nat) (s : State) (q : BitVec 16) : beatCount d s q < 65536 := by
  unfold beatCount
  split
  · omega
  · exact q.isLt

/-- A window is published when one has ended, with zeros while the die is held in reset. -/
theorem beatWindowPublish_spec (d : Die) (q0 q1 q2 q3 : BitVec 16) {s : State} (hc : s.canonical = true) :
    let off := s.dieState d = 0 ∨ s.dieState d = 4 ∨ s.dieState d = 5
    (s.windowDue d = false → exec (.beatWindowPublish d q0 q1 q2 q3) s = .next s)
      ∧ (s.windowDue d = true → ∃ t, exec (.beatWindowPublish d q0 q1 q2 q3) s = .next t
        ∧ (off → t.reg (ZG_BEAT_QUAD d) = 0 ∧ t.rfld (ZG_BEAT_WINDOW d) 15 0 = 0 ∧ t.reg (ZG_BEAT_COUNT d) = s.reg (ZG_BEAT_COUNT d))
        ∧ (¬ off → t.reg (ZG_BEAT_QUAD d) = BitVec.ofNat 64 (q3.toNat * 2 ^ 48 + q2.toNat * 2 ^ 32 + q1.toNat * 65536 + q0.toNat)
            ∧ t.rfld (ZG_BEAT_WINDOW d) 15 0 = min (min q0.toNat q1.toNat) (min q2.toNat q3.toNat)
            ∧ (t.reg (ZG_BEAT_COUNT d)) = s.reg (ZG_BEAT_COUNT d) + BitVec.ofNat 64 (min (min q0.toNat q1.toNat) (min q2.toNat q3.toNat)))
        ∧ t.rfld (ZG_BEAT_WINDOW d) 47 16 = (s.rfld (ZG_BEAT_WINDOW d) 47 16 + 1) % 2 ^ 32
        ∧ t.reg (ZG_BEAT_STAMP d) = BitVec.ofNat 64 (s.replicaOf d / 1000 * 1000)) := by
  have hw := regs_of_canonical hc
  intro off
  rw [exec_beatWindowPublish]
  refine ⟨fun hdue => if_pos hdue, fun hdue => ⟨_, if_neg (by simp [hdue]), ?_⟩⟩
  have hwin := windowPublished_window hw d
    (beatCount d s q3 * 2 ^ 48 + beatCount d s q2 * 2 ^ 32 + beatCount d s q1 * 65536 + beatCount d s q0)
    (min (min (beatCount d s q0) (beatCount d s q1)) (min (beatCount d s q2) (beatCount d s q3)))
    ((s.rfld (ZG_BEAT_WINDOW d) 47 16 + 1) % 2 ^ 32) (s.windowEnd d)
    (by have := beatCount_lt d s q0; omega) (Nat.mod_lt _ (by omega))
  obtain ⟨hlow, hseq⟩ := hwin
  rw [hlow, hseq, windowPublished_quad hw, windowPublished_count hw, windowPublished_stamp hw]
  refine ⟨fun hoff => ?_, fun hon => ?_, rfl, rfl⟩
  · have hn (q) : beatCount d s q = 0 := if_pos (by simpa [off, or_assoc] using hoff)
    simp [hn]
  · have hn (q : BitVec 16) : beatCount d s q = q.toNat := if_neg (by simpa [off, or_assoc] using hon)
    simp only [hn, and_self]

/-! ### Service modes -/

/-- ZG_FMT_SERVICE after a change of mode. -/
def serviceWord (v : Word64) (reduced : Bool) (reason : Nat) : Word64 :=
  let v := setFld (setFld (setFld v 0 0 (b2n reduced)) 1 1 0) 15 8 (fld v 15 8 + 1)
  if reduced then setFld v 23 16 reason else v

theorem serviceWord_mode (v : Word64) (reduced : Bool) (reason : Nat) : fld (serviceWord v reduced reason) 0 0 = b2n reduced
    ∧ fld (serviceWord v reduced reason) 1 1 = 0 := by
  have h0 : fld (setFld (setFld (setFld v 0 0 (b2n reduced)) 1 1 0) 15 8 (fld v 15 8 + 1)) 0 0 = b2n reduced := by
    rw [fld_setFld_other _ _ (by omega) (by omega), fld_setFld_other _ _ (by omega) (by omega), fld_setFld_same _ _ (by omega)]
    cases reduced <;> rfl
  have h1 : fld (setFld (setFld (setFld v 0 0 (b2n reduced)) 1 1 0) 15 8 (fld v 15 8 + 1)) 1 1 = 0 := by
    rw [fld_setFld_other _ _ (by omega) (by omega), fld_setFld_same _ _ (by omega)]; rfl
  unfold serviceWord
  dsimp only
  split
  · exact ⟨(fld_setFld_other _ _ (by omega) (by omega)).trans h0, (fld_setFld_other _ _ (by omega) (by omega)).trans h1⟩
  · exact ⟨h0, h1⟩

theorem switchService_eq (d : Nat) (reduced : Bool) (reason : Nat) (s : State) :
    switchService d reduced reason s =
      ((s.setReg (ZG_FMT_SERVICE d) (serviceWord (s.reg (ZG_FMT_SERVICE d)) reduced reason)).setRegN (ZG_FMT_SVC_STAMP d) s.now).setRfld
        ZG_BOOT_DIES (8 * d + 4) (8 * d + 4) (b2n reduced) := rfl

theorem switchService_spec {s : State} (hw : cwf 0 s.regs = true) (d : Nat) (reduced : Bool) (reason : Nat) :
    let t := switchService d reduced reason s
    cwf 0 t.regs = true ∧ t.reduced d = reduced ∧ t.rfld (ZG_FMT_SERVICE d) 1 1 = 0
      ∧ t.reg (ZG_FMT_SVC_STAMP d) = BitVec.ofNat 64 s.now := by
  have h1 := State.setReg_cwf hw (ZG_FMT_SERVICE d) (serviceWord (s.reg (ZG_FMT_SERVICE d)) reduced reason)
  have h2 := State.setRegN_cwf h1 (ZG_FMT_SVC_STAMP d) s.now
  obtain ⟨hmode, hpending⟩ := serviceWord_mode (s.reg (ZG_FMT_SERVICE d)) reduced reason
  have hdie : ZG_FMT_SERVICE d ≠ ZG_BOOT_DIES ∧ ZG_FMT_SVC_STAMP d ≠ ZG_BOOT_DIES ∧ ZG_FMT_SERVICE d ≠ ZG_FMT_SVC_STAMP d := by
    unfold ZG_FMT_SERVICE ZG_FMT_SVC_STAMP ZG_BOOT_DIES dieBase; omega
  obtain ⟨hsb, htb, hst⟩ := hdie
  have hservice : (switchService d reduced reason s).reg (ZG_FMT_SERVICE d) = serviceWord (s.reg (ZG_FMT_SERVICE d)) reduced reason := by
    rw [switchService_eq, State.setRfld, State.setReg_reg h2, if_neg hsb, State.setRegN_reg h1, if_neg hst, State.setReg_reg hw, if_pos rfl]
  refine ⟨State.setRfld_cwf h2 .., ?_, ?_, ?_⟩
  · rw [State.reduced, State.rfld, hservice, hmode]; cases reduced <;> rfl
  · rw [State.rfld, hservice, hpending]
  · rw [switchService_eq, State.setRfld, State.setReg_reg h2, if_neg htb, State.setRegN_reg h1, if_pos rfl]

/-- Where a self-test waits for the change, what the change told stays. -/
theorem serviceModeChange_spec (d : Die) {s : State} (hidle : s.dieBusy d = false) (hreq : s.rfld (ZG_FMT_SERVICE d) 1 1 = 1)
    (hc : s.canonical = true) : ∃ t, exec (.serviceModeChange d) s = .next t ∧ t.reduced d = !s.reduced d
      ∧ t.rfld (ZG_FMT_SERVICE d) 1 1 = 0 ∧ t.reg (ZG_FMT_SVC_STAMP d) = BitVec.ofNat 64 s.now := by
  obtain ⟨hw, hmode, hpending, hstamp⟩ := switchService_spec (regs_of_canonical hc) d (!s.reduced d) (cget 0 s.time.svcReason d)
  refine ⟨_, by show execServiceModeChange d s = _; rw [execServiceModeChange, hidle, if_neg Bool.false_ne_true, if_pos hreq], ?_⟩
  dsimp only
  split
  · have hst : ZG_FMT_SERVICE d ≠ ZG_INT_ST d ∧ ZG_FMT_SVC_STAMP d ≠ ZG_INT_ST d := by
      unfold ZG_FMT_SERVICE ZG_FMT_SVC_STAMP ZG_INT_ST; omega
    refine ⟨?_, ?_, ?_⟩
    · rw [State.reduced, State.setRfld_rfld_other hw hst.1]; exact hmode
    · rw [State.setRfld_rfld_other hw hst.1]; exact hpending
    · rw [State.setRfld, State.setReg_reg hw, if_neg hst.2]; exact hstamp
  · exact ⟨hmode, hpending, hstamp⟩

theorem serviceModeChange_busy (d : Die) {s : State} (h : s.dieBusy d = true) : exec (.serviceModeChange d) s = .next s := by
  show execServiceModeChange d s = _
  rw [execServiceModeChange, if_pos h]

/-! ### The statement -/

/-- Of the idle step: the timebase never decreases, and without slew it counts nanoseconds. -/
theorem step_idle_spec {s : State} (hp : s.pending = []) (hrem : 0 ≤ s.time.slewRem) : ∃ t, step s = .next t ∧ s.time.now ≤ t.time.now
    ∧ 0 ≤ t.time.slewRem ∧ (s.rfld ZG_TIME_STATUS 0 0 = 0 → t = s)
    ∧ (s.rfld ZG_TIME_STATUS 31 16 = 0 → s.rfld ZG_TIME_STATUS 0 0 = 1 → s.time.slewRem < 1000000 → t.time.now = s.time.now + 1) := by
  obtain ⟨hnow, hrem'⟩ := tick_now_ge hrem
  refine ⟨tick s, step_idle hp, hnow, hrem', tick_of_stopped, fun hslew hrun hlt => ?_⟩
  obtain ⟨hn, -⟩ := tick_of_running (s := s) (by omega)
  have h0 : s.slew = 0 := by rw [State.slew, hslew]; rfl
  rw [hn, h0]
  omega

/-- Settles O51, clause by clause; that the event of an alignment leaves what the exchange has set is `thetaAligned_keeps`. -/
theorem timeAdvancesAlignsAndIsPublished : Obligations.TimeAdvancesAlignsAndIsPublished := by
  refine ⟨fun s => step_idle_spec, fun s p => execTimeRequest_due, fun p a s s1 => ⟨fun h => ?_, fun h => ⟨fun hpar hwait hseq => ?_, fun hseq => ?_⟩⟩,
    fun theta pd s hc h13 hpd => takeTheta_spec theta hc h13 hpd, fun t1 t2 t3 t4 k => thetaOf_even, fun s => execAlignmentLost_due,
    fun s h13 hst => ⟨fun hend => ?_, fun hlt hplan href => ?_⟩, fun d q0 q1 q2 q3 s => beatWindowPublish_spec d q0 q1 q2 q3,
    fun d s => rfl, fun d s => ⟨serviceModeChange_busy d, serviceModeChange_spec d⟩⟩
  · exact congrArg Host.Outcome.next (receiveTime_of_taken h _)
  · refine congrArg Host.Outcome.next ((receiveTime_of_taken h _).trans ?_)
    rw [if_pos ⟨hpar, hwait, hseq⟩]
  · refine congrArg Host.Outcome.next ((receiveTime_of_taken h _).trans ?_)
    rw [if_neg fun hall => hseq hall.2.2]
  · rw [execAlignWaitExpire_iff h13 hst, if_pos (by tauto)]
  · rw [execAlignWaitExpire_iff h13 hst, if_neg (by simp [hplan, href]; omega)]

end Sys2Proof.Machine
end

section
/-! What the ends of commands leave. -/
namespace Sys2Proof.Machine
open Sys2Proof
namespace Keeps
variable {e : Bool} {w : List Nat} {s0 s t : State}

/-! ### Queues, banks and bytes of HBM -/

theorem setQueue (h : Keeps false w s0 s) (q : Nat) (x : Queue) : Keeps false w s0 (s.setQueue q x) := h.withQueues _
theorem updFlight (h : Keeps false w s0 s) (q seq : Nat) (g : Flight → Flight) : Keeps false w s0 (s.updFlight q seq g) := h.setQueue _ _
theorem setBank (h : Keeps e w s0 s) (t : Nat) (b : Banked) : Keeps e w s0 (s.setBank t b) := h.withBanks _
theorem draw (h : Keeps e w s0 s) : Keeps e w s0 s.draw.2 := h.withOpenCount _

theorem releaseBanks : ∀ (bs : List (Nat × Nat × Nat)) {s : State}, Keeps e w s0 s → Keeps e w s0 (releaseBanks bs s)
  | [], _, h => h
  | (_, _, _) :: bs, _, h => releaseBanks bs (h.setBank _ _)

theorem paWriteN : ∀ (k pa : Nat) (bs : List Byte) {s : State}, Keeps e w s0 s → Keeps e w s0 (paWriteN k pa bs s)
  | 0, _, _, _, h => h
  | k + 1, _, _, _, h => .ite (fun _ => h) fun _ => paWriteN k _ _ (h.blockWrite _ _)

theorem paWrite (h : Keeps e w s0 s) (pa : Nat) (bs : List Byte) : Keeps e w s0 (paWrite pa bs s) :=
  .ite (fun _ => h) fun _ => paWriteN _ _ _ h

theorem giveBack (h : Keeps e w s0 s) (q : Nat) : Keeps e w s0 (giveBack q s) :=
  foldl (fun _ _ h => (h.withClu _).bump (free_die _ _) _) _ h

/-! ### Synchronisation -/

theorem setSynObj (h : Keeps e w s0 s) (o : Nat) (x : SynObj) : Keeps e w s0 (s.setSynObj o x) := h.withSyn _ fun _ => id
theorem touchDetector (h : Keeps e w s0 s) (q : Nat) : Keeps e w s0 (touchDetector q s) := h.withSyn _ fun _ => id
theorem noteRun (h : Keeps e w s0 s) (q : Nat) : Keeps e w s0 (noteRun q s) := h.withTrn _

theorem noteProgress (h : Keeps e w s0 s) (q : Nat) : Keeps e w s0 (noteProgress q s) := by
  unfold Machine.noteProgress
  refine .ite (fun _ => h) fun _ => ?_
  extract_lets d p x s1 y _ s2
  have h1 : Keeps e w s0 s1 := (h.noteRun q).touchDetector q
  have h2 : Keeps e w s0 s2 := h1.withSyn _ fun _ => id
  exact .ite (fun _ => h2.raiseEvent _) fun _ => h1

theorem testWaiters (h : Keeps e w s0 s) (o : Nat) : Keeps e w s0 (testWaiters o s).1 :=
  h.withSyn _ fun _ hy => List.mem_of_mem_filter hy

theorem touchWaiters (h : Keeps e w s0 s) (o : Nat) : Keeps e w s0 (touchWaiters o s) := foldl (fun _ _ h => h.touchDetector _) _ h

theorem synEvent (h : Keeps e w s0 s) (code o data : Nat) (r : SyncReq) : Keeps e w s0 (synEvent code o data r s) := by
  unfold Machine.synEvent
  dsimp only
  split
  · exact .ite (fun _ => h.raiseEvent _) fun _ => (h.raiseEvent _).raiseEvent _
  · exact h.raiseEvent _

theorem synBlocked (h : Keeps e w s0 s) (r : SyncReq) (o : Nat) : Keeps e w s0 (synBlocked r o s) :=
  (h.bump (free_die _ _) _).raiseEvent _

theorem synOp (h : Keeps e w s0 s) (r : SyncReq) (o op v : Nat) : Keeps e w s0 (synOp r o op v s).2.1 := by
  unfold Machine.synOp
  split
  · exact h.synBlocked _ _
  · split
    · exact h
    · dsimp only
      split
      · have hm := (h.bump (a := ZG_SYN_MISUSE (o / 4096)) (free_die _ _) 1).synEvent 3 o (o + op * 16384) r
        split
        · refine testWaiters ?_ o
          split
          · exact hm.setSynObj _ _
          · exact (hm.setSynObj _ _).touchWaiters _
        · exact hm
      · refine testWaiters (.ite (fun _ => ?_) fun _ => touchWaiters ?_ _) o
        all_goals
          exact .ite (fun _ => (h.setSynObj _ _).bump (free_die _ _) _) fun _ =>
            (((h.setSynObj _ _).bump (free_die _ _) _).bump (free_die _ _) _).synEvent _ _ _ _

/-! ### Records and their rings -/

theorem refreshQuiesced (h : Keeps e w s0 s) (f : Nat) : Keeps e w s0 (refreshQuiesced f s) :=
  h.setRegF (free_fn _ (by decide) (by decide)) _

theorem recordInterrupt (h : Keeps e w s0 s) (q : Nat) (r : HeldRec) : Keeps e w s0 (recordInterrupt q r s) :=
  .ite (fun _ => h.sendInterrupt _ _) fun _ => .ite (fun _ => h.interruptDue _ _ _) fun _ => h

theorem markFull (h : Keeps false w s0 s) (q : Nat) : Keeps false w s0 (markFull q s) :=
  .ite (fun _ => h.setQueue _ _) fun _ => (h.setQueue _ _).bumpF (free_fn _ (by decide) (by decide)) _

theorem markDrained (h : Keeps false w s0 s) (q : Nat) : Keeps false w s0 (markDrained q s) := by
  unfold Machine.markDrained
  refine .ite (fun _ => ?_) fun _ => h
  dsimp only
  split
  · exact (h.setQueue _ _).raiseEvent _
  · exact h.setQueue _ _

theorem trnEvent (h : Keeps e w s0 s) (d code q : Nat) (part : Option Nat) (data sev : Nat) :
    Keeps e w s0 (trnEvent d code q part data sev s) :=
  ((h.setRegN (free_die _ _) _).setRegN (free_die _ _) _).raiseEvent _

/-- A record or an event written to its ring. -/
theorem ringWrite (h : Keeps e w s0 s) {f d : Nat} {hbm : Bool} {a : Nat} {bs : List Byte} {t : State} (ht : ringWrite f d hbm a bs s = some t) :
    Keeps e w s0 t := put_ringWrite _ _ _ _ _ _ _ _ _ _ h ht

theorem writeHeldN : ∀ (n q : Nat) {s : State}, Keeps false w s0 s → Keeps false w s0 (writeHeldN n q s)
  | 0, _, _, h => h.markDrained _
  | n + 1, q, s, h => by
    unfold Machine.writeHeldN
    dsimp only
    split
    · exact h.markDrained _
    · refine .ite (fun _ => h.markFull _) fun _ => .ite (fun _ => h) fun _ => ?_
      split
      · next hr => exact writeHeldN n q (releaseBanks _ (((h.setQueue _ _).ringWrite hr).recordInterrupt _ _))
      · exact h

theorem writeHeld (h : Keeps false w s0 s) (q : Nat) : Keeps false w s0 (writeHeld q s) := writeHeldN _ _ h

theorem drainQueue (h : Keeps false w s0 s) (q : Nat) : Keeps false w s0 (drainQueue q s) := by
  unfold Machine.drainQueue
  have hr (bs cs : List (Nat × Nat × Nat)) (c : Bool) :
      Keeps false w s0 (if c then Machine.releaseBanks cs (Machine.releaseBanks bs s) else Machine.releaseBanks bs s) :=
    .ite (fun _ => releaseBanks _ (releaseBanks _ h)) fun _ => releaseBanks _ h
  exact ((hr _ _ _).setQueue _ _).writeHeld _

theorem writeHeldEvents (f : Nat) : ∀ (rs : List (List Byte)) {s : State}, Keeps e w s0 s → Keeps e w s0 (writeHeldEvents f rs s)
  | [], _, h => h
  | r :: rs, s, h => by
    unfold Machine.writeHeldEvents
    dsimp only
    split
    · next hr => exact writeHeldEvents f rs (((h.setFn _ _).ringWrite hr).sendInterrupt _ _)
    · exact h

theorem flushRings (h : Keeps false w s0 s) : Keeps false w s0 (flushRings s) :=
  foldl (fun _ _ h => h.writeHeld _) _ (foldl (fun _ _ h => writeHeldEvents _ _ h) _ h)

/-! ### Ends of commands -/

theorem enterError (h : Keeps false w s0 s) (q status : Nat) : Keeps false w s0 (enterError q status s) := (h.setQueue _ _).raiseEvent _

theorem failQueue (h : Keeps false w s0 s) (q status : Nat) (cont : Bool) : Keeps false w s0 (failQueue q status cont s) :=
  .ite (fun _ => h.enterError _ _) fun _ => h.setQueue _ _

theorem finishStop (h : Keeps false w s0 s) (q : Nat) : Keeps false w s0 (finishStop q s).1 := by
  unfold Machine.finishStop
  dsimp only
  split
  · exact h.setQueue _ _
  · exact h

theorem signalEnd (h : Keeps e w s0 s) (x : Ending) (f : Flight) : Keeps e w s0 (signalEnd x f s).1 := by
  unfold Machine.signalEnd
  split
  · dsimp only
    have hs := h.synOp { tenant := s.queueTenant x.queue, part := s.queuePart x.queue, queue := queueField x.queue, failed := x.status != 0 }
      (dSigObj f.desc) (dSigOp f.desc) (dSigValue f.desc)
    split
    · next hb => rw [hb] at hs; exact hs.bumpF (free_fn _ (by decide) (by decide)) _
    · next hb => rw [hb] at hs; exact hs
  · exact h

theorem retireTarget (h : Keeps false w s0 s) (q : Nat) : Keeps false w s0 (retireTarget q s) :=
  .ite (fun _ => h.enterError _ _) fun _ => h

theorem holdEnd (h : Keeps false w s0 s) (x : Ending) : Keeps false w s0 (holdEnd x s).1 := by
  unfold Machine.holdEnd
  have hu (g) (y) : Keeps false w s0 { s.updFlight x.queue x.seq g with hbm := { (s.updFlight x.queue x.seq g).hbm with waits := y } } :=
    (h.updFlight _ _ _).withHbm _
  dsimp only
  split
  · exact hu _ _
  · split
    · exact hu _ _
    · exact ((hu _ _).setQueue _ _).giveBack _

theorem noteHeld (h : Keeps e w s0 s) (q before : Nat) : Keeps e w s0 (noteHeld q before s) :=
  .ite (fun _ => h.trnEvent _ _ _ _ _ _) fun _ => h

theorem endOne (h : Keeps false w s0 s) (x : Ending) : Keeps false w s0 (endOne x s).1 := by
  unfold Machine.endOne
  split
  · exact h
  · split
    · exact h
    · split
      · exact h.holdEnd _
      · next f _ _ _ =>
        have hs := releaseBanks (f.binds.filter (fun b => !decide (b.1 < 64))) (h.signalEnd x f)
        dsimp only
        refine finishStop (noteHeld (refreshQuiesced (drainQueue (retireTarget (noteProgress ?_ _) _) _) _) _ _) _
        exact .ite (fun _ => (hs.updFlight _ _ _).withHbm _) fun _ => failQueue ((hs.updFlight _ _ _).withHbm _) _ _ _

theorem endMany : ∀ (n : Nat) (es : List Ending) {s : State}, Keeps false w s0 s → Keeps false w s0 (endMany n es s)
  | 0, _, _, h => h
  | _ + 1, [], _, h => h
  | n + 1, _ :: _, _, h => endMany n _ (h.endOne _)

theorem endAll (h : Keeps false w s0 s) (es : List Ending) : Keeps false w s0 (endAll es s) := endMany _ _ h
theorem endCommand (h : Keeps false w s0 s) (q seq status detail : Nat) : Keeps false w s0 (endCommand q seq status detail s) := h.endAll _

end Keeps
end Sys2Proof.Machine
end

section
/-! What packets and ports leave. -/
namespace Sys2Proof.Machine
open Sys2Proof
namespace Keeps
variable {e : Bool} {w : List Nat} {s0 s t : State}

/-! ### The audit log and events -/

theorem mgtEvent (h : Keeps e w s0 s) (code data sev : Nat) : Keeps e w s0 (mgtEvent code data sev s) := h.raiseEvent _

theorem withAuditSeq (h : Keeps e w s0 s) (a : Nat) (x : List Byte) : Keeps e w s0 { s with store := { s.store with aseq := a, digest := x } } :=
  { h with }

theorem auditAppend (h : Keeps e w s0 s) (trim : Bool) (r : AuditRec) : Keeps e w s0 (auditAppend trim r s).2 := by
  unfold Machine.auditAppend
  split
  · exact (h.mgtEvent _ _ _ : Keeps e w s0 (Machine.mgtEvent 9 _ 2 s))
  · extract_lets a bs s1 _ s2 s3
    have h3 : Keeps e w s0 s3 := (((h.paWrite _ _).paWrite _ _).withAuditSeq _ _).setRegN (free_pkg (by decide)) _
    exact .ite (fun _ => h3.mgtEvent _ _ _) fun _ => h3

theorem auditEvent (h : Keeps e w s0 s) (ev : Ev) : Keeps e w s0 (auditEvent ev s) := by
  unfold Machine.auditEvent
  split
  · exact .ite (fun _ => h.auditAppend _ _) fun _ => h
  · exact h

theorem intEvent (h : Keeps e w s0 s) (d code q : Nat) (part : Option Nat) (data sev : Nat) :
    Keeps e w s0 (intEvent d code q part data sev s) :=
  ((h.setRegN (free_die _ _) _).setRegN (free_die _ _) _).raiseEvent _

/-! ### Clusters and links -/

theorem setClus (h : Keeps e w s0 s) (d c : Nat) (x : ClusterSt) : Keeps e w s0 (s.setClus d c x) := h.withClu _
theorem updClus (h : Keeps e w s0 s) (d c : Nat) (g : ClusterSt → ClusterSt) : Keeps e w s0 (s.updClus d c g) := h.setClus _ _ _
theorem setEngineCount (h : Keeps e w s0 s) : Keeps e w s0 (setEngineCount s) := h.setRegN (free_pkg (by decide)) _

theorem updateEngineCount (h : Keeps false w s0 s) (c : Nat) : Keeps false w s0 (updateEngineCount c s) := by
  unfold Machine.updateEngineCount
  refine .ite (fun _ => h.setEngineCount) fun _ => ?_
  exact foldl (fun _ _ h => h.retireTarget _) _ (foldl (fun _ _ h => h.postEvent _ _) _ (h.setEngineCount.raiseEvent _))

theorem setStrand (h : Keeps false w s0 s) (l k : Nat) (x : Strand) : Keeps false w s0 (s.setStrand l k x) := h.withD2d _
theorem setTx (h : Keeps false w s0 s) (l k : Nat) (x : StrandTx) : Keeps false w s0 (s.setTx l k x) := h.withD2d _
theorem setRx (h : Keeps false w s0 s) (l k : Nat) (x : StrandRx) : Keeps false w s0 (s.setRx l k x) := h.withD2d _
theorem setWaiting (h : Keeps false w s0 s) (d c k : Nat) (fs : List (Nat × D2dFrame)) : Keeps false w s0 (s.setWaiting d c k fs) := h.withD2d _
theorem enqueueFrame (h : Keeps false w s0 s) (d c : Nat) (f : D2dFrame) : Keeps false w s0 (enqueueFrame d c f s) := h.setWaiting _ _ _ _
theorem freeBuffer (h : Keeps false w s0 s) (came cls pool : Nat) : Keeps false w s0 (freeBuffer came cls pool s) :=
  .ite (fun _ => h) fun _ => h.setRx _ _ _

/-! ### The twin -/

theorem refreshTwinTable (h : Keeps e w s0 s) : Keeps e w s0 (refreshTwinTable s) := h.setRegN (free_pkg (by decide)) _
theorem setTwins (h : Keeps e w s0 s) (l : List TwinEntry) : Keeps e w s0 (s.setTwins l) := (h.withInteg _).refreshTwinTable

theorem twinGone (h : Keeps false w s0 s) (x : TwinEntry) (u : Bool) : Keeps false w s0 (twinGone x u s) := by
  unfold Machine.twinGone
  split
  · exact h
  · exact (((h.setTwins _).bump (free_pkg (by decide)) _).raiseEvent _).endCommand _ _ _ _

theorem twinUnreachable (h : Keeps false w s0 s) : Keeps false w s0 (twinUnreachable s) := foldl (fun _ _ h => h.twinGone _ _) _ h
theorem dropTwin (h : Keeps e w s0 s) (q seq : Nat) : Keeps e w s0 (dropTwin q seq s) := .ite (fun _ => h.setTwins _) fun _ => h

/-! ### Packets -/

theorem setPort (h : Keeps false w s0 s) (p : Nat) (x : WPort) : Keeps false w s0 (s.setPort p x) := h.withWfn _
theorem enqueue (h : Keeps false w s0 s) (p : Nat) (x : OutPkt) : Keeps false w s0 (enqueue p x s) := h.setPort _ _

theorem nextId (h : Keeps false w s0 s) (t : PktTo) : Keeps false w s0 (nextId t s).2 := by
  unfold Machine.nextId
  split
  · exact h
  · exact h.withWfn _

theorem dropPacket (h : Keeps e w s0 s) (d cause : Nat) (b : List Byte) : Keeps e w s0 (dropPacket d cause b s) := by
  unfold Machine.dropPacket
  refine (h.bump ?_ _).wefinEvent _ _ _ _ _
  split
  · exact free_die _ _
  · split <;> exact free_die _ _

theorem unbindRoute (h : Keeps e w s0 s) (b : Option Nat) : Keeps e w s0 (unbindRoute b s) := by
  unfold Machine.unbindRoute
  split
  · exact h.setBank _ _
  · exact h

theorem bindRoute (h : Keeps e w s0 s) : Keeps e w s0 (bindRoute s).2 := h.setBank _ _

theorem crossFrame (h : Keeps false w s0 s) (d p : Nat) (x : OutPkt) (i : Nat) : Keeps false w s0 (crossFrame d p x i s) :=
  (h.withD2d _).enqueueFrame _ _ _

theorem leaveBy (h : Keeps false w s0 s) (d p : Nat) (x : OutPkt) : Keeps false w s0 (leaveBy d p x s) :=
  .ite (fun _ => h.enqueue _ _) fun _ => foldl (fun _ _ h => h.crossFrame _ _ _ _) _ (h.withWfn _)

theorem sendBundle (h : Keeps false w s0 s) (d : Nat) (c : Option Nat) (x : OutPkt) : Keeps false w s0 (sendBundle d c x s) := by
  unfold Machine.sendBundle
  split
  · exact h.leaveBy _ _ _
  · exact (h.unbindRoute _).withWfn _

theorem dropCrossings (h : Keeps false w s0 s) (d : Nat) : Keeps false w s0 (dropCrossings d s) :=
  foldl (fun _ _ h => h.unbindRoute _) _ (h.withWfn _)

theorem newPkt (h : Keeps false w s0 s) (b : List Byte) (vp dir : Nat) (k : Option Nat) : Keeps false w s0 (newPkt b vp dir k s).2 := h.withWfn _

theorem sendOneHop (h : Keeps false w s0 s) (p : Nat) (t : PktTo) : Keeps false w s0 (sendOneHop p t s) := by
  have hn := h.nextId t
  unfold Machine.sendOneHop
  generalize Machine.nextId t s = r at hn
  obtain ⟨i, s1⟩ := r
  exact (newPkt hn (packetBytes t i 0 s1) 0 7 none).enqueue _ _

theorem dropUnreachable (h : Keeps e w s0 s) (d : Nat) (b : List Byte) : Keeps e w s0 (dropUnreachable d b s) :=
  (h.dropPacket _ _ _).wefinEvent _ _ _ _ _

theorem routePacket (h : Keeps false w s0 s) {d : Nat} {c : Option Nat} {came : Option (Nat × Nat)} {b : List Byte} {i : Nat} {t : State}
    (ht : routePacket d c came b i s = some t) : Keeps false w s0 t := by
  unfold Machine.routePacket at ht
  dsimp only at ht
  split at ht
  · exact absurd ht (by simp)
  · obtain rfl := Option.some.inj ht
    exact (h.bindRoute.newPkt _ _ _ _).sendBundle _ _ _

theorem routeTwin (h : Keeps false w s0 s) {d : Nat} {came : Option (Nat × Nat)} {b : List Byte} {t : State}
    (ht : routeTwin d came b s = some t) : Keeps false w s0 t := by
  unfold Machine.routeTwin at ht
  split at ht
  · obtain rfl := Option.some.inj ht
    exact (h.newPkt b (pkVc b * 3) 6 none).sendBundle _ _ _
  · split at ht
    · exact h.routePacket ht
    · exact absurd ht (by simp)

/-! ### Ports -/

theorem setRegion (h : Keeps false w s0 s) (r : Nat) (x : Region) : Keeps false w s0 (s.setRegion r x) := h.withWfn _

theorem refreshDisc (h : Keeps e w s0 s) : Keeps e w s0 (refreshDisc s) :=
  ((h.setRfld (free_pkg (by decide)) _ _ _).setRfld (free_pkg (by decide)) _ _ _).setRfld (free_pkg (by decide)) _ _ _

theorem unsettle (h : Keeps false w s0 s) (r epoch : Nat) : Keeps false w s0 (unsettle r epoch s) :=
  (h.setRegion _ _).refreshDisc.wefinEvent _ _ _ _ _

theorem floodOwn (h : Keeps false w s0 s) : Keeps false w s0 (floodOwn s) := by
  unfold Machine.floodOwn
  exact .ite (fun _ => h) fun _ => foldl (fun _ _ h => h.sendOneHop _ _) _ ((h.withWfn _).withWfn _)

theorem portChange (h : Keeps false w s0 s) (p : Nat) : Keeps false w s0 (portChange p s) := by
  unfold Machine.portChange
  refine .ite (fun _ => h) fun _ => floodOwn ?_
  exact .ite (fun _ => (h.unsettle _ _).unsettle _ _) fun _ => h.unsettle _ _

theorem refreshTwin (h : Keeps false w s0 s) : Keeps false w s0 (refreshTwin s) := by
  unfold Machine.refreshTwin
  extract_lets old via st c s1
  have h1 : Keeps false w s0 s1 := h.setRegN (free_pkg (by decide)) _
  clear_value s1
  exact .ite (fun _ => h1) fun _ => .ite (fun _ => (h1.wefinEvent _ _ _ _ _).twinUnreachable) fun _ => h1.wefinEvent _ _ _ _ _

theorem resendPackets (h : Keeps false w s0 s) (p : Nat) : Keeps false w s0 (resendPackets p s) :=
  foldl (fun _ _ h => h.sendBundle _ _ _) _ ((h.setPort _ _).withWfn _)

theorem leaveTo (h : Keeps false w s0 s) (p st : Nat) : Keeps false w s0 (leaveTo p st s) := by
  unfold Machine.leaveTo
  extract_lets was s1 s2
  have h1 : Keeps false w s0 s1 := h.setRfld (free_dieAt _ _ _) _ _ _
  have h2 : Keeps false w s0 s2 := .ite (fun _ => ((h1.wefinEvent _ _ _ _ _).portChange _).refreshTwin) fun _ => h1
  exact .ite (fun _ => h2) fun _ => h2.resendPackets _

end Keeps
end Sys2Proof.Machine
end

section
/-! What collective operations, arrays and streams leave. -/
namespace Sys2Proof.Machine
open Sys2Proof
namespace Keeps
variable {e : Bool} {w : List Nat} {s0 s t : State}

/-! ### Reads of memory -/

theorem vaReadPart (h : Keeps false w s0 s) (rq : Req) (va n : Nat) : Acc false w s0 (vaReadPart rq va n s) := by
  refine Acc.bind (h.translate rq va false) fun pa s h => ?_
  have hc := h.consultMap (frameNo pa)
  split
  · next hb => rw [hb] at hc; exact hc
  · next s1 hb =>
    rw [hb] at hc
    have hr := (hc.pmcCount rq.die 4 (some rq.part) 1).readBlock pa
    split
    · split
      · next hb => rw [hb] at hr; exact hr
      · next hb => rw [hb] at hr; exact hr
    · split
      · exact hc
      · exact (hc.bump (a := ZG_HBM_UNWR rq.die) (free_die _ _) 1).updFlight _ _ _

theorem vaReadN (rq : Req) : ∀ (k va n : Nat) {s : State}, Keeps false w s0 s → Acc false w s0 (vaReadN rq k va n s)
  | 0, _, _, _, h => h
  | k + 1, va, n, s, h => by
    unfold Machine.vaReadN
    split
    · exact h
    · exact Acc.bind (h.vaReadPart rq _ _) fun _ _ h => Acc.bind (vaReadN rq k _ _ h) fun _ _ h => h

theorem vaRead (h : Keeps false w s0 s) (rq : Req) (va n : Nat) : Acc false w s0 (vaRead rq va n s) := vaReadN rq _ _ _ h

theorem waitAtStack (h : Keeps e w s0 s) (x : StackWait) : Keeps e w s0 (waitAtStack x s) := .ite (fun _ => h) fun _ => h.withHbm _

/-! ### Packets of this package -/

/-- What injecting a packet leaves, however it ends. -/
def Inj (w : List Nat) (s0 : State) : Inject → Prop
  | .sent _ s => Keeps false w s0 s
  | .unreachable s => Keeps false w s0 s
  | .noPlan => True
  | .crossField => True

theorem inject (h : Keeps false w s0 s) (t : PktTo) (c : Option Nat) : Inj w s0 (inject t c s) := by
  have hn := h.nextId t
  unfold Machine.inject
  split
  · trivial
  · dsimp only
    split
    · trivial
    · split
      · next hb =>
        split at hb
        · exact hn.routeTwin hb
        · exact hn.routePacket hb
      · exact hn.dropUnreachable _ _

/-! ### Collective operations -/

theorem setGdie (h : Keeps e w s0 s) (g d : Nat) (x : GroupDie) : Keeps e w s0 (s.setGdie g d x) := h.withColl _
theorem setOp (h : Keeps e w s0 s) (g d : Nat) (q : Bool) (o : CollOp) : Keeps e w s0 (s.setOp g d q o) := h.setGdie _ _ _

theorem collEvent (h : Keeps e w s0 s) (d code g rank data : Nat) (pf : Bool) : Keeps e w s0 (collEvent d code g rank data pf s) :=
  ((h.setRegN (free_die _ _) _).setRegN (free_die _ _) _).raiseEvent _

theorem collPost (h : Keeps false w s0 s) (d x tenant : Nat) (c : Option Nat) (m : List Byte) :
    Keeps false w s0 (collPost d x tenant c m s).2 := by
  have hi := h.inject { ptype := 4, dest := entryCoord x, dfield := s.field, ddie := x % 4, sdie := d, tenant := tenant, body := m } c
  unfold Machine.collPost
  split
  · split
    · exact h
    · exact h.withColl _
  · split
    · next hb => rw [hb] at hi; exact hi
    · exact h
    · exact h
    · next hb => rw [hb] at hi; exact hi

theorem dropPrefetch (h : Keeps e w s0 s) (ops : List CollOp) : Keeps e w s0 (dropPrefetch ops s) := by
  unfold Machine.dropPrefetch
  exact (foldl (fun _ _ h => h.updClus _ _ _) _ h).withClu _

theorem sendAborts (h : Keeps false w s0 s) (g d cause : Nat) (o : CollOp) : Keeps false w s0 (sendAborts g d cause o s) :=
  .ite (fun _ => h) fun _ => foldl (fun _ _ h => h.collPost _ _ _ _ _) _ h

theorem collAbort (h : Keeps false w s0 s) (g d cause q seq : Nat) : Keeps false w s0 (collAbort g d cause q seq s) := by
  unfold Machine.collAbort
  refine .ite (fun _ => h) fun _ => ?_
  exact (((((h.setGdie _ _ _).dropPrefetch _).sendAborts _ _ _ _).bump (free_die _ _) _).collEvent _ _ _ _ _ _).endAll _

theorem collFail (h : Keeps false w s0 s) (g d : Nat) (o : CollOp) (status detail : Nat) : Keeps false w s0 (collFail g d o status detail s) :=
  (h.endCommand _ _ _ _).collAbort _ _ _ _ _

theorem collDrop (h : Keeps false w s0 s) (q seq cause : Nat) : Keeps false w s0 (collDrop q seq cause s) := by
  unfold Machine.collDrop
  dsimp only
  split
  · exact (h.withColl _).collAbort _ _ _ _ _
  · exact h.withColl _

theorem collAcc {α : Type} (h : Keeps false w s0 s) {g d : Nat} {o : CollOp} {x : Machine.Acc α} (hx : Acc false w s0 x)
    {k : α → State → State} (hk : ∀ a t, Keeps false w s0 t → Keeps false w s0 (k a t)) : Keeps false w s0 (collAcc g d o s x k) := by
  cases x with
  | ok a t => exact hk a t hx
  | fault kind va t => exact (recordFault hx _ _ _).collFail _ _ _ _ _
  | wait m va t => exact h.waitAtStack _

theorem collSend (h : Keeps false w s0 s) {g d : Nat} {q : Bool} {rank kind dir round pos : Nat} {payload : List Byte} {c : Option Nat}
    {k : State → State} (hk : ∀ t, Keeps false w s0 t → Keeps false w s0 (k t)) :
    Keeps false w s0 (collSend g d q rank kind dir round pos payload c s k) := by
  unfold Machine.collSend
  refine .ite (fun _ => h) fun _ => ?_
  split
  · exact h
  · next o _ =>
    have hp := h.collPost d (((s.group g).members o.bank).getD rank 0) (s.groupTenant g) c
      (collHeader g (s.stamped d o) kind dir round pos (s.group g).ggen ++ payload)
    dsimp only
    split
    · next hb => rw [hb] at hp; exact hk _ (.ite (fun _ => hp.pmcCount _ _ _ _) fun _ => hp)
    · next hb => rw [hb] at hp; exact hp.collFail _ _ _ _ _

theorem resendChunks (h : Keeps false w s0 s) (g d dir : Nat) (due : CollChunk → Bool) : Keeps false w s0 (resendChunks g d dir due s) := by
  unfold Machine.resendChunks
  split
  · exact h
  · refine .ite (fun _ => h) fun _ => foldl (fun s k h => ?_) _ h
    split
    · exact h
    · exact h.collAcc (h.vaRead _ _ _) fun bs t h => ((h.setOp _ _ _ _).bump (free_die _ _) _).collSend fun _ h => h

theorem resendQuick (h : Keeps false w s0 s) (g d : Nat) (due : QuickMsg → Bool) : Keeps false w s0 (resendQuick g d due s) := by
  unfold Machine.resendQuick
  split
  · exact h
  · refine .ite (fun _ => h) fun _ => foldl (fun s k h => ?_) _ h
    split
    · exact h
    · exact ((h.setOp _ _ _ _).bump (free_die _ _) _).collSend fun _ h => h

theorem rerouteTo (h : Keeps false w s0 s) {changed : Nat → Nat → Bool} {g d peer bank n : Nat} {resend : State → State}
    (hr : Keeps false w s0 (resend s)) : Keeps false w s0 (rerouteTo changed g d peer bank n resend s) :=
  .ite (fun _ => h) fun _ => hr.collEvent _ _ _ _ _ _

theorem routeChanged (h : Keeps false w s0 s) (changed : Nat → Nat → Bool) : Keeps false w s0 (routeChanged changed s) := by
  refine foldl (fun s p h => ?_) _ h
  extract_lets g d s1
  have h1 : Keeps false w s0 s1 := by
    refine foldl (fun s dir h => ?_) _ h
    split
    · exact h
    · exact h.rerouteTo (h.resendChunks _ _ _ _)
  split
  · exact h1
  · exact foldl (fun s k h => h.rerouteTo (h.resendQuick _ _ _)) _ h1

/-! ### Arrays -/

theorem setArray (h : Keeps e w s0 s) (d c a : Nat) (x : ArraySt) : Keeps e w s0 (s.setArray d c a x) := h.withTile _
theorem setFinals (h : Keeps e w s0 s) (d c : Nat) (x : List (Nat × Nat)) : Keeps e w s0 (s.setFinals d c x) := h.withTile _
theorem setSpills (h : Keeps e w s0 s) (d c : Nat) (x : List Spill) : Keeps e w s0 (s.setSpills d c x) := h.withTile _
theorem updPw (h : Keeps e w s0 s) (d : Nat) (g : PwDie → PwDie) : Keeps e w s0 (s.updPw d g) := h.withPower _

theorem free_freezeReg (d k : Nat) : Free w (freezeReg d k) := by
  unfold freezeReg
  split
  · exact free_die _ _
  · split <;> exact free_die _ _

theorem thaw (h : Keeps e w s0 s) (d c a : Nat) : Keeps e w s0 (thaw d c a s) := by
  unfold Machine.thaw
  dsimp only
  split
  · exact (h.bump (free_freezeReg _ _) _).setArray _ _ _ _
  · exact h

theorem leaveArray (h : Keeps e w s0 s) (d c q seq a : Nat) : Keeps e w s0 (leaveArray d c q seq s a) := by
  have ht : Keeps e w s0 (if (s.array d c a).serves q seq then Machine.thaw d c a s else s) := .ite (fun _ => h.thaw _ _ _) fun _ => h
  exact ht.setArray _ _ _ _

theorem dropTile (h : Keeps e w s0 s) (q seq : Nat) : Keeps e w s0 (dropTile q seq s) := by
  unfold Machine.dropTile
  split
  · exact h
  · refine (foldl (fun s c h => ?_) _ h).withTile _
    exact ((foldl (fun _ _ h => h.leaveArray _ _ _ _ _) _ h).setFinals _ _ _).setSpills _ _ _

theorem landRow (h : Keeps e w s0 s) (rq : Req) (x : Spill) : Keeps e w s0 (landRow rq s x) := by
  have hw := h.draw.vaWrite rq x.va x.bytes
  unfold Machine.landRow
  dsimp only
  refine .ite (fun _ => h.draw) fun _ => ?_
  split
  · next hb => rw [hb] at hw; exact hw
  · exact h.draw

theorem landSome (h : Keeps e w s0 s) (q seq : Nat) : Keeps e w s0 (landSome q seq s) := by
  unfold Machine.landSome
  split
  · exact foldl (fun _ _ h => h.landRow _ _) _ h
  · exact h

theorem failTile (h : Keeps false w s0 s) (r : TileRun) (c status : Nat) : Keeps false w s0 (failTile r c status s) :=
  ((h.landSome _ _).dropTile _ _).endCommand _ _ _ _

/-! ### Streams -/

theorem d2dEvent (h : Keeps e w s0 s) (d kind port strand cluster num : Nat) (part : Option Nat) :
    Keeps e w s0 (d2dEvent d kind port strand cluster num part s) :=
  (((h.setRegN (free_die _ _) _).setRegN (free_die _ _) _).logRegister _ _ _ _ _).raiseEvent _

theorem streamEvent (h : Keeps e w s0 s) (x : Stream) (kind cl : Nat) : Keeps e w s0 (streamEvent x kind cl s) := h.d2dEvent _ _ _ _ _ _ _
theorem updStream (h : Keeps false w s0 s) (n : Nat) (g : Stream → Stream) : Keeps false w s0 (updStream n g s) := h.withD2d _

theorem unbindStream (h : Keeps false w s0 s) (n : Nat) : Keeps false w s0 (unbindStream n s) := by
  unfold Machine.unbindStream
  split
  · split
    · exact (h.setBank _ _).updStream _ _
    · exact h
  · exact h

theorem failStream (h : Keeps false w s0 s) (n status : Nat) : Keeps false w s0 (failStream n status s) := by
  unfold Machine.failStream
  split
  · exact h
  · refine .ite (fun _ => h) fun _ => ?_
    extract_lets s1 s2 s3
    have h2 : Keeps false w s0 s2 := (((h.updStream _ _).bump (free_die _ _) _).streamEvent _ _ _).unbindStream _
    have h3 : Keeps false w s0 s3 := .ite (fun _ => h2.endCommand _ _ _ _) fun _ => h2
    refine foldl (fun s r h => ?_) _ h3
    split
    · exact h.failTile _ _ _
    · exact h

end Keeps
end Sys2Proof.Machine
end

section
/-! What the failure of commands, edges and functions leaves. -/
namespace Sys2Proof.Machine
open Sys2Proof

/-- In a canonical memory, entries kept by a filter read as before. -/
theorem cget_filter_of_cwf {α : Type} [DecidableEq α] {d : α} {g : Nat × α → Bool} {b : Nat} (hg : ∀ x, g (b, x) = true) :
    ∀ {lo : Nat} {m : List (Nat × α)}, cwfFrom d lo m = true → cget d (m.filter g) b = cget d m b
  | _, [], _ => rfl
  | lo, (c, x) :: m, h => by
    simp only [cwfFrom, Bool.and_eq_true] at h
    obtain ⟨-, hm⟩ := h
    by_cases hgc : g (c, x) = true
    · rw [List.filter_cons_of_pos hgc, cget, cget, cget_filter_of_cwf hg hm]
    · have hbc : b ≠ c := fun hbc => hgc (hbc ▸ hg x)
      rw [List.filter_cons_of_neg hgc, cget, if_neg hbc]
      split
      · next hlt => exact cget_below d (cwfFrom_filter d g hm) (by omega)
      · exact cget_filter_of_cwf hg hm

namespace Keeps
variable {e : Bool} {w : List Nat} {s0 s t : State}

theorem foldlMem {β : Type} {g : State → β → State} : ∀ (l : List β), (∀ b ∈ l, ∀ s, Keeps e w s0 s → Keeps e w s0 (g s b)) →
    ∀ {s : State}, Keeps e w s0 s → Keeps e w s0 (l.foldl g s)
  | [], _, _, h => h
  | b :: l, hg, s, h => foldlMem l (fun c hc => hg c (List.mem_cons_of_mem _ hc)) (hg b (List.mem_cons_self ..) s h)

/-- A range of registers without a key register is cleared. -/
theorem clearRegs (h : Keeps e w s0 s) (lo hi : Nat) (hfree : ∀ a ∈ keyRegs, a < lo ∨ hi ≤ a) :
    Keeps e w s0 { s with regs := cclear s.regs lo hi } := by
  have hreg : ∀ a ∈ keyRegs, a ∉ w → cwf 0 s0.regs = true ∨ s0.reg a ≠ 0 → cget 0 (cclear s.regs lo hi) a = s0.reg a := by
    intro a ha haw hs
    have hsa := h.reg a ha haw hs
    have hkept (x : Word64) : (decide ((a, x).1 < lo) || decide (hi ≤ (a, x).1)) = true := by
      have := hfree a ha; simpa using this
    rcases hs with hc | hn
    · exact (cget_filter_of_cwf hkept (h.canon hc)).trans hsa
    · exact (cget_filter_of_ne (ne_of_eq_of_ne hsa hn) hkept).trans hsa
  exact { h with canon := fun hc => cwf_cclear lo hi (h.canon hc), reg := hreg }

/-! ### Links -/

theorem refreshPort (h : Keeps e w s0 s) (l : Nat) : Keeps e w s0 (refreshPort l s) :=
  foldl (fun _ _ h => (h.setReg (free_dieAt _ _ _) _).setRegN (free_dieAt _ _ _) _) _ h

theorem clearWire (h : Keeps false w s0 s) (l k : Nat) : Keeps false w s0 (clearWire l k s) := h.withD2d _

theorem redealStrand (h : Keeps false w s0 s) (x k : Nat) : Keeps false w s0 (redealStrand x k s) :=
  foldl (fun _ _ h => h.enqueueFrame _ _ _) _ (h.setTx _ _ _)

theorem rerouteWaiting (h : Keeps false w s0 s) (x : Nat) : Keeps false w s0 (rerouteWaiting x s) :=
  foldl (fun _ _ h => foldl (fun _ _ h => h.enqueueFrame _ _ _) _ (h.setWaiting _ _ _ _)) _ h

theorem dropFramesOf (h : Keeps false w s0 s) (d : Nat) : Keeps false w s0 (dropFramesOf d s) :=
  foldl (fun _ _ h => h.freeBuffer _ _ _) _ ((h.dropCrossings _).withD2d _)

theorem edgeOutOfService (h : Keeps false w s0 s) (l by_ : Nat) : Keeps false w s0 (edgeOutOfService l by_ s) := by
  unfold Machine.edgeOutOfService
  extract_lets a b s1 s2 moved s3
  have h2 : Keeps false w s0 s2 := ((h.setRfld (free_dieAt _ _ _) _ _ _).setRfld (free_dieAt _ _ _) _ _ _).d2dEvent _ _ _ _ _ _ _
  clear_value s2
  split
  · exact foldl (fun _ _ h => h.failStream _ _) _ ((h2.routeChanged _).raiseAlarm _ _ _ _)
  · refine routeChanged ?_ _
    refine foldl (fun _ _ h => (h.rerouteWaiting _).rerouteWaiting _) _ ?_
    refine foldl (fun _ _ h => ((h.clearWire _ _).redealStrand _ _).redealStrand _ _) _ ?_
    exact (h2.setRfld (free_dieAt _ _ _) _ _ _).setRfld (free_dieAt _ _ _) _ _ _

theorem repairWires (h : Keeps false w s0 s) (x k : Nat) (ws : List Nat) : Keeps false w s0 (repairWires x k ws s) :=
  foldl (fun _ _ h => ((h.setStrand _ _ _).d2dEvent _ _ _ _ _ _ _).addHealth (by simp)) _ h

/-! ### Units -/

theorem setSrl (h : Keeps e w s0 s) (d : Nat) (x : SrlDie) : Keeps e w s0 (s.setSrl d x) := h.withSrl _

theorem returnCluster (h : Keeps e w s0 s) (d c : Nat) : Keeps e w s0 (returnCluster d c s) := by
  unfold Machine.returnCluster
  split
  · exact h
  · exact ((h.updClus _ _ _).bump (free_die _ _) _).withTile _

theorem dropSorrel (h : Keeps e w s0 s) (q seq : Nat) : Keeps e w s0 (dropSorrel q seq s) := by
  unfold Machine.dropSorrel
  exact .ite (fun _ => (foldl (fun _ _ h => h.returnCluster _ _) _ h).setSrl _ _) fun _ => h

theorem srlEvent (h : Keeps e w s0 s) (d code q : Nat) (part : Option Nat) (step id : Nat) : Keeps e w s0 (srlEvent d code q part step id s) :=
  ((h.setRegN (free_die _ _) _).setRegN (free_die _ _) _).raiseEvent _

theorem tornEvent (h : Keeps e w s0 s) (d q : Nat) (id : Nat × Nat) : Keeps e w s0 (tornEvent d q id s) :=
  (h.bump (free_die _ _) _).srlEvent _ _ _ _ _ _

/-- Moves, waits and streams' waits go. -/
theorem withoutUnits (h : Keeps false w s0 s) (x : CluSt) (p : SynWait → Bool) (r : List RemoteOp) (y : D2dSt) :
    Keeps false w s0 { s with clu := x, syn := { s.syn with waits := s.syn.waits.filter p, remotes := r }, d2d := y } :=
  ((h.withClu x).withSyn { s.syn with waits := s.syn.waits.filter p, remotes := r } fun _ hy => List.mem_of_mem_filter hy).withD2d y

theorem dropUnits (h : Keeps false w s0 s) (q seq cause : Nat) : Keeps false w s0 (dropUnits q seq cause s) := by
  unfold Machine.dropUnits
  extract_lets s1 keys s2
  have h1 : Keeps false w s0 s1 := ((((h.landSome q seq).dropTile q seq).collDrop q seq cause).dropTwin q seq).dropSorrel q seq
  have h2 : Keeps false w s0 s2 := foldl (fun _ _ h => h.updClus _ _ _) _ h1
  clear_value s2
  exact h2.withoutUnits _ _ _ _

theorem failCommand (h : Keeps false w s0 s) (q seq status detail : Nat) : Keeps false w s0 (failCommand q seq status detail s) := by
  unfold Machine.failCommand
  split
  · exact (h.dropUnits _ _ _).endCommand _ _ _ _
  · exact ((h.tornEvent _ _ _).dropUnits _ _ _).endCommand _ _ _ _

/-! ### Clusters -/

theorem setSpareByte (h : Keeps e w s0 s) (d c v : Nat) : Keeps e w s0 (setSpareByte d c v s) := h.setRfld (free_dieAt _ _ _) _ _ _

theorem classify (h : Keeps e w s0 s) (cls d c a source engine q : Nat) (part : Option Nat) :
    Keeps e w s0 (classify cls d c a source engine q part s) := by
  unfold Machine.classify
  extract_lets seq eng v s1 s2 s3 ev
  have h1 : Keeps e w s0 s1 := (h.setRegN (free_die _ _) _).setRegN (free_die _ _) _
  have h2 : Keeps e w s0 s2 := .ite (fun _ => h1.bump (free_die _ _) _) fun _ => .ite (fun _ => h1.bump (free_die _ _) _) fun _ =>
    .ite (fun _ => h1.bump (free_die _ _) _) fun _ => h1
  exact ((h2.logRegister _ _ _ _ _).raiseEvent _).auditEvent _

theorem degrade (h : Keeps false w s0 s) (d c : Nat) : Keeps false w s0 (degrade d c s) := by
  unfold Machine.degrade
  exact (((h.setSpareByte _ _ _).updClus _ _ _).addHealth (by simp)).updateEngineCount _

/-! ### Queues and functions -/

theorem failUnit (h : Keeps false w s0 s) (q status : Nat) : Keeps false w s0 (failUnit q status s) := by
  unfold Machine.failUnit
  dsimp only
  split
  · exact h
  · exact (h.setQueue _ _).endAll _

theorem stopUnitWork (h : Keeps false w s0 s) (q : Nat) (u : FillUnit) (k : Bool) : Keeps false w s0 (stopUnitWork q u k s) := by
  unfold Machine.stopUnitWork
  extract_lets runs mine s1 x
  have h1 : Keeps false w s0 s1 := foldl (fun _ _ h => releaseBanks _ (h.dropUnits _ _ _)) _ h
  exact (h1.setQueue _ _).withHbm _

theorem endAttempt (h : Keeps false w s0 s) (q : Nat) : Keeps false w s0 (endAttempt q s) := by
  unfold Machine.endAttempt
  dsimp only
  split
  · exact h
  · split
    · exact h
    · next u _ _ =>
      have hg := (h.stopUnitWork q u false).giveBack q
      split
      · exact ((((hg.setQueue _ _).bump (free_die _ _) _).trnEvent _ _ _ _ _ _).trnEvent _ _ _ _ _ _).failUnit _ _
      · exact (finishStop (refreshQuiesced (((hg.setQueue _ _).bump (free_die _ _) _).trnEvent _ _ _ _ _ _) _) _).endAll _

theorem abortFlights (h : Keeps false w s0 s) (q status : Nat) : Keeps false w s0 (abortFlights q status s) :=
  foldl (fun _ _ h => h.failCommand _ _ _ _) _ (h.endAttempt _)

theorem disableQueue (h : Keeps false w s0 s) (q : Nat) : Keeps false w s0 (disableQueue q s) :=
  ((((releaseBanks _ h).setQueue _ _).abortFlights _ _).setQueue _ _).endAll _

theorem resetFnRegs (h : Keeps e w s0 s) (f : Nat) : Keeps e w s0 (resetFnRegs f s) := by
  unfold Machine.resetFnRegs
  extract_lets s1 s2
  have h1 : Keeps e w s0 s1 := h.setRegF (free_fn f (by decide) (by decide)) _
  refine withMgt (s := s2) (foldlMem _ (fun off hoff _ h => h.setRegF ?_ 0) h1) _
  simp only [List.mem_cons, List.not_mem_nil, or_false] at hoff
  rcases hoff with rfl | rfl | rfl | rfl | rfl | rfl | rfl | rfl | rfl | rfl | rfl | rfl | rfl | rfl <;>
    exact free_fn f (by decide) (by decide)

theorem functionReset (h : Keeps false w s0 s) (f : Nat) : Keeps false w s0 (functionReset f s) := by
  unfold Machine.functionReset
  exact ((foldl (fun _ _ h => h.disableQueue _) _ (h.setFn _ _)).withHost _).resetFnRegs _

theorem resetAllFunctions (h : Keeps false w s0 s) : Keeps false w s0 (resetAllFunctions s) := by
  unfold Machine.resetAllFunctions
  extract_lets s1 _
  have h1 : Keeps false w s0 s1 := foldl (fun _ _ h => h.functionReset _) _ h
  clear_value s1
  have hfree : ∀ a ∈ keyRegs, a < ZG_MBX_BUF 0 ∨ ZG_MBX_RESP 0 ≤ a := by
    simp [keyRegs, ZG_TIME_STATUS, ZG_BOOT_STATE, ZG_BOOT_DIES, ZG_MGT_STATE, ZG_MBX_BUF, ZG_MBX_RESP]
  exact (h1.clearRegs _ _ hfree).withHost _

end Keeps
end Sys2Proof.Machine
end

section
/-! What training, self-tests and the steps of a reset leave. -/
namespace Sys2Proof.Machine
open Sys2Proof
namespace Keeps
variable {e : Bool} {w : List Nat} {s0 s t : State}

/-! ### Self-tests -/

theorem failCluster (h : Keeps false w s0 s) (d : Nat) (fails : List TestFail) (c : Nat) : Keeps false w s0 (failCluster d fails s c) := by
  unfold Machine.failCluster
  extract_lets bad v s1 taken bad' free s2 lost
  have h1 : Keeps false w s0 s1 := .ite (fun _ => (h.setSpareByte _ _ _).classify _ _ _ _ _ _ _ _) fun _ => h
  have h2 : Keeps false w s0 s2 := by
    unfold s2
    clear_value bad'
    split
    · exact .ite (fun _ => ((h1.setSpareByte _ _ _).addHealth (by simp)).setArray _ _ _ _) fun _ => h1
    · exact h1
  exact .ite (fun _ => h2.degrade _ _) fun _ => h2

theorem selfTestFailures (h : Keeps false w s0 s) (d : Nat) (fails : List TestFail) : Keeps false w s0 (selfTestFailures d fails s) := by
  unfold Machine.selfTestFailures
  refine foldl (fun _ _ h => .ite (fun _ => h.failCluster _ _ _) fun _ => h) _ ?_
  exact foldl (fun _ _ h => (h.addHealth (by simp)).intEvent _ _ _ _ _ _) _ h

theorem applySpare (h : Keeps e w s0 s) (d : Nat) (subst degs : List HealthEntry) (c : Nat) : Keeps e w s0 (applySpare d subst degs s c) := by
  unfold Machine.applySpare
  exact (h.setSpareByte _ _ _).updClus _ _ _

theorem applyHealth (h : Keeps e w s0 s) (d : Nat) : Keeps e w s0 (applyHealth d s) := by
  unfold Machine.applyHealth
  refine foldl (fun _ _ h => .ite (fun _ => h.setFrameByte _ _ _) fun _ => h) _ ?_
  exact foldl (fun _ _ h => h.applySpare _ _ _ _) _ h

/-! ### Power -/

theorem pwrEvent (h : Keeps e w s0 s) (code src data : Nat) : Keeps e w s0 (pwrEvent code src data s) :=
  ((h.setRegN (free_pkg (by decide)) _).setRegN (free_pkg (by decide)) _).raiseEvent _

theorem refreshTable (h : Keeps e w s0 s) (d : Nat) : Keeps e w s0 (refreshTable d s) :=
  (h.setRegN (free_die _ _) _).setRegN (free_die _ _) _

theorem refreshPwd (h : Keeps e w s0 s) (d : Nat) : Keeps e w s0 (refreshPwd d s) := by
  unfold Machine.refreshPwd
  extract_lets cause x thr s1 ps s2 s3
  have h2 : Keeps e w s0 s2 := (h.updPw _ _).setRegN (free_die _ _) _
  have h3 : Keeps e w s0 s3 := .ite (fun _ => h2) fun _ => h2.bump (free_die _ _) _
  exact .ite (fun _ => h2) fun _ => h3.pwrEvent _ _ _

theorem seekNom (h : Keeps e w s0 s) (d : Nat) : Keeps e w s0 (seekNom d s) := (h.updPw _ _).refreshPwd _

theorem takeTables (h : Keeps e w s0 s) (ds : List Nat) : Keeps e w s0 (takeTables ds s) :=
  foldl (fun _ _ h => (h.withPower _).refreshTable _) _ h

/-! ### Training -/

theorem trainStrand (h : Keeps false w s0 s) (t : Training) (l k : Nat) : Keeps false w s0 (trainStrand t l s k) := by
  unfold Machine.trainStrand
  extract_lets s1 found short
  have h1 : Keeps false w s0 s1 := h.setStrand _ _ _
  exact .ite (fun _ => h1.setStrand _ _ _) fun _ => foldl (fun _ _ h => h.repairWires _ _ _) _ h1

theorem trainLink (h : Keeps false w s0 s) (t : Training) (l : Nat) : Keeps false w s0 (trainLink t s l) := by
  unfold Machine.trainLink
  refine refreshPort ?_ _
  refine foldl (fun _ _ h => (h.setRfld (free_dieAt _ _ _) _ _ _).setRfld (free_dieAt _ _ _) _ _ _) _ ?_
  refine foldl (fun _ _ h => h.trainStrand _ _ _) _ ?_
  exact foldl (fun _ _ h => h.withD2d _) _ h

theorem trainLinks (h : Keeps false w s0 s) (t : Training) (ls : List Nat) : Keeps false w s0 (trainLinks t ls s) := by
  unfold Machine.trainLinks
  refine foldl (fun _ _ h => (h.edgeOutOfService _ _).raiseAlarm _ _ _ _) _ ?_
  exact foldl (fun _ _ h => h.trainLink _ _) _ h

theorem trainStack (h : Keeps e w s0 s) (t : Training) (m : Nat) : Keeps e w s0 (trainStack t false s m) := by
  unfold Machine.trainStack
  extract_lets slow dead rows fix r v v' s1 _ s2 s3
  have hfix : fix = [] := rfl
  have h2 : Keeps e w s0 s2 := (h.setReg (free_dieAt _ _ _) _).setStack _ _
  have h3 : Keeps e w s0 s3 := .ite (fun _ => h2.raiseEvent _) fun _ => h2
  rw [hfix]
  exact .ite (fun _ => h3) fun _ => h3

/-! ### Dies -/

theorem clearDie (h : Keeps false w s0 s) (d : Nat) : Keeps false w s0 (clearDie d s) := by
  unfold Machine.clearDie
  have h1 : Keeps false w s0 (Machine.dropFramesOf d s) := h.dropFramesOf d
  refine updPw (foldl (fun _ _ h => h.setStack _ _) _ ?_) _ _
  exact { h1 with told := nofun }

theorem trainPorts (h : Keeps false w s0 s) (d : Nat) : Keeps false w s0 (trainPorts d s) :=
  foldl (fun _ _ h => .ite (fun _ => h) fun _ => h.leaveTo _ _) _ h

section
variable (hw : ZG_BOOT_DIES ∈ w)
include hw

theorem setDieState (h : Keeps e w s0 s) (d v : Nat) : Keeps e w s0 (setDieState d v s) := h.setRfld (fun _ => hw) _ _ _

theorem setDies (h : Keeps e w s0 s) (v : Nat) : Keeps e w s0 (setDies v s) :=
  foldl (fun _ _ h => .ite (fun _ => h) fun _ => setDieState hw h _ _) _ h

theorem switchService (h : Keeps e w s0 s) (d : Nat) (r : Bool) (n : Nat) : Keeps e w s0 (switchService d r n s) :=
  ((h.setReg (free_die _ _) _).setRegN (free_die _ _) _).setRfld (fun _ => hw) _ _ _

theorem enterReduced (h : Keeps e w s0 s) (d : Nat) : Keeps e w s0 (enterReduced d s) :=
  .ite (fun _ => h) fun _ => switchService hw h _ _ _

theorem leaveReduced (h : Keeps e w s0 s) (d : Nat) : Keeps e w s0 (leaveReduced d s) :=
  .ite (fun _ => switchService hw h _ _ _) fun _ => h
end

/-! ### Events and stages of start-ups -/

theorem bootEvent (h : Keeps e w s0 s) (code data sev : Nat) : Keeps e w s0 (bootEvent code data sev s) :=
  ((h.setRegN (free_pkg (by decide)) _).setRegN (free_pkg (by decide)) _).raiseEvent _

section
variable (hw : ZG_BOOT_STATE ∈ w)
include hw
theorem setStage (h : Keeps e w s0 s) (n : Nat) : Keeps e w s0 (setStage n s) := h.setRfld (fun _ => hw) _ _ _
theorem setReady (h : Keeps e w s0 s) (on : Bool) : Keeps e w s0 (setReady on s) := h.setRfld (fun _ => hw) _ _ _
end

/-! ### Queues that a reset shuts -/

theorem shutQueue (h : Keeps false w s0 s) (q : Nat) : Keeps false w s0 (shutQueue q s) := (h.abortFlights _ _).setQueue _ _

theorem shutAdmin (h : Keeps false w s0 s) (f : Nat) : Keeps false w s0 (shutAdmin f s) := by
  unfold Machine.shutAdmin
  extract_lets q s1 v
  have h1 : Keeps false w s0 s1 := .ite (fun _ => h) fun _ => h.disableQueue _
  exact .ite (fun _ => h1.setRegF (free_fn _ (by decide) (by decide)) _) fun _ => h1

theorem resetQueue (h : Keeps false w s0 s) (q : Nat) : Keeps false w s0 (resetQueue q s) := by
  unfold Machine.resetQueue
  have hq := (h.abortFlights q 0x0908).setQueue q
    { (Machine.abortFlights q 0x0908 s).queue q with fetched := [], bad := none, retries := 0, regions := [], unit := none }
  exact .ite (fun _ => hq) fun _ => hq.enterError _ _

/-! ### Rejected writes -/

theorem rejectWrite (h : Keeps e w s0 s) (f off kind value : Nat) : Keeps e w s0 (rejectWrite f off kind value s) := by
  unfold Machine.rejectWrite
  extract_lets v s1 s2 seq last s3 s4 s5 prev _ s6
  have h2 : Keeps e w s0 s2 := (h.setRegF (free_fn _ (by decide) (by decide)) _).bumpF (free_fn _ (by decide) (by decide)) _
  have h5 : Keeps e w s0 s5 := ((h2.setRegF (free_fn _ (by decide) (by decide)) _).setRegF (free_fn _ (by decide) (by decide)) _).setRegF
    (free_fn _ (by decide) (by decide)) _
  exact .ite (fun _ => h5) fun _ => (h5.withMgt _).pushLog _

end Keeps
end Sys2Proof.Machine
end

section
/-! How resets begin. -/
namespace Sys2Proof.Machine
open Sys2Proof

/-! ### Fields of registers that resets set -/

/-- A field set to a value other than zero keeps the register from being zero. -/
theorem setFld_ne_zero {w : Word64} {hi lo x : Nat} (h64 : hi < 64) (hx : x % 2 ^ (hi + 1 - lo) ≠ 0) : setFld w hi lo x ≠ 0 :=
  ne_zero_of_fld (hi := hi) (lo := lo) (ne_of_eq_of_ne (fld_setFld_same w x h64) hx)

/-- A key register that events and work leave as it was reads as it did. -/
theorem Keeps.rfld {e : Bool} {w : List Nat} {s t : State} (h : Keeps e w s t) {a : Nat} (ha : a ∈ keyRegs) (haw : a ∉ w)
    (hs : cwf 0 s.regs = true ∨ s.reg a ≠ 0) (hi lo : Nat) : t.rfld a hi lo = s.rfld a hi lo := by
  rw [State.rfld, State.rfld, h.reg a ha haw hs]

/-- STAGE and READY just set: the stage reads back where it is not zero. -/
theorem setReady_setStage {s : State} {n : Nat} (on : Bool) (hn : n % 256 ≠ 0) :
    (setReady on (setStage n s)).reg ZG_BOOT_STATE = setFld (setFld (s.reg ZG_BOOT_STATE) 7 0 n) 15 15 (b2n on)
      ∧ setFld (setFld (s.reg ZG_BOOT_STATE) 7 0 n) 15 15 (b2n on) ≠ 0
      ∧ (setReady on (setStage n s)).stage = n % 256 ∧ (setReady on (setStage n s)).ready = on := by
  have hstage : setFld (s.reg ZG_BOOT_STATE) 7 0 n ≠ 0 := setFld_ne_zero (by omega) hn
  have h7 : fld (setFld (setFld (s.reg ZG_BOOT_STATE) 7 0 n) 15 15 (b2n on)) 7 0 = n % 256 := by
    rw [fld_setFld_other _ _ (by omega) (by omega)]; exact fld_setFld_same _ _ (by omega)
  have h15 : fld (setFld (setFld (s.reg ZG_BOOT_STATE) 7 0 n) 15 15 (b2n on)) 15 15 = b2n on := by
    rw [fld_setFld_same _ _ (by omega)]; cases on <;> rfl
  have hne : setFld (setFld (s.reg ZG_BOOT_STATE) 7 0 n) 15 15 (b2n on) ≠ 0 := ne_zero_of_fld (ne_of_eq_of_ne h7 hn)
  have hset : (setStage n s).reg ZG_BOOT_STATE = setFld (s.reg ZG_BOOT_STATE) 7 0 n := State.setReg_reg_self (.inr hstage)
  have hreg : (setReady on (setStage n s)).reg ZG_BOOT_STATE = setFld (setFld (s.reg ZG_BOOT_STATE) 7 0 n) 15 15 (b2n on) := by
    rw [setReady, State.setRfld, hset]
    exact State.setReg_reg_self (.inr hne)
  refine ⟨hreg, hne, ?_, ?_⟩
  · rw [State.stage, State.rfld, hreg, h7]
  · rw [State.ready, State.rfld, hreg, h15]; cases on <;> rfl

/-! ### A warm reset begins -/

/-- The package when a warm reset has been announced: STAGE 12, not READY. -/
def warmNoted (cause : Nat) (s : State) : State :=
  let s := setReady false (setStage 12 (bootEvent 3 cause 0 s))
  { s with boot := { s.boot with startedAt := s.now, resetClass := 2, step13 := false } }

/-- Ports are left and queues are shut. -/
def warmQuiet (s : State) : State :=
  let s := (List.range 24).foldl (fun s p => if s.portState p = 0 then s else leaveTo p 0 s) s
  let s := s.liveQueues.foldl (fun s q => shutQueue q s) s
  (List.range 65).foldl (fun s f => shutAdmin f s) s

/-- Groups, objects, streams and what waits are gone. -/
def warmBare (s : State) : State :=
  { s with coll := {}, banks := cclear s.banks (memberTable 0) routeTable,
           syn := {}, hbm := { s.hbm with waits := [], tlb := [], mapBuf := [], mapCache := [] }, d2d := { s.d2d with streams := [] },
           wfn := { s.wfn with controls := [] } }

/-- The dies are in reset. -/
def warmDies (s : State) : State := setDies 0 ((List.range 4).foldl (fun s d => enterReduced d (clearDie d s)) s)

/-- Betony and the mailbox are in reset. -/
def warmHub (s : State) : State := (s.setRfld ZG_MGT_STATE 2 0 2).setRfld ZG_MBX_STATUS 2 0 3

theorem beginWarm_eq (cause : Nat) (s : State) : beginWarm cause s = warmHub (warmDies (warmBare (warmQuiet (warmNoted cause s)))) := rfl

theorem warmQuiet_keeps {w : List Nat} {s0 s : State} (h : Keeps false w s0 s) : Keeps false w s0 (warmQuiet s) := by
  refine Keeps.foldl (fun _ _ h => h.shutAdmin _) _ (Keeps.foldl (fun _ _ h => h.shutQueue _) _ ?_)
  exact Keeps.foldl (fun _ _ h => .ite (fun _ => h) fun _ => h.leaveTo _ _) _ h

theorem warmBare_keeps {w : List Nat} {s0 s : State} (h : Keeps false w s0 s) : Keeps false w s0 (warmBare s) :=
  { h with waits := nofun, told := nofun }

theorem warmDies_keeps {w : List Nat} (hw : ZG_BOOT_DIES ∈ w) {s0 s : State} (h : Keeps false w s0 s) : Keeps false w s0 (warmDies s) :=
  Keeps.setDies hw (Keeps.foldl (fun _ _ h => Keeps.enterReduced hw (h.clearDie _) _) _ h) _

theorem warmHub_keeps {e : Bool} {w : List Nat} (hw : ZG_MGT_STATE ∈ w) {s0 s : State} (h : Keeps e w s0 s) : Keeps e w s0 (warmHub s) :=
  (h.setRfld (fun _ => hw) _ _ _).setRfld (free_pkg (by decide)) _ _ _

/-- From the announcement on, the beginning of a warm reset writes of the key registers the dies' states and Betony's. -/
theorem beginWarm_keeps (cause : Nat) (s : State) : Keeps false [ZG_BOOT_DIES, ZG_MGT_STATE] (warmNoted cause s) (beginWarm cause s) := by
  rw [beginWarm_eq]
  exact warmHub_keeps (by simp) (warmDies_keeps (by simp) (warmBare_keeps (warmQuiet_keeps (Keeps.refl _))))

/-- Before it, an event and STAGE and READY. -/
theorem beginWarm_announced_keeps (cause : Nat) (s : State) :
    Keeps false [ZG_BOOT_STATE] s (setReady false (setStage 12 (bootEvent 3 cause 0 s))) :=
  Keeps.setReady (by simp) (Keeps.setStage (by simp) ((Keeps.refl s).bootEvent _ _ _) _) _

theorem beginWarm_stage (cause : Nat) (s : State) : (beginWarm cause s).stage = 12 ∧ (beginWarm cause s).ready = false := by
  obtain ⟨hreg, hne, hstage, hready⟩ := setReady_setStage (s := bootEvent 3 cause 0 s) (n := 12) false (by omega)
  have hk : ∀ hi lo, (beginWarm cause s).rfld ZG_BOOT_STATE hi lo
      = (setReady false (setStage 12 (bootEvent 3 cause 0 s))).rfld ZG_BOOT_STATE hi lo := fun hi lo =>
    (beginWarm_keeps cause s).rfld (by decide) (by decide) (.inr (ne_of_eq_of_ne hreg hne)) hi lo
  refine ⟨(hk 7 0).trans hstage, ?_⟩
  rw [State.ready, hk]; exact hready

/-! What a die's clearing leaves of groups, objects and streams -/

/-- No group, object or stream is defined. -/
def Bare (s : State) : Prop := s.coll = {} ∧ s.syn = {} ∧ s.d2d.streams = []

theorem foldl_of_step {β : Type} {P : State → Prop} {g : State → β → State} (hg : ∀ s b, P s → P (g s b)) (l : List β) {s : State}
    (h : P s) : P (l.foldl g s) :=
  List.foldlRecOn l g h fun _ hs b _ => hg _ b hs

theorem unbindRoute_bare {s : State} (b : Option Nat) (h : Bare s) : Bare (unbindRoute b s) := by
  unfold unbindRoute
  split <;> exact h

theorem freeBuffer_bare {s : State} (came cls pool : Nat) (h : Bare s) : Bare (freeBuffer came cls pool s) := by
  unfold freeBuffer
  split <;> exact h

theorem dropFramesOf_bare {s : State} (d : Nat) (h : Bare s) : Bare (dropFramesOf d s) := by
  have hc : Bare (dropCrossings d s) := foldl_of_step (fun _ _ h => unbindRoute_bare _ h) _ h
  exact foldl_of_step (fun _ _ h => freeBuffer_bare _ _ _ h) _ hc

theorem clearDie_bare {s : State} (d : Nat) (h : Bare s) : Bare (clearDie d s) := by
  obtain ⟨hcoll, hsyn, hstreams⟩ := dropFramesOf_bare d h
  have hpw {s : State} (g : PwDie → PwDie) (h : Bare s) : Bare (s.updPw d g) := h
  unfold clearDie
  refine hpw _ (foldl_of_step ?_ _ ?_)
  · exact fun _ _ h => h
  refine ⟨?_, ?_, ?_⟩
  · dsimp only; rw [hcoll]; rfl
  · dsimp only; rw [hsyn]; rfl
  · dsimp only; rw [hstreams]; rfl

theorem warmDies_bare {s : State} (h : Bare s) : Bare (warmDies s) := by
  have hdie (s : State) (d : Nat) (h : Bare s) : Bare (enterReduced d (clearDie d s)) := by
    have hc := clearDie_bare d h
    unfold enterReduced
    split <;> exact hc
  refine foldl_of_step (fun s d h => ?_) _ (foldl_of_step hdie _ h)
  split <;> exact h

theorem beginWarm_bare (cause : Nat) (s : State) : Bare (beginWarm cause s) := by
  rw [beginWarm_eq]
  exact warmDies_bare ⟨rfl, rfl, rfl⟩

theorem warmHub_betony (s : State) : (warmHub s).betony = 2 := by
  have hne : setFld (s.reg ZG_MGT_STATE) 2 0 2 ≠ 0 := setFld_ne_zero (by omega) (by decide)
  have hset : (s.setRfld ZG_MGT_STATE 2 0 2).rfld ZG_MGT_STATE 2 0 = 2 := State.setRfld_rfld_same (by omega) (.inr (by decide))
  have hk : Keeps true [] (s.setRfld ZG_MGT_STATE 2 0 2) (warmHub s) := (Keeps.refl _).setRfld (free_pkg (by decide)) _ _ _
  exact (hk.rfld (by decide) (by simp) (.inr (ne_of_eq_of_ne (State.setReg_reg_self (.inr hne)) hne)) 2 0).trans hset

/-- A warm reset that has begun: STAGE 12, no group, object or stream, Betony in reset, and the store and the page tables as they were. -/
theorem beginWarm_spec (cause : Nat) (s : State) : (beginWarm cause s).stage = 12 ∧ (beginWarm cause s).ready = false
    ∧ (beginWarm cause s).coll = {} ∧ (beginWarm cause s).syn = {} ∧ (beginWarm cause s).d2d.streams = []
    ∧ (beginWarm cause s).betony = 2 ∧ (beginWarm cause s).boot.resetClass = 2
    ∧ (beginWarm cause s).store.startups = s.store.startups ∧ (beginWarm cause s).store.minSvn = s.store.minSvn
    ∧ (beginWarm cause s).store.limits = s.store.limits ∧ (beginWarm cause s).store.plan = s.store.plan
    ∧ (beginWarm cause s).hbm.pt = s.hbm.pt := by
  obtain ⟨hstage, hready⟩ := beginWarm_stage cause s
  obtain ⟨hcoll, hsyn, hstreams⟩ := beginWarm_bare cause s
  have hk := beginWarm_keeps cause s
  have ha := beginWarm_announced_keeps cause s
  obtain ⟨h1, h2, h3, h4⟩ := hk.store
  obtain ⟨a1, a2, a3, a4⟩ := ha.store
  exact ⟨hstage, hready, hcoll, hsyn, hstreams, warmHub_betony _, by rw [hk.boot]; rfl, h1.trans a1, h2.trans a2, h3.trans a3,
    h4.trans a4, hk.pt.trans ha.pt⟩

theorem beginWarm_pending (cause : Nat) (s : State) : (beginWarm cause s).pending = s.pending :=
  (beginWarm_keeps cause s).pending.trans (beginWarm_announced_keeps cause s).pending

end Sys2Proof.Machine
end

section
/-! How die resets begin, and resets by a write. -/
namespace Sys2Proof.Machine
open Sys2Proof

/-! ### A die reset begins -/

/-- Queues of the die are shut and the waits on its objects end. -/
def dieQuiet (d : Nat) (s : State) : State :=
  let s := (s.liveQueues.filter (fun q => (s.queue q).die == d)).foldl (fun s q => resetQueue q s) s
  let here := fun (w : SynWait) => w.obj / 4096 == d
  let es := (s.syn.waits.filter here).map (fun w => ({ queue := w.queue, seq := w.seq, status := 0x0908 } : Ending))
  endAll es { s with syn := { s.syn with waits := s.syn.waits.filter (fun w => !here w) } }

/-- Groups and streams of the die end, and its ports are left. -/
def dieSilent (d : Nat) (s : State) : State :=
  let s := ((s.coll.dies.filter (fun p => p.1 % 4 == d)).map Prod.fst).foldl (fun s k => collAbort (k / 4) d 0x0908 0 0 s) s
  let s := ((s.d2d.streams.filter (fun x => x.die == d || x.sender == d)).map (·.gen)).foldl (fun s g => failStream g 0x0908 s) s
  (List.range 6).foldl (fun s k => if s.portState (6 * d + k) = 0 then s else leaveTo (6 * d + k) 0 s) s

theorem beginDie_of_off {d : Nat} {s : State} (h : s.dieState d ≠ 3) : beginDie d s = s := if_pos h

theorem beginDie_of_service {d : Nat} {s : State} (h : s.dieState d = 3) :
    beginDie d s = enterReduced d (clearDie d (dieSilent d (dieQuiet d (setDieState d 4 s)))) := by
  rw [beginDie, if_neg (by simp [h])]
  rfl

theorem dieQuiet_keeps {w : List Nat} {s0 s : State} (d : Nat) (h : Keeps false w s0 s) : Keeps false w s0 (dieQuiet d s) := by
  unfold dieQuiet
  have hq : Keeps false w s0 ((s.liveQueues.filter (fun q => (s.queue q).die == d)).foldl (fun s q => resetQueue q s) s) :=
    Keeps.foldl (fun _ q h => h.resetQueue q) _ h
  exact (hq.withSyn _ fun _ hy => List.mem_of_mem_filter hy).endAll _

/-- No wait on an object of the die remains. -/
theorem dieQuiet_waits {d : Nat} {s : State} {x : SynWait} (hx : x ∈ (dieQuiet d s).syn.waits) : x.obj / 4096 ≠ d := by
  unfold dieQuiet at hx
  have hmem := ((Keeps.refl _).endAll (w := []) _).waits x hx
  simpa using (List.mem_filter.1 hmem).2

theorem dieSilent_keeps {w : List Nat} {s0 s : State} (d : Nat) (h : Keeps false w s0 s) : Keeps false w s0 (dieSilent d s) := by
  refine Keeps.foldl (fun _ _ h => .ite (fun _ => h) fun _ => h.leaveTo _ _) _ ?_
  exact Keeps.foldl (fun _ _ h => h.failStream _ _) _ (Keeps.foldl (fun _ _ h => h.collAbort _ _ _ _ _) _ h)

theorem beginDie_keeps {w : List Nat} (hw : ZG_BOOT_DIES ∈ w) {s0 s : State} (d : Nat) (h : Keeps false w s0 s) :
    Keeps false w s0 (beginDie d s) := by
  by_cases hd : s.dieState d = 3
  · rw [beginDie_of_service hd]
    exact Keeps.enterReduced hw ((dieSilent_keeps d (dieQuiet_keeps d (Keeps.setDieState hw h _ _))).clearDie _) _
  · rw [beginDie_of_off hd]; exact h

/-- The state of a die just set. -/
theorem setDieState_dieState {s : State} {d : Nat} (hd : d < 4) {v : Nat} (h : cwf 0 s.regs = true ∨ v % 8 ≠ 0) :
    (setDieState d v s).dieState d = v % 8 := by
  have hwidth : 8 * d + 7 + 1 - (8 * d + 5) = 3 := by omega
  have h8 : v % 2 ^ (8 * d + 7 + 1 - (8 * d + 5)) = v % 8 := by rw [hwidth]; rfl
  exact (State.setRfld_rfld_same (by omega) (by rw [h8]; exact h)).trans h8

theorem setDieState_other {s : State} (hw : cwf 0 s.regs = true) {d f : Nat} (hf : f < 4) (hfd : f ≠ d) (v : Nat) :
    (setDieState d v s).dieState f = s.dieState f :=
  State.setRfld_rfld_beside (by omega) (by omega) (.inl hw)

/-- A change of the service mode of a die leaves what the dies are in. -/
theorem switchService_dieState {s : State} (hw : cwf 0 s.regs = true) (d : Nat) (r : Bool) (n : Nat) {f : Nat} (hf : f < 4) :
    (switchService d r n s).dieState f = s.dieState f := by
  have h1 := State.setReg_cwf hw (ZG_FMT_SERVICE d) (serviceWord (s.reg (ZG_FMT_SERVICE d)) r n)
  have hservice : ZG_BOOT_DIES ≠ ZG_FMT_SERVICE d ∧ ZG_BOOT_DIES ≠ ZG_FMT_SVC_STAMP d := by
    unfold ZG_FMT_SERVICE ZG_FMT_SVC_STAMP ZG_BOOT_DIES dieBase; omega
  rw [switchService_eq]
  have hbit : ∀ t : State, cwf 0 t.regs = true → (t.setRfld ZG_BOOT_DIES (8 * d + 4) (8 * d + 4) (b2n r)).dieState f = t.dieState f :=
    fun t ht => State.setRfld_rfld_beside (by omega) (by omega) (.inl ht)
  rw [hbit _ (State.setRegN_cwf h1 ..), State.dieState, State.rfld, State.setRegN_reg h1, if_neg hservice.2, State.setReg_reg hw,
    if_neg hservice.1]
  rfl

theorem enterReduced_dieState {s : State} (hw : cwf 0 s.regs = true) (d : Nat) {f : Nat} (hf : f < 4) :
    (enterReduced d s).dieState f = s.dieState f := by
  unfold enterReduced
  split
  · rfl
  · exact switchService_dieState hw d true 2 hf

theorem enterReduced_syn (d : Nat) (s : State) : (enterReduced d s).syn = s.syn := by
  unfold enterReduced
  split <;> rfl

/-- The objects of a die that is cleared. -/
theorem clearDie_objs (d : Nat) (s : State) : ∃ m, (clearDie d s).syn.objs = cclear m (d * 4096) (d * 4096 + 4096) := by
  have hstacks (l : List Nat) (g : State → Nat → Stack) (t : State) : (l.foldl (fun t k => t.setStack (4 * d + k) (g t k)) t).syn = t.syn :=
    foldl_of_step (P := fun u => u.syn = t.syn) (g := fun t k => t.setStack (4 * d + k) (g t k)) (fun _ _ h => h) l rfl
  have hpw (t : State) (g : PwDie → PwDie) : (t.updPw d g).syn = t.syn := rfl
  unfold clearDie
  extract_lets
  rw [hpw, hstacks]
  exact ⟨_, rfl⟩

theorem clearDie_obj {d o : Nat} (s : State) (ho : o / 4096 = d) : cget {} (clearDie d s).syn.objs o = {} := by
  obtain ⟨m, hm⟩ := clearDie_objs d s
  rw [hm]
  refine cget_of_not_listed fun p hp hpo => ?_
  have hkept := (List.mem_filter.1 hp).2
  rw [Bool.or_eq_true, decide_eq_true_eq, decide_eq_true_eq] at hkept
  omega

/-- A die in service that is reset is in state 4, its objects and the waits on them are gone, and the other dies are as they were. -/
theorem beginDie_spec (die : Die) {s : State} (hd : s.dieState die = 3) (hc : s.canonical = true) :
    (beginDie die s).dieState die = 4
      ∧ (∀ e < 4, e ≠ die.val → (beginDie die s).dieState e = s.dieState e)
      ∧ (∀ o, o / 4096 = die.val → cget {} (beginDie die s).syn.objs o = {})
      ∧ (∀ w ∈ (beginDie die s).syn.waits, w.obj / 4096 ≠ die.val)
      ∧ (beginDie die s).hbm.pt = s.hbm.pt ∧ (beginDie die s).store.startups = s.store.startups
      ∧ (beginDie die s).store.limits = s.store.limits ∧ (beginDie die s).store.plan = s.store.plan := by
  have hw := regs_of_canonical hc
  have hw4 : cwf 0 (setDieState die 4 s).regs = true := State.setRfld_cwf hw ..
  have hquiet : Keeps false [] (setDieState die 4 s) (dieQuiet die (setDieState die 4 s)) := dieQuiet_keeps _ (Keeps.refl _)
  have hrest : Keeps false [] (dieQuiet die (setDieState die 4 s))
      (clearDie die (dieSilent die (dieQuiet die (setDieState die 4 s)))) := (dieSilent_keeps _ (Keeps.refl _)).clearDie _
  have hk := hquiet.trans hrest
  have hstate (f : Nat) (hf : f < 4) : (beginDie die s).dieState f = (setDieState die 4 s).dieState f := by
    rw [beginDie_of_service hd, enterReduced_dieState (hk.canon hw4) _ hf]
    exact hk.rfld (by decide) (by simp) (.inl hw4) _ _
  have hall := beginDie_keeps (w := [ZG_BOOT_DIES]) (by simp) die (Keeps.refl s)
  obtain ⟨hstart, -, hlimits, hplan⟩ := hall.store
  refine ⟨?_, fun f hf hfd => ?_, fun o ho => ?_, fun x hx => ?_, hall.pt, hstart, hlimits, hplan⟩
  · rw [hstate die die.isLt]; exact setDieState_dieState die.isLt (.inl hw)
  · rw [hstate f hf]; exact setDieState_other hw hf hfd 4
  · rw [beginDie_of_service hd, enterReduced_syn]; exact clearDie_obj _ ho
  · rw [beginDie_of_service hd, enterReduced_syn] at hx
    exact dieQuiet_waits (hrest.waits x hx)

/-! ### A queue that is shut -/

theorem shutQueue_queue (q : Nat) (s : State) :
    (shutQueue q s).queue q = { (abortFlights q 7 s).queue q with state := .disabled, fetched := [], bad := none, retries := 0, regions := [], unit := none }
      ∨ { (abortFlights q 7 s).queue q with state := .disabled, fetched := [], bad := none, retries := 0, regions := [], unit := none } = ({} : Queue) := by
  by_cases h : { (abortFlights q 7 s).queue q with state := .disabled, fetched := [], bad := none, retries := 0, regions := [], unit := none } = ({} : Queue)
  · exact .inr h
  · exact .inl (State.setQueue_queue _ _ h)

/-! ### Resets by a write -/

/-- What a write does: nothing, a rejection, or its effect on the state with the register written. -/
theorem guardedWrite_cases (f off size value : Nat) (s : State) (g : Nat → Nat → State → State) :
    guardedWrite f off size value s g = s ∨ (∃ kind v, guardedWrite f off size value s g = rejectWrite f off kind v s)
      ∨ ∃ old new k v, guardedWrite f off size value s g = g old new { s with regs := cset 0 s.regs k v } := by
  unfold guardedWrite
  dsimp only
  split
  · exact .inl rfl
  · split
    · exact .inr (.inl ⟨_, _, rfl⟩)
    · split
      · split
        · exact .inl rfl
        · exact .inr (.inr ⟨_, _, _, _, rfl⟩)
      · exact .inl rfl

theorem bootCtrlEffect_pending (new : Nat) (s : State) : (bootCtrlEffect new s).pending = s.pending := by
  unfold bootCtrlEffect
  split
  · exact beginWarm_pending 0 s
  · split
    · rfl
    · exact (Keeps.foldl (fun _ _ h => .ite (fun _ => beginDie_keeps (w := keyRegs) (by decide) _ h) fun _ => h) _ (Keeps.refl s)).pending

theorem resetByWrite_pending (cause : ResetBy) (s : State) : (resetByWrite cause s).pending = s.pending := by
  cases cause with
  | itself => rfl
  | write f v =>
    rcases guardedWrite_cases f ZG_BOOT_CTRL 4 v.toNat s (fun _ new s => bootCtrlEffect new s) with h | ⟨kind, x, h⟩ | ⟨old, new, k, x, h⟩
    · exact congrArg State.pending h
    · exact (congrArg State.pending h).trans ((Keeps.refl (e := true) (w := []) s).rejectWrite _ _ _ _).pending
    · exact (congrArg State.pending h).trans (bootCtrlEffect_pending _ _)

theorem guardedWrite_accepted {f off size value : Nat} {s : State} {r : RegDesc} (h : s.accepts f off size value r)
    (g : Nat → Nat → State → State) : guardedWrite f off size value s g = s.afterWrite f off size value r g := by
  obtain ⟨hfn, hans, hkind, hdesc⟩ := h
  unfold guardedWrite State.afterWrite
  simp only [hfn, hans, hkind, hdesc, Bool.and_eq_true, beq_iff_eq]
  simp

theorem dieResetting_iff (s : State) : s.dieResetting = true ↔ ∃ d < 4, s.dieState d = 4 := by
  simp [State.dieResetting]

theorem bootCtrlEffect_eq (n : Nat) (t : State) [Decidable (∃ d < 4, t.dieState d = 4)] :
    bootCtrlEffect n t = if n.testBit 8 then beginWarm 0 t
      else if (∃ d < 4, t.dieState d = 4) then t
      else (List.range 4).foldl (fun t d => if n.testBit (4 + d) then beginDie d t else t) t := by
  unfold bootCtrlEffect bitOf
  refine if_congr Iff.rfl rfl (if_congr (dieResetting_iff t) rfl rfl)

end Sys2Proof.Machine
end

section
/-! How a warm reset ends, the loss of REFCLK and errors of hub SRAM. -/
namespace Sys2Proof.Machine
open Sys2Proof

/-- Every port that is not OFF is left. -/
def portsLeft (s : State) : State := (List.range 24).foldl (fun s p => if s.portState p = 0 then s else leaveTo p 0 s) s

namespace Keeps
variable {e : Bool} {w : List Nat} {s0 s t : State}

theorem answerBusy (h : Keeps e w s0 s) (f off size : Nat) : Keeps e w s0 (answerBusy f off size s) :=
  ((h.setRegF (free_fn _ (by decide) (by decide)) _).bump (free_pkg (by decide)) _).withMgt _

theorem portsLeft (h : Keeps false w s0 s) : Keeps false w s0 (portsLeft s) :=
  foldl (fun _ _ h => .ite (fun _ => h) fun _ => h.leaveTo _ _) _ h

end Keeps

/-! ### The end of a warm reset -/

/-- What Betony's halt does beside its state in ZG_MGT_STATE. -/
theorem haltBetony_keeps (s : State) : Keeps true [] (s.setRfld ZG_MGT_STATE 2 0 3) (haltBetony s) := by
  unfold haltBetony
  have hm := (Keeps.refl (e := true) (w := []) (s.setRfld ZG_MGT_STATE 2 0 3)).mgtEvent 2 (restartData s) 3
  refine Keeps.withMgt ?_ _
  refine Keeps.foldl (fun _ _ h => h.answerBusy _ _ _) _ (Keeps.bump ?_ (free_pkg (by decide)) _)
  exact Keeps.foldl (fun _ _ h => h.setRegF (free_fn _ (by decide) (by decide)) _) _ hm

theorem haltBetony_betony (s : State) : (haltBetony s).betony = 3 := by
  have hne : setFld (s.reg ZG_MGT_STATE) 2 0 3 ≠ 0 := setFld_ne_zero (by omega) (by decide)
  have hset : (s.setRfld ZG_MGT_STATE 2 0 3).rfld ZG_MGT_STATE 2 0 = 3 := State.setRfld_rfld_same (by omega) (.inr (by decide))
  exact ((haltBetony_keeps s).rfld (by decide) (by simp) (.inr (ne_of_eq_of_ne (State.setReg_reg_self (.inr hne)) hne)) 2 0).trans hset

/-- STAGE set to a value other than zero reads so after what leaves it. -/
theorem stage_of_keeps {e : Bool} {w : List Nat} {s t : State} (h : Keeps e w s t) (hw : ZG_BOOT_STATE ∉ w) {n : Nat} (hs : s.stage = n)
    (hn : n ≠ 0) : t.stage = n :=
  (h.rfld (by decide) hw (.inr (ne_zero_of_fld (ne_of_eq_of_ne hs hn))) 7 0).trans hs

theorem setStage_stage {s : State} {n : Nat} (hn : n % 256 ≠ 0) : (setStage n s).stage = n % 256 :=
  State.setRfld_rfld_same (by omega) (.inr hn)

theorem becomeReady_stage (s : State) : (becomeReady s).stage = 10 := by
  unfold becomeReady
  extract_lets b _ s1 s2 s3 s4
  have h2 : s2.stage = 10 := by
    have hr : s2.reg ZG_BOOT_STATE = (setReady true (setStage 10 s1)).reg ZG_BOOT_STATE := by
      have hne := (setReady_setStage (s := s1) (n := 10) true (by omega))
      obtain ⟨hreg, hne, -, -⟩ := hne
      exact cget_cset_ne_of_ne _ (ne_of_eq_of_ne hreg hne) (by decide)
    rw [State.stage, State.rfld, hr]
    exact (setReady_setStage (s := s1) (n := 10) true (by omega)).2.2.1
  have h3 : s3.stage = 10 := (State.setRfld_rfld_beside (by omega) (by omega) (.inr (ne_of_eq_of_ne h2 (by omega)))).trans h2
  have h4 : Keeps true [] s3 s4 := (Keeps.refl _).bootEvent _ _ _
  refine stage_of_keeps (w := []) (e := true) (s := s3) (Keeps.ite (fun _ => ?_) fun _ => h4) (by simp) h3 (by omega)
  exact (h4.bump (free_pkg (by decide)) _).bootEvent _ _ _

theorem beginStep13_stage (s : State) : (beginStep13 s).stage = 9 ∨ (beginStep13 s).stage = 10 := by
  unfold beginStep13
  dsimp only
  split
  · exact .inl (setStage_stage (by omega))
  · exact .inr (becomeReady_stage _)

/-- An image that fails its hash halts Betony, and without a test that fails a die the start-up ends. -/
theorem warmRun_spec (fails : List (Fin 4 × TestFail)) (s : State) :
    ((imageOk s).1 = false → (warmRun fails s).betony = 3)
      ∧ ((imageOk s).1 = true →
        (∀ x ∈ fails, dieLevel x.2.test.toNat = true → x.2.test.toNat < 2 ∨ 8 < x.2.test.toNat) →
        (warmRun fails s).stage = 9 ∨ (warmRun fails s).stage = 10) := by
  unfold warmRun
  rcases himg : imageOk s with ⟨ok, s1⟩
  cases ok with
  | false => exact ⟨fun _ => haltBetony_betony _, fun h => absurd h (by simp)⟩
  | true =>
    refine ⟨fun h => absurd h (by simp), fun _ hfails => ?_⟩
    have hnone (b : Bool) (d : Nat) : ¬ ((b && (((fails.filter (fun x => decide (2 ≤ x.2.test.toNat) && decide (x.2.test.toNat ≤ 8))).filter
        (fun x => x.1.val == d)).map Prod.snd).any (fun x => dieLevel x.test.toNat)) = true) := by
      intro h
      obtain ⟨y, hy, hlevel⟩ := List.any_eq_true.1 (Bool.and_eq_true _ _ ▸ h).2
      obtain ⟨x, hx, rfl⟩ := List.mem_map.1 hy
      obtain ⟨hx, hrange⟩ := List.mem_filter.1 (List.mem_of_mem_filter hx)
      have := hfails x hx hlevel
      simp at hrange
      omega
    dsimp only
    unfold takeTests
    dsimp only
    rw [if_neg (by simp)]
    split
    · next d hd => exact absurd (List.find?_some hd) (hnone _ d)
    · exact beginStep13_stage _

/-! ### Loss and return of REFCLK -/

theorem execRefclkLoss_idle {s : State} (h : s.time.refclk = false ∨ s.stage = 0 ∨ s.power.tripped = true) :
    exec .refclkLoss s = .next s := congrArg Host.Outcome.next (if_pos h)

/-- The timebase runs on from REFCLK's loss, unaligned. -/
def refclkLost (s : State) : State :=
  let s := bootEvent 6 0 3 { s with time := { s.time with refclk := false, refclkAt := s.now } }
  let aligned := s.rfld ZG_TIME_STATUS 1 1 = 1
  let s := ((s.setRfld ZG_TIME_STATUS 3 3 1).setRfld ZG_TIME_STATUS 1 1 0).setRfld ZG_TIME_STATUS 31 16 0
  let s := s.setRfld ZG_TOP_TIME 58 51 255
  let s := if aligned then wefinEvent 0x0A 4 31 (255 * 2) false s else s
  { s with wfn := { s.wfn with timeGood := 0 } }

/-- Every stack is in self refresh. -/
def stacksRefreshed (s : State) : State := (List.range 16).foldl (fun s m => s.setStack m { s.stack m with selfRefresh := true }) s

/-- STAGE 13 unless bring-up has failed. -/
def refclkStage (s : State) : State :=
  if s.stage = 11 then s else setReady false (setStage 13 { s with boot := { s.boot with step13 := false } })

theorem execRefclkLoss_due {s : State} (hclk : s.time.refclk = true) (hst : s.stage ≠ 0) (htrip : s.power.tripped = false) :
    exec .refclkLoss s = .next (refclkStage (stacksRefreshed (quietPackage (refclkLost s)))) := by
  have hneg : ¬ (s.time.refclk = false ∨ s.stage = 0 ∨ s.power.tripped = true) := by simp [hclk, hst, htrip]
  show execRefclkLoss s = _
  rw [execRefclkLoss, if_neg hneg]
  unfold refclkStage stacksRefreshed refclkLost
  with_reducible rfl

/-- Bit 3 of ZG_TIME_STATUS is set, and what follows in the loss of REFCLK leaves it. -/
theorem refclkLost_spec (s : State) :
    (refclkLost s).rfld ZG_TIME_STATUS 3 3 = 1 ∧ (refclkLost s).time = { s.time with refclk := false, refclkAt := s.now }
      ∧ Keeps false [ZG_TIME_STATUS] { s with time := { s.time with refclk := false, refclkAt := s.now } } (refclkLost s) := by
  unfold refclkLost
  extract_lets _ s1 aligned s2 s3 s4 _
  have h1 : Keeps true [ZG_TIME_STATUS] { s with time := { s.time with refclk := false, refclkAt := s.now } } s1 :=
    (Keeps.refl _).bootEvent _ _ _
  have hset : (s1.setRfld ZG_TIME_STATUS 3 3 1).rfld ZG_TIME_STATUS 3 3 = 1 := State.setRfld_rfld_same (by omega) (.inr (by decide))
  have hset' : ((s1.setRfld ZG_TIME_STATUS 3 3 1).setRfld ZG_TIME_STATUS 1 1 0).rfld ZG_TIME_STATUS 3 3 = 1 :=
    (State.setRfld_rfld_beside (by omega) (by omega) (.inr (ne_of_eq_of_ne hset (by omega)))).trans hset
  have h2 : s2.rfld ZG_TIME_STATUS 3 3 = 1 :=
    (State.setRfld_rfld_beside (by omega) (by omega) (.inr (ne_of_eq_of_ne hset' (by omega)))).trans hset'
  have hk2 : Keeps true [ZG_TIME_STATUS] s1 s2 := (((Keeps.refl s1).setRfld (fun _ => by simp) _ _ _).setRfld (fun _ => by simp) _ _ _).setRfld
    (fun _ => by simp) _ _ _
  have h3 {w} : Keeps true w s2 s3 := (Keeps.refl s2).setRfld (free_pkg (by decide)) _ _ _
  have h4 {w} : Keeps true w s2 s4 := .ite (fun _ => h3.wefinEvent _ _ _ _ _) fun _ => h3
  have hall := (((h1.trans hk2).trans h4).work (e := false)).withWfn { s4.wfn with timeGood := 0 }
  have hbit := ((h4 (w := [])).rfld (by decide) (by simp) (.inr (ne_zero_of_fld (ne_of_eq_of_ne h2 (by omega)))) 3 3).trans h2
  exact ⟨hbit, hall.time, hall⟩

/-- The host link is down. -/
def linkDown (s : State) : State := { s with host := { s.host with linkUp := false } }

theorem quietPackage_spec (s : State) : (quietPackage s).host.linkUp = false ∧ (quietPackage s).time = s.time
    ∧ (∀ a ∈ keyRegs, s.reg a ≠ 0 → (quietPackage s).reg a = s.reg a) := by
  have hleft := (Keeps.refl (e := false) (w := []) s).portsLeft
  have heq : quietPackage s = resetAllFunctions (linkDown (portsLeft s)) := by
    unfold portsLeft; rfl
  rw [heq]
  generalize portsLeft s = s1 at hleft ⊢
  have hres : Keeps false [] (linkDown s1) (resetAllFunctions (linkDown s1)) := (Keeps.refl _).resetAllFunctions
  refine ⟨hres.linkUp, hres.time.trans hleft.time, fun a ha hne => ?_⟩
  have h1 : s1.reg a = s.reg a := hleft.reg a ha (by simp) (.inr hne)
  exact (hres.reg a ha (by simp) (.inr (ne_of_eq_of_ne h1 hne))).trans h1

theorem setStack_refresh {s : State} {m n : Nat} (h : n = m ∨ (s.stack n).selfRefresh = true) :
    ((s.setStack m { s.stack m with selfRefresh := true }).stack n).selfRefresh = true := by
  have hlisted : { s.stack m with selfRefresh := true } ≠ ({} : Stack) := fun h =>
    Bool.noConfusion (congrArg Stack.selfRefresh h)
  by_cases hnm : n = m
  · subst hnm
    exact congrArg Stack.selfRefresh (cget_cset_listed _ _ _ hlisted)
  · exact (congrArg Stack.selfRefresh (cget_cset_listed_ne _ _ hlisted hnm)).trans (h.resolve_left hnm)

theorem foldl_refresh (n : Nat) : ∀ (l : List Nat) {s : State}, n ∈ l ∨ (s.stack n).selfRefresh = true →
    ((l.foldl (fun s m => s.setStack m { s.stack m with selfRefresh := true }) s).stack n).selfRefresh = true
  | [], _, h => h.resolve_left (by simp)
  | m :: l, s, h => by
    refine foldl_refresh n l ?_
    rcases h with h | h
    · rcases List.mem_cons.1 h with hm | hl
      · exact .inr (setStack_refresh (.inl hm))
      · exact .inl hl
    · exact .inr (setStack_refresh (.inr h))

theorem stacksRefreshed_stack {m : Nat} (hm : m < 16) (s : State) : ((stacksRefreshed s).stack m).selfRefresh = true := by
  unfold stacksRefreshed
  exact foldl_refresh m _ (.inl (List.mem_range.2 hm))

theorem stacksRefreshed_keeps (s : State) : Keeps true [] s (stacksRefreshed s) := Keeps.foldl (fun _ _ h => h.setStack _ _) _ (Keeps.refl s)

theorem refclkStage_keeps (s : State) : (refclkStage s).time = s.time ∧ (refclkStage s).host = s.host ∧ (refclkStage s).hbm = s.hbm
    ∧ ∀ a, a ≠ ZG_BOOT_STATE → s.reg a ≠ 0 → (refclkStage s).reg a = s.reg a := by
  unfold refclkStage
  split
  · exact ⟨rfl, rfl, rfl, fun _ _ _ => rfl⟩
  · refine ⟨rfl, rfl, rfl, fun a ha hne => ?_⟩
    have hstage : (setStage 13 { s with boot := { s.boot with step13 := false } }).reg a = s.reg a := cget_cset_ne_of_ne _ hne ha
    exact (cget_cset_ne_of_ne _ (ne_of_eq_of_ne hstage hne) ha).trans hstage

theorem refclkStage_stage {s : State} (h : s.stage ≠ 11) :
    (refclkStage s).stage = 13 ∧ (refclkStage s).ready = false ∧ (refclkStage s).boot.step13 = false := by
  rw [refclkStage, if_neg h]
  obtain ⟨-, -, hstage, hready⟩ := setReady_setStage (s := { s with boot := { s.boot with step13 := false } }) (n := 13) false (by omega)
  exact ⟨hstage, hready, rfl⟩

/-- Loss of REFCLK stops the package: the link down, the stacks in self refresh, STAGE 13 unless bring-up has failed. -/
theorem execRefclkLoss_spec {s : State} (hclk : s.time.refclk = true) (hst : s.stage ≠ 0) (htrip : s.power.tripped = false) :
    ∃ t, exec .refclkLoss s = .next t ∧ t.time.refclk = false ∧ t.time.refclkAt = s.now ∧ t.time.now = s.now ∧ t.host.linkUp = false
      ∧ t.rfld ZG_TIME_STATUS 3 3 = 1 ∧ (∀ m < 16, (t.stack m).selfRefresh = true)
      ∧ (s.stage ≠ 11 → t.stage = 13 ∧ t.ready = false ∧ t.boot.step13 = false) := by
  refine ⟨_, execRefclkLoss_due hclk hst htrip, ?_⟩
  obtain ⟨hbit, htime, hlost⟩ := refclkLost_spec s
  generalize refclkLost s = v at hbit htime hlost ⊢
  obtain ⟨hlink, hqtime, hqreg⟩ := quietPackage_spec v
  have hs := stacksRefreshed_keeps (quietPackage v)
  obtain ⟨hrtime, hrhost, hrhbm, hrreg⟩ := refclkStage_keeps (stacksRefreshed (quietPackage v))
  have htime' : (refclkStage (stacksRefreshed (quietPackage v))).time = { s.time with refclk := false, refclkAt := s.now } := by
    rw [hrtime, hs.time, hqtime, htime]
  have hreg (a : Nat) (ha : a ∈ keyRegs) (hne : v.reg a ≠ 0) : (stacksRefreshed (quietPackage v)).reg a = v.reg a :=
    (hs.reg a ha (by simp) (.inr (ne_of_eq_of_ne (hqreg a ha hne) hne))).trans (hqreg a ha hne)
  have hstatus : v.reg ZG_TIME_STATUS ≠ 0 := ne_zero_of_fld (ne_of_eq_of_ne hbit (by omega))
  refine ⟨by rw [htime'], by rw [htime'], by rw [htime']; rfl, by rw [hrhost, hs.linkUp, hlink], ?_, fun m hm => ?_, fun h11 => ?_⟩
  · rw [State.rfld, hrreg _ (by decide) (ne_of_eq_of_ne (hreg _ (by decide) hstatus) hstatus), hreg _ (by decide) hstatus]
    exact hbit
  · have hstack := stacksRefreshed_stack hm (quietPackage v)
    rw [State.stack] at hstack ⊢
    rw [hrhbm]
    exact hstack
  · have hlost' : v.reg ZG_BOOT_STATE = s.reg ZG_BOOT_STATE := hlost.reg _ (by decide) (by decide) (.inr (ne_zero_of_fld hst))
    have hstage : (stacksRefreshed (quietPackage v)).stage = s.stage := by
      rw [State.stage, State.rfld, hreg _ (by decide) (ne_of_eq_of_ne hlost' (ne_zero_of_fld hst)), hlost', State.stage, State.rfld]
    exact refclkStage_stage (ne_of_eq_of_ne hstage h11)

theorem execRefclkReturn_spec (s : State) :
    ((s.time.refclk = true ∨ s.power.tripped = true) → exec .refclkReturn s = .next s)
      ∧ (s.time.refclk = false → s.power.tripped = false →
        let t := bootEvent 7 (min ((s.now - s.time.refclkAt) / 1000) 4294967295) 0 { s with time := { s.time with refclk := true, refclkAt := s.now } }
        (t.stage = 13 → exec .refclkReturn s = .next (beginWarm 1 t)) ∧ (t.stage ≠ 13 → exec .refclkReturn s = .next t)) := by
  refine ⟨fun h => congrArg Host.Outcome.next (if_pos h), fun hclk htrip => ?_⟩
  have hneg : ¬ (s.time.refclk = true ∨ s.power.tripped = true) := by simp [hclk, htrip]
  exact ⟨fun h => congrArg Host.Outcome.next ((if_neg hneg).trans (if_pos h)),
    fun h => congrArg Host.Outcome.next ((if_neg hneg).trans (if_neg h))⟩

/-! ### Errors of hub SRAM -/

theorem execHubSramError_of_on {s : State} (h : s.stage ≠ 0) (what : SramRegion) :
    exec (.hubSramError what) s = .next (sramLoss what (bootEvent 8 (sramRow what) 3 s)) := congrArg Host.Outcome.next (if_neg h)

theorem sramLoss_logFifo (s : State) : (sramLoss .logFifo s).mgt.logFifo = s.mgt.logFifo.drop 1
    ∧ (s.mgt.logFifo ≠ [] → sramLoss .logFifo s = bump ZG_MGT_LOG_LOST 1 { s with mgt := { s.mgt with logFifo := s.mgt.logFifo.drop 1 } }) := by
  by_cases h : s.mgt.logFifo = []
  · have heq : sramLoss .logFifo s = s := if_pos h
    rw [heq, h]
    exact ⟨rfl, fun hne => absurd rfl hne⟩
  · have heq : sramLoss .logFifo s = bump ZG_MGT_LOG_LOST 1 { s with mgt := { s.mgt with logFifo := s.mgt.logFifo.drop 1 } } := if_neg h
    rw [heq]
    exact ⟨by rw [bump, bumpKey_mgt], fun _ => rfl⟩

theorem sramLoss_traceFifo (s : State) : (sramLoss .traceFifo s).mgt.traceFifo = s.mgt.traceFifo.drop 1 := by
  by_cases h : s.mgt.traceFifo = []
  · have heq : sramLoss .traceFifo s = s := if_pos h
    rw [heq, h]; rfl
  · have heq : sramLoss .traceFifo s = bump ZG_MGT_TR_DROP 1 { s with mgt := { s.mgt with traceFifo := s.mgt.traceFifo.drop 1 } } := if_neg h
    rw [heq, bump, bumpKey_mgt]

end Sys2Proof.Machine
end

section
/-! Training that finds no fault. -/
namespace Sys2Proof.Machine
open Sys2Proof

/-! ### The repair map -/

theorem storedWires_eq (l k : Nat) (s : State) : storedWires l k s =
    ((s.boot.health.filter (fun x => x.kind == 1)).filter (fun x => x.index % 64 == k && linkOf (repairEnd x) == l)).map
      (fun x => intoEnd (repairEnd x) * 66 + x.value % 66) := by
  rw [List.filter_filter, storedWires]
  refine congrArg _ (List.filter_congr fun x _ => ?_)
  rw [Bool.and_comm (x.index % 64 == k && _), Bool.and_assoc]

/-- A repair map with fewer entries fits where the longer one does. -/
theorem mapFits_of_sublist {s t : State} (h : (t.boot.health.filter (fun x => x.kind == 1)).Sublist (s.boot.health.filter (fun x => x.kind == 1)))
    (hs : s.mapFits) : t.mapFits := by
  intro l hl k hk e he
  refine Nat.le_trans ?_ (hs l hl k hk e he)
  simp only [Strand.repaired, storedWires_eq]
  exact (((h.filter _).map _).filter _).length_le

theorem mapFits_of_boot {s t : State} (h : t.boot = s.boot) (hs : s.mapFits) : t.mapFits :=
  mapFits_of_sublist (by rw [h]) hs

/-- Dropping entries that were to be cleared shortens the repair map. -/
theorem dropCleared_mapFits {s : State} (ds : List Nat) (hs : s.mapFits) : (dropCleared ds s).mapFits :=
  mapFits_of_sublist (List.Sublist.filter _ List.filter_sublist) hs

/-! ### Strands -/

/-- A strand is in service. -/
def StrandUp (l k : Nat) (s : State) : Prop := (s.strand l k).st = 1

theorem setStrand_up {s : State} {l k l' k' : Nat} {x : Strand} (hx : x.st = 1) (h : l' * 64 + k' = l * 64 + k ∨ StrandUp l' k' s) :
    StrandUp l' k' (s.setStrand l k x) := by
  have hne : x ≠ {} := fun h => absurd (hx.symm.trans (congrArg Strand.st h)) (by decide)
  by_cases heq : l' * 64 + k' = l * 64 + k
  · have hread : (s.setStrand l k x).strand l' k' = x := by
      rw [State.strand, heq]; exact cget_cset_listed _ _ _ hne
    rw [StrandUp, hread, hx]
  · exact (congrArg Strand.st (cget_cset_listed_ne _ _ hne heq)).trans (h.resolve_left heq)

/-- What training of links changes that finds no fault: of the host port and of the progress of bring-up nothing, and no strand goes out
of service. -/
structure Trained (s t : State) : Prop where
  host : t.host = s.host
  boot : t.boot = s.boot
  up : ∀ l k, StrandUp l k s → StrandUp l k t

theorem Trained.refl (s : State) : Trained s s := ⟨rfl, rfl, fun _ _ => id⟩

theorem Trained.trans {s t u : State} (h : Trained s t) (k : Trained t u) : Trained s u :=
  ⟨k.host.trans h.host, k.boot.trans h.boot, fun l n hs => k.up l n (h.up l n hs)⟩

theorem Trained.foldl {β : Type} {g : State → β → State} (hg : ∀ s b, Trained s (g s b)) : ∀ (l : List β) (s : State), Trained s (l.foldl g s)
  | [], s => .refl s
  | b :: l, s => (hg s b).trans (Trained.foldl hg l (g s b))

section
variable {t : Training} (hdown : t.down = []) (hwires : t.wires = [])
include hdown hwires

theorem trainStrand_eq {l k : Nat} {s : State} (hfit : s.mapFits) (hl : l < 8) (hk : k < 64) :
    trainStrand t l s k = s.setStrand l k { st := 1, wires := storedWires l k s } := by
  have hread : (s.setStrand l k { st := 1, wires := storedWires l k s }).strand l k = { st := 1, wires := storedWires l k s } :=
    cget_cset_listed _ _ _ fun h => absurd (congrArg Strand.st h) (by simp)
  have hshort : ((linkEnds l).any fun e => decide (4 < (Strand.repaired { st := 1, wires := storedWires l k s } e).length)) = false := by
    rw [List.any_eq_false]
    intro e he
    rw [decide_eq_true_eq]
    exact Nat.not_lt.2 (hfit l hl k hk e he)
  unfold trainStrand
  simp only [hdown, hwires, hread, List.filter_nil, List.map_nil, List.length_nil, Nat.add_zero, List.any_nil, Bool.or_false, hshort,
    Bool.false_eq_true, if_false]
  exact foldl_of_step (P := fun u => u = s.setStrand l k { st := 1, wires := storedWires l k s }) (fun u e hu => hu) _ rfl

theorem trainStrand_trained {l k : Nat} {s : State} (hfit : s.mapFits) (hl : l < 8) (hk : k < 64) :
    Trained s (trainStrand t l s k) ∧ StrandUp l k (trainStrand t l s k) := by
  rw [trainStrand_eq hdown hwires hfit hl hk]
  exact ⟨⟨rfl, rfl, fun _ _ h => setStrand_up rfl (.inr h)⟩, setStrand_up rfl (.inl rfl)⟩

theorem trainStrands_trained {l : Nat} (hl : l < 8) : ∀ (ks : List Nat) {s : State}, (∀ k ∈ ks, k < 64) → s.mapFits →
    Trained s (ks.foldl (trainStrand t l) s) ∧ ∀ k ∈ ks, StrandUp l k (ks.foldl (trainStrand t l) s)
  | [], s, _, _ => ⟨.refl s, by simp⟩
  | k :: ks, s, hks, hfit => by
    obtain ⟨hone, hup⟩ := trainStrand_trained hdown hwires hfit hl (hks k (List.mem_cons_self ..))
    obtain ⟨hrest, hups⟩ := trainStrands_trained hl ks (fun n hn => hks n (List.mem_cons_of_mem _ hn)) (mapFits_of_boot hone.boot hfit)
    refine ⟨hone.trans hrest, fun n hn => ?_⟩
    rcases List.mem_cons.1 hn with rfl | hn
    · exact hrest.up _ _ hup
    · exact hups n hn

theorem trainLink_trained {l : Nat} {s : State} (hfit : s.mapFits) (hl : l < 8) :
    Trained s (trainLink t s l) ∧ ∀ k < linkStrands l, StrandUp l k (trainLink t s l) := by
  have h64 : ∀ k ∈ List.range (linkStrands l), k < 64 := by
    intro k hk
    have hlt := List.mem_range.1 hk
    unfold linkStrands at hlt
    split at hlt <;> omega
  unfold trainLink
  extract_lets s1 s2 s3
  have h1 : Trained s s1 := by
    refine Trained.foldl ?_ _ _
    exact fun _ _ => ⟨rfl, rfl, fun _ _ h => h⟩
  obtain ⟨h2, hup⟩ := trainStrands_trained hdown hwires hl _ h64 (mapFits_of_boot h1.boot hfit)
  have h3 : Trained s2 s3 := by
    refine Trained.foldl ?_ _ _
    exact fun _ _ => ⟨rfl, rfl, fun _ _ h => h⟩
  have h4 : Trained s3 (refreshPort l s3) := by
    refine Trained.foldl ?_ _ _
    exact fun _ _ => ⟨rfl, rfl, fun _ _ h => h⟩
  have h34 := h3.trans h4
  exact ⟨(h1.trans h2).trans h34, fun k hk => h34.up _ _ (hup k (List.mem_range.2 hk))⟩

theorem trainLinks_fold_trained : ∀ (ls : List Nat) {s : State}, (∀ l ∈ ls, l < 8) → s.mapFits →
    Trained s (ls.foldl (trainLink t) s) ∧ ∀ l ∈ ls, ∀ k < linkStrands l, StrandUp l k (ls.foldl (trainLink t) s)
  | [], s, _, _ => ⟨.refl s, by simp⟩
  | l :: ls, s, hls, hfit => by
    obtain ⟨hone, hup⟩ := trainLink_trained hdown hwires hfit (hls l (List.mem_cons_self ..))
    obtain ⟨hrest, hups⟩ := trainLinks_fold_trained ls (fun n hn => hls n (List.mem_cons_of_mem _ hn)) (mapFits_of_boot hone.boot hfit)
    refine ⟨hone.trans hrest, fun n hn => ?_⟩
    rcases List.mem_cons.1 hn with rfl | hn
    · exact fun k hk => hrest.up _ _ (hup k hk)
    · exact hups n hn
end

theorem strandsIn_of_up {l : Nat} {s : State} (h : ∀ k < linkStrands l, StrandUp l k s) : s.strandsIn l 1 = linkStrands l := by
  have hall : (List.range (linkStrands l)).filter (fun k => (s.strand l k).st == 1) = List.range (linkStrands l) :=
    List.filter_eq_self.2 fun k hk => beq_iff_eq.2 (h k (List.mem_range.1 hk))
  rw [State.strandsIn, hall, List.length_range]

theorem edgeMin_le (s : State) (d : Nat) : s.edgeMin d ≤ 64 := by
  unfold State.edgeMin; omega

/-- No ring edge stays out of service, so all that the training of links does is to train each. -/
theorem trainLinks_trained {t : Training} (hdown : t.down = []) (hwires : t.wires = []) {ls : List Nat} {s : State} (hls : ∀ l ∈ ls, l < 8)
    (hfit : s.mapFits) :
    Trained s (trainLinks t ls s) ∧ ∀ l ∈ ls, ∀ k < linkStrands l, StrandUp l k (trainLinks t ls s) := by
  have htrained := trainLinks_fold_trained hdown hwires ls hls hfit
  have hnone : ls.filter (fun l => decide (l < 4) && decide ((ls.foldl (trainLink t) s).strandsIn l 1 < (ls.foldl (trainLink t) s).edgeMin l)) = [] := by
    rw [List.filter_eq_nil_iff]
    intro l hl hshort
    rw [Bool.and_eq_true, decide_eq_true_eq, decide_eq_true_eq, strandsIn_of_up (htrained.2 l hl)] at hshort
    have hmin := edgeMin_le (ls.foldl (trainLink t) s) l
    obtain ⟨hlt, hless⟩ := hshort
    rw [linkStrands, if_pos hlt] at hless
    omega
  have heq : trainLinks t ls s = ls.foldl (trainLink t) s := by
    unfold trainLinks
    dsimp only
    rw [hnone]
    rfl
  rw [heq]
  exact htrained

theorem deadHubLink_of_up {ls : List Nat} {s : State} (h : ∀ l ∈ ls, ∀ k < linkStrands l, StrandUp l k s) : deadHubLink ls s = none := by
  have hfind : ls.find? (fun l => decide (4 ≤ l) && s.strandsIn l 1 == 0) = none := by
    rw [List.find?_eq_none]
    intro l hl hdead
    rw [Bool.and_eq_true, beq_iff_eq, strandsIn_of_up (h l hl)] at hdead
    have hzero := hdead.2
    unfold linkStrands at hzero
    split at hzero <;> omega
  rw [deadHubLink, hfind]
  rfl

theorem deadStack_of_none {t : Training} (h : t.dead = []) (ms : List Nat) : deadStack t ms = none := by
  rw [deadStack, List.find?_eq_none]
  simp [h]

end Sys2Proof.Machine
end

section
/-! How a warm reset and a die reset go on. -/
namespace Sys2Proof.Machine
open Sys2Proof

/-! ### Training at a warm reset -/

theorem countStartup_dieFailed {s : State} (hw : cwf 0 s.regs = true) (d : Nat) : (countStartup s).dieFailed d = s.dieFailed d := by
  have hreg : (countStartup s).reg ZG_BOOT_DIES = s.reg ZG_BOOT_DIES := cget_cset_ne 0 _ hw (by decide)
  rw [State.dieFailed, State.dieFailed, State.rfld, State.rfld, hreg]

theorem dieFailed_eq (s : State) (d : Nat) : s.dieFailed d = (s.dieState d == 5) := rfl

theorem setDieState_dieFailed {s : State} (hw : cwf 0 s.regs = true) {d f v : Nat} (hf : f < 4) (hd : s.dieFailed d = false)
    (hv : v % 8 ≠ 5) : (setDieState d v s).dieFailed f = s.dieFailed f := by
  by_cases hfd : f = d
  · subst hfd
    rw [hd, dieFailed_eq, setDieState_dieState hf (.inl hw)]
    simpa using hv
  · rw [dieFailed_eq, dieFailed_eq, setDieState_other hw hf hfd]

/-- Dies that are given a state other than FAILED have not failed by it. -/
theorem setDies_dieFailed {s : State} (hw : cwf 0 s.regs = true) {v f : Nat} (hf : f < 4) (hv : v % 8 ≠ 5) :
    (setDies v s).dieFailed f = s.dieFailed f := by
  refine (foldl_of_step (P := fun t => cwf 0 t.regs = true ∧ t.dieFailed f = s.dieFailed f) (fun t d ht => ?_) _ ⟨hw, rfl⟩).2
  obtain ⟨htw, htf⟩ := ht
  split
  · exact ⟨htw, htf⟩
  · next hd => exact ⟨State.setRfld_cwf htw .., (setDieState_dieFailed htw hf (Bool.not_eq_true _ ▸ hd) hv).trans htf⟩

theorem dieFailed_of_keeps {e : Bool} {w : List Nat} {s t : State} (h : Keeps e w s t) (haw : ZG_BOOT_DIES ∉ w) (hw : cwf 0 s.regs = true)
    (d : Nat) : t.dieFailed d = s.dieFailed d := by
  rw [State.dieFailed, State.dieFailed, h.rfld (by decide) haw (.inl hw)]

/-- Dies of a warm reset that train. -/
def warmDiesUp (s : State) : List Nat := (List.range 4).filter (fun d => !s.dieFailed d)

/-- The health record and the voltage tables are taken, and the dies are in training. -/
def warmTables (s : State) : State := setDies 1 (takeTables (warmDiesUp s) (dropCleared (warmDiesUp s) (countStartup s)))

/-- The voltages of the dies step to their nominal values. -/
def warmNom (s : State) : State := (warmDiesUp s).foldl (fun s d => seekNom d s) (warmTables s)

/-- The links of the dies are trained. -/
def warmLinks (t : Training) (s : State) : State := trainLinks t (warmTables s).liveLinks (warmNom s)

/-- The stacks of a state that train. -/
def warmStacks (s : State) : List Nat := (List.range 16).filter (fun m => !s.dieFailed (m / 4))

theorem finishWarm_of_ctx (t : Training) (fails : List (Fin 4 × TestFail)) (s : State) : finishWarm t true fails s =
    match deadHubLink (warmTables s).liveLinks (warmLinks t s) with
    | some d => failBoot 0x0906 d (warmLinks t s)
    | none =>
      match deadStack t (warmStacks (warmLinks t s)) with
      | some m => failBoot 0x0901 (m / 4) ((warmStacks (warmLinks t s)).foldl (trainStack t false) (warmLinks t s))
      | none => warmRun fails ((warmStacks (warmLinks t s)).foldl (trainStack t false) (warmLinks t s)) := rfl

theorem countStartup_cwf {s : State} (hw : cwf 0 s.regs = true) : cwf 0 (countStartup s).regs = true := State.setRfld_cwf hw ..

/-- Up to the training of links only events and the dies' states follow the start-up count. -/
theorem warmNom_keeps (s : State) : Keeps true [ZG_BOOT_DIES] (dropCleared (warmDiesUp s) (countStartup s)) (warmNom s) :=
  Keeps.foldl (fun _ _ h => h.seekNom _) _ (Keeps.setDies (by simp) ((Keeps.refl _).takeTables _) _)

theorem warmNom_dieFailed {s : State} (hw : cwf 0 s.regs = true) {f : Nat} (hf : f < 4) : (warmNom s).dieFailed f = s.dieFailed f := by
  have hcw : cwf 0 (dropCleared (warmDiesUp s) (countStartup s)).regs = true := countStartup_cwf hw
  have htables : Keeps true [] (dropCleared (warmDiesUp s) (countStartup s))
      (takeTables (warmDiesUp s) (dropCleared (warmDiesUp s) (countStartup s))) := (Keeps.refl _).takeTables _
  have hdies : cwf 0 (warmTables s).regs = true := (Keeps.setDies (w := [ZG_BOOT_DIES]) (e := true) (by simp) (Keeps.refl _) 1).canon (htables.canon hcw)
  have hnom : Keeps true [] (warmTables s) (warmNom s) := Keeps.foldl (fun _ _ h => h.seekNom _) _ (Keeps.refl _)
  rw [dieFailed_of_keeps hnom (by simp) hdies, warmTables, setDies_dieFailed (htables.canon hcw) hf (by decide),
    dieFailed_of_keeps htables (by simp) hcw]
  exact countStartup_dieFailed hw f

theorem warmNom_cwf {s : State} (hw : cwf 0 s.regs = true) : cwf 0 (warmNom s).regs = true :=
  (warmNom_keeps s).canon (countStartup_cwf hw)

theorem liveLinks_lt {s : State} : ∀ l ∈ s.liveLinks, l < 8 := fun _ hl => List.mem_range.1 (List.mem_of_mem_filter hl)

theorem warmNom_mapFits {s : State} (h : s.mapFits) : (warmNom s).mapFits := by
  obtain ⟨-, -, -, hmap⟩ := (warmNom_keeps s).told rfl
  exact mapFits_of_sublist (by rw [hmap]) (dropCleared_mapFits (s := countStartup s) (warmDiesUp s) (mapFits_of_boot rfl h))

section
variable {t : Training} (hdown : t.down = []) (hwires : t.wires = []) {s : State}
include hdown hwires

theorem warmLinks_hub (hfit : s.mapFits) : deadHubLink (warmTables s).liveLinks (warmLinks t s) = none :=
  deadHubLink_of_up (trainLinks_trained hdown hwires liveLinks_lt (warmNom_mapFits hfit)).2

theorem warmLinks_queues (hfit : s.mapFits) : (warmLinks t s).host.queues = s.host.queues := by
  obtain ⟨htrained, -⟩ := trainLinks_trained hdown hwires (liveLinks_lt (s := warmTables s)) (warmNom_mapFits hfit)
  obtain ⟨-, -, hqueues, -⟩ := (warmNom_keeps s).told rfl
  exact (congrArg HostSt.queues htrained.host).trans hqueues

omit hdown hwires in
theorem warmLinks_stacks (hw : cwf 0 s.regs = true) : warmStacks (warmLinks t s) = warmStacks s := by
  refine List.filter_congr fun m hm => ?_
  have hk : Keeps false [] (warmNom s) (warmLinks t s) := (Keeps.refl _).trainLinks _ _
  have hm4 : m / 4 < 4 := by have := List.mem_range.1 hm; omega
  rw [dieFailed_of_keeps hk (by simp) (warmNom_cwf hw), warmNom_dieFailed hw hm4]

/-- A warm reset whose training finds no fault of links ends in the failure of a stack, or goes on with the start-up counted. -/
theorem finishWarm_spec (hw : cwf 0 s.regs = true) (hfit : s.mapFits) (fails : List (Fin 4 × TestFail)) :
    (∀ m, deadStack t ((List.range 16).filter (fun m => !s.dieFailed (m / 4))) = some m →
        ∃ v, finishWarm t true fails s = failBoot 0x0901 (m / 4) v)
      ∧ (t.dead = [] → ∃ v, finishWarm t true fails s = warmRun fails v
          ∧ v.store.startups = s.store.startups + 1 ∧ v.host.queues = s.host.queues ∧ v.boot.imageHash = s.boot.imageHash) := by
  rw [finishWarm_of_ctx, warmLinks_hub hdown hwires hfit, warmLinks_stacks hw]
  refine ⟨fun m hm => ?_, fun hdead => ?_⟩
  · have hm' : deadStack t (warmStacks s) = some m := hm
    rw [hm']
    exact ⟨_, rfl⟩
  · rw [deadStack_of_none hdead]
    have hstacks : Keeps true [] (warmLinks t s) ((warmStacks s).foldl (trainStack t false) (warmLinks t s)) :=
      Keeps.foldl (fun _ _ h => h.trainStack _ _) _ (Keeps.refl _)
    have hlinks : Keeps false [ZG_BOOT_DIES] (dropCleared (warmDiesUp s) (countStartup s)) (warmLinks t s) :=
      (warmNom_keeps s).work.trainLinks _ _
    obtain ⟨-, -, hqueues, -⟩ := hstacks.told rfl
    refine ⟨_, rfl, hstacks.store.1.trans hlinks.store.1, hqueues.trans (warmLinks_queues hdown hwires hfit), ?_⟩
    rw [hstacks.boot, hlinks.boot]
    rfl
end

/-! ### The warm reset -/

theorem execWarmReset_idle {cause : ResetBy} {tr : Training} {ctxOk : Bool} {fails : List (Fin 4 × TestFail)} {s : State}
    (h : (resetByWrite cause s).stage ≠ 12 ∨ (resetByWrite cause s).power.tripped = true) :
    exec (.warmReset cause tr ctxOk fails) s = .next (resetByWrite cause s) := by
  have hneg : ¬ ((resetByWrite cause s).stage = 12 ∧ (resetByWrite cause s).power.tripped = false) := by
    rintro ⟨h12, htrip⟩
    rcases h with h | h
    · exact h h12
    · rw [htrip] at h; exact absurd h (by simp)
  exact congrArg Host.Outcome.next (if_neg hneg)

theorem execWarmReset_due {cause : ResetBy} {tr : Training} {ctxOk : Bool} {fails : List (Fin 4 × TestFail)} {s : State}
    (h12 : (resetByWrite cause s).stage = 12) (htrip : (resetByWrite cause s).power.tripped = false) :
    exec (.warmReset cause tr ctxOk fails) s = .next (finishWarm tr ctxOk fails (resetByWrite cause s)) :=
  congrArg Host.Outcome.next (if_pos ⟨h12, htrip⟩)

/-- Without a context save area that passes, a warm reset is a cold one but for RESET_N. -/
theorem finishWarm_of_lost (tr : Training) (fails : List (Fin 4 × TestFail)) (u : State) :
    finishWarm tr false fails u = { coldState false true u with pins := { (coldState false true u).pins with resetN := u.pins.resetN } } := rfl

theorem coldState_spec (u : State) : (coldState false true u).host.queues = [] ∧ (coldState false true u).hbm.pt = []
    ∧ (coldState false true u).time.now = 0 ∧ (coldState false true u).boot.health = u.boot.health ∧ (coldState false true u).store = u.store
    ∧ (coldState false true u).pending = u.pending := ⟨rfl, rfl, rfl, rfl, rfl, rfl⟩

/-- A warm reset: begun by its write or under way, it ends as a cold reset, in the failure of a stack, or in `warmRun`. -/
theorem warmReset_spec (cause : ResetBy) (tr : Training) (ctxOk : Bool) (fails : List (Fin 4 × TestFail)) (s : State) :
    let u := resetByWrite cause s
    (u.stage ≠ 12 ∨ u.power.tripped = true → exec (.warmReset cause tr ctxOk fails) s = .next u)
    ∧ (u.stage = 12 → u.power.tripped = false →
      (ctxOk = false → ∃ t, exec (.warmReset cause tr ctxOk fails) s = .next t ∧ t.host.queues = [] ∧ t.hbm.pt = [] ∧ t.time.now = 0
        ∧ t.boot.health = u.boot.health ∧ t.store = u.store ∧ t.pins.resetN = u.pins.resetN ∧ t.pending = s.pending)
      ∧ (ctxOk = true → u.canonical = true → tr.down = [] → tr.wires = [] → u.mapFits →
        (∀ m, deadStack tr ((List.range 16).filter (fun m => !u.dieFailed (m / 4))) = some m →
          ∃ v, exec (.warmReset cause tr ctxOk fails) s = .next (failBoot 0x0901 (m / 4) v))
        ∧ (tr.dead = [] → ∃ v, exec (.warmReset cause tr ctxOk fails) s = .next (warmRun fails v)
            ∧ v.store.startups = u.store.startups + 1 ∧ v.host.queues = u.host.queues ∧ v.boot.imageHash = u.boot.imageHash))) := by
  refine ⟨execWarmReset_idle, fun h12 htrip => ?_⟩
  rw [execWarmReset_due h12 htrip]
  refine ⟨fun hctx => ?_, fun hctx hc hdown hwires hfit => ?_⟩
  · obtain ⟨hqueues, hpt, hnow, hhealth, hstore, hpending⟩ := coldState_spec (resetByWrite cause s)
    subst hctx
    exact ⟨_, congrArg Host.Outcome.next (finishWarm_of_lost ..), hqueues, hpt, hnow, hhealth, hstore, rfl, hpending.trans (resetByWrite_pending cause s)⟩
  · subst hctx
    obtain ⟨hfail, hrun⟩ := finishWarm_spec hdown hwires (regs_of_canonical hc) hfit fails
    refine ⟨fun m hm => ?_, fun hdead => ?_⟩
    · obtain ⟨v, hv⟩ := hfail m hm
      exact ⟨v, by rw [hv]⟩
    · obtain ⟨v, hv, hrest⟩ := hrun hdead
      exact ⟨v, by rw [hv], hrest⟩

end Sys2Proof.Machine
end

section
/-! How a die reset ends, and the statement about resets. -/
namespace Sys2Proof.Machine
open Sys2Proof

/-! ### The end of a die reset -/

/-- The start-up of one die is counted, and what is known of the die is taken. -/
def dieTables (d : Nat) (s : State) : State := takeTables [d] (dropCleared [d] (countStartup (bump ZG_BOOT_DIERSTS 1 s)))

/-- The links of the die are trained. -/
def dieLinked (d : Nat) (t : Training) (s : State) : State := trainLinks t ((dieTables d s).dieLinks d) (seekNom d (dieTables d s))

/-- The die is trained. -/
def dieTrained (d : Nat) (t : Training) (s : State) : State :=
  ((List.range 4).map (4 * d + ·)).foldl (trainStack t false) (dieLinked d t s)

/-- What training or a test finds fails the die. -/
def dieFails (d : Nat) (t : Training) (fails : List TestFail) (s : State) : Bool :=
  (deadHubLink ((dieTables d s).dieLinks d) (dieTrained d t s)).isSome || (deadStack t ((List.range 4).map (4 * d + ·))).isSome
    || (fails.filter (fun x => decide (2 ≤ x.test.toNat) && decide (x.test.toNat ≤ 8))).any (fun x => dieLevel x.test.toNat)

/-- The die is in service, and its replica follows the hub's time. -/
def dieServes (d : Nat) (s : State) : State :=
  let s := trainPorts d (setDieState d 3 (leaveReduced d s))
  { s with time := { s.time with replica := s.time.replica.set d s.now } }

/-- The tests of the die have acted. -/
def dieTested (d : Nat) (fails : List TestFail) (s : State) : State :=
  updateEngineCount (64 * d) (applyHealth d (selfTestFailures d (fails.filter (fun x => decide (2 ≤ x.test.toNat) && decide (x.test.toNat ≤ 8))) s))

theorem finishDie_eq (d : Nat) (t : Training) (fails : List TestFail) (s : State) : ∃ cause, finishDie d t fails s =
    if dieFails d t fails s then bootEvent 5 (d + cause * 4) 3 (updateEngineCount (64 * d) (setDieState d 5 (dieTrained d t s)))
    else bootEvent 5 (d + cause * 4 + 32) 0 (flushRings (dieServes d (dieTested d fails (dieTrained d t s)))) :=
  ⟨_, rfl⟩

/-- Of the store, training and tests of the die advance the start-up count alone. -/
theorem dieTrained_keeps (d : Nat) (t : Training) (s : State) :
    Keeps false [] (dropCleared [d] (countStartup (bump ZG_BOOT_DIERSTS 1 s))) (dieTrained d t s) :=
  Keeps.foldl (fun _ _ h => h.trainStack _ _) _ ((((Keeps.refl _).takeTables _).seekNom _).trainLinks _ _)

theorem dieTrained_startups (d : Nat) (t : Training) (s : State) : (dieTrained d t s).store.startups = s.store.startups + 1 := by
  have hbump : Keeps true [] s (bump ZG_BOOT_DIERSTS 1 s) := (Keeps.refl s).bump (free_pkg (by decide)) 1
  exact (dieTrained_keeps d t s).store.1.trans (congrArg (· + 1) hbump.store.1)

theorem dieTrained_time (d : Nat) (t : Training) (s : State) : (dieTrained d t s).time = s.time := by
  have hbump : Keeps true [] s (bump ZG_BOOT_DIERSTS 1 s) := (Keeps.refl s).bump (free_pkg (by decide)) 1
  exact (dieTrained_keeps d t s).time.trans hbump.time

theorem dieTested_keeps {w : List Nat} (d : Nat) (fails : List TestFail) (s : State) : Keeps false w s (dieTested d fails s) :=
  (((Keeps.refl s).selfTestFailures _ _).applyHealth _).updateEngineCount _

/-- The die in service but for its replica. -/
theorem dieServed_keeps {w : List Nat} (d : Nat) (s : State) :
    Keeps false w (setDieState d 3 (leaveReduced d s)) (trainPorts d (setDieState d 3 (leaveReduced d s))) := (Keeps.refl _).trainPorts _

theorem dieOpened_keeps (d : Nat) (s : State) : Keeps false keyRegs s (setDieState d 3 (leaveReduced d s)) :=
  Keeps.setDieState (by decide) (Keeps.leaveReduced (by decide) (Keeps.refl s) _) _ _

theorem dieServes_startups (d : Nat) (s : State) : (dieServes d s).store.startups = s.store.startups :=
  (dieServed_keeps (w := []) d s).store.1.trans (dieOpened_keeps d s).store.1

theorem dieServes_time (d : Nat) (s : State) : (dieServes d s).time = { s.time with replica := s.time.replica.set d s.now } := by
  have htime : (trainPorts d (setDieState d 3 (leaveReduced d s))).time = s.time :=
    (dieServed_keeps (w := []) d s).time.trans (dieOpened_keeps d s).time
  have hnow : (trainPorts d (setDieState d 3 (leaveReduced d s))).now = s.now := congrArg TimeSt.now htime
  unfold dieServes
  dsimp only
  rw [htime, hnow]

/-- A state of a die other than zero stays through events and work. -/
theorem dieState_of_keeps {e : Bool} {s t : State} (h : Keeps e [] s t) {d n : Nat} (hs : s.dieState d = n) (hn : n ≠ 0) : t.dieState d = n :=
  (h.rfld (by decide) (by simp) (.inr (ne_zero_of_fld (ne_of_eq_of_ne hs hn))) _ _).trans hs

theorem dieServes_dieState {d : Nat} (hd : d < 4) (s : State) : (dieServes d s).dieState d = 3 :=
  dieState_of_keeps (dieServed_keeps d s) (setDieState_dieState hd (.inr (by decide))) (by omega)

section
variable {d : Nat} {t : Training} {fails : List TestFail} {s : State}

theorem finishDie_startups : (finishDie d t fails s).store.startups = s.store.startups + 1 := by
  obtain ⟨cause, heq⟩ := finishDie_eq d t fails s
  rw [heq]
  split
  · have hk : Keeps false keyRegs (dieTrained d t s)
        (bootEvent 5 (d + cause * 4) 3 (updateEngineCount (64 * d) (setDieState d 5 (dieTrained d t s)))) :=
      ((Keeps.setDieState (by decide) (Keeps.refl _) _ _).updateEngineCount _).bootEvent _ _ _
    exact hk.store.1.trans (dieTrained_startups d t s)
  · have hk : Keeps false [] (dieServes d (dieTested d fails (dieTrained d t s)))
        (bootEvent 5 (d + cause * 4 + 32) 0 (flushRings (dieServes d (dieTested d fails (dieTrained d t s))))) :=
      (Keeps.refl _).flushRings.bootEvent _ _ _
    rw [hk.store.1, dieServes_startups, (dieTested_keeps (w := []) d fails _).store.1, dieTrained_startups]

theorem finishDie_of_fails (hd : d < 4) (h : dieFails d t fails s = true) : (finishDie d t fails s).dieState d = 5 := by
  obtain ⟨cause, heq⟩ := finishDie_eq d t fails s
  rw [heq, if_pos h]
  exact dieState_of_keeps (((Keeps.refl _).updateEngineCount _).bootEvent _ _ _) (setDieState_dieState hd (.inr (by decide))) (by omega)

theorem finishDie_of_passes (hd : d < 4) (h : dieFails d t fails s = false) : (finishDie d t fails s).dieState d = 3
    ∧ (finishDie d t fails s).time.replica = s.time.replica.set d s.now := by
  obtain ⟨cause, heq⟩ := finishDie_eq d t fails s
  have hk : Keeps false [] (dieServes d (dieTested d fails (dieTrained d t s)))
      (bootEvent 5 (d + cause * 4 + 32) 0 (flushRings (dieServes d (dieTested d fails (dieTrained d t s))))) :=
    (Keeps.refl _).flushRings.bootEvent _ _ _
  have htime : (dieTested d fails (dieTrained d t s)).time = s.time := (dieTested_keeps (w := []) d fails _).time.trans (dieTrained_time d t s)
  have hnow : (dieTested d fails (dieTrained d t s)).now = s.now := congrArg TimeSt.now htime
  rw [heq, if_neg (by simp [h])]
  refine ⟨dieState_of_keeps hk (dieServes_dieState hd _) (by omega), ?_⟩
  rw [hk.time, dieServes_time, htime, hnow]

/-- A stack of the die that does not train, or a test that fails a die, fails it. -/
theorem dieFails_of_fault (h : (∃ m, m < 4 ∧ t.dead.any (fun x => x.val == 4 * d + m) = true)
    ∨ (∃ x ∈ fails, 2 ≤ x.test.toNat ∧ x.test.toNat ≤ 8 ∧ dieLevel x.test.toNat = true)) : dieFails d t fails s = true := by
  rw [dieFails, Bool.or_eq_true, Bool.or_eq_true]
  rcases h with ⟨m, hm, hdead⟩ | ⟨x, hx, h2, h8, hlevel⟩
  · refine .inl (.inr ?_)
    rw [deadStack, List.find?_isSome]
    exact ⟨4 * d + m, List.mem_map.2 ⟨m, List.mem_range.2 hm, rfl⟩, hdead⟩
  · exact .inr (List.any_eq_true.2 ⟨x, List.mem_filter.2 ⟨hx, by simp [h2, h8]⟩, hlevel⟩)

theorem dieLinks_lt (hd : d < 4) : ∀ l ∈ s.dieLinks d, l < 8 := by
  have hprev : prevDie d < 4 := by
    unfold prevDie
    split
    · omega
    · split
      · omega
      · split <;> omega
  intro l hl
  rcases List.mem_append.1 hl with hl | hl
  · have hmem := List.mem_of_mem_filter hl
    simp only [List.mem_cons, List.not_mem_nil, or_false] at hmem
    omega
  · rw [List.mem_singleton] at hl
    omega

theorem dieTables_mapFits (hfit : s.mapFits) : (seekNom d (dieTables d s)).mapFits := by
  have hbump : Keeps true [] s (bump ZG_BOOT_DIERSTS 1 s) := (Keeps.refl s).bump (free_pkg (by decide)) 1
  obtain ⟨-, -, -, hmap⟩ := hbump.told rfl
  have hcount : (countStartup (bump ZG_BOOT_DIERSTS 1 s)).mapFits := mapFits_of_sublist (hmap ▸ List.Sublist.refl _) hfit
  have htables : Keeps true [] (dropCleared [d] (countStartup (bump ZG_BOOT_DIERSTS 1 s))) (seekNom d (dieTables d s)) :=
    ((Keeps.refl _).takeTables _).seekNom _
  obtain ⟨-, -, -, hmap'⟩ := htables.told rfl
  exact mapFits_of_sublist (by rw [hmap']) (dropCleared_mapFits [d] hcount)

theorem dieFails_of_clean (hd : d < 4) (hdead : t.dead = []) (hdown : t.down = []) (hwires : t.wires = []) (hfit : s.mapFits)
    (hfails : ∀ x ∈ fails, dieLevel x.test.toNat = false) : dieFails d t fails s = false := by
  obtain ⟨-, hup⟩ := trainLinks_trained hdown hwires (dieLinks_lt (s := dieTables d s) hd) (dieTables_mapFits (d := d) hfit)
  have hstacks : Keeps true [] (dieLinked d t s) (dieTrained d t s) := Keeps.foldl (fun _ _ h => h.trainStack _ _) _ (Keeps.refl _)
  obtain ⟨-, hd2d, -, -⟩ := hstacks.told rfl
  have hup' : ∀ l ∈ (dieTables d s).dieLinks d, ∀ k < linkStrands l, StrandUp l k (dieTrained d t s) := fun l hl k hk => by
    rw [StrandUp, State.strand, hd2d]; exact hup l hl k hk
  have hnone : (fails.filter (fun x => decide (2 ≤ x.test.toNat) && decide (x.test.toNat ≤ 8))).any (fun x => dieLevel x.test.toNat) = false :=
    List.any_eq_false.2 fun x hx => by rw [hfails x (List.mem_of_mem_filter hx)]; exact Bool.false_ne_true
  rw [dieFails, deadHubLink_of_up hup', deadStack_of_none hdead, hnone]
  rfl
end

/-! ### The die reset -/

/-- A die reset begins by a write or, without one, where the hub link of the die is lost. -/
def dieResetBegun (die : Die) (cause : ResetBy) (s : State) : State :=
  let u := resetByWrite cause s
  if cause = .itself ∧ u.ready = true ∧ u.dieResetting = false ∧ u.rfld (ZG_D2D_PORT die 2) 52 51 = 3 then beginDie die u else u

theorem execDieReset_eq (die : Die) (cause : ResetBy) (tr : Training) (fails : List TestFail) (s : State) :
    exec (.dieReset die cause tr fails) s = .next (if (dieResetBegun die cause s).dieState die = 4 ∧ (dieResetBegun die cause s).stage = 10
      ∧ (dieResetBegun die cause s).power.tripped = false then finishDie die tr fails (dieResetBegun die cause s)
      else dieResetBegun die cause s) := rfl

/-- A die reset counts a start-up; the die fails with its stack or its test, and without a fault it is in service again. -/
theorem dieReset_spec (die : Die) (cause : ResetBy) (tr : Training) (fails : List TestFail) (s : State) :
    let v := dieResetBegun die cause s
    (v.dieState die ≠ 4 ∨ v.stage ≠ 10 ∨ v.power.tripped = true → exec (.dieReset die cause tr fails) s = .next v)
    ∧ (v.dieState die = 4 → v.stage = 10 → v.power.tripped = false → ∃ t, exec (.dieReset die cause tr fails) s = .next t
      ∧ t.store.startups = v.store.startups + 1
      ∧ ((∃ m, m < 4 ∧ tr.dead.any (fun x => x.val == 4 * die.val + m) = true)
          ∨ (∃ x ∈ fails, 2 ≤ x.test.toNat ∧ x.test.toNat ≤ 8 ∧ dieLevel x.test.toNat = true) → t.dieState die = 5)
      ∧ (tr.dead = [] → tr.down = [] → tr.wires = [] → v.mapFits → (∀ x ∈ fails, dieLevel x.test.toNat = false) →
          t.dieState die = 3 ∧ t.time.replica = v.time.replica.set die.val v.now)) := by
  intro v
  rw [execDieReset_eq]
  refine ⟨fun h => ?_, fun h4 h10 htrip => ⟨_, congrArg Host.Outcome.next (if_pos ⟨h4, h10, htrip⟩), finishDie_startups, fun h => ?_, ?_⟩⟩
  · refine congrArg Host.Outcome.next (if_neg fun hall => ?_)
    obtain ⟨h4, h10, htrip⟩ := hall
    rcases h with h | h | h
    · exact h h4
    · exact h h10
    · exact Bool.false_ne_true (htrip.symm.trans h)
  · exact finishDie_of_fails die.isLt (dieFails_of_fault h)
  · exact fun hdead hdown hwires hfit hfails => finishDie_of_passes die.isLt (dieFails_of_clean die.isLt hdead hdown hwires hfit hfails)

/-! ### The statement -/

theorem hubSramError_spec (what : SramRegion) (s : State) :
    (s.stage = 0 → exec (.hubSramError what) s = .next s)
    ∧ (s.stage ≠ 0 →
      let u := fun (row : Nat) => bootEvent 8 row 3 s
      (what = .queues → exec (.hubSramError what) s = .next (if (u 0).ready then beginWarm 2 (u 0) else u 0))
      ∧ (∀ d fr, what = .presence d fr →
          let g := d.val * 131072 + fr.toNat
          let v := { u 1 with hbm := { (u 1).hbm with mapCache := (u 1).hbm.mapCache.filter (fun p => p.1 != g) } }
          ((u 1).hbm.mapCache.find? (fun p => p.1 == g) = some (g, true) →
            exec (.hubSramError what) s = .next (loseLine g (mapLineAddr g) [g] v))
          ∧ ((u 1).hbm.mapCache.find? (fun p => p.1 == g) ≠ some (g, true) → exec (.hubSramError what) s = .next v))
      ∧ (∀ slot, what = .alarms slot → exec (.hubSramError what) s = .next (refreshAlert ((u 2).setAlarm slot.toNat {})))
      ∧ (what = .logFifo → ∃ t, exec (.hubSramError what) s = .next t ∧ t.mgt.logFifo = (u 2).mgt.logFifo.drop 1
          ∧ ((u 2).mgt.logFifo ≠ [] → t = bump ZG_MGT_LOG_LOST 1 { u 2 with mgt := { (u 2).mgt with logFifo := (u 2).mgt.logFifo.drop 1 } }))
      ∧ (what = .traceFifo → ∃ t, exec (.hubSramError what) s = .next t ∧ t.mgt.traceFifo = (u 2).mgt.traceFifo.drop 1)
      ∧ (what = .sideband → exec (.hubSramError what) s =
          .next (if (u 3).host.mbx.phase = 1 ∧ (u 3).host.mbx.sb = true then finishRole 1 [] (u 3) else u 3))
      ∧ (what = .mailbox → exec (.hubSramError what) s =
          .next (if (u 3).host.mbx.phase = 1 ∧ (u 3).host.mbx.sb = false then finishRole 1 [] (u 3) else u 3))
      ∧ (what = .emulation → ∃ t, exec (.hubSramError what) s = .next t ∧ t.mgt.emuWrites = [] ∧ t.mgt.emuReads = [])) := by
  refine ⟨fun h => congrArg Host.Outcome.next (if_pos h), fun hon => ?_⟩
  rw [execHubSramError_of_on hon]
  refine ⟨?_, ?_, ?_, ?_, ?_, ?_, ?_, ?_⟩
  · rintro rfl; rfl
  · rintro d fr rfl
    exact ⟨fun h => congrArg Host.Outcome.next (if_pos h), fun h => congrArg Host.Outcome.next (if_neg h)⟩
  · rintro slot rfl; rfl
  · rintro rfl
    obtain ⟨hdrop, hlost⟩ := sramLoss_logFifo (bootEvent 8 2 3 s)
    exact ⟨_, rfl, hdrop, hlost⟩
  · rintro rfl
    exact ⟨_, rfl, sramLoss_traceFifo _⟩
  · rintro rfl; rfl
  · rintro rfl; rfl
  · rintro rfl
    exact ⟨_, rfl, rfl, rfl⟩

theorem resetByWrite_accepted {f : Func} {v : Word32} {s : State} {r : RegDesc} (h : s.accepts f ZG_BOOT_CTRL 4 v.toNat r) :
    resetByWrite (.write f v) s = s.afterWrite f ZG_BOOT_CTRL 4 v.toNat r (fun _ new t => bootCtrlEffect new t) :=
  guardedWrite_accepted h fun _ new t => bootCtrlEffect new t

/-- Settles O58, clause by clause: each reset is cut into steps, and `Keeps` carries what one step sets past the events and the work of
the next. -/
theorem resetsEndWorkAndRejoinOrFail : Obligations.ResetsEndWorkAndRejoinOrFail :=
  ⟨warmReset_spec, fun _ v _ _ h => ⟨resetByWrite_accepted h, fun t => bootCtrlEffect_eq v.toNat t⟩, beginWarm_spec, fun q => shutQueue_queue q,
    warmRun_spec, dieReset_spec, fun _ _ => beginDie_of_off, fun die _ => beginDie_spec die,
    fun _ => ⟨execRefclkLoss_idle, execRefclkLoss_spec⟩, execRefclkReturn_spec, hubSramError_spec⟩

end Sys2Proof.Machine
end

section
/-! Byte strings as numbers (R5), packed elements (R45) and what a write into a record leaves. -/
namespace Sys2Proof.Machine
open Sys2Proof

/-! ### Little-endian numbers -/

@[simp] theorem length_natLE : ∀ n v : Nat, (natLE n v).length = n
  | 0, _ => rfl
  | n + 1, v => congrArg (· + 1) (length_natLE n (v / 256))

theorem leNat_natLE : ∀ n v : Nat, leNat (natLE n v) = v % 256 ^ n
  | 0, v => by simp [natLE, leNat, Nat.mod_one]
  | n + 1, v => by
    rw [natLE, leNat, leNat_natLE n, pow_succ', Nat.mod_mul, BitVec.toNat_ofNat]

theorem natLE_leNat : ∀ bs : List Byte, natLE bs.length (leNat bs) = bs
  | [] => rfl
  | b :: bs => by
    have hb := b.isLt
    have hlow : BitVec.ofNat 8 (b.toNat + 256 * leNat bs) = b := BitVec.eq_of_toNat_eq (by rw [BitVec.toNat_ofNat]; omega)
    rw [List.length_cons, leNat, natLE, hlow, show (b.toNat + 256 * leNat bs) / 256 = leNat bs by omega, natLE_leNat bs]

theorem leNat_drop : ∀ (bs : List Byte) (k : Nat), leNat (bs.drop k) = leNat bs / 256 ^ k
  | bs, 0 => by simp
  | [], k + 1 => by simp [leNat]
  | b :: bs, k + 1 => by
    have hb := b.isLt
    rw [List.drop_succ_cons, leNat_drop bs k, leNat, pow_succ', ← Nat.div_div_eq_div_mul,
      show (b.toNat + 256 * leNat bs) / 256 = leNat bs by omega]

theorem leNat_take : ∀ (bs : List Byte) (n : Nat), leNat (bs.take n) = leNat bs % 256 ^ n
  | bs, 0 => by simp [leNat, Nat.mod_one]
  | [], n + 1 => by simp [leNat]
  | b :: bs, n + 1 => by
    have hb := b.isLt
    rw [List.take_succ_cons, leNat, leNat_take bs n, leNat, pow_succ', Nat.mod_mul,
      show (b.toNat + 256 * leNat bs) / 256 = leNat bs by omega, show (b.toNat + 256 * leNat bs) % 256 = b.toNat by omega]

theorem getLE_eq (bs : List Byte) (off n : Nat) : getLE bs off n = leNat bs / 256 ^ off % 256 ^ n := by
  rw [getLE, leNat_take, leNat_drop]

/-! ### Writes into a record -/

theorem length_putAt {bs new : List Byte} {off : Nat} (h : off + new.length ≤ bs.length) : (putAt bs off new).length = bs.length := by
  simp only [putAt, List.length_append, List.length_take, List.length_drop]
  omega

theorem take_drop_putAt {bs : List Byte} {off : Nat} (new : List Byte) (h : off ≤ bs.length) :
    ((putAt bs off new).drop off).take new.length = new := by
  have hoff : (bs.take off).length = off := List.length_take_of_le h
  rw [putAt, List.append_assoc, List.drop_left' hoff, List.take_left]

/-- A byte of a record after a write: the byte written inside the range, the byte before outside it. -/
theorem byteAt_putAt {bs : List Byte} {off : Nat} (new : List Byte) (h : off ≤ bs.length) (j : Nat) :
    byteAt (putAt bs off new) j = if off ≤ j ∧ j < off + new.length then byteAt new (j - off) else byteAt bs j := by
  have hoff : (bs.take off).length = off := List.length_take_of_le h
  simp only [byteAt, putAt, List.append_assoc]
  by_cases hlo : j < off
  · rw [if_neg (by omega), List.getD_append _ _ _ _ (by omega)]
    simp [List.getD_eq_getElem?_getD, hlo]
  · rw [List.getD_append_right _ _ _ _ (by omega), hoff]
    by_cases hhi : j < off + new.length
    · rw [if_pos ⟨by omega, hhi⟩, List.getD_append _ _ _ _ (by omega)]
    · rw [if_neg (by omega), List.getD_append_right _ _ _ _ (by omega), List.getD_eq_getElem?_getD, List.getElem?_drop,
        show off + new.length + (j - off - new.length) = j by omega, ← List.getD_eq_getElem?_getD]

/-! ### Packed elements -/

/-- The number packed elements of `w` bits spell. -/
def packedNat (w : Nat) (vs : List Nat) : Nat := vs.foldr (fun v n => v % 2 ^ w + 2 ^ w * n) 0

theorem packElems_eq (w : Nat) (vs : List Nat) : packElems w vs = natLE (ceilDiv (w * vs.length) 8) (packedNat w vs) := rfl

theorem packedNat_lt (w : Nat) : ∀ vs : List Nat, packedNat w vs < 2 ^ (w * vs.length)
  | [] => by simp [packedNat]
  | v :: vs => by
    have hv : v % 2 ^ w < 2 ^ w := Nat.mod_lt _ (Nat.two_pow_pos w)
    have ih : packedNat w vs + 1 ≤ 2 ^ (w * vs.length) := packedNat_lt w vs
    calc packedNat w (v :: vs) = v % 2 ^ w + 2 ^ w * packedNat w vs := rfl
      _ < 2 ^ w * (packedNat w vs + 1) := by rw [Nat.mul_add]; omega
      _ ≤ 2 ^ w * 2 ^ (w * vs.length) := Nat.mul_le_mul_left _ ih
      _ = 2 ^ (w * (v :: vs).length) := by rw [← pow_add, List.length_cons]; ring_nf

/-- Element `i` is the field of `w` bits at bit `w * i`. -/
theorem packedNat_field (w : Nat) : ∀ (vs : List Nat) (i : Nat), packedNat w vs / 2 ^ (w * i) % 2 ^ w = vs.getD i 0 % 2 ^ w
  | [], i => by simp [packedNat]
  | v :: vs, 0 => by simp [packedNat]
  | v :: vs, i + 1 => by
    have hv : v % 2 ^ w < 2 ^ w := Nat.mod_lt _ (Nat.two_pow_pos w)
    have hrest : packedNat w (v :: vs) / 2 ^ w = packedNat w vs := by
      show (v % 2 ^ w + 2 ^ w * packedNat w vs) / 2 ^ w = _
      rw [Nat.add_mul_div_left _ _ (Nat.two_pow_pos w), Nat.div_eq_of_lt hv, Nat.zero_add]
    rw [Nat.mul_succ, Nat.add_comm, pow_add, ← Nat.div_div_eq_div_mul, hrest, packedNat_field w vs i, List.getD_cons_succ]

theorem leNat_packElems (w : Nat) (vs : List Nat) : leNat (packElems w vs) = packedNat w vs := by
  rw [packElems_eq, leNat_natLE, show (256 : Nat) = 2 ^ 8 from rfl, ← pow_mul]
  refine Nat.mod_eq_of_lt ((packedNat_lt w vs).trans_le (Nat.pow_le_pow_right (by omega) ?_))
  unfold ceilDiv
  omega

/-- The bytes read for an element hold all its bits. -/
theorem packedGet_eq (bs : List Byte) {w : Nat} (hw : 0 < w) (i : Nat) : packedGet bs w i = leNat bs / 2 ^ (w * i) % 2 ^ w := by
  have hfit : w * i % 8 + w ≤ 8 * (w / 8 + 2) := by omega
  rw [packedGet, bitsOf, getLE_eq, show (256 : Nat) = 2 ^ 8 from rfl, ← pow_mul, ← pow_mul,
    show w * i % 8 + w - 1 + 1 - w * i % 8 = w by omega,
    show 8 * (w / 8 + 2) = w * i % 8 + (8 * (w / 8 + 2) - w * i % 8) by omega, pow_add, Nat.mod_mul_right_div_self,
    Nat.mod_mod_of_dvd _ (pow_dvd_pow 2 (by omega)), Nat.div_div_eq_div_mul, ← pow_add, Nat.div_add_mod]

theorem packedGet_packElems {w : Nat} (hw : 0 < w) (vs : List Nat) (i : Nat) :
    packedGet (packElems w vs) w i = vs.getD i 0 % 2 ^ w := by
  rw [packedGet_eq _ hw, leNat_packElems, packedNat_field]

/-- 256 elements of `w` bits fill 32 w bytes. -/
theorem length_packElems {w : Nat} {es : List Nat} (h : es.length = 256) : (packElems w es).length = w * 32 := by
  rw [packElems_eq, length_natLE, h, ceilDiv]
  omega

end Sys2Proof.Machine
end

section
/-! Parts, scale bytes and lanes of a vector register (R59, R62, R141), and the flags of VSTAT (R149). -/
namespace Sys2Proof.Machine
open Sys2Proof

/-! ### The bytes of a register -/

theorem length_laneBytes (v : List Nat) : (laneBytes v).length = 4 * v.length := by
  simp [laneBytes, List.length_flatten, Function.comp_def, Nat.mul_comm]

@[simp] theorem length_bytesLanes (bs : List Byte) : (bytesLanes bs).length = 256 := by simp [bytesLanes]

/-- The first 4 n bytes of a string are its first n groups of four. -/
theorem flatten_fours (bs : List Byte) : ∀ n : Nat, ((List.range n).map fun l => (bs.drop (4 * l)).take 4).flatten = bs.take (4 * n)
  | 0 => by simp
  | n + 1 => by
    rw [List.range_succ, List.map_append, List.flatten_append, flatten_fours bs n, Nat.mul_succ, List.take_add]
    simp

/-- The lanes spelled by 1,024 bytes have these bytes. -/
theorem laneBytes_bytesLanes {bs : List Byte} (h : bs.length = 1024) : laneBytes (bytesLanes bs) = bs := by
  have hfour : ∀ l ∈ List.range 256, (natLE 4 ∘ fun l => getLE bs (4 * l) 4) l = (bs.drop (4 * l)).take 4 := fun l hl => by
    have hlen : ((bs.drop (4 * l)).take 4).length = 4 := by
      have := List.mem_range.1 hl
      rw [List.length_take, List.length_drop]
      omega
    have hback := natLE_leNat ((bs.drop (4 * l)).take 4)
    rwa [hlen] at hback
  rw [laneBytes, bytesLanes, List.map_map, List.map_congr_left hfour, flatten_fours,
    List.take_of_length_le (by omega)]

/-! ### Parts -/

/-- Every part of a register lies inside its 1,024 bytes. -/
theorem part_fits {k i : Nat} (hk : k ∈ [4, 6, 8, 16, 32]) (hi : i < partsOf k) : i * k * 32 + k * 32 ≤ 1024 := by
  simp only [List.mem_cons, List.not_mem_nil, or_false] at hk
  rcases hk with rfl | rfl | rfl | rfl | rfl <;> norm_num [partsOf] at hi <;> omega

section
variable {v es : List Nat} {k i : Nat} (hv : v.length = 256) (he : es.length = 256) (hk : k ∈ [4, 6, 8, 16, 32]) (hi : i < partsOf k)
include hv he hk hi

theorem laneBytes_setPart : laneBytes (setPart v k i es) = putAt (laneBytes v) (i * k * 32) (packElems k es) := by
  have hfit := part_fits hk hi
  have hbytes : (laneBytes v).length = 1024 := by rw [length_laneBytes, hv]
  refine laneBytes_bytesLanes ((length_putAt ?_).trans hbytes)
  rw [length_packElems he, hbytes]
  exact hfit

theorem partElems_setPart (hes : ∀ e ∈ es, e < 2 ^ k) : partElems (setPart v k i es) k i = es := by
  have hfit := part_fits hk hi
  have hpos : 0 < k := Nat.pos_of_ne_zero fun h => absurd (h ▸ hk) (by decide)
  have hpart : ((laneBytes (setPart v k i es)).drop (i * k * 32)).take (k * 32) = packElems k es := by
    rw [laneBytes_setPart hv he hk hi, ← length_packElems he]
    exact take_drop_putAt _ (by rw [length_laneBytes]; omega)
  rw [partElems, hpart]
  refine List.ext_getElem (by simp [he]) fun l hl hl' => ?_
  rw [List.getElem_map, List.getElem_range, packedGet_packElems hpos, List.getD_eq_getElem _ _ hl',
    Nat.mod_eq_of_lt (hes _ (List.getElem_mem hl'))]

theorem byteAt_setPart_outside {j : Nat} (hj : j < i * k * 32 ∨ (i + 1) * k * 32 ≤ j) :
    byteAt (laneBytes (setPart v k i es)) j = byteAt (laneBytes v) j := by
  have hfit := part_fits hk hi
  have hend : (i + 1) * k * 32 = i * k * 32 + k * 32 := by ring
  rw [laneBytes_setPart hv he hk hi, byteAt_putAt _ (by rw [length_laneBytes]; omega), length_packElems he, if_neg (by omega)]
end

/-! ### Scale bytes -/

/-- A byte of a register whose scale bytes are set: the scale in its slot, the byte before elsewhere. -/
theorem byteAt_setScales {v us : List Nat} {i : Nat} (hv : v.length = 256) (hu : us.length = 8) (hi : i < 128) (j : Nat) :
    byteAt (laneBytes (setScales v i us)) j =
      if i * 8 ≤ j ∧ j < i * 8 + 8 then us.getD (j - i * 8) 0 % 256 else byteAt (laneBytes v) j := by
  have hbytes : (laneBytes v).length = 1024 := by rw [length_laneBytes, hv]
  have hlen : (us.map (BitVec.ofNat 8)).length = 8 := by rw [List.length_map, hu]
  have hscale : ∀ n, byteAt (us.map (BitVec.ofNat 8)) n = us.getD n 0 % 256 := fun n => by
    rw [byteAt, show (0 : Byte) = BitVec.ofNat 8 0 from rfl, List.getD_map, BitVec.toNat_ofNat]
  rw [setScales, laneBytes_bytesLanes (by rw [length_putAt] <;> omega), byteAt_putAt _ (by omega), hlen, hscale]

/-! ### Registers and flags -/

theorem setVreg_vreg {y : ClusterSt} (h : cwf (List.replicate 256 0) y.vregs = true) (r k : Nat) (v : List Nat) :
    (y.setVreg r v).vreg k = if k = r then v else y.vreg k := cget_cset h r k v

/-- The five low bits of VSTAT, one per flag. -/
theorem testBit_flags (f : FpFlags) (k : Nat) :
    (b2n f.divzero * 16 + b2n f.invalid * 8 + b2n f.overflow * 4 + b2n f.underflow * 2 + b2n f.inexact).testBit k =
      ((k == 0 && f.inexact) || (k == 1 && f.underflow) || (k == 2 && f.overflow) || (k == 3 && f.invalid) || (k == 4 && f.divzero)) := by
  have hsmall : ∀ z i o u x : Bool, b2n z * 16 + b2n i * 8 + b2n o * 4 + b2n u * 2 + b2n x < 32 ∧ ∀ k < 5,
      (b2n z * 16 + b2n i * 8 + b2n o * 4 + b2n u * 2 + b2n x).testBit k =
        ((k == 0 && x) || (k == 1 && u) || (k == 2 && o) || (k == 3 && i) || (k == 4 && z)) := by decide
  obtain ⟨hlt, hbit⟩ := hsmall f.divzero f.invalid f.overflow f.underflow f.inexact
  by_cases hk : k < 5
  · exact hbit k hk
  · have hpow : 2 ^ 5 ≤ 2 ^ k := Nat.pow_le_pow_right (by omega) (by omega)
    rw [Nat.testBit_lt_two_pow (by omega)]
    simp [show k ≠ 0 by omega, show k ≠ 1 by omega, show k ≠ 2 by omega, show k ≠ 3 by omega, show k ≠ 4 by omega]

theorem bitOf_raise (y : ClusterSt) (f : FpFlags) (k : Nat) :
    bitOf (y.raise f).vstat k = (bitOf y.vstat k || (k == 0 && f.inexact) || (k == 1 && f.underflow) || (k == 2 && f.overflow)
      || (k == 3 && f.invalid) || (k == 4 && f.divzero)) := by
  refine (Nat.testBit_lor ..).trans ?_
  rw [testBit_flags]
  simp only [bitOf, Bool.or_assoc]

end Sys2Proof.Machine
end

section
/-! The issue of an instruction by a vector engine (R143, R150): what a program that is due to issue one leaves. -/
namespace Sys2Proof.Machine
open Sys2Proof

/-- The state the engine is left in by what an instruction with opcode `opc` does. -/
def State.afterAct (s : State) (d c : Nat) (p : VProg) (beats opc : Nat) : VAct → State
  | .go s1 next => s.afterIssue d c p beats next s1
  | .illegal => vectorFault d c p 1 opc s
  | .access => vectorFault d c p 2 opc s
  | .ue s1 => finishProg d c p 0x30 s s1
  | .stop => finishProg d c p 0 s (pmcCount d 2 (s.queuePart p.queue) 1 s)

variable {s : State} {d c opc beats w : Nat} {p : VProg}

/-- An engine due to issue a word with an allocated opcode does what the instruction says. -/
theorem vissue_of_issues (h : s.issues d c opc p w) (hb : vopBeats opc = some beats) (g : VProg → Nat → ClusterSt → VAct) :
    vissue d c opc s g = s.afterAct d c p beats opc (g p w (s.clus d c)) := by
  obtain ⟨hprog, hmax, hpc, hword, hopc⟩ := h
  have hrun : ¬ (p.maxBeats ≠ 0 ∧ p.maxBeats ≤ p.beats) := by omega
  simp only [vissue, hprog, if_neg hrun, if_neg (Nat.not_le.2 hpc), hword, hopc, hb, ne_eq, not_true_eq_false, if_false]
  cases g p w (s.clus d c) <;> rfl

/-- An instruction that only rewrites its cluster, behind a check of its form. -/
theorem vissue_checked (h : s.issues d c opc p w) (hb : vopBeats opc = some beats) {g : VProg → Nat → ClusterSt → VAct}
    {ok bad : Prop} [Decidable bad] {y : ClusterSt} (hform : bad ↔ ¬ ok)
    (hg : g p w (s.clus d c) = if bad then .illegal else vgo d c s y) :
    (ok → (.next (vissue d c opc s g) : Out) = s.ran d c p beats y)
    ∧ (¬ ok → (.next (vissue d c opc s g) : Out) = .next (vectorFault d c p 1 opc s)) := by
  rw [vissue_of_issues h hb, hg]
  refine ⟨fun hok => ?_, fun hbad => ?_⟩
  · rw [if_neg fun hbad => hform.1 hbad hok]; rfl
  · rw [if_pos (hform.2 hbad)]; rfl

end Sys2Proof.Machine
end

section
/-! CVT, CVT.MX and CVT.UNMX (R59 to R64): their legal forms, the context they draw from and the part they write. -/
namespace Sys2Proof.Machine
open Sys2Proof

/-! ### Legal forms -/

theorem cvtBad_iff (w sw dw : Nat) :
    cvtBad w sw dw = true ↔ ¬ (bitsOf w 33 31 ≤ 4 ∧ bitsOf w 29 27 < partsOf sw ∧ bitsOf w 26 24 < partsOf dw) := by
  simp only [cvtBad, rmValid, Bool.or_eq_true, Bool.not_eq_true', decide_eq_true_eq, decide_eq_false_iff_not]
  omega

theorem cvt_illegal_iff (w sf df : Nat) :
    (bitsOf w 20 0 ≠ 0 ∨ fmtWidth sf = 0 ∨ fmtWidth df = 0 ∨ isMx sf = true ∨ isMx df = true ∨ df = 8
        ∨ cvtBad w (fmtWidth sf) (fmtWidth df) = true)
      ↔ ¬ (bitsOf w 20 0 = 0 ∧ fmtWidth sf ≠ 0 ∧ fmtWidth df ≠ 0 ∧ isMx sf = false ∧ isMx df = false ∧ df ≠ 8
        ∧ bitsOf w 33 31 ≤ 4 ∧ bitsOf w 29 27 < partsOf (fmtWidth sf) ∧ bitsOf w 26 24 < partsOf (fmtWidth df)) := by
  rw [cvtBad_iff, ← Bool.not_eq_true, ← Bool.not_eq_true]
  tauto

theorem cvtMx_illegal_iff (w sf df : Nat) :
    (bitsOf w 7 0 ≠ 0 ∨ bitOf w 30 = true ∨ 2 < sf ∨ isMx df = false ∨ cvtBad w (fmtWidth sf) (fmtWidth df) = true)
      ↔ ¬ (bitsOf w 7 0 = 0 ∧ bitOf w 30 = false ∧ sf ≤ 2 ∧ isMx df = true
        ∧ bitsOf w 33 31 ≤ 4 ∧ bitsOf w 29 27 < partsOf (fmtWidth sf) ∧ bitsOf w 26 24 < partsOf (fmtWidth df)) := by
  rw [cvtBad_iff, ← Bool.not_eq_true, ← Bool.not_eq_true, ← Nat.not_le]
  tauto

theorem cvtUnmx_illegal_iff (w sf df : Nat) :
    (bitsOf w 7 0 ≠ 0 ∨ 2 < df ∨ isMx sf = false ∨ cvtBad w (fmtWidth sf) (fmtWidth df) = true)
      ↔ ¬ (bitsOf w 7 0 = 0 ∧ df ≤ 2 ∧ isMx sf = true
        ∧ bitsOf w 33 31 ≤ 4 ∧ bitsOf w 29 27 < partsOf (fmtWidth sf) ∧ bitsOf w 26 24 < partsOf (fmtWidth df)) := by
  rw [cvtBad_iff, ← Bool.not_eq_true, ← Nat.not_le]
  tauto

/-! ### The context of stochastic rounding (R61) -/

theorem cvtAdvance_rest (w : Nat) (y : ClusterSt) : { cvtAdvance w y with ctxs := y.ctxs } = y := by
  unfold cvtAdvance
  split <;> rfl

theorem cvtAdvance_of_ne {w : Nat} (h : bitsOf w 33 31 ≠ 4) (y : ClusterSt) : cvtAdvance w y = y := if_neg h

theorem cvtAdvance_ctx {w : Nat} {y : ClusterSt} (hy : cwf {} y.ctxs = true) (h : bitsOf w 33 31 = 4) (k : Nat) :
    (cvtAdvance w y).ctx k =
      if k = bitsOf w 23 21 then { y.ctx k with ibase := ((y.ctx k).ibase + 256) % 2 ^ 64 } else y.ctx k := by
  rw [cvtAdvance, if_pos h]
  refine (cget_cset hy (bitsOf w 23 21) k _).trans ?_
  split
  · subst k; rfl
  · rfl

/-! ### The statement -/

/-- Settles O11: each form is the check of its instruction, and the part and the scale bytes are writes into the bytes of VD and VSC. -/
theorem convertsRewriteOnePartOfARegister : Obligations.ConvertsRewriteOnePartOfARegister := fun _ _ _ _ w =>
  ⟨fun h => vissue_checked h rfl (cvt_illegal_iff w _ _) rfl,
    fun h => vissue_checked h rfl (cvtMx_illegal_iff w _ _) rfl,
    fun h => vissue_checked h rfl (cvtUnmx_illegal_iff w _ _) rfl,
    fun y hy => ⟨cvtAdvance_rest w y, fun h => cvtAdvance_of_ne h y, fun h => cvtAdvance_ctx hy h⟩,
    fun _ _ _ _ hv he hk hi =>
      ⟨length_bytesLanes _, partElems_setPart hv he hk hi, fun _ _ hj => byteAt_setPart_outside hv he hk hi hj⟩,
    fun _ _ _ hv hu hi => ⟨length_bytesLanes _, fun j _ => byteAt_setScales hv hu hi j⟩,
    fun y r v f hy => ⟨cwf_cset r v hy, fun k => setVreg_vreg hy r k v, rfl, rfl, fun k => bitOf_raise y f k⟩⟩

end Sys2Proof.Machine
end

section
/-! Arrays and drains: what reads as what after an update, in a state whose stores are canonical. -/
namespace Sys2Proof.Machine
open Sys2Proof

theorem arrays_of_canonical {s : State} (h : s.canonical = true) : cwf {} s.tile.arrays = true := by
  simp only [State.canonical, Bool.and_eq_true] at h
  tauto

theorem finals_of_canonical {s : State} (h : s.canonical = true) : cwf [] s.tile.finals = true := by
  simp only [State.canonical, Bool.and_eq_true] at h
  tauto

theorem setArray_array {s : State} (h : cwf {} s.tile.arrays = true) (d c a : Nat) (x : ArraySt) :
    (s.setArray d c a x).array d c a = x := (cget_cset h ..).trans (if_pos rfl)

theorem setArray_array_ne {s : State} (h : cwf {} s.tile.arrays = true) (d c : Nat) {a b : Nat} (x : ArraySt) (hb : b ≠ a) :
    (s.setArray d c a x).array d c b = s.array d c b := (cget_cset h ..).trans (if_neg (by omega))

theorem setFinals_finals {s : State} (h : cwf [] s.tile.finals = true) (d c : Nat) (x : List (Nat × Nat)) :
    (s.setFinals d c x).finals d c = x := (cget_cset h ..).trans (if_pos rfl)

end Sys2Proof.Machine
end

section
/-! Tile commands: how their blocks are dealt to the arrays of a cluster, and how they begin and end (R94 to R100, R103). -/
namespace Sys2Proof.Machine
open Sys2Proof

/-- A dispatched command that runs does what its meaning says. -/
theorem withFlight_of_runs {s : State} {q : Qn} {seq : Word64} {opc : Nat} {f : Flight} (h : s.runs q seq opc f)
    (g : Flight → State) : withFlight q seq.toNat opc s g = g f := by
  obtain ⟨htrip, hf, hopc, hmem⟩ := h
  simp [withFlight, htrip, hf, hopc, hmem]

/-! ### Dealing (R98) -/

/-- The `i`-th array of the mask of a command. -/
def TileRun.target (r : TileRun) (i : Nat) : Nat := (maskArrays (byteAt r.body 7)).getD i 0

/-- The passes that the `i`-th array of the mask is dealt. -/
def TileRun.share (r : TileRun) (i : Nat) : List PassId :=
  (dealBlocks (tBlocks r.body) (maskArrays (byteAt r.body 7)).length i).map (fun b => ⟨r.queue, r.seq, b⟩)

/-- One step of the deal. -/
def dealTo (r : TileRun) (c : Nat) (s : State) (i : Nat) : State :=
  s.setArray r.die c (r.target i) { s.array r.die c (r.target i) with chain := (s.array r.die c (r.target i)).chain ++ r.share i }

theorem dealCluster_eq (r : TileRun) (c : Nat) (s : State) :
    dealCluster r c s = (List.range (maskArrays (byteAt r.body 7)).length).foldl (dealTo r c) s := rfl

theorem target_inj {r : TileRun} {i j : Nat} (hi : i < (maskArrays (byteAt r.body 7)).length)
    (hj : j < (maskArrays (byteAt r.body 7)).length) (h : r.target i = r.target j) : i = j := by
  rw [TileRun.target, TileRun.target, List.getD_eq_getElem _ _ hi, List.getD_eq_getElem _ _ hj] at h
  exact (List.nodup_range.filter _).getElem_inj_iff.1 h

section
variable {r : TileRun} {c : Nat}

theorem dealTo_cwf {s : State} (h : cwf {} s.tile.arrays = true) (i : Nat) : cwf {} (dealTo r c s i).tile.arrays = true :=
  cwf_cset _ _ h

/-- Dealing to arrays of the mask leaves the others as they were. -/
theorem foldl_dealTo_other {a : Nat} (ks : List Nat) {s : State} (h : cwf {} s.tile.arrays = true)
    (ha : ∀ k ∈ ks, a ≠ r.target k) : (ks.foldl (dealTo r c) s).array r.die c a = s.array r.die c a := by
  induction ks generalizing s with
  | nil => rfl
  | cons k ks ih =>
    obtain ⟨hk, hks⟩ := List.forall_mem_cons.1 ha
    rw [List.foldl_cons, ih (dealTo_cwf h k) hks]
    exact setArray_array_ne h _ _ _ hk

/-- Each array of the mask that is dealt to gains its share once. -/
theorem foldl_dealTo_chain {i : Nat} (ks : List Nat) {s : State} (h : cwf {} s.tile.arrays = true) (hnd : ks.Nodup)
    (hlt : ∀ k ∈ ks, k < (maskArrays (byteAt r.body 7)).length) (hi : i ∈ ks) :
    ((ks.foldl (dealTo r c) s).array r.die c (r.target i)).chain = (s.array r.die c (r.target i)).chain ++ r.share i := by
  induction ks generalizing s with
  | nil => exact absurd hi List.not_mem_nil
  | cons k ks ih =>
    obtain ⟨hk, hnd⟩ := List.nodup_cons.1 hnd
    obtain ⟨hkl, hks⟩ := List.forall_mem_cons.1 hlt
    rw [List.foldl_cons]
    rcases List.mem_cons.1 hi with rfl | hi
    · have hrest : ∀ j ∈ ks, r.target i ≠ r.target j := fun j hj he => hk (target_inj hkl (hks j hj) he ▸ hj)
      rw [foldl_dealTo_other ks (dealTo_cwf h i) hrest]
      exact congrArg ArraySt.chain (setArray_array h _ _ _ _)
    · have hne : r.target i ≠ r.target k := fun he => hk (target_inj (hks i hi) hkl he ▸ hi)
      rw [ih (dealTo_cwf h k) hnd hks hi, dealTo, setArray_array_ne h _ _ _ hne]

end

theorem dealCluster_chain (r : TileRun) (c : Nat) {s : State} (h : s.canonical = true) {i : Nat}
    (hi : i < (maskArrays (byteAt r.body 7)).length) :
    ((dealCluster r c s).array r.die c (r.target i)).chain = (s.array r.die c (r.target i)).chain ++ r.share i := by
  rw [dealCluster_eq]
  exact foldl_dealTo_chain _ (arrays_of_canonical h) List.nodup_range (fun _ => List.mem_range.1) (List.mem_range.2 hi)

/-! ### The end of a tile command (R103) -/

theorem execTileComplete_of_drained {q : Qn} {seq : Word64} {s : State} {r : TileRun} (hr : s.tileRun q seq.toNat = some r)
    (hleft : r.left = 0) (hspill : ∀ c ∈ r.cls, ∀ x ∈ s.spills r.die c, ¬ (x.queue = r.queue ∧ x.seq = r.seq)) :
    exec (.tileComplete q seq) s = (dropTile q seq.toNat s).endsWith q seq 0 0 := by
  have hall : r.cls.all (fun c => (s.spills r.die c).all (fun x => !(x.queue == r.queue && x.seq == r.seq))) = true := by
    simpa [imp_iff_not_or] using hspill
  simp only [exec, execTileComplete, hr]
  rw [if_pos ⟨hleft, hall⟩]
  rfl

/-! ### The statement -/

/-- Settles O15: of a command that runs the checks decide in turn, and each array of the mask takes its share in one step of the deal. -/
theorem tilePassDealsItsBlocksToItsArrays : Obligations.TilePassDealsItsBlocksToItsArrays := by
  refine ⟨fun q seq s s0 s1 f ga gb tabs hrun hphase hahead => ?_, fun r c s i hs hi => dealCluster_chain r c hs hi,
    fun q seq s r hr hleft hspill => execTileComplete_of_drained hr hleft hspill⟩
  have hdue : ¬ (f.phase ≠ 0 ∨ tileAhead (s.queue q).die f.order s = true) := by simp [hphase, hahead]
  dsimp only
  simp only [exec, execTilePass, withFlight_of_runs hrun, if_neg hdue]
  refine ⟨fun hbad => ?_, fun hok hrange hstreams hcls htabs => ?_⟩
  · rw [if_pos hbad]; rfl
  · simp [hok, hrange, hstreams, hcls, htabs]

end Sys2Proof.Machine
end

section
/-! Arrays at work: load, start, beats, unload and spill (R91, R93, R101, R105 to R107, R140). -/
namespace Sys2Proof.Machine
open Sys2Proof

/-! ### Loads (R101, R105) -/

/-- The next pass of an array stands in its next bank with its initial windows. -/
def loaded (d c a : Nat) (x : ArraySt) (p : PassId) (rest : List PassId) (wins : List Window) (s : State) : State :=
  s.setArray d c a { x with chain := rest, nextBank := 1 - x.nextBank, passes := x.passes ++ [{ id := p, bank := x.nextBank, wins := wins }] }

/-- A free bank takes the pass: with empty windows, with the rows read from SRAM, or the load fails. -/
theorem exec_stationaryLoad {d : Die} {c : Cluster} {a : Fin 8} {s : State} {p : PassId} {rest : List PassId} {r : TileRun}
    (hr : s.tileRun p.queue p.seq = some r) (hchain : (s.array d c a).chain = p :: rest)
    (hfree : ∀ y ∈ (s.array d c a).passes, y.bank ≠ (s.array d c a).nextBank) :
    exec (.stationaryLoad d c a) s = .next (
      if tInit r.body = 0 then loaded d c a (s.array d c a) p rest (blockWindows r.body []) s
      else match loadRows r c p.block (s.queuePart p.queue) (blockRows r.body p.block) s with
        | (.inr rows, s1) => loaded d c a (s.array d c a) p rest (blockWindows r.body rows) s1
        | (.inl e, s1) => failTile r c e s1) := by
  have hany : (s.array d c a).passes.any (fun y => y.bank == (s.array d c a).nextBank) = false := by simpa using hfree
  simp only [exec, execStationaryLoad, hchain, hr, hany, Bool.false_eq_true, if_false]
  rfl

/-! ### Starts (R105, R108) -/

/-- The bank's pass has started. -/
def started (d c a bank : Nat) (s : State) : State :=
  s.setArray d c a { s.array d c a with
    passes := (s.array d c a).passes.map (fun o => if o.bank = bank then { o with started := true } else o) }

/-- What an array with an open gate does once it knows what its next pass finds for its first beat. -/
def startTaken (d c a : Nat) (r : TileRun) (x : Pass) (s : State) : BeatOperands → State
  | .missing => match endedStream r c x 0 s with
    | some e => failTile r c e s
    | none => if flushing (s.array d c a) then s else freeze d c a 0 s
  | .ue _ | .parity _ | .edges _ _ _ => started d c a x.bank (thaw d c a s)

theorem startTaken_of_present {d c a : Nat} {r : TileRun} {x : Pass} {s : State} {o : BeatOperands} (h : o ≠ .missing) :
    startTaken d c a r x s o = started d c a x.bank (thaw d c a s) := by
  cases o
  case missing => exact absurd rfl h
  all_goals rfl

/-- A pass without beats needs no operands. -/
theorem exec_passStart {d : Die} {c : Cluster} {a : Fin 8} {s : State} {x : Pass} {r : TileRun}
    (hr : s.tileRun x.id.queue x.id.seq = some r) (hnext : (s.array d c a).passes.find? (fun p => !p.started) = some x)
    (hidle : ∀ o ∈ (s.array d c a).passes, streaming s o = false) :
    exec (.passStart d c a) s = .next (
      if s.gateOpen d c a then
        if tT r.body = 0 then started d c a x.bank (thaw d c a s) else startTaken d c a r x s (readBeat r c x 0 s)
      else freeze d c a 2 s) := by
  have hany : (s.array d c a).passes.any (fun o => streaming s o) = false := by simpa using hidle
  simp only [exec, execPassStart, hnext, hr, hany]
  cases s.gateOpen d c a
  · rfl
  · by_cases ht : tT r.body = 0
    · rw [if_pos rfl, if_pos ht, ht]; rfl
    · rw [if_pos rfl, if_neg ht, beq_eq_false_iff_ne.2 ht]
      cases readBeat r c x 0 s <;> rfl

/-! ### Beats (R93, R107, R126) -/

/-- What an array with an open gate does once it knows what its streaming pass finds. -/
def beatTaken (d c a : Nat) (r : TileRun) (x : Pass) (s : State) : BeatOperands → State
  | .missing => match endedStream r c x x.t s with
    | some e => failTile r c e s
    | none => freeze d c a 0 s
  | .ue s1 => failTile r c 0x30 s1
  | .parity s1 => residueMismatch d c a 0 4 s1
  | .edges ea eb s1 => arrayBeat d c a (some x.bank) (ea, eb) s1

theorem exec_arrayBeat {d : Die} {c : Cluster} {a : Fin 8} {s : State} {x : Pass} {r : TileRun}
    (hr : s.tileRun x.id.queue x.id.seq = some r) (hx : (s.array d c a).passes.find? (streaming s) = some x) (hst : x.started = true)
    (hfin : x.final = false) :
    exec (.arrayBeat d c a) s = .next (if s.gateOpen d c a then beatTaken d c a r x s (readBeat r c x x.t s) else freeze d c a 2 s) := by
  have hall : (s.array d c a).passes.all (fun p => !p.started || p.final) = false := by
    simpa using ⟨x, List.mem_of_find?_eq_some hx, hst, hfin⟩
  simp only [exec, execArrayBeat, hall, hx, hr]
  cases s.gateOpen d c a
  · rfl
  · cases readBeat r c x x.t s <;> rfl

/-! ### Unloads (R106, R110, R140) -/

/-- What the drain leaves of a bank whose items it has handed on as far as they go. -/
def unloaded (d c a bank total : Nat) (r : TileRun) (x : Pass) : DrainEnd → State
  | .ue s1 => failTile r c 0x30 s1
  | .full left s1 => bankWaits d c a bank total left s1
  | .done s1 => bankDone d c a bank x s1

theorem exec_bankUnload {d : Die} {c : Cluster} {a : Fin 8} {s : State} {x : Pass} {r : TileRun} {bank : Nat} {fin : List (Nat × Nat)}
    (hr : s.tileRun x.id.queue x.id.seq = some r) (hfin : s.finals d c = (a.val, bank) :: fin)
    (hx : (s.array d c a).passes.find? (fun p => p.bank == bank) = some x) (hrep : (s.array d c a).drainRep = none)
    (hroom : ((s.spills d c).map (fun y => y.bytes.length)).sum ≤ 65472) (hok : drainFault (s.reduced d) r.body x = none) :
    exec (.bankUnload d c) s = .next (unloaded d c a bank (drainItems r c (s.reduced d) x).length r x
      (drainOut r c ((drainItems r c (s.reduced d) x).drop x.drained) s)) := by
  have hbusy : ((s.array d c a).drainRep.isSome || decide (65536 < s.spillBytes d c + 64)) = false := by
    rw [hrep]
    exact decide_eq_false (by rw [State.spillBytes]; omega)
  simp only [exec, execBankUnload, hfin, hx, hr, hbusy, hok, Bool.false_eq_true, if_false]
  cases drainOut r c ((drainItems r c (s.reduced d) x).drop x.drained) s <;> rfl

/-! ### Spills (R139, R140) -/

/-- What a write of a spilled row leaves. -/
def spilled (d c : Nat) (r : TileRun) (y : Spill) (rq : Req) (more : List Spill) (s : State) : Acc Unit → State
  | .ok _ s1 => s1.setSpills d c more
  | .fault k va s1 => failTile r c (if k = 2 then 0x20 else faultStatus k) (recordFault rq k va s1)
  | .wait m va _ => waitAtStack ⟨m, y.queue, y.seq, 1, va, some c⟩ s

theorem exec_spillWrite {d : Die} {c : Cluster} {s : State} {y : Spill} {more : List Spill} {f : Flight} {r : TileRun}
    (hy : s.spills d c = y :: more) (hf : s.flight y.queue y.seq = some f) (hr : s.tileRun y.queue y.seq = some r) :
    exec (.spillWrite d c) s = .next (spilled d c r y (s.req y.queue f 1) more s (vaWrite (s.req y.queue f 1) y.va y.bytes s)) := by
  simp only [exec, execSpillWrite, hy, hf, hr]
  cases vaWrite (s.req y.queue f 1) y.va y.bytes s <;> rfl

/-! ### The statement -/

/-- Settles O16: each command is cut at what it reads (rows, operands, room, a page), and the clauses are the cases of that read. -/
theorem arraysLoadStartBeatAndUnload : Obligations.ArraysLoadStartBeatAndUnload := by
  refine fun d c a s s1 p rest x r => ⟨fun hr hchain hfree => ?_, fun hr => ⟨fun hnext hidle => ?_, fun hx hst hfin => ?_,
    fun bank fin hfin hx hrep hroom hok => ?_⟩, fun y more f hy hf hr => ?_⟩
  · have hload := exec_stationaryLoad hr hchain hfree
    refine ⟨fun h0 => ?_, fun h0 rows hrows => ?_, fun h0 e hrows => ?_⟩
    · rw [hload, if_pos h0]; rfl
    · rw [hload, if_neg h0, hrows]; rfl
    · rw [hload, if_neg h0, hrows]
  · have hstart := exec_passStart hr hnext hidle
    refine ⟨fun hg => ?_, fun hg hpres => ?_, fun hg ht hmiss hend => ?_⟩
    · rw [hstart, hg]; rfl
    · rw [hstart, if_pos hg]
      split
      · rfl
      · rw [startTaken_of_present (hpres.resolve_left ‹_›)]; rfl
    · rw [hstart, if_pos hg, if_neg ht, hmiss, startTaken, hend]
  · have hbeat := exec_arrayBeat hr hx hst hfin
    refine ⟨fun hg => ?_, fun hg ea eb s2 hread => ?_, fun hg s2 hread => ?_, fun hg hread hend => ?_⟩
    · rw [hbeat, hg]; rfl
    · rw [hbeat, hg, hread]; rfl
    · rw [hbeat, hg, hread]; rfl
    · rw [hbeat, hg, hread, if_pos rfl, beatTaken, hend]
  · have hunload := exec_bankUnload hr hfin hx hrep hroom hok
    refine ⟨fun hout => ?_, fun left hout => ?_, fun hout => ?_⟩ <;> rw [hunload, hout] <;> rfl
  · have hspill := exec_spillWrite hy hf hr
    refine ⟨fun hw => ?_, fun va hw => ?_⟩ <;> rw [hspill, hw] <;> rfl

end Sys2Proof.Machine
end

section
/-! Residue events (R113 to R119): what begins a repeat and how it ends, and a state in which the statement about them fails. -/
namespace Sys2Proof.Machine
open Sys2Proof

/-! ### The partition of a queue -/

theorem queues_of_canonical {s : State} (h : s.canonical = true) : cwf {} s.host.queues = true := by
  simp only [State.canonical, Bool.and_eq_true] at h
  tauto

theorem setQueue_queue_of_cwf {s : State} (h : cwf {} s.host.queues = true) (q : Nat) (x : Queue) : (s.setQueue q x).queue q = x :=
  (cget_cset h ..).trans (if_pos rfl)

theorem queuePart_updFlight {s : State} (h : cwf {} s.host.queues = true) (q seq : Nat) (g : Flight → Flight) :
    (s.updFlight q seq g).queuePart q = s.queuePart q := by
  simp only [State.updFlight, State.queuePart, setQueue_queue_of_cwf h]

theorem queuePart_addHealth {e : HealthEntry} (he : e.kind ≠ 1) (q : Nat) (s : State) : (addHealth e s).queuePart q = s.queuePart q := by
  obtain ⟨-, -, hqueues, -⟩ := ((Keeps.refl (e := true) (w := []) s).addHealth fun _ => he).told rfl
  simp only [State.queuePart, State.queue, hqueues]

/-! ### Mismatches (R113 to R115) -/

section
variable {d c a : Nat} {s : State}

theorem beginRepeat_of_below {r : Repeat} (h : s.rfld (ZG_MXE_CTRL d) 15 12 = 0 ∨ (s.array d c a).trans < s.rfld (ZG_MXE_CTRL d) 15 12) :
    beginRepeat d c a r s = (discardBanks d c a s).setArray d c a { (discardBanks d c a s).array d c a with rep := some r } :=
  if_neg (by omega)

theorem discardBanks_cwf (h : cwf {} s.tile.arrays = true) : cwf {} (discardBanks d c a s).tile.arrays = true := cwf_cset _ _ h

theorem discardBanks_array (h : cwf {} s.tile.arrays = true) : (discardBanks d c a s).array d c a =
    { s.array d c a with chain := (s.array d c a).passes.map (·.id) ++ (s.array d c a).chain, passes := [],
                         nextBank := ((s.array d c a).passes.head?.map (·.bank)).getD (s.array d c a).nextBank } :=
  setArray_array (s := s.setFinals d c _) h _ _ _ _

theorem discardBanks_finals (h : cwf [] s.tile.finals = true) :
    (discardBanks d c a s).finals d c = (s.finals d c).filter (fun y => y.1 != a) := setFinals_finals h _ _ _

theorem residueMismatch_of_repeat {r : Repeat} {engine source : Nat} (hsrc : source ≠ 5) (hrep : (s.array d c a).rep = some r) :
    residueMismatch d c a engine source s = repeatMismatch d c a r s := by
  simp only [residueMismatch, if_neg hsrc, hrep]

theorem residueMismatch_of_passes {p : Pass} {ps : List Pass} {engine source : Nat} (hsrc : source ≠ 5)
    (hrep : (s.array d c a).rep = none) (hps : (s.array d c a).passes = p :: ps) :
    residueMismatch d c a engine source s = beginRepeat d c a { source := source, engine := engine, queue := p.id.queue, seq := p.id.seq,
                                                                left := (p :: ps).map (·.id) } s := by
  simp only [residueMismatch, if_neg hsrc, hrep, hps]

theorem residueMismatch_of_drain (engine : Nat) : residueMismatch d c a engine 5 s = drainMismatch d c a s := by
  simp only [residueMismatch, if_true]

theorem repeatMismatch_of_array {r : Repeat} (hS : r.onS = false) (hsrc : r.source ≠ 5) :
    repeatMismatch d c a r s = classPermanent d c a r s := by
  simp [repeatMismatch, hS, hsrc]

end

/-! ### The ends of repeats (R114 to R119) -/

section
variable {d : Die} {c : Cluster} {a : Fin 8} {s : State} {r : Repeat}

theorem transient_eq {d c a : Nat} (h : cwf {} s.host.queues = true) :
    transient d c a r s = classify 1 d c a r.source r.engine r.queue (s.queuePart r.queue)
      (s.updFlight r.queue r.seq fun f => { f with repeated := true }) := by
  rw [transient, queuePart_updFlight h]

theorem exec_repeatDone_repeat {mismatch : Bool} (hrep : (s.array d c a).rep = some r) (hend : r.endsBy mismatch = true) :
    exec (.repeatDone d c a mismatch) s = .next (if mismatch then repeatMismatch d c a r s
      else transient d c a r (s.setArray d c a { s.array d c a with rep := none, trans := (s.array d c a).trans + 1 })) := by
  simp only [exec, execRepeatDone, hrep, Option.filter_some, hend, if_true]

theorem exec_repeatDone_drain {mismatch : Bool} {bank : Nat} (hrep : (s.array d c a).rep = none)
    (hdrain : (s.array d c a).drainRep = some (bank, r)) :
    exec (.repeatDone d c a mismatch) s = .next (if mismatch then unrecovered d c a r s
      else transient d c a r (s.setArray d c a { s.array d c a with drainRep := none })) := by
  simp only [exec, execRepeatDone, hrep, Option.filter_none, hdrain]

theorem exec_substitutedRunDone_clean (hrep : (s.array d c a).rep = some r) (hS : r.onS = true) (hleft : r.left = []) :
    exec (.substitutedRunDone d c a false) s = .next (classify 2 d c a r.source r.engine r.queue (s.queuePart r.queue)
      (addHealth ⟨0, d, c * 8 + a, 0⟩ (s.setArray d c a { s.array d c a with rep := none, trans := 0 }))) := by
  simp only [exec, execSubstitutedRunDone, hrep, hS, hleft]
  exact congrArg (fun part => Host.Outcome.next (classify 2 d c a r.source r.engine r.queue part _))
    (queuePart_addHealth (e := ⟨0, d, c * 8 + a, 0⟩) Nat.zero_ne_one _ _)

end

/-! ### The statement -/

/-- What O17 says holds of every state in canonical form. -/
theorem residueEvents_of_canonical (d : Die) (c : Cluster) (a : Fin 8) {s : State} (hs : s.canonical = true) (r : Repeat) (p : Pass)
    (ps : List Pass) (engine : Fin 16) (source : Fin 6) :
    let x := s.array d c a
    (x.rep = none → source.val ≠ 5 → x.passes = p :: ps →
      (s.rfld (ZG_MXE_CTRL d) 15 12 = 0 ∨ x.trans < s.rfld (ZG_MXE_CTRL d) 15 12) →
      ∃ t, exec (.residueMismatch d c a engine source) s = .next t
        ∧ (t.array d c a).passes = [] ∧ (t.array d c a).chain = (p :: ps).map (·.id) ++ x.chain
        ∧ (t.array d c a).rep = some { source := source, engine := engine, queue := p.id.queue, seq := p.id.seq,
                                       left := (p :: ps).map (·.id) }
        ∧ t.finals d c = (s.finals d c).filter (fun y => y.1 != a.val))
    ∧ (x.drainRep = none → source.val = 5 → ∀ bank fin, s.finals d c = (a.val, bank) :: fin →
      x.passes.find? (fun p => p.bank == bank) = some p →
      exec (.residueMismatch d c a engine source) s = .next (s.setArray d c a { x with
        passes := x.passes.map (fun o => if o.bank = bank then { o with drained := 0 } else o),
        drainRep := some (bank, { source := 5, engine := 0, queue := p.id.queue, seq := p.id.seq, left := [] }) }))
    ∧ (x.rep = some r → r.onS = false → r.source ≠ 5 →
      (r.left = [] → ∃ t, exec (.repeatDone d c a false) s =
        .next (classify 1 d c a r.source r.engine r.queue (s.queuePart r.queue) t)
        ∧ t = (s.setArray d c a { x with rep := none, trans := x.trans + 1 }).updFlight r.queue r.seq
            (fun f => { f with repeated := true }))
      ∧ exec (.repeatDone d c a true) s = .next (classPermanent d c a r s)
      ∧ (source.val ≠ 5 → exec (.residueMismatch d c a engine source) s = .next (classPermanent d c a r s)))
    ∧ (∀ bank, x.rep = none → x.drainRep = some (bank, r) →
      (∃ t, exec (.repeatDone d c a false) s = .next (classify 1 d c a r.source r.engine r.queue (s.queuePart r.queue) t)
        ∧ t = (s.setArray d c a { x with drainRep := none }).updFlight r.queue r.seq (fun f => { f with repeated := true }))
      ∧ exec (.repeatDone d c a true) s = .next (unrecovered d c a r s)
      ∧ (source.val = 5 → exec (.residueMismatch d c a engine source) s = .next (unrecovered d c a r s)))
    ∧ (x.rep = some r → r.onS = true → r.left = [] →
      exec (.substitutedRunDone d c a false) s = .next (classify 2 d c a r.source r.engine r.queue (s.queuePart r.queue)
        (addHealth ⟨0, d, c * 8 + a, 0⟩ (s.setArray d c a { x with rep := none, trans := 0 })))) := by
  have harr := arrays_of_canonical hs
  have hmis : exec (.residueMismatch d c a engine source) s = .next (residueMismatch d c a engine source s) := rfl
  refine ⟨fun hrep hsrc hps hlim => ?_, fun hdr hsrc bank fin hfin hp => ?_, fun hrep hS hsrc => ⟨fun hleft => ?_, ?_, fun hsrc' => ?_⟩,
    fun bank hrep hdr => ⟨⟨_, ?_, rfl⟩, ?_, fun hsrc => ?_⟩, exec_substitutedRunDone_clean⟩
  · refine ⟨_, by rw [hmis, residueMismatch_of_passes hsrc hrep hps, beginRepeat_of_below hlim], ?_⟩
    rw [setArray_array (discardBanks_cwf harr), discardBanks_array harr, hps]
    exact ⟨rfl, rfl, rfl, discardBanks_finals (finals_of_canonical hs)⟩
  · rw [hmis, hsrc, residueMismatch_of_drain]
    simp only [drainMismatch, hdr, hfin, hp, if_true]
  · refine ⟨_, ?_, rfl⟩
    rw [exec_repeatDone_repeat hrep (by simp [Repeat.endsBy, hS, hleft])]
    exact congrArg Host.Outcome.next (transient_eq (s := s.setArray d c a _) (queues_of_canonical hs :))
  · rw [exec_repeatDone_repeat hrep (by simp [Repeat.endsBy, hS]), if_pos rfl, repeatMismatch_of_array hS hsrc]
  · rw [hmis, residueMismatch_of_repeat hsrc' hrep, repeatMismatch_of_array hS hsrc]
  · rw [exec_repeatDone_drain hrep hdr]
    exact congrArg Host.Outcome.next (transient_eq (s := s.setArray d c a _) (queues_of_canonical hs :))
  · rw [exec_repeatDone_drain hrep hdr, if_pos rfl]
  · rw [hmis, hsrc, residueMismatch_of_drain]
    simp only [drainMismatch, hdr]

/-- Queue 5 is listed twice, first as an unlisted queue reads: not canonical. Its repeat of array 0 has run to the end. -/
def strayQueue : State :=
  { State.reset with
    regs := [], host := { queues := [(5, {}), (5, { part := 1 })] },
    tile := { arrays := [(0, { rep := some { source := 0, engine := 0, queue := 5, seq := 1, left := [] } })] } }

/-- Events that the ring of a function has been given. -/
def eventsOf (f : Nat) : Out → Nat
  | .next t => (t.fn f).evAssigned
  | _ => 0

/-- Writing the flights of queue 5 drops its first entry, and the second names another partition. -/
theorem strayQueue_part : strayQueue.canonical = false ∧ strayQueue.queuePart 5 = some 0
    ∧ (strayQueue.updFlight 5 1 fun f => { f with repeated := true }).queuePart 5 = some 1 := by decide +kernel

/-- Refutes O17: the clauses of a clean repeat ask for no canonical state and name the partition of the queue before the command is marked.
Where the queue is listed twice the mark changes that partition, and the event goes to the ring of the other. In canonical form the
statement holds (`residueEvents_of_canonical`). -/
theorem not_residueEventsRepeatSubstituteOrFail : ¬ Obligations.ResidueEventsRepeatSubstituteOrFail := by
  intro h
  obtain ⟨-, -, hrepeat, -⟩ := h 0 0 0 strayQueue { source := 0, engine := 0, queue := 5, seq := 1, left := [] }
    { id := ⟨5, 1, 0⟩, bank := 0, wins := [] } [] 0 0
  obtain ⟨hclean, -⟩ := hrepeat rfl rfl (by decide)
  obtain ⟨t, hdone, rfl⟩ := hclean rfl
  exact absurd (congrArg (eventsOf 1) hdone) (by decide +kernel)

end Sys2Proof.Machine
end

section
/-! The register files of a vector engine (R141). -/
namespace Sys2Proof.Machine
open Sys2Proof

variable {x : ClusterSt}

@[simp] theorem xreg_zero (x : ClusterSt) : x.xreg 0 = 0 := rfl
@[simp] theorem mask_zero (x : ClusterSt) : x.mask 0 = 2 ^ 256 - 1 := rfl
@[simp] theorem setXreg_zero (x : ClusterSt) (v : Nat) : x.setXreg 0 v = x := rfl
@[simp] theorem setMask_zero (x : ClusterSt) (v : Nat) : x.setMask 0 v = x := rfl

theorem setXreg_of_ne {i : Nat} (hi : i ≠ 0) (v : Nat) : x.setXreg i v = { x with xregs := cset 0 x.xregs i (v % 2 ^ 64) } := if_neg hi
theorem setMask_of_ne {i : Nat} (hi : i ≠ 0) (v : Nat) : x.setMask i v = { x with masks := cset allLanes x.masks i v } := if_neg hi

theorem setXreg_cwf (h : cwf 0 x.xregs = true) (i v : Nat) : cwf 0 (x.setXreg i v).xregs = true := by
  unfold ClusterSt.setXreg
  split
  · exact h
  · exact cwf_cset _ _ h

theorem setMask_cwf (h : cwf allLanes x.masks = true) (i v : Nat) : cwf allLanes (x.setMask i v).masks = true := by
  unfold ClusterSt.setMask
  split
  · exact h
  · exact cwf_cset _ _ h

theorem setXreg_xreg (h : cwf 0 x.xregs = true) (i v r : Nat) :
    (x.setXreg i v).xreg r = if r = i ∧ r ≠ 0 then v % 2 ^ 64 else x.xreg r := by
  by_cases hi : i = 0
  · subst hi; rw [setXreg_zero, if_neg (by omega)]
  · by_cases hr : r = 0
    · subst hr; rw [if_neg (by omega)]; rfl
    · simp [setXreg_of_ne hi, ClusterSt.xreg, cget_cset h, hr]

theorem setMask_mask (h : cwf allLanes x.masks = true) (i v r : Nat) :
    (x.setMask i v).mask r = if r = i ∧ r ≠ 0 then v else x.mask r := by
  by_cases hi : i = 0
  · subst hi; rw [setMask_zero, if_neg (by omega)]
  · by_cases hr : r = 0
    · subst hr; rw [if_neg (by omega)]; rfl
    · simp [setMask_of_ne hi, ClusterSt.mask, cget_cset h, hr]

theorem setXreg_rest (x : ClusterSt) (i v : Nat) : { x.setXreg i v with xregs := x.xregs } = x := by
  unfold ClusterSt.setXreg
  split <;> rfl

@[simp] theorem setXreg_sram (x : ClusterSt) (i v : Nat) : (x.setXreg i v).sram = x.sram := by
  unfold ClusterSt.setXreg
  split <;> rfl
@[simp] theorem setXreg_vregs (x : ClusterSt) (i v : Nat) : (x.setXreg i v).vregs = x.vregs := by
  unfold ClusterSt.setXreg
  split <;> rfl

theorem setMask_rest (x : ClusterSt) (i v : Nat) : { x.setMask i v with masks := x.masks } = x := by
  unfold ClusterSt.setMask
  split <;> rfl

theorem setXreg_vstat (x : ClusterSt) (i v : Nat) : { x.setXreg i v with vstat := x.vstat } = x.setXreg i v := by
  unfold ClusterSt.setXreg
  split <;> rfl

@[simp] theorem raise_none (x : ClusterSt) : x.raise {} = x := by
  simp [ClusterSt.raise, b2n]

/-- Settles O7: both files are sparse memories behind a register that reads as a constant. -/
theorem scalarAndMaskRegistersReadBack : Obligations.ScalarAndMaskRegistersReadBack := fun x i v hx hm =>
  ⟨setXreg_cwf hx i v, setMask_cwf hm i v, setXreg_xreg hx i v, setMask_mask hm i v, xreg_zero x, mask_zero x,
    setXreg_zero x v, setMask_zero x v, setXreg_rest x i v, setMask_rest x i v⟩

end Sys2Proof.Machine
end

section
/-! Scalar instructions and program control (R143, R144): what one instruction, legal or not, does to the engine that issues it. -/
namespace Sys2Proof.Machine
open Sys2Proof

variable {s : State} {d c opc beats w : Nat} {p : VProg} {g : VProg → Nat → ClusterSt → VAct}

/-- An instruction that goes on from the state `s1` of its effect. -/
theorem vissue_go (h : s.issues d c opc p w) (hb : vopBeats opc = some beats) {s1 : State} {next : Option Nat}
    (hg : g p w (s.clus d c) = .go s1 next) : (.next (vissue d c opc s g) : Out) = .next (s.afterIssue d c p beats next s1) := by
  rw [vissue_of_issues h hb, hg]; rfl

/-- An instruction that only rewrites its cluster. -/
theorem vissue_ran (h : s.issues d c opc p w) (hb : vopBeats opc = some beats) {y : ClusterSt}
    (hg : g p w (s.clus d c) = vgo d c s y) : (.next (vissue d c opc s g) : Out) = s.ran d c p beats y := vissue_go h hb hg

/-- An illegal instruction. -/
theorem vissue_illegal (h : s.issues d c opc p w) (hb : vopBeats opc = some beats) (hg : g p w (s.clus d c) = .illegal) :
    (.next (vissue d c opc s g) : Out) = .next (vectorFault d c p 1 opc s) := by
  rw [vissue_of_issues h hb, hg]; rfl

/-- An instruction that ends its program. -/
theorem vissue_stop (h : s.issues d c opc p w) (hb : vopBeats opc = some beats) (hg : g p w (s.clus d c) = .stop) :
    (.next (vissue d c opc s g) : Out) = .next (finishProg d c p 0 s (pmcCount d 2 (s.queuePart p.queue) 1 s)) := by
  rw [vissue_of_issues h hb, hg]; rfl

/-- The scalar register that takes a computed value. -/
theorem vgo_setXreg {xd v v' : Nat} (h : v = v') :
    vgo d c s ((s.clus d c).setXreg xd v) = vgo d c s ((s.clus d c).setXreg xd v') := by rw [h]

/-- Settles O6: each instruction rewrites X[XD] alone; the shifts take the branch of their count and source. -/
theorem scalarInstructionsWriteOneRegister : Obligations.ScalarInstructionsWriteOneRegister := fun d c s _ _ xd xa xb _ _ =>
  ⟨fun h => vissue_ran h rfl rfl, fun h => vissue_ran h rfl rfl, fun h => vissue_ran h rfl rfl, fun h => vissue_ran h rfl rfl,
    fun h hn => vissue_ran h rfl (vgo_setXreg (if_pos hn)),
    fun h hn => vissue_ran h rfl (vgo_setXreg (if_neg (Nat.not_lt.2 hn))),
    fun h hn ha => vissue_ran h rfl (vgo_setXreg (if_pos (.inr ⟨hn, ha⟩))),
    fun h hn => vissue_ran h rfl (vgo_setXreg ((if_pos (.inl hn)).trans (by rw [hn, Nat.pow_zero, Nat.div_one]))),
    fun h hn => vissue_ran h rfl (vgo_setXreg (if_neg (by omega))),
    fun h => vissue_ran h rfl rfl⟩

end Sys2Proof.Machine
end

section
/-! Lane instructions and compares (R145, R147): the lanes of the mask, the flags they join and the mask they write. -/
namespace Sys2Proof.Machine
open Sys2Proof

/-! ### Lanes and their flags -/

theorem getD_map_range {α : Type} (f : Nat → α) (a : α) {n l : Nat} (h : l < n) : ((List.range n).map f).getD l a = f l := by
  simp [h]

/-- The flags of a list of results are those that some result raises. -/
theorem foldl_flags {α : Type} : ∀ (rs : List (α × FpFlags)) (a : FpFlags), rs.foldl (fun a r => a.or r.2) a =
    ⟨a.invalid || rs.any (·.2.invalid), a.overflow || rs.any (·.2.overflow), a.underflow || rs.any (·.2.underflow),
      a.inexact || rs.any (·.2.inexact), a.divzero || rs.any (·.2.divzero)⟩
  | [], a => by simp
  | r :: rs, a => by rw [List.foldl_cons, foldl_flags rs]; simp [FpFlags.or, Bool.or_assoc]

/-- A lane outside the mask raises nothing. -/
theorem any_masked {α : Type} {h : FpFlags → Bool} (h0 : h {} = false) (m : Nat) (f : Nat → α × FpFlags) (keep : Nat → α)
    (ls : List Nat) :
    (ls.map fun l => if bitOf m l then f l else (keep l, {})).any (fun r => h r.2) = ls.any fun l => bitOf m l && h (f l).2 := by
  rw [List.any_map]
  congr 1
  funext l
  cases hm : bitOf m l <;> simp [hm, h0]

/-! ### Lane instructions -/

theorem vlanes_illegal_iff (n : Nat) (np nc : Bool) (w : Nat) :
    (bitsOf w 26 0 ≠ 0 ∨ (n < 3 ∧ (vfields w).vc ≠ 0) ∨ (n < 2 ∧ (vfields w).vb ≠ 0) ∨ (!np && (vfields w).negP) = true
        ∨ (!nc && (vfields w).negC) = true) ↔ ¬ formOk n np nc w := by
  simp only [formOk, Bool.and_eq_true, Bool.not_eq_true', ← Bool.not_eq_true]
  tauto

/-- An instruction that is an operation on each lane. -/
theorem laneInstr_of_exec {i : Die → Cluster → Instr} {opc beats n : Nat} {np nc : Bool}
    {g : State → Die → Vf → Nat → Nat → Nat → Nat × FpFlags} (hb : vopBeats opc = some beats)
    (hexec : ∀ d c s, exec (i d c) s = .next (vissue d c opc s fun _ w x => vlanes d c n np nc s w x (g s d))) :
    LaneInstr i opc beats n np nc g := by
  intro d c s p w h
  obtain ⟨hlegal, hillegal⟩ := vissue_checked h hb (vlanes_illegal_iff n np nc w)
    (g := fun _ w x => vlanes d c n np nc s w x (g s d)) rfl
  refine ⟨fun hok => ⟨_, _, (hexec d c s).trans (hlegal hok), by simp, fun l hl => ?_, ?_⟩,
    fun hbad => (hexec d c s).trans (hillegal hbad)⟩
  · rw [List.map_map, getD_map_range _ _ hl]
    simp only [Function.comp_apply, laneOf]
    split <;> rfl
  · rw [foldl_flags]
    simp only [any_masked (h := FpFlags.invalid) rfl, any_masked (h := FpFlags.overflow) rfl, any_masked (h := FpFlags.underflow) rfl,
      any_masked (h := FpFlags.inexact) rfl, any_masked (h := FpFlags.divzero) rfl, Bool.false_or]
    rfl

/-- Settles O8: each instruction is its lane operation behind the check of the three-source form. -/
theorem laneInstructionsWriteTheLanesOfTheirMask : Obligations.LaneInstructionsWriteTheLanesOfTheirMask :=
  ⟨laneInstr_of_exec rfl fun _ _ _ => rfl, laneInstr_of_exec rfl fun _ _ _ => rfl, laneInstr_of_exec rfl fun _ _ _ => rfl,
    laneInstr_of_exec rfl fun _ _ _ => rfl, laneInstr_of_exec rfl fun _ _ _ => rfl, laneInstr_of_exec rfl fun _ _ _ => rfl,
    laneInstr_of_exec rfl fun _ _ _ => rfl,
    laneInstr_of_exec rfl fun _ _ _ => rfl, laneInstr_of_exec rfl fun _ _ _ => rfl, laneInstr_of_exec rfl fun _ _ _ => rfl,
    laneInstr_of_exec rfl fun _ _ _ => rfl, laneInstr_of_exec rfl fun _ _ _ => rfl, laneInstr_of_exec rfl fun _ _ _ => rfl,
    laneInstr_of_exec rfl fun _ _ _ => rfl, laneInstr_of_exec rfl fun _ _ _ => rfl, laneInstr_of_exec rfl fun _ _ _ => rfl,
    laneInstr_of_exec rfl fun _ _ _ => rfl,
    laneInstr_of_exec rfl fun _ _ _ => rfl, laneInstr_of_exec rfl fun _ _ _ => rfl, laneInstr_of_exec rfl fun _ _ _ => rfl,
    laneInstr_of_exec rfl fun _ _ _ => rfl⟩

/-! ### INT32 (R147) -/

/-- A lane instruction on two sources that raises no flag leaves VSTAT. -/
theorem intLanes {i : Die → Cluster → Instr} {opc : Nat} {r : Nat → Nat → Nat} (hb : vopBeats opc = some 1)
    (hexec : ∀ d c s, exec (i d c) s =
      .next (vissue d c opc s fun _ w x => vlanes d c 2 false false s w x fun _ a b _ => (intOp opc a b, {})))
    (hr : ∀ a b, intOp opc a b = r a b) {d : Die} {c : Cluster} {s : State} {p : VProg} {w : Nat} (hf : formOk 2 false false w)
    (h : s.issues d c opc p w) : ∃ v : List Nat, exec (i d c) s = s.ran d c p 1 ((s.clus d c).setVreg (vfields w).vd v)
      ∧ ∀ l < 256, v.getD l 0 =
        if bitOf ((s.clus d c).mask (vfields w).msk) l then
          r (((s.clus d c).vreg (vfields w).va).getD l 0) (((s.clus d c).vreg (vfields w).vb).getD l 0)
        else ((s.clus d c).vreg (vfields w).vd).getD l 0 := by
  obtain ⟨v, fl, hexec, -, hlane, rfl⟩ :=
    (laneInstr_of_exec hb hexec (g := fun _ _ _ a b _ => (intOp opc a b, {})) d c s p w h).1 hf
  refine ⟨v, hexec.trans ?_, fun l hl => (hlane l hl).trans ?_⟩
  · simp only [someLane, laneOf, Bool.and_false, List.any_eq_false.2 fun _ _ => Bool.false_ne_true, raise_none]
  · simp only [laneOf, hr]

theorem sext_emod (a : Nat) : sext 32 a % 2 ^ 32 = (a : Int) % 2 ^ 32 := by
  rw [sext, BitVec.toInt_ofNat']
  exact Int.bmod_emod

theorem intOp_add (a b : Nat) : intOp 0x30 a b = (((a : Int) + b) % 2 ^ 32).toNat := by
  show wrapInt 32 (sext 32 a + sext 32 b) = _
  rw [wrapInt, Int.add_emod, sext_emod, sext_emod, ← Int.add_emod]

theorem intOp_sub (a b : Nat) : intOp 0x31 a b = (((a : Int) - b) % 2 ^ 32).toNat := by
  show wrapInt 32 (sext 32 a - sext 32 b) = _
  rw [wrapInt, Int.sub_emod, sext_emod, sext_emod, ← Int.sub_emod]

theorem intOp_mul (a b : Nat) : intOp 0x32 a b = (((a : Int) * b) % 2 ^ 32).toNat := by
  show wrapInt 32 (sext 32 a * sext 32 b) = _
  rw [wrapInt, Int.mul_emod, sext_emod, sext_emod, ← Int.mul_emod]

theorem intOp_shl (a b : Nat) : intOp 0x33 a b = (((a : Int) * 2 ^ (b % 32)) % 2 ^ 32).toNat := by
  show a * 2 ^ (b % 32) % 2 ^ 32 = _
  rw [← Int.toNat_natCast (a * 2 ^ (b % 32) % 2 ^ 32)]
  push_cast
  rfl

theorem intOp_shr (a b : Nat) : intOp 0x34 a b = (((BitVec.ofNat 32 a).toInt / 2 ^ (b % 32)) % 2 ^ 32).toNat := by
  show wrapInt 32 (sext 32 a / (2 ^ (b % 32) : Nat)) = _
  rw [Nat.cast_pow]
  rfl

theorem intOp_min (a b : Nat) :
    intOp 0x38 a b = (min (BitVec.ofNat 32 a).toInt (BitVec.ofNat 32 b).toInt % 2 ^ 32).toNat := rfl
theorem intOp_max (a b : Nat) :
    intOp 0x39 a b = (max (BitVec.ofNat 32 a).toInt (BitVec.ofNat 32 b).toInt % 2 ^ 32).toNat := rfl
theorem intOp_and (a b : Nat) : intOp 0x35 a b = Nat.land a b := rfl
theorem intOp_or (a b : Nat) : intOp 0x36 a b = Nat.lor a b := rfl
theorem intOp_xor (a b : Nat) : intOp 0x37 a b = Nat.xor a b := rfl

/-- Settles O9: the lanes of O8, whose INT32 operations raise no flag and are those of R147. -/
theorem int32InstructionsWrapAndSetNoFlags : Obligations.Int32InstructionsWrapAndSetNoFlags := fun _ _ _ _ _ hf =>
  ⟨intLanes rfl (fun _ _ _ => rfl) intOp_add hf, intLanes rfl (fun _ _ _ => rfl) intOp_sub hf,
    intLanes rfl (fun _ _ _ => rfl) intOp_mul hf, intLanes rfl (fun _ _ _ => rfl) intOp_shl hf,
    intLanes rfl (fun _ _ _ => rfl) intOp_shr hf, intLanes rfl (fun _ _ _ => rfl) intOp_min hf,
    intLanes rfl (fun _ _ _ => rfl) intOp_max hf, intLanes rfl (fun _ _ _ => rfl) intOp_and hf,
    intLanes rfl (fun _ _ _ => rfl) intOp_or hf, intLanes rfl (fun _ _ _ => rfl) intOp_xor hf⟩

/-! ### Compares -/

/-- The number whose bits below `n` are those of `b`, as a compare gathers them. -/
def gatherBits (b : Nat → Bool) (n : Nat) : Nat := (List.range n).foldl (fun v l => if b l then v + 2 ^ l else v) 0

theorem gatherBits_succ (b : Nat → Bool) (n : Nat) : gatherBits b (n + 1) = gatherBits b n + b2n (b n) * 2 ^ n := by
  rw [gatherBits, List.range_succ, List.foldl_append]
  cases hb : b n <;> simp [gatherBits, hb, b2n]

theorem gatherBits_lt (b : Nat → Bool) : ∀ n : Nat, gatherBits b n < 2 ^ n
  | 0 => Nat.one_pos
  | n + 1 => by
    have ih := gatherBits_lt b n
    rw [gatherBits_succ]
    cases b n <;> simp only [b2n, if_true, Bool.false_eq_true, if_false] <;> omega

theorem testBit_gatherBits (b : Nat → Bool) (l : Nat) : ∀ n : Nat, (gatherBits b n).testBit l = (decide (l < n) && b l)
  | 0 => by simp [gatherBits]
  | n + 1 => by
    rw [gatherBits_succ, Nat.add_comm, Nat.mul_comm, Nat.two_pow_add_eq_or_of_lt (gatherBits_lt b n), Nat.testBit_or,
      testBit_gatherBits b l n]
    rcases Nat.lt_trichotomy l n with hl | rfl | hl
    · cases b n <;> simp [b2n, hl, Nat.lt_succ_of_lt hl, Nat.ne_of_gt hl]
    · cases b l <;> simp [b2n]
    · cases b n <;> simp [b2n, Nat.not_lt.2 (Nat.le_of_lt hl), Nat.not_lt.2 (Nat.succ_le_of_lt hl), Nat.ne_of_lt hl]

/-- Lane `l` of a compare: its bit and its flags in a lane of the mask, the bit that stands elsewhere. -/
def compareLane (g : Nat → Nat → Nat → Bool × FpFlags) (x : ClusterSt) (w l : Nat) : Bool × FpFlags :=
  if bitOf (x.mask (vfields w).msk) l then
    g (vfields w).vc ((x.vreg (vfields w).va).getD l 0) ((x.vreg (vfields w).vb).getD l 0)
  else (bitOf (x.mask (bitsOf w 52 50)) l, {})

/-- A compare in its legal form. -/
theorem vcompare_of_legal {d c most w : Nat} {s : State} {x : ClusterSt} {g : Nat → Nat → Nat → Bool × FpFlags}
    (hrsv : bitsOf w 26 0 = 0) (hvd : bitsOf w 55 53 = 0) (hpred : (vfields w).vc ≤ most) (hp : (vfields w).negP = false)
    (hc : (vfields w).negC = false) :
    vcompare d c most s w x g = vgo d c s ((x.setMask (bitsOf w 52 50)
        (gatherBits (fun l => (((List.range 256).map (compareLane g x w)).getD l (false, {})).1) 256)).raise
      (((List.range 256).map (compareLane g x w)).foldl (fun a r => a.or r.2) {})) :=
  if_neg (by simp [hrsv, hvd, hp, hc, hpred])

/-- An instruction that is a compare. -/
theorem compareInstr_of_exec {i : Die → Cluster → Instr} {opc most : Nat} {g : State → Die → Nat → Nat → Nat → Bool × FpFlags}
    (hb : vopBeats opc = some 1)
    (hexec : ∀ d c s, exec (i d c) s = .next (vissue d c opc s fun _ w x => vcompare d c most s w x (g s d))) :
    CompareInstr i opc most g := by
  intro d c s p w h hrsv hvd hpred hp hc
  refine ⟨_, _, (hexec d c s).trans (vissue_ran h hb (vcompare_of_legal hrsv hvd hpred hp hc)), gatherBits_lt _ _, fun l hl => ?_, ?_⟩
  · rw [bitOf, testBit_gatherBits, getD_map_range _ _ hl, decide_eq_true hl, Bool.true_and, compareLane]
    split <;> rfl
  · unfold compareLane
    simp only [foldl_flags, any_masked (h := FpFlags.invalid) rfl]
    simp

/-- Settles O10: both are compares with their own order. -/
theorem compareInstructionsWriteAMask : Obligations.CompareInstructionsWriteAMask :=
  ⟨compareInstr_of_exec rfl fun _ _ _ => rfl, compareInstr_of_exec rfl fun _ _ _ => rfl⟩

end Sys2Proof.Machine
end

section
/-! VLD, VST and SRLD (R144, R402): the checks before an access of SRAM. -/
namespace Sys2Proof.Machine
open Sys2Proof

/-- An instruction that accesses SRAM: illegal forms first, then the bound of its window. -/
theorem access_checked {s : State} {d c opc beats : Nat} {p : VProg} {ok bad : Prop} [Decidable bad] (hform : bad ↔ ¬ ok)
    {size last : Nat} {act : VAct} {out : Out}
    (hout : out = .next (s.afterAct d c p beats opc (if bad then .illegal else if size < last then .access else act))) :
    (ok → last ≤ size → out = .next (s.afterAct d c p beats opc act))
    ∧ (ok → size < last → out = .next (vectorFault d c p 2 opc s))
    ∧ (¬ ok → out = .next (vectorFault d c p 1 opc s)) := by
  subst hout
  refine ⟨fun hok hin => ?_, fun hok hpast => ?_, fun hbad => ?_⟩
  · rw [if_neg fun hbad => hform.1 hbad hok, if_neg (Nat.not_lt.2 hin)]
  · rw [if_neg fun hbad => hform.1 hbad hok, if_pos hpast]; rfl
  · rw [if_pos (hform.2 hbad)]; rfl

theorem vmem_illegal_iff (w a : Nat) : (vmemBad w = true ∨ a % 64 ≠ 0) ↔
    ¬ (bitsOf w 17 0 = 0 ∧ 1 ≤ bitsOf w 26 22 ∧ bitsOf w 26 22 ≤ 16 ∧ bitsOf w 21 18 + bitsOf w 26 22 ≤ 16 ∧ a % 64 = 0) := by
  simp only [vmemBad, Bool.or_eq_true, bne_iff_ne, beq_iff_eq, decide_eq_true_eq]
  omega

theorem srld_illegal_iff (w a : Nat) : (bitsOf w 52 50 ≠ 0 ∨ bitsOf w 26 0 ≠ 0 ∨ a % 64 ≠ 0) ↔
    ¬ (bitsOf w 52 50 = 0 ∧ bitsOf w 26 0 = 0 ∧ a % 64 = 0) := by omega

/-- VLD within its window does what its read of SRAM allows. -/
def vldAct (d c w : Nat) : Option (List Byte) × State → VAct
  | (none, s) => .ue s
  | (some bs, s) =>
    .go (s.updClus d c fun x => x.setVreg (bitsOf w 55 50)
      (bytesLanes (putAt (laneBytes (x.vreg (bitsOf w 55 50))) (bitsOf w 21 18 * 64) bs))) none

/-- The stochastic-rounding context in a record of SRAM, for the cluster with number `k` in its command (R402). -/
def recordCtx (k : Nat) (r : List Byte) : SrCtx :=
  { seed := getLE r 0 4, job := getLE r 4 4, mbatch := getLE r 8 4, layer := getLE r 12 2, site := byteAt r 14, purpose := byteAt r 15,
    ibase := (getLE r 16 8 + k * getLE r 24 8) % 2 ^ 64 }

/-- SRLD within its window. -/
def srldAct (d c w : Nat) (p : VProg) : Option (List Byte) × State → VAct
  | (none, s) => .ue s
  | (some r, s) =>
    if ctxRecordBad r then .illegal
    else .go (s.updClus d c fun x => { x with ctxs := cset {} x.ctxs (bitsOf w 55 53) (recordCtx (p.cls.idxOf c) r) }) none

section
variable {d : Die} {c : Cluster} {s : State} {p : VProg} {w : Nat}

theorem vaddr_eq (x : ClusterSt) (w : Nat) : vaddr x w = (x.xreg (bitsOf w 49 45) + bitsOf w 44 27 * 64) % 2 ^ 64 := rfl

theorem exec_vld (h : s.issues d c 0x50 p w) : exec (.vld d c) s = .next (s.afterAct d c p 1 0x50
    (if vmemBad w = true ∨ vaddr (s.clus d c) w % 64 ≠ 0 then .illegal
      else if (s.sramWindow p.queue p.seq d).2 < vaddr (s.clus d c) w + bitsOf w 26 22 * 64 then .access
      else vldAct d c w (sramRead d c ((s.sramWindow p.queue p.seq d).1 + vaddr (s.clus d c) w) (bitsOf w 26 22 * 64) 3
        (s.queuePart p.queue) s))) :=
  congrArg Host.Outcome.next (vissue_of_issues h rfl _)

theorem exec_vst (h : s.issues d c 0x51 p w) : exec (.vst d c) s = .next (s.afterAct d c p 1 0x51
    (if vmemBad w = true ∨ vaddr (s.clus d c) w % 64 ≠ 0 then .illegal
      else if (s.sramWindow p.queue p.seq d).2 < vaddr (s.clus d c) w + bitsOf w 26 22 * 64 then .access
      else .go (sramPut d c ((s.sramWindow p.queue p.seq d).1 + vaddr (s.clus d c) w)
        (((laneBytes ((s.clus d c).vreg (bitsOf w 55 50))).drop (bitsOf w 21 18 * 64)).take (bitsOf w 26 22 * 64)) s) none)) :=
  congrArg Host.Outcome.next (vissue_of_issues h rfl _)

theorem exec_srld (h : s.issues d c 0x48 p w) : exec (.srld d c) s = .next (s.afterAct d c p 1 0x48
    (if bitsOf w 52 50 ≠ 0 ∨ bitsOf w 26 0 ≠ 0 ∨ vaddr (s.clus d c) w % 64 ≠ 0 then .illegal
      else if (s.sramWindow p.queue p.seq d).2 < vaddr (s.clus d c) w + 64 then .access
      else srldAct d c w p (sramRead d c ((s.sramWindow p.queue p.seq d).1 + vaddr (s.clus d c) w) 64 3 (s.queuePart p.queue) s))) :=
  congrArg Host.Outcome.next (vissue_of_issues h rfl _)

end

/-- Settles O12: each instruction is its checks and then its access; VSPLAT's word is its operand (log entry 56). -/
theorem vectorLoadsAndStoresMoveLinesOfSram : Obligations.VectorLoadsAndStoresMoveLinesOfSram := by
  intro d c s p w
  refine ⟨fun h => ?_, fun h => (access_checked (vmem_illegal_iff w _) (exec_vst h) :), fun h => ?_, fun h _ _ => vissue_ran h rfl rfl⟩
  · obtain ⟨hin, hrest⟩ := access_checked (vmem_illegal_iff w _) (exec_vld h)
    refine ⟨fun hok hfit bs s1 hread => ?_, fun hok hfit s1 hread => ?_, hrest⟩
    · rw [hin hok hfit, vaddr_eq, hread]; rfl
    · rw [hin hok hfit, vaddr_eq, hread]; rfl
  · obtain ⟨hin, hrest⟩ := access_checked (srld_illegal_iff w _) (exec_srld h)
    refine ⟨fun hok hfit r s1 hread => ⟨fun hgood => ?_, fun hwrong => ?_⟩, fun hok hfit s1 hread => ?_, hrest⟩
    · rw [hin hok hfit, vaddr_eq, hread, srldAct, hgood]; rfl
    · rw [hin hok hfit, vaddr_eq, hread, srldAct, hwrong]; rfl
    · rw [hin hok hfit, vaddr_eq, hread]; rfl

end Sys2Proof.Machine
end

section
/-! Cross-lane instructions, VSTAT and program control (R143, R144, R148, R149). -/
namespace Sys2Proof.Machine
open Sys2Proof

theorem vred_illegal_iff (w : Nat) : (bitsOf w 43 32 ≠ 0 ∨ bitsOf w 25 0 ≠ 0 ∨ 5 < bitsOf w 28 26) ↔
    ¬ (bitsOf w 43 32 = 0 ∧ bitsOf w 25 0 = 0 ∧ bitsOf w 28 26 ≤ 5) := by omega

/-- VRED in its legal form: the result of the tree to lane 0 of VD, its flags to VSTAT. -/
def vredAct (d c w : Nat) (s : State) (x : ClusterSt) : Nat × FpFlags → VAct
  | (r, fl) => vgo d c s ((x.setVreg (bitsOf w 55 50) ((x.vreg (bitsOf w 55 50)).set 0 r)).raise fl)

theorem vredAct_eq (d c w : Nat) (s : State) (x : ClusterSt) (r : Nat × FpFlags) : vredAct d c w s x r =
    vgo d c s ((x.setVreg (bitsOf w 55 50) ((x.vreg (bitsOf w 55 50)).set 0 r.1)).raise r.2) := rfl

theorem exec_vred {d : Die} {c : Cluster} {s : State} {p : VProg} {w : Nat} (h : s.issues d c 0x60 p w) :
    exec (.vred d c) s = .next (s.afterAct d c p 8 0x60
      (if bitsOf w 43 32 ≠ 0 ∨ bitsOf w 25 0 ≠ 0 ∨ 5 < bitsOf w 28 26 then .illegal
        else vredAct d c w s (s.clus d c) (redTree (s.reduced d) (bitsOf w 28 26) 8 ((List.range 256).map fun l =>
          if bitOf ((s.clus d c).mask (bitsOf w 31 29)) l then ((s.clus d c).vreg (bitsOf w 49 44)).getD l 0
          else redNeutral (bitsOf w 28 26)) {}))) :=
  congrArg Host.Outcome.next (vissue_of_issues h rfl _)

/-- The lanes of a register rotated down by `k`. -/
def rotated (v : List Nat) (k : Nat) : List Nat := (List.range 256).map fun l => v.getD ((l + k) % 256) 0

theorem rotated_getD (v : List Nat) (k : Nat) {l : Nat} (hl : l < 256) : (rotated v k).getD l 0 = v.getD ((l + k) % 256) 0 :=
  getD_map_range _ _ hl

/-- Settles O13: the tree of VRED, the two directions a rotation may take, and VSTAT's copy of the flags. -/
theorem crossLaneInstructionsAndVstatComplete : Obligations.CrossLaneInstructionsAndVstatComplete := by
  intro d c s p w
  refine ⟨fun h => ?_, fun h vd va xb => ?_, fun h => ?_⟩
  · rw [exec_vred h]
    refine ⟨fun hok => ?_, fun hbad => ?_⟩
    · rw [if_neg fun hbad => (vred_illegal_iff w).1 hbad hok, vredAct_eq]; rfl
    · rw [if_pos ((vred_illegal_iff w).2 hbad)]; rfl
  · refine ⟨rotated ((s.clus d c).vreg va) (if Config.rotateUp then 256 - (s.clus d c).xreg xb % 256 else (s.clus d c).xreg xb % 256),
      vissue_ran h rfl rfl, by simp [rotated], ?_⟩
    cases Config.rotateUp with
    | false =>
      refine .inl fun l hl => (rotated_getD _ _ hl).trans ?_
      rw [if_neg Bool.false_ne_true, Nat.add_mod_mod]
    | true =>
      refine .inr fun l hl => (rotated_getD _ _ (Nat.mod_lt _ (by decide))).trans ?_
      rw [if_pos rfl]
      congr 1
      omega
  · refine ⟨fun hrsv => vissue_ran h rfl ((if_neg (not_not.2 hrsv)).trans (congrArg (vgo d c s) ?_)),
      fun hrsv => vissue_illegal h rfl (if_pos hrsv)⟩
    split
    · rfl
    · exact (setXreg_vstat ..).symm

theorem loop_illegal_iff (w last : Nat) (ls : List VLoop) :
    (bitsOf w 50 11 ≠ 0 ∨ bitsOf w 10 0 = 0 ∨ 4 ≤ ls.length ∨ (ls.any fun l => decide (l.last < last)) = true)
      ↔ ¬ (bitsOf w 50 11 = 0 ∧ bitsOf w 10 0 ≠ 0 ∧ ls.length < 4 ∧ ∀ l ∈ ls, last ≤ l.last) := by
  have hany : (ls.any fun l => decide (l.last < last)) = true ↔ ¬ ∀ l ∈ ls, last ≤ l.last := by simp
  rw [hany, ← Nat.not_lt]
  tauto

/-- Settles O14: the instructions of program control by their branches (a target at the code's length, and one beyond it: log entry 60),
and the command at the end of a program's beats. -/
theorem programControlFollowsBranchesLoopsAndEnds : Obligations.ProgramControlFollowsBranchesLoopsAndEnds := by
  intro d c s p w
  refine ⟨fun h => vissue_stop h rfl rfl, fun h t => ⟨fun hb => ?_, fun hb => ?_⟩,
    fun h xs t => ⟨fun hb hx => ?_, fun hb hx => ?_, fun hb => ?_⟩,
    fun h => ⟨fun hok hn => ?_, fun hok hn => ?_, fun hbad => ?_⟩, fun hprog hmax hbeats => ?_⟩
  · exact vissue_go h rfl (if_neg (Bool.eq_false_iff.1 hb))
  · exact vissue_illegal h rfl (if_pos hb)
  · exact vissue_go h rfl ((if_neg (Bool.eq_false_iff.1 hb)).trans (congrArg (VAct.go s) (if_neg hx)))
  · exact vissue_go h rfl ((if_neg (Bool.eq_false_iff.1 hb)).trans (congrArg (VAct.go s) (if_pos hx)))
  · exact vissue_illegal h rfl (if_pos hb)
  · exact vissue_go h rfl ((if_neg fun hbad => (loop_illegal_iff w _ _).1 hbad hok).trans (if_pos hn))
  · exact vissue_go h rfl ((if_neg fun hbad => (loop_illegal_iff w _ _).1 hbad hok).trans (if_neg hn))
  · exact vissue_illegal h rfl (if_pos ((loop_illegal_iff w _ _).2 hbad))
  · show (Host.Outcome.next _ : Out) = _
    simp only [hprog, if_pos (And.intro hmax hbeats)]

end Sys2Proof.Machine
end

section
/-! What an issued instruction adds to its own effect (R144, R539): the place of its program, and the counters that count it. -/
namespace Sys2Proof.Machine
open Sys2Proof

theorem vadvance_of_prog {d c : Nat} {s : State} {p : VProg} (h : (s.clus d c).prog = some p) (beats : Nat) (next : Option Nat) :
    vadvance d c beats next s = s.setClus d c { s.clus d c with prog := some (p.after beats next) } := by
  simp only [vadvance, State.updClus, h]; rfl

section
variable {d e n : Nat} {p : Option Nat} {s : State} (w : cwf 0 s.regs = true)
include w

/-- A register that is no programmable counter of the die does not count. -/
theorem pmcCount_reg_other {a : Nat} (ha : ∀ k < 8, a ≠ ZG_PMC_CNT d k) : (pmcCount d e p n s).reg a = s.reg a := by
  have hfold := (pmcCount_fold d e p n (fun k => cget 0 s.mgt.pmcSel (d * 8 + k)) (List.range 8) s w fun _ => rfl).2 a
  rw [List.filter_eq_nil_iff.2 fun k hk => by simp [(ha k (List.mem_range.1 hk)).symm]] at hfold
  simpa [pmcCount] using hfold

/-- A programmable counter that selects the event for every partition counts it once. -/
theorem pmcCount_reg_selected {k : Nat} (hk : k < 8) (he : e < 256) (hsel : cget 0 s.mgt.pmcSel (d * 8 + k) = e) :
    (pmcCount d e p n s).reg (ZG_PMC_CNT d k) = s.reg (ZG_PMC_CNT d k) + BitVec.ofNat 64 n := by
  have hfold := (pmcCount_fold d e p n (fun k => cget 0 s.mgt.pmcSel (d * 8 + k)) (List.range 8) s w fun _ => rfl).2 (ZG_PMC_CNT d k)
  have hbit : bitOf e 14 = false := Nat.testBit_lt_two_pow (Nat.lt_trans he (by decide))
  have honly : ∀ j ∈ List.range 8, decide (ZG_PMC_CNT d j = ZG_PMC_CNT d k ∧ cget 0 s.mgt.pmcSel (d * 8 + j) % 256 = e
      ∧ (!bitOf (cget 0 s.mgt.pmcSel (d * 8 + j)) 14 || p == some (bitsOf (cget 0 s.mgt.pmcSel (d * 8 + j)) 13 8)) = true)
      = decide (j = k) := by
    intro j _
    by_cases hj : j = k
    · subst hj; simp [hsel, hbit, Nat.mod_eq_of_lt he]
    · simp [hj, ZG_PMC_CNT]
  have hone : ∀ k < 8, ((List.range 8).filter fun j => decide (j = k)).length = 1 := by decide
  rw [List.filter_congr honly, hone k hk, Nat.one_mul] at hfold
  exact hfold

end

/-- Settles O5: the counters count in the registers alone, and the program advances in its own cluster. -/
theorem issuedInstructionChangesItsClusterOnly : Obligations.IssuedInstructionChangesItsClusterOnly := by
  intro d c s s1 p p1 beats next hs hp
  have hw := regs_of_canonical hs
  obtain ⟨u, hu⟩ : ∃ u, u = pmcCount d 2 (s.queuePart p.queue) 1 s1 := ⟨_, rfl⟩
  obtain ⟨regs, bits, hrest⟩ : ∃ regs bits, u = { s1 with regs := regs, mgt := { s1.mgt with ctrBits := bits } } :=
    ⟨_, _, hu ▸ pmcCount_rest ..⟩
  have hclu : u.clu = s1.clu := by rw [hrest]
  have hclus : u.clus d c = s1.clus d c := by simp only [State.clus, hclu]
  have hne : { s1.clus d c with prog := some (p1.after beats next) } ≠ {} := fun h => Option.some_ne_none _ (congrArg ClusterSt.prog h)
  rw [State.afterIssue, ← hu, vadvance_of_prog (hclus.symm ▸ hp), hclus]
  refine ⟨State.setClus_clus _ _ _ hne, ⟨fun k hk => ?_, fun a ha => ?_, ?_⟩, fun k hk hsel => ?_⟩
  · rw [State.setClus_other _ _ _ _ hne hk, hclu]
  · exact (congrArg (State.reg · a) hu).trans (pmcCount_reg_other hw ha)
  · rw [hrest]; rfl
  · exact (congrArg (State.reg · _) hu).trans (pmcCount_reg_selected hw hk (by decide) hsel)

end Sys2Proof.Machine
end

section
/-! SRAM write-back, scrubbing, owners and carve-outs (R124 to R132): the commands by their guards. -/
namespace Sys2Proof.Machine
open Sys2Proof

theorem clusters_of_canonical {s : State} (h : s.canonical = true) : cwf {} s.clu.cl = true := by
  simp only [State.canonical, Bool.and_eq_true] at h
  tauto

/-- A cluster after it is changed. -/
theorem updClus_clus {s : State} (h : s.canonical = true) (d c : Nat) (g : ClusterSt → ClusterSt) :
    (s.updClus d c g).clus d c = g (s.clus d c) := cget_cset_self _ _ _ (clusters_of_canonical h)

/-- Within the range cleared a memory reads as its default. -/
theorem cget_cclear {α : Type} (x : α) {lo hi a : Nat} (hlo : lo ≤ a) (hhi : a < hi) :
    ∀ m : List (Nat × α), cget x (cclear m lo hi) a = x
  | [] => rfl
  | (b, v) :: m => by
    have ih := cget_cclear x hlo hhi m
    simp only [cclear, List.filter_cons] at ih ⊢
    split
    · next hb =>
      have hne : a ≠ b := by
        simp only [Bool.or_eq_true, decide_eq_true_eq] at hb
        omega
      rw [cget, if_neg hne, ih, ite_self]
    · exact ih

/-- Settles O18: each command is its guard and then its effect. -/
theorem sramIsWrittenBackScrubbedAndCleared : Obligations.SramIsWrittenBackScrubbedAndCleared := by
  refine ⟨fun d c line s hs hline => ?_, fun d c idle bank s hon => ⟨?_, ?_⟩,
    fun d c s new hnew huse hloan => ?_, fun d s hpend hloans => ?_⟩
  · refine ⟨_, congrArg Host.Outcome.next (if_pos (List.contains_iff_mem.2 hline)), ?_⟩
    rw [updClus_clus hs]
    exact ⟨fun j hj => cget_cclear _ (by omega) (by omega) _, rfl, by simp, rfl, rfl⟩
  · exact congrArg Host.Outcome.next (if_pos hon)
  · exact congrArg Host.Outcome.next (if_pos hon)
  · have hidle : ¬ (s.clusterInUse d c || (s.clus d c).loan.isSome) = true := by simp [huse, hloan]
    show (Host.Outcome.next _ : Out) = _
    simp only [hnew, if_neg hidle]
    rfl
  · exact congrArg Host.Outcome.next (if_pos ⟨hpend, hloans⟩)

end Sys2Proof.Machine
end

section
/-! VECTOR_PROGRAM (R142, R151, R152): its checks, and what a cluster holds when its program starts. -/
namespace Sys2Proof.Machine
open Sys2Proof

/-- X1 to X5 written over a file that holds nothing. -/
theorem setXreg_five {x : ClusterSt} (hx : x.xregs = []) (v1 v2 v3 v4 v5 r : Nat) :
    (((((x.setXreg 1 v1).setXreg 2 v2).setXreg 3 v3).setXreg 4 v4).setXreg 5 v5).xreg r =
      if r = 5 then v5 % 2 ^ 64 else if r = 4 then v4 % 2 ^ 64 else if r = 3 then v3 % 2 ^ 64
      else if r = 2 then v2 % 2 ^ 64 else if r = 1 then v1 % 2 ^ 64 else 0 := by
  have h0 : cwf 0 x.xregs = true := by rw [hx]; rfl
  have h1 := setXreg_cwf h0 1 v1
  have h2 := setXreg_cwf h1 2 v2
  have h3 := setXreg_cwf h2 3 v3
  have h4 := setXreg_cwf h3 4 v4
  have hzero : x.xreg r = 0 := by rw [ClusterSt.xreg, hx]; exact ite_self _
  rw [setXreg_xreg h4, setXreg_xreg h3, setXreg_xreg h2, setXreg_xreg h1, setXreg_xreg h0, hzero]
  by_cases hr : r = 0
  · subst hr; rfl
  · simp only [hr, ne_eq, not_false_eq_true, and_true]

/-- Settles O28: the command by its checks, and a started program by the registers it sets. -/
theorem vectorProgramsLoadTheirCodeAndStart : Obligations.VectorProgramsLoadTheirCodeAndStart := by
  refine ⟨fun q seq s s0 s1 f code hrun hphase => ?_, fun d c p a0 a1 a2 a3 code s hs h0 h1 h2 h3 hidx => ?_⟩
  · dsimp only
    simp only [exec, execVectorProgram, withFlight_of_runs hrun, if_neg (not_not.2 hphase)]
    refine ⟨fun hbad => ?_, fun hgood hread hown hfree => ?_⟩
    · rw [if_pos hbad]; rfl
    · have hnone : ¬ ((s.cmdClusters q seq.toNat (byteAt (dBody f.desc) 0) (byteAt (dBody f.desc) 1)).any fun c =>
          (s.clus (s.queue q).die c).prog.isSome || s.namedAhead q seq.toNat f 0x20 c) = true := by
        simp +contextual [hfree]
      simp only [if_neg (not_not.2 hgood), hread, finishAcc, hown, if_neg hnone]
  · rw [startProg, updClus_clus hs]
    refine ⟨rfl, rfl, rfl, rfl, rfl, ?_, by simp, by simp⟩
    rw [funext (setXreg_five rfl _ _ _ _ _), Nat.mod_eq_of_lt hidx, Nat.mod_eq_of_lt (show ([a0, a1, a2, a3].getD 0 0) < _ from h0),
      Nat.mod_eq_of_lt (show ([a0, a1, a2, a3].getD 1 0) < _ from h1), Nat.mod_eq_of_lt (show ([a0, a1, a2, a3].getD 2 0) < _ from h2),
      Nat.mod_eq_of_lt (show ([a0, a1, a2, a3].getD 3 0) < _ from h3)]
    rfl

end Sys2Proof.Machine
end

section
/-! Moves (R133 to R139): how a move starts in its clusters, and what an entry that is ready does there. -/
namespace Sys2Proof.Machine
open Sys2Proof

/-! ### The command -/

/-- A move whose programs are fetched and that passes every check starts in its clusters. -/
theorem startMove_of_checked {q seq : Nat} {f : Flight} {b feed drain : List Byte} {s s0 s1 s2 : State} {begun : State → State}
    {fail : Nat → State → State} (hbody : checkMove b s = 0) (hfeed : vaRead (s.req q f 6) (getLE b 8 8) (getLE b 4 2 * 32) s = .ok feed s1)
    (hdrain : vaRead (s.req q f 6) (getLE b 16 8) (getLE b 6 2 * 32) s1 = .ok drain s2)
    (hany : (programBad false (getLE b 4 2) (2 ^ 64) feed || programBad true (getLE b 6 2) (2 ^ 64) drain) = false)
    (hfit : (programBad false (getLE b 4 2) (s.sramWindow q seq (s.queue q).die).2 feed
      || programBad true (getLE b 6 2) (s.sramWindow q seq (s.queue q).die).2 drain) = false)
    (hown : checkClusters q seq (byteAt b 0) (byteAt b 1) s2 = (0, s0))
    (hfree : ∀ c ∈ s.cmdClusters q seq (byteAt b 0) (byteAt b 1),
      (s.clus (s.queue q).die c).mv = none ∧ s.namedAhead q seq f 0x21 c = false) :
    let cs := s.cmdClusters q seq (byteAt b 0) (byteAt b 1)
    let m : MoveRun := { queue := q, seq := seq, clFirst := byteAt b 0, cls := cs, inOrder := byteAt b 2 == 1,
                         vaStep := getLE b 24 8, feed := programOf (getLE b 4 2) feed, drain := programOf (getLE b 6 2) drain }
    startMove q seq f b s begun fail = cs.foldl (fun t c => settleMove m (s.queue q).die c t)
      (cs.foldl (fun t c => t.updClus (s.queue q).die c fun x => { x with mv := some { queue := q, seq := seq } })
        (begun { s2 with clu := { s2.clu with moves := s2.clu.moves ++ [m] } })) := by
  have hnone : ¬ ((s.cmdClusters q seq (byteAt b 0) (byteAt b 1)).any fun c =>
      (s.clus (s.queue q).die c).mv.isSome || s.namedAhead q seq f 0x21 c) = true := by
    simp +contextual [hfree]
  simp only [startMove, if_neg (not_not.2 hbody), hfeed, hdrain, Acc.bind, hany, hfit, hown, if_neg hnone, Bool.false_eq_true, if_false]

/-! ### Entries -/

section
variable {d c i op : Nat} {drain : Bool} {s s1 : State} {a : MoveAt} {m : MoveRun} {f : Flight} {e : MoveEntry}
  {g : MoveRun → MoveEntry → Req → Option Nat → State → MoveEnd}

/-- An entry that is ready and moves its rows counts as done. -/
theorem runEntry_done (h : s.entryAt d c drain i op a m f e)
    (hg : g m e (s.req a.queue f (if drain then 1 else 0)) (s.queuePart a.queue) s = .done s1) :
    runEntry d c drain i op s g = entryDone m d c drain i s1 := by
  obtain ⟨hmv, hm, hf, he, hop, hready⟩ := h
  simp only [runEntry, hmv, hm, hf, he, hop, hready, hg, ne_eq, not_true_eq_false, Bool.true_eq_false, or_self, if_false]
  rfl

/-- An entry that is ready and fails leaves its status and ends the move in its cluster. -/
theorem runEntry_failed {st : Nat} (h : s.entryAt d c drain i op a m f e)
    (hg : g m e (s.req a.queue f (if drain then 1 else 0)) (s.queuePart a.queue) s = .failed st s1) :
    runEntry d c drain i op s g =
      settleMove m d c (s1.updClus d c fun x => { x with mv := x.mv.map fun a => { a with failed := some st } }) := by
  obtain ⟨hmv, hm, hf, he, hop, hready⟩ := h
  simp only [runEntry, hmv, hm, hf, he, hop, hready, hg, ne_eq, not_true_eq_false, Bool.true_eq_false, or_self, if_false]

end

/-- Settles O19: the command by its checks, each entry by what its groups do. -/
theorem moveCommandsRunTheirPrograms : Obligations.MoveCommandsRunTheirPrograms := by
  refine ⟨fun q seq s s0 s1 s2 f feed drain hrun hphase => ?_, fun d c i s s1 a m f e => ⟨?_, ?_, ?_, ?_, ?_, ?_, ?_, ?_⟩⟩
  · dsimp only
    simp only [exec, execMove, withFlight_of_runs hrun, if_neg (not_not.2 hphase)]
    refine ⟨fun hbad => ?_, fun hbody hfeed hdrain hanyF hanyD hfitF hfitD hown hfree => ?_⟩
    · rw [startMove, if_pos hbad]; rfl
    · rw [startMove_of_checked hbody hfeed hdrain (Bool.or_eq_false_iff.2 ⟨hanyF, hanyD⟩)
        (Bool.or_eq_false_iff.2 ⟨hfitF, hfitD⟩) hown hfree]
  · exact fun h hb hg => congrArg Host.Outcome.next (runEntry_done h (by simp only [hb]; exact hg))
  · exact fun h hb k data hfind hg => congrArg Host.Outcome.next (runEntry_done h (by simp only [hb, hfind]; exact hg))
  · exact fun h hb hfind data s0 hread hg => congrArg Host.Outcome.next (runEntry_done h (by
      simp only [hb, hfind, if_true, Bool.false_eq_true, if_false, hread, fromAcc]; exact hg))
  · exact fun h hg => congrArg Host.Outcome.next (runEntry_done h hg)
  · exact fun h hg => congrArg Host.Outcome.next (runEntry_done h hg)
  · exact fun h hg => congrArg Host.Outcome.next (runEntry_done h hg)
  · exact fun h st hg => congrArg Host.Outcome.next (runEntry_failed h hg)
  · exact fun drain h => congrArg Host.Outcome.next (runEntry_done h rfl)

end Sys2Proof.Machine
end

section
/-! Register writes by offset (R533, R594, R595): hub hardware takes or rejects one at once, Betony's core applies the oldest that waits. -/
namespace Sys2Proof.Machine
open Sys2Proof

section
variable {f : Nat} {off size value : Nat} {s : State}

@[simp] theorem setShadow_hasFn (f g : Nat) (x : Nat × Nat) (s : State) : (setShadow f x s).hasFn g = s.hasFn g := rfl

/-- A write that fails a check is rejected, where its register is hub hardware's or none at all. -/
theorem guardedWrite_rejected (hfn : s.hasFn f = true) (hkind : writeKind f off size value s ≠ 0)
    (hhub : isHw off = true ∨ writeKind f off size value s = 2) (g : Nat → Nat → State → State) :
    guardedWrite f off size value s g =
      rejectWrite f off (writeKind f off size value s) (if size = 4 then value % 2 ^ 32 else value) s := by
  have hnow : ¬ ((s.answers off = false ∧ writeKind f off size value s ≠ 2) ∨ s.hasFn f = false) := by
    rcases hhub with h | h <;> simp [State.answers, h, hfn]
  unfold guardedWrite
  rw [if_neg hnow, if_pos hkind]
  rfl

end

section
variable {f : Func} {off : BitVec 21} {size : Fin 9} {v : Word64} {s : State}

/-- A write of BAR0 by a function that answers, but for a GO. -/
theorem exec_registerWrite (hfn : s.hasFn f = true) (hgo : off.toNat ≠ ZG_BOOT_GO) :
    exec (.registerWrite f ⟨false, off⟩ size v) s = .next
      (if isHw off.toNat || writeKind f off.toNat size v.toNat (setShadow f (0, 0) s) == 2 then
        applyWrite f off.toNat size v.toNat (setShadow f (0, 0) s)
      else queueWrite f off.toNat size v.toNat (setShadow f (0, 0) s)) := by
  have hno : isGo f off.toNat size v.toNat s = false := by simp [isGo, hgo]
  simp only [exec, execRegisterWrite, hfn, hno, Bool.true_eq_false, Bool.false_eq_true, if_false]

/-- A write for Betony waits while there is room. -/
theorem queueWrite_of_room {f off size value : Nat} {s : State} (hb : s.betony = 1 ∨ s.betony = 2) (hready : s.ready = true)
    (hroom : s.mgt.emuWrites.length < 64) : queueWrite f off size value s =
      { s with mgt := { s.mgt with emuWrites := s.mgt.emuWrites ++ [⟨f, off, size, value⟩] } } := by
  refine if_neg ?_
  simp only [hready, Bool.true_eq_false, false_or]
  omega

/-- Betony's core takes the oldest write that waits. -/
theorem exec_emulatedWriteApply {w : EmuWrite} {ws : List EmuWrite} (hw : s.mgt.emuWrites = w :: ws) (hb : s.betony = 1)
    (hready : s.ready = true) : exec .emulatedWriteApply s =
      .next (answerHeld (applyWrite w.fn w.off w.size w.value { s with mgt := { s.mgt with
      emuWrites := ws, emuReads := s.mgt.emuReads.map fun x => if x.fn = w.fn then { x with behind := x.behind - 1 } else x } })) := by
  simp only [exec, execEmulatedWriteApply, hw, hb, hready, ne_eq, not_true_eq_false, Bool.true_eq_false, or_self, if_false]

end

/-- An accepted write, as the outcome of the command that makes it. -/
theorem next_accepted {f off size value : Nat} {s : State} {r : RegDesc} (h : s.accepts f off size value r)
    (g : Nat → Nat → State → State) : (.next (guardedWrite f off size value s g) : Out) = .next (s.afterWrite f off size value r g) := by
  rw [guardedWrite_accepted h]

/-- Settles O21: an accepted write is its register's new value and effect, whoever makes it and whenever it is taken. What no register
occupies is rejected at once and zeros to a high half reach no field (log entry 76); an accepted GO is BOOT_GO's (log entry 46). -/
theorem registerWritesTakeEffectOrAreRejected : Obligations.RegisterWritesTakeEffectOrAreRejected := by
  refine ⟨fun f die k v w r s => ⟨fun h => next_accepted h _, fun h => next_accepted h _, fun h => next_accepted h _,
      fun h => next_accepted h _, fun h => next_accepted h _, fun h => next_accepted h _, fun h => next_accepted h _,
      fun h hon => ?_, fun h hoff => ?_, fun on v hv h => ?_,
      fun h => next_accepted h _, fun h => next_accepted h _, fun h => next_accepted h _, fun h => next_accepted h _,
      fun h => next_accepted h _, fun h => next_accepted h _, fun h => next_accepted h _⟩,
    fun f off size v r s => ⟨fun hhw hgo h => ?_, fun hhub hgo hkind hfn => ?_, fun hhw hkind hgo hb hready hroom hfn => ?_,
      fun hfn => ?_⟩,
    fun s w ws r hw hb hready h => ?_⟩
  · exact (congrArg Host.Outcome.next (if_pos hon)).trans (next_accepted h _)
  · exact (congrArg Host.Outcome.next (if_neg (Bool.eq_false_iff.1 hoff))).trans (next_accepted h _)
  · subst hv; exact next_accepted h _
  · have hfn : s.hasFn f = true := h.1
    rw [exec_registerWrite hfn hgo, hhw, Bool.true_or, if_pos rfl]
    exact next_accepted h _
  · rw [exec_registerWrite hfn hgo, if_pos (by simpa using hhub)]
    exact congrArg Host.Outcome.next (guardedWrite_rejected (s := setShadow f (0, 0) s) hfn hkind hhub _)
  · rw [exec_registerWrite hfn hgo, hhw, Bool.false_or, if_neg (by simpa using hkind)]
    exact congrArg Host.Outcome.next (queueWrite_of_room hb hready hroom)
  · exact congrArg Host.Outcome.next (if_pos hfn)
  · rw [exec_emulatedWriteApply hw hb hready, applyWrite, guardedWrite_accepted h]

end Sys2Proof.Machine
end

section
/-! Accesses to the SRAM of a cluster (R124 to R126): what a read delivers, what a write that goes through stores, and what both leave. -/
namespace Sys2Proof.Machine
open Sys2Proof

/-! ### Runs of bytes in a sparse memory -/

section
variable {α : Type} {d : α}

theorem length_cgetList (m : List (Nat × α)) (a n : Nat) : (cgetList d m a n).length = n := by simp [cgetList]

theorem cgetList_add (m : List (Nat × α)) (a n k : Nat) : cgetList d m a (n + k) = cgetList d m a n ++ cgetList d m (a + n) k := by
  simp [cgetList, List.range_add, Nat.add_assoc]

/-- A run of bytes within a longer one. -/
theorem take_drop_cgetList (m : List (Nat × α)) (a : Nat) {n i k : Nat} (h : i + n ≤ k) :
    ((cgetList d m a k).drop i).take n = cgetList d m (a + i) n := by
  obtain ⟨j, rfl⟩ := Nat.exists_eq_add_of_le h
  rw [cgetList_add, cgetList_add, List.append_assoc, List.drop_left' (length_cgetList ..), List.take_left' (length_cgetList ..)]

theorem csetList_append [DecidableEq α] (m : List (Nat × α)) (a : Nat) (xs ys : List α) :
    csetList d m a (xs ++ ys) = csetList d (csetList d m a xs) (a + xs.length) ys := by
  induction xs generalizing m a with
  | nil => rfl
  | cons x xs ih =>
    rw [List.cons_append, csetList, csetList, ih, List.length_cons, Nat.add_assoc, Nat.add_comm 1]

end

/-! ### Reads -/

section
variable {d c rd : Nat} {p : Option Nat} {s t : State}

theorem bump_clu (off n : Nat) (s : State) : (bump off n s).clu = s.clu := by
  rw [bump, bumpKey_rest]

/-- Errors of a line that are counted and mended leave its bytes. -/
theorem counted_keeps (off n : Nat) {g : ClusterSt → ClusterSt} (hc : cwf {} s.clu.cl = true)
    (hg : (g (s.clus d c)).sram = (s.clus d c).sram) :
    cwf {} (if n = 0 then s else bump off n (s.updClus d c g)).clu.cl = true
      ∧ ((if n = 0 then s else bump off n (s.updClus d c g)).clus d c).sram = (s.clus d c).sram := by
  split
  · exact ⟨hc, rfl⟩
  · have hat : (bump off n (s.updClus d c g)).clus d c = g (s.clus d c) := by
      rw [State.clus, bump_clu]
      exact cget_cset_self _ _ _ hc
    rw [hat, bump_clu]
    exact ⟨cwf_cset _ _ hc, hg⟩

theorem readLine_bytes {line : Nat} {bs : List Byte} (h : readLine d c line rd p s = (some bs, t)) :
    bs = cgetList 0 (s.clus d c).sram (line * 64) 64 := by
  unfold readLine at h
  dsimp only at h
  split at h
  · simp at h
  · exact (Option.some.inj (congrArg Prod.fst h)).symm

/-- A line that delivers its bytes stays as it is. -/
theorem readLine_keeps {line : Nat} {bs : List Byte} (hc : cwf {} s.clu.cl = true) (h : readLine d c line rd p s = (some bs, t)) :
    cwf {} t.clu.cl = true ∧ (t.clus d c).sram = (s.clus d c).sram := by
  unfold readLine at h
  dsimp only at h
  split at h
  · simp at h
  · obtain ⟨-, rfl⟩ := Prod.mk.inj h
    exact counted_keeps _ _ hc rfl

/-- Lines are read one by one, up to the first that delivers nothing. (By the recursor: to derive the equation from the definition,
`rfl` would evaluate the code of a line.) -/
theorem readLines_cons (d c l rd : Nat) (p : Option Nat) (ls : List Nat) (s : State) : readLines d c rd p (l :: ls) s =
    ((readLine d c l rd p s).1.elim (none, (readLine d c l rd p s).2) fun x =>
      ((readLines d c rd p ls (readLine d c l rd p s).2).1.map (x ++ ·), (readLines d c rd p ls (readLine d c l rd p s).2).2)) := by
  delta readLines
  dsimp only [List.brecOn, List.brecOn.go, readLines._f]
  generalize readLine d c l rd p s = r
  obtain ⟨_ | x, s1⟩ := r
  · rfl
  · dsimp only [Option.elim]
    split <;> simp [*]

/-- Lines that deliver their bytes: the first of them and then the rest. -/
theorem readLines_cons_some {l : Nat} {ls : List Nat} {bs : List Byte} (h : readLines d c rd p (l :: ls) s = (some bs, t)) :
    ∃ x s1 y, readLine d c l rd p s = (some x, s1) ∧ readLines d c rd p ls s1 = (some y, t) ∧ bs = x ++ y := by
  rw [readLines_cons] at h
  generalize hl : readLine d c l rd p s = r at h
  obtain ⟨_ | x, s1⟩ := r
  · exact absurd (congrArg Prod.fst h) (by simp)
  · generalize hls : readLines d c rd p ls s1 = r at h
    obtain ⟨_ | y, s2⟩ := r
    · exact absurd (congrArg Prod.fst h) (by simp)
    · obtain ⟨hbs, rfl⟩ := Prod.mk.inj h
      exact ⟨x, s1, y, rfl, hls, (Option.some.inj hbs).symm⟩

theorem readLines_length {ls : List Nat} {s : State} {bs : List Byte} (h : readLines d c rd p ls s = (some bs, t)) :
    bs.length = 64 * ls.length := by
  induction ls generalizing s bs with
  | nil => rw [← Option.some.inj (congrArg Prod.fst h)]; rfl
  | cons l ls ih =>
    obtain ⟨x, s1, y, hl, hls, rfl⟩ := readLines_cons_some h
    rw [List.length_append, readLine_bytes hl, length_cgetList, ih hls, List.length_cons]
    omega

/-- A read that goes through delivers as many bytes as were asked for. -/
theorem sramRead_length {a n : Nat} {bs : List Byte} (h : sramRead d c a n rd p s = (some bs, t)) : bs.length = n := by
  unfold sramRead at h
  split at h
  · simp at h
  · next hls =>
    rw [← Option.some.inj (congrArg Prod.fst h), List.length_take, List.length_drop, readLines_length hls]
    unfold linesOf
    split
    · omega
    · rw [List.length_map, List.length_range]
      omega

/-- Lines in a row deliver the bytes they hold. -/
theorem readLines_some (k b : Nat) {s : State} {bs : List Byte} (hc : cwf {} s.clu.cl = true)
    (h : readLines d c rd p ((List.range k).map (b + ·)) s = (some bs, t)) :
    bs = cgetList 0 (s.clus d c).sram (b * 64) (64 * k) ∧ cwf {} t.clu.cl = true ∧ (t.clus d c).sram = (s.clus d c).sram := by
  induction k generalizing b s bs with
  | zero =>
    obtain ⟨hbs, rfl⟩ := Prod.mk.inj h
    exact ⟨(Option.some.inj hbs).symm, hc, rfl⟩
  | succ k ih =>
    have hls : (List.range (k + 1)).map (b + ·) = b :: (List.range k).map (b + 1 + ·) := by
      simp [List.range_succ_eq_map, Function.comp_def, Nat.add_comm, Nat.add_left_comm]
    obtain ⟨x, s1, y, hl, hrest, rfl⟩ := readLines_cons_some (hls ▸ h)
    obtain rfl := readLine_bytes hl
    obtain ⟨hc1, hs1⟩ := readLine_keeps hc hl
    obtain ⟨rfl, hct, hst⟩ := ih (b + 1) hc1 hrest
    refine ⟨?_, hct, hst.trans hs1⟩
    rw [hs1, Nat.mul_succ 64, Nat.add_comm (64 * k), cgetList_add, Nat.succ_mul b]

/-- A read that goes through delivers the bytes that stand there, and they stay. -/
theorem sramRead_some {a n : Nat} {bs : List Byte} (hc : cwf {} s.clu.cl = true) (h : sramRead d c a n rd p s = (some bs, t)) :
    bs = cgetList 0 (s.clus d c).sram a n ∧ cwf {} t.clu.cl = true ∧ (t.clus d c).sram = (s.clus d c).sram := by
  unfold sramRead at h
  split at h
  · simp at h
  · next ls s1 hls =>
    obtain ⟨hbs, rfl⟩ := Prod.mk.inj h
    obtain rfl := Option.some.inj hbs
    by_cases hn : n = 0
    · subst hn
      obtain ⟨-, rfl⟩ := Prod.mk.inj hls
      exact ⟨by simp [cgetList], hc, rfl⟩
    · rw [linesOf, if_neg hn] at hls
      obtain ⟨rfl, hkept⟩ := readLines_some _ _ hc hls
      refine ⟨?_, hkept⟩
      rw [take_drop_cgetList _ _ (by omega)]
      congr 1
      omega

/-! ### Writes -/

/-- The pieces of a write, stored one after another, are its bytes stored at once. -/
theorem cutLines_csetList (k : Nat) : ∀ (a : Nat) (bs : List Byte) (m : List (Nat × Byte)), a % 64 + bs.length ≤ 64 * k →
    (cutLines k a bs).foldl (fun m w => csetList 0 m w.1 w.2) m = csetList 0 m a bs := by
  induction k with
  | zero =>
    intro a bs m h
    obtain rfl := List.length_eq_zero_iff.1 (by omega : bs.length = 0)
    rfl
  | succ k ih =>
    intro a bs m h
    unfold cutLines
    split
    · next hbs => rw [hbs]; rfl
    · rw [List.foldl_cons, ih _ _ _ (by rw [List.length_drop]; omega)]
      by_cases hlen : 64 - a % 64 ≤ bs.length
      · conv_rhs => rw [← List.take_append_drop (64 - a % 64) bs, csetList_append, List.length_take_of_le hlen]
      · rw [List.drop_of_length_le (by omega), List.take_of_length_le (by omega)]
        rfl

theorem fixLine_sram (x : ClusterSt) (l : Nat) : (fixLine x l).sram = x.sram := by rw [fixLine]

theorem sramWriteLines_true (d c u : Nat) (p : Option Nat) : ∀ (ws : List (Nat × List Byte)) {s t : State}, cwf {} s.clu.cl = true →
    sramWriteLines d c u p ws s = (true, t) →
    (t.clus d c).sram = ws.foldl (fun m w => csetList 0 m w.1 w.2) (s.clus d c).sram
  | [], s, t, _, h => by obtain rfl : s = t := congrArg Prod.snd h; rfl
  | (a, bs) :: ws, s, t, hc, h => by
    unfold sramWriteLines at h
    dsimp only at h
    split at h
    · simp at h
    · generalize hn : (if partWords a bs.length = [] then 0 else lineCe (s.clus d c) (a / 64)) = n at h
      have hkept := counted_keeps (g := fun x => fixLine x (a / 64)) (d := d) (c := c) (ZG_CLU_ECC_CE d) n hc (fixLine_sram _ _)
      generalize (if n = 0 then s else bump (ZG_CLU_ECC_CE d) n (s.updClus d c fun x => fixLine x (a / 64))) = s1 at h hkept
      obtain ⟨hc1, hs1⟩ := hkept
      rw [sramWriteLines_true d c u p ws (cwf_cset _ _ hc1) h, List.foldl_cons, ← hs1]
      exact congrArg (fun x : ClusterSt => ws.foldl (fun m w => csetList 0 m w.1 w.2) x.sram) (cget_cset_self _ _ _ hc1)

/-- A write that goes through stores its bytes and no other. -/
theorem sramWrite_true {a u : Nat} {bs : List Byte} (hc : cwf {} s.clu.cl = true) (h : sramWrite d c a bs u p s = (true, t)) :
    (t.clus d c).sram = csetList 0 (s.clus d c).sram a bs := by
  rw [sramWriteLines_true _ _ _ _ _ hc h, cutLines_csetList _ _ _ _ (by omega)]

end
end Sys2Proof.Machine
end

section
/-! The order of Teasel's records (R156, R162, R167): a stable sort gives the one list in order in which the records of each key stand
as they came. -/
namespace Sys2Proof.Machine
open Sys2Proof

section
variable {α : Type} {f : α → Int} {l xs : List α}

theorem insertBy_eq_orderedInsert (f : α → Int) (x : α) : ∀ l : List α,
    insertBy (fun a b => decide (f a ≤ f b)) x l = l.orderedInsert (fun a b => f a ≤ f b) x
  | [] => rfl
  | y :: ys => by
    simp only [insertBy, List.orderedInsert, decide_eq_true_eq, insertBy_eq_orderedInsert f x ys]

theorem sortBy_eq_insertionSort (f : α → Int) : ∀ l : List α,
    sortBy (fun a b => decide (f a ≤ f b)) l = l.insertionSort (fun a b => f a ≤ f b)
  | [] => rfl
  | x :: xs => by
    have ih := sortBy_eq_insertionSort f xs
    simp only [sortBy, List.foldr_cons] at ih ⊢
    rw [ih, insertBy_eq_orderedInsert, List.insertionSort_cons]

theorem sortBy_perm (f : α → Int) (l : List α) : (sortBy (fun a b => decide (f a ≤ f b)) l).Perm l := by
  rw [sortBy_eq_insertionSort]
  exact List.perm_insertionSort _ l

theorem sortBy_pairwise (f : α → Int) (l : List α) : (sortBy (fun a b => decide (f a ≤ f b)) l).Pairwise fun a b => f a ≤ f b := by
  rw [sortBy_eq_insertionSort]
  have : Std.Total (fun a b : α => f a ≤ f b) := ⟨fun a b => le_total (f a) (f b)⟩
  have : IsTrans α (fun a b : α => f a ≤ f b) := ⟨fun _ _ _ => le_trans⟩
  exact List.pairwise_insertionSort _ l

/-- The records of one key stand in input order. -/
theorem sortBy_filter (f : α → Int) (l : List α) (k : Int) :
    (sortBy (fun a b => decide (f a ≤ f b)) l).filter (fun a => decide (f a = k)) = l.filter (fun a => decide (f a = k)) := by
  rw [sortBy_eq_insertionSort]
  have hsame : (l.filter fun a => decide (f a = k)).Pairwise fun a b => f a ≤ f b :=
    List.pairwise_of_forall_mem_list fun a ha b hb => by simp only [List.mem_filter, decide_eq_true_eq] at ha hb; omega
  have : Std.Total (fun a b : α => f a ≤ f b) := ⟨fun a b => le_total (f a) (f b)⟩
  have : IsTrans α (fun a b : α => f a ≤ f b) := ⟨fun _ _ _ => le_trans⟩
  have hsub := (List.sublist_insertionSort hsame List.filter_sublist).filter fun a => decide (f a = k)
  simp only [List.filter_filter, Bool.and_self] at hsub
  exact (hsub.eq_of_length ((List.perm_insertionSort _ l).filter _).length_eq.symm).symm

/-- A list in order is known by the records it has of each key. -/
theorem eq_of_pairwise_of_filter : ∀ {l₁ l₂ : List α},
    l₁.Pairwise (fun a b => f a ≤ f b) → l₂.Pairwise (fun a b => f a ≤ f b) →
    (∀ k, l₁.filter (fun a => decide (f a = k)) = l₂.filter (fun a => decide (f a = k))) → l₁ = l₂
  | [], [], _, _, _ => rfl
  | [], b :: _, _, _, h => by simpa using h (f b)
  | a :: _, [], _, _, h => by simpa using h (f a)
  | a :: l₁, b :: l₂, h₁, h₂, h => by
    have mem_of {l l' : List α} {x : α} (hl : l.filter (fun a => decide (f a = f x)) = l'.filter fun a => decide (f a = f x))
        (hx : x ∈ l) : x ∈ l' :=
      (List.mem_filter.1 (hl ▸ List.mem_filter.2 ⟨hx, decide_eq_true rfl⟩)).1
    have hab : f a = f b := by
      have hle : f a ≤ f b := (List.mem_cons.1 (mem_of (h (f b)).symm (List.mem_cons_self ..))).elim
        (fun hb => hb ▸ le_rfl) (List.rel_of_pairwise_cons h₁)
      have hge : f b ≤ f a := (List.mem_cons.1 (mem_of (h (f a)) (List.mem_cons_self ..))).elim
        (fun ha => ha ▸ le_rfl) (List.rel_of_pairwise_cons h₂)
      omega
    have hhead := h (f a)
    simp only [List.filter_cons, decide_true, if_true, hab, List.cons.injEq] at hhead
    obtain ⟨rfl, -⟩ := hhead
    refine congrArg (a :: ·) (eq_of_pairwise_of_filter h₁.of_cons h₂.of_cons fun k => ?_)
    have hk := h k
    by_cases hak : f a = k <;> simpa [List.filter_cons, hak] using hk

/-- The sort is stable (R162). -/
theorem sortBy_eq_of_stable (hl : l.Pairwise fun a b => f a ≤ f b)
    (hstable : ∀ k, l.filter (fun a => decide (f a = k)) = xs.filter (fun a => decide (f a = k))) :
    sortBy (fun a b => decide (f a ≤ f b)) xs = l :=
  eq_of_pairwise_of_filter (sortBy_pairwise f xs) hl fun k => (sortBy_filter f xs k).trans (hstable k).symm

/-- The same for the order that DIR chooses (R162). -/
theorem sortBy_dir_eq_of_stable {dir : Bool} (hl : l.Pairwise fun a b => if dir = true then f b ≤ f a else f a ≤ f b)
    (hstable : ∀ k, l.filter (fun a => decide (f a = k)) = xs.filter (fun a => decide (f a = k))) :
    sortBy (fun a b => if dir = true then decide (f b ≤ f a) else decide (f a ≤ f b)) xs = l := by
  cases dir with
  | false => exact sortBy_eq_of_stable hl hstable
  | true =>
    have hle : (fun a b => decide (f b ≤ f a)) = fun a b => decide (-f a ≤ -f b) := by simp only [Int.neg_le_neg_iff]
    have heq (a : α) (k : Int) : -f a = k ↔ f a = -k := by omega
    refine hle ▸ sortBy_eq_of_stable (f := fun a => -f a) (hl.imp Int.neg_le_neg) fun k => ?_
    simpa only [heq] using hstable (-k)

end

/-! ### Records read and written -/

theorem rfmtBytes_pos (rf : Nat) : 0 < rfmtBytes rf := by
  unfold rfmtBytes
  split_ifs <;> decide

theorem length_chunksOf (w : Nat) (bs : List Byte) : (chunksOf w bs).length = bs.length / w := by simp [chunksOf]

section
variable {x : TslCtx} {a n : Nat} {bs : List Byte} {s s1 s3 : State}

/-- As many records are read as were asked for. -/
theorem length_chunksOf_get (rf : Nat) (h : x.get a (n * rfmtBytes rf) s = (some bs, s1)) :
    (chunksOf (rfmtBytes rf) bs).length = n := by
  rw [length_chunksOf, sramRead_length h, Nat.mul_div_cancel _ (rfmtBytes_pos rf)]

theorem TslCtx.read_of_get (h : x.get a n s = (some bs, s1)) (g : List Byte → State → TslRes) : x.read a n s g = g bs s1 := by
  rw [TslCtx.read, h]

theorem TslCtx.write_of_sramWrite {r : Nat} (h : sramWrite x.d x.c (x.base + a) bs 4 x.part s = (true, s3))
    (g : State → TslRes) : x.write a r bs s g = g s3 := by
  rw [TslCtx.write, h]

end

/-- Settles O25: what is written begins the one list that is in order and stable. -/
theorem sortIsStableAndWritesTheFirstCapRecords : Obligations.SortIsStableAndWritesTheFirstCapRecords := by
  intro x n s s1 s3 bs all
  dsimp only
  intro hget hperm hsorted hstable hwrite
  have hlen : all.length = n := hperm.length_eq.trans (length_chunksOf_get _ hget)
  have hkept : (if zCap x.b = 0 then all else all.take (zCap x.b)) = all.take (if zCap x.b = 0 then n else min n (zCap x.b)) := by
    split
    · rw [← hlen, List.take_length]
    · rw [← hlen, Nat.min_comm, ← List.take_eq_take_min]
  simp only [sortRun, x.read_of_get hget, sortBy_dir_eq_of_stable hsorted hstable, hkept, x.write_of_sramWrite hwrite,
    List.length_take, hlen]
  congr 1
  split <;> omega

end Sys2Proof.Machine
end

section
/-! Key sets (R167): what UNION, INTERSECT and DIFF write. -/
namespace Sys2Proof.Machine
open Sys2Proof

section
variable {rank : List Byte → Int}

theorem strictlyAscends_iff (rank : List Byte → Int) : ∀ l : List (List Byte),
    strictlyAscends rank l = true ↔ l.Pairwise fun a b => rank a < rank b := by
  have : Trans (fun a b : List Byte => rank a < rank b) (fun a b => rank a < rank b) (fun a b => rank a < rank b) := ⟨lt_trans⟩
  simp only [← List.isChain_iff_pairwise]
  intro l
  induction l with
  | nil => simp [strictlyAscends]
  | cons a l ih =>
    cases l with
    | nil => simp [strictlyAscends]
    | cons b r => rw [strictlyAscends, Bool.and_eq_true, decide_eq_true_eq, ih, List.isChain_cons_cons]

/-- What a key-set operation keeps of `A`, and then what it adds of `B` (R167). -/
def keptKeys (rank : List Byte → Int) (keepA : Bool → Bool) (addB : Bool) (A B : List (List Byte)) : List (List Byte) :=
  A.filter (fun e => keepA ((B.map rank).contains (rank e))) ++
    if addB then B.filter (fun e => !(A.map rank).contains (rank e)) else []

variable {keepA : Bool → Bool} {addB : Bool} {A B out : List (List Byte)}

theorem mem_keptKeys {e : List Byte} : e ∈ keptKeys rank keepA addB A B ↔
    (e ∈ A ∧ keepA (decide (∃ b ∈ B, rank b = rank e)) = true) ∨ (addB = true ∧ e ∈ B ∧ ¬ ∃ a ∈ A, rank a = rank e) := by
  cases addB <;> simp [keptKeys]

/-- No key is kept twice. -/
theorem keptKeys_pairwise (hA : A.Pairwise fun a b => rank a < rank b) (hB : B.Pairwise fun a b => rank a < rank b) :
    (keptKeys rank keepA addB A B).Pairwise fun a b => rank a ≠ rank b := by
  refine List.pairwise_append.2 ⟨(hA.filter _).imp ne_of_lt, ?_, fun a ha b hb hab => ?_⟩
  · split
    · exact (hB.filter _).imp ne_of_lt
    · exact .nil
  · cases addB with
    | false => simp at hb
    | true =>
      simp only [if_true, List.mem_filter, Bool.not_eq_true', List.contains_eq_mem, decide_eq_false_iff_not] at hb
      exact hb.2 (hab ▸ List.mem_map_of_mem (List.mem_filter.1 ha).1)

/-- What is written is the one strictly ascending list of what is kept. -/
theorem sortBy_keptKeys (hA : A.Pairwise fun a b => rank a < rank b) (hB : B.Pairwise fun a b => rank a < rank b)
    (hout : out.Pairwise fun a b => rank a < rank b)
    (hmem : ∀ e, e ∈ out ↔ (e ∈ A ∧ keepA (decide (∃ b ∈ B, rank b = rank e)) = true)
      ∨ (addB = true ∧ e ∈ B ∧ ¬ ∃ a ∈ A, rank a = rank e)) :
    sortBy (fun p q => decide (rank p ≤ rank q)) (keptKeys rank keepA addB A B) = out := by
  have : Std.Antisymm (fun a b : List Byte => rank a < rank b) := ⟨fun _ _ h h' => absurd h' (lt_asymm h)⟩
  have : Std.Irrefl (fun a b : List Byte => rank a < rank b) := ⟨fun _ => lt_irrefl _⟩
  have hperm := sortBy_perm rank (keptKeys rank keepA addB A B)
  have hne := (hperm.pairwise_iff (fun h => Ne.symm h)).2 (keptKeys_pairwise (keepA := keepA) (addB := addB) hA hB)
  have hlt := ((sortBy_pairwise rank (keptKeys rank keepA addB A B)).and hne).imp fun h => lt_of_le_of_ne h.1 h.2
  exact hlt.eq_of_mem_iff hout fun e => by rw [hperm.mem_iff, mem_keptKeys, hmem]

end

/-- Settles O26: a key-set operation is the sort of what it keeps, where both of its sets ascend. -/
theorem keySetOperationsKeepEachKeyOnce : Obligations.KeySetOperationsKeepEachKeyOnce := by
  intro x n s s1 s2 s3 abs bbs out keepA addB
  dsimp only
  intro hA hB
  refine ⟨fun hnot => ?_, fun hup hup2 hout hmem hwrite => ?_⟩
  · simp only [setRun, x.read_of_get hA, x.read_of_get hB]
    refine if_pos ?_
    simpa only [← strictlyAscends_iff, ← Bool.and_eq_true, Bool.not_eq_true, ← Bool.not_and, Bool.not_eq_true'] using hnot
  · have hsort := sortBy_keptKeys (keepA := keepA) (addB := addB) hup hup2 hout hmem
    unfold keptKeys at hsort
    rw [← strictlyAscends_iff] at hup hup2
    simp only [setRun, x.read_of_get hA, x.read_of_get hB, hup, hup2, hsort, x.write_of_sramWrite hwrite, Bool.not_true, Bool.or_self,
      Bool.false_eq_true, if_false]

end Sys2Proof.Machine
end

section
/-! The Teasel command (R158, R160, R168, R169): what it does in its clusters, and how it ends where a check fails. -/
namespace Sys2Proof.Machine
open Sys2Proof

/-! ### Under way -/

theorem failIf_eq_of_ne_zero {bad : Bool} {status : Nat} (h : failIf bad status ≠ 0) : failIf bad status = status := by
  cases bad
  · exact absurd rfl h
  · rfl

section
variable {q : Qn} {seq : Word64} {f : Flight} {s : State} {op : Nat} {ready : List Nat → State → Bool}
  {run : TslCtx → Nat → State → TslRes}

/-- A command that may run and whose slots are ready runs in the clusters it names. -/
theorem teaselOp_of_teaselRuns (h : s.teaselRuns q seq op f) (hready : ready (s.tslNamed q seq f) s = true) :
    Host.Outcome.next (teaselOp q seq.toNat op s ready run) = s.teaselEnd q seq f run := by
  obtain ⟨hrun, hop, hlane, hearly, hclusters⟩ := h
  rw [teaselOp, withFlight_of_runs hrun]
  dsimp only
  rw [if_neg (by rw [hop]; simpa [State.tslNamed] using fun _ => hlane), hearly, if_neg (by decide), if_neg (by decide)]
  generalize checkClusters q seq.toNat (byteAt (dBody f.desc) 2) (byteAt (dBody f.desc) 3) s = r at hclusters
  obtain ⟨st, t⟩ := r
  obtain rfl : st = 0 := hclusters
  exact congrArg Host.Outcome.next (if_neg (by simpa [State.tslNamed] using hready))

/-- A command whose turn it is and whose body or regions fail a check ends with its status (R160; log entry 63). -/
theorem teaselOp_of_tslEarly {st : Nat} (h : s.runs q seq 0x30 f)
    (hturn : zOp (dBody f.desc) ≤ 10 →
      zOp (dBody f.desc) = op ∧ laneAhead q f.order (decide (9 ≤ op)) (s.tslNamed q seq f) s = false)
    (hst : tslEarly q seq.toNat (dBody f.desc) s = st) (h0 : st ≠ 0) (h3 : st ≠ 3) :
    Host.Outcome.next (teaselOp q seq.toNat op s ready run) = s.endsWith q seq st 0 := by
  have hgo : ¬ (zOp (dBody f.desc) ≤ 10 ∧ (zOp (dBody f.desc) ≠ op ∨
      laneAhead q f.order (decide (9 ≤ op)) (s.tslNamed q seq f) s = true)) := by
    rintro ⟨hle, hne | hlane⟩
    · exact hne (hturn hle).1
    · rw [(hturn hle).2] at hlane; cases hlane
  rw [teaselOp, withFlight_of_runs h]
  exact congrArg Host.Outcome.next ((if_neg hgo).trans (by rw [hst, if_neg h3, if_pos h0]))

/-- A body that breaks a check is invalid whatever else fails. -/
theorem checkTeasel_eq_one {b : List Byte} (h : checkTeasel b s ≠ 0) : checkTeasel b s = 1 := failIf_eq_of_ne_zero h

theorem tslEarly_of_checkTeasel {q seq : Nat} {b : List Byte} (h : checkTeasel b s ≠ 0) : tslEarly q seq b s = 1 := by
  rw [tslEarly, if_pos h, checkTeasel_eq_one h]

/-- OP 11 to 15 are reserved (R158). -/
theorem checkTeasel_of_reserved {b : List Byte} (h : 10 < zOp b) : checkTeasel b s ≠ 0 := by
  simp [checkTeasel, failIf, h]

theorem tslEarly_of_regionsBad {q seq : Nat} {b : List Byte} (hb : checkTeasel b s = 0) (hn : zNSrc b = false)
    (hbad : regionsBad b (zN b) = true) : tslEarly q seq b s = 1 := by
  simp [tslEarly, tslBound, hb, hn, hbad]

end

/-! ### In one cluster -/

section
variable {q : Qn} {seq : Word64} {f : Flight} {d c n : Nat} {run : TslCtx → Nat → State → TslRes} {s s1 : State}

theorem TslCtx.leaves_st (x : TslCtx) (s : State) (r : TslRes) : (x.leaves s r).st = r.st := by
  unfold TslCtx.leaves
  split <;> rfl

theorem tslContext_map_isSome : (tslContext q seq f d c s).map.isSome = (zMap (dBody f.desc) && decide (zOp (dBody f.desc) ≤ 8)) := by
  simp only [tslContext]
  split <;> simp [*]


/-- With a legal N, regions and map the operation runs, counted on the programmable counters, and its result is recorded. -/
theorem tslCluster_of_legal (hn : tslCount (tslContext q seq f d c s) s = (some n, s1))
    (hbound : tslBound (dBody f.desc) n (s.sramWindow q seq.toNat d).2 = 0)
    (hmap : (tslContext q seq f d c s).map.isSome = true → (s.slot d c (zSlot (dBody f.desc))).defined = true) :
    let x := tslContext q seq f d c s
    let r := run x n (pmcCount d 3 x.part n s1)
    tslCluster q seq.toNat f d c run s = (r.st, settleTsl x q
      (if x.map.isSome then f.epochOf (slotTable d c (zSlot (dBody f.desc))) else 0)
      (recordFits (dBody f.desc) (some n) (s.sramWindow q seq.toNat d).2) (x.leaves s1 r)) := by
  intro x r
  rw [tslContext_map_isSome] at hmap
  have hok : ¬ (0 = 1 ∨ (zMap (dBody f.desc) && decide (zOp (dBody f.desc) ≤ 8)) = true
      ∧ (s.slot d c (zSlot (dBody f.desc))).defined = false) := by
    rintro (h | ⟨hm, hdef⟩)
    · cases h
    · rw [hmap hm] at hdef; cases hdef
  rw [show x.map.isSome = _ from tslContext_map_isSome, ← TslCtx.leaves_st x s1 r]
  unfold r x
  simp only [tslContext] at hn ⊢
  simp only [tslCluster, hn, if_neg hok, hbound, OfNat.zero_ne_ofNat, if_false]

/-- Where N cannot be read the operation does not run (R158, R168). -/
theorem tslCluster_of_unread (hn : tslCount (tslContext q seq f d c s) s = (none, s1)) :
    let x := tslContext q seq f d c s
    tslCluster q seq.toNat f d c run s = (0x30, settleTsl x q
      (if x.map.isSome then f.epochOf (slotTable d c (zSlot (dBody f.desc))) else 0)
      (recordFits (dBody f.desc) none (s.sramWindow q seq.toNat d).2) { st := 0x30, s := s1 }) := by
  intro x
  rw [show x.map.isSome = _ from tslContext_map_isSome]
  unfold x
  simp only [tslContext] at hn ⊢
  simp only [tslCluster, hn]

end

/-- A TBLWRITE finds its command under way. -/
theorem tblwrite_of_runs {q : Qn} {seq : Word64} {f : Flight} {s : State} (h : s.runs q seq 0x30 f) : tblwrite q seq.toNat s =
    teaselOp q seq.toNat 10 s (tblwriteReady (s.queue q).die (zSlot (dBody f.desc))) tblwriteRun := by
  obtain ⟨-, hf, -, -⟩ := h
  rw [tblwrite, hf]

/-- Settles O24: the command by its checks, each cluster by its N, regions and map. That a failure before any cluster starts writes no
result record is the model's choice (log entry 63). -/
theorem teaselOperationsRunInEveryNamedCluster : Obligations.TeaselOperationsRunInEveryNamedCluster := by
  refine ⟨fun q seq s f => ⟨fun h => teaselOp_of_teaselRuns h rfl, fun h => teaselOp_of_teaselRuns h rfl,
    fun h => teaselOp_of_teaselRuns h rfl, fun h => teaselOp_of_teaselRuns h rfl, fun h => teaselOp_of_teaselRuns h rfl,
    fun h => teaselOp_of_teaselRuns h rfl, fun h => teaselOp_of_teaselRuns h rfl, fun h => teaselOp_of_teaselRuns h rfl,
    fun h => teaselOp_of_teaselRuns h rfl, ⟨fun h hfree => ?_, fun h hfree => ?_⟩, fun hrun hop hlane => ⟨fun hbad => ?_,
    fun hbody hn hbad => ?_⟩, fun hrun hop => ?_⟩,
    fun q seq f d c n run s s1 => ⟨tslCluster_of_legal, tslCluster_of_unread⟩⟩
  · obtain ⟨-, hf, -, -⟩ := h.1
    simp only [exec, execTbldef, hf]
    exact teaselOp_of_teaselRuns h (by simpa [tbldefReady] using hfree)
  · rw [exec, execTblwrite, tblwrite_of_runs h.1]
    refine teaselOp_of_teaselRuns h ?_
    simp only [tblwriteReady, List.all_eq_true, Bool.not_eq_true']
    intro c hc
    simp [slotBlocked, hfree c hc]
  · rw [checkTeasel_eq_one hbad]
    exact teaselOp_of_tslEarly hrun (fun _ => ⟨hop, hlane⟩) (tslEarly_of_checkTeasel hbad) one_ne_zero (by decide)
  · exact teaselOp_of_tslEarly hrun (fun _ => ⟨hop, hlane⟩) (tslEarly_of_regionsBad hbody hn hbad) one_ne_zero (by decide)
  · exact teaselOp_of_tslEarly hrun (fun hle => absurd hop (by omega)) (tslEarly_of_checkTeasel (checkTeasel_of_reserved hop))
      one_ne_zero (by decide)

end Sys2Proof.Machine
end

section
/-! What events and accesses to HBM leave as it was: all but the registers, HBM, the host port, Betony's part, the store, the progress of
bring-up with its health record, and the pins. -/
namespace Sys2Proof.Machine
open Sys2Proof

/-- A state without the parts that events and accesses to HBM change. -/
def State.unheard (s : State) : State :=
  { s with regs := State.reset.regs, hbm := State.reset.hbm, host := State.reset.host, mgt := State.reset.mgt,
           store := State.reset.store, boot := State.reset.boot, pins := State.reset.pins }

/-- From `s` to `t` nothing changes but what events and accesses to HBM change. -/
structure Hears (s t : State) : Prop where
  same : t.unheard = s.unheard

namespace Hears
variable {s0 s : State}

theorem refl (s : State) : Hears s s := ⟨rfl⟩

theorem banks {t : State} (h : Hears s t) : t.banks = s.banks := (congrArg State.banks h.same : t.unheard.banks = s.unheard.banks)

/-! Parts of the state that are not kept -/

theorem withRegs (h : Hears s0 s) (x) : Hears s0 { s with regs := x } := ⟨h.same⟩
theorem withHbm (h : Hears s0 s) (x) : Hears s0 { s with hbm := x } := ⟨h.same⟩
theorem withHost (h : Hears s0 s) (x) : Hears s0 { s with host := x } := ⟨h.same⟩
theorem withMgt (h : Hears s0 s) (x) : Hears s0 { s with mgt := x } := ⟨h.same⟩
theorem withStore (h : Hears s0 s) (x) : Hears s0 { s with store := x } := ⟨h.same⟩
theorem withBoot (h : Hears s0 s) (x) : Hears s0 { s with boot := x } := ⟨h.same⟩
theorem withPins (h : Hears s0 s) (x) : Hears s0 { s with pins := x } := ⟨h.same⟩

theorem setRegN (h : Hears s0 s) (off v : Nat) : Hears s0 (s.setRegN off v) := h.withRegs _
theorem setRfld (h : Hears s0 s) (off hi lo v : Nat) : Hears s0 (s.setRfld off hi lo v) := h.withRegs _
theorem setFn (h : Hears s0 s) (f : Nat) (x : Fn) : Hears s0 (s.setFn f x) := h.withHost _
theorem setAlarm (h : Hears s0 s) (k : Nat) (a : Alarm) : Hears s0 (s.setAlarm k a) := h.withMgt _
theorem setStack (h : Hears s0 s) (m : Nat) (x : Stack) : Hears s0 (s.setStack m x) := h.withHbm _
theorem hbmPut (h : Hears s0 s) (pa : Nat) (bs : List Byte) : Hears s0 (s.hbmPut pa bs) := h.withHbm _
theorem hbmPut2 (h : Hears s0 s) (pa m : Nat) (bs : List Byte) : Hears s0 (s.hbmPut2 pa m bs) := (h.hbmPut _ _).hbmPut _ _
theorem sendInterrupt (h : Hears s0 s) (f v : Nat) : Hears s0 (sendInterrupt f v s) := (h.withHost _).withHost _

theorem ite {c : Prop} [Decidable c] {t : State} (ht : c → Hears s0 s) (hf : ¬c → Hears s0 t) : Hears s0 (if c then s else t) := by
  split
  · exact ht ‹_›
  · exact hf ‹_›

theorem foldl {β : Type} {g : State → β → State} (hg : ∀ s b, Hears s0 s → Hears s0 (g s b)) :
    ∀ (l : List β) {s : State}, Hears s0 s → Hears s0 (l.foldl g s)
  | [], _, h => h
  | b :: l, s, h => foldl hg l (hg s b h)

theorem bump (h : Hears s0 s) (off n : Nat) : Hears s0 (bump off n s) := by
  rw [Machine.bump, bumpKey_rest]
  exact (h.withRegs _).withMgt _

theorem pmcCount (h : Hears s0 s) (d ev : Nat) (p : Option Nat) (n : Nat) : Hears s0 (pmcCount d ev p n s) :=
  foldl (fun _ _ h => .ite (fun _ => h.bump _ _) fun _ => h) _ h

/-! ### Events, given how their ring records are written -/

/-- A way of writing ring records that is no more than an access to memory. -/
def Put (put : RingWriter) : Prop :=
  ∀ (s0 s t : State) (f d : Nat) (hbm : Bool) (a : Nat) (bs : List Byte), Hears s0 s → put f d hbm a bs s = some t → Hears s0 t

theorem put_hostWriter : Put hostWriter := by
  rintro s0 s t f d hbm a bs h ht
  obtain rfl := Option.some.inj ht
  exact .ite (fun _ => h) fun _ => h.withHost _

section
variable {put : RingWriter} (hput : Put put)
include hput

theorem assignBy (h : Hears s0 s) (f : Nat) (ev : Ev) (src : Nat) : Hears s0 (assignBy put f ev src s) := by
  unfold Machine.assignBy
  refine .ite (fun _ => .ite (fun _ => ?_) fun _ => h.setFn _ _) fun _ => h.setFn _ _
  split
  · next ht => exact (hput _ _ _ _ _ _ _ _ (h.setFn _ _) ht).sendInterrupt _ _
  · exact h.setFn _ _

theorem announceBy (h : Hears s0 s) (f : Nat) : Hears s0 (announceBy put f s) :=
  .ite (fun _ => h) fun _ => (h.setFn _ _).assignBy hput _ _ _

theorem postBy (h : Hears s0 s) (f : Nat) (ev : Ev) : Hears s0 (postBy put f ev s) := by
  unfold Machine.postBy
  have hp (k : Nat) := (h.announceBy hput f).assignBy hput f ev k
  dsimp only
  split
  · exact .ite (fun _ => h.withHost _) fun _ => .ite (fun _ => (hp _).withHost _) fun _ => hp _
  · exact .ite (fun _ => (hp _).withHost _) fun _ => hp _

omit hput in
theorem pushLog (h : Hears s0 s) (r : LogRec) : Hears s0 (pushLog r s) :=
  .ite (fun _ => ((h.setRegN _ _).bump _ _).withMgt _) fun _ =>
    .ite (fun _ => (h.setRegN _ _).withMgt _) fun _ => ((h.setRegN _ _).withMgt _).postBy put_hostWriter _ _

omit hput in
theorem requestIbi (h : Hears s0 s) (k : Nat) : Hears s0 (requestIbi k s) := .ite (fun _ => h.withMgt _) fun _ => h

theorem noticeBy (h : Hears s0 s) (ev : Ev) (n : Nat) (c : Bool) : Hears s0 (noticeBy put ev n c s) :=
  .ite (fun _ => h.setAlarm _ _) fun _ => ((h.pushLog _).announceBy hput _).assignBy hput _ _ _

theorem occurBy (h : Hears s0 s) (ev : Ev) : Hears s0 (occurBy put ev s) :=
  .ite (fun _ => h.setAlarm _ _) fun _ => ((((h.setAlarm _ _).noticeBy hput _ _ _).setRegN _ _).withPins _).requestIbi _

theorem raiseBy (h : Hears s0 s) (ev : Ev) : Hears s0 (raiseBy put ev s) := by
  unfold Machine.raiseBy
  have hl (r : LogRec) : Hears s0 (if ev.log then Machine.pushLog r s else s) := .ite (fun _ => h.pushLog r) fun _ => h
  extract_lets s1 s2
  have h2 : Hears s0 s2 := by
    unfold s2
    split
    · exact (hl _).postBy hput _ _
    · exact hl _
  exact .ite (fun _ => h2.occurBy hput _) fun _ => .ite (fun _ => h2.postBy hput _ _) fun _ => h2

end

/-! ### HBM below the commands -/

theorem addHealth (h : Hears s0 s) (e : HealthEntry) : Hears s0 (addHealth e s) := by
  unfold Machine.addHealth
  extract_lets _ s1
  have h1 : Hears s0 s1 := .ite (fun _ => h) fun _ => h.withBoot _
  clear_value s1
  exact .ite (fun _ => h1) fun _ => .ite (fun _ => h1.withStore _) fun _ => (h1.withBoot _).raiseBy put_hostWriter _

theorem errRecord (h : Hears s0 s) (kind pa n a b : Nat) : Hears s0 (errRecord kind pa n a b s) := by
  unfold Machine.errRecord Machine.errRecordAt
  refine .ite (fun _ => ((h.withHbm _).hbmPut2 _ _ _).hbmPut2 _ _ _) fun _ => ?_
  have h3 (x y : Nat) (z : HbmSt) (a m : Nat) (bs : List Byte) := (((h.setRegN x y).withHbm z).hbmPut2 a m bs)
  exact .ite (fun _ => h3 _ _ _ _ _ _) fun _ => (h3 _ _ _ _ _ _).raiseBy put_hostWriter _

theorem markRetire (h : Hears s0 s) (g pa : Nat) : Hears s0 (markRetire g pa s) := .ite (fun _ => h) fun _ => h.addHealth _

theorem countRow (h : Hears s0 s) (pa : Nat) : Hears s0 (countRow pa s) := by
  unfold Machine.countRow
  exact .ite (fun _ => (((h.withHbm _).setRfld _ _ _ _).addHealth _).errRecord _ _ _ _ _) fun _ => h.withHbm _

theorem correctBlock (h : Hears s0 s) (kind pa : Nat) (fix : List (Nat × Nat)) : Hears s0 (correctBlock kind pa fix s) :=
  (((h.bump _ _).withHbm _).errRecord _ _ _ _ _).countRow _

theorem loseBlock (h : Hears s0 s) (kind pa : Nat) : Hears s0 (loseBlock kind pa s) :=
  ((h.bump _ _).errRecord _ _ _ _ _).markRetire _ _

theorem readBlock (h : Hears s0 s) (pa : Nat) : Hears s0 (readBlock pa s).2 := by
  unfold Machine.readBlock
  dsimp only
  split
  · exact h
  · split
    · exact h
    · exact h.correctBlock _ _ _
    · exact h.loseBlock _ _

theorem blockStore (h : Hears s0 s) (pa : Nat) (bs : List Byte) : Hears s0 (blockStore pa bs s) :=
  .ite (fun _ => (h.hbmPut _ _).withHbm _) fun _ => h.hbmPut _ _

theorem blockWrite (h : Hears s0 s) (pa : Nat) (bs : List Byte) : Hears s0 (blockWrite pa bs s).2 := by
  have hr := h.readBlock pa
  unfold Machine.blockWrite
  split
  · exact h.blockStore _ _
  · split
    · next hb => rw [hb] at hr; exact hr.blockStore _ _
    · next hb => rw [hb] at hr; exact hr

theorem mirroredLine (h : Hears s0 s) (a : Nat) : Hears s0 (mirroredLine a s).2 := by
  have hb : Hears s0 (Machine.bump (ZG_HBM_UE (dieOf a)) 1 s) := h.bump _ _
  have repair {s : State} (h : Hears s0 s) (b : Nat) (bs : List Byte) :
      Hears s0 (Machine.errRecord 4 a 0 255 255 (Machine.blockStore b bs s)) := (h.blockStore _ _).errRecord _ _ _ _ _
  unfold Machine.mirroredLine
  split
  · exact h
  · exact h.correctBlock _ _ _
  · dsimp only
    split
    · exact repair hb _ _
    · exact repair (hb.correctBlock _ _ _) _ _
    · exact hb.bump _ _

theorem loseLine (h : Hears s0 s) (key a : Nat) (gs : List Nat) : Hears s0 (loseLine key a gs s) :=
  .ite (fun _ => h) fun _ => foldl (fun _ _ h => h.markRetire _ _) _ ((h.withHbm _).errRecord _ _ _ _ _)

theorem frameLine (h : Hears s0 s) (g : Nat) : Hears s0 (frameLine g s).2 := by
  have hm := h.mirroredLine (frameAddr (g / 131072) (g % 131072))
  unfold Machine.frameLine
  split
  · exact h
  · split
    · exact h
    · dsimp only
      split
      · next hb => rw [hb] at hm; exact hm
      · next hb => rw [hb] at hm; exact hm.loseLine _ _ _

theorem writeMapLine (h : Hears s0 s) (g : Nat) : Hears s0 (writeMapLine g s) := by
  unfold Machine.writeMapLine
  exact (h.blockStore _ _).blockStore _ _

theorem trimCache (h : Hears s0 s) : Hears s0 (trimCache s) := by
  unfold Machine.trimCache
  split
  · exact .ite (fun _ => .ite (fun _ => (h.withHbm _).writeMapLine _) fun _ => h.withHbm _) fun _ => h
  · exact h

theorem holdLine (h : Hears s0 s) (g : Nat) (c : Bool) : Hears s0 (holdLine g c s) := by
  unfold Machine.holdLine
  dsimp only
  split
  · exact .ite (fun _ => (h.withHbm _).trimCache) fun _ => h.withHbm _
  · exact h.withHbm _

theorem consultMap (h : Hears s0 s) (g : Nat) : Hears s0 (consultMap g s).2 := by
  unfold Machine.consultMap
  split
  · exact h
  · split
    · exact h
    · split
      · exact h
      · extract_lets s1
        have h1 : Hears s0 s1 := h.pmcCount _ _ _ _
        clear_value s1
        have hm := h1.mirroredLine (mapLineAddr g)
        split
        · exact h1.holdLine _ _
        · split
          · next hb => rw [hb] at hm; exact hm.holdLine _ _
          · next hb => rw [hb] at hm; exact hm.loseLine _ _ _

theorem materialise (h : Hears s0 s) (pa : Nat) : Hears s0 (materialise pa s) := by
  unfold Machine.materialise
  exact .ite (fun _ => h) fun _ => .ite (fun _ => ((h.withHbm _).hbmPut2 _ _ _).withHbm _) fun _ => (h.withHbm _).hbmPut2 _ _ _

/-! ### Accesses -/

/-- What an access leaves, however it ends. -/
def Acc (s0 : State) {α : Type} : Machine.Acc α → Prop
  | .ok _ s => Hears s0 s
  | .fault _ _ s => Hears s0 s
  | .wait _ _ s => Hears s0 s

theorem Acc.bind {α β : Type} {x : Machine.Acc α} {g : α → State → Machine.Acc β} (hx : Acc s0 x)
    (hg : ∀ a s, Hears s0 s → Acc s0 (g a s)) : Acc s0 (x.bind g) := by
  cases x with
  | ok a s => exact hg a s hx
  | fault k va s => exact hx
  | wait m va s => exact hx

theorem readTables : ∀ (as : List Nat) {s : State}, Hears s0 s → Hears s0 (readTables as s).2
  | [], _, h => h
  | a :: as, s, h => by
    have hr := h.readBlock a
    unfold Machine.readTables
    split
    · next hb => rw [hb] at hr; exact readTables as hr
    · next hb => rw [hb] at hr; exact hr

theorem lookUp (h : Hears s0 s) (rq : Req) (va : Nat) : Acc s0 (lookUp rq va s) := by
  have ht := readTables (walkReads s rq.part rq.bank va) (h.pmcCount rq.die 0x0A none 1)
  unfold Machine.lookUp
  dsimp only
  split
  · exact h
  · split
    · split <;> exact h
    · split
      · next hb => rw [hb] at ht; exact ht
      · next s1 hb =>
        rw [hb] at ht
        split
        · exact ht
        · next pa _ _ =>
          have hf := frameLine ht (frameNo pa)
          split
          · next hb => rw [hb] at hf; exact hf
          · next hb =>
            rw [hb] at hf
            split
            · exact hf.withHbm _
            · exact hf

theorem translate (h : Hears s0 s) (rq : Req) (va : Nat) (wr : Bool) : Acc s0 (translate rq va wr s) := by
  refine Acc.bind (h.lookUp rq va) fun x s h => ?_
  have henter (m : Nat) : Hears s0 (enterStack rq m s) := .ite (fun _ => (h.setStack _ _).withHbm _) fun _ => h
  dsimp only
  split
  · exact h
  · split
    · exact h
    · split
      · exact h
      · exact h
      · split
        · exact henter _
        · exact h

theorem vaWritePart (h : Hears s0 s) (rq : Req) (va : Nat) (bs : List Byte) : Acc s0 (vaWritePart rq va bs s) := by
  refine Acc.bind (h.translate rq va true) fun pa s h => ?_
  have hc := h.consultMap (frameNo pa)
  split
  · next hb => rw [hb] at hc; exact hc
  · next s1 hb =>
    rw [hb] at hc
    have hw := ((hc.pmcCount rq.die 5 (some rq.part) 1).materialise pa).blockWrite pa bs
    split
    · next hb => rw [hb] at hw; exact hw
    · next hb => rw [hb] at hw; exact hw

theorem vaWriteN (rq : Req) : ∀ (k va : Nat) (bs : List Byte) {s : State}, Hears s0 s → Acc s0 (vaWriteN rq k va bs s)
  | 0, _, _, _, h => h
  | k + 1, va, bs, s, h => by
    unfold Machine.vaWriteN
    split
    · exact h
    · exact Acc.bind (h.vaWritePart rq _ _) fun _ _ h => vaWriteN rq k _ _ h

/-! ### Events as they are raised -/

theorem logRegister (h : Hears s0 s) (a b c d n : Nat) : Hears s0 (logRegister a b c d n s) := h.pushLog _

theorem put_ringWrite : Put ringWrite := by
  rintro s0 s t f d hbm a bs h ht
  have hw : Acc s0 (vaWrite (s.ringReq f d) a bs s) := vaWriteN _ _ _ _ h
  unfold ringWrite at ht
  split at ht
  · exact put_hostWriter _ _ _ _ _ _ _ _ h ht
  · dsimp only at ht
    split at ht
    · next hb => rw [hb] at hw; obtain rfl := Option.some.inj ht; exact hw
    · exact absurd ht (by simp)
    · next hb =>
      rw [hb] at hw
      split at ht
      · exact absurd ht (by simp)
      · obtain rfl := Option.some.inj ht
        exact .ite (fun _ => (((hw.setRegN _ _).setRegN _ _).bump _ _).logRegister _ _ _ _ _) fun _ => hw

theorem raiseEvent (h : Hears s0 s) (ev : Ev) : Hears s0 (raiseEvent ev s) := h.raiseBy put_ringWrite _

end Hears

end Sys2Proof.Machine
end

section
/-! Flips, copy-backs and shadow writes of the banked tables (R171 to R175, R180, R181). -/
namespace Sys2Proof.Machine
open Sys2Proof

/-! ### Refusals -/

theorem Hears.tslFail {s0 s : State} (h : Hears s0 s) (d c op kind q : Nat) (part : Option Nat) :
    Hears s0 (tslFail d c op kind q part s) := ((h.setRegN _ _).logRegister _ _ _ _ _).raiseEvent _

theorem refuseFlip_banks (d c kind q : Nat) (s : State) : (refuseFlip d c kind q s).banks = s.banks :=
  (Hears.tslFail (.ite (fun _ => .refl s) fun _ => (Hears.refl s).bump _ _) ..).banks

theorem checkClusters_banks (q seq first count : Nat) (s : State) : (checkClusters q seq first count s).2.banks = s.banks := by
  unfold checkClusters
  dsimp only
  split
  · rfl
  · split
    · exact ((((Hears.refl s).bump _ _).raiseEvent _).raiseEvent _).banks
    · split <;> rfl

/-! ### One slot flips -/

theorem slotTable_inj {d c c' k k' : Nat} (hk : k < 16) (hk' : k' < 16) : slotTable d c k = slotTable d c' k' ↔ c = c' ∧ k = k' := by
  simp only [slotTable]
  omega

/-- A slot that a flip with COPYBACK leaves, to be copied back for the command that made the flip (R175). -/
def TslSlot.asked (x : TslSlot) (q : Nat) (part : Option Nat) (order : Nat) : TslSlot :=
  { x with copyBy := some { queue := q, part := part, order := order } }

section
variable {q order d c k : Nat} {copy : Bool} {s : State}

theorem flipSlot_rest (q order d c k : Nat) (copy : Bool) (s : State) :
    { flipSlot q order d c k copy s with banks := s.banks, clu := s.clu } = s := by
  cases copy <;> rfl

theorem flipSlot_banks (q order d c k : Nat) (copy : Bool) (s : State) : (flipSlot q order d c k copy s).banks =
    cset {} s.banks (slotTable d c k) ((s.bank (slotTable d c k)).flip copy) := by
  cases copy <;> rfl

theorem flipSlot_clu_of_no_copy (q order d c k : Nat) (s : State) : (flipSlot q order d c k false s).clu = s.clu := rfl

theorem flipSlot_bank (h : cwf {} s.banks = true) (t : Nat) : (flipSlot q order d c k copy s).bank t =
    if t = slotTable d c k then (s.bank (slotTable d c k)).flip copy else s.bank t := by
  rw [State.bank, flipSlot_banks, cget_cset h]
  rfl

theorem flipSlot_clus_cwf (h : cwf {} s.clu.cl = true) : cwf {} (flipSlot q order d c k copy s).clu.cl = true := by
  cases copy
  · exact h
  · exact cwf_cset _ _ h

theorem flipSlot_slot (h : cwf {} s.clu.cl = true) (c' k' : Nat) : (flipSlot q order d c k true s).slot d c' k' =
    if c' = c ∧ k' = k then (s.slot d c k).asked q (s.queuePart q) order else s.slot d c' k' := by
  have hclus : (flipSlot q order d c k true s).clus d c' = if d * 64 + c' = d * 64 + c then
      { s.clus d c with slots := cset {} (s.clus d c).slots k ((s.slot d c k).asked q (s.queuePart q) order) } else s.clus d c' :=
    cget_cset h _ _ _
  rw [State.slot, hclus]
  by_cases hc : c' = c
  · subst hc
    rw [if_pos rfl]
    by_cases hk : k' = k
    · subst hk
      rw [if_pos ⟨rfl, rfl⟩, cget_cset_listed _ _ _ (by simp [TslSlot.asked])]
    · rw [if_neg (fun h => hk h.2), cget_cset_listed_ne _ _ (by simp [TslSlot.asked]) hk]
      rfl
  · rw [if_neg (by omega), if_neg (fun h => hc h.1)]
    rfl

end

/-! ### Every named slot flips -/

/-- The slots of a list flip one after another (R174). -/
def flipAll (q order d : Nat) (copy : Bool) (all : List (Nat × Nat)) (s : State) : State :=
  all.foldl (fun s p => flipSlot q order d p.1 p.2 copy s) s

section
variable {q order d : Nat} {copy : Bool} {all : List (Nat × Nat)} {s : State}

theorem flipAll_rest (all : List (Nat × Nat)) (s : State) : { flipAll q order d copy all s with banks := s.banks, clu := s.clu } = s := by
  induction all generalizing s with
  | nil => rfl
  | cons p all ih =>
    have h1 := congrArg (fun t : State => { t with banks := s.banks, clu := s.clu }) (ih (flipSlot q order d p.1 p.2 copy s))
    exact h1.trans (flipSlot_rest ..)

theorem flipAll_clu_of_no_copy (all : List (Nat × Nat)) (s : State) : (flipAll q order d false all s).clu = s.clu := by
  induction all generalizing s with
  | nil => rfl
  | cons p all ih => exact (ih _).trans (flipSlot_clu_of_no_copy ..)

theorem flipAll_bank_other (h : cwf {} s.banks = true) {t : Nat} (ht : t ∉ all.map fun p => slotTable d p.1 p.2) :
    (flipAll q order d copy all s).bank t = s.bank t := by
  induction all generalizing s with
  | nil => rfl
  | cons p all ih =>
    rw [List.map_cons, List.mem_cons, not_or] at ht
    exact (ih (flipSlot_banks .. ▸ cwf_cset _ _ h) ht.2).trans ((flipSlot_bank h t).trans (if_neg ht.1))

theorem flipAll_bank (h : cwf {} s.banks = true) (hall : (all.map fun p => slotTable d p.1 p.2).Nodup) {p : Nat × Nat} (hp : p ∈ all) :
    (flipAll q order d copy all s).bank (slotTable d p.1 p.2) = (s.bank (slotTable d p.1 p.2)).flip copy := by
  induction all generalizing s with
  | nil => cases hp
  | cons p' all ih =>
    rw [List.map_cons, List.nodup_cons] at hall
    have h1 : cwf {} (flipSlot q order d p'.1 p'.2 copy s).banks = true := flipSlot_banks .. ▸ cwf_cset _ _ h
    rcases List.mem_cons.1 hp with rfl | hp
    · exact (flipAll_bank_other h1 hall.1).trans ((flipSlot_bank h _).trans (if_pos rfl))
    · have hne : slotTable d p.1 p.2 ≠ slotTable d p'.1 p'.2 := fun he => hall.1 (he ▸ List.mem_map_of_mem hp)
      exact (ih h1 hall.2 hp).trans (congrArg (·.flip copy) ((flipSlot_bank h _).trans (if_neg hne)))

theorem flipAll_slot_other (h : cwf {} s.clu.cl = true) {p : Nat × Nat} (hp : p ∉ all) :
    (flipAll q order d true all s).slot d p.1 p.2 = s.slot d p.1 p.2 := by
  induction all generalizing s with
  | nil => rfl
  | cons p' all ih =>
    rw [List.mem_cons, not_or] at hp
    exact (ih (flipSlot_clus_cwf h) hp.2).trans ((flipSlot_slot h _ _).trans (if_neg fun he => hp.1 (Prod.ext he.1 he.2)))

theorem flipAll_slot (h : cwf {} s.clu.cl = true) (hall : all.Nodup) {p : Nat × Nat} (hp : p ∈ all) :
    (flipAll q order d true all s).slot d p.1 p.2 = (s.slot d p.1 p.2).asked q (s.queuePart q) order := by
  induction all generalizing s with
  | nil => cases hp
  | cons p' all ih =>
    rw [List.nodup_cons] at hall
    rcases List.mem_cons.1 hp with rfl | hp
    · exact (flipAll_slot_other (flipSlot_clus_cwf h) hall.1).trans ((flipSlot_slot h _ _).trans (if_pos ⟨rfl, rfl⟩))
    · have hne : ¬ (p.1 = p'.1 ∧ p.2 = p'.2) := fun he => hall.1 (Prod.ext he.1 he.2 ▸ hp)
      have ih := ih (s := flipSlot q order d p'.1 p'.2 true s) (flipSlot_clus_cwf h) hall.2 hp
      rw [flipSlot_slot h, if_neg hne] at ih
      exact ih

end

/-! ### The slots that a flip names -/

theorem cmdClusters_nodup (q seq first count : Nat) (s : State) : (s.cmdClusters q seq first count).Nodup := by
  unfold State.cmdClusters
  split
  · next lent hl =>
    have hlent : lent.Nodup := by
      unfold State.unitLoan at hl
      split at hl
      · split at hl
        · exact Option.some.inj hl ▸ List.nodup_range.filter _
        · cases hl
      · cases hl
    exact hlent.sublist ((List.take_sublist _ _).trans (List.drop_sublist _ _))
  · exact List.nodup_range.map fun _ _ h => Nat.add_left_cancel h

/-- The slots of the mask `m` in each of some clusters, as pairs of cluster and slot (R180). -/
def namedSlots (cs : List Nat) (m : Nat) : List (Nat × Nat) :=
  (cs.map fun c => ((List.range 16).filter fun k => bitOf m k).map fun k => (c, k)).flatten

theorem namedSlots_nodup {cs : List Nat} (h : cs.Nodup) (m : Nat) : (namedSlots cs m).Nodup :=
  h.product (List.nodup_range.filter _)

theorem namedSlots_tables_nodup {cs : List Nat} (h : cs.Nodup) (d m : Nat) :
    ((namedSlots cs m).map fun p => slotTable d p.1 p.2).Nodup := by
  have hlt {p : Nat × Nat} (hp : p ∈ namedSlots cs m) : p.2 < 16 := by
    obtain ⟨l, hl, hp⟩ := List.mem_flatten.1 hp
    obtain ⟨c, -, rfl⟩ := List.mem_map.1 hl
    obtain ⟨k, hk, rfl⟩ := List.mem_map.1 hp
    exact List.mem_range.1 (List.mem_filter.1 hk).1
  refine (namedSlots_nodup h m).map_on fun p hp p' hp' he => ?_
  exact Prod.ext_iff.2 ((slotTable_inj (hlt hp) (hlt hp')).1 he)

end Sys2Proof.Machine
end

section
/-! The commands TEASEL_FLIP, BANKED_COPYBACK and BANKED_SHADOW_WRITE by their conditions (R173 to R175, R180, R181). -/
namespace Sys2Proof.Machine
open Sys2Proof

/-- The stores of the banked tables. -/
theorem banks_of_canonical {s : State} (h : s.canonical = true) : cwf {} s.banks = true := by
  simp only [State.canonical, Bool.and_eq_true] at h
  tauto

/-! ### Flips -/

/-- What every flip does that finds its slots in order (R174, R175). -/
theorem flipAll_namedSlots {q order d m : Nat} {copy : Bool} {cs : List Nat} {s : State} (hs : s.canonical = true) (hcs : cs.Nodup) :
    let t := flipAll q order d copy (namedSlots cs m) s
    { t with banks := s.banks, clu := s.clu } = s
    ∧ (∀ p ∈ namedSlots cs m, t.bank (slotTable d p.1 p.2) = (s.bank (slotTable d p.1 p.2)).flip copy)
    ∧ (∀ k, k ∉ (namedSlots cs m).map (fun p => slotTable d p.1 p.2) → t.bank k = s.bank k)
    ∧ (copy = false → t.clu = s.clu)
    ∧ (copy = true → ∀ p ∈ namedSlots cs m, t.slot d p.1 p.2 = (s.slot d p.1 p.2).asked q (s.queuePart q) order) := by
  refine ⟨flipAll_rest _ _, fun p hp => flipAll_bank (banks_of_canonical hs) (namedSlots_tables_nodup hcs d m) hp,
    fun k hk => flipAll_bank_other (banks_of_canonical hs) hk, ?_, ?_⟩
  · rintro rfl
    exact flipAll_clu_of_no_copy _ _
  · rintro rfl p hp
    exact flipAll_slot (clusters_of_canonical hs) (namedSlots_nodup hcs m) hp

/-! ### Copy-backs -/

/-- A copy that goes through makes the bytes at `dst` those at `src`, and changes no other byte (R175). -/
theorem sram_copied {d c src dst n u v : Nat} {p p' : Option Nat} {bs : List Byte} {s s1 s2 : State} (hs : s.canonical = true)
    (hw : cwf 0 (s.clus d c).sram = true) (hr : sramRead d c src n u p s = (some bs, s1))
    (hwr : sramWrite d c dst bs v p' s1 = (true, s2)) :
    (∀ i < n, cget 0 (s2.clus d c).sram (dst + i) = cget 0 (s.clus d c).sram (src + i))
    ∧ (∀ a, (a < dst ∨ dst + n ≤ a) → cget 0 (s2.clus d c).sram a = cget 0 (s.clus d c).sram a) := by
  obtain ⟨rfl, hc1, hkept⟩ := sramRead_some (clusters_of_canonical hs) hr
  rw [sramWrite_true hc1 hwr, hkept]
  have hget (a : Nat) := cget_csetList dst (cgetList 0 (s.clus d c).sram src n) a hw
  rw [length_cgetList] at hget
  refine ⟨fun i hi => ?_, fun a ha => ?_⟩
  · rw [hget, if_pos (by omega), Nat.add_sub_cancel_left]
    simp [cgetList, hi]
  · rw [hget, if_neg (by omega)]

/-! ### The plan's shadow write -/

theorem exec_shadowWrite_plan {s : State} (hplan : s.planned = true) (hb : s.betony = 1) :
    exec (.bankedShadowWrite .plan) s = .next (finishPlan s) := congrArg Host.Outcome.next (if_pos (by simp [hplan, hb]))

/-- A plan formed for the regions as they are, with another table than the active one, is written into the free shadow bank and flipped
(R173, R381). -/
theorem finishPlan_of_changed {s : State} {rs ds : List Nat} {via : Option Nat} (hform : s.wfn.forming = some (s.epochs, rs, ds, via))
    (hw : cwf 0 s.wfn.routes = true) (hnew : rs ≠ s.tableOf (s.bank routeTable).active ∨ via ≠ s.twinVia (s.bank routeTable).active)
    (hfree : (s.bank routeTable).writeBlocked = false) :
    ∃ t, finishPlan s = flipRoutes t ∧ t.wfn.forming = none ∧ t.wfn.formed = some s.epochs ∧ t.banks = s.banks
      ∧ ∀ i < rs.length, t.routeEntry (s.bank routeTable).shadow i = rs.getD i 0 := by
  have hnot : ¬ (rs = s.tableOf (s.bank routeTable).active ∧ via = s.twinVia (s.bank routeTable).active) := by tauto
  simp only [finishPlan, hform, hnot, hfree, ne_eq, not_true_eq_false, if_false, Bool.false_eq_true]
  refine ⟨_, rfl, rfl, rfl, rfl, fun i hi => (cget_csetList _ rs _ (cwf_cclear _ _ hw)).trans ?_⟩
  rw [if_pos (by omega), Nat.add_sub_cancel_left]

/-- Settles O27: a flip by its checks and then its slots together; a copy-back by COPY_PENDING and the readers of the shadow; a shadow
write as the command that waits does it. That a flip follows the flips dispatched before it and the background work of its queue is the
model's choice (log entry 63). -/
theorem flipsAndCopyBacksSwitchBanksInOneStep : Obligations.FlipsAndCopyBacksSwitchBanksInOneStep := by
  refine ⟨fun b copy => ⟨rfl, rfl, rfl, rfl, rfl⟩, fun q seq s f hrun => ?_, refuseFlip_banks, fun d c k s => ?_, fun p s => ?_,
    fun g s => ?_, fun q seq s f => ⟨fun h hfree => ?_, fun hf => ?_⟩, fun s => exec_shadowWrite_plan, fun s h => ?_,
    fun s rs ds via hplan hb hform hlen hw hnew hfree => ?_⟩
  · dsimp only
    refine ⟨fun hturn => ?_, fun hturn hbody => ?_, fun hturn hbody st t hcl hst => ⟨?_, ?_⟩, fun hturn hbody hcl => ?_⟩
    · simp only [exec, execTeaselFlip, withFlight_of_runs hrun, hturn, if_true]
    · simp only [exec, execTeaselFlip, withFlight_of_runs hrun, hturn, Bool.false_eq_true, if_false, if_pos hbody]
      rfl
    · obtain ⟨k, rfl⟩ := Nat.exists_eq_succ_of_ne_zero hst
      simp only [exec, execTeaselFlip, withFlight_of_runs hrun, hturn, hbody, hcl, Bool.false_eq_true, if_false, ne_eq, not_true_eq_false]
      rfl
    · exact (congrArg (fun r => r.2.banks) hcl).symm.trans (checkClusters_banks ..)
    · obtain ⟨t, hcl⟩ : ∃ t, checkClusters q seq.toNat (byteAt (dBody f.desc) 0) (byteAt (dBody f.desc) 1) s = (0, t) :=
        ⟨_, Prod.ext hcl rfl⟩
      simp only [exec, execTeaselFlip, withFlight_of_runs hrun, hturn, hbody, hcl, Bool.false_eq_true, if_false, ne_eq, not_true_eq_false]
      refine ⟨fun p hp => ?_, fun hdef p hp => ?_, fun hdef hepoch p hp => ?_, fun hdef hepoch hgood hpend => ?_,
        fun hdef hepoch hgood hs hd => ?_⟩
      · simp only [hp]; rfl
      · simp only [hdef, hp]; rfl
      · simp only [hdef, hepoch, hp]; rfl
      · have hbad := List.find?_eq_none.2 fun p hp => Bool.eq_false_iff.1 (hgood p hp)
        simp only [hdef, hepoch, hbad]
        exact congrArg Host.Outcome.next (if_pos (List.any_eq_true.2 hpend))
      · have hbad := List.find?_eq_none.2 fun p hp => Bool.eq_false_iff.1 (hgood p hp).1
        have hpend := List.any_eq_false.2 fun p hp => Bool.eq_false_iff.1 (hgood p hp).2
        simp only [hdef, hepoch, hbad, hpend, Bool.false_eq_true, if_false]
        exact ⟨_, rfl, flipAll_namedSlots hs (cmdClusters_nodup ..)⟩
  · refine ⟨fun h => ?_, fun hpend hgood hfree => ?_⟩
    · exact congrArg Host.Outcome.next (if_pos (by rcases h with h | h | h <;> simp [h]))
    simp only [exec, execBankedCopyback, slotCopyback, hpend, hgood, hfree, apply_ite Prod.fst, apply_ite Prod.snd, Bool.not_true,
      Bool.or_false, bne_self_eq_false, Bool.false_eq_true, if_false]
    refine ⟨fun s1 hr => ?_, fun bs s1 s2 hr => ⟨fun hw => ?_, fun hw => ⟨?_, fun hs hw0 => ?_⟩⟩⟩
    · simp only [hr]
    · simp only [hr, hw]
    · simp only [hr, hw]
    · exact sram_copied hs hw0 hr hw
  · refine ⟨fun hpend hfree => ?_, fun h => ?_⟩
    · exact congrArg Host.Outcome.next (if_neg (by simp [hpend, hfree]))
    · exact congrArg Host.Outcome.next (if_pos (by rcases h with h | h <;> simp [h]))
  · refine ⟨fun hpend hfree => ⟨_, congrArg Host.Outcome.next (if_neg (by simp [hpend, hfree])), ?_⟩, fun h => ?_⟩
    · by_cases ha : (s.bank (memberTable g.toNat)).active = 0 <;> simp [ha, Group.members]
    · exact congrArg Host.Outcome.next (if_pos (by rcases h with h | h <;> simp [h]))
  · obtain ⟨-, hf, hopc, -⟩ := h.1
    simp only [exec, execBankedShadowWrite, hf, hopc, tblwrite_of_runs h.1]
    exact teaselOp_of_teaselRuns h (by simpa [tblwriteReady] using hfree)
  · refine ⟨fun ho => ?_, fun ho => ?_, fun ho => ?_, fun ho => ?_, fun ho => ?_⟩ <;>
      simp only [exec, execBankedShadowWrite, hf, ho] <;> rfl
  · rcases h with h | h | h
    · exact congrArg Host.Outcome.next (if_neg (by simp [h]))
    · exact congrArg Host.Outcome.next (if_neg (by simp [h]))
    · simp only [exec, execBankedShadowWrite, finishPlan, h, ite_self]
  · obtain ⟨t, ht, hrest⟩ := finishPlan_of_changed hform hw hnew hfree
    exact ⟨t, (exec_shadowWrite_plan hplan hb).trans (congrArg _ ht), hrest⟩

end Sys2Proof.Machine
end

section
/-! What every operation of the model leaves canonical: the stores that `State.canonical` speaks of (log entry 3), and that it leaves the
waiting commands alone. `Canon π s` says both, and each operation has one lemma. -/
namespace Sys2Proof.Machine
set_option Elab.async false
open Sys2Proof

theorem cwf_csetStep {α : Type} [DecidableEq α] {d : α} : ∀ {m : List (Nat × α)} (a step : Nat) (vs : List α), cwf d m = true →
    cwf d (csetStep d m a step vs) = true
  | _, _, _, [], w => w
  | _, a, step, v :: vs, w => cwf_csetStep (a + step) step vs (cwf_cset a v w)

/-- State `s` stands in canonical form, and the commands `π` wait. -/
structure Canon (π : List Instr) (s : State) : Prop where
  waiting : s.pending = π
  regs : cwf 0 s.regs = true
  hbmBytes : cwf 0 s.hbm.bytes = true
  hostMem : cwf 0 s.host.mem = true
  pages : cwf 0 s.hbm.pt = true
  fns : cwf {} s.host.fns = true
  queues : cwf {} s.host.queues = true
  parts : cwf {} s.host.parts = true
  banks : cwf {} s.banks = true
  clusters : cwf {} s.clu.cl = true
  arrays : cwf {} s.tile.arrays = true
  finals : cwf [] s.tile.finals = true
  spills : cwf [] s.tile.spills = true

/-- The parts of a state that `Canon` speaks of. -/
def State.stores (s : State) :=
  (s.pending, s.regs, s.hbm.bytes, s.host.mem, s.hbm.pt, s.host.fns, s.host.queues, s.host.parts, s.banks, s.clu.cl, s.tile.arrays,
    s.tile.finals, s.tile.spills)

theorem canon_iff {π : List Instr} {s : State} : Canon π s ↔ s.canonical = true ∧ s.pending = π := by
  simp only [State.canonical, Bool.and_eq_true]
  constructor
  · rintro ⟨h0, h1, h2, h3, h4, h5, h6, h7, h8, h9, h10, h11, h12⟩
    exact ⟨⟨⟨⟨⟨⟨⟨⟨⟨⟨⟨⟨h1, h2⟩, h3⟩, h4⟩, h5⟩, h6⟩, h7⟩, h8⟩, h9⟩, h10⟩, h11⟩, h12⟩, h0⟩
  · rintro ⟨⟨⟨⟨⟨⟨⟨⟨⟨⟨⟨⟨h1, h2⟩, h3⟩, h4⟩, h5⟩, h6⟩, h7⟩, h8⟩, h9⟩, h10⟩, h11⟩, h12⟩, h0⟩
    exact ⟨h0, h1, h2, h3, h4, h5, h6, h7, h8, h9, h10, h11, h12⟩

/-- What `x` answers, if it goes on, is canonical, and `π` still waits. -/
def Canon.Goes (π : List Instr) : Out → Prop
  | .next t => Canon π t
  | _ => True

namespace Canon
variable {π : List Instr} {s t : State}

/-- A state with the same stores. -/
theorem same (h : Canon π s) (e : t.stores = s.stores := by rfl) : Canon π t := by
  simp only [State.stores, Prod.mk.injEq] at e
  obtain ⟨e0, e1, e2, e3, e4, e5, e6, e7, e8, e9, e10, e11, e12⟩ := e
  obtain ⟨h0, h1, h2, h3, h4, h5, h6, h7, h8, h9, h10, h11, h12⟩ := h
  exact ⟨e0 ▸ h0, e1 ▸ h1, e2 ▸ h2, e3 ▸ h3, e4 ▸ h4, e5 ▸ h5, e6 ▸ h6, e7 ▸ h7, e8 ▸ h8, e9 ▸ h9, e10 ▸ h10, e11 ▸ h11, e12 ▸ h12⟩

/-! ### Parts of the state without a store -/

theorem withTime (h : Canon π s) (x : TimeSt) : Canon π { s with time := x } := h.same
theorem withPower (h : Canon π s) (x : PowerSt) : Canon π { s with power := x } := h.same
theorem withMgt (h : Canon π s) (x : MgtSt) : Canon π { s with mgt := x } := h.same
theorem withFuses (h : Canon π s) (x : Fuses) : Canon π { s with fuses := x } := h.same
theorem withStore (h : Canon π s) (x : Store) : Canon π { s with store := x } := h.same
theorem withBoot (h : Canon π s) (x : BootSt) : Canon π { s with boot := x } := h.same
theorem withPins (h : Canon π s) (x : Pins) : Canon π { s with pins := x } := h.same
theorem withSyn (h : Canon π s) (x : SynSt) : Canon π { s with syn := x } := h.same
theorem withD2d (h : Canon π s) (x : D2dSt) : Canon π { s with d2d := x } := h.same
theorem withWfn (h : Canon π s) (x : WefinSt) : Canon π { s with wfn := x } := h.same
theorem withColl (h : Canon π s) (x : CollSt) : Canon π { s with coll := x } := h.same
theorem withInteg (h : Canon π s) (x : IntSt) : Canon π { s with integ := x } := h.same
theorem withTrn (h : Canon π s) (x : TrnSt) : Canon π { s with trn := x } := h.same
theorem withSrl (h : Canon π s) (x : List SrlDie) : Canon π { s with srl := x } := h.same
theorem withOpenCount (h : Canon π s) (x : Nat) : Canon π { s with openCount := x } := h.same

/-- Several parts at once. -/
theorem withRest (h : Canon π s) {time power mgt fuses store boot pins syn d2d wfn coll integ trn srl openCount} :
    Canon π { s with
      time := time, power := power, mgt := mgt, fuses := fuses, store := store, boot := boot, pins := pins, syn := syn,
      d2d := d2d, wfn := wfn, coll := coll, integ := integ, trn := trn, srl := srl, openCount := openCount } := h.same

/-! ### Parts with stores -/

/-- HBM beside its bytes and page tables. -/
theorem withHbm (h : Canon π s) (x : HbmSt) (hb : x.bytes = s.hbm.bytes := by rfl) (hp : x.pt = s.hbm.pt := by rfl) :
    Canon π { s with hbm := x } := { h with hbmBytes := hb ▸ h.hbmBytes, pages := hp ▸ h.pages }

/-- The host port beside its memory, functions, queues and partitions. -/
theorem withHost (h : Canon π s) (x : HostSt) (hm : x.mem = s.host.mem := by rfl) (hf : x.fns = s.host.fns := by rfl)
    (hq : x.queues = s.host.queues := by rfl) (hp : x.parts = s.host.parts := by rfl) : Canon π { s with host := x } :=
  { h with hostMem := hm ▸ h.hostMem, fns := hf ▸ h.fns, queues := hq ▸ h.queues, parts := hp ▸ h.parts }

/-- Clusters beside their table. -/
theorem withClu (h : Canon π s) (x : CluSt) (hc : x.cl = s.clu.cl := by rfl) : Canon π { s with clu := x } :=
  { h with clusters := hc ▸ h.clusters }

/-- Tile commands beside arrays and drains. -/
theorem withTile (h : Canon π s) (x : TileSt) (ha : x.arrays = s.tile.arrays := by rfl) (hf : x.finals = s.tile.finals := by rfl)
    (hs : x.spills = s.tile.spills := by rfl) : Canon π { s with tile := x } :=
  { h with arrays := ha ▸ h.arrays, finals := hf ▸ h.finals, spills := hs ▸ h.spills }

/-- Several parts at once, their stores as they are. -/
theorem withParts (h : Canon π s) {time power mgt fuses store boot pins syn d2d wfn coll integ trn srl openCount hbm host clu tile}
    (hb : hbm.bytes = s.hbm.bytes := by rfl) (hpt : hbm.pt = s.hbm.pt := by rfl) (hm : host.mem = s.host.mem := by rfl)
    (hf : host.fns = s.host.fns := by rfl) (hq : host.queues = s.host.queues := by rfl) (hp : host.parts = s.host.parts := by rfl)
    (hc : clu.cl = s.clu.cl := by rfl) (ha : tile.arrays = s.tile.arrays := by rfl) (hfi : tile.finals = s.tile.finals := by rfl)
    (hs : tile.spills = s.tile.spills := by rfl) :
    Canon π { s with
      time := time, power := power, mgt := mgt, fuses := fuses, store := store, boot := boot, pins := pins, syn := syn,
      d2d := d2d, wfn := wfn, coll := coll, integ := integ, trn := trn, srl := srl, openCount := openCount,
      hbm := hbm, host := host, clu := clu, tile := tile } :=
  { waiting := h.waiting, regs := h.regs, hbmBytes := hb ▸ h.hbmBytes, hostMem := hm ▸ h.hostMem, pages := hpt ▸ h.pages,
    fns := hf ▸ h.fns, queues := hq ▸ h.queues, parts := hp ▸ h.parts, banks := h.banks, clusters := hc ▸ h.clusters,
    arrays := ha ▸ h.arrays, finals := hfi ▸ h.finals, spills := hs ▸ h.spills }

theorem withRegs (h : Canon π s) {x : List (Nat × Word64)} (hx : cwf 0 x = true) : Canon π { s with regs := x } := { h with regs := hx }
theorem withBanks (h : Canon π s) {x : List (Nat × Banked)} (hx : cwf {} x = true) : Canon π { s with banks := x } :=
  { h with banks := hx }

/-- Other waiting commands. -/
theorem withPending (h : Canon π s) (σ : List Instr) : Canon σ { s with pending := σ } :=
  ⟨rfl, h.regs, h.hbmBytes, h.hostMem, h.pages, h.fns, h.queues, h.parts, h.banks, h.clusters, h.arrays, h.finals, h.spills⟩

/-! ### Branches and repetition -/

theorem ite {c : Prop} [Decidable c] (ht : c → Canon π s) (hf : ¬c → Canon π t) : Canon π (if c then s else t) := by
  split
  · exact ht ‹_›
  · exact hf ‹_›

theorem foldl {β : Type} {g : State → β → State} (hg : ∀ s b, Canon π s → Canon π (g s b)) :
    ∀ (l : List β) {s : State}, Canon π s → Canon π (l.foldl g s)
  | [], _, h => h
  | b :: l, s, h => foldl hg l (hg s b h)

theorem iter {g : State → State} (hg : ∀ s, Canon π s → Canon π (g s)) : ∀ (n : Nat) {s : State}, Canon π s → Canon π (iter g n s)
  | 0, _, h => h
  | n + 1, _, h => iter hg n (hg _ h)

/-- The state that comes second in an answer. -/
theorem snd {α : Type} {x : α × State} (h : Canon π x.2) {a : α} (hx : x = (a, t)) : Canon π t := by rw [hx] at h; exact h

theorem snd_mk {α : Type} (h : Canon π s) {a : α} : Canon π (a, s).2 := h

theorem snd_ite {α : Type} {c : Prop} [Decidable c] {x y : α × State} (hx : c → Canon π x.2) (hy : ¬c → Canon π y.2) :
    Canon π (if c then x else y).2 := by
  split
  · exact hx ‹_›
  · exact hy ‹_›

/-- The state that comes first in an answer. -/
theorem fst {α : Type} {x : State × α} (h : Canon π x.1) {a : α} (hx : x = (t, a)) : Canon π t := by rw [hx] at h; exact h

/-- The state in the middle of an answer. -/
theorem mid {α β : Type} {x : α × State × β} (h : Canon π x.2.1) {a : α} {b : β} (hx : x = (a, t, b)) : Canon π t := by
  rw [hx] at h; exact h

/-- The state that comes third in an answer. -/
theorem trd {α β : Type} {x : α × β × State} (h : Canon π x.2.2) {a : α} {b : β} (hx : x = (a, b, t)) : Canon π t := by
  rw [hx] at h; exact h

theorem Goes.next (h : Canon π s) : Goes π (.next s) := h

theorem Goes.ite {c : Prop} [Decidable c] {x y : Out} (hx : c → Goes π x) (hy : ¬c → Goes π y) : Goes π (if c then x else y) := by
  split
  · exact hx ‹_›
  · exact hy ‹_›

/-! ### Accesses -/

/-- The state that an access leaves, however it ends. -/
def Acc (π : List Instr) {α : Type} : Machine.Acc α → Prop
  | .ok _ s => Canon π s
  | .fault _ _ s => Canon π s
  | .wait _ _ s => Canon π s

namespace Acc
variable {α β : Type} {x : Machine.Acc α}

theorem ret (h : Canon π s) {a : α} : Acc π (.ok a s) := h

theorem ok (h : Acc π x) {a : α} (hx : x = .ok a t) : Canon π t := by subst hx; exact h
theorem fault (h : Acc π x) {k va : Nat} (hx : x = .fault k va t) : Canon π t := by subst hx; exact h
theorem wait (h : Acc π x) {m va : Nat} (hx : x = .wait m va t) : Canon π t := by subst hx; exact h

theorem ite {c : Prop} [Decidable c] {y : Machine.Acc α} (hx : c → Acc π x) (hy : ¬c → Acc π y) : Acc π (if c then x else y) := by
  split
  · exact hx ‹_›
  · exact hy ‹_›

theorem bind {g : α → State → Machine.Acc β} (hx : Acc π x) (hg : ∀ a s, Canon π s → Acc π (g a s)) : Acc π (x.bind g) := by
  cases x with
  | ok a s => exact hg a s hx
  | fault k va s => exact hx
  | wait m va s => exact hx

end Acc

/-! ### Other answers with a state -/

/-- What an instruction of a vector program leaves. -/
def VAct (π : List Instr) : Machine.VAct → Prop
  | .go s _ => Canon π s
  | .ue s => Canon π s
  | _ => True

/-- What an entry of a move leaves. -/
def MoveEnd (π : List Instr) : Machine.MoveEnd → Prop
  | .done s => Canon π s
  | .failed _ s => Canon π s
  | .wait _ _ => True

/-- What a packet that enters the field leaves. -/
def Inject (π : List Instr) : Machine.Inject → Prop
  | .sent _ s => Canon π s
  | .unreachable s => Canon π s
  | _ => True

/-- What reading the operands of a beat leaves. -/
def BeatOperands (π : List Instr) : Machine.BeatOperands → Prop
  | .edges _ _ s => Canon π s
  | .ue s => Canon π s
  | .parity s => Canon π s
  | .missing => True

/-- What a drain leaves. -/
def DrainEnd (π : List Instr) : Machine.DrainEnd → Prop
  | .done s => Canon π s
  | .full _ s => Canon π s
  | .ue s => Canon π s

/-- What a cluster leaves that runs a dropout mask or moves an activation. -/
def ActRes (π : List Instr) : Machine.ActRes → Prop
  | .ended _ s => Canon π s
  | .wait _ _ => True

theorem VAct.go {x : Machine.VAct} (h : VAct π x) {n : Option Nat} (hx : x = .go t n) : Canon π t := by subst hx; exact h
theorem VAct.ue {x : Machine.VAct} (h : VAct π x) (hx : x = .ue t) : Canon π t := by subst hx; exact h
theorem MoveEnd.done {x : Machine.MoveEnd} (h : MoveEnd π x) (hx : x = .done t) : Canon π t := by subst hx; exact h
theorem MoveEnd.failed {x : Machine.MoveEnd} (h : MoveEnd π x) {n : Nat} (hx : x = .failed n t) : Canon π t := by subst hx; exact h
theorem Inject.sent {x : Machine.Inject} (h : Inject π x) {n : Nat} (hx : x = .sent n t) : Canon π t := by subst hx; exact h
theorem Inject.unreachable {x : Machine.Inject} (h : Inject π x) (hx : x = .unreachable t) : Canon π t := by subst hx; exact h
theorem BeatOperands.edges {x : Machine.BeatOperands} (h : BeatOperands π x) {a b : List (List (Nat × Nat))} (hx : x = .edges a b t) :
    Canon π t := by subst hx; exact h
theorem BeatOperands.ue {x : Machine.BeatOperands} (h : BeatOperands π x) (hx : x = .ue t) : Canon π t := by subst hx; exact h
theorem BeatOperands.parity {x : Machine.BeatOperands} (h : BeatOperands π x) (hx : x = .parity t) : Canon π t := by subst hx; exact h
theorem DrainEnd.done {x : Machine.DrainEnd} (h : DrainEnd π x) (hx : x = .done t) : Canon π t := by subst hx; exact h
theorem DrainEnd.full {x : Machine.DrainEnd} (h : DrainEnd π x) {n : Nat} (hx : x = .full n t) : Canon π t := by subst hx; exact h
theorem DrainEnd.ue {x : Machine.DrainEnd} (h : DrainEnd π x) (hx : x = .ue t) : Canon π t := by subst hx; exact h
theorem ActRes.ended {x : Machine.ActRes} (h : ActRes π x) {n : Nat} (hx : x = .ended n t) : Canon π t := by subst hx; exact h

end Canon
end Sys2Proof.Machine
end

section
/-! Canonical form: registers, memories, queues, interrupts, event and log records. -/
namespace Sys2Proof.Machine
set_option Elab.async false
open Sys2Proof
namespace Canon
variable {π : List Instr} {s t : State}

/-! ### Registers and counters (R536, R590) -/

theorem setRegF (h : Canon π s) (f off : Nat) (v : Word64) : Canon π (s.setRegF f off v) := h.withRegs (cwf_cset _ _ h.regs)
theorem setReg (h : Canon π s) (off : Nat) (v : Word64) : Canon π (s.setReg off v) := h.withRegs (cwf_cset _ _ h.regs)
theorem setRegN (h : Canon π s) (off v : Nat) : Canon π (s.setRegN off v) := h.setReg _ _
theorem setRfld (h : Canon π s) (off hi lo v : Nat) : Canon π (s.setRfld off hi lo v) := h.setReg _ _

theorem bumpKey (h : Canon π s) (key n : Nat) : Canon π (bumpKey key n s) :=
  have hr := h.setReg key (BitVec.ofNat 64 ((cget 0 s.regs key).toNat + n))
  .ite (fun _ => hr) fun _ => hr.withMgt _

theorem bump (h : Canon π s) (off n : Nat) : Canon π (bump off n s) := h.bumpKey _ _
theorem bumpF (h : Canon π s) (f off n : Nat) : Canon π (bumpF f off n s) := h.bumpKey _ _
theorem zeroCtr (h : Canon π s) (key : Nat) : Canon π (zeroCtr key s) := (h.setReg _ _).withMgt _
theorem pmcCount (h : Canon π s) (d event : Nat) (part : Option Nat) (n : Nat) : Canon π (pmcCount d event part n s) :=
  foldl (fun _ _ h => .ite (fun _ => h.bump _ _) fun _ => h) _ h
theorem draw (h : Canon π s) : Canon π (s.draw).2 := h.withOpenCount _

/-! ### Host memory and raw HBM -/

theorem hostWrite (h : Canon π s) (f a : Nat) (bs : List Byte) : Canon π (s.hostWrite f a bs) :=
  { h with hostMem := cwf_csetList _ _ h.hostMem }
theorem hbmPut (h : Canon π s) (pa : Nat) (bs : List Byte) : Canon π (s.hbmPut pa bs) :=
  { h with hbmBytes := cwf_csetList _ _ h.hbmBytes }
theorem hbmPut2 (h : Canon π s) (pa mirror : Nat) (bs : List Byte) : Canon π (s.hbmPut2 pa mirror bs) := (h.hbmPut _ _).hbmPut _ _

/-! ### Partitions, functions, queues -/

theorem setFn (h : Canon π s) (f : Nat) (x : Fn) : Canon π (s.setFn f x) := { h with fns := cwf_cset _ _ h.fns }
theorem setQueue (h : Canon π s) (q : Nat) (x : Queue) : Canon π (s.setQueue q x) := { h with queues := cwf_cset _ _ h.queues }

/-! ### Interrupts (R267) -/

theorem setVector (h : Canon π s) (f v : Nat) (x : Machine.Vector) : Canon π (s.setVector f v x) := h.withHost _
theorem sendInterrupt (h : Canon π s) (f v : Nat) : Canon π (sendInterrupt f v s) := (h.setVector _ _ _).withHost _
theorem interruptDue (h : Canon π s) (f v holdoffUs : Nat) : Canon π (interruptDue f v holdoffUs s) :=
  .ite (fun _ => h) fun _ => .ite (fun _ => h.setVector _ _ _) fun _ => h.sendInterrupt _ _

/-! ### Event records (R269, R270, R306) -/

theorem setFrameByte (h : Canon π s) (d f v : Nat) : Canon π (s.setFrameByte d f v) := h.hbmPut2 _ _ _

/-- A way of writing ring records that keeps the canonical form. -/
def Put (put : RingWriter) : Prop :=
  ∀ (π : List Instr) (s t : State) (f d : Nat) (hbm : Bool) (a : Nat) (bs : List Byte), Canon π s → put f d hbm a bs s = some t →
    Canon π t

theorem put_hostWriter : Put hostWriter := by
  rintro π s t f d hbm a bs h ht
  obtain rfl := Option.some.inj ht
  exact .ite (fun _ => h) fun _ => h.hostWrite _ _ _

theorem assignBy (h : Canon π s) {put : RingWriter} (hput : Put put) (f : Nat) (e : Ev) (source : Nat) :
    Canon π (assignBy put f e source s) := by
  unfold Machine.assignBy
  refine .ite (fun _ => .ite (fun _ => ?_) fun _ => h.setFn _ _) fun _ => h.setFn _ _
  split
  · next hb => exact (hput _ _ _ _ _ _ _ _ (h.setFn _ _) hb).sendInterrupt _ _
  · exact h.setFn _ _

theorem announceBy (h : Canon π s) {put : RingWriter} (hput : Put put) (f : Nat) : Canon π (announceBy put f s) :=
  .ite (fun _ => h) fun _ => (h.setFn _ _).assignBy hput _ _ _

theorem postBy (h : Canon π s) {put : RingWriter} (hput : Put put) (f : Nat) (e : Ev) : Canon π (postBy put f e s) := by
  unfold Machine.postBy
  have hp (k : Nat) := (h.announceBy hput f).assignBy hput f e k
  dsimp only
  split
  · exact .ite (fun _ => h.withHost _) fun _ => .ite (fun _ => (hp _).withHost _) fun _ => hp _
  · exact .ite (fun _ => (hp _).withHost _) fun _ => hp _

/-! ### The log engine (R543) -/

theorem pushLog (h : Canon π s) (r : LogRec) : Canon π (pushLog r s) := by
  unfold Machine.pushLog
  extract_lets _ s1 _ s2 _ _ _ s3
  have h1 : Canon π s1 := (h.setRegN _ _).bump _ _
  have h2 : Canon π s2 := h.setRegN _ _
  have h3 : Canon π s3 := h.setRegN _ _
  clear_value s1 s2 s3
  exact .ite (fun _ => h1.withMgt _) fun _ => .ite (fun _ => h2.withMgt _) fun _ => (h3.withMgt _).postBy put_hostWriter _ _

/-! ### Alarms (R545 to R547) -/

theorem setAlarm (h : Canon π s) (slot : Nat) (a : Alarm) : Canon π (s.setAlarm slot a) := h.withMgt _
theorem refreshAlert (h : Canon π s) : Canon π (refreshAlert s) := (h.setRegN _ _).withPins _
theorem requestIbi (h : Canon π s) (sev : Nat) : Canon π (requestIbi sev s) := .ite (fun _ => h.withMgt _) fun _ => h

theorem noticeBy (h : Canon π s) {put : RingWriter} (hput : Put put) (e : Ev) (count : Nat) (coalesced : Bool) :
    Canon π (noticeBy put e count coalesced s) :=
  .ite (fun _ => h.setAlarm _ _) fun _ => ((h.pushLog _).announceBy hput _).assignBy hput _ _ _

theorem occurBy (h : Canon π s) {put : RingWriter} (hput : Put put) (e : Ev) : Canon π (occurBy put e s) :=
  .ite (fun _ => h.setAlarm _ _) fun _ => (((h.setAlarm _ _).noticeBy hput _ _ _).refreshAlert).requestIbi _

theorem raiseBy (h : Canon π s) {put : RingWriter} (hput : Put put) (e : Ev) : Canon π (raiseBy put e s) := by
  unfold Machine.raiseBy
  extract_lets s1 s2
  have h1 : Canon π s1 := .ite (fun _ => h.pushLog _) fun _ => h
  have h2 : Canon π s2 := by
    unfold s2
    split
    · exact h1.postBy hput _ _
    · exact h1
  exact .ite (fun _ => h2.occurBy hput _) fun _ => .ite (fun _ => h2.postBy hput _ _) fun _ => h2

theorem raisePf (h : Canon π s) (e : Ev) : Canon π (raisePf e s) := h.raiseBy put_hostWriter _
theorem logRegister (h : Canon π s) (cls code src last lastNs : Nat) : Canon π (logRegister cls code src last lastNs s) := h.pushLog _

end Canon
end Sys2Proof.Machine
end

section
/-! Canonical form: time while no command waits (R33, R34). -/
namespace Sys2Proof.Machine
set_option Elab.async false
open Sys2Proof
namespace Canon
variable {π : List Instr} {s t : State}

theorem tick (h : Canon π s) : Canon π (tick s) := .ite (fun _ => h) fun _ => h.withTime _

end Canon
end Sys2Proof.Machine
end

section
/-! Canonical form: banked tables (R171 to R177). -/
namespace Sys2Proof.Machine
set_option Elab.async false
open Sys2Proof
namespace Canon
variable {π : List Instr} {s t : State}

/-! ### Dispatched commands -/

theorem updFlight (h : Canon π s) (q seq : Nat) (g : Flight → Flight) : Canon π (s.updFlight q seq g) := h.setQueue _ _
theorem setBank (h : Canon π s) (t : Nat) (b : Banked) : Canon π (s.setBank t b) := h.withBanks (cwf_cset _ _ h.banks)
theorem bindTable (h : Canon π s) (q seq t : Nat) : Canon π (bindTable q seq t s) := (h.setBank _ _).updFlight _ _ _

theorem releaseBanks : ∀ (bs : List (Nat × Nat × Nat)) {s : State}, Canon π s → Canon π (releaseBanks bs s)
  | [], _, h => h
  | (_, _, _) :: bs, _, h => releaseBanks bs (h.setBank _ _)

end Canon
end Sys2Proof.Machine
end

section
/-! Canonical form: HBM below the commands (R186 to R220). -/
namespace Sys2Proof.Machine
set_option Elab.async false
open Sys2Proof
namespace Canon
variable {π : List Instr} {s t : State}

/-! ### Address map (R188, R189) -/

theorem setStack (h : Canon π s) (m : Nat) (x : Stack) : Canon π (s.setStack m x) := h.withHbm _

/-! ### The health record (R541, R568, R570) -/

theorem addHealth (h : Canon π s) (e : HealthEntry) : Canon π (addHealth e s) := by
  unfold Machine.addHealth
  extract_lets _ s1 _ _ s2
  have h1 : Canon π s1 := .ite (fun _ => h) fun _ => h.withBoot _
  have h2 : Canon π s2 := h1.withBoot _
  clear_value s1 s2
  exact .ite (fun _ => h1) fun _ => .ite (fun _ => h1.withStore _) fun _ => h2.raisePf _

/-! ### Error records (R208, R209) -/

theorem errRecordAt (h : Canon π s) (kind pa m pc nsym s0 s1 : Nat) : Canon π (errRecordAt kind pa m pc nsym s0 s1 s) := by
  unfold Machine.errRecordAt
  extract_lets _ _ _ _ _ _ s1 _ _ s2 _ s3 s4
  have h1 : Canon π s1 := h.withHbm _
  have h2 : Canon π s2 := h.setRfld _ _ _ _
  have h3 : Canon π s3 := h2.withHbm _
  have h4 : Canon π s4 := h3.hbmPut2 _ _ _
  clear_value s1 s2 s3 s4
  exact .ite (fun _ => (h1.hbmPut2 _ _ _).hbmPut2 _ _ _) fun _ => .ite (fun _ => h4) fun _ => h4.raisePf _

theorem errRecord (h : Canon π s) (kind pa nsym s0 s1 : Nat) : Canon π (errRecord kind pa nsym s0 s1 s) := h.errRecordAt _ _ _ _ _ _ _
theorem markRetire (h : Canon π s) (g pa : Nat) : Canon π (markRetire g pa s) := .ite (fun _ => h) fun _ => h.addHealth _
theorem countRow (h : Canon π s) (pa : Nat) : Canon π (countRow pa s) :=
  .ite (fun _ => (((h.withHbm _).setRfld _ _ _ _).addHealth _).errRecord _ _ _ _ _) fun _ => h.withHbm _
theorem correctBlock (h : Canon π s) (kind pa : Nat) (fix : List (Nat × Nat)) : Canon π (correctBlock kind pa fix s) :=
  (((h.bump _ _).setStack _ _).errRecord _ _ _ _ _).countRow _
theorem loseBlock (h : Canon π s) (kind pa : Nat) : Canon π (loseBlock kind pa s) := ((h.bump _ _).errRecord _ _ _ _ _).markRetire _ _

/-! ### Blocks through the symbol code (R205, R206) -/

theorem readBlock (h : Canon π s) (pa : Nat) : Canon π (readBlock pa s).2 := by
  unfold Machine.readBlock
  dsimp only
  split
  · exact h
  · split
    · exact h
    · exact h.correctBlock _ _ _
    · exact h.loseBlock _ _

theorem blockStore (h : Canon π s) (pa : Nat) (bs : List Byte) : Canon π (blockStore pa bs s) :=
  .ite (fun _ => (h.hbmPut _ _).withHbm _) fun _ => h.hbmPut _ _

theorem blockWrite (h : Canon π s) (pa : Nat) (bs : List Byte) : Canon π (blockWrite pa bs s).2 := by
  unfold Machine.blockWrite
  split
  · exact h.blockStore _ _
  · split
    · next hb => exact ((h.readBlock _).snd hb).blockStore _ _
    · next hb => exact (h.readBlock _).snd hb

theorem paReadN : ∀ (k pa n : Nat) {s : State}, Canon π s → Canon π (paReadN k pa n s).2
  | 0, _, _, _, h => h
  | k + 1, pa, n, s, h => by
    unfold Machine.paReadN
    split
    · exact h
    · dsimp only
      split
      · next hb => exact (h.readBlock _).snd hb
      · next hb =>
        have hr := paReadN k (pa + min n (64 - pa % 64)) (n - min n (64 - pa % 64)) ((h.readBlock _).snd hb)
        split
        · next hb2 => exact hr.snd hb2
        · next hb2 => exact hr.snd hb2

theorem paRead (h : Canon π s) (pa n : Nat) : Canon π (paRead pa n s).2 := by
  unfold Machine.paRead
  split
  · exact h
  · exact paReadN _ _ _ h

theorem paWriteN : ∀ (k pa : Nat) (bs : List Byte) {s : State}, Canon π s → Canon π (paWriteN k pa bs s)
  | 0, _, _, _, h => h
  | k + 1, _, _, _, h => .ite (fun _ => h) fun _ => paWriteN k _ _ (h.blockWrite _ _)

theorem paWrite (h : Canon π s) (pa : Nat) (bs : List Byte) : Canon π (paWrite pa bs s) := .ite (fun _ => h) fun _ => paWriteN _ _ _ h

/-! ### Lines with a mirror (R190, R219) -/

theorem mirroredLine (h : Canon π s) (a : Nat) : Canon π (mirroredLine a s).2 := by
  have hb : Canon π (Machine.bump (ZG_HBM_UE (dieOf a)) 1 s) := h.bump _ _
  have repair {s : State} (h : Canon π s) (b : Nat) (bs : List Byte) :
      Canon π (Machine.errRecord 4 a 0 255 255 (Machine.blockStore b bs s)) := (h.blockStore _ _).errRecord _ _ _ _ _
  unfold Machine.mirroredLine
  split
  · exact h
  · exact h.correctBlock _ _ _
  · dsimp only
    split
    · exact repair hb _ _
    · exact repair (hb.correctBlock _ _ _) _ _
    · exact hb.bump _ _

theorem loseLine (h : Canon π s) (key a : Nat) (gs : List Nat) : Canon π (loseLine key a gs s) :=
  .ite (fun _ => h) fun _ => foldl (fun _ _ h => h.markRetire _ _) _ ((h.withHbm _).errRecord _ _ _ _ _)

theorem frameLine (h : Canon π s) (g : Nat) : Canon π (frameLine g s).2 := by
  unfold Machine.frameLine
  split
  · exact h
  · split
    · exact h
    · dsimp only
      split
      · next hb => exact (h.mirroredLine _).snd hb
      · next hb => exact ((h.mirroredLine _).snd hb).loseLine _ _ _

/-! ### The presence map (R213 to R218) -/

theorem writeMapLine (h : Canon π s) (g : Nat) : Canon π (writeMapLine g s) := by
  unfold Machine.writeMapLine
  exact (h.blockStore _ _).blockStore _ _

theorem trimCache (h : Canon π s) : Canon π (trimCache s) := by
  unfold Machine.trimCache
  split
  · exact .ite (fun _ => .ite (fun _ => (h.withHbm _).writeMapLine _) fun _ => h.withHbm _) fun _ => h
  · exact h

theorem holdLine (h : Canon π s) (g : Nat) (changed : Bool) : Canon π (holdLine g changed s) := by
  unfold Machine.holdLine
  dsimp only
  split
  · exact .ite (fun _ => ((h.withHbm _).withHbm _).trimCache) fun _ => (h.withHbm _).withHbm _
  · exact (h.withHbm _).withHbm _

theorem consultMap (h : Canon π s) (g : Nat) : Canon π (consultMap g s).2 := by
  unfold Machine.consultMap
  split
  · exact h
  · split
    · exact h
    · split
      · exact h
      · extract_lets s1
        have h1 : Canon π s1 := h.pmcCount _ _ _ _
        clear_value s1
        split
        · exact h1.holdLine _ _
        · split
          · next hb => exact ((h1.mirroredLine _).snd hb).holdLine _ _
          · next hb => exact ((h1.mirroredLine _).snd hb).loseLine _ _ _

theorem materialise (h : Canon π s) (pa : Nat) : Canon π (materialise pa s) := by
  unfold Machine.materialise
  refine .ite (fun _ => h) fun _ => ?_
  extract_lets _ _ _ _ _ s1 s2
  have h1 : Canon π s1 := { h with hbmBytes := cwf_cclear _ _ h.hbmBytes }
  have h2 : Canon π s2 := h1.hbmPut2 _ _ _
  exact .ite (fun _ => h2.withHbm _) fun _ => h2

theorem clearMapLine (h : Canon π s) (g : Nat) : Canon π (clearMapLine g s) := by
  unfold Machine.clearMapLine
  exact ((h.withHbm _).blockStore _ _).blockStore _ _

/-! ### Translation (R193 to R197) -/

theorem readTables : ∀ (as : List Nat) {s : State}, Canon π s → Canon π (readTables as s).2
  | [], _, h => h
  | a :: as, s, h => by
    unfold Machine.readTables
    split
    · next hb => exact readTables as ((h.readBlock a).snd hb)
    · next hb => exact (h.readBlock a).snd hb

theorem cacheWalk (h : Canon π s) (rq : Req) (va : Nat) : Canon π (cacheWalk rq va s) := h.withHbm _

theorem lookUp (h : Canon π s) (rq : Req) (va : Nat) : Acc π (lookUp rq va s) := by
  have ht := readTables (walkReads s rq.part rq.bank va) (h.pmcCount rq.die 0x0A none 1)
  unfold Machine.lookUp
  refine .ite (fun _ => h) fun _ => .ite (fun _ => ?_) fun _ => ?_
  · dsimp only
    split <;> exact h
  · split
    · next hb => exact ht.snd hb
    · next hb =>
      have h1 := ht.snd hb
      split
      · exact h1
      · split
        · next hb2 => exact (h1.frameLine _).snd hb2
        · next hb2 =>
          have h2 := (h1.frameLine _).snd hb2
          split
          · exact h2.cacheWalk _ _
          · exact h2

/-! ### The order at a stack that was stopped (R220) -/

theorem enterStack (h : Canon π s) (rq : Req) (m : Nat) : Canon π (enterStack rq m s) :=
  .ite (fun _ => (h.setStack _ _).withHbm _) fun _ => h

/-! ### Accesses by virtual address (R201) -/

theorem translate (h : Canon π s) (rq : Req) (va : Nat) (write : Bool) : Acc π (translate rq va write s) := by
  unfold Machine.translate
  refine (h.lookUp _ _).bind fun _ _ h => ?_
  dsimp only
  refine .ite (fun _ => h) fun _ => ?_
  refine .ite (fun _ => h) fun _ => ?_
  split
  · exact h
  · exact h
  · exact .ite (fun _ => .ret (h.enterStack _ _)) fun _ => h

theorem vaReadPart (h : Canon π s) (rq : Req) (va n : Nat) : Acc π (vaReadPart rq va n s) := by
  unfold Machine.vaReadPart
  refine (h.translate _ _ _).bind fun _ _ h => ?_
  split
  · next hb => exact (h.consultMap _).snd hb
  · next hb =>
      have h2 := (h.consultMap _).snd hb
      refine .ite (fun _ => ?_) fun _ => ?_
      · split
        · next hb2 => exact .ret (((h2.pmcCount _ _ _ _).readBlock _).snd hb2)
        · next hb2 => exact ((h2.pmcCount _ _ _ _).readBlock _).snd hb2
      · exact .ite (fun _ => h2) fun _ => .ret ((h2.bump _ _).updFlight _ _ _)

theorem vaWritePart (h : Canon π s) (rq : Req) (va : Nat) (bs : List Byte) : Acc π (vaWritePart rq va bs s) := by
  unfold Machine.vaWritePart
  refine (h.translate _ _ _).bind fun _ _ h => ?_
  split
  · next hb => exact (h.consultMap _).snd hb
  · next hb =>
      have h2 := (h.consultMap _).snd hb
      split
      · next hb2 => exact .ret ((((h2.pmcCount _ _ _ _).materialise _).blockWrite _ _).snd hb2)
      · next hb2 => exact (((h2.pmcCount _ _ _ _).materialise _).blockWrite _ _).snd hb2

theorem vaReadN (rq : Req) : ∀ (k va n : Nat) {s : State}, Canon π s → Acc π (vaReadN rq k va n s)
  | 0, _, _, _, h => h
  | k + 1, _, _, _, h => .ite (fun _ => h) fun _ =>
    (h.vaReadPart rq _ _).bind fun _ _ h => (vaReadN rq k _ _ h).bind fun _ _ h => h

theorem vaRead (h : Canon π s) (rq : Req) (va n : Nat) : Acc π (vaRead rq va n s) := vaReadN rq _ _ _ h

theorem vaWriteN (rq : Req) : ∀ (k va : Nat) (bs : List Byte) {s : State}, Canon π s → Acc π (vaWriteN rq k va bs s)
  | 0, _, _, _, h => h
  | k + 1, _, _, _, h => .ite (fun _ => h) fun _ => (h.vaWritePart rq _ _).bind fun _ _ h => vaWriteN rq k _ _ h

theorem vaWrite (h : Canon π s) (rq : Req) (va : Nat) (bs : List Byte) : Acc π (vaWrite rq va bs s) := vaWriteN rq _ _ _ h

end Canon
end Sys2Proof.Machine
end

section
/-! Canonical form: rings, events and alarms (R252, R270, R545). -/
namespace Sys2Proof.Machine
set_option Elab.async false
open Sys2Proof
namespace Canon
variable {π : List Instr} {s t : State}

theorem noteFault (h : Canon π s) (rq : Req) (kind va : Nat) : Canon π (noteFault rq kind va s) :=
  (((h.setRegN _ _).setRegN _ _).bump _ _).logRegister _ _ _ _ _

/-! ### Rings (R252) -/

theorem put_ringWrite : Put ringWrite := by
  rintro π s t f d hbm a bs h ht
  have hw := h.vaWrite (s.ringReq f d) a bs
  unfold ringWrite at ht
  split at ht
  · exact put_hostWriter _ _ _ _ _ _ _ _ h ht
  · dsimp only at ht
    split at ht
    · next hb => rw [← Option.some.inj ht]; exact hw.ok hb
    · exact absurd ht (by simp)
    · next hb =>
      split at ht
      · exact absurd ht (by simp)
      · rw [← Option.some.inj ht]
        exact .ite (fun _ => (hw.fault hb).noteFault _ _ _) fun _ => hw.fault hb

/-- A record or an event written to its ring. -/
theorem ringWrite (h : Canon π s) {f d : Nat} {hbm : Bool} {a : Nat} {bs : List Byte} (hb : ringWrite f d hbm a bs s = some t) :
    Canon π t := put_ringWrite _ _ _ _ _ _ _ _ h hb

/-! ### Events and alarms (R270, R545, R546) -/

theorem assignEvent (h : Canon π s) (f : Nat) (e : Ev) (source : Nat) : Canon π (assignEvent f e source s) :=
  h.assignBy put_ringWrite _ _ _
theorem announceLost (h : Canon π s) (f : Nat) : Canon π (announceLost f s) := h.announceBy put_ringWrite _
theorem postEvent (h : Canon π s) (f : Nat) (e : Ev) : Canon π (postEvent f e s) := h.postBy put_ringWrite _ _
theorem alarmNotice (h : Canon π s) (e : Ev) (count : Nat) (coalesced : Bool) : Canon π (alarmNotice e count coalesced s) :=
  h.noticeBy put_ringWrite _ _ _
theorem alarmOccur (h : Canon π s) (e : Ev) : Canon π (alarmOccur e s) := h.occurBy put_ringWrite _
theorem raiseEvent (h : Canon π s) (e : Ev) : Canon π (raiseEvent e s) := h.raiseBy put_ringWrite _
theorem raiseAlarm (h : Canon π s) (chapter sev src data : Nat) : Canon π (raiseAlarm chapter sev src data s) := h.alarmOccur _
theorem recordFault (h : Canon π s) (rq : Req) (kind va : Nat) : Canon π (recordFault rq kind va s) :=
  .ite (fun _ => h) fun _ => (h.noteFault _ _ _).raiseEvent _

end Canon
end Sys2Proof.Machine
end

section
/-! Canonical form: lent clusters (R426 to R430). -/
namespace Sys2Proof.Machine
set_option Elab.async false
open Sys2Proof
namespace Canon
variable {π : List Instr} {s t : State}

theorem setCell (h : Canon π s) (k : Nat) (x : ClusterSt) : Canon π { s with clu := { s.clu with cl := cset {} s.clu.cl k x } } :=
  { h with clusters := cwf_cset _ _ h.clusters }

theorem giveBack (h : Canon π s) (q : Nat) : Canon π (giveBack q s) := foldl (fun _ _ h => (h.setCell _ _).bump _ _) _ h

end Canon
end Sys2Proof.Machine
end

section
/-! Canonical form: synchronisation objects (R285 to R309). -/
namespace Sys2Proof.Machine
set_option Elab.async false
open Sys2Proof
namespace Canon
variable {π : List Instr} {s t : State}

theorem setSynObj (h : Canon π s) (o : Nat) (x : SynObj) : Canon π (s.setSynObj o x) := h.withSyn _

/-! ### The deadlock detector (R308, R309) -/

theorem touchDetector (h : Canon π s) (q : Nat) : Canon π (touchDetector q s) := h.withSyn _
theorem noteRun (h : Canon π s) (q : Nat) : Canon π (noteRun q s) := h.withTrn _

theorem noteProgress (h : Canon π s) (q : Nat) : Canon π (noteProgress q s) := by
  unfold Machine.noteProgress
  refine .ite (fun _ => h) fun _ => ?_
  exact .ite (fun _ => (((h.noteRun _).touchDetector _).withSyn _).raiseEvent _) fun _ => (h.noteRun _).touchDetector _

/-! ### Operations (R287 to R291) -/

theorem testWaiters (h : Canon π s) (o : Nat) : Canon π (testWaiters o s).1 := h.withSyn _
theorem touchWaiters (h : Canon π s) (o : Nat) : Canon π (touchWaiters o s) := foldl (fun _ _ h => h.touchDetector _) _ h

theorem synEvent (h : Canon π s) (code o data : Nat) (r : SyncReq) : Canon π (synEvent code o data r s) := by
  unfold Machine.synEvent
  extract_lets _ _ s1
  have h1 : Canon π s1 := h.raiseEvent _
  clear_value s1
  split
  · exact .ite (fun _ => h1) fun _ => h1.raiseEvent _
  · exact h1

theorem synBlocked (h : Canon π s) (r : SyncReq) (o : Nat) : Canon π (synBlocked r o s) := (h.bump _ _).raiseEvent _

theorem synOp (h : Canon π s) (r : SyncReq) (o op v : Nat) : Canon π (synOp r o op v s).2.1 := by
  unfold Machine.synOp
  split
  · exact h.synBlocked _ _
  · split
    · exact h
    · dsimp only
      split
      · have h1 := (h.bump (ZG_SYN_MISUSE (o / 4096)) 1).synEvent 3 o (o + op * 16384) r
        split
        · refine testWaiters ?_ _
          split
          · exact h1.setSynObj _ _
          · exact (h1.setSynObj _ _).touchWaiters _
        · exact h1
      · have h1 (x : SynObj) := (h.setSynObj o x).bump (ZG_SYN_OPS (o / 4096)) 1
        refine testWaiters (.ite (fun _ => ?_) fun _ => touchWaiters ?_ _) _
        all_goals exact .ite (fun _ => h1 _) fun _ => ((h1 _).bump _ _).synEvent _ _ _ _

end Canon
end Sys2Proof.Machine
end

section
/-! Canonical form: the end of a command, records and lanes (R258 to R291). -/
namespace Sys2Proof.Machine
set_option Elab.async false
open Sys2Proof
namespace Canon
variable {π : List Instr} {s t : State}

/-! ### Functions and QUIESCED -/

theorem refreshQuiesced (h : Canon π s) (f : Nat) : Canon π (refreshQuiesced f s) := h.setRegF _ _ _

/-! ### Completion records (R258, R259, R264 to R267) -/

theorem recordInterrupt (h : Canon π s) (q : Nat) (h' : HeldRec) : Canon π (recordInterrupt q h' s) :=
  .ite (fun _ => h.sendInterrupt _ _) fun _ => .ite (fun _ => h.interruptDue _ _ _) fun _ => h
theorem markFull (h : Canon π s) (q : Nat) : Canon π (markFull q s) :=
  .ite (fun _ => h.setQueue _ _) fun _ => (h.setQueue _ _).bumpF _ _ _

theorem markDrained (h : Canon π s) (q : Nat) : Canon π (markDrained q s) := by
  unfold Machine.markDrained
  extract_lets _ s1
  have h1 : Canon π s1 := h.setQueue _ _
  clear_value s1
  refine .ite (fun _ => ?_) fun _ => h
  split
  · exact h1.raiseEvent _
  · exact h1

/-! ### The lanes of a queue (R419 to R423) -/

theorem trnEvent (h : Canon π s) (d code q : Nat) (part : Option Nat) (data sev : Nat) : Canon π (trnEvent d code q part data sev s) :=
  ((h.setRegN _ _).setRegN _ _).raiseEvent _

theorem writeHeldN : ∀ (n q : Nat) {s : State}, Canon π s → Canon π (writeHeldN n q s)
  | 0, _, _, h => h.markDrained _
  | n + 1, q, s, h => by
    unfold Machine.writeHeldN
    dsimp only
    split
    · exact h.markDrained _
    · refine .ite (fun _ => h.markFull _) fun _ => .ite (fun _ => h) fun _ => ?_
      split
      · next hb => exact writeHeldN n _ (releaseBanks _ (((h.setQueue _ _).ringWrite hb).recordInterrupt _ _))
      · exact h

theorem writeHeld (h : Canon π s) (q : Nat) : Canon π (writeHeld q s) := writeHeldN _ _ h
theorem drainQueue (h : Canon π s) (q : Nat) : Canon π (drainQueue q s) :=
  (setQueue (.ite (fun _ => releaseBanks _ (releaseBanks _ h)) fun _ => releaseBanks _ h) _ _).writeHeld _
theorem dropReaders (h : Canon π s) (q : Nat) : Canon π (dropReaders q s) := releaseBanks _ (h.setQueue _ _)

theorem writeHeldEvents (f : Nat) : ∀ (rs : List (List Byte)) {s : State}, Canon π s → Canon π (writeHeldEvents f rs s)
  | [], _, h => h
  | _ :: rs, s, h => by
    unfold Machine.writeHeldEvents
    dsimp only
    split
    · next hb => exact writeHeldEvents f rs (((h.setFn _ _).ringWrite hb).sendInterrupt _ _)
    · exact h

theorem flushRings (h : Canon π s) : Canon π (flushRings s) :=
  foldl (fun _ _ h => h.writeHeld _) _ (foldl (fun _ _ h => writeHeldEvents _ _ h) _ h)
theorem enterError (h : Canon π s) (q status : Nat) : Canon π (enterError q status s) := (h.setQueue _ _).raiseEvent _
theorem failQueue (h : Canon π s) (q status : Nat) (cont : Bool) : Canon π (failQueue q status cont s) :=
  .ite (fun _ => h.enterError _ _) fun _ => h.setQueue _ _

theorem finishStop (h : Canon π s) (q : Nat) : Canon π (finishStop q s).1 := by
  unfold Machine.finishStop
  extract_lets _ s1
  have h1 : Canon π s1 := h.setQueue _ _
  clear_value s1
  split
  · exact h1
  · exact h

/-! ### The end of a command (R258, R262, R291) -/

theorem signalEnd (h : Canon π s) (e : Ending) (f : Flight) : Canon π (signalEnd e f s).1 := by
  unfold Machine.signalEnd
  split
  · dsimp only
    split
    · next hb => exact ((h.synOp _ _ _ _).mid hb).bumpF _ _ _
    · next hb => exact (h.synOp _ _ _ _).mid hb
  · exact h

theorem retireTarget (h : Canon π s) (q : Nat) : Canon π (retireTarget q s) := .ite (fun _ => h.enterError _ _) fun _ => h

theorem holdEnd (h : Canon π s) (e : Ending) : Canon π (holdEnd e s).1 := by
  unfold Machine.holdEnd
  extract_lets s1 _ s2
  have h1 : Canon π s1 := h.updFlight _ _ _
  have h2 : Canon π s2 := h1.withHbm _
  clear_value s1 s2
  split
  · exact h2
  · dsimp only
    split
    · exact h2
    · exact (h2.setQueue _ _).giveBack _

theorem noteHeld (h : Canon π s) (q before : Nat) : Canon π (noteHeld q before s) := .ite (fun _ => h.trnEvent _ _ _ _ _ _) fun _ => h

theorem endOne (h : Canon π s) (e : Ending) : Canon π (endOne e s).1 := by
  unfold Machine.endOne
  split
  · exact h
  · split
    · exact h
    · split
      · exact h.holdEnd _
      · next f _ _ _ =>
        have h1 := releaseBanks (f.binds.filter fun b => !decide (b.1 < 64)) (h.signalEnd e f)
        dsimp only
        refine finishStop (noteHeld (refreshQuiesced (drainQueue (retireTarget (noteProgress ?_ _) _) _) _) _ _) _
        exact .ite (fun _ => (h1.updFlight _ _ _).withHbm _) fun _ => failQueue ((h1.updFlight _ _ _).withHbm _) _ _ _

theorem endMany : ∀ (x0 : Nat) (x1 : List Ending) {s : State}, Canon π s → Canon π (endMany x0 x1 s)
  | 0, _, _, h => h
  | _ + 1, [], _, h => h
  | n + 1, _ :: _, _, h => endMany n _ (h.endOne _)

theorem endAll (h : Canon π s) (es : List Ending) : Canon π (endAll es s) := endMany _ _ h
theorem endCommand (h : Canon π s) (q seq status detail : Nat) : Canon π (endCommand q seq status detail s) := h.endAll _
theorem applySync (h : Canon π s) (r : SyncReq) (o op v : Nat) : Canon π (applySync r o op v s).2 := (h.synOp _ _ _ _).endAll _

end Canon
end Sys2Proof.Machine
end

section
/-! Canonical form: writes of failing commands (R202, R272). -/
namespace Sys2Proof.Machine
set_option Elab.async false
open Sys2Proof
namespace Canon
variable {π : List Instr} {s t : State}

theorem vaWriteSome : ∀ (rq : Req) (free : Nat) (x2 : Nat) (x3 : Nat) (x4 : List Byte) {s : State}, Canon π s →
    Canon π (vaWriteSome rq free x2 x3 x4 s)
  | _, _, 0, _, _, _, h => h
  | _, _, k + 1, _, _, _, h => by
    unfold Machine.vaWriteSome
    dsimp only
    refine .ite (fun _ => h) fun _ => ?_
    refine vaWriteSome _ _ k _ _ ?_
    refine .ite (fun _ => h) fun _ => ?_
    split
    · next hb => exact (h.vaWritePart _ _ _).ok hb
    · exact h

theorem vaWriteWhole (h : Canon π s) (rq : Req) (va : Nat) (bs : List Byte) : Acc π (vaWriteWhole rq va bs s) := by
  unfold Machine.vaWriteWhole
  split
  · exact vaWriteSome _ _ _ _ _ h.draw
  · exact h.vaWrite _ _ _

theorem Acc.forEach {β : Type} {g : β → State → Machine.Acc Unit} (hg : ∀ x s, Canon π s → Acc π (g x s)) :
    ∀ (xs : List β) {s : State}, Canon π s → Acc π (Acc.forEach g xs s)
  | [], _, h => h
  | x :: xs, _, h => (hg x _ h).bind fun _ _ h => Acc.forEach hg xs h

theorem Acc.mapM {β γ : Type} {g : β → State → Machine.Acc γ} (hg : ∀ x s, Canon π s → Acc π (g x s)) :
    ∀ (xs : List β) {s : State}, Canon π s → Acc π (Acc.mapM g xs s)
  | [], _, h => h
  | x :: xs, _, h => (hg x _ h).bind fun _ _ h => (Acc.mapM hg xs h).bind fun _ _ h => h

end Canon
end Sys2Proof.Machine
end

section
/-! Canonical form: running a command. -/
namespace Sys2Proof.Machine
set_option Elab.async false
open Sys2Proof
namespace Canon
variable {π : List Instr} {s t : State}

theorem withFlight (h : Canon π s) (q seq opc : Nat) {g : Flight → State} (hg : ∀ f, Canon π (g f)) :
    Canon π (withFlight q seq opc s g) := by
  unfold Machine.withFlight
  refine .ite (fun _ => h) fun _ => ?_
  split
  · exact .ite (fun _ => h) fun _ => hg _
  · exact h

theorem withAdmin (h : Canon π s) (q seq opc : Nat) {g : Flight → State} (hg : ∀ f, Canon π (g f)) :
    Canon π (withAdmin q seq opc s g) :=
  h.withFlight _ _ _ fun _ => .ite (fun _ => h.endCommand _ _ _ _) fun _ => .ite (fun _ => h) fun _ =>
    .ite (fun _ => h.endCommand _ _ _ _) fun _ => hg _

theorem waitAtStack (h : Canon π s) (w : StackWait) : Canon π (waitAtStack w s) := .ite (fun _ => h) fun _ => h.withHbm _

theorem finishAcc (h : Canon π s) {α : Type} (q seq : Nat) (rq : Req) {x : Machine.Acc α} (hx : Acc π x) {g : α → State → State}
    (hg : ∀ a t, Canon π t → Canon π (g a t)) : Canon π (finishAcc q seq rq s x g) := by
  cases x with
  | ok a t => exact hg a t hx
  | fault k va t => exact endCommand (recordFault hx _ _ _) _ _ _ _
  | wait m va t => exact h.waitAtStack _

end Canon
end Sys2Proof.Machine
end

section
/-! Canonical form: register writes (R590 to R603). -/
namespace Sys2Proof.Machine
set_option Elab.async false
open Sys2Proof
namespace Canon
variable {π : List Instr} {s t : State}

/-! ### Rejection (R595) -/

theorem rejectWrite (h : Canon π s) (f off kind value : Nat) : Canon π (rejectWrite f off kind value s) := by
  unfold Machine.rejectWrite
  extract_lets _ s1 s2 _ _ s3 s4 s5 _ _ s6
  have h1 : Canon π s1 := h.setRegF _ _ _
  have h2 : Canon π s2 := h1.bumpF _ _ _
  have h3 : Canon π s3 := h2.setRegF _ _ _
  have h4 : Canon π s4 := h3.setRegF _ _ _
  have h5 : Canon π s5 := h4.setRegF _ _ _
  have h6 : Canon π s6 := h5.withMgt _
  clear_value s1 s2 s3 s4 s5 s6
  exact .ite (fun _ => h5) fun _ => h6.pushLog _

theorem guardedWrite (h : Canon π s) (f off size value : Nat) {effect : Nat → Nat → State → State}
    (hg : ∀ old new t, Canon π t → Canon π (effect old new t)) : Canon π (guardedWrite f off size value s effect) := by
  unfold Machine.guardedWrite
  refine .ite (fun _ => h) fun _ => .ite (fun _ => h.rejectWrite _ _ _ _) fun _ => ?_
  split
  · exact .ite (fun _ => h) fun _ => hg _ _ _ (h.setReg _ _)
  · exact h

end Canon
end Sys2Proof.Machine
end

section
/-! Canonical form: monitors and service modes (R28 to R30). -/
namespace Sys2Proof.Machine
set_option Elab.async false
open Sys2Proof
namespace Canon
variable {π : List Instr} {s t : State}

theorem setDieState (h : Canon π s) (d v : Nat) : Canon π (setDieState d v s) := h.setRfld _ _ _ _
theorem switchService (h : Canon π s) (d : Nat) (reduced : Bool) (reason : Nat) : Canon π (switchService d reduced reason s) :=
  ((h.setReg _ _).setRegN _ _).setRfld _ _ _ _
theorem requestService (h : Canon π s) (d reason : Nat) : Canon π (requestService d reason s) := (h.setRfld _ _ _ _).withTime _

theorem execServiceModeChange (h : Canon π s) (die : Die) : Goes π (execServiceModeChange die s) := by
  unfold Machine.execServiceModeChange
  refine .next ?_
  refine .ite (fun _ => h) fun _ => ?_
  extract_lets s1
  have h1 : Canon π s1 := .ite (fun _ => h.switchService _ _ _) fun _ => h
  clear_value s1
  exact .ite (fun _ => h1.setRfld _ _ _ _) fun _ => h1

theorem execBeatWindowPublish (h : Canon π s) (die : Die) (q0 q1 q2 q3 : BitVec 16) : Goes π (execBeatWindowPublish die q0 q1 q2 q3 s) :=
  .ite (fun _ => .next h) fun _ => .next ((((h.setRegN _ _).setRegN _ _).setRegN _ _).bump _ _)
theorem execReplicaCorrection (h : Canon π s) (die : Die) : Goes π (execReplicaCorrection die s) := .next (h.withTime _)

end Canon
end Sys2Proof.Machine
end

section
/-! Canonical form: the audit log and the engine count (R469, R557). -/
namespace Sys2Proof.Machine
set_option Elab.async false
open Sys2Proof
namespace Canon
variable {π : List Instr} {s t : State}

/-! ### Events of class 0x0E (R566) -/

theorem mgtEvent (h : Canon π s) (code data sev : Nat) : Canon π (mgtEvent code data sev s) := h.raiseEvent _
theorem windowEvent (h : Canon π s) (code : Nat) : Canon π (windowEvent code s) :=
  .ite (fun _ => h.withMgt _) fun _ => ((h.withMgt _).announceLost _).assignEvent _ _ _

/-! ### The audit log (R557, R558) -/

theorem imageOk (h : Canon π s) : Canon π (imageOk s).2 := by
  unfold Machine.imageOk
  split
  · next hb => exact (h.paRead _ _).snd hb
  · next hb => exact (h.paRead _ _).snd hb

theorem auditAppend (h : Canon π s) (trim : Bool) (r : AuditRec) : Canon π (auditAppend trim r s).2 := by
  unfold Machine.auditAppend
  split
  · dsimp only
    exact h.mgtEvent _ _ _
  · extract_lets _ _ s1 _ s2 s3
    have h1 : Canon π s1 := (h.paWrite _ _).paWrite _ _
    have h2 : Canon π s2 := h1.withStore _
    have h3 : Canon π s3 := h2.setRegN _ _
    exact .ite (fun _ => h3.mgtEvent _ _ _) fun _ => h3

theorem auditEvent (h : Canon π s) (e : Ev) : Canon π (auditEvent e s) := by
  unfold Machine.auditEvent
  split
  · exact .ite (fun _ => h.auditAppend _ _) fun _ => h
  · exact h

/-! ### Class 0x0C (R494, R495) -/

theorem intEvent (h : Canon π s) (d code q : Nat) (part : Option Nat) (data sev : Nat) : Canon π (intEvent d code q part data sev s) :=
  ((h.setRegN _ _).setRegN _ _).raiseEvent _

/-! ### The enabled engine count (R468, R469) -/

theorem setClus (h : Canon π s) (d c : Nat) (x : ClusterSt) : Canon π (s.setClus d c x) := h.setCell _ _
theorem updClus (h : Canon π s) (d c : Nat) (g : ClusterSt → ClusterSt) : Canon π (s.updClus d c g) := h.setClus _ _ _
theorem setEngineCount (h : Canon π s) : Canon π (setEngineCount s) := h.setRegN _ _

theorem updateEngineCount (h : Canon π s) (cluster : Nat) : Canon π (updateEngineCount cluster s) := by
  unfold Machine.updateEngineCount
  extract_lets _ s1 _ s2 s3
  have h1 : Canon π s1 := h.setEngineCount
  have h2 : Canon π s2 := h1.raiseEvent _
  have h3 : Canon π s3 := foldl (fun _ _ h => h.postEvent _ _) _ h2
  clear_value s1 s2 s3
  exact .ite (fun _ => h1) fun _ => foldl (fun _ _ h => h.retireTarget _) _ h3

end Canon
end Sys2Proof.Machine
end

section
/-! Canonical form: cluster SRAM (R124 to R129). -/
namespace Sys2Proof.Machine
set_option Elab.async false
open Sys2Proof
namespace Canon
variable {π : List Instr} {s t : State}

/-! ### Owners (R128, R129) -/

theorem refuseOwner (h : Canon π s) (d c q part tenant kind : Nat) : Canon π (refuseOwner d c q part tenant kind s) :=
  ((h.bump _ _).raiseEvent _).raiseEvent _
theorem refuseCarve (h : Canon π s) (q seq d c : Nat) : Canon π (refuseCarve q seq d c s) :=
  .ite (fun _ => h.refuseOwner _ _ _ _ _ _) fun _ => h

theorem checkClusters (h : Canon π s) (q seq first count : Nat) : Canon π (checkClusters q seq first count s).2 := by
  unfold Machine.checkClusters
  dsimp only
  split
  · exact h
  · split
    · exact h.refuseOwner _ _ _ _ _ _
    · split
      · exact h
      · exact h

/-! ### The word code (R124 to R126) -/

theorem sramUe (h : Canon π s) (d c word : Nat) (reader : Reader) (part : Option Nat) : Canon π (sramUe d c word reader part s) :=
  (((h.bump _ _).setRegN _ _).logRegister _ _ _ _ _).raiseEvent _

theorem readLine (h : Canon π s) (d c line : Nat) (reader : Reader) (part : Option Nat) :
    Canon π (readLine d c line reader part s).2 := by
  unfold Machine.readLine
  extract_lets _ _ s1
  have h1 : Canon π s1 := .ite (fun _ => h) fun _ => (h.updClus _ _ _).bump _ _
  clear_value s1
  split
  · exact h.sramUe _ _ _ _ _
  · exact h1

theorem readLines (d c : Nat) (reader : Reader) (part : Option Nat) : ∀ (ls : List Nat) {s : State}, Canon π s →
    Canon π (readLines d c reader part ls s).2
  | [], _, h => h
  | l :: ls, s, h => by
    have hl := h.readLine d c l reader part
    rw [readLines_cons]
    generalize Machine.readLine d c l reader part s = r at hl ⊢
    obtain ⟨_ | x, s1⟩ := r
    · exact hl
    · exact readLines d c reader part ls hl

theorem sramRead (h : Canon π s) (d c a n : Nat) (reader : Reader) (part : Option Nat) : Canon π (sramRead d c a n reader part s).2 := by
  unfold Machine.sramRead
  split
  · next hb => exact (readLines _ _ _ _ _ h).snd hb
  · next hb => exact (readLines _ _ _ _ _ h).snd hb

theorem sramPut (h : Canon π s) (d c a : Nat) (bs : List Byte) : Canon π (sramPut d c a bs s) := h.updClus _ _ _

theorem sramWriteLines : ∀ (d : Nat) (c : Nat) (unit : Reader) (part : Option Nat) (x4 : List (Nat × List Byte)) {s : State}, Canon π s →
    Canon π (sramWriteLines d c unit part x4 s).2
  | _, _, _, _, [], _, h => h
  | _, _, _, _, (_, _) :: r, _, h => by
    unfold Machine.sramWriteLines
    dsimp only
    split
    · exact h.sramUe _ _ _ _ _
    · exact sramWriteLines _ _ _ _ r (sramPut (.ite (fun _ => h) fun _ => (h.updClus _ _ _).bump _ _) _ _ _ _)

theorem sramWrite (h : Canon π s) (d c a : Nat) (bs : List Byte) (unit : Reader) (part : Option Nat) :
    Canon π (sramWrite d c a bs unit part s).2 :=
  sramWriteLines _ _ _ _ _ h
theorem sramZero (h : Canon π s) (d c lo hi : Nat) : Canon π (sramZero d c lo hi s) := h.updClus _ _ _

end Canon
end Sys2Proof.Machine
end

section
/-! Canonical form: the vector engine (R141 to R152). -/
namespace Sys2Proof.Machine
set_option Elab.async false
open Sys2Proof
namespace Canon
variable {π : List Instr} {s t : State}

/-! ### The end of a program (R150, R152) -/

theorem endClusters (h : Canon π s) (q seq : Nat) (ends : List (Nat × Nat)) : Canon π (endClusters q seq ends s) := by
  unfold Machine.endClusters
  split
  · exact h.endCommand _ _ _ _
  · exact h.endCommand _ _ _ _

theorem clusterEnded (h : Canon π s) (q seq c status count : Nat) {done : List (Nat × Nat) → State → State}
    (hdone : ∀ a0 t, Canon π t → Canon π (done a0 t)) : Canon π (clusterEnded q seq c status count s done) := by
  unfold Machine.clusterEnded
  split
  · exact h
  · exact .ite (fun _ => h.updFlight _ _ _) fun _ => hdone _ _ (h.updFlight _ _ _)

theorem finishProg (h : Canon π s) (d c : Nat) (p : VProg) (status : Nat) {t : State} (ht : Canon π t) :
    Canon π (finishProg d c p status s t) := by
  unfold Machine.finishProg
  extract_lets s2
  have h2 : Canon π s2 := ht.updClus _ _ _
  clear_value s2
  refine h2.clusterEnded _ _ _ _ _ fun _ _ h4 => ?_
  refine .ite (fun _ => h4.endClusters _ _ _) fun _ => ?_
  split
  · exact h4
  · exact h.finishAcc _ _ _ (h4.vaWrite _ _ _) fun _ _ h => h.endClusters _ _ _

theorem vectorFault (h : Canon π s) (d c : Nat) (p : VProg) (kind opc : Nat) : Canon π (vectorFault d c p kind opc s) := by
  unfold Machine.vectorFault
  extract_lets _ _ s1 s2 s3
  have h1 : Canon π s1 := (h.setRegN _ _).logRegister _ _ _ _ _
  have h2 : Canon π s2 := h1.raiseEvent _
  have h3 : Canon π s3 := .ite (fun _ => h2.refuseCarve _ _ _ _) fun _ => h2
  exact h.finishProg _ _ _ _ h3

/-! ### Issue (R143, R150) -/

theorem vadvance (h : Canon π s) (d c beats : Nat) (next : Option Nat) : Canon π (vadvance d c beats next s) := h.updClus _ _ _

theorem vissue (h : Canon π s) (d c opc : Nat) {g : VProg → Nat → ClusterSt → Machine.VAct}
    (hg : ∀ a0 a1 a2, VAct π (g a0 a1 a2)) : Canon π (vissue d c opc s g) := by
  unfold Machine.vissue
  dsimp only
  split
  · exact h
  · refine .ite (fun _ => h) fun _ => ?_
    refine .ite (fun _ => h.finishProg _ _ _ _ h) fun _ => ?_
    split
    · exact h.vectorFault _ _ _ _ _
    · refine .ite (fun _ => h) fun _ => ?_
      split
      · next hb => exact (((hg _ _ _).go hb).pmcCount _ _ _ _).vadvance _ _ _ _
      · exact h.vectorFault _ _ _ _ _
      · exact h.vectorFault _ _ _ _ _
      · next hb => exact h.finishProg _ _ _ _ ((hg _ _ _).ue hb)
      · exact h.finishProg _ _ _ _ (h.pmcCount _ _ _ _)

theorem vgo (h : Canon π s) (d c : Nat) (x : ClusterSt) : VAct π (vgo d c s x) := h.setClus _ _ _

/-! ### The three-source form -/

theorem vlanes (h : Canon π s) (d c n : Nat) (np nc : Bool) (w : Nat) (x : ClusterSt) (g : Vf → Nat → Nat → Nat → Nat × FpFlags) :
    VAct π (vlanes d c n np nc s w x g) := by
  unfold Machine.vlanes
  dsimp only
  split
  · exact trivial
  · exact h.vgo _ _ _

theorem vcompare (h : Canon π s) (d c most w : Nat) (x : ClusterSt) (g : Nat → Nat → Nat → Bool × FpFlags) :
    VAct π (vcompare d c most s w x g) := by
  unfold Machine.vcompare
  dsimp only
  split
  · exact trivial
  · exact h.vgo _ _ _

end Canon
end Sys2Proof.Machine
end

section
/-! Canonical form: move commands (R133 to R138). -/
namespace Sys2Proof.Machine
set_option Elab.async false
open Sys2Proof
namespace Canon
variable {π : List Instr} {s t : State}

/-! ### The command (R133, R135, R138) -/

theorem moveEnded (h : Canon π s) (q seq : Nat) (ends : List (Nat × Nat)) : Canon π (moveEnded q seq ends s) := by
  unfold Machine.moveEnded
  split
  · exact h
  · exact .ite (fun _ => h.endClusters _ _ _) fun _ => h.updFlight _ _ _

theorem finishMoveAt (h : Canon π s) (m : MoveRun) (d c status : Nat) : Canon π (finishMoveAt m d c status s) := by
  unfold Machine.finishMoveAt
  dsimp only
  exact (h.updClus _ _ _).clusterEnded _ _ _ _ _ fun _ _ h => (h.withClu _).moveEnded _ _ _

theorem settleMove (h : Canon π s) (m : MoveRun) (d c : Nat) : Canon π (settleMove m d c s) := by
  unfold Machine.settleMove
  split
  · exact h
  · split
    · exact h.finishMoveAt _ _ _ _
    · exact .ite (fun _ => h.finishMoveAt _ _ _ _) fun _ => h

theorem startMove (h : Canon π s) (q seq : Nat) (f : Flight) (b : List Byte) {begun : State → State}
    (hbegun : ∀ t, Canon π t → Canon π (begun t)) {fail : Nat → State → State} (hfail : ∀ a0 t, Canon π t → Canon π (fail a0 t)) :
    Canon π (startMove q seq f b s begun fail) := by
  unfold Machine.startMove
  extract_lets _ _ _ _ _ _ _ x1
  have h1 : Acc π x1 := (h.vaRead _ _ _).bind fun _ _ h => (h.vaRead _ _ _).bind fun _ _ h => .ret h
  clear_value x1
  refine .ite (fun _ => hfail _ _ h) fun _ => ?_
  split
  · exact hfail _ _ (h1.recordFault _ _ _)
  · exact h.waitAtStack _
  · refine .ite (fun _ => hfail _ _ h1) fun _ => ?_
    refine .ite (fun _ => ?_) fun _ => ?_
    · exact .ite (fun _ => hfail _ _ (h1.refuseCarve _ _ _ _)) fun _ => hfail _ _ h1
    · split
      · next hb2 =>
          have h3 := (h1.checkClusters _ _ _ _).snd hb2
          refine .ite (fun _ => h) fun _ => ?_
          exact foldl (fun _ _ h => h.settleMove _ _ _) _ (foldl (fun _ _ h => h.updClus _ _ _) _ (hbegun _ (h1.withClu _)))
      · next hb2 => exact hfail _ _ ((h1.checkClusters _ _ _ _).snd hb2)

theorem execMove (h : Canon π s) (q : Qn) (seq : Word64) : Goes π (execMove q seq s) := by
  unfold Machine.execMove
  refine .next ?_
  refine h.withFlight _ _ _ fun _ => ?_
  exact .ite (fun _ => h) fun _ => h.startMove _ _ _ _ (fun _ h => h.updFlight _ _ _) fun _ _ h => h.endCommand _ _ _ _

/-! ### Entries (R134, R136, R137) -/

theorem moveGroups : ∀ {g : List MovePiece → State → Machine.MoveEnd} (_ : ∀ a0 t, Canon π t → MoveEnd π (g a0 t))
    (x1 : List (List MovePiece)) {s : State}, Canon π s → MoveEnd π (moveGroups g x1 s)
  | _, hg, [], _, h => h
  | _, hg, _ :: ps, _, h => by
    unfold Machine.moveGroups
    split
    · next hb => exact moveGroups hg ps ((hg _ _ h).done hb)
    · exact hg _ _ h

theorem fromAcc {α : Type} {x : Machine.Acc α} (h : Acc π x) (rq : Req) {g : α → State → Machine.MoveEnd}
    (hg : ∀ a0 t, Canon π t → MoveEnd π (g a0 t)) : MoveEnd π (fromAcc rq x g) := by
  unfold Machine.fromAcc
  split
  · exact hg _ _ h
  · exact h.recordFault _ _ _
  · exact trivial

theorem putPieces (h : Canon π s) (d c unit : Nat) (part : Option Nat) (ps : List (MovePiece × List Byte)) :
    MoveEnd π (putPieces d c unit part ps s) := by
  unfold Machine.putPieces
  split
  · exact h.sramUe _ _ _ _ _
  · exact foldl (fun _ _ h => h.sramWrite _ _ _ _ _ _) _ h

theorem runEntry (h : Canon π s) (d c : Nat) (drain : Bool) (i op : Nat)
    {g : MoveRun → MoveEntry → Req → Option Nat → State → Machine.MoveEnd}
    (hg : ∀ a0 a1 a2 a3 t, Canon π t → MoveEnd π (g a0 a1 a2 a3 t)) : Canon π (runEntry d c drain i op s g) := by
  unfold Machine.runEntry
  split
  · exact h
  · split
    · split
      · exact h
      · refine .ite (fun _ => h) fun _ => ?_
        split
        · next hb => exact (((hg _ _ _ _ _ h).done hb).updClus _ _ _).settleMove _ _ _
        · next hb => exact (((hg _ _ _ _ _ h).failed hb).updClus _ _ _).settleMove _ _ _
        · exact h.waitAtStack _
    · exact h

theorem readPieces (h : Canon π s) (rq : Req) (ps : List MovePiece) : Acc π (readPieces rq ps s) :=
  Acc.mapM (fun _ _ h => (h.vaRead rq _ _).bind (g := fun _ _ => .ok _ _) fun _ _ h => h) _ h

theorem execMoveLoad (h : Canon π s) (die : Die) (cl : Cluster) (i : BitVec 12) : Goes π (execMoveLoad die cl i s) := by
  unfold Machine.execMoveLoad
  refine .next ?_
  refine h.runEntry _ _ _ _ _ fun _ _ _ _ _ h => ?_
  dsimp only
  split
  · exact moveGroups (fun _ _ h => h.putPieces _ _ _ _ _) _ h
  · split
    · exact fromAcc (h.readPieces _ _) _ fun _ _ h => moveGroups (fun _ _ h => h.putPieces _ _ _ _ _) _ (h.withClu _)
    · exact moveGroups (fun _ _ h => fromAcc (h.readPieces _ _) _ fun _ _ h => h.putPieces _ _ _ _ _) _ h

theorem sramPieces : ∀ (d : Nat) (c : Nat) (unit : Nat) (part : Option Nat) (x4 : List MovePiece) {s : State}, Canon π s →
    Canon π (sramPieces d c unit part x4 s).2
  | _, _, _, _, [], _, h => h
  | _, _, _, _, _ :: ps, _, h => by
    unfold Machine.sramPieces
    split
    · next hb => exact (h.sramRead _ _ _ _ _ _).snd hb
    · next hb =>
        have h1 := (h.sramRead _ _ _ _ _ _).snd hb
        split
        · next hb2 => exact (sramPieces _ _ _ _ ps h1).snd hb2
        · next hb2 => exact (sramPieces _ _ _ _ ps h1).snd hb2

theorem execMoveStore (h : Canon π s) (die : Die) (cl : Cluster) (i : BitVec 12) : Goes π (execMoveStore die cl i s) := by
  unfold Machine.execMoveStore
  refine .next ?_
  refine h.runEntry _ _ _ _ _ fun _ _ _ _ _ h => ?_
  dsimp only
  refine moveGroups (fun _ _ h => ?_) _ h
  split
  · next hb => exact (sramPieces _ _ _ _ _ h).snd hb
  · next hb => exact fromAcc (Acc.forEach (fun _ _ h => h.vaWrite _ _ _) _ ((sramPieces _ _ _ _ _ h).snd hb)) _ fun _ _ h => h

theorem execMoveCopy (h : Canon π s) (die : Die) (cl : Cluster) (i : BitVec 12) : Goes π (execMoveCopy die cl i s) := by
  unfold Machine.execMoveCopy
  refine .next ?_
  refine h.runEntry _ _ _ _ _ fun _ _ _ _ _ h => ?_
  dsimp only
  refine moveGroups (fun _ _ h => ?_) _ h
  split
  · next hb => exact (sramPieces _ _ _ _ _ h).snd hb
  · next hb => exact ((sramPieces _ _ _ _ _ h).snd hb).putPieces _ _ _ _ _

theorem execMoveZero (h : Canon π s) (die : Die) (cl : Cluster) (i : BitVec 12) : Goes π (execMoveZero die cl i s) :=
  .next (h.runEntry _ _ _ _ _ fun _ _ _ _ _ h => moveGroups (fun _ _ h => h.putPieces _ _ _ _ _) _ h)
theorem execMoveFence (h : Canon π s) (die : Die) (cl : Cluster) (drain : Bool) (i : BitVec 12) :
    Goes π (execMoveFence die cl drain i s) :=
  .next (h.runEntry _ _ _ _ _ fun _ _ _ _ _ h => h)

end Canon
end Sys2Proof.Machine
end

section
/-! Canonical form: die-to-die links (R224 to R231). -/
namespace Sys2Proof.Machine
set_option Elab.async false
open Sys2Proof
namespace Canon
variable {π : List Instr} {s t : State}

/-! ### Links and ends -/

theorem setStrand (h : Canon π s) (l k : Nat) (x : Strand) : Canon π (s.setStrand l k x) := h.withD2d _
theorem setTx (h : Canon π s) (e k : Nat) (x : StrandTx) : Canon π (s.setTx e k x) := h.withD2d _
theorem setRx (h : Canon π s) (e k : Nat) (x : StrandRx) : Canon π (s.setRx e k x) := h.withD2d _

/-! ### Credits and the frames that wait (R228, R229) -/

theorem setWaiting (h : Canon π s) (e cls hops : Nat) (fs : List (Nat × D2dFrame)) : Canon π (s.setWaiting e cls hops fs) := h.withD2d _
theorem enqueueFrame (h : Canon π s) (e came : Nat) (f : D2dFrame) : Canon π (enqueueFrame e came f s) := h.setWaiting _ _ _ _
theorem freeBuffer (h : Canon π s) (came cls pool : Nat) : Canon π (freeBuffer came cls pool s) :=
  .ite (fun _ => h) fun _ => h.setRx _ _ _

end Canon
end Sys2Proof.Machine
end

section
/-! Canonical form: the twin table (R489 to R492). -/
namespace Sys2Proof.Machine
set_option Elab.async false
open Sys2Proof
namespace Canon
variable {π : List Instr} {s t : State}

theorem refreshTwinTable (h : Canon π s) : Canon π (refreshTwinTable s) := h.setRegN _ _
theorem setTwins (h : Canon π s) (l : List TwinEntry) : Canon π (s.setTwins l) := (h.withInteg _).refreshTwinTable

theorem settleTwin (h : Canon π s) (e : TwinEntry) : Canon π (settleTwin e s) := by
  unfold Machine.settleTwin
  split
  · extract_lets s1
    have h1 : Canon π s1 := h.setTwins _
    clear_value s1
    exact .ite (fun _ => (((h1.bump _ _).raiseEvent _).auditEvent _).endCommand _ _ _ _) fun _ => (h1.bump _ _).endCommand _ _ _ _
  · exact h

theorem twinGone (h : Canon π s) (e : TwinEntry) (unreachable : Bool) : Canon π (twinGone e unreachable s) := by
  unfold Machine.twinGone
  split
  · exact h
  · exact (((h.setTwins _).bump _ _).raiseEvent _).endCommand _ _ _ _

theorem twinUnreachable (h : Canon π s) : Canon π (twinUnreachable s) := foldl (fun _ _ h => h.twinGone _ _) _ h
theorem dropTwin (h : Canon π s) (q seq : Nat) : Canon π (dropTwin q seq s) := .ite (fun _ => h.setTwins _) fun _ => h

end Canon
end Sys2Proof.Machine
end

section
/-! Canonical form: Wefin ports, packets and routes (R354 to R394). -/
namespace Sys2Proof.Machine
set_option Elab.async false
open Sys2Proof
namespace Canon
variable {π : List Instr} {s t : State}

/-! ### Events and registers (R396, R397) -/

theorem setPort (h : Canon π s) (p : Nat) (x : WPort) : Canon π (s.setPort p x) := h.withWfn _
theorem countPort (h : Canon π s) (p c n : Nat) : Canon π (countPort p c n s) := h.bump _ _
theorem wefinEvent (h : Canon π s) (code src port data : Nat) (crit : Bool) : Canon π (wefinEvent code src port data crit s) :=
  raiseEvent (.ite (fun _ => h) fun _ => (h.setRegN _ _).setRegN _ _) _

/-! ### Packets (R367) -/

theorem nextId (h : Canon π s) (t : PktTo) : Canon π (nextId t s).2 := by
  unfold Machine.nextId
  split
  · exact h
  · exact h.withWfn _

theorem dropPacket (h : Canon π s) (d cause : Nat) (b : List Byte) : Canon π (dropPacket d cause b s) := (h.bump _ _).wefinEvent _ _ _ _ _

/-! ### Bundles (R369 to R372) -/

theorem enqueue (h : Canon π s) (p : Nat) (x : OutPkt) : Canon π (enqueue p x s) := h.setPort _ _

theorem unbindRoute (h : Canon π s) (bank : Option Nat) : Canon π (unbindRoute bank s) := by
  unfold Machine.unbindRoute
  split
  · exact h.setBank _ _
  · exact h

theorem crossFrame (h : Canon π s) (die p : Nat) (x : OutPkt) (i : Nat) : Canon π (crossFrame die p x i s) :=
  (h.withD2d _).enqueueFrame _ _ _
theorem leaveBy (h : Canon π s) (die p : Nat) (x : OutPkt) : Canon π (leaveBy die p x s) :=
  .ite (fun _ => h.enqueue _ _) fun _ => foldl (fun _ _ h => h.crossFrame _ _ _ _) _ (h.withWfn _)

theorem sendBundle (h : Canon π s) (die : Nat) (chunk : Option Nat) (x : OutPkt) : Canon π (sendBundle die chunk x s) := by
  unfold Machine.sendBundle
  split
  · exact h.leaveBy _ _ _
  · exact (h.unbindRoute _).withWfn _

theorem landPacket (h : Canon π s) (f : D2dFrame) : Canon π (landPacket f s) := by
  unfold Machine.landPacket
  split
  · exact h
  · exact .ite (fun _ => h.withWfn _) fun _ => .ite (fun _ => (h.withWfn _).enqueue _ _) fun _ => (h.withWfn _).sendBundle _ _ _

theorem dropCrossings (h : Canon π s) (d : Nat) : Canon π (dropCrossings d s) := foldl (fun _ _ h => h.unbindRoute _) _ (h.withWfn _)
theorem newPkt (h : Canon π s) (bytes : List Byte) (vp dir : Nat) (bank : Option Nat) : Canon π (newPkt bytes vp dir bank s).2 :=
  h.withWfn _

theorem sendOneHop (h : Canon π s) (p : Nat) (t : PktTo) : Canon π (sendOneHop p t s) := by
  unfold Machine.sendOneHop
  dsimp only
  exact ((h.nextId _).newPkt _ _ _ _).enqueue _ _

/-! ### The route table (R382 to R385) -/

theorem bindRoute (h : Canon π s) : Canon π (bindRoute s).2 := h.setBank _ _
theorem dropUnreachable (h : Canon π s) (d : Nat) (b : List Byte) : Canon π (dropUnreachable d b s) :=
  (h.dropPacket _ _ _).wefinEvent _ _ _ _ _

theorem routePacket (h : Canon π s) {die : Nat} {chunk : Option Nat} {came : Option (Nat × Nat)} {b : List Byte} {i : Nat}
    (hb : routePacket die chunk came b i s = some t) : Canon π t := by
  unfold Machine.routePacket at hb
  dsimp only at hb
  split at hb
  · exact absurd hb (by simp)
  · rw [← Option.some.inj hb]
    exact (h.bindRoute.newPkt _ _ _ _).sendBundle _ _ _

theorem routeTwin (h : Canon π s) {die : Nat} {came : Option (Nat × Nat)} {b : List Byte} (hb : routeTwin die came b s = some t) :
    Canon π t := by
  unfold Machine.routeTwin at hb
  dsimp only at hb
  split at hb
  · rw [← Option.some.inj hb]
    exact (h.newPkt _ _ _ _).sendBundle _ _ _
  · split at hb
    · exact h.routePacket hb
    · exact absurd hb (by simp)

theorem rerouteHeld (h : Canon π s) (o : OutPkt) : Canon π (rerouteHeld o s) := by
  unfold Machine.rerouteHeld
  dsimp only
  refine .ite (fun _ => h.sendBundle _ _ _) fun _ => ?_
  split
  · next hb =>
    split at hb
    · exact h.routeTwin hb
    · exact h.routePacket hb
  · exact h.dropUnreachable _ _

theorem inject (h : Canon π s) (t : PktTo) (chunk : Option Nat) : Inject π (inject t chunk s) := by
  unfold Machine.inject
  split
  · exact trivial
  · dsimp only
    have h1 := h.nextId t
    split
    · exact trivial
    · split
      · next hb =>
        split at hb
        · exact h1.routeTwin hb
        · exact h1.routePacket hb
      · exact h1.dropUnreachable _ _

/-! ### Flits (R358 to R361, R364 to R366) -/

theorem setOut (h : Canon π s) (p id : Nat) (g : OutPkt → OutPkt) : Canon π (setOut p id g s) := h.setPort _ _

theorem sendFlit (h : Canon π s) (p pool : Nat) : Canon π (sendFlit p pool s) := by
  unfold Machine.sendFlit
  dsimp only
  refine .ite (fun _ => h) fun _ => ?_
  split
  · exact h.setPort _ _
  · split
    · exact h
    · exact (countPort (.ite (fun _ => ((h.setPort _ _).setOut _ _ _).unbindRoute _) fun _ =>
        (h.setPort _ _).setOut _ _ _) _ _ _).pmcCount _ _ _ _

/-! ### Leaving and entering UP (R362, R372, R380, R389) -/

theorem setRegion (h : Canon π s) (r : Nat) (x : Region) : Canon π (s.setRegion r x) := h.withWfn _
theorem refreshDisc (h : Canon π s) : Canon π (refreshDisc s) := ((h.setRfld _ _ _ _).setRfld _ _ _ _).setRfld _ _ _ _
theorem unsettle (h : Canon π s) (r epoch : Nat) : Canon π (unsettle r epoch s) := ((h.setRegion _ _).refreshDisc).wefinEvent _ _ _ _ _
theorem floodOwn (h : Canon π s) : Canon π (floodOwn s) :=
  .ite (fun _ => h) fun _ => foldl (fun _ _ h => h.sendOneHop _ _) _ ((h.withWfn _).withWfn _)
theorem portChange (h : Canon π s) (p : Nat) : Canon π (portChange p s) :=
  .ite (fun _ => h) fun _ => floodOwn (.ite (fun _ => (h.unsettle _ _).unsettle _ _) fun _ => h.unsettle _ _)

theorem refreshTwin (h : Canon π s) : Canon π (refreshTwin s) := by
  unfold Machine.refreshTwin
  extract_lets _ _ _ _ s1 s2
  have h1 : Canon π s1 := h.setRegN _ _
  have h2 : Canon π s2 := h1.wefinEvent _ _ _ _ _
  clear_value s1 s2
  exact .ite (fun _ => h1) fun _ => .ite (fun _ => h2.twinUnreachable) fun _ => h2

theorem resendPackets (h : Canon π s) (p : Nat) : Canon π (resendPackets p s) :=
  foldl (fun _ _ h => h.sendBundle _ _ _) _ ((h.setPort _ _).withWfn _)

theorem leaveTo (h : Canon π s) (p st : Nat) : Canon π (leaveTo p st s) := by
  unfold Machine.leaveTo
  extract_lets _ s1 s2
  have h1 : Canon π s1 := h.setRfld _ _ _ _
  have h2 : Canon π s2 := .ite (fun _ => ((h1.wefinEvent _ _ _ _ _).portChange _).refreshTwin) fun _ => h1
  clear_value s1 s2
  exact .ite (fun _ => h2) fun _ => h2.resendPackets _

theorem enterRetrain (h : Canon π s) (p : Nat) : Canon π (enterRetrain p s) := (h.setRfld _ _ _ _).leaveTo _ _
theorem releaseHeld (h : Canon π s) : Canon π (releaseHeld s) := foldl (fun _ _ h => h.rerouteHeld _) _ (h.withWfn _)
theorem enterUp (h : Canon π s) (p result : Nat) : Canon π (enterUp p result s) :=
  (((((h.setRfld _ _ _ _).setRfld _ _ _ _).wefinEvent _ _ _ _ _).portChange _).refreshTwin).releaseHeld

theorem finishQuiesce (h : Canon π s) (p : Nat) : Canon π (finishQuiesce p s) := by
  unfold Machine.finishQuiesce
  extract_lets _ s1
  have h1 : Canon π s1 := h.leaveTo _ _
  clear_value s1
  refine .ite (fun _ => ?_) fun _ => h
  split
  · exact (h1.setPort _ _).endCommand _ _ _ _
  · exact h1

/-! ### Receiving flits (R357, R359) -/

theorem wfnTakeAck (h : Canon π s) (p ack : Nat) : Canon π (wfnTakeAck p ack s) := by
  unfold Machine.wfnTakeAck
  dsimp only
  split
  · exact h
  · exact .ite (fun _ => h) fun _ => (h.setPort _ _).finishQuiesce _

theorem freeFlits (h : Canon π s) (p vp n : Nat) : Canon π (freeFlits p vp n s) := h.setPort _ _

theorem leaveBuffer (h : Canon π s) (a : Arrived) : Canon π (leaveBuffer a s) := by
  unfold Machine.leaveBuffer
  extract_lets s1
  have h1 : Canon π s1 := h.freeFlits _ _ _
  clear_value s1
  split
  · exact (h1.withWfn _).freeFlits _ _ _
  · exact (h1.setPort _ _).freeFlits _ _ _

theorem acceptFlit (h : Canon π s) (p : Nat) (f : List Byte) : Canon π (acceptFlit p f s) :=
  .ite (fun _ => ((h.setPort _ _).countPort _ _ _).withWfn _) fun _ => (h.setPort _ _).countPort _ _ _

/-! ### Packets at their destination (R368) -/

theorem takeArrived (h : Canon π s) {p : Nat} {want : List Byte → Bool} {a : Arrived} (hb : takeArrived p want s = some (a, t)) :
    Canon π t := by
  unfold Machine.takeArrived at hb
  split at hb
  · exact absurd hb (by simp)
  · obtain ⟨rfl, rfl⟩ := Prod.mk.inj (Option.some.inj hb)
    exact (h.withWfn _).leaveBuffer _

theorem receiveChecks (h : Canon π s) (a : Arrived) {go : List Byte → State → State}
    (hgo : ∀ a0 t, Canon π t → Canon π (go a0 t)) : Canon π (receiveChecks a s go) := by
  unfold Machine.receiveChecks
  dsimp only
  refine .ite (fun _ => h.dropPacket _ _ _) fun _ => ?_
  refine .ite (fun _ => h.dropPacket _ _ _) fun _ => ?_
  refine .ite (fun _ => h.dropPacket _ _ _) fun _ => ?_
  refine .ite (fun _ => ?_) fun _ => hgo _ _ h
  split
  · exact h.dropPacket _ _ _
  · exact hgo _ _ (h.withWfn _)

theorem receivePacket (h : Canon π s) (p ptype : Nat) {go : Arrived → List Byte → State → State}
    (hgo : ∀ a b t, Canon π t → Canon π (go a b t)) : Canon π (receivePacket p ptype s go) := by
  unfold Machine.receivePacket
  split
  · exact h
  · next hb => exact (h.takeArrived hb).receiveChecks _ (hgo _)

end Canon
end Sys2Proof.Machine
end

section
/-! Canonical form: collective engines (R313 to R353). -/
namespace Sys2Proof.Machine
set_option Elab.async false
open Sys2Proof
namespace Canon
variable {π : List Instr} {s t : State}

/-! ### Groups (R313 to R318) -/

theorem setGroup (h : Canon π s) (g : Nat) (x : Machine.Group) : Canon π (s.setGroup g x) := h.withColl _
theorem setGdie (h : Canon π s) (g d : Nat) (x : GroupDie) : Canon π (s.setGdie g d x) := h.withColl _
theorem refreshMemberStore (h : Canon π s) : Canon π (refreshMemberStore s) := h.setRfld _ _ _ _
theorem setOp (h : Canon π s) (g d : Nat) (quick : Bool) (o : CollOp) : Canon π (s.setOp g d quick o) := h.setGdie _ _ _

/-! ### Events (R352, R353) -/

theorem collEvent (h : Canon π s) (d code g rank data : Nat) (pf : Bool) : Canon π (collEvent d code g rank data pf s) :=
  ((h.setRegN _ _).setRegN _ _).raiseEvent _

/-! ### Messages (R324) -/

theorem collPost (h : Canon π s) (d entry tenant : Nat) (chunk : Option Nat) (m : List Byte) :
    Canon π (collPost d entry tenant chunk m s).2 := by
  unfold Machine.collPost
  split
  · split
    · exact h
    · exact h.withColl _
  · split
    · next hb => exact (h.inject _ _).sent hb
    · exact h
    · exact h
    · next hb => exact (h.inject _ _).unreachable hb

/-! ### Aborts (R345, R346) -/

theorem dropPrefetch (h : Canon π s) (ops : List CollOp) : Canon π (dropPrefetch ops s) :=
  withClu (foldl (fun _ _ h => h.updClus _ _ _) _ h) _
theorem sendAborts (h : Canon π s) (g d cause : Nat) (o : CollOp) : Canon π (sendAborts g d cause o s) :=
  .ite (fun _ => h) fun _ => foldl (fun _ _ h => h.collPost _ _ _ _ _) _ h
theorem collAbort (h : Canon π s) (g d cause q seq : Nat) : Canon π (collAbort g d cause q seq s) :=
  .ite (fun _ => h) fun _ => (((((h.setGdie _ _ _).dropPrefetch _).sendAborts _ _ _ _).bump _ _).collEvent _ _ _ _ _ _).endAll _
theorem collFail (h : Canon π s) (g d : Nat) (o : CollOp) (status detail : Nat) : Canon π (collFail g d o status detail s) :=
  (h.endCommand _ _ _ _).collAbort _ _ _ _ _

theorem collDrop (h : Canon π s) (q seq cause : Nat) : Canon π (collDrop q seq cause s) := by
  unfold Machine.collDrop
  extract_lets _ s1
  have h1 : Canon π s1 := h.withColl _
  clear_value s1
  split
  · exact h1.collAbort _ _ _ _ _
  · exact h1

/-! ### Running the current operation -/

theorem collAcc {α : Type} (h : Canon π s) (g d : Nat) (o : CollOp) {x : Machine.Acc α} (hx : Acc π x) {k : α → State → State}
    (hk : ∀ a0 t, Canon π t → Canon π (k a0 t)) : Canon π (collAcc g d o s x k) := by
  unfold Machine.collAcc
  split
  · exact hk _ _ hx
  · exact (hx.recordFault _ _ _).collFail _ _ _ _ _
  · exact h.waitAtStack _

theorem collSend (h : Canon π s) (g d : Nat) (quick : Bool) (rank kind dir round pos : Nat) (payload : List Byte)
    (chunk : Option Nat) {k : State → State} (hk : ∀ t, Canon π t → Canon π (k t)) :
    Canon π (collSend g d quick rank kind dir round pos payload chunk s k) := by
  unfold Machine.collSend
  refine .ite (fun _ => h) fun _ => ?_
  split
  · exact h
  · dsimp only
    split
    · next hb =>
        have h1 := (h.collPost _ _ _ _ _).snd hb
        exact hk _ (.ite (fun _ => h1.pmcCount _ _ _ _) fun _ => h1)
    · next hb => exact ((h.collPost _ _ _ _ _).snd hb).collFail _ _ _ _ _

theorem readOwn (h : Canon π s) (o : CollOp) (dir c sh : Nat) : Acc π (readOwn o dir c sh s) := h.vaRead _ _ _
theorem writeOut (h : Canon π s) (o : CollOp) (sh first w : Nat) (bs : List Byte) : Acc π (writeOut o sh first w bs s) := h.vaWrite _ _ _
theorem gatherOut (h : Canon π s) (g : Nat) (o : CollOp) (sh dir c : Nat) (bs : List Byte) : Acc π (gatherOut g o sh dir c bs s) :=
  .ite (fun _ => h.writeOut _ _ _ _ _) fun _ => .ret h

theorem noteLag (h : Canon π s) (g d : Nat) (o : CollOp) : Canon π (noteLag g d o s) := by
  unfold Machine.noteLag
  extract_lets _ _ _ _ _ _ _ _ s1 _ s2
  have h1 : Canon π s1 := (h.setGdie _ _ _).bump _ _
  have h2 : Canon π s2 := .ite (fun _ => h1.collEvent _ _ _ _ _ _) fun _ => h1
  clear_value s1 s2
  refine .ite (fun _ => (h2.setGdie _ _ _).collEvent _ _ _ _ _ _) fun _ => ?_
  exact .ite (fun _ => ((h2.setGdie _ _ _).bump _ _).collEvent _ _ _ _ _ _) fun _ => .ite (fun _ => h2.setGdie _ _ _) fun _ => h2

/-! ### Prefetch (R336) -/

theorem setPrefetch (h : Canon π s) (g d q seq k : Nat) (body : List Byte) : Canon π (setPrefetch g d q seq k body s) :=
  .ite (fun _ => (h.withColl _).setGdie _ _ _) fun _ => h.withColl _

theorem tryPrefetch (h : Canon π s) (g d : Nat) (o : CollOp) : Canon π (tryPrefetch g d o s) := by
  unfold Machine.tryPrefetch
  split
  · exact h
  · dsimp only
    refine .ite (fun _ => h) fun _ => ?_
    refine .ite (fun _ => ?_) fun _ => ?_
    · exact h.startMove _ _ _ _ (fun _ h => h.setPrefetch _ _ _ _ _ _) fun _ _ h =>
        .ite (fun _ => (h.setPrefetch _ _ _ _ _ _).endCommand _ _ _ _) fun _ => (h.setPrefetch _ _ _ _ _ _).updFlight _ _ _
    · split
      · next hb =>
          have h1 := (h.vaRead _ _ _).ok hb
          refine .ite (fun _ => ?_) fun _ => ?_
          · exact (h1.setPrefetch _ _ _ _ _ _).startMove _ _ _ _ (fun _ h => h.setPrefetch _ _ _ _ _ _) fun _ _ h =>
              .ite (fun _ => (h.setPrefetch _ _ _ _ _ _).endCommand _ _ _ _) fun _ => (h.setPrefetch _ _ _ _ _ _).updFlight _ _ _
          · exact .ite (fun _ => (h1.setPrefetch _ _ _ _ _ _).endCommand _ _ _ _) fun _ => (h1.setPrefetch _ _ _ _ _ _).updFlight _ _ _
      · next hb =>
          have h1 := (h.vaRead _ _ _).fault hb
          exact .ite (fun _ => ((h1.recordFault _ _ _).setPrefetch _ _ _ _ _ _).endCommand _ _ _ _) fun _ =>
            ((h1.recordFault _ _ _).setPrefetch _ _ _ _ _ _).updFlight _ _ _
      · next hb => exact h.waitAtStack _

/-! ### Completion -/

theorem releaseMembers (h : Canon π s) (g q seq : Nat) : Canon π (releaseMembers g q seq s) := by
  unfold Machine.releaseMembers
  split
  · exact h
  · exact (releaseBanks _ h).updFlight _ _ _

theorem finishOp (h : Canon π s) (g d : Nat) (quick : Bool) : Canon π (finishOp g d quick s) := by
  unfold Machine.finishOp
  split
  · exact h
  · extract_lets s1 _ _ _ s2 s3 s4
    have h1 : Canon π s1 := .ite (fun _ => h) fun _ => h.tryPrefetch _ _ _
    have h2 : Canon π s2 := h1.setGdie _ _ _
    have h3 : Canon π s3 := (h2.bump _ _).noteLag _ _ _
    have h4 : Canon π s4 := (h3.releaseMembers _ _ _).updFlight _ _ _
    clear_value s1 s2 s3 s4
    split
    · exact h3
    · refine .ite (fun _ => h3.endCommand _ _ _ _) fun _ => ?_
      split
      · exact h3.endCommand _ _ _ _
      · exact .ite (fun _ => h4) fun _ => h4.withColl _

theorem settleBulk (h : Canon π s) (g d : Nat) : Canon π (settleBulk g d s) := by
  unfold Machine.settleBulk
  split
  · exact h
  · exact .ite (fun _ => h.finishOp _ _ _) fun _ => h

/-! ### Beginning an operation -/

theorem sendCredit (h : Canon π s) (g d dir : Nat) : Canon π (sendCredit g d dir s) := by
  unfold Machine.sendCredit
  split
  · exact h
  · exact .ite (fun _ => h) fun _ => (h.setOp _ _ _ _).collSend _ _ _ _ _ _ _ _ _ _ fun _ h => h

theorem sendOwed (h : Canon π s) (g d dir : Nat) : Canon π (sendOwed g d dir s) := by
  unfold Machine.sendOwed
  split
  · exact h
  · exact .ite (fun _ => h.sendCredit _ _ _) fun _ => h

theorem ownWork (h : Canon π s) (g : Nat) (o : CollOp) (n : Nat) (red : Bool) : Acc π (ownWork g o n red s) := by
  unfold Machine.ownWork
  refine Acc.forEach (fun _ _ h => ?_) _ h
  refine .ite (fun _ => ?_) fun _ => ?_
  · exact (h.readOwn _ _ _ _).bind fun _ _ h => h.gatherOut _ _ _ _ _ _
  · exact .ite (fun _ => (h.readOwn _ _ _ _).bind fun _ _ h => h.writeOut _ _ _ _ _) fun _ => .ret h

/-! ### The quick path (R348) -/

theorem quickDone (h : Canon π s) (g d steps : Nat) : Canon π (quickDone g d steps s) := by
  unfold Machine.quickDone
  split
  · exact h
  · dsimp only
    refine .ite (fun _ => .ite (fun _ => h.finishOp _ _ _) fun _ => h) fun _ => ?_
    refine .ite (fun _ => ?_) fun _ => ?_
    · exact .ite (fun _ => (h.setOp _ _ _ _).finishOp _ _ _) fun _ => h.setOp _ _ _ _
    · exact h.collAcc _ _ _ (h.vaWrite _ _ _) fun _ _ h => .ite (fun _ => (h.setOp _ _ _ _).finishOp _ _ _) fun _ => h.setOp _ _ _ _

theorem quickRun : ∀ (g : Nat) (d : Nat) (x2 : Nat) {s : State}, Canon π s → Canon π (quickRun g d x2 s)
  | _, _, 0, _, h => h
  | _, _, fuel + 1, _, h => by
    unfold Machine.quickRun
    dsimp only
    split
    · exact h
    · split
      · exact h.quickDone _ _ _
      · exact collSend (.ite (fun _ => h) fun _ => h.setOp _ _ _ _) _ _ _ _ _ _ _ _ _ _ fun _ h => quickRun _ _ fuel h
      · split
        · exact h
        · exact quickRun _ _ fuel (h.setOp _ _ _ _)
      · split
        · exact h
        · exact quickRun _ _ fuel (h.setOp _ _ _ _)

theorem beginOp (h : Canon π s) (g d : Nat) (quick : Bool) : Canon π (beginOp g d quick s) := by
  unfold Machine.beginOp
  split
  · exact h
  · refine .ite (fun _ => h) fun _ => ?_
    dsimp only
    refine .ite (fun _ => ?_) fun _ => ?_
    · exact h.collAcc _ _ _ (.ite (fun _ => h.vaRead _ _ _) fun _ => .ret h) fun _ _ h => quickRun _ _ _ (h.setOp _ _ _ _)
    · exact h.collAcc _ _ _ (h.ownWork _ _ _ _) fun _ _ h => (((h.setOp _ _ _ _).sendCredit _ _ _).sendCredit _ _ _).settleBulk _ _

/-! ### Sending chunks (R322, R329, R337) -/

theorem chunkBytes (h : Canon π s) (g d : Nat) (o : CollOp) (dir t c : Nat) : Acc π (chunkBytes g d o dir t c s) := by
  unfold Machine.chunkBytes
  extract_lets _ _ _ inc staged
  have h1 : Acc π staged := by
    clear_value inc
    unfold staged
    split
    · exact h.vaRead _ _ _
    · exact .ret h
  clear_value staged
  refine .ite (fun _ => ?_) fun _ => ?_
  · exact Acc.bind (.ite (fun _ => h.readOwn _ _ _ _) fun _ => h1) fun _ _ h => .ret h
  · exact h1.bind fun _ _ h => (h.readOwn _ _ _ _).bind fun _ _ h => .ite (fun _ => .ret h) fun _ => .ret h

theorem sendChunk (h : Canon π s) (g d dir : Nat) : Canon π (sendChunk g d dir s) := by
  unfold Machine.sendChunk
  split
  · exact h
  · dsimp only
    split
    · exact h
    · refine h.collAcc _ _ _ ?_ fun _ _ h => ?_
      · refine (h.chunkBytes _ _ _ _ _ _).bind fun _ _ h => ?_
        split
        · exact .ret h
        · exact (h.vaWrite _ _ _).bind fun _ _ h => .ret h
      · split
        · exact h.collFail _ _ _ _ _
        · exact (h.setOp _ _ _ _).collSend _ _ _ _ _ _ _ _ _ _ fun _ h => .ite (fun _ => h.sendCredit _ _ _) fun _ => h

theorem resendChunks (h : Canon π s) (g d dir : Nat) (due : CollChunk → Bool) : Canon π (resendChunks g d dir due s) := by
  unfold Machine.resendChunks
  split
  · exact h
  · dsimp only
    refine .ite (fun _ => h) fun _ => ?_
    refine foldl (fun _ _ h => ?_) _ h
    split
    · exact h
    · exact h.collAcc _ _ _ (h.vaRead _ _ _) fun _ _ h => ((h.setOp _ _ _ _).bump _ _).collSend _ _ _ _ _ _ _ _ _ _ fun _ h => h

theorem resendQuick (h : Canon π s) (g d : Nat) (due : QuickMsg → Bool) : Canon π (resendQuick g d due s) := by
  unfold Machine.resendQuick
  split
  · exact h
  · refine .ite (fun _ => h) fun _ => ?_
    refine foldl (fun _ _ h => ?_) _ h
    split
    · exact h
    · exact ((h.setOp _ _ _ _).bump _ _).collSend _ _ _ _ _ _ _ _ _ _ fun _ h => h

theorem rerouteTo (h : Canon π s) (changed : Nat → Nat → Bool) (g d peer bank n : Nat) {resend : State → State}
    (hresend : ∀ t, Canon π t → Canon π (resend t)) : Canon π (rerouteTo changed g d peer bank n resend s) :=
  .ite (fun _ => h) fun _ => (hresend _ h).collEvent _ _ _ _ _ _

theorem routeChanged (h : Canon π s) (changed : Nat → Nat → Bool) : Canon π (routeChanged changed s) := by
  unfold Machine.routeChanged
  refine foldl (fun _ _ h => ?_) _ h
  extract_lets _ _ s2
  have h2 : Canon π s2 := by
    unfold s2
    refine foldl (fun _ _ h => ?_) _ h
    split
    · exact h
    · exact h.rerouteTo _ _ _ _ _ _ fun _ h => h.resendChunks _ _ _ _
  clear_value s2
  split
  · exact h2
  · exact foldl (fun _ _ h => h.rerouteTo _ _ _ _ _ _ fun _ h => h.resendQuick _ _ _) _ h2

end Canon
end Sys2Proof.Machine
end

section
/-! Canonical form: arrays and tile commands. -/
namespace Sys2Proof.Machine
set_option Elab.async false
open Sys2Proof
namespace Canon
variable {π : List Instr} {s t : State}

/-! ### State -/

theorem setArray (h : Canon π s) (d c a : Nat) (x : ArraySt) : Canon π (s.setArray d c a x) :=
  { h with arrays := cwf_cset _ _ h.arrays }
theorem setFinals (h : Canon π s) (d c : Nat) (x : List (Nat × Nat)) : Canon π (s.setFinals d c x) :=
  { h with finals := cwf_cset _ _ h.finals }
theorem setSpills (h : Canon π s) (d c : Nat) (x : List Spill) : Canon π (s.setSpills d c x) :=
  { h with spills := cwf_cset _ _ h.spills }
theorem updRun (h : Canon π s) (q seq : Nat) (g : TileRun → TileRun) : Canon π (s.updRun q seq g) := h.withTile _
theorem updPw (h : Canon π s) (d : Nat) (g : PwDie → PwDie) : Canon π (s.updPw d g) := h.withPower _

/-! ### Freezes (R107, R108) -/

theorem freeze (h : Canon π s) (d c a cause : Nat) : Canon π (freeze d c a cause s) := by
  unfold Machine.freeze
  dsimp only
  split
  · exact .ite (fun _ => h) fun _ => (h.bump _ _).setArray _ _ _ _
  · exact h.setArray _ _ _ _

theorem thaw (h : Canon π s) (d c a : Nat) : Canon π (thaw d c a s) := by
  unfold Machine.thaw
  dsimp only
  split
  · exact (h.bump _ _).setArray _ _ _ _
  · exact h

/-! ### Failure (R103, R112, R117) -/

theorem leaveArray (h : Canon π s) (d c q seq a : Nat) : Canon π (leaveArray d c q seq s a) :=
  setArray (.ite (fun _ => h.thaw _ _ _) fun _ => h) _ _ _ _

theorem dropTile (h : Canon π s) (q seq : Nat) : Canon π (dropTile q seq s) := by
  unfold Machine.dropTile
  split
  · exact h
  · exact withTile (foldl (fun _ _ h => (setFinals (foldl (fun _ _ h => h.leaveArray _ _ _ _ _) _ h) _ _ _).setSpills _ _ _) _ h) _

theorem landRow (h : Canon π s) (rq : Req) (x : Spill) : Canon π (landRow rq s x) := by
  unfold Machine.landRow
  dsimp only
  refine .ite (fun _ => h.draw) fun _ => ?_
  split
  · next hb => exact (h.draw.vaWrite _ _ _).ok hb
  · exact h.draw

theorem landSome (h : Canon π s) (q seq : Nat) : Canon π (landSome q seq s) := by
  unfold Machine.landSome
  split
  · exact foldl (fun _ _ h => h.landRow _ _) _ h
  · exact h

theorem failTile (h : Canon π s) (r : TileRun) (c status : Nat) : Canon π (failTile r c status s) :=
  ((h.landSome _ _).dropTile _ _).endCommand _ _ _ _

end Canon
end Sys2Proof.Machine
end

section
/-! Canonical form: streams (R236 to R246). -/
namespace Sys2Proof.Machine
set_option Elab.async false
open Sys2Proof
namespace Canon
variable {π : List Instr} {s t : State}

/-! ### Events and failure (R242 to R246) -/

theorem d2dEvent (h : Canon π s) (d kind port strand cluster num : Nat) (part : Option Nat) :
    Canon π (d2dEvent d kind port strand cluster num part s) :=
  (((h.setRegN _ _).setRegN _ _).logRegister _ _ _ _ _).raiseEvent _
theorem streamEvent (h : Canon π s) (x : Machine.Stream) (kind cl : Nat) : Canon π (streamEvent x kind cl s) := h.d2dEvent _ _ _ _ _ _ _
theorem updStream (h : Canon π s) (gen : Nat) (g : Machine.Stream → Machine.Stream) : Canon π (updStream gen g s) := h.withD2d _
theorem updStreamCl (h : Canon π s) (gen c : Nat) (g : StreamCl → StreamCl) : Canon π (updStreamCl gen c g s) := h.updStream _ _

theorem unbindStream (h : Canon π s) (gen : Nat) : Canon π (unbindStream gen s) := by
  unfold Machine.unbindStream
  split
  · split
    · exact (h.setBank _ _).updStream _ _
    · exact h
  · exact h

theorem failStream (h : Canon π s) (gen status : Nat) : Canon π (failStream gen status s) := by
  unfold Machine.failStream
  split
  · exact h
  · refine .ite (fun _ => h) fun _ => ?_
    extract_lets s1 s2 s3
    have h1 : Canon π s1 := h.updStream _ _
    have h2 : Canon π s2 := ((h1.bump _ _).streamEvent _ _ _).unbindStream _
    have h3 : Canon π s3 := .ite (fun _ => h2.endCommand _ _ _ _) fun _ => h2
    clear_value s1 s2 s3
    refine foldl (fun _ _ h => ?_) _ h3
    split
    · exact h.failTile _ _ _
    · exact h

/-! ### OPEN (R237) -/

theorem checkBoth (h : Canon π s) (q seq first count sender : Nat) : Canon π (checkBoth q seq first count sender s).2 := by
  unfold Machine.checkBoth
  dsimp only
  split
  · exact h.refuseOwner _ _ _ _ _ _
  · split
    · exact h
    · exact h

theorem execStreamOpen (h : Canon π s) (q : Qn) (seq : Word64) : Goes π (execStreamOpen q seq s) := by
  unfold Machine.execStreamOpen
  refine .next ?_
  refine h.withFlight _ _ _ fun _ => ?_
  extract_lets _ _ _ _ _ _ _ _ s1 _ s2
  have h1 : Canon π s1 := .ite (fun _ => h.setBank _ _) fun _ => h
  have h2 : Canon π s2 := h1.withD2d _
  clear_value s1 s2
  refine .ite (fun _ => h) fun _ => ?_
  refine .ite (fun _ => h.endCommand _ _ _ _) fun _ => ?_
  split
  · next hb =>
      have h3 := (h.checkBoth _ _ _ _ _).snd hb
      exact .ite (fun _ => h.endCommand _ _ _ _) fun _ => .ite (fun _ => h2.updFlight _ _ _) fun _ => h2.endCommand _ _ _ _
  · next hb => exact ((h.checkBoth _ _ _ _ _).snd hb).endCommand _ _ _ _

/-! ### RELEASE and CLOSE (R239, R240) -/

theorem execStreamRelease (h : Canon π s) (q : Qn) (seq : Word64) : Goes π (execStreamRelease q seq s) := by
  unfold Machine.execStreamRelease
  refine .next ?_
  refine h.withFlight _ _ _ fun _ => ?_
  dsimp only
  refine .ite (fun _ => h) fun _ => ?_
  refine .ite (fun _ => h.endCommand _ _ _ _) fun _ => ?_
  split
  · next hb =>
      have h1 := (h.checkClusters _ _ _ _).snd hb
      split
      · exact h.endCommand _ _ _ _
      · split
        · exact h.endCommand _ _ _ _
        · exact .ite (fun _ => h.endCommand _ _ _ _) fun _ => h.updFlight _ _ _
  · next hb => exact ((h.checkClusters _ _ _ _).snd hb).endCommand _ _ _ _

theorem execStreamReleaseApply (h : Canon π s) (q : Qn) (seq : Word64) : Goes π (execStreamReleaseApply q seq s) := by
  unfold Machine.execStreamReleaseApply
  refine .next ?_
  refine h.withFlight _ _ _ fun _ => ?_
  dsimp only
  split
  · exact .ite (fun _ => h) fun _ => .ite (fun _ => h.endCommand _ _ _ _) fun _ => (h.updStream _ _).endCommand _ _ _ _
  · exact h

theorem endStreamIn (h : Canon π s) (gen status : Nat) (cs : List Nat) : Canon π (endStreamIn gen status cs s) := by
  unfold Machine.endStreamIn
  extract_lets s1 s2
  have h1 : Canon π s1 := h.updStream _ _
  have h2 : Canon π s2 := h1.unbindStream _
  clear_value s1 s2
  split
  · exact h1
  · exact .ite (fun _ => .ite (fun _ => (h2.updStream _ _).endCommand _ _ _ _) fun _ => h2) fun _ => h1

theorem execStreamClose (h : Canon π s) (q : Qn) (seq : Word64) : Goes π (execStreamClose q seq s) := by
  unfold Machine.execStreamClose
  refine .next ?_
  refine h.withFlight _ _ _ fun _ => ?_
  dsimp only
  refine .ite (fun _ => h) fun _ => ?_
  refine .ite (fun _ => h.endCommand _ _ _ _) fun _ => ?_
  split
  · next hb =>
      have h1 := (h.checkClusters _ _ _ _).snd hb
      split
      · exact h.endCommand _ _ _ _
      · exact (h.endStreamIn _ _ _).endCommand _ _ _ _
  · next hb => exact ((h.checkClusters _ _ _ _).snd hb).endCommand _ _ _ _

/-! ### Landing (R237, R243) -/

theorem landStream (h : Canon π s) (d num c pos : Nat) (data : List Byte) : Canon π (landStream d num c pos data s) := by
  unfold Machine.landStream
  split
  · exact h
  · split
    · exact h
    · refine .ite (fun _ => h) fun _ => ?_
      extract_lets _ _ s1
      have h1 : Canon π s1 := foldl (fun _ _ h => h.sramPut _ _ _ _) _ h
      clear_value s1
      refine .ite (fun _ => h1) fun _ => ?_
      dsimp only
      split
      · refine .ite (fun _ => ?_) fun _ => ?_
        · exact (updStream (.ite (fun _ => (h1.updStreamCl _ _ _).streamEvent _ _ _) fun _ =>
            h1.updStreamCl _ _ _) _ _).endCommand _ _ _ _
        · exact .ite (fun _ => (h1.updStreamCl _ _ _).streamEvent _ _ _) fun _ => h1.updStreamCl _ _ _
      · exact .ite (fun _ => (h1.updStreamCl _ _ _).streamEvent _ _ _) fun _ => h1.updStreamCl _ _ _

/-! ### Stalls (R243, R244) -/

theorem execStreamStall (h : Canon π s) (die : Die) (num : BitVec 10) (cl : Cluster) : Goes π (execStreamStall die num cl s) := by
  unfold Machine.execStreamStall
  refine .next ?_
  split
  · exact h
  · split
    · exact h
    · exact .ite (fun _ => h) fun _ => ((h.updStreamCl _ _ _).bump _ _).streamEvent _ _ _

theorem execStreamAbort (h : Canon π s) (die : Die) (num : BitVec 10) (cl : Cluster) : Goes π (execStreamAbort die num cl s) := by
  unfold Machine.execStreamAbort
  refine .next ?_
  split
  · exact h
  · split
    · exact h
    · exact .ite (fun _ => h) fun _ => h.failStream _ _

/-! ### The end of an owner change (R129, R241) -/

theorem endStreamsAt (h : Canon π s) (d c : Nat) : Canon π (endStreamsAt d c s) :=
  foldl (fun _ _ h => (h.streamEvent _ _ _).endStreamIn _ _ _) _ h

theorem execCluOwnerClear (h : Canon π s) (die : Die) (cl : Cluster) : Goes π (execCluOwnerClear die cl s) := by
  unfold Machine.execCluOwnerClear
  refine .next ?_
  split
  · exact h
  · exact .ite (fun _ => h) fun _ => ((((h.endStreamsAt _ _).sramZero _ _ _ _).updClus _ _ _).setRfld _ _ _ _).raiseEvent _

end Canon
end Sys2Proof.Machine
end

section
/-! Canonical form: frames, strands and edges (R224 to R235). -/
namespace Sys2Proof.Machine
set_option Elab.async false
open Sys2Proof
namespace Canon
variable {π : List Instr} {s t : State}

/-! ### Sending (R225, R227 to R230) -/

theorem putOnWire (h : Canon π s) (e k kind fseq pool : Nat) (f : Option D2dFrame) : Canon π (putOnWire e k kind fseq pool f s) :=
  (h.setTx _ _ _).withD2d _

theorem dealFrame (h : Canon π s) (e : Nat) (f : D2dFrame) : ∀ t ∈ dealFrame e f s, Canon π t := by
  unfold Machine.dealFrame
  dsimp only
  split
  · simp
  · rintro t ⟨⟩
    exact ((h.setTx _ _ _).putOnWire _ _ _ _ _ _).withD2d _

theorem dealHead (h : Canon π s) (e key : Nat) : ∀ r ∈ dealHead e key s, Canon π r.2.2 := by
  unfold Machine.dealHead
  split
  · simp
  · intro r hr
    obtain ⟨t, ht, rfl⟩ := Option.map_eq_some_iff.1 hr
    exact (h.setWaiting _ _ _ _).dealFrame _ _ _ ht

theorem dealNext (h : Canon π s) (e : Nat) : Canon π (dealNext e s) := by
  unfold Machine.dealNext
  split
  · exact h
  · next hb =>
      obtain ⟨key, _, hk⟩ := List.exists_of_findSome?_eq_some hb
      obtain ⟨r, hr, he⟩ := Option.map_eq_some_iff.1 hk
      obtain ⟨rfl, rfl⟩ := Prod.mk.inj he
      have h1 := h.dealHead _ _ _ hr
      exact .ite (fun _ => ((h1.freeBuffer _ _ _).withD2d _).pmcCount _ _ _ _) fun _ => (h1.freeBuffer _ _ _).withD2d _

theorem offerFrame (h : Canon π s) (e : Nat) (u : D2dUnit) : Canon π (offerFrame e u s) :=
  .ite (fun _ => h) fun _ => (h.withD2d _).enqueueFrame _ _ _

theorem readStream (h : Canon π s) (e recv num c blocks : Nat) : Canon π (readStream e recv num c blocks s) := by
  unfold Machine.readStream
  split
  · exact h
  · dsimp only
    refine .ite (fun _ => h) fun _ => ?_
    refine .ite (fun _ => ?_) fun _ => ?_
    · split
      · next hb => exact (((h.vaRead _ _ _).ok hb).updStreamCl _ _ _).enqueueFrame _ _ _
      · next hb => exact (((h.vaRead _ _ _).fault hb).recordFault _ _ _).failStream _ _
      · next hb => exact h.waitAtStack _
    · split
      · next hb => exact (((h.sramRead _ _ _ _ _ _).snd hb).updStreamCl _ _ _).enqueueFrame _ _ _
      · next hb => exact ((h.sramRead _ _ _ _ _ _).snd hb).failStream _ _

theorem execD2dFrameSend (h : Canon π s) (e : LinkEnd) (what : D2dSend) : Goes π (execD2dFrameSend e what s) := by
  unfold Machine.execD2dFrameSend
  refine .ite (fun _ => trivial) fun _ => ?_
  refine .next ?_
  dsimp only
  split
  · exact .ite (fun _ => h.putOnWire _ _ _ _ _ _) fun _ => h
  · exact .ite (fun _ => h.putOnWire _ _ _ _ _ _) fun _ => h
  · exact (h.readStream _ _ _ _ _).dealNext _
  · exact (h.offerFrame _ _).dealNext _
  · exact h.dealNext _

/-! ### Receiving (R226, R228, R230, R231, R233) -/

theorem takeAck (h : Canon π s) (e k ack : Nat) : Canon π (takeAck e k ack s) := .ite (fun _ => h) fun _ => h.setTx _ _ _

theorem applyReqs : ∀ (d : Nat) (x1 : Nat) {s : State}, Canon π s → Canon π (applyReqs d x1 s)
  | _, 0, _, h => h
  | _, fuel + 1, _, h => by
    unfold Machine.applyReqs
    dsimp only
    split
    · exact h
    · exact applyReqs _ fuel ((h.withD2d _).freeBuffer _ _ _)

theorem acceptFrame (h : Canon π s) (d came : Nat) (f : D2dFrame) : Canon π (acceptFrame d came f s) := by
  unfold Machine.acceptFrame
  refine .ite (fun _ => ?_) fun _ => ?_
  · exact .ite (fun _ => (h.freeBuffer _ _ _).landStream _ _ _ _ _) fun _ => h.freeBuffer _ _ _
  · extract_lets _ _ _ _ s1 _ _ s2
    have h1 : Canon π s1 := h.withD2d _
    have h2 : Canon π s2 := h1.freeBuffer _ _ _
    clear_value s1 s2
    refine .ite (fun _ => h.freeBuffer _ _ _) fun _ => ?_
    exact .ite (fun _ => applyReqs _ _ (h1.withD2d _)) fun _ => .ite (fun _ => h2) fun _ => h2.landPacket _

theorem deliverFrame (h : Canon π s) (e k pool : Nat) (f : D2dFrame) : Canon π (deliverFrame e k pool f s) :=
  .ite (fun _ => h.enqueueFrame _ _ _) fun _ => h.acceptFrame _ _ _

theorem takeFrame (h : Canon π s) (e k : Nat) (crcOk ackOk : Bool) (w : WireFrame) : Canon π (takeFrame e k crcOk ackOk w s) := by
  unfold Machine.takeFrame
  extract_lets _ s1 _ s2 _ s3
  have h1 : Canon π s1 := .ite (fun _ => h.takeAck _ _ _) fun _ => .ite (fun _ => h.bump _ _) fun _ => h
  have h2 : Canon π s2 := h1.setRx _ _ _
  have h3 : Canon π s3 := h1.setTx _ _ _
  clear_value s1 s2 s3
  refine .ite (fun _ => .ite (fun _ => h2.bump _ _) fun _ => h2) fun _ => ?_
  split
  · exact h3
  · exact .ite (fun _ => h3) fun _ => (h3.setRx _ _ _).deliverFrame _ _ _ _

theorem execD2dFrameReceive (h : Canon π s) (e : LinkEnd) (k : Fin 64) (a : D2dArrival) : Goes π (execD2dFrameReceive e k a s) := by
  unfold Machine.execD2dFrameReceive
  refine .next ?_
  dsimp only
  split
  · exact h
  · exact .ite (fun _ => h.withD2d _) fun _ => (h.withD2d _).takeFrame _ _ _ _ _

theorem resendStrand (h : Canon π s) (e k : Nat) : Canon π (resendStrand e k s) := by
  unfold Machine.resendStrand
  extract_lets s1
  have h1 : Canon π s1 := foldl (fun _ _ h => h.putOnWire _ _ _ _ _ _) _ h
  clear_value s1
  exact .ite (fun _ => h1.bump _ _) fun _ => h1

theorem execD2dReplayTimeout (h : Canon π s) (e : LinkEnd) (k : Fin 64) : Goes π (execD2dReplayTimeout e k s) :=
  .next (.ite (fun _ => h) fun _ => (h.setTx _ _ _).resendStrand _ _)

/-! ### Retraining, repair, edges (R232 to R235) -/

theorem refreshPort (h : Canon π s) (l : Nat) : Canon π (refreshPort l s) := foldl (fun _ _ h => (h.setReg _ _).setRegN _ _) _ h
theorem clearWire (h : Canon π s) (l k : Nat) : Canon π (clearWire l k s) := h.withD2d _
theorem redealStrand (h : Canon π s) (e k : Nat) : Canon π (redealStrand e k s) :=
  foldl (fun _ _ h => h.enqueueFrame _ _ _) _ (h.setTx _ _ _)
theorem rerouteWaiting (h : Canon π s) (e : Nat) : Canon π (rerouteWaiting e s) :=
  foldl (fun _ _ h => foldl (fun _ _ h => h.enqueueFrame _ _ _) _ (h.setWaiting _ _ _ _)) _ h
theorem dropFramesOf (h : Canon π s) (d : Nat) : Canon π (dropFramesOf d s) :=
  foldl (fun _ _ h => h.freeBuffer _ _ _) _ ((h.dropCrossings _).withD2d _)

theorem edgeOutOfService (h : Canon π s) (l by_ : Nat) : Canon π (edgeOutOfService l by_ s) := by
  unfold Machine.edgeOutOfService
  extract_lets _ _ s1 s2 _ s3 s4 s5 s6
  have h1 : Canon π s1 := (h.setRfld _ _ _ _).setRfld _ _ _ _
  have h2 : Canon π s2 := h1.d2dEvent _ _ _ _ _ _ _
  have h3 : Canon π s3 := h2.routeChanged _
  have h4 : Canon π s4 := h3.raiseAlarm _ _ _ _
  have h5 : Canon π s5 := (h2.setRfld _ _ _ _).setRfld _ _ _ _
  have h6 : Canon π s6 := foldl (fun _ _ h => ((h.clearWire _ _).redealStrand _ _).redealStrand _ _) _ h5
  clear_value s1 s2 s3 s4 s5 s6
  refine .ite (fun _ => foldl (fun _ _ h => h.failStream _ _) _ h4) fun _ => ?_
  exact routeChanged (foldl (fun _ _ h => (h.rerouteWaiting _).rerouteWaiting _) _ h6) _

theorem hubLinkLost (h : Canon π s) (d : Nat) : Canon π (hubLinkLost d s) := (h.setRfld _ _ _ _).d2dEvent _ _ _ _ _ _ _
theorem judgeLink (h : Canon π s) (l by_ : Nat) : Canon π (judgeLink l by_ s) :=
  .ite (fun _ => .ite (fun _ => h) fun _ => h.edgeOutOfService _ _) fun _ => .ite (fun _ => h) fun _ => h.hubLinkLost _

theorem execStrandRetrain (h : Canon π s) (e : LinkEnd) (k : Fin 64) : Goes π (execStrandRetrain e k s) := by
  unfold Machine.execStrandRetrain
  refine .next ?_
  extract_lets _ _ _ _ s1 _ s2
  have h1 : Canon π s1 := (h.setStrand _ _ _).clearWire _ _
  have h2 : Canon π s2 := h1.setRx _ _ _
  clear_value s1 s2
  exact .ite (fun _ => h) fun _ => (((h2.bump _ _).d2dEvent _ _ _ _ _ _ _).refreshPort _).judgeLink _ _

theorem replayEnd (h : Canon π s) (e k : Nat) : Canon π (replayEnd e k s) := (h.setTx _ _ _).resendStrand _ _
theorem repairWires (h : Canon π s) (e k : Nat) (ws : List Nat) : Canon π (repairWires e k ws s) :=
  foldl (fun _ _ h => ((h.setStrand _ _ _).d2dEvent _ _ _ _ _ _ _).addHealth _) _ h

theorem execStrandRetrainDone (h : Canon π s) (e : LinkEnd) (k : Fin 64) (ok : Bool) (bad : List (Fin 66)) :
    Goes π (execStrandRetrainDone e k ok bad s) := by
  unfold Machine.execStrandRetrainDone
  refine .next ?_
  extract_lets _ _ s1 s2 s3
  have h1 : Canon π s1 := h.setStrand _ _ _
  have h2 : Canon π s2 := foldl (fun _ _ h => h.redealStrand _ _) _ (h1.d2dEvent _ _ _ _ _ _ _)
  have h3 : Canon π s3 := (h.setStrand _ _ _).repairWires _ _ _
  clear_value s1 s2 s3
  refine .ite (fun _ => h) fun _ => ?_
  refine .ite (fun _ => (h2.refreshPort _).judgeLink _ _) fun _ => ?_
  exact .ite (fun _ => h.setStrand _ _ _) fun _ => refreshPort (foldl (fun _ _ h => h.replayEnd _ _) _ h3) _

end Canon
end Sys2Proof.Machine
end

section
/-! Canonical form: Sorrel records. -/
namespace Sys2Proof.Machine
set_option Elab.async false
open Sys2Proof
namespace Canon
variable {π : List Instr} {s t : State}

theorem setSrl (h : Canon π s) (d : Nat) (x : SrlDie) : Canon π (s.setSrl d x) := h.withSrl _

theorem arraysForgetRep (q seq d : Nat) : ∀ (ks : List Nat) {m : List (Nat × ArraySt)}, cwf {} m = true →
    cwf {} (ks.foldl (fun m a => forgetRep q seq (d + a) m) m) = true
  | [], _, h => h
  | _ :: ks, _, h => arraysForgetRep q seq d ks (cwf_cset _ _ h)

theorem returnCluster (h : Canon π s) (d c : Nat) : Canon π (returnCluster d c s) := by
  unfold Machine.returnCluster
  split
  · exact h
  · have h1 := (h.updClus d c fun x => { x with loan := none }).bump (ZG_SRL_BORROW_NS d) (s.now - ‹Loan›.since)
    exact { h1 with arrays := arraysForgetRep _ _ _ _ h1.arrays }

theorem dropSorrel (h : Canon π s) (q seq : Nat) : Canon π (dropSorrel q seq s) :=
  .ite (fun _ => setSrl (foldl (fun _ _ h => h.returnCluster _ _) _ h) _ _) fun _ => h
theorem srlOwn (h : Canon π s) (d q seq phase : Nat) (commit : Option (Nat × Nat)) : Canon π (srlOwn d q seq phase commit s) :=
  (h.setSrl _ _).updFlight _ _ _

theorem takeCluster (h : Canon π s) (d q seq p c : Nat) : Canon π (takeCluster d q seq p c s) := by
  unfold Machine.takeCluster
  extract_lets _ _ s1
  have h1 : Canon π s1 := .ite (fun _ => h.sramZero _ _ _ _) fun _ => h
  clear_value s1
  split
  · exact h.setClus _ _ _
  · exact h1.updClus _ _ _

theorem srlTake (h : Canon π s) (d q seq p limit : Nat) : Canon π (srlTake d q seq p limit s) :=
  foldl (fun _ _ h => h.takeCluster _ _ _ _ _) _ h
theorem srlEvent (h : Canon π s) (d code q : Nat) (part : Option Nat) (step id : Nat) : Canon π (srlEvent d code q part step id s) :=
  ((h.setRegN _ _).setRegN _ _).raiseEvent _
theorem tornEvent (h : Canon π s) (d q : Nat) (id : Nat × Nat) : Canon π (tornEvent d q id s) := (h.bump _ _).srlEvent _ _ _ _ _ _

end Canon
end Sys2Proof.Machine
end

section
/-! Canonical form: ends of failed work. -/
namespace Sys2Proof.Machine
set_option Elab.async false
open Sys2Proof
namespace Canon
variable {π : List Instr} {s t : State}

theorem dropUnits (h : Canon π s) (q seq cause : Nat) : Canon π (dropUnits q seq cause s) := by
  have h1 := ((((h.landSome q seq).dropTile q seq).collDrop q seq cause).dropTwin q seq).dropSorrel q seq
  unfold Machine.dropUnits
  extract_lets _ keys s2
  have h2 : Canon π s2 := foldl (fun _ _ h => h.updClus _ _ _) _ h1
  clear_value s2
  exact h2.withParts

theorem failCommand (h : Canon π s) (q seq status detail : Nat) : Canon π (failCommand q seq status detail s) := by
  unfold Machine.failCommand
  split
  · exact (h.dropUnits _ _ _).endCommand _ _ _ _
  · exact ((h.tornEvent _ _ _).dropUnits _ _ _).endCommand _ _ _ _

end Canon
end Sys2Proof.Machine
end

section
/-! Canonical form: tile commands, beats and drains. -/
namespace Sys2Proof.Machine
set_option Elab.async false
open Sys2Proof
namespace Canon
variable {π : List Instr} {s t : State}

/-! ### TILE_PASS (R94 to R98) -/

theorem chunkTables : ∀ (d : Nat) (base : Nat) (part : Option Nat) (b : List Byte) (x4 : List Nat) {s : State}, Canon π s →
    Canon π (chunkTables d base part b x4 s).2.2
  | _, _, _, _, [], _, h => h
  | _, _, _, _, _ :: as, _, h => by
    unfold Machine.chunkTables
    dsimp only
    split
    · next hb => exact chunkTables _ _ _ _ as ((h.sramRead _ _ _ _ _ _).snd hb)
    · next hb =>
        have h1 := (h.sramRead _ _ _ _ _ _).snd hb
        split
        · exact chunkTables _ _ _ _ as h1
        · exact chunkTables _ _ _ _ as h1

theorem dealCluster (h : Canon π s) (r : TileRun) (c : Nat) : Canon π (dealCluster r c s) := foldl (fun _ _ h => h.setArray _ _ _ _) _ h

theorem execTilePass (h : Canon π s) (q : Qn) (seq : Word64) : Goes π (execTilePass q seq s) := by
  unfold Machine.execTilePass
  refine .next ?_
  refine h.withFlight _ _ _ fun _ => ?_
  dsimp only
  refine .ite (fun _ => h) fun _ => ?_
  refine .ite (fun _ => h.endCommand _ _ _ _) fun _ => ?_
  refine .ite (fun _ => ?_) fun _ => ?_
  · exact .ite (fun _ => h.endCommand _ _ _ _) fun _ => (h.refuseCarve _ _ _ _).endCommand _ _ _ _
  · refine .ite (fun _ => h.endCommand _ _ _ _) fun _ => ?_
    split
    · have h1 (b : List Byte) (d base : Nat) (part : Option Nat) (cs : List Nat) :
          Canon π (if tKMode b = true then Machine.chunkTables d base part b cs s else ([], [], s)).2.2 := by
        split
        · exact chunkTables _ _ _ _ _ h
        · exact h
      split
      · exact (h1 _ _ _ _ _).endCommand _ _ _ _
      · exact foldl (fun _ _ h => h.dealCluster _ _) _ (withTile ((h1 _ _ _ _ _).updFlight _ _ _) _)
    · next hb => exact ((h.checkClusters _ _ _ _).snd hb).endCommand _ _ _ _

/-! ### STATIONARY_LOAD (R101, R82, R86) -/

theorem loadRows : ∀ (r : TileRun) (c : Nat) (blk : Nat) (part : Option Nat) (x4 : List Nat) {s : State}, Canon π s →
    Canon π (loadRows r c blk part x4 s).2
  | _, _, _, _, [], _, h => h
  | _, _, _, _, _ :: as, _, h => by
    unfold Machine.loadRows
    dsimp only
    split
    · next hb => exact (h.sramRead _ _ _ _ _ _).snd hb
    · next hb =>
        have h1 := (h.sramRead _ _ _ _ _ _).snd hb
        split
        · exact h1
        · split
          · next hb2 => exact (loadRows _ _ _ _ as h1).snd hb2
          · next hb2 => exact (loadRows _ _ _ _ as h1).snd hb2

theorem execStationaryLoad (h : Canon π s) (die : Die) (cl : Cluster) (a : Fin 8) : Goes π (execStationaryLoad die cl a s) := by
  unfold Machine.execStationaryLoad
  refine .next ?_
  dsimp only
  split
  · exact h
  · split
    · exact h
    · refine .ite (fun _ => h) fun _ => ?_
      refine .ite (fun _ => h.setArray _ _ _ _) fun _ => ?_
      split
      · next hb => exact ((loadRows _ _ _ _ _ h).snd hb).setArray _ _ _ _
      · next hb => exact ((loadRows _ _ _ _ _ h).snd hb).failTile _ _ _

/-! ### Operands of a beat (R93, R96, R99, R107, R238) -/

theorem edgeCheck (h : Canon π s) (fa fb : Nat) (pa pb : List (List Nat)) (ea eb : List (List (Nat × Nat))) :
    BeatOperands π (edgeCheck fa fb pa pb ea eb s) := by
  unfold Machine.edgeCheck
  split
  · exact h
  · exact h

theorem readBeat (h : Canon π s) (r : TileRun) (c : Nat) (p : Pass) (u : Nat) : BeatOperands π (readBeat r c p u s) := by
  unfold Machine.readBeat
  dsimp only
  split
  · split
    · next hb => exact (readLines _ _ _ _ _ h).snd hb
    · next hb => exact ((readLines _ _ _ _ _ h).snd hb).edgeCheck _ _ _ _ _ _
  · exact trivial

/-! ### Beats (R77, R90, R93) -/

theorem settleBeat (h : Canon π s) (d c a : Nat) (before : List Pass) : Canon π (settleBeat d c a before s) :=
  (h.setArray _ _ _ _).setFinals _ _ _

theorem execPassStart (h : Canon π s) (die : Die) (cl : Cluster) (a : Fin 8) : Goes π (execPassStart die cl a s) := by
  unfold Machine.execPassStart
  refine .next ?_
  extract_lets _ s1
  have h1 : Canon π s1 := h.thaw _ _ _
  clear_value s1
  split
  · exact .ite (fun _ => h.freeze _ _ _ _) fun _ => h
  · split
    · exact h
    · refine .ite (fun _ => h) fun _ => ?_
      refine .ite (fun _ => h.freeze _ _ _ _) fun _ => ?_
      dsimp only
      refine .ite (fun _ => ?_) fun _ => h1.setArray _ _ _ _
      split
      · exact h.failTile _ _ _
      · exact .ite (fun _ => h) fun _ => h.freeze _ _ _ _

/-! ### Residue checking and substitution (R114 to R120) -/

theorem setSpareByte (h : Canon π s) (d c v : Nat) : Canon π (setSpareByte d c v s) := h.setRfld _ _ _ _

theorem classify (h : Canon π s) (cls d c a source engine q : Nat) (part : Option Nat) :
    Canon π (classify cls d c a source engine q part s) := by
  unfold Machine.classify
  extract_lets _ _ _ s1 s2 s3
  have h1 : Canon π s1 := (h.setRegN _ _).setRegN _ _
  have h2 : Canon π s2 := by
    unfold s2
    exact .ite (fun _ => h1.bump _ _) fun _ => .ite (fun _ => h1.bump _ _) fun _ => .ite (fun _ => h1.bump _ _) fun _ => h1
  have h3 : Canon π s3 := h2.logRegister _ _ _ _ _
  exact (h3.raiseEvent _).auditEvent _

theorem discardBanks (h : Canon π s) (d c a : Nat) : Canon π (discardBanks d c a s) := (h.setFinals _ _ _).setArray _ _ _ _
theorem degrade (h : Canon π s) (d c : Nat) : Canon π (degrade d c s) :=
  (((h.setSpareByte _ _ _).updClus _ _ _).addHealth _).updateEngineCount _

theorem unrecovered (h : Canon π s) (d c a : Nat) (r : Repeat) : Canon π (unrecovered d c a r s) := by
  unfold Machine.unrecovered
  extract_lets s1 _ s2 s3 s4
  have h1 : Canon π s1 := h.classify _ _ _ _ _ _ _ _
  have h2 : Canon π s2 := h1.setArray _ _ _ _
  have h3 : Canon π s3 := by
    unfold s3
    split
    · exact h2.failTile _ _ _
    · exact .ite (fun _ => h2.failCommand _ _ _ _) fun _ => h2
  have h4 : Canon π s4 := h3.degrade _ _
  clear_value s1 s2 s3 s4
  refine foldl (fun _ _ h => ?_) _ h4
  split
  · exact h.failTile _ _ _
  · exact h

theorem classPermanent (h : Canon π s) (d c a : Nat) (r : Repeat) : Canon π (classPermanent d c a r s) :=
  .ite (fun _ => (((h.discardBanks _ _ _).setSpareByte _ _ _).updPw _ _).setArray _ _ _ _) fun _ => h.unrecovered _ _ _ _

theorem repeatMismatch (h : Canon π s) (d c a : Nat) (r : Repeat) : Canon π (repeatMismatch d c a r s) := by
  unfold Machine.repeatMismatch
  refine .ite (fun _ => ?_) fun _ => ?_
  · exact ((h.setSpareByte _ _ _).unrecovered _ _ _ _).raiseEvent _
  · exact .ite (fun _ => h.unrecovered _ _ _ _) fun _ => h.classPermanent _ _ _ _

theorem drainMismatch (h : Canon π s) (d c a : Nat) : Canon π (drainMismatch d c a s) := by
  unfold Machine.drainMismatch
  dsimp only
  split
  · exact h.unrecovered _ _ _ _
  · split
    · exact h
    · split
      · exact h
      · exact .ite (fun _ => h.setArray _ _ _ _) fun _ => h

theorem beginRepeat (h : Canon π s) (d c a : Nat) (r : Repeat) : Canon π (beginRepeat d c a r s) :=
  .ite (fun _ => h.classPermanent _ _ _ _) fun _ => (h.discardBanks _ _ _).setArray _ _ _ _

theorem residueMismatch (h : Canon π s) (die cl a engine source : Nat) : Canon π (residueMismatch die cl a engine source s) := by
  unfold Machine.residueMismatch
  dsimp only
  refine .ite (fun _ => h.drainMismatch _ _ _) fun _ => ?_
  split
  · exact h.repeatMismatch _ _ _ _
  · split
    · exact h.beginRepeat _ _ _ _
    · exact .ite (fun _ => h.beginRepeat _ _ _ _) fun _ => h
    · exact h

theorem injectError (h : Canon π s) (d c a : Nat) : Canon π (injectError d c a s) :=
  .ite (fun _ => ((h.setRfld _ _ _ _).draw).residueMismatch _ _ _ _ _) fun _ => h

/-! ### Beats (R93, R107 to R111) -/

theorem arrayBeat (h : Canon π s) (d c a : Nat) (cur : Option Nat) (edge : List (List (Nat × Nat)) × List (List (Nat × Nat))) :
    Canon π (arrayBeat d c a cur edge s) := by
  unfold Machine.arrayBeat
  extract_lets s1 _ _ s2 s3 fault s4 s5 s6
  have h1 : Canon π s1 := h.thaw _ _ _
  have h2 : Canon π s2 := h1.setArray _ _ _ _
  have h3 : Canon π s3 := h2.updPw _ _
  have h4 : Canon π s4 := .ite (fun _ => h3.bump _ _) fun _ => h3
  have h5 : Canon π s5 := by
    unfold s5
    split
    · exact h4.updPw _ _
    · exact h4
  have h6 : Canon π s6 := h5.settleBeat _ _ _ _
  clear_value s1 s2 s3 s4 s5 s6 fault
  refine injectError ?_ _ _ _
  split
  · exact h6.residueMismatch _ _ _ _ _
  · exact h6

theorem execArrayBeat (h : Canon π s) (die : Die) (cl : Cluster) (a : Fin 8) : Goes π (execArrayBeat die cl a s) := by
  unfold Machine.execArrayBeat
  refine .next ?_
  dsimp only
  refine .ite (fun _ => h) fun _ => ?_
  refine .ite (fun _ => h.freeze _ _ _ _) fun _ => ?_
  split
  · exact h.arrayBeat _ _ _ _ _
  · split
    · exact h
    · split
      · split
        · exact h.failTile _ _ _
        · exact h.freeze _ _ _ _
      · next hb => exact ((h.readBeat _ _ _ _).ue hb).failTile _ _ _
      · next hb => exact ((h.readBeat _ _ _ _).parity hb).residueMismatch _ _ _ _ _
      · next hb => exact ((h.readBeat _ _ _ _).edges hb).arrayBeat _ _ _ _ _

/-! ### Unloading (R83, R101, R102, R106, R140) -/

theorem drainOut : ∀ (r : TileRun) (c : Nat) (x2 : List DrainItem) {s : State}, Canon π s → DrainEnd π (drainOut r c x2 s)
  | _, _, [], _, h => h
  | _, _, _ :: xs, _, h => by
    unfold Machine.drainOut
    split
    · split
      · exact h
      · exact drainOut _ _ xs (h.setSpills _ _ _)
    · split
      · next hb => exact drainOut _ _ xs ((h.sramWrite _ _ _ _ _ _).snd hb)
      · next hb => exact (h.sramWrite _ _ _ _ _ _).snd hb

theorem bankDone (h : Canon π s) (d c a bank : Nat) (p : Pass) : Canon π (bankDone d c a bank p s) :=
  (((h.setFinals _ _ _).setArray _ _ _ _).updRun _ _ _).pmcCount _ _ _ _
theorem bankWaits (h : Canon π s) (d c a bank total left : Nat) : Canon π (bankWaits d c a bank total left s) := h.setArray _ _ _ _

theorem execBankUnload (h : Canon π s) (die : Die) (cl : Cluster) : Goes π (execBankUnload die cl s) := by
  unfold Machine.execBankUnload
  refine .next ?_
  split
  · exact h
  · dsimp only
    split
    · exact h.setFinals _ _ _
    · split
      · exact h
      · refine .ite (fun _ => h) fun _ => ?_
        split
        · exact h.residueMismatch _ _ _ _ _
        · split
          · next hb => exact ((drainOut _ _ _ h).ue hb).failTile _ _ _
          · next hb => exact ((drainOut _ _ _ h).full hb).bankWaits _ _ _ _ _ _
          · next hb => exact ((drainOut _ _ _ h).done hb).bankDone _ _ _ _ _

theorem execSpillWrite (h : Canon π s) (die : Die) (cl : Cluster) : Goes π (execSpillWrite die cl s) := by
  unfold Machine.execSpillWrite
  refine .next ?_
  split
  · exact h
  · split
    · dsimp only
      split
      · next hb => exact ((h.vaWrite _ _ _).ok hb).setSpills _ _ _
      · next hb => exact (((h.vaWrite _ _ _).fault hb).recordFault _ _ _).failTile _ _ _
      · next hb => exact h.waitAtStack _
    · exact h.setSpills _ _ _

theorem execTileComplete (h : Canon π s) (q : Qn) (seq : Word64) : Goes π (execTileComplete q seq s) := by
  unfold Machine.execTileComplete
  refine .next ?_
  split
  · exact h
  · exact .ite (fun _ => (h.dropTile _ _).endCommand _ _ _ _) fun _ => h

/-! ### The end of a repeat (R114 to R119) -/

theorem execResidueMismatch (h : Canon π s) (die : Die) (cl : Cluster) (a : Fin 8) (engine : Fin 16) (source : Fin 6) :
    Goes π (execResidueMismatch die cl a engine source s) :=
  .next (h.residueMismatch _ _ _ _ _)
theorem transient (h : Canon π s) (d c a : Nat) (r : Repeat) : Canon π (transient d c a r s) :=
  (h.updFlight _ _ _).classify _ _ _ _ _ _ _ _

theorem execRepeatDone (h : Canon π s) (die : Die) (cl : Cluster) (a : Fin 8) (mismatch : Bool) :
    Goes π (execRepeatDone die cl a mismatch s) := by
  unfold Machine.execRepeatDone
  refine .next ?_
  dsimp only
  split
  · exact .ite (fun _ => h.repeatMismatch _ _ _ _) fun _ => (h.setArray _ _ _ _).transient _ _ _ _
  · exact .ite (fun _ => h.unrecovered _ _ _ _) fun _ => (h.setArray _ _ _ _).transient _ _ _ _
  · exact h

theorem execSubstitutedRunDone (h : Canon π s) (die : Die) (cl : Cluster) (a : Fin 8) (mismatch : Bool) :
    Goes π (execSubstitutedRunDone die cl a mismatch s) := by
  unfold Machine.execSubstitutedRunDone
  refine .next ?_
  extract_lets _ s1 s2
  have h1 : Canon π s1 := h.setArray _ _ _ _
  have h2 : Canon π s2 := h1.addHealth _
  clear_value s1 s2
  split
  · exact h
  · refine .ite (fun _ => h) fun _ => ?_
    exact .ite (fun _ => h.repeatMismatch _ _ _ _) fun _ => .ite (fun _ => h) fun _ => h2.classify _ _ _ _ _ _ _ _

end Canon
end Sys2Proof.Machine
end

section
/-! Canonical form: scrubbing and owners of clusters. -/
namespace Sys2Proof.Machine
set_option Elab.async false
open Sys2Proof
namespace Canon
variable {π : List Instr} {s t : State}

theorem execSramCeWriteback (h : Canon π s) (die : Die) (cl : Cluster) (line : BitVec 18) : Goes π (execSramCeWriteback die cl line s) :=
  .next (.ite (fun _ => h.updClus _ _ _) fun _ => h)

theorem scrubBank (h : Canon π s) (d c bank : Nat) : Canon π (scrubBank d c bank s) := by
  unfold Machine.scrubBank
  dsimp only
  exact .ite (fun _ => h) fun _ => (h.readLine _ _ _ _ _).updClus _ _ _

theorem execScrubRead (h : Canon π s) (die : Die) (cl : Cluster) (idle : BitVec 32) : Goes π (execScrubRead die cl idle s) :=
  .next (.ite (fun _ => foldl (fun _ _ h => .ite (fun _ => h.scrubBank _ _ _) fun _ => h) _ h) fun _ => h)
theorem execScrubStarvePriority (h : Canon π s) (die : Die) (cl : Cluster) (bank : Fin 32) :
    Goes π (execScrubStarvePriority die cl bank s) :=
  .next (.ite (fun _ => h.scrubBank _ _ _) fun _ => h)

/-! ### Owners (R129) -/

theorem setCluOwner (h : Canon π s) (d c v : Nat) : Canon π (setCluOwner d c v s) := h.setRfld _ _ _ _
theorem aimOwner (h : Canon π s) (d c new : Nat) : Canon π (aimOwner d c new s) :=
  .ite (fun _ => h) fun _ => .ite (fun _ => h) fun _ => (h.setCluOwner _ _ _).updClus _ _ _
theorem aimOwners (h : Canon π s) (d k old new : Nat) : Canon π (aimOwners d k old new s) :=
  foldl (fun _ _ h => h.aimOwner _ _ _) _ (h.setRegN _ _)
theorem execCluOwnerWrite (h : Canon π s) (f : Func) (die : Die) (k : Fin 8) (value : Word64) :
    Goes π (execCluOwnerWrite f die k value s) :=
  .next (h.guardedWrite _ _ _ _ fun _ _ _ h => h.aimOwners _ _ _ _)

/-! ### Carve-outs (R130 to R132) -/

theorem execCarveWrite (h : Canon π s) (f : Func) (die : Die) (value : Word32) : Goes π (execCarveWrite f die value s) :=
  .next (h.guardedWrite _ _ _ _ fun _ _ _ h => h.setRfld _ _ _ _)
theorem execCarveTakeEffect (h : Canon π s) (die : Die) : Goes π (execCarveTakeEffect die s) :=
  .next (.ite (fun _ => setRfld (foldl (fun _ _ h => h.sramZero _ _ _ _) _ (h.withClu _)) _ _ _ _) fun _ => h)

end Canon
end Sys2Proof.Machine
end

section
/-! Canonical form: collective commands. -/
namespace Sys2Proof.Machine
set_option Elab.async false
open Sys2Proof
namespace Canon
variable {π : List Instr} {s t : State}

/-! ### Group commands (R316, R317) -/

theorem execGroupDefine (h : Canon π s) (q : Qn) (seq : Word64) : Goes π (execGroupDefine q seq s) := by
  unfold Machine.execGroupDefine
  refine .next ?_
  refine h.withFlight _ _ _ fun _ => ?_
  extract_lets _ _ _ _ s1 s2
  have h1 : Canon π s1 := h.setGroup _ _
  have h2 : Canon π s2 := foldl (fun _ _ h => h.setGdie _ _ _) _ h1
  clear_value s1 s2
  refine .ite (fun _ => h.endCommand _ _ _ _) fun _ => ?_
  refine .ite (fun _ => h.endCommand _ _ _ _) fun _ => ?_
  refine .ite (fun _ => h.endCommand _ _ _ _) fun _ => ?_
  exact .ite (fun _ => h.endCommand _ _ _ _) fun _ => ((h2.setBank _ _).refreshMemberStore).endCommand _ _ _ _

theorem groupMembers (h : Canon π s) (q seq : Nat) : Canon π (groupMembers q seq s) := by
  unfold Machine.groupMembers
  refine h.withFlight _ _ _ fun _ => ?_
  dsimp only
  refine .ite (fun _ => h.endCommand _ _ _ _) fun _ => ?_
  refine .ite (fun _ => h.endCommand _ _ _ _) fun _ => ?_
  refine .ite (fun _ => h) fun _ => ?_
  refine .ite (fun _ => h.setBank _ _) fun _ => ?_
  exact h.finishAcc _ _ _ (h.vaRead _ _ _) fun _ _ h => ((h.setGroup _ _).setBank _ _).endCommand _ _ _ _

theorem execGroupMembers (h : Canon π s) (q : Qn) (seq : Word64) : Goes π (execGroupMembers q seq s) := .next (h.groupMembers _ _)

theorem execGroupFlip (h : Canon π s) (q : Qn) (seq : Word64) : Goes π (execGroupFlip q seq s) := by
  unfold Machine.execGroupFlip
  refine .next ?_
  refine h.withFlight _ _ _ fun _ => ?_
  dsimp only
  refine .ite (fun _ => h.endCommand _ _ _ _) fun _ => ?_
  refine .ite (fun _ => h.endCommand _ _ _ _) fun _ => ?_
  refine .ite (fun _ => h.endCommand _ _ _ _) fun _ => ?_
  refine .ite (fun _ => h) fun _ => ?_
  exact .ite (fun _ => h.endCommand _ _ _ _) fun _ => .ite (fun _ => h.endCommand _ _ _ _) fun _ => (h.setBank _ _).endCommand _ _ _ _

theorem memberCopyback (h : Canon π s) (g : Nat) : Canon π (memberCopyback g s) := .ite (fun _ => h) fun _ => (h.setGroup _ _).setBank _ _

theorem resetOn (h : Canon π s) (g d rank : Nat) (abort : Bool) : Canon π (resetOn g d rank abort s) := by
  unfold Machine.resetOn
  extract_lets _ _ s1 s2
  have h1 : Canon π s1 := (h.setGdie _ _ _).dropPrefetch _
  have h2 : Canon π s2 := .ite (fun _ => h1) fun _ => ((h1.sendAborts _ _ _ _).bump _ _).collEvent _ _ _ _ _ _
  clear_value s1 s2
  exact .ite (fun _ => h1) fun _ => h2.endAll _

theorem execGroupReset (h : Canon π s) (q : Qn) (seq : Word64) : Goes π (execGroupReset q seq s) := by
  unfold Machine.execGroupReset
  refine .next ?_
  refine h.withFlight _ _ _ fun _ => ?_
  extract_lets _ _ _ _ _ _ _ s1
  have h1 : Canon π s1 := foldl (fun _ _ h => .ite (fun _ => h.resetOn _ _ _ _) fun _ => h.setGdie _ _ _) _ h
  clear_value s1
  refine .ite (fun _ => h.endCommand _ _ _ _) fun _ => ?_
  exact .ite (fun _ => h.endCommand _ _ _ _) fun _ => .ite (fun _ => h.endCommand _ _ _ _) fun _ => (h1.setGroup _ _).endCommand _ _ _ _

/-! ### Ownership (R313) -/

theorem releaseGroup (h : Canon π s) (g : Nat) : Canon π (releaseGroup g s) := by
  unfold Machine.releaseGroup
  extract_lets s1
  have h1 : Canon π s1 := by
    unfold s1
    refine foldl (fun _ _ h => ?_) _ h
    exact endAll (.ite (fun _ => ((h.setGdie _ _ _).dropPrefetch _).bump _ _) fun _ => (h.setGdie _ _ _).dropPrefetch _) _
  exact (h1.setGroup _ _).setBank _ _

theorem changeCgoOwner (h : Canon π s) (b new : Nat) : Canon π (changeCgoOwner b new s) :=
  .ite (fun _ => h) fun _ => (refreshMemberStore (foldl (fun _ _ h => h.releaseGroup _) _ (h.setRfld _ _ _ _))).setRfld _ _ _ _
theorem writeCgoOwners (h : Canon π s) (k old new : Nat) : Canon π (writeCgoOwners k old new s) :=
  foldl (fun _ _ h => h.changeCgoOwner _ _) _ (h.setRegN _ _)
theorem execCgoOwnerWrite (h : Canon π s) (f : Func) (k : Fin 8) (value : Word64) : Goes π (execCgoOwnerWrite f k value s) :=
  .next (h.guardedWrite _ _ _ _ fun _ _ _ h => h.writeCgoOwners _ _ _)

/-! ### Posting (R318, R321) -/

theorem runLanes (h : Canon π s) (g d : Nat) : Canon π (runLanes g d s) := iter (fun _ h => (h.beginOp _ _ _).beginOp _ _ _) _ h

theorem postOp (h : Canon π s) (q seq opc : Nat) : Canon π (postOp q seq opc s) := by
  unfold Machine.postOp
  refine h.withFlight _ _ _ fun _ => ?_
  extract_lets _ _ _ _ _ _ _ _ _ _ _ _ s1
  have h1 : Canon π s1 := (h.bindTable _ _ _).updFlight _ _ _
  clear_value s1
  refine .ite (fun _ => h) fun _ => ?_
  refine .ite (fun _ => h.endCommand _ _ _ _) fun _ => ?_
  refine .ite (fun _ => h.endCommand _ _ _ _) fun _ => ?_
  refine .ite (fun _ => h.endCommand _ _ _ _) fun _ => ?_
  refine .ite (fun _ => h.endCommand _ _ _ _) fun _ => ?_
  exact .ite (fun _ => h.endCommand _ _ _ _) fun _ => .ite (fun _ => h) fun _ => (h1.setGdie _ _ _).runLanes _ _

theorem execReduceScatter (h : Canon π s) (q : Qn) (seq : Word64) : Goes π (execReduceScatter q seq s) := .next (h.postOp _ _ _)
theorem execAllGather (h : Canon π s) (q : Qn) (seq : Word64) : Goes π (execAllGather q seq s) := .next (h.postOp _ _ _)
theorem execQuick (h : Canon π s) (q : Qn) (seq : Word64) : Goes π (execQuick q seq s) := .next (h.postOp _ _ _)

/-! ### Sending (R322, R336) -/

theorem serveLane (h : Canon π s) (g d : Nat) : Canon π (serveLane g d s) := by
  unfold Machine.serveLane
  split
  · exact h
  · exact (settleBulk (.ite (fun _ => (h.noteRun _).sendChunk _ _ _) fun _ => (h.noteRun _).sendChunk _ _ _) _ _).runLanes _ _

theorem runPrefetches (h : Canon π s) (d : Nat) : Canon π (runPrefetches d s) := by
  unfold Machine.runPrefetches
  extract_lets s1
  have h1 : Canon π s1 := by
    unfold s1
    refine foldl (fun _ _ h => ?_) _ h
    split
    · exact .ite (fun _ => h.tryPrefetch _ _ _) fun _ => h
    · exact h
  clear_value s1
  exact foldl (fun _ _ h => h.tryPrefetch _ _ _) _ h1

theorem runHeldBack (h : Canon π s) (d : Nat) : Canon π (runHeldBack d s) := by
  unfold Machine.runHeldBack
  refine foldl (fun _ _ h => ?_) _ h
  extract_lets s2 s3
  have h2 : Canon π s2 := h.runLanes _ _
  have h3 : Canon π s3 := .ite (fun _ => quickRun _ _ _ h2) fun _ => h2
  exact (((h3.settleBulk _ _).sendOwed _ _ _).sendOwed _ _ _).runLanes _ _

theorem execCollChunkSend (h : Canon π s) (die : Die) : Goes π (execCollChunkSend die s) := by
  unfold Machine.execCollChunkSend
  refine .next ?_
  extract_lets s1
  have h1 : Canon π s1 := (h.runPrefetches _).runHeldBack _
  clear_value s1
  split
  · exact (h1.withColl _).serveLane _ _
  · exact h1

/-! ### Receiving (R325, R326, R338) -/

theorem takeColl (h : Canon π s) (d : Nat) (p : Option Nat) (kind : Nat) {go : CollIn → State → State}
    (hgo : ∀ a t, Canon π t → Canon π (go a t)) : Canon π (takeColl d p kind s go) := by
  unfold Machine.takeColl
  split
  · split
    · exact h
    · exact hgo _ _ (h.withColl _)
  · split
    · exact h
    · next hb => exact (h.takeArrived hb).receiveChecks _ fun _ _ h => hgo _ _ h

theorem dropMsg (h : Canon π s) (d : Nat) (m : CollIn) : Canon π (dropMsg d m s) := (h.bump _ _).collEvent _ _ _ _ _ _
theorem checkMsg (h : Canon π s) (d : Nat) (m : CollIn) {go : List Byte → State → State}
    (hgo : ∀ a0 t, Canon π t → Canon π (go a0 t)) : Canon π (checkMsg d m s go) :=
  .ite (fun _ => h.dropMsg _ _) fun _ => .ite (fun _ => h.bump _ _) fun _ => hgo _ _ h

theorem noteMsg (h : Canon π s) (g d : Nat) (quick : Bool) (m : List Byte) : Canon π (noteMsg g d quick m s) := by
  unfold Machine.noteMsg
  split
  · exact h
  · exact (noteRun (.ite (fun _ => (h.setOp _ _ _ _).collEvent _ _ _ _ _ _) fun _ => h.setOp _ _ _ _) _).touchDetector _

theorem forCurrent (h : Canon π s) (g d : Nat) (quick digest : Bool) (m : List Byte) {go : CollOp → State → State}
    (hgo : ∀ a0 t, Canon π t → Canon π (go a0 t)) : Canon π (forCurrent g d quick digest m s go) := by
  unfold Machine.forCurrent
  split
  · exact h
  · refine .ite (fun _ => h) fun _ => ?_
    refine .ite (fun _ => (h.bump _ _).collFail _ _ _ _ _) fun _ => ?_
    refine .ite (fun _ => ?_) fun _ => ?_
    · exact ((h.bump _ _).collEvent _ _ _ _ _ _).collFail _ _ _ _ _
    · extract_lets s1
      have h1 : Canon π s1 := h.noteMsg _ _ _ _
      clear_value s1
      split
      · exact hgo _ _ h1
      · exact h1

theorem sendAck (h : Canon π s) (g d dir : Nat) : Canon π (sendAck g d dir s) := by
  unfold Machine.sendAck
  split
  · exact h
  · exact h.collSend _ _ _ _ _ _ _ _ _ _ fun _ h => h

theorem placeChunk (h : Canon π s) (g d dir t c slot : Nat) (bs : List Byte) (o : CollOp) :
    Acc π (placeChunk g d dir t c slot bs o s) := by
  unfold Machine.placeChunk
  dsimp only
  refine (h.vaWrite _ _ _).bind fun _ _ h => ?_
  refine .ite (fun _ => (h.gatherOut _ _ _ _ _ _).bind fun _ _ h => .ret h) fun _ => ?_
  refine .ite (fun _ => ?_) fun _ => .ret h
  refine (h.readOwn _ _ _ _).bind fun _ _ h => ?_
  split
  · exact .ret h
  · exact (h.writeOut _ _ _ _ _).bind fun _ _ h => .ret h

theorem combineMismatch (h : Canon π s) (d q : Nat) : Canon π (combineMismatch d q s) := (h.bump _ _).auditEvent _

theorem takeChunk (h : Canon π s) (g d res : Nat) (m : List Byte) (o : CollOp) : Canon π (takeChunk g d res m o s) := by
  unfold Machine.takeChunk
  dsimp only
  refine .ite (fun _ => h) fun _ => ?_
  refine .ite (fun _ => h.sendAck _ _ _) fun _ => ?_
  split
  · exact h
  · refine h.collAcc _ _ _ (h.placeChunk _ _ _ _ _ _ _ _) fun _ _ h => ?_
    split
    · exact h.collFail _ _ _ _ _
    · refine .ite (fun _ => ?_) fun _ => ?_
      · exact (combineMismatch (.ite (fun _ => h.combineMismatch _ _) fun _ => h) _ _).collFail _ _ _ _ _
      · exact settleBulk
          (.ite (fun _ => ((setOp (.ite (fun _ => h.combineMismatch _ _) fun _ => h) _ _ _ _).sendAck _ _ _).sendCredit _ _ _) fun _ =>
          (setOp (.ite (fun _ => h.combineMismatch _ _) fun _ => h) _ _ _ _).sendAck _ _ _) _ _

theorem ackAgain (h : Canon π s) (g d entry : Nat) (o : CollOp) (dir n : Nat) : Canon π (ackAgain g d entry o dir n s) :=
  .ite (fun _ => h) fun _ => h.collPost _ _ _ _ _

theorem execCollChunkReceive (h : Canon π s) (die : Die) (p : Option (Fin 24)) (res : Fin 3) :
    Goes π (execCollChunkReceive die p res s) := by
  unfold Machine.execCollChunkReceive
  refine .next ?_
  refine h.takeColl _ _ _ fun _ _ h => ?_
  refine h.checkMsg _ _ fun _ _ h => ?_
  extract_lets _ s3
  have h3 : Canon π s3 := by
    unfold s3
    split
    · exact .ite (fun _ => h.ackAgain _ _ _ _ _ _) fun _ => h
    · exact h
  clear_value s3
  exact (h3.forCurrent _ _ _ _ _ fun _ _ h => h.takeChunk _ _ _ _ _).runLanes _ _

theorem execCollCreditReceive (h : Canon π s) (die : Die) (p : Option (Fin 24)) : Goes π (execCollCreditReceive die p s) := by
  unfold Machine.execCollCreditReceive
  refine .next ?_
  exact h.takeColl _ _ _ fun _ _ h => h.checkMsg _ _ fun _ _ h => (h.forCurrent _ _ _ _ _ fun _ _ h => h.setOp _ _ _ _).runLanes _ _

theorem execCollAckReceive (h : Canon π s) (die : Die) (p : Option (Fin 24)) : Goes π (execCollAckReceive die p s) := by
  unfold Machine.execCollAckReceive
  refine .next ?_
  refine h.takeColl _ _ _ fun _ _ h => ?_
  refine h.checkMsg _ _ fun _ _ h => ?_
  dsimp only
  refine .ite (fun _ => ?_) fun _ => ?_
  · exact (h.forCurrent _ _ _ _ _ fun _ _ h => quickRun _ _ _ (h.setOp _ _ _ _)).runLanes _ _
  · exact ((h.forCurrent _ _ _ _ _ fun _ _ h => h.setOp _ _ _ _).settleBulk _ _).runLanes _ _

theorem execCollAbortReceive (h : Canon π s) (die : Die) (p : Option (Fin 24)) : Goes π (execCollAbortReceive die p s) := by
  unfold Machine.execCollAbortReceive
  refine .next ?_
  refine h.takeColl _ _ _ fun _ _ h => ?_
  refine h.checkMsg _ _ fun _ _ h => ?_
  exact .ite (fun _ => h.bump _ _) fun _ => ((((h.setGdie _ _ _).dropPrefetch _).bump _ _).collEvent _ _ _ _ _ _).endAll _

theorem sendQuickAck (h : Canon π s) (g d rank : Nat) : Canon π (sendQuickAck g d rank s) := h.collSend _ _ _ _ _ _ _ _ _ _ fun _ h => h

theorem execCollQuickReceive (h : Canon π s) (die : Die) (p : Option (Fin 24)) : Goes π (execCollQuickReceive die p s) := by
  unfold Machine.execCollQuickReceive
  refine .next ?_
  refine h.takeColl _ _ _ fun _ _ h => ?_
  refine h.checkMsg _ _ fun _ _ h => ?_
  dsimp only
  refine .ite (fun _ => h.ackAgain _ _ _ _ _ _) fun _ => ?_
  exact (h.forCurrent _ _ _ _ _ fun _ _ h => .ite (fun _ => h.sendQuickAck _ _ _) fun _ =>
    quickRun _ _ _ ((h.sendQuickAck _ _ _).setOp _ _ _ _)).runLanes _ _

/-! ### Limits (R338, R343, R344) -/

theorem execCollResend (h : Canon π s) (die : Die) (g : Fin 4096) : Goes π (execCollResend die g s) :=
  .next (((h.resendChunks _ _ _ _).resendChunks _ _ _ _).resendQuick _ _ _)

theorem execCollStall (h : Canon π s) (die : Die) (g : Fin 4096) (quick : Bool) : Goes π (execCollStall die g quick s) := by
  unfold Machine.execCollStall
  refine .next ?_
  split
  · exact h
  · exact .ite (fun _ => ((h.setOp _ _ _ _).bump _ _).collEvent _ _ _ _ _ _) fun _ => h

theorem execCollAbortTimeout (h : Canon π s) (die : Die) (g : Fin 4096) (quick : Bool) : Goes π (execCollAbortTimeout die g quick s) := by
  unfold Machine.execCollAbortTimeout
  refine .next ?_
  split
  · exact h
  · exact .ite (fun _ => h.collFail _ _ _ _ _) fun _ => h

/-! ### The registers (R353) -/

theorem snapGroup (h : Canon π s) (d g : Nat) : Canon π (snapGroup d g s) := ((h.setRegN _ _).setRegN _ _).setRegN _ _
theorem execColSelect (h : Canon π s) (f : Func) (die : Die) (value : Word32) : Goes π (execColSelect f die value s) :=
  .next (h.guardedWrite _ _ _ _ fun _ _ _ h => h.snapGroup _ _)

end Canon
end Sys2Proof.Machine
end

section
/-! Canonical form: HBM frames and page tables (R190 to R200). -/
namespace Sys2Proof.Machine
set_option Elab.async false
open Sys2Proof
namespace Canon
variable {π : List Instr} {s t : State}

/-! ### Frames (R191, R192) -/

theorem execHbmAssign (h : Canon π s) (q : Qn) (seq : Word64) : Goes π (execHbmAssign q seq s) := by
  unfold Machine.execHbmAssign
  refine .next ?_
  refine h.withAdmin _ _ _ fun _ => ?_
  dsimp only
  refine .ite (fun _ => h.endCommand _ _ _ _) fun _ => ?_
  exact .ite (fun _ => h.endCommand _ _ _ _) fun _ => endCommand (foldl (fun _ _ h => h.setFrameByte _ _ _) _ h) _ _ _ _

theorem releaseLines (h : Canon π s) (x : List Nat) (a b : Nat) (line : List Byte) (d f v : Nat) :
    Canon π ((Machine.blockStore b line (Machine.blockStore a line { s with hbm := { s.hbm with lostLines := x } })).setFrameByte d f v)
      :=
  (((h.withHbm _).blockStore _ _).blockStore _ _).setFrameByte _ _ _

theorem releaseFrame (h : Canon π s) (g : Nat) : Canon π (releaseFrame s g) := by
  unfold Machine.releaseFrame
  exact (h.clearMapLine g).releaseLines _ _ _ _ _ _ _

theorem unmapFrames (h : Canon π s) (part bank : Nat) (gs : List Nat) : Canon π (unmapFrames part bank gs s) :=
  { h with pages := cwf_filter _ h.pages }
theorem shadowGate (h : Canon π s) (q seq p : Nat) {go : Nat → State → State} (hgo : ∀ a0 t, Canon π t → Canon π (go a0 t)) :
    Canon π (shadowGate q seq p s go) :=
  .ite (fun _ => h) fun _ => .ite (fun _ => h.setBank _ _) fun _ => hgo _ _ (h.setBank _ _)

theorem hbmRelease (h : Canon π s) (q seq : Nat) : Canon π (hbmRelease q seq s) := by
  unfold Machine.hbmRelease
  refine h.withAdmin _ _ _ fun _ => ?_
  dsimp only
  refine .ite (fun _ => h.endCommand _ _ _ _) fun _ => ?_
  refine .ite (fun _ => h.endCommand _ _ _ _) fun _ => ?_
  exact h.shadowGate _ _ _ fun _ _ h => endCommand (foldl (fun _ _ h => h.releaseFrame _) _ (h.unmapFrames _ _ _)) _ _ _ _

theorem execHbmRelease (h : Canon π s) (q : Qn) (seq : Word64) : Goes π (execHbmRelease q seq s) := .next (h.hbmRelease _ _)

/-! ### The page-table pool (R193, R195) -/

theorem newTable (h : Canon π s) (part size : Nat) : Canon π (newTable part size s).2 := h.draw
theorem newRoots (h : Canon π s) (part : Nat) : Canon π (newRoots part s) :=
  foldl (fun _ _ h => (h.newTable part 16384).withHbm _) _ h
theorem setPt (h : Canon π s) (part bank level idx v : Nat) : Canon π (s.setPt part bank level idx v) :=
  { h with pages := cwf_cset _ _ h.pages }

/-! ### HBM_MAP and HBM_UNMAP (R200) -/

theorem needTable (h : Canon π s) (part bank level idx size : Nat) : Canon π (needTable part bank level idx size s) :=
  .ite (fun _ => h) fun _ => (h.newTable part size).setPt _ _ _ _ _
theorem freeTable (h : Canon π s) (part bank idx : Nat) : Canon π (freeTable part bank idx s) :=
  { h with pages := cwf_cclear _ _ h.pages }

theorem mapPage (h : Canon π s) (part bank : Nat) (small w : Bool) (va pa : Nat) : Canon π (mapPage part bank small w va pa s) := by
  unfold Machine.mapPage
  extract_lets s1
  have h1 : Canon π s1 := h.needTable _ _ _ _ _
  clear_value s1
  exact .ite (fun _ => (h1.needTable _ _ _ _ _).setPt _ _ _ _ _) fun _ => (h1.freeTable _ _ _).setPt _ _ _ _ _

theorem mapPages : ∀ (part : Nat) (bank : Nat) (small : Bool) (w : Bool) (va : Nat) (pa : Nat) (x6 : Nat) {s : State}, Canon π s →
    Canon π (mapPages part bank small w va pa x6 s)
  | _, _, _, _, _, _, 0, _, h => h
  | _, _, _, _, _, _, fuel + 1, _, h => (mapPages _ _ _ _ _ _ fuel h).mapPage _ _ _ _ _ _

theorem hbmMap (h : Canon π s) (q seq : Nat) : Canon π (hbmMap q seq s) := by
  unfold Machine.hbmMap
  refine h.withAdmin _ _ _ fun _ => ?_
  dsimp only
  refine .ite (fun _ => h.endCommand _ _ _ _) fun _ => ?_
  refine .ite (fun _ => h.endCommand _ _ _ _) fun _ => ?_
  refine h.shadowGate _ _ _ fun _ _ h => ?_
  refine .ite (fun _ => h.endCommand _ _ _ _) fun _ => ?_
  exact .ite (fun _ => h.endCommand _ _ _ _) fun _ => (mapPages _ _ _ _ _ _ _ h).endCommand _ _ _ _

theorem execHbmMap (h : Canon π s) (q : Qn) (seq : Word64) : Goes π (execHbmMap q seq s) := .next (h.hbmMap _ _)
theorem unmapPage (h : Canon π s) (part bank : Nat) (small : Bool) (va : Nat) : Canon π (unmapPage part bank small va s) :=
  .ite (fun _ => h) fun _ => .ite (fun _ => h.setPt _ _ _ _ _) fun _ => (h.freeTable _ _ _).setPt _ _ _ _ _

theorem unmapPages : ∀ (part : Nat) (bank : Nat) (small : Bool) (va : Nat) (x4 : Nat) {s : State}, Canon π s →
    Canon π (unmapPages part bank small va x4 s)
  | _, _, _, _, 0, _, h => h
  | _, _, _, _, fuel + 1, _, h => (unmapPages _ _ _ _ fuel h).unmapPage _ _ _ _

theorem hbmUnmap (h : Canon π s) (q seq : Nat) : Canon π (hbmUnmap q seq s) := by
  unfold Machine.hbmUnmap
  refine h.withAdmin _ _ _ fun _ => ?_
  dsimp only
  refine .ite (fun _ => h.endCommand _ _ _ _) fun _ => ?_
  exact h.shadowGate _ _ _ fun _ _ h => .ite (fun _ => h.endCommand _ _ _ _) fun _ => (unmapPages _ _ _ _ _ h).endCommand _ _ _ _

theorem execHbmUnmap (h : Canon π s) (q : Qn) (seq : Word64) : Goes π (execHbmUnmap q seq s) := .next (h.hbmUnmap _ _)

/-! ### HBM_FLIP and the copy-back (R174, R175, R198) -/

theorem copyEntry (h : Canon π s) (part bank key v : Nat) : Canon π (copyEntry part bank key v s) :=
  .ite (fun _ => (h.newTable part 4096).setPt _ _ _ _ _) fun _ =>
    .ite (fun _ => (h.newTable part 256).setPt _ _ _ _ _) fun _ => h.setPt _ _ _ _ _

theorem copyTables (h : Canon π s) (part : Nat) : Canon π (copyTables part s) :=
  foldl (fun _ _ h => h.copyEntry _ _ _ _) _ { h with pages := cwf_cclear _ _ h.pages }

theorem execHbmFlip (h : Canon π s) (q : Qn) (seq : Word64) : Goes π (execHbmFlip q seq s) := by
  unfold Machine.execHbmFlip
  refine .next ?_
  refine h.withAdmin _ _ _ fun _ => ?_
  dsimp only
  refine .ite (fun _ => h.endCommand _ _ _ _) fun _ => ?_
  refine .ite (fun _ => h) fun _ => ?_
  exact .ite (fun _ => h.endCommand _ _ _ _) fun _ => .ite (fun _ => h.endCommand _ _ _ _) fun _ => (h.setBank _ _).endCommand _ _ _ _

theorem pageCopyback (h : Canon π s) (part : Nat) : Canon π (pageCopyback part s) :=
  .ite (fun _ => h) fun _ => (h.copyTables _).setBank _ _

end Canon
end Sys2Proof.Machine
end

section
/-! Canonical form: loans of clusters. -/
namespace Sys2Proof.Machine
set_option Elab.async false
open Sys2Proof
namespace Canon
variable {π : List Instr} {s t : State}

theorem failUnit (h : Canon π s) (q status : Nat) : Canon π (failUnit q status s) := by
  unfold Machine.failUnit
  dsimp only
  split
  · exact h
  · exact (h.setQueue _ _).endAll _

theorem stopUnitWork (h : Canon π s) (q : Nat) (u : FillUnit) (keep : Bool) : Canon π (stopUnitWork q u keep s) := by
  unfold Machine.stopUnitWork
  extract_lets _ _ s1
  have h1 : Canon π s1 := foldl (fun _ _ h => releaseBanks _ (h.dropUnits _ _ _)) _ h
  clear_value s1
  exact (h1.setQueue _ _).withHbm _

theorem endAttempt (h : Canon π s) (q : Nat) : Canon π (endAttempt q s) := by
  unfold Machine.endAttempt
  dsimp only
  split
  · exact h
  · refine .ite (fun _ => h) fun _ => ?_
    refine .ite (fun _ => ?_) fun _ => ?_
    · exact ((((((h.stopUnitWork _ _ _).giveBack _).setQueue _ _).bump _ _).trnEvent _ _ _ _ _ _).trnEvent _ _ _ _ _ _).failUnit _ _
    · exact (((((((h.stopUnitWork _ _ _).giveBack _).setQueue _ _).bump _ _).trnEvent _ _ _ _ _ _).refreshQuiesced _).finishStop
        _).endAll _

end Canon
end Sys2Proof.Machine
end

section
/-! Canonical form: synchronisation commands. -/
namespace Sys2Proof.Machine
set_option Elab.async false
open Sys2Proof
namespace Canon
variable {π : List Instr} {s t : State}

/-! ### Commands (R298 to R303) -/

theorem endWith (h : Canon π s) (q seq status detail : Nat) (es : List Ending) : Canon π (endWith q seq status detail es s) := h.endAll _

theorem execSyncSignal (h : Canon π s) (q : Qn) (seq : Word64) : Goes π (execSyncSignal q seq s) := by
  unfold Machine.execSyncSignal
  refine .next ?_
  refine h.withFlight _ _ _ fun _ => ?_
  dsimp only
  refine .ite (fun _ => h.endCommand _ _ _ _) fun _ => ?_
  refine .ite (fun _ => h) fun _ => ?_
  split
  · next hb => exact ((h.synOp _ _ _ _).mid hb).endWith _ _ _ _ _
  · next hb => exact ((h.synOp _ _ _ _).mid hb).endWith _ _ _ _ _
  · next hb => exact ((h.synOp _ _ _ _).mid hb).endWith _ _ _ _ _
  · next hb => exact ((h.synOp _ _ _ _).mid hb).endWith _ _ _ _ _

theorem registerWait (h : Canon π s) (w : SynWait) : Canon π (registerWait w s) := by
  unfold Machine.registerWait
  split
  · exact h.endCommand _ _ _ _
  · exact .ite (fun _ => h) fun _ => (h.withSyn _).noteRun _

theorem execSyncWait (h : Canon π s) (q : Qn) (seq : Word64) : Goes π (execSyncWait q seq s) := by
  unfold Machine.execSyncWait
  refine .next ?_
  refine h.withFlight _ _ _ fun _ => ?_
  dsimp only
  refine .ite (fun _ => h.endCommand _ _ _ _) fun _ => ?_
  exact .ite (fun _ => (h.synBlocked _ _).endCommand _ _ _ _) fun _ => .ite (fun _ => h.endCommand _ _ _ _) fun _ => h.registerWait _

theorem execSyncArriveWait (h : Canon π s) (q : Qn) (seq : Word64) : Goes π (execSyncArriveWait q seq s) := by
  unfold Machine.execSyncArriveWait
  refine .next ?_
  refine h.withFlight _ _ _ fun _ => ?_
  dsimp only
  refine .ite (fun _ => h) fun _ => ?_
  refine .ite (fun _ => h.endCommand _ _ _ _) fun _ => ?_
  refine .ite (fun _ => h) fun _ => ?_
  refine .ite (fun _ => (h.synBlocked _ _).endCommand _ _ _ _) fun _ => ?_
  refine .ite (fun _ => h.endCommand _ _ _ _) fun _ => ?_
  exact .ite (fun _ => h.endCommand _ _ _ _) fun _ => (((h.updFlight _ _ _).synOp _ _ _ _).endAll _).registerWait _

theorem execSyncWaitTimeout (h : Canon π s) (q : Qn) (seq : Word64) : Goes π (execSyncWaitTimeout q seq s) := by
  unfold Machine.execSyncWaitTimeout
  refine .next ?_
  split
  · exact .ite (fun _ => (h.withSyn _).endCommand _ _ _ _) fun _ => h
  · exact h

theorem setObjects : ∀ (o : Nat) (g : Nat → SynObj) (x2 : Nat) {s : State}, Canon π s → Canon π (setObjects o g x2 s)
  | _, _, 0, _, h => h
  | _, _, fuel + 1, _, h => (setObjects _ _ fuel h).setSynObj _ _

theorem execSyncConfig (h : Canon π s) (q : Qn) (seq : Word64) : Goes π (execSyncConfig q seq s) := by
  unfold Machine.execSyncConfig
  refine .next ?_
  refine h.withFlight _ _ _ fun _ => ?_
  dsimp only
  refine .ite (fun _ => h.endCommand _ _ _ _) fun _ => ?_
  split
  · exact (h.synBlocked _ _).endCommand _ _ _ _
  · refine .ite (fun _ => h.endCommand _ _ _ _) fun _ => ?_
    exact .ite (fun _ => h.endCommand _ _ _ _) fun _ => (setObjects _ _ _ h).endCommand _ _ _ _

theorem execSyncSave (h : Canon π s) (q : Qn) (seq : Word64) : Goes π (execSyncSave q seq s) := by
  unfold Machine.execSyncSave
  refine .next ?_
  refine h.withFlight _ _ _ fun _ => ?_
  dsimp only
  refine .ite (fun _ => h.endCommand _ _ _ _) fun _ => ?_
  split
  · exact (h.synBlocked _ _).endCommand _ _ _ _
  · exact .ite (fun _ => h.endCommand _ _ _ _) fun _ => h.finishAcc _ _ _ (h.vaWrite _ _ _) fun _ _ h => h.endCommand _ _ _ _

theorem execSyncRestore (h : Canon π s) (q : Qn) (seq : Word64) : Goes π (execSyncRestore q seq s) := by
  unfold Machine.execSyncRestore
  refine .next ?_
  refine h.withFlight _ _ _ fun _ => ?_
  dsimp only
  refine .ite (fun _ => h.endCommand _ _ _ _) fun _ => ?_
  split
  · exact (h.synBlocked _ _).endCommand _ _ _ _
  · refine .ite (fun _ => h.endCommand _ _ _ _) fun _ => ?_
    refine h.finishAcc _ _ _ (h.vaRead _ _ _) fun _ _ h => ?_
    refine .ite (fun _ => h.endCommand _ _ _ _) fun _ => ?_
    exact .ite (fun _ => h.endCommand _ _ _ _) fun _ => (setObjects _ _ _ h).endCommand _ _ _ _

/-! ### Operations arriving at an object (R287 to R295) -/

theorem syncOpFrom (h : Canon π s) (q op obj v : Nat) (failed : Bool) : Canon π (syncOpFrom q op obj v failed s) := h.applySync _ _ _ _
theorem execSyncOpSet (h : Canon π s) (q : Qn) (obj : BitVec 14) (v : Word32) (failed : Bool) : Goes π (execSyncOpSet q obj v failed s) :=
  .next (h.syncOpFrom _ _ _ _ _)
theorem execSyncOpAdd (h : Canon π s) (q : Qn) (obj : BitVec 14) (v : Word32) (failed : Bool) : Goes π (execSyncOpAdd q obj v failed s) :=
  .next (h.syncOpFrom _ _ _ _ _)
theorem execSyncOpSub (h : Canon π s) (q : Qn) (obj : BitVec 14) (v : Word32) (failed : Bool) : Goes π (execSyncOpSub q obj v failed s) :=
  .next (h.syncOpFrom _ _ _ _ _)
theorem execSyncOpMax (h : Canon π s) (q : Qn) (obj : BitVec 14) (v : Word32) (failed : Bool) : Goes π (execSyncOpMax q obj v failed s) :=
  .next (h.syncOpFrom _ _ _ _ _)
theorem execSyncOpArrive (h : Canon π s) (q : Qn) (obj : BitVec 14) (v : Word32) (failed : Bool) :
    Goes π (execSyncOpArrive q obj v failed s) :=
  .next (h.syncOpFrom _ _ _ _ _)
theorem execSyncOpClearFail (h : Canon π s) (q : Qn) (obj : BitVec 14) (v : Word32) (failed : Bool) :
    Goes π (execSyncOpClearFail q obj v failed s) :=
  .next (h.syncOpFrom _ _ _ _ _)

/-! ### Ownership (R286, R296, R312) -/

theorem setByteOf (h : Canon π s) (off j v : Nat) : Canon π (setByteOf s off j v) := h.setRfld _ _ _ _
theorem changeSynOwner (h : Canon π s) (d b new : Nat) : Canon π (changeSynOwner d b new s) :=
  .ite (fun _ => h) fun _ => ((((h.setByteOf _ _ _).withSyn _).endAll _).withSyn _).setByteOf _ _ _
theorem writeSynOwners (h : Canon π s) (d k old new : Nat) : Canon π (writeSynOwners d k old new s) :=
  foldl (fun _ _ h => h.changeSynOwner _ _ _) _ (h.setRegN _ _)
theorem execSynOwnerWrite (h : Canon π s) (f : Func) (die : Die) (k : Fin 8) (value : Word64) :
    Goes π (execSynOwnerWrite f die k value s) :=
  .next (h.guardedWrite _ _ _ _ fun _ _ _ h => h.writeSynOwners _ _ _ _)
theorem snapObject (h : Canon π s) (d i : Nat) : Canon π (snapObject d i s) := (h.setRegN _ _).setRegN _ _
theorem execSynSelect (h : Canon π s) (f : Func) (die : Die) (value : Word32) : Goes π (execSynSelect f die value s) :=
  .next (h.guardedWrite _ _ _ _ fun _ _ _ h => h.snapObject _ _)

end Canon
end Sys2Proof.Machine
end

section
/-! Canonical form: the host port: doorbells, fetch, functions. -/
namespace Sys2Proof.Machine
set_option Elab.async false
open Sys2Proof
namespace Canon
variable {π : List Instr} {s t : State}

/-! ### Doorbells (R253, R254) -/

theorem doorbellRange (h : Canon π s) (f src q value : Nat) : Canon π (doorbellRange f src q value s) := h.raiseEvent _

theorem ringDoorbell (h : Canon π s) (f q : Nat) (aligned : Bool) (value last limit : Nat) {accept : State}
    (haccept : Canon π accept) : Canon π (ringDoorbell f q aligned value last limit s accept) := by
  unfold Machine.ringDoorbell
  refine .ite (fun _ => h) fun _ => ?_
  refine .ite (fun _ => h.bumpF _ _ _) fun _ => ?_
  refine .ite (fun _ => (h.bumpF _ _ _).raiseEvent _) fun _ => ?_
  exact .ite (fun _ => h.bumpF _ _ _) fun _ => .ite (fun _ => h.doorbellRange _ _ _ _) fun _ => haccept

theorem sqDoorbell (h : Canon π s) (f q : Nat) (aligned : Bool) (value : Nat) : Canon π (sqDoorbell f q aligned value s) :=
  h.ringDoorbell _ _ _ _ _ _ (h.setQueue _ _)
theorem cqDoorbell (h : Canon π s) (f q : Nat) (aligned : Bool) (value : Nat) : Canon π (cqDoorbell f q aligned value s) :=
  h.ringDoorbell _ _ _ _ _ _ ((h.setQueue _ _).writeHeld _)
theorem execSqDoorbell (h : Canon π s) (f : Func) (q : BitVec 16) (aligned : Bool) (value : Word64) :
    Goes π (execSqDoorbell f q aligned value s) :=
  .next (h.sqDoorbell _ _ _ _)
theorem execCqDoorbell (h : Canon π s) (f : Func) (q : BitVec 16) (aligned : Bool) (value : Word64) :
    Goes π (execCqDoorbell f q aligned value s) :=
  .next (h.cqDoorbell _ _ _ _)
theorem execAdminSqDoorbell (h : Canon π s) (f : Func) (aligned : Bool) (value : Word64) :
    Goes π (execAdminSqDoorbell f aligned value s) :=
  .next (h.sqDoorbell _ _ _ _)
theorem execAdminCqDoorbell (h : Canon π s) (f : Func) (aligned : Bool) (value : Word64) :
    Goes π (execAdminCqDoorbell f aligned value s) :=
  .next (h.cqDoorbell _ _ _ _)

theorem eventDoorbell (h : Canon π s) (f : Nat) (aligned : Bool) (value : Nat) : Canon π (eventDoorbell f aligned value s) := by
  unfold Machine.eventDoorbell
  dsimp only
  refine .ite (fun _ => h) fun _ => ?_
  exact .ite (fun _ => h.bumpF _ _ _) fun _ => .ite (fun _ => h.doorbellRange _ _ _ _) fun _ => (h.setFn _ _).announceLost _

theorem execEventDoorbell (h : Canon π s) (f : Func) (aligned : Bool) (value : Word64) : Goes π (execEventDoorbell f aligned value s) :=
  .next (h.eventDoorbell _ _ _)

theorem bar2Write (h : Canon π s) (f off size value : Nat) : Canon π (bar2Write f off size value s) := by
  unfold Machine.bar2Write
  dsimp only
  split
  · exact h.sqDoorbell _ _ _ _
  · exact h.cqDoorbell _ _ _ _
  · exact h.eventDoorbell _ _ _
  · exact .ite (fun _ => h.bumpF _ _ _) fun _ => h

/-! ### Fetch (R250, R255) -/

theorem takeBad (h : Canon π s) (q : Nat) : Canon π (takeBad q s) := by
  unfold Machine.takeBad
  dsimp only
  split
  · exact .ite (fun _ => ((h.setQueue _ _).enterError _ _).drainQueue _) fun _ => h
  · exact h

theorem failSlot (h : Canon π s) (q n status : Nat) : Canon π (failSlot q n status s) := (h.setQueue _ _).takeBad _
theorem hostFetchFault (h : Canon π s) (q first n : Nat) : Canon π (hostFetchFault q first n s) := (h.failSlot _ _ _).raiseEvent _
theorem readSlot (h : Canon π s) (q n : Nat) : Acc π (readSlot q n s) := .ite (fun _ => h.vaRead _ _ _) fun _ => .ret h

theorem fetchSlot (h : Canon π s) (q want : Nat) {good : List Byte → State → State}
    (hgood : ∀ a0 t, Canon π t → Canon π (good a0 t)) {wrong : State → State} (hwrong : ∀ t, Canon π t → Canon π (wrong t)) :
    Canon π (fetchSlot q want s good wrong) := by
  unfold Machine.fetchSlot
  split
  · next hb =>
      have h1 := (h.readSlot _ _).ok hb
      exact .ite (fun _ => hgood _ _ h1) fun _ => hwrong _ h1
  · next hb => exact (((h.readSlot _ _).fault hb).recordFault _ _ _).failSlot _ _ _
  · next hb => exact h

theorem fetchN : ∀ (q : Nat) (first : Nat) (deferred : Bool) (fault : Option Nat) (x4 : Nat) {s : State}, Canon π s →
    Canon π (fetchN q first deferred fault x4 s)
  | _, _, _, _, 0, _, h => h
  | _, _, _, _, fuel + 1, _, h => by
    unfold Machine.fetchN
    dsimp only
    split
    · exact h
    · refine .ite (fun _ => h.hostFetchFault _ _ _) fun _ => ?_
      exact h.fetchSlot _ _ (fun _ _ h => fetchN _ _ _ _ fuel (h.setQueue _ _)) fun _ h => h.setQueue _ _

theorem execDescriptorFetch (h : Canon π s) (q : Qn) (deferred : Bool) (n : Fin 32) (fault : Option (Fin 32)) :
    Goes π (execDescriptorFetch q deferred n fault s) := by
  unfold Machine.execDescriptorFetch
  refine .next ?_
  refine .ite (fun _ => ?_) fun _ => h
  split
  · exact fetchN _ _ _ _ _ h
  · exact h

theorem execSeqRefetch (h : Canon π s) (q : Qn) (fault : Bool) : Goes π (execSeqRefetch q fault s) := by
  unfold Machine.execSeqRefetch
  refine .next ?_
  dsimp only
  refine .ite (fun _ => h) fun _ => ?_
  split
  · exact h
  · refine .ite (fun _ => h.hostFetchFault _ _ _) fun _ => ?_
    exact h.fetchSlot _ _ (fun _ _ h => h.setQueue _ _) fun _ h => .ite (fun _ => h.failSlot _ _ _) fun _ => h.setQueue _ _

/-! ### Timers (R259, R267) -/

theorem execIntHoldoffExpire (h : Canon π s) (f : Func) (v : Fin 2048) : Goes π (execIntHoldoffExpire f v s) :=
  .next (.ite (fun _ => h.sendInterrupt _ _) fun _ => h)
theorem execCqFullTimeout (h : Canon π s) (q : Qn) : Goes π (execCqFullTimeout q s) :=
  .next (.ite (fun _ => (h.setQueue _ _).raiseEvent _) fun _ => h)

/-! ### NOP and COPY (R263, R271, R272) -/

theorem execNop (h : Canon π s) (q : Qn) (seq : Word64) : Goes π (execNop q seq s) := by
  unfold Machine.execNop
  refine .next ?_
  refine h.withFlight _ _ _ fun _ => ?_
  refine .ite (fun _ => ?_) fun _ => h.endCommand _ _ _ _
  exact .ite (fun _ => h.endCommand _ _ _ _) fun _ => .ite (fun _ => h) fun _ => h.endCommand _ _ _ _

theorem execCopy (h : Canon π s) (q : Qn) (seq : Word64) (fault : Option Word64) : Goes π (execCopy q seq fault s) := by
  unfold Machine.execCopy
  refine .next ?_
  refine h.withFlight _ _ _ fun _ => ?_
  dsimp only
  refine .ite (fun _ => h.endCommand _ _ _ _) fun _ => ?_
  refine .ite (fun _ => h) fun _ => ?_
  refine .ite (fun _ => ?_) fun _ => ?_
  · split
    · exact ((vaWriteSome _ _ _ _ _ h.draw).endCommand _ _ _ _).raiseEvent _
    · exact h.finishAcc _ _ _ (h.vaWriteWhole _ _ _) fun _ _ h => h.endCommand _ _ _ _
  · refine h.finishAcc _ _ _ (h.vaRead _ _ _) fun _ _ h2 => ?_
    refine .ite (fun _ => (h2.hostWrite _ _ _).endCommand _ _ _ _) fun _ => ?_
    exact h.finishAcc _ _ _ (h2.vaWriteWhole _ _ _) fun _ _ h => h.endCommand _ _ _ _

/-! ### Stopping (R251, R276, R277) -/

theorem abortFlights (h : Canon π s) (q status : Nat) : Canon π (abortFlights q status s) :=
  foldl (fun _ _ h => h.failCommand _ _ _ _) _ (h.endAttempt _)
theorem stopQueue (h : Canon π s) (q : Nat) (abort : Bool) (waiter : Nat × Nat) : Canon π (stopQueue q abort waiter s) :=
  (finishStop (.ite (fun _ => (h.setQueue _ _).abortFlights _ _) fun _ => h.setQueue _ _) _).endAll _

theorem execQueueStop (h : Canon π s) (q : Qn) (seq : Word64) : Goes π (execQueueStop q seq s) := by
  unfold Machine.execQueueStop
  refine .next ?_
  refine h.withFlight _ _ _ fun _ => ?_
  exact .ite (fun _ => h) fun _ => .ite (fun _ => h.endCommand _ _ _ _) fun _ => (h.updFlight _ _ _).stopQueue _ _ _

theorem stopPartition (h : Canon π s) (p : Nat) (abort : Bool) (waiter : Option (Nat × Nat)) :
    Canon π (stopPartition p abort waiter s) := by
  unfold Machine.stopPartition
  extract_lets _ s1
  have h1 : Canon π s1 := by
    unfold s1
    split
    · exact foldl (fun _ _ h => h.setQueue _ _) _ h
    · exact h
  clear_value s1
  exact foldl (fun _ _ h => (finishStop (.ite (fun _ => (h.setQueue _ _).abortFlights _ _) fun _ => h.setQueue _ _) _).endAll _) _ h1

theorem execPartitionStop (h : Canon π s) (q : Qn) (seq : Word64) : Goes π (execPartitionStop q seq s) := by
  unfold Machine.execPartitionStop
  refine .next ?_
  refine h.withFlight _ _ _ fun _ => ?_
  dsimp only
  refine .ite (fun _ => h) fun _ => ?_
  refine .ite (fun _ => h.endCommand _ _ _ _) fun _ => ?_
  exact .ite (fun _ => h.endCommand _ _ _ _) fun _ => (h.updFlight _ _ _).stopPartition _ _ _

/-! ### QUEUE_CREATE, QUEUE_DESTROY, QUEUE_START (R275, R276) -/

theorem execQueueCreate (h : Canon π s) (q : Qn) (seq : Word64) : Goes π (execQueueCreate q seq s) := by
  unfold Machine.execQueueCreate
  refine .next ?_
  refine h.withAdmin _ _ _ fun _ => ?_
  exact .ite (fun _ => h.endCommand _ _ _ _) fun _ => (((h.abortFlights _ _).setQueue _ _).withPower _).endCommand _ _ _ _

theorem execQueueDestroy (h : Canon π s) (q : Qn) (seq : Word64) : Goes π (execQueueDestroy q seq s) := by
  unfold Machine.execQueueDestroy
  refine .next ?_
  refine h.withAdmin _ _ _ fun _ => ?_
  extract_lets _ _ _ _ s1
  have h1 : Canon π s1 := h.endAttempt _
  clear_value s1
  refine .ite (fun _ => h.endCommand _ _ _ _) fun _ => ?_
  exact .ite (fun _ => h.endCommand _ _ _ _) fun _ => ((h1.setQueue _ _).dropReaders _).endCommand _ _ _ _

theorem execQueueStart (h : Canon π s) (q : Qn) (seq : Word64) : Goes π (execQueueStart q seq s) :=
  .next (h.withAdmin _ _ _ fun _ => .ite (fun _ => h.endCommand _ _ _ _) fun _ => ((h.setQueue _ _).takeBad _).endCommand _ _ _ _)

/-! ### EVENT_RING_SET (R270, R276) -/

theorem execEventRingSet (h : Canon π s) (q : Qn) (seq : Word64) : Goes π (execEventRingSet q seq s) := by
  unfold Machine.execEventRingSet
  refine .next ?_
  refine h.withAdmin _ _ _ fun _ => ?_
  extract_lets _ _ _ _ _ _ _ s1
  have h1 : Canon π s1 := h.setFn _ _
  clear_value s1
  refine .ite (fun _ => h.endCommand _ _ _ _) fun _ => ?_
  exact .ite (fun _ => (h.setFn _ _).endCommand _ _ _ _) fun _ => (h1.announceLost _).endCommand _ _ _ _

/-! ### ZG_ADM_CFG and ZG_HQ_SEL (R273) -/

theorem admCfgEffect (h : Canon π s) (f old new : Nat) : Canon π (admCfgEffect f old new s) :=
  refreshQuiesced (.ite (fun _ => h.setQueue _ _) fun _ => .ite (fun _ => h.setQueue _ _) fun _ => h) _
theorem execAdminEnable (h : Canon π s) (f : Func) (value : Word32) : Goes π (execAdminEnable f value s) :=
  .next (.ite (fun _ => h.guardedWrite _ _ _ _ fun _ _ _ h => h.admCfgEffect _ _ _) fun _ => h)
theorem execAdminDisable (h : Canon π s) (f : Func) (value : Word32) : Goes π (execAdminDisable f value s) :=
  .next (.ite (fun _ => h) fun _ => h.guardedWrite _ _ _ _ fun _ _ _ h => h.admCfgEffect _ _ _)
theorem execFunctionQuiesce (h : Canon π s) (f : Func) (on : Bool) : Goes π (execFunctionQuiesce f on s) :=
  .next (h.guardedWrite _ _ _ _ fun _ _ _ h => h.admCfgEffect _ _ _)

theorem hqSnapshot (h : Canon π s) (f sel : Nat) : Canon π (hqSnapshot f sel s) := by
  unfold Machine.hqSnapshot
  extract_lets _ _ _ _ _ s1 s2 s3 s4 s5 s6 s7 s8 s9
  have h1 : Canon π s1 := h.setRegF _ _ _
  have h2 : Canon π s2 := h1.setRegF _ _ _
  have h3 : Canon π s3 := h2.setRegF _ _ _
  have h4 : Canon π s4 := h3.setRegF _ _ _
  have h5 : Canon π s5 := h4.setRegF _ _ _
  have h6 : Canon π s6 := h5.setRegF _ _ _
  have h7 : Canon π s7 := h6.setRegF _ _ _
  have h8 : Canon π s8 := h7.setRegF _ _ _
  have h9 : Canon π s9 := h8.setRegF _ _ _
  exact h9.setRegF _ _ _

theorem execHqSelect (h : Canon π s) (f : Func) (value : Word32) : Goes π (execHqSelect f value s) :=
  .next (h.guardedWrite _ _ _ _ fun _ _ _ h => h.hqSnapshot _ _)

/-! ### Resets (R283, R596) -/

theorem disableQueue (h : Canon π s) (q : Nat) : Canon π (disableQueue q s) :=
  ((((releaseBanks _ h).setQueue _ _).abortFlights _ _).setQueue _ _).endAll _
theorem resetFnRegs (h : Canon π s) (f : Nat) : Canon π (resetFnRegs f s) :=
  withMgt (foldl (fun _ _ h => h.setRegF _ _ _) _ (h.setRegF _ _ _)) _
theorem functionReset (h : Canon π s) (f : Nat) : Canon π (functionReset f s) :=
  (withHost (foldl (fun _ _ h => h.disableQueue _) _ (h.setFn _ _)) _).resetFnRegs _
theorem execFlrVf (h : Canon π s) (p : Sys2Proof.Part) : Goes π (execFlrVf p s) := .next (h.functionReset _)

theorem resetAllFunctions (h : Canon π s) : Canon π (resetAllFunctions s) := by
  unfold Machine.resetAllFunctions
  extract_lets s1
  have h1 : Canon π s1 := foldl (fun _ _ h => h.functionReset _) _ h
  clear_value s1
  exact (h1.withRegs (cwf_cclear _ _ h1.regs)).withHost _

theorem setVfEnable (h : Canon π s) (on : Bool) : Canon π (setVfEnable on s) := by
  unfold Machine.setVfEnable
  extract_lets s1
  have h1 : Canon π s1 := .ite (fun _ => h) fun _ => foldl (fun _ _ h => h.functionReset _) _ h
  clear_value s1
  exact h1.withHost _

theorem execBusMasterEnable (h : Canon π s) (f : Func) (on : ConfigWrite) : Goes π (execBusMasterEnable f on s) := by
  unfold Machine.execBusMasterEnable
  refine .next ?_
  refine .ite (fun _ => h) fun _ => ?_
  extract_lets s1 _ s2
  have h1 : Canon π s1 := .ite (fun _ => h.setVfEnable _) fun _ => h
  have h2 : Canon π s2 := h1.setFn _ _
  clear_value s1 s2
  exact .ite (fun _ => foldl (fun _ _ h => h.writeHeld _) _ ((writeHeldEvents _ _ h2).announceLost _)) fun _ => h2

theorem execFlrPf (h : Canon π s) : Goes π (execFlrPf s) := .next h.resetAllFunctions
theorem execHotReset (h : Canon π s) : Goes π (execHotReset s) := .next ((h.withHost _).resetAllFunctions)

end Canon
end Sys2Proof.Machine
end

section
/-! Canonical form: Wefin commands and packets. -/
namespace Sys2Proof.Machine
set_option Elab.async false
open Sys2Proof
namespace Canon
variable {π : List Instr} {s t : State}

/-! ### Flits (R357 to R366) -/

theorem execWefinFlitSend (h : Canon π s) (p : Fin 24) (pool : Fin 3) : Goes π (execWefinFlitSend p pool s) := .next (h.sendFlit _ _)
theorem takeCredit (h : Canon π s) (p : Nat) (f : List Byte) : Canon π (takeCredit p f s) := .ite (fun _ => h) fun _ => h.setPort _ _
theorem arriveWords (h : Canon π s) (p : Nat) (words : List LaneWord) : Canon π (arriveWords p words s) :=
  ((h.setPort _ _).countPort _ _ _).countPort _ _ _

theorem nextFlit (h : Canon π s) {p : Nat} {f : List Byte} {lost : Bool} (hb : nextFlit p s = some (f, lost, t)) : Canon π t := by
  unfold Machine.nextFlit at hb
  dsimp only at hb
  split at hb
  · exact absurd hb (by simp)
  · obtain ⟨rfl, rfl⟩ := Prod.mk.inj (Prod.mk.inj (Option.some.inj hb)).2
    exact h.setPort _ _

theorem takeFlit (h : Canon π s) (p : Nat) (flit : List Byte) (lost : Bool) : Canon π (takeFlit p flit lost s) := by
  unfold Machine.takeFlit
  extract_lets _ s1 s2
  have h1 : Canon π s1 := .ite (fun _ => h.wfnTakeAck _ _) fun _ => h.countPort _ _ _
  have h2 : Canon π s2 := h1.takeCredit _ _
  clear_value s1 s2
  refine .ite (fun _ => h1.countPort _ _ _) fun _ => ?_
  exact .ite (fun _ => h2) fun _ => .ite (fun _ => h2.acceptFlit _ _) fun _ => (h2.setPort _ _).countPort _ _ _

theorem execWefinFlitReceive (h : Canon π s) (p : Fin 24) (lane : Fin 4) (blocks : List (BitVec 257)) (wrong : BitVec 10) :
    Goes π (execWefinFlitReceive p lane blocks wrong s) := by
  unfold Machine.execWefinFlitReceive
  dsimp only
  refine .ite (fun _ => trivial) fun _ => .next (.ite (fun _ => ?_) fun _ => h)
  have h1 := h.arriveWords p (laneWords lane blocks wrong)
  split
  · exact h1
  · next hb => exact (h1.nextFlit hb).takeFlit _ _ _

theorem execWefinAckIdle (h : Canon π s) (p : Fin 24) : Goes π (execWefinAckIdle p s) := .next (.ite (fun _ => h.setPort _ _) fun _ => h)

theorem endPortCmd (h : Canon π s) (p status : Nat) : Canon π (endPortCmd p status s) := by
  unfold Machine.endPortCmd
  split
  · exact (h.setPort _ _).endCommand _ _ _ _
  · exact h

theorem execWefinReplayTimeout (h : Canon π s) (p : Fin 24) : Goes π (execWefinReplayTimeout p s) :=
  .next (.ite (fun _ => .ite (fun _ => h.enterRetrain _) fun _ => (h.setPort _ _).countPort _ _ _) fun _ => h)
theorem execLaneLockLoss (h : Canon π s) (p : Fin 24) (lane : Fin 4) : Goes π (execLaneLockLoss p lane s) :=
  .next (.ite (fun _ => h.enterRetrain _) fun _ => h)
theorem execPortRetrain (h : Canon π s) (p : Fin 24) : Goes π (execPortRetrain p s) := .next (.ite (fun _ => h.enterRetrain _) fun _ => h)

theorem execPortRetrainDone (h : Canon π s) (p : Fin 24) (ok : Bool) : Goes π (execPortRetrainDone p ok s) := by
  unfold Machine.execPortRetrainDone
  refine .next ?_
  refine .ite (fun _ => h) fun _ => ?_
  refine .ite (fun _ => (h.leaveTo _ _).endPortCmd _ _) fun _ => ?_
  refine .ite (fun _ => (h.setRfld _ _ _ _).setPort _ _) fun _ => ?_
  exact .ite (fun _ => ((h.setPort _ _).setRfld _ _ _ _).endPortCmd _ _) fun _ => h.setPort _ _

theorem execPortTrained (h : Canon π s) (p : Fin 24) : Goes π (execPortTrained p s) :=
  .next (.ite (fun _ => (h.setRfld _ _ _ _).setPort _ _) fun _ => h)

/-! ### Verification (R376 to R378) -/

theorem execHelloSend (h : Canon π s) (p : Fin 24) : Goes π (execHelloSend p s) :=
  .next (.ite (fun _ => (h.setPort _ _).sendOneHop _ _) fun _ => h)
theorem verifyReport (h : Canon π s) (p b result : Nat) : Canon π (verifyReport p b result s) := (h.setRegN _ _).logRegister _ _ _ _ _

theorem applyOutcome (h : Canon π s) (p st result : Nat) : Canon π (applyOutcome p st result s) := by
  unfold Machine.applyOutcome
  extract_lets _ s1
  have h1 : Canon π s1 := h.setRfld _ _ _ _
  clear_value s1
  exact .ite (fun _ => .ite (fun _ => h1) fun _ => h1.enterUp _ _) fun _ => .ite (fun _ => h1.leaveTo _ _) fun _ => h1.setRfld _ _ _ _

theorem verifyPort (h : Canon π s) (p : Nat) : Canon π (verifyPort p s) := by
  unfold Machine.verifyPort
  dsimp only
  refine .ite (fun _ => ?_) fun _ => ?_
  · refine wefinEvent ?_ _ _ _ _ _
    refine .ite (fun _ => ?_) fun _ => ?_
    · refine wefinEvent ?_ _ _ _ _ _
      split
      · exact .ite (fun _ => ((h.verifyReport _ _ _).applyOutcome _ _ _).applyOutcome _ _ _) fun _ =>
          (h.verifyReport _ _ _).applyOutcome _ _ _
      · exact (h.verifyReport _ _ _).applyOutcome _ _ _
    · refine .ite (fun _ => ?_) fun _ => ?_
      · refine wefinEvent ?_ _ _ _ _ _
        split
        · exact .ite (fun _ => ((h.verifyReport _ _ _).applyOutcome _ _ _).applyOutcome _ _ _) fun _ =>
            (h.verifyReport _ _ _).applyOutcome _ _ _
        · exact (h.verifyReport _ _ _).applyOutcome _ _ _
      · split
        · exact .ite (fun _ => ((h.verifyReport _ _ _).applyOutcome _ _ _).applyOutcome _ _ _) fun _ =>
            (h.verifyReport _ _ _).applyOutcome _ _ _
        · exact (h.verifyReport _ _ _).applyOutcome _ _ _
  · refine .ite (fun _ => ?_) fun _ => ?_
    · refine wefinEvent ?_ _ _ _ _ _
      split
      · exact .ite (fun _ => ((h.verifyReport _ _ _).applyOutcome _ _ _).applyOutcome _ _ _) fun _ =>
          (h.verifyReport _ _ _).applyOutcome _ _ _
      · exact (h.verifyReport _ _ _).applyOutcome _ _ _
    · refine .ite (fun _ => ?_) fun _ => ?_
      · refine wefinEvent ?_ _ _ _ _ _
        split
        · exact .ite (fun _ => ((h.verifyReport _ _ _).applyOutcome _ _ _).applyOutcome _ _ _) fun _ =>
            (h.verifyReport _ _ _).applyOutcome _ _ _
        · exact (h.verifyReport _ _ _).applyOutcome _ _ _
      · split
        · exact .ite (fun _ => ((h.verifyReport _ _ _).applyOutcome _ _ _).applyOutcome _ _ _) fun _ =>
            (h.verifyReport _ _ _).applyOutcome _ _ _
        · exact (h.verifyReport _ _ _).applyOutcome _ _ _

theorem execHelloReceive (h : Canon π s) (p : Fin 24) : Goes π (execHelloReceive p s) :=
  .next (h.receivePacket _ _ fun _ _ _ h => .ite (fun _ => ((h.setPort _ _).setReg _ _).verifyPort _) fun _ => h)

/-! ### Transit (R368, R370, R382, R394) -/

theorem execPacketForward (h : Canon π s) (p : Fin 24) : Goes π (execPacketForward p s) := by
  unfold Machine.execPacketForward
  refine .next ?_
  split
  · exact h
  · next hb =>
      have h1 := h.takeArrived hb
      dsimp only
      refine .ite (fun _ => h1.dropPacket _ _ _) fun _ => ?_
      refine .ite (fun _ => h1.dropPacket _ _ _) fun _ => ?_
      refine .ite (fun _ => h1.dropPacket _ _ _) fun _ => ?_
      split
      · next hb2 =>
          split at hb2
          · exact h1.routeTwin hb2
          · exact h1.routePacket hb2
      · exact h1.dropUnreachable _ _

/-! ### Discovery (R379 to R381) -/

theorem execLsaFlood (h : Canon π s) : Goes π (execLsaFlood s) := .next (.ite (fun _ => h.floodOwn) fun _ => h)

theorem keepLsa (h : Canon π s) (p : Nat) (b l : List Byte) : Canon π (keepLsa p b l s) :=
  .ite (fun _ => h) fun _ => foldl (fun _ _ h => (h.newPkt (putAt b 1 [BitVec.ofNat 8 (pkTtl b - 1)]) 0 7 none).enqueue _ _) _
    (.ite (fun _ => (h.withWfn _).setRegion _ _) fun _ => h.withWfn _)

theorem execLsaReceive (h : Canon π s) (p : Fin 24) : Goes π (execLsaReceive p s) := by
  unfold Machine.execLsaReceive
  refine .next ?_
  refine h.receivePacket _ _ fun _ _ _ h => ?_
  extract_lets _ _ _ _ s2 s3
  have h2 : Canon π s2 := .ite (fun _ => h.unsettle _ _) fun _ => h
  have h3 : Canon π s3 := .ite (fun _ => h2.floodOwn) fun _ => h2
  clear_value s2 s3
  exact .ite (fun _ => h) fun _ => h3.keepLsa _ _ _

theorem execRegionSettle (h : Canon π s) (r : BitVec 8) : Goes π (execRegionSettle r s) :=
  .next (.ite (fun _ => h) fun _ => (h.setRegion _ _).refreshDisc)

/-! ### Plans (R381 to R385, R390, R394) -/

theorem formPlan (h : Canon π s) : Canon π (formPlan s) := (h.setRfld _ _ _ _).withWfn _
theorem refreshParent (h : Canon π s) : Canon π (refreshParent s) :=
  .ite (fun _ => ((h.setRfld _ _ _ _).setRfld _ _ _ _).setRfld _ _ _ _) fun _ => h.setRfld _ _ _ _

theorem flipRoutes (h : Canon π s) : Canon π (flipRoutes s) := by
  unfold Machine.flipRoutes
  extract_lets _ _ s1 _ _ s2 s3 s4 s5 _ _ s6
  have h1 : Canon π s1 := h.setBank _ _
  have h2 : Canon π s2 := h1.withWfn _
  have h3 : Canon π s3 := h2.bump _ _
  have h4 : Canon π s4 := h3.refreshDisc.refreshTwin.refreshParent
  have h5 : Canon π s5 := h4.wefinEvent _ _ _ _ _
  have h6 : Canon π s6 := foldl (fun _ _ h => h.rerouteHeld _) _ (h5.withWfn _)
  exact h6.routeChanged _

theorem finishPlan (h : Canon π s) : Canon π (finishPlan s) := by
  unfold Machine.finishPlan
  split
  · exact h
  · dsimp only
    refine .ite (fun _ => (h.withWfn _).bump _ _) fun _ => ?_
    exact .ite (fun _ => (h.withWfn _).refreshParent) fun _ => .ite (fun _ => h.setBank _ _) fun _ => (h.withWfn _).flipRoutes

theorem execPlanForm (h : Canon π s) : Goes π (execPlanForm s) :=
  .next (.ite (fun _ => h) fun _ => .ite (fun _ => h.finishPlan) fun _ => .ite (fun _ => h) fun _ => h.formPlan.finishPlan)

theorem adoptPlan (h : Canon π s) (p : List Byte) : Canon π (adoptPlan p s) := by
  unfold Machine.adoptPlan
  extract_lets _ _ _ s1 s2 s3 _ s4 s5 s6
  have h1 : Canon π s1 := h.withWfn _
  have h2 : Canon π s2 := h1.setRegN _ _
  have h3 : Canon π s3 := foldl (fun _ _ h => h.setRfld _ _ _ _) _ h2
  have h4 : Canon π s4 := h3.withWfn _
  have h5 : Canon π s5 := .ite (fun _ => h3) fun _ => h4.refreshDisc.refreshTwin
  have h6 : Canon π s6 := foldl (fun _ _ h => h.verifyPort _) _ h5
  exact h6.floodOwn

/-! ### Control packets (R386 to R388) -/

theorem setQuiesce (h : Canon π s) (f : Nat) (on : Bool) : Canon π (setQuiesce f on s) := (h.setRegF _ _ _).refreshQuiesced _
theorem ctrlStop (h : Canon π s) (t : Nat) : Canon π (ctrlStop t s) := foldl (fun _ _ h => h.stopPartition _ _ _) _ h
theorem ctrlQuiesce (h : Canon π s) (t : Nat) (on : Bool) : Canon π (ctrlQuiesce t on s) := foldl (fun _ _ h => h.setQuiesce _ _) _ h

theorem controlAct (h : Canon π s) (cmd t : Nat) : Canon π (controlAct cmd t s).2 := by
  unfold Machine.controlAct
  split
  · exact h.ctrlStop _
  · split
    · exact h.ctrlQuiesce _ _
    · split
      · exact h.ctrlQuiesce _ _
      · exact h

theorem execCtrlStopPartition (h : Canon π s) (tenant : BitVec 16) : Goes π (execCtrlStopPartition tenant s) := .next (h.ctrlStop _)
theorem execCtrlQuiesce (h : Canon π s) (tenant : BitVec 16) : Goes π (execCtrlQuiesce tenant s) := .next (h.ctrlQuiesce _ _)
theorem execCtrlResume (h : Canon π s) (tenant : BitVec 16) : Goes π (execCtrlResume tenant s) := .next (h.ctrlQuiesce _ _)

theorem execControlReceive (h : Canon π s) (p : Fin 24) : Goes π (execControlReceive p s) := by
  unfold Machine.execControlReceive
  refine .next ?_
  split
  · exact h
  · next hb =>
      have h1 := h.takeArrived hb
      refine h1.receiveChecks _ fun _ _ h => ?_
      dsimp only
      refine .ite (fun _ => h) fun _ => ?_
      split
      · next hb2 => exact ((h.controlAct _ _).inject _ _).sent hb2
      · next hb2 => exact ((h.controlAct _ _).inject _ _).unreachable hb2
      · exact h.controlAct _ _

theorem endControl (h : Canon π s) (c : ControlRun) (status : Nat) : Canon π (endControl c status s) := (h.withWfn _).endCommand _ _ _ _

theorem execControlAnswerReceive (h : Canon π s) (p : Fin 24) : Goes π (execControlAnswerReceive p s) := by
  unfold Machine.execControlAnswerReceive
  refine .next ?_
  split
  · exact h
  · next hb =>
      have h1 := h.takeArrived hb
      refine h1.receiveChecks _ fun _ _ h => ?_
      dsimp only
      split
      · exact h
      · exact .ite (fun _ => h.endControl _ _) fun _ => h.withWfn _

theorem sendControl (h : Canon π s) (cmd tenant : Nat) (dest : Coord) (c : ControlRun) : Canon π (sendControl cmd tenant dest c s).2 := by
  unfold Machine.sendControl
  dsimp only
  split
  · next hb => exact (h.inject _ _).sent hb
  · next hb => exact (h.inject _ _).unreachable hb
  · exact h

theorem waitControl (h : Canon π s) (c : ControlRun) : Canon π (waitControl c s) := h.withWfn _

theorem sendControls (cmd tenant : Nat) : ∀ (ds : List Coord) (r : ControlRun × State), Canon π r.2 →
    Canon π (ds.foldl (fun (r : ControlRun × State) d =>
        match Machine.sendControl cmd tenant d r.1 r.2 with
        | (some c, s) => (c, s)
        | (none, s) => (r.1, s)) r).2
  | [], _, h => h
  | d :: ds, r, h => by
    refine sendControls cmd tenant ds _ ?_
    have hs := h.sendControl cmd tenant d r.1
    dsimp only
    split
    · next hb => exact hs.snd hb
    · next hb => exact hs.snd hb

theorem execWefinControl (h : Canon π s) (q : Qn) (seq : Word64) : Goes π (execWefinControl q seq s) := by
  unfold Machine.execWefinControl
  refine .next ?_
  refine h.withAdmin _ _ _ fun _ => ?_
  dsimp only
  refine .ite (fun _ => h) fun _ => ?_
  refine .ite (fun _ => h.endCommand _ _ _ _) fun _ => ?_
  refine .ite (fun _ => h.endCommand _ _ _ _) fun _ => ?_
  refine .ite (fun _ => ?_) fun _ => ?_
  · have hs (cmd tenant : Nat) (ds : List Coord) (r : ControlRun) := (sendControls cmd tenant ds (r, s) h).controlAct cmd tenant
    exact .ite (fun _ => (hs _ _ _ _).endCommand _ _ _ _) fun _ => ((hs _ _ _ _).updFlight _ _ _).waitControl _
  · refine .ite (fun _ => (h.controlAct _ _).endCommand _ _ _ _) fun _ => ?_
    split
    · next hb => exact ((h.sendControl _ _ _ _).snd hb).endCommand _ _ _ _
    · next hb => exact (((h.sendControl _ _ _ _).snd hb).updFlight _ _ _).waitControl _

theorem execWefinControlTimeout (h : Canon π s) (q : Qn) (seq : Word64) : Goes π (execWefinControlTimeout q seq s) := by
  unfold Machine.execWefinControlTimeout
  refine .next ?_
  split
  · exact h
  · exact .ite (fun _ => h.endControl _ _) fun _ => h

/-! ### WEFIN_PORT (R389) -/

theorem withPort (h : Canon π s) (q seq action : Nat) (states : List Nat) {go : Nat → State → State}
    (hgo : ∀ a0 t, Canon π t → Canon π (go a0 t)) : Canon π (withPort q seq action states s go) :=
  h.withAdmin _ _ _ fun _ => .ite (fun _ => h) fun _ => .ite (fun _ => h.endCommand _ _ _ _) fun _ => hgo _ _ h
theorem execPortEnable (h : Canon π s) (q : Qn) (seq : Word64) : Goes π (execPortEnable q seq s) :=
  .next (h.withPort _ _ _ _ fun _ _ h => ((h.setRfld _ _ _ _).setPort _ _).endCommand _ _ _ _)

theorem execPortQuiesce (h : Canon π s) (q : Qn) (seq : Word64) : Goes π (execPortQuiesce q seq s) := by
  unfold Machine.execPortQuiesce
  refine .next ?_
  refine h.withPort _ _ _ _ fun _ _ h => ?_
  exact finishQuiesce (foldl (fun _ _ h => h.sendBundle _ _ _) _ (((h.updFlight _ _ _).leaveTo _ _).setPort _ _)) _

theorem execPortDisable (h : Canon π s) (q : Qn) (seq : Word64) : Goes π (execPortDisable q seq s) :=
  .next (h.withPort _ _ _ _ fun _ _ h => ((h.leaveTo _ _).endPortCmd _ _).endCommand _ _ _ _)
theorem execPortForceRetrain (h : Canon π s) (q : Qn) (seq : Word64) : Goes π (execPortForceRetrain q seq s) :=
  .next (h.withPort _ _ _ _ fun _ _ h => (h.enterRetrain _).endCommand _ _ _ _)

end Canon
end Sys2Proof.Machine
end

section
/-! Canonical form: checks, provenance, twins and self-tests. -/
namespace Sys2Proof.Machine
set_option Elab.async false
open Sys2Proof
namespace Canon
variable {π : List Instr} {s t : State}

/-! ### The Campion engine (R473 to R483) -/

theorem writeScanRecord (h : Canon π s) (rq : Req) (va : Nat) (rec_ : List Byte) : Acc π (writeScanRecord rq va rec_ s) :=
  .ite (fun _ => .ret h) fun _ => (h.vaWrite _ _ _).bind fun _ _ h => .ret ((h.withInteg _).setRegN _ _)
theorem checkMismatch (h : Canon π s) (q seq d code data detail : Nat) : Canon π (checkMismatch q seq d code data detail s) :=
  (((h.bump _ _).intEvent _ _ _ _ _ _).auditEvent _).endCommand _ _ _ _

theorem execChkScan (h : Canon π s) (q : Qn) (seq : Word64) : Goes π (execChkScan q seq s) := by
  unfold Machine.execChkScan
  refine .next ?_
  refine h.withFlight _ _ _ fun _ => ?_
  dsimp only
  refine .ite (fun _ => h) fun _ => ?_
  refine .ite (fun _ => h.endCommand _ _ _ _) fun _ => ?_
  refine h.finishAcc _ _ _ (h.vaRead _ _ _) fun _ _ h2 => ?_
  refine h.finishAcc _ _ _ (h2.writeScanRecord _ _ _) fun _ _ h => ?_
  exact .ite (fun _ => (h.bump _ _).checkMismatch _ _ _ _ _ _) fun _ => (h.bump _ _).endCommand _ _ _ _

theorem execChkCompare (h : Canon π s) (q : Qn) (seq : Word64) : Goes π (execChkCompare q seq s) := by
  unfold Machine.execChkCompare
  refine .next ?_
  refine h.withFlight _ _ _ fun _ => ?_
  dsimp only
  refine .ite (fun _ => h) fun _ => ?_
  refine .ite (fun _ => h.endCommand _ _ _ _) fun _ => ?_
  exact h.finishAcc _ _ _ ((h.vaRead _ _ _).bind fun _ _ h => (h.vaRead _ _ _).bind fun _ _ h => .ret h) fun _ _ h =>
    .ite (fun _ => h.endCommand _ _ _ _) fun _ => h.checkMismatch _ _ _ _ _ _

theorem provData (h : Canon π s) (rq : Req) (b : List Byte) : Acc π (provData rq b s) := by
  unfold Machine.provData
  dsimp only
  refine (h.vaRead _ _ _).bind fun _ _ h => ?_
  refine .ite (fun _ => .ret h) fun _ => ?_
  refine (h.vaRead _ _ _).bind fun _ _ h => ?_
  exact (Acc.mapM (fun _ _ h => (h.vaRead _ _ _).bind fun _ _ h => .ret h) _ h).bind fun _ _ h => .ret h

theorem provStep (h : Canon π s) (q seq : Nat) (rq : Req) (b data : List Byte) (unw : Bool) {t : State} (ht : Canon π t) :
    Canon π (provStep q seq rq s b data unw t) := by
  have hlog (logged : Bool) (r : AuditRec) :
      Canon π (if logged = true then Machine.auditAppend false r t else (true, t)).2 := by
    split
    · exact ht.auditAppend _ _
    · exact ht
  unfold Machine.provStep
  dsimp only
  refine .ite (fun _ => ?_) fun _ => ?_
  · exact (hlog _ _).endCommand _ _ _ _
  · exact h.finishAcc _ _ _ (((hlog _ _).withInteg _).vaWrite _ _ _) fun _ _ h => (h.bump _ _).endCommand _ _ _ _

theorem execProvenance (h : Canon π s) (q : Qn) (seq : Word64) : Goes π (execProvenance q seq s) := by
  unfold Machine.execProvenance
  refine .next ?_
  refine h.withFlight _ _ _ fun _ => ?_
  dsimp only
  refine .ite (fun _ => h) fun _ => ?_
  refine .ite (fun _ => h.endCommand _ _ _ _) fun _ => ?_
  refine h.finishAcc _ _ _ (h.provData _ _) fun _ _ h2 => ?_
  split
  · exact h2.endCommand _ _ _ _
  · exact h.provStep _ _ _ _ _ _ h2

/-! ### Mirrored pairs (R489 to R492) -/

theorem putTwin (h : Canon π s) (e : TwinEntry) : Canon π (putTwin e s) := h.setTwins _

theorem enterTwin (h : Canon π s) (q seq : Nat) (b digest : List Byte) : Canon π (enterTwin q seq b digest s) := by
  unfold Machine.enterTwin
  dsimp only
  split
  · exact h.endCommand _ _ _ _
  · exact h.endCommand _ _ _ _
  · next hb => exact ((h.inject _ _).unreachable hb).twinGone _ _
  · next hb => exact ((((h.inject _ _).sent hb).putTwin _).updFlight _ _ _).settleTwin _

theorem execTwinDigest (h : Canon π s) (q : Qn) (seq : Word64) : Goes π (execTwinDigest q seq s) := by
  unfold Machine.execTwinDigest
  refine .next ?_
  refine h.withFlight _ _ _ fun _ => ?_
  dsimp only
  refine .ite (fun _ => h) fun _ => ?_
  refine .ite (fun _ => h.endCommand _ _ _ _) fun _ => ?_
  refine .ite (fun _ => h.endCommand _ _ _ _) fun _ => ?_
  refine .ite (fun _ => h.twinGone _ _) fun _ => ?_
  refine .ite (fun _ => h.endCommand _ _ _ _) fun _ => ?_
  exact .ite (fun _ => h.endCommand _ _ _ _) fun _ => h.finishAcc _ _ _ (h.vaRead _ _ _) fun _ _ h => h.enterTwin _ _ _ _

theorem twinDropped (h : Canon π s) (tenant kind tag : Nat) : Canon π (twinDropped tenant kind tag s) := (h.bump _ _).raiseEvent _

theorem receiveDigest (h : Canon π s) (tenant tag interval : Nat) (digest : List Byte) :
    Canon π (receiveDigest tenant tag interval digest s) := by
  unfold Machine.receiveDigest
  refine .ite (fun _ => h.twinDropped _ _ _) fun _ => ?_
  split
  · split
    · exact .ite (fun _ => h.bump _ _) fun _ => h.putTwin _
    · exact h.settleTwin _
  · exact .ite (fun _ => h.twinDropped _ _ _) fun _ => h.putTwin _

theorem execDigestReceive (h : Canon π s) (p : Fin 24) : Goes π (execDigestReceive p s) :=
  .next (h.receivePacket _ _ fun _ _ _ h => .ite (fun _ => h) fun _ => h.receiveDigest _ _ _ _)

theorem execTwinTimeout (h : Canon π s) (q : Qn) (seq : Word64) : Goes π (execTwinTimeout q seq s) := by
  unfold Machine.execTwinTimeout
  refine .next ?_
  split
  · exact h.twinGone _ _
  · exact h

theorem execTwinHoldExpire (h : Canon π s) : Goes π (execTwinHoldExpire s) :=
  .next (foldl (fun _ _ h => h.twinDropped _ _ _) _ (h.setTwins _))

/-! ### Self-tests (R470 to R472) -/

theorem failCluster (h : Canon π s) (d : Nat) (fails : List TestFail) (c : Nat) : Canon π (failCluster d fails s c) := by
  unfold Machine.failCluster
  extract_lets _ _ s1 _ bad _ s2
  have h1 : Canon π s1 := .ite (fun _ => (h.setSpareByte _ _ _).classify _ _ _ _ _ _ _ _) fun _ => h
  have h2 : Canon π s2 := by
    clear_value s1 bad
    unfold s2
    split
    · exact .ite (fun _ => ((h1.setSpareByte _ _ _).addHealth _).setArray _ _ _ _) fun _ => h1
    · exact h1
  clear_value s1 s2
  exact .ite (fun _ => h2.degrade _ _) fun _ => h2

theorem selfTestFailures (h : Canon π s) (d : Nat) (fails : List TestFail) : Canon π (selfTestFailures d fails s) := by
  unfold Machine.selfTestFailures
  extract_lets s1
  have h1 : Canon π s1 := foldl (fun _ _ h => (h.addHealth _).intEvent _ _ _ _ _ _) _ h
  clear_value s1
  exact foldl (fun _ _ h => .ite (fun _ => h.failCluster _ _ _) fun _ => h) _ h1

theorem startSelfTest (h : Canon π s) (d : Nat) : Canon π (startSelfTest d s) :=
  .ite (fun _ => h.setRegN _ _) fun _ => (h.setRegN _ _).requestService _ _
theorem testStart (h : Canon π s) (d old new : Nat) : Canon π (testStart d old new s) :=
  .ite (fun _ => (h.setRegN _ _).startSelfTest _) fun _ => h.setRegN _ _
theorem execSelftestStart (h : Canon π s) (f : Func) (die : Die) (value : Word32) : Goes π (execSelftestStart f die value s) :=
  .next (h.guardedWrite _ _ _ _ fun _ _ _ h => h.testStart _ _ _)

theorem execSelftestDone (h : Canon π s) (die : Die) (fails : List TestFail) : Goes π (execSelftestDone die fails s) := by
  unfold Machine.execSelftestDone
  refine .next ?_
  refine .ite (fun _ => h) fun _ => ?_
  extract_lets _ _ _ s1 s2
  have h1 : Canon π s1 := h.setRegN _ _
  have h2 : Canon π s2 := .ite (fun _ => h1.intEvent _ _ _ _ _ _) fun _ => h1.selfTestFailures _ _
  clear_value s1 s2
  exact .ite (fun _ => h2) fun _ => h2.switchService _ _ _

theorem execInjectArm (h : Canon π s) (f : Func) (die : Die) (value : Word32) : Goes π (execInjectArm f die value s) :=
  .next (h.guardedWrite _ _ _ _ fun _ _ _ h => h)

end Canon
end Sys2Proof.Machine
end

section
/-! Canonical form: power registers. -/
namespace Sys2Proof.Machine
set_option Elab.async false
open Sys2Proof
namespace Canon
variable {π : List Instr} {s t : State}

/-! ### Events (R528, R529) -/

theorem pwrEvent (h : Canon π s) (code src data : Nat) : Canon π (pwrEvent code src data s) := ((h.setRegN _ _).setRegN _ _).raiseEvent _

/-! ### The voltage table (R502) -/

theorem refreshTable (h : Canon π s) (d : Nat) : Canon π (refreshTable d s) := (h.setRegN _ _).setRegN _ _

/-! ### Limits (R500, R504, R507) -/

theorem refreshLimits (h : Canon π s) : Canon π (refreshLimits s) := (h.setRegN _ _).setRegN _ _

/-! ### Actuators (R501, R511) -/

theorem refreshPwd (h : Canon π s) (d : Nat) : Canon π (refreshPwd d s) := by
  unfold Machine.refreshPwd
  extract_lets _ _ _ s1 _ s2 s3
  have h1 : Canon π s1 := h.updPw _ _
  have h2 : Canon π s2 := h1.setRegN _ _
  have h3 : Canon π s3 := .ite (fun _ => h2) fun _ => h2.bump _ _
  clear_value s1 s2 s3
  exact .ite (fun _ => h2) fun _ => h3.pwrEvent _ _ _

/-! ### Accounts (R515 to R517) -/

theorem creditNj (h : Canon π s) (key n : Nat) : Canon π (creditNj key n s) :=
  .ite (fun _ => h.withPower _) fun _ => .ite (fun _ => h.withPower _) fun _ => (h.withPower _).bump _ _
theorem chargeShare (h : Canon π s) (key num den : Nat) : Canon π (chargeShare key num den s) :=
  .ite (fun _ => h) fun _ => (h.withPower _).creditNj _ _
theorem splitPj (h : Canon π s) (pj : Nat) (weights : List (Nat × Nat)) : Canon π (splitPj pj weights s) :=
  .ite (fun _ => h.chargeShare _ _ _) fun _ => foldl (fun _ _ h => h.chargeShare _ _ _) _ h
theorem dieEnergy (h : Canon π s) (d kind pj : Nat) : Canon π (dieEnergy d kind pj s) := (h.withPower _).bump _ _

end Canon
end Sys2Proof.Machine
end

section
/-! Canonical form: power measurement and protection. -/
namespace Sys2Proof.Machine
set_option Elab.async false
open Sys2Proof
namespace Canon
variable {π : List Instr} {s t : State}

/-! ### Measurement and attribution (R496, R508, R515, R516) -/

theorem shareOut (h : Canon π s) (d : Nat) (r : Rails) (work : List Activity) : Canon π (shareOut d r work s) := by
  unfold Machine.shareOut
  extract_lets _ _ _ _ _ _ s1 s2 s3 s4 s5 s6
  have h1 : Canon π s1 := h.splitPj _ _
  have h2 : Canon π s2 := h1.splitPj _ _
  have h3 : Canon π s3 := h2.splitPj _ _
  have h4 : Canon π s4 := h3.splitPj _ _
  have h5 : Canon π s5 := h4.splitPj _ _
  have h6 : Canon π s6 := (((h5.dieEnergy _ _ _).dieEnergy _ _ _).dieEnergy _ _ _).dieEnergy _ _ _
  exact h6.updPw _ _

theorem refreshNow (h : Canon π s) : Canon π (refreshNow s) := h.setRegN _ _

theorem execPowerSample (h : Canon π s) (r0 r1 r2 r3 : Rails) (hub : BitVec 32) (work : List Activity) :
    Goes π (execPowerSample r0 r1 r2 r3 hub work s) := by
  unfold Machine.execPowerSample
  refine .next ?_
  extract_lets _ _ _ _ _ _ s1 s2 s3 s4
  have h1 : Canon π s1 := h.withPower _
  have h2 : Canon π s2 := h1.refreshNow.bump _ _
  have h3 : Canon π s3 := .ite (fun _ => h2.pwrEvent _ _ _) fun _ => h2
  have h4 : Canon π s4 := foldl (fun _ _ h => h.shareOut _ _ _) _ h3
  exact h4.chargeShare _ _ _

/-! ### Pace windows and the governor loop (R499, R500, R509, R510, R520) -/

theorem setCool (h : Canon π s) (st : Nat) : Canon π (setCool st s) := (h.setRfld _ _ _ _).withPower _
theorem settleCool (h : Canon π s) : Canon π (settleCool s) :=
  .ite (fun _ => (h.setCool _).withPower _) fun _ => .ite (fun _ => ((h.setCool _).flushRings).pwrEvent _ _ _) fun _ => h
theorem execPaceWindow (h : Canon π s) (die : Die) : Goes π (execPaceWindow die s) :=
  .next (.ite (fun _ => h) fun _ => ((((h.updPw _ _).setRfld _ _ _ _).pmcCount _ _ _ _).refreshPwd _).settleCool)
theorem governDie (h : Canon π s) (d : Nat) : Canon π (governDie d s) := (((h.updPw _ _).updPw _ _).updPw _ _).refreshPwd _
theorem execGovernorLoop (h : Canon π s) (die : Die) : Goes π (execGovernorLoop die s) :=
  .next (.ite (fun _ => h) fun _ => (h.governDie _).settleCool)

/-! ### The ramp governor (R504 to R506) -/

theorem execArrayAdmit (h : Canon π s) (die : Die) : Goes π (execArrayAdmit die s) := by
  unfold Machine.execArrayAdmit
  refine .next ?_
  split
  · exact h
  · exact .ite (fun _ => h) fun _ => (((h.updPw _ _).bump _ _).pmcCount _ _ _ _).refreshPwd _

theorem execArrayRelease (h : Canon π s) (die : Die) : Goes π (execArrayRelease die s) := by
  unfold Machine.execArrayRelease
  refine .next ?_
  dsimp only
  split
  · exact h
  · exact .ite (fun _ => h) fun _ => (h.updPw _ _).refreshPwd _

theorem execBallastUpdate (h : Canon π s) (die : Die) : Goes π (execBallastUpdate die s) := .next (.ite (fun _ => h) fun _ => h.updPw _ _)

/-! ### Sensors (R519, R520) -/

theorem refreshTemp (h : Canon π s) (d : Nat) : Canon π (refreshTemp d s) := .ite (fun _ => h) fun _ => h.setRegN _ _

theorem execSensorConvert (h : Canon π s) (die : Fin 5) (readings : List (BitVec 12)) : Goes π (execSensorConvert die readings s) := by
  unfold Machine.execSensorConvert
  refine .ite (fun _ => trivial) fun _ => ?_
  refine .next ?_
  extract_lets _ _ _ s1 s2 _ s3 s4
  have h1 : Canon π s1 := .ite (fun _ => h.withPower _) fun _ => h.updPw _ _
  have h2 : Canon π s2 := h1.refreshTemp _
  have h3 : Canon π s3 := foldl (fun _ _ h => .ite (fun _ => h) fun _ => h.pwrEvent _ _ _) _ h2
  have h4 : Canon π s4 := .ite (fun _ => h3.raiseAlarm _ _ _ _) fun _ => h3
  clear_value s1 s2 s3 s4
  split
  · exact .ite (fun _ => h4.pwrEvent _ _ _) fun _ => h4
  · exact h4

/-! ### Last lines of defence (R521 to R525) -/

theorem afterTrip (h : Canon π s) (x : PowerSt) (y : Pins) :
    Canon π ((List.range 24).foldl (fun s p => Machine.leaveTo p 0 s)
      ((List.range 4).foldl (fun s d => Machine.refreshPwd d (s.updPw d fun x => { x with p := 0 })) { s with power := x, pins := y })) :=
  foldl (fun _ _ h => h.leaveTo _ _) _ (foldl (fun _ _ h => (h.updPw _ _).refreshPwd _) _ h.same)

theorem afterUnlink (h : Canon π s) : Canon π (Machine.resetAllFunctions { s with host := { s.host with linkUp := false } }) :=
  (h.withHost _).resetAllFunctions

theorem execThermalTrip (h : Canon π s) (die : Fin 5) (sensor : Fin 64) (temp : BitVec 12) :
    Goes π (execThermalTrip die sensor temp s) :=
  .next (.ite (fun _ => h) fun _ => (((h.setRegN _ _).setRegN _ _).afterTrip _ _).afterUnlink)

theorem execCoolantStop (h : Canon π s) : Goes π (execCoolantStop s) := by
  unfold Machine.execCoolantStop
  refine .next ?_
  refine .ite (fun _ => h) fun _ => ?_
  exact settleCool (foldl (fun _ _ h => (h.updPw _ _).refreshPwd _) _ (((h.pwrEvent _ _ _).setCool _).withPower _))

theorem execCoolantResume (h : Canon π s) : Goes π (execCoolantResume s) := .next (.ite (fun _ => (h.setCool _).settleCool) fun _ => h)
theorem execCoolantHoldAbort (h : Canon π s) : Goes π (execCoolantHoldAbort s) :=
  .next (.ite (fun _ => h) fun _ => pwrEvent (foldl (fun _ _ h => h.abortFlights _ _) _ (h.withPower _)) _ _ _)

/-! ### Reading the accounts (R518, R529) -/

theorem execEnergyRead (h : Canon π s) (q : Qn) (seq : Word64) : Goes π (execEnergyRead q seq s) := by
  unfold Machine.execEnergyRead
  refine .next ?_
  refine h.withFlight _ _ _ fun _ => ?_
  exact .ite (fun _ => h.endCommand _ _ _ _) fun _ => h.finishAcc _ _ _ (h.vaWrite _ _ _) fun _ _ h => h.endCommand _ _ _ _

theorem snapEnergy (h : Canon π s) (new : Nat) : Canon π (snapEnergy new s) := ((h.setRegN _ _).setRegN _ _).setRegN _ _
theorem execPwrEsel (h : Canon π s) (f : Func) (value : Word32) : Goes π (execPwrEsel f value s) :=
  .next (h.guardedWrite _ _ _ _ fun _ _ _ h => h.snapEnergy _)

end Canon
end Sys2Proof.Machine
end

section
/-! Canonical form: the sparse and table operations (R155 to R182). -/
namespace Sys2Proof.Machine
set_option Elab.async false
open Sys2Proof
namespace Canon
variable {π : List Instr} {s t : State}

/-! ### Running in one cluster -/

theorem get (h : Canon π s) (x : TslCtx) (a n : Nat) : Canon π (TslCtx.get x a n s).2 := h.sramRead _ _ _ _ _ _

theorem read (h : Canon π s) (x : TslCtx) (a n : Nat) {g : List Byte → State → TslRes}
    (hg : ∀ a0 t, Canon π t → Canon π (g a0 t).s) : Canon π (TslCtx.read x a n s g).s := by
  unfold Machine.TslCtx.read
  split
  · next hb => exact hg _ _ ((h.get _ _ _).snd hb)
  · next hb => exact (h.get _ _ _).snd hb

theorem writes : ∀ (x : TslCtx) {bad : Nat → State → TslRes} (_ : ∀ a0 t, Canon π t → Canon π (bad a0 t).s) (x2 : List (Nat × List Byte))
    (x3 : Nat) {x5 : State → TslRes} (_ : ∀ t, Canon π t → Canon π (x5 t).s) {s : State}, Canon π s →
    Canon π (TslCtx.writes x bad x2 x3 s x5).s
  | _, _, hbad, [], _, _, hx5, _, h => hx5 _ h
  | _, _, hbad, (_, _) :: ws, _, _, hx5, _, h => by
    unfold Machine.TslCtx.writes
    split
    · next hb => exact writes _ hbad ws _ hx5 ((h.sramWrite _ _ _ _ _ _).snd hb)
    · next hb => exact hbad _ _ ((h.sramWrite _ _ _ _ _ _).snd hb)

theorem write (h : Canon π s) (x : TslCtx) (a r : Nat) (bs : List Byte) {g : State → TslRes}
    (hg : ∀ t, Canon π t → Canon π (g t).s) : Canon π (TslCtx.write x a r bs s g).s := by
  unfold Machine.TslCtx.write
  split
  · next hb => exact hg _ ((h.sramWrite _ _ _ _ _ _).snd hb)
  · next hb => exact (h.sramWrite _ _ _ _ _ _).snd hb

theorem rowsDone (h : Canon π s) (i : Nat) : Canon π (rowsDone i s).s := h
theorem met {r : TslRes} (h : Canon π r.s) (oor null : Nat) : Canon π (TslRes.met oor null r).s := h

theorem reads : ∀ (x : TslCtx) (n : Nat) (x2 : List Nat) {x4 : List (List Byte) → State → TslRes}
    (_ : ∀ a0 t, Canon π t → Canon π (x4 a0 t).s) {s : State}, Canon π s → Canon π (TslCtx.reads x n x2 s x4).s
  | _, _, [], _, hx4, _, h => hx4 _ _ h
  | _, _, _ :: as, _, hx4, _, h => h.read _ _ _ fun _ _ h => reads _ _ as (fun _ _ h => hx4 _ _ h) h

theorem scratch (h : Canon π s) (x : TslCtx) (n : Nat) : Canon π (TslCtx.scratch x n s) :=
  .ite (fun _ => h) fun _ => h.draw.sramPut _ _ _ _
theorem sortRun (h : Canon π s) (x : TslCtx) (n : Nat) : Canon π (sortRun x n s).s :=
  h.read _ _ _ fun _ _ h => (h.scratch _ _).write _ _ _ _ fun _ h => h

theorem bucketRun (h : Canon π s) (x : TslCtx) (n : Nat) : Canon π (bucketRun x n s).s := by
  unfold Machine.bucketRun
  dsimp only
  refine h.read _ _ _ fun _ _ h => ?_
  split
  · exact h.write _ _ _ _ fun _ h => writes _ (fun _ _ h => h) _ _ (fun _ h => h) h
  · exact writes _ (fun _ _ h => h) _ _ (fun _ h => h) h

theorem index (h : Canon π s) (x : TslCtx) (v : Nat) : Canon π (TslCtx.index x v s).2 := by
  unfold Machine.TslCtx.index
  split
  · exact h
  · split
    · exact h
    · split
      · exact h
      · split
        · next hb => exact (h.get _ _ _).snd hb
        · next hb => exact (h.get _ _ _).snd hb

theorem indices : ∀ (x : TslCtx) (x1 : List Nat) (x2 : List Index) {x4 : List Index → State → TslRes}
    (_ : ∀ a0 t, Canon π t → Canon π (x4 a0 t).s) {s : State}, Canon π s → Canon π (TslCtx.indices x x1 x2 s x4).s
  | _, [], _, _, hx4, _, h => met (hx4 _ _ h) _ _
  | _, _ :: vs, _, _, hx4, _, h => by
    unfold Machine.TslCtx.indices
    split
    · next hb => exact (h.index _ _).snd hb
    · next hb =>
        have h1 := (h.index _ _).snd hb
        split
        · exact h1
        · exact indices _ vs _ hx4 h1

theorem indexList (h : Canon π s) (x : TslCtx) (n : Nat) {g : List Index → State → TslRes}
    (hg : ∀ a0 t, Canon π t → Canon π (g a0 t).s) : Canon π (TslCtx.indexList x n s g).s := by
  unfold Machine.TslCtx.indexList
  split
  · exact indices _ _ _ hg h
  · exact h.read _ _ _ fun _ _ h => indices _ _ _ hg h

theorem gatherRun (h : Canon π s) (x : TslCtx) (n : Nat) : Canon π (gatherRun x n s).s :=
  h.indexList _ _ fun _ _ h => reads _ _ _ (fun _ _ h => writes _ (fun _ _ h => h.rowsDone _) _ _ (fun _ h => h) h) h
theorem scatterRun (h : Canon π s) (x : TslCtx) (n : Nat) : Canon π (scatterRun x n s).s :=
  h.indexList _ _ fun _ _ h => reads _ _ _ (fun _ _ h => writes _ (fun _ _ h => h.rowsDone _) _ _ (fun _ h => h) h) h

/-! ### Reductions (R165, R166) -/

theorem reduceRows : ∀ (x : TslCtx) (x1 : List (Nat × Option Nat × List Nat)) {x3 : List (Nat × List Byte) → State → TslRes}
    (_ : ∀ a0 t, Canon π t → Canon π (x3 a0 t).s) {s : State}, Canon π s → Canon π (TslCtx.reduceRows x x1 s x3).s
  | _, [], _, hx3, _, h => hx3 _ _ h
  | _, (_, (_, _)) :: ws, _, hx3, _, h => reads _ _ _ (fun _ _ h => reduceRows _ ws (fun _ _ h => hx3 _ _ h) h) h

theorem scatterAddRun (h : Canon π s) (x : TslCtx) (n : Nat) : Canon π (scatterAddRun x n s).s := by
  unfold Machine.scatterAddRun
  dsimp only
  refine h.indexList _ _ fun _ _ h => ?_
  exact reduceRows _ _ (fun _ _ h => writes _ (fun _ _ h => h.rowsDone _) _ _ (fun _ h => h) (h.scratch _ _)) h

theorem segreduceRun (h : Canon π s) (x : TslCtx) (n : Nat) : Canon π (segreduceRun x n s).s := by
  unfold Machine.segreduceRun
  dsimp only
  refine h.read _ _ _ fun _ _ h => ?_
  split
  · exact h
  · exact h.indexList _ _ fun _ _ h => reduceRows _ _ (fun _ _ h => writes _ (fun _ _ h => h.rowsDone _) _ _ (fun _ h => h) h) h

/-! ### Key sets (R167) -/

theorem setRun (h : Canon π s) (keepA : Bool → Bool) (addB : Bool) (x : TslCtx) (n : Nat) : Canon π (setRun keepA addB x n s).s := by
  unfold Machine.setRun
  dsimp only
  refine h.read _ _ _ fun _ _ h => ?_
  refine h.read _ _ _ fun _ _ h => ?_
  split
  · exact h
  · exact h.write _ _ _ _ fun _ h => h

/-! ### The command (R160, R161, R168, R182) -/

theorem tslFail (h : Canon π s) (d c op kind q : Nat) (part : Option Nat) : Canon π (tslFail d c op kind q part s) :=
  ((h.setRegN _ _).logRegister _ _ _ _ _).raiseEvent _
theorem tslResult {r : TslRes} (h : Canon π r.s) (x : TslCtx) (epoch : Nat) (fits : Bool) : Canon π (tslResult x epoch fits r) :=
  .ite (fun _ => h) fun _ => h.draw.sramPut _ _ _ _
theorem setSlot (h : Canon π s) (d c k : Nat) (x : TslSlot) : Canon π (s.setSlot d c k x) := h.updClus _ _ _

theorem leaves (_ : Canon π s) (x : TslCtx) {r : TslRes} (hr : Canon π r.s) : Canon π (TslCtx.leaves x s r).s := by
  unfold Machine.TslCtx.leaves
  split
  · exact hr
  · dsimp only
    exact hr.draw.updClus _ _ _

theorem tslCount (h : Canon π s) (x : TslCtx) : Canon π (tslCount x s).2 := by
  unfold Machine.tslCount
  split
  · split
    · next hb => exact (h.get _ _ _).snd hb
    · next hb => exact (h.get _ _ _).snd hb
  · exact h

theorem settleTsl {r : TslRes} (h : Canon π r.s) (x : TslCtx) (q epoch : Nat) (fits : Bool) : Canon π (settleTsl x q epoch fits r) := by
  unfold Machine.settleTsl
  extract_lets _ _ s1 s2 s3
  have h1 : Canon π s1 := tslResult h _ _ _
  have h2 : Canon π s2 := .ite (fun _ => h1) fun _ => h1.bump _ _
  have h3 : Canon π s3 := .ite (fun _ => h2.bump _ _) fun _ => .ite (fun _ => h2) fun _ => h2.tslFail _ _ _ _ _ _
  clear_value s1 s2 s3
  exact .ite (fun _ => h3.raiseEvent _) fun _ => h3

theorem leavesBound (h : Canon π s) (q seq d c : Nat) : Canon π (leavesBound q seq d c s).2 := by
  unfold Machine.leavesBound
  split
  · exact h.refuseCarve _ _ _ _
  · exact h

theorem tslCluster (h : Canon π s) (q seq : Nat) (f : Flight) (d c : Nat) {run : TslCtx → Nat → State → TslRes}
    (hrun : ∀ a0 a1 t, Canon π t → Canon π (run a0 a1 t).s) : Canon π (tslCluster q seq f d c run s).2 := by
  unfold Machine.tslCluster
  dsimp only
  split
  · next hb =>
      dsimp only
      refine settleTsl ?_ _ _ _ _
      exact (h.tslCount _).snd hb
  · next hb =>
      have h1 := (h.tslCount _).snd hb
      split
      · dsimp only
        refine settleTsl ?_ _ _ _ _
        exact h1
      · split
        · dsimp only
          refine settleTsl ?_ _ _ _ _
          exact h1.leavesBound _ _ _ _
        · exact settleTsl (h1.leaves _ (hrun _ _ _ (h1.pmcCount _ _ _ _))) _ _ _ _

theorem tslClusters : ∀ (q : Nat) (seq : Nat) (f : Flight) (d : Nat) (first : Nat) (all : List Nat) {run : TslCtx → Nat → State → TslRes}
    (_ : ∀ a0 a1 t, Canon π t → Canon π (run a0 a1 t).s) (x7 : List Nat) {s : State}, Canon π s →
    Canon π (tslClusters q seq f d first all run x7 s).2
  | _, _, _, _, _, _, _, _, [], _, h => h
  | _, _, _, _, _, _, _, hrun, _ :: as, _, h => tslClusters _ _ _ _ _ _ hrun as (h.tslCluster _ _ _ _ _ hrun)

theorem teaselOp (h : Canon π s) (q seq op : Nat) (ready : List Nat → State → Bool) {run : TslCtx → Nat → State → TslRes}
    (hrun : ∀ a0 a1 t, Canon π t → Canon π (run a0 a1 t).s) : Canon π (teaselOp q seq op s ready run) := by
  unfold Machine.teaselOp
  refine h.withFlight _ _ _ fun _ => ?_
  dsimp only
  refine .ite (fun _ => h) fun _ => ?_
  refine .ite (fun _ => ?_) fun _ => ?_
  · exact ((h.leavesBound _ _ _ _).tslFail _ _ _ _ _ _).endCommand _ _ _ _
  · refine .ite (fun _ => h.endCommand _ _ _ _) fun _ => ?_
    split
    · next hb => exact .ite (fun _ => h) fun _ => (tslClusters _ _ _ _ _ _ hrun _ h).endCommand _ _ _ _
    · next hb =>
        have h1 := (h.checkClusters _ _ _ _).snd hb
        exact endCommand (.ite (fun _ => h1.tslFail _ _ _ _ _ _) fun _ => h1) _ _ _ _

theorem execSort (h : Canon π s) (q : Qn) (seq : Word64) : Goes π (execSort q seq s) :=
  .next (h.teaselOp _ _ _ _ fun _ _ _ h => h.sortRun _ _)
theorem execBucket (h : Canon π s) (q : Qn) (seq : Word64) : Goes π (execBucket q seq s) :=
  .next (h.teaselOp _ _ _ _ fun _ _ _ h => h.bucketRun _ _)
theorem execGather (h : Canon π s) (q : Qn) (seq : Word64) : Goes π (execGather q seq s) :=
  .next (h.teaselOp _ _ _ _ fun _ _ _ h => h.gatherRun _ _)
theorem execScatter (h : Canon π s) (q : Qn) (seq : Word64) : Goes π (execScatter q seq s) :=
  .next (h.teaselOp _ _ _ _ fun _ _ _ h => h.scatterRun _ _)
theorem execScatterAdd (h : Canon π s) (q : Qn) (seq : Word64) : Goes π (execScatterAdd q seq s) :=
  .next (h.teaselOp _ _ _ _ fun _ _ _ h => h.scatterAddRun _ _)
theorem execSegreduce (h : Canon π s) (q : Qn) (seq : Word64) : Goes π (execSegreduce q seq s) :=
  .next (h.teaselOp _ _ _ _ fun _ _ _ h => h.segreduceRun _ _)
theorem execUnion (h : Canon π s) (q : Qn) (seq : Word64) : Goes π (execUnion q seq s) :=
  .next (h.teaselOp _ _ _ _ fun _ _ _ h => h.setRun _ _ _ _)
theorem execIntersect (h : Canon π s) (q : Qn) (seq : Word64) : Goes π (execIntersect q seq s) :=
  .next (h.teaselOp _ _ _ _ fun _ _ _ h => h.setRun _ _ _ _)
theorem execDiff (h : Canon π s) (q : Qn) (seq : Word64) : Goes π (execDiff q seq s) :=
  .next (h.teaselOp _ _ _ _ fun _ _ _ h => h.setRun _ _ _ _)

/-! ### Map slots (R178 to R181) -/

theorem tbldefRun (h : Canon π s) (x : TslCtx) (x1 : Nat) : Canon π (tbldefRun x x1 s).s := (h.setSlot _ _ _ _).setBank _ _

theorem execTbldef (h : Canon π s) (q : Qn) (seq : Word64) : Goes π (execTbldef q seq s) := by
  unfold Machine.execTbldef
  refine .next ?_
  split
  · exact h.teaselOp _ _ _ _ fun _ _ _ h => h.tbldefRun _ _
  · exact h

theorem tblwriteRun (h : Canon π s) (x : TslCtx) (n : Nat) : Canon π (tblwriteRun x n s).s := by
  unfold Machine.tblwriteRun
  dsimp only
  split
  · exact h
  · refine h.read _ _ _ fun _ _ h => ?_
    exact writes _ (fun _ _ h => h) _ _ (fun _ h => .ite (fun _ => (h.setBank _ _).setSlot _ _ _ _) fun _ => h.setBank _ _) h

theorem tblwrite (h : Canon π s) (q seq : Nat) : Canon π (tblwrite q seq s) := by
  unfold Machine.tblwrite
  split
  · exact h.teaselOp _ _ _ _ fun _ _ _ h => h.tblwriteRun _ _
  · exact h

theorem execTblwrite (h : Canon π s) (q : Qn) (seq : Word64) : Goes π (execTblwrite q seq s) := .next (h.tblwrite _ _)
theorem refuseFlip (h : Canon π s) (d c kind q : Nat) : Canon π (refuseFlip d c kind q s) :=
  tslFail (.ite (fun _ => h) fun _ => h.bump _ _) _ _ _ _ _ _
theorem flipSlot (h : Canon π s) (q order d c k : Nat) (copy : Bool) : Canon π (flipSlot q order d c k copy s) :=
  .ite (fun _ => (h.setBank _ _).setSlot _ _ _ _) fun _ => h.setBank _ _

theorem execTeaselFlip (h : Canon π s) (q : Qn) (seq : Word64) : Goes π (execTeaselFlip q seq s) := by
  unfold Machine.execTeaselFlip
  refine .next ?_
  refine h.withFlight _ _ _ fun _ => ?_
  dsimp only
  refine .ite (fun _ => h) fun _ => ?_
  refine .ite (fun _ => h.endCommand _ _ _ _) fun _ => ?_
  split
  · next hb =>
      have h1 := (h.checkClusters _ _ _ _).snd hb
      split
      · exact (h.refuseFlip _ _ _ _).endCommand _ _ _ _
      · split
        · exact (h.refuseFlip _ _ _ _).endCommand _ _ _ _
        · split
          · exact (h.refuseFlip _ _ _ _).endCommand _ _ _ _
          · exact .ite (fun _ => h) fun _ => (bump (foldl (fun _ _ h => h.flipSlot _ _ _ _ _ _) _ h) _ _).endCommand _ _ _ _
  · next hb =>
      have h1 := (h.checkClusters _ _ _ _).snd hb
      exact endCommand (.ite (fun _ => h1.tslFail _ _ _ _ _ _) fun _ => h1) _ _ _ _

theorem shadowBad (h : Canon π s) (d c k : Nat) (by_ : CopyBack) : Canon π (shadowBad d c k by_ s) := (h.setSlot _ _ _ _).raiseEvent _

theorem slotCopyback (h : Canon π s) (d c k : Nat) : Canon π (slotCopyback d c k s) := by
  unfold Machine.slotCopyback
  dsimp only
  refine .ite (fun _ => h) fun _ => ?_
  split
  · next hb => exact ((h.sramRead _ _ _ _ _ _).snd hb).shadowBad _ _ _ _
  · next hb =>
      have h1 := (h.sramRead _ _ _ _ _ _).snd hb
      split
      · next hb2 => exact ((h1.sramWrite _ _ _ _ _ _).snd hb2).shadowBad _ _ _ _
      · next hb2 => exact ((h1.sramWrite _ _ _ _ _ _).snd hb2).setBank _ _

end Canon
end Sys2Proof.Machine
end

section
/-! Canonical form: register reads. -/
namespace Sys2Proof.Machine
set_option Elab.async false
open Sys2Proof
namespace Canon
variable {π : List Instr} {s t : State}

/-! ### The access (R590, R593, R599) -/

theorem setShadow (h : Canon π s) (f : Nat) (x : Nat × Nat) : Canon π (setShadow f x s) := h.withMgt _

theorem readValue (h : Canon π s) (f off size : Nat) : Canon π (readValue f off size s).2 := by
  unfold Machine.readValue
  dsimp only
  split
  · split
    · exact h.setShadow _ _
    · exact h.setShadow _ _
  · exact h.setShadow _ _

/-! ### Counters (R536, R538) -/

theorem recordCounter (h : Canon π s) (f off : Nat) : Canon π (recordCounter f off s) := (h.setRegF _ _ _).setRegF _ _ _
theorem readReg (h : Canon π s) (f off size : Nat) : Canon π (readReg f off size s).2 :=
  .ite (fun _ => (h.readValue _ _ _).recordCounter _ _) fun _ => h.readValue _ _ _
theorem answerRead (h : Canon π s) (f off v : Nat) : Canon π (answerRead f off v s) := h.withMgt _
theorem setLastBusy (h : Canon π s) (f : Nat) (busy : Bool) : Canon π (setLastBusy f busy s) := h.setRegF _ _ _
theorem answerBusy (h : Canon π s) (f off size : Nat) : Canon π (answerBusy f off size s) :=
  ((h.setLastBusy _ _).bump _ _).answerRead _ _ _

theorem answerEmu (h : Canon π s) (r : EmuRead) : Canon π (answerEmu r s) := by
  unfold Machine.answerEmu
  extract_lets s1
  have h1 : Canon π s1 := h.setLastBusy _ _
  clear_value s1
  split
  · exact h1.answerRead _ _ _
  · exact (h1.readReg _ _ _).answerRead _ _ _

theorem answerHeld (h : Canon π s) : Canon π (answerHeld s) :=
  .ite (fun _ => h) fun _ => foldl (fun _ _ h => h.answerEmu _) _ (h.withMgt _)

end Canon
end Sys2Proof.Machine
end

section
/-! Canonical form: Betony: logs, traces, the window. -/
namespace Sys2Proof.Machine
set_option Elab.async false
open Sys2Proof
namespace Canon
variable {π : List Instr} {s t : State}

/-! ### Emulated registers (R533, R590 to R592) -/

theorem readAccess (h : Canon π s) (f off size : Nat) : Canon π (readAccess f off size s) := by
  have hc : Canon π (if isCounter off = true then
      ((some (Machine.readReg f off size s).1, (Machine.readReg f off size s).2) : Option Nat × State) else (none, s)).2 := by
    split
    · exact h.readReg _ _ _
    · exact h
  unfold Machine.readAccess
  dsimp only
  refine .ite (fun _ => (h.readReg _ _ _).answerRead _ _ _) fun _ => .ite (fun _ => h.answerBusy _ _ _) fun _ => ?_
  exact (hc.withMgt _).answerHeld

theorem execEmuRead (h : Canon π s) (f : Func) (what : HostRead) (size : Fin 9) : Goes π (execEmuRead f what size s) := by
  unfold Machine.execEmuRead
  refine .next ?_
  refine .ite (fun _ => h) fun _ => ?_
  split
  · exact h.readAccess _ _ _
  · exact h.answerRead _ _ _
  · exact h.answerRead _ _ _

theorem countOverrun (h : Canon π s) : Canon π (countOverrun s) := (h.bump _ _).windowEvent _
theorem execEmuReadTimeout (h : Canon π s) : Goes π (execEmuReadTimeout s) :=
  .next (foldl (fun _ _ h => (h.answerBusy _ _ _).countOverrun) _ (h.withMgt _))

/-! ### Counters (R536 to R538) -/

theorem execCounterRead (h : Canon π s) (f : Func) (off : BitVec 21) (size : Fin 9) : Goes π (execCounterRead f off size s) :=
  .next (.ite (fun _ => h.readAccess _ _ _) fun _ => h)
theorem creadClear (h : Canon π s) (old new : Nat) : Canon π (creadClear old new s) := h.withMgt _
theorem execCreadClear (h : Canon π s) (f : Func) (value : Word64) : Goes π (execCreadClear f value s) :=
  .next (h.guardedWrite _ _ _ _ fun _ _ _ h => h.creadClear _ _)
theorem pmcPending (h : Canon π s) (d k : Nat) : Canon π (pmcPending d k s) := (h.setRfld _ _ _ _).withMgt _
theorem execPmcSelect (h : Canon π s) (f : Func) (die : Die) (k : Fin 8) (value : Word32) : Goes π (execPmcSelect f die k value s) :=
  .next (h.guardedWrite _ _ _ _ fun _ _ _ h => h.pmcPending _ _)
theorem pmcTake (h : Canon π s) (d k boundary : Nat) : Canon π (pmcTake d k boundary s) :=
  .ite (fun _ => h) fun _ => ((((h.setReg _ _).setRegN _ _).setRegN _ _).zeroCtr _).withMgt _
theorem execPmcBoundary (h : Canon π s) (die : Die) : Goes π (execPmcBoundary die s) := .next (foldl (fun _ _ h => h.pmcTake _ _ _) _ h)

/-! ### Logs and traces (R540, R543, R544) -/

theorem sendPending (h : Canon π s) : Canon π (sendPending s) := by
  unfold Machine.sendPending
  split
  · exact .ite (fun _ => (h.setAlarm _ _).alarmNotice _ _ _) fun _ => h
  · exact h

theorem execLogRecordWrite (h : Canon π s) : Goes π (execLogRecordWrite s) := by
  unfold Machine.execLogRecordWrite
  refine .next ?_
  refine .ite (fun _ => h) fun _ => ?_
  split
  · exact ((h.withMgt _).paWrite _ _).sendPending
  · exact ((h.setRegN _ _).withMgt _).paWrite _ _
  · exact h

theorem execTraceOccurrence (h : Canon π s) (tp : Fin 4096) (src : BitVec 7) (arg0 arg1 : Word64) :
    Goes π (execTraceOccurrence tp src arg0 arg1 s) := by
  unfold Machine.execTraceOccurrence
  refine .next ?_
  extract_lets _ _ s1
  have h1 : Canon π s1 := h.withMgt _
  clear_value s1
  exact .ite (fun _ => h) fun _ => .ite (fun _ => h1.bump _ _) fun _ => .ite (fun _ => (h1.bump _ _).windowEvent _) fun _ => h1.withMgt _

/-! ### Alarms (R545, R546) -/

theorem execAlarmOccurrence (h : Canon π s) (cls : Fin 15) (code : Byte) (src : Fin 5) (data : Word64) (queue : Option (Fin 65536))
    (part : Option Sys2Proof.Part) (sev : Fin 3) : Goes π (execAlarmOccurrence cls code src data queue part sev s) :=
  .next (h.alarmOccur _)
theorem execAlarmNoticeRepeat (h : Canon π s) : Goes π (execAlarmNoticeRepeat s) :=
  .next (foldl (fun _ _ h => (h.setAlarm _ _).alarmNotice _ _ _) _ h)

/-! ### Management admin commands (R560) -/

theorem logRecord (h : Canon π s) (n : Nat) : Canon π (logRecord n s).2 := by
  unfold Machine.logRecord
  split
  · next hb => exact (h.paRead _ _).snd hb
  · next hb => exact (h.paRead _ _).snd hb

theorem traceRecord (h : Canon π s) (n : Nat) : Canon π (traceRecord n s).2 := by
  unfold Machine.traceRecord
  dsimp only
  split
  · exact h.paRead _ _
  · exact h

theorem auditCopy (h : Canon π s) (d n : Nat) : Canon π (auditCopy d n s).2 := by
  unfold Machine.auditCopy
  split
  · next hb => exact (h.paRead _ _).snd hb
  · next hb => exact (h.paRead _ _).snd hb

theorem auditRecord (h : Canon π s) (n : Nat) : Canon π (auditRecord n s).2 := by
  unfold Machine.auditRecord
  split
  · split
    · next hb => exact (h.auditCopy _ _).snd hb
    · next hb => exact ((h.auditCopy _ _).snd hb).auditCopy _ _
  · exact h

theorem readRecords : ∀ {held : Nat → State → Option (List Byte) × State} (_ : ∀ a0 t, Canon π t → Canon π (held a0 t).2) (x1 : List Nat)
    {s : State}, Canon π s → Canon π (readRecords held x1 s).2
  | _, _, [], _, h => h
  | _, hheld, _ :: as, _, h => readRecords hheld as (hheld _ _ h)

theorem mgtRead (h : Canon π s) (q seq opc : Nat) {held : Nat → State → Option (List Byte) × State}
    (hheld : ∀ a0 t, Canon π t → Canon π (held a0 t).2) (skipped : Nat → Bool) : Canon π (mgtRead q seq opc s held skipped) := by
  unfold Machine.mgtRead
  refine h.withAdmin _ _ _ fun _ => ?_
  dsimp only
  refine .ite (fun _ => h.endCommand _ _ _ _) fun _ => ?_
  exact .ite (fun _ => h) fun _ => ((readRecords hheld _ h).hostWrite _ _ _).endCommand _ _ _ _

theorem execMgtLogRead (h : Canon π s) (q : Qn) (seq : Word64) : Goes π (execMgtLogRead q seq s) :=
  .next (h.mgtRead _ _ _ (fun _ _ h => h.logRecord _) _)
theorem execMgtTraceCfg (h : Canon π s) (q : Qn) (seq : Word64) : Goes π (execMgtTraceCfg q seq s) :=
  .next (h.withAdmin _ _ _ fun _ => .ite (fun _ => h.endCommand _ _ _ _) fun _ => (h.withMgt _).endCommand _ _ _ _)
theorem execMgtTraceRead (h : Canon π s) (q : Qn) (seq : Word64) : Goes π (execMgtTraceRead q seq s) :=
  .next (h.mgtRead _ _ _ (fun _ _ h => h.traceRecord _) _)

theorem execMgtAlarmRead (h : Canon π s) (q : Qn) (seq : Word64) : Goes π (execMgtAlarmRead q seq s) := by
  unfold Machine.execMgtAlarmRead
  refine .next ?_
  refine h.withAdmin _ _ _ fun _ => ?_
  exact .ite (fun _ => h.endCommand _ _ _ _) fun _ => .ite (fun _ => h) fun _ => (h.hostWrite _ _ _).endCommand _ _ _ _

theorem execMgtAuditRead (h : Canon π s) (q : Qn) (seq : Word64) : Goes π (execMgtAuditRead q seq s) :=
  .next (h.mgtRead _ _ _ (fun _ _ h => h.auditRecord _) _)

end Canon
end Sys2Proof.Machine
end

section
/-! Canonical form: roles and the mailbox. -/
namespace Sys2Proof.Machine
set_option Elab.async false
open Sys2Proof
namespace Canon
variable {π : List Instr} {s t : State}

/-! ### The role command (R550) -/

theorem setRole (h : Canon π s) (r : Nat) (x : RoleSt) : Canon π (s.setRole r x) := h.withMgt _

/-! ### Refusals, failures and locks (R554, R557) -/

theorem closeWindow (h : Canon π s) (r : Nat) : Canon π (closeWindow r s) := .ite (fun _ => h) fun _ => (h.auditAppend _ _).setRole _ _
theorem noteRefusal (h : Canon π s) (r status : Nat) : Canon π (noteRefusal r status s) :=
  .ite (fun _ => h) fun _ => setRole (.ite (fun _ => h) fun _ => h.closeWindow _) _ _
theorem noteAuthFail (h : Canon π s) (r : Nat) (sb : Bool) : Canon π (noteAuthFail r sb s) :=
  .ite (fun _ => ((h.bump _ _).mgtEvent _ _ _).setRole _ _) fun _ => ((h.bump _ _).mgtEvent _ _ _).setRole _ _

/-! ### Effects (R552 to R558) -/

theorem clearSlot (h : Canon π s) (slot : Nat) : Canon π (clearSlot slot s) := h.setAlarm _ _
theorem effectAlarmClear (h : Canon π s) (b : List Byte) : Canon π (effectAlarmClear b s) :=
  (refreshAlert (.ite (fun _ => foldl (fun _ _ h => h.clearSlot _) _ h) fun _ => h.clearSlot _)).mgtEvent _ _ _
theorem capEvent (h : Canon π s) (old : Nat) : Canon π (capEvent old s) := .ite (fun _ => h) fun _ => h.pwrEvent _ _ _
theorem effectPowerSet (h : Canon π s) (b : List Byte) : Canon π (effectPowerSet b s) :=
  (refreshLimits (foldl (fun _ _ h => (h.updPw _ _).refreshPwd _) _ (h.withPower _))).capEvent _
theorem applyLimits (h : Canon π s) (b : List Byte) : Canon π (applyLimits b s) :=
  refreshLimits (foldl (fun _ _ h => (h.updPw _ _).refreshPwd _) _ (h.withPower _))
theorem effectLimitsSet (h : Canon π s) (b : List Byte) : Canon π (effectLimitsSet b s) := ((h.withStore _).applyLimits _).capEvent _
theorem effectKeySet (h : Canon π s) (role counter : Nat) (b : List Byte) : Canon π (effectKeySet role counter b s) := h.setRole _ _
theorem setTap (h : Canon π s) (on : Bool) : Canon π (setTap on s) := h.withPins _
theorem effectTestMode (h : Canon π s) (b : List Byte) : Canon π (effectTestMode b s) :=
  setTap (.ite (fun _ => h.setRfld _ _ _ _) fun _ => (h.setRfld _ _ _ _).mgtEvent _ _ _) _
theorem effectOverride (h : Canon π s) (b : List Byte) : Canon π (effectOverride b s) := ((h.withPower _).addHealth _).pwrEvent _ _ _
theorem effectHealthClear (h : Canon π s) (b : List Byte) : Canon π (effectHealthClear b s) := h.withBoot _
theorem effectFuse (h : Canon π s) (b : List Byte) : Canon π (effectFuse b s) := h.withFuses _

theorem roleEffect (h : Canon π s) (m role counter : Nat) (b : List Byte) : Canon π (roleEffect m role counter b s).2 := by
  unfold Machine.roleEffect
  refine snd_ite (fun _ => h) fun _ => ?_
  refine snd_ite (fun _ => snd_mk (h.effectAlarmClear b)) fun _ => ?_
  refine snd_ite (fun _ => snd_mk (h.effectPowerSet b)) fun _ => ?_
  refine snd_ite (fun _ => snd_mk (h.controlAct _ _)) fun _ => ?_
  refine snd_ite (fun _ => ?_) fun _ => ?_
  · dsimp only
    exact readRecords (fun _ _ h => h.auditRecord _) _ h
  refine snd_ite (fun _ => ?_) fun _ => ?_
  · exact snd_mk ((h.withStore { s.store with plan := b }).adoptPlan b)
  refine snd_ite (fun _ => snd_mk (h.effectLimitsSet b)) fun _ => ?_
  refine snd_ite (fun _ => snd_mk (h.effectKeySet role counter b)) fun _ => ?_
  refine snd_ite (fun _ => snd_mk (h.setRegN _ _)) fun _ => ?_
  refine snd_ite (fun _ => snd_mk (h.effectTestMode b)) fun _ => ?_
  refine snd_ite (fun _ => snd_mk (h.effectOverride b)) fun _ => ?_
  refine snd_ite (fun _ => snd_mk (h.effectHealthClear b)) fun _ => ?_
  exact snd_ite (fun _ => (h.effectFuse b).snd_mk) fun _ => h

/-! ### The journal (R281, R282) -/

theorem mbxDone (h : Canon π s) (seq status : Nat) (resp : List Byte) : Canon π (mbxDone seq status resp s) :=
  (((h.withRegs (cwf_csetStep _ _ _ h.regs)).setRegN _ _).setRfld _ _ _ _).raiseEvent _
theorem finishRole (h : Canon π s) (status : Nat) (resp : List Byte) : Canon π (finishRole status resp s) :=
  .ite (fun _ => (h.withHost _).withMgt _) fun _ => (h.withHost _).mbxDone _ _ _

theorem roleAudit (h : Canon π s) (j : Journal) : Canon π (roleAudit j s).2 := by
  unfold Machine.roleAudit
  dsimp only
  split
  · exact h.auditAppend _ _
  · exact h.auditAppend _ _

theorem commitRole (h : Canon π s) : Canon π (commitRole s) := by
  unfold Machine.commitRole
  dsimp only
  refine .ite (fun _ => (h.roleAudit _).finishRole _ _) fun _ => ?_
  exact ((roleEffect (.ite (fun _ => h.roleAudit _) fun _ => (h.roleAudit _).setRegN _ _) _ _ _ _).mgtEvent _ _ _).withHost _

theorem checkRole (h : Canon π s) : Canon π (checkRole s) := by
  unfold Machine.checkRole
  dsimp only
  refine .ite (fun _ => h.commitRole) fun _ => ?_
  exact finishRole (.ite (fun _ => noteRefusal (.ite (fun _ => h.noteAuthFail _ _) fun _ => h) _ _) fun _ =>
    .ite (fun _ => h.noteAuthFail _ _) fun _ => h) _ _

theorem roleDone (h : Canon π s) : Canon π (roleDone s) := .ite (fun _ => h.finishRole _ _) fun _ => h
theorem runRole (h : Canon π s) (m : Nat) : Canon π (runRole m s) := .ite (fun _ => h.checkRole.roleDone) fun _ => h
theorem takeDoorbell (h : Canon π s) (value : Nat) : Canon π (takeDoorbell value s) :=
  .ite (fun _ => ((h.withHost _).setRfld _ _ _ _).setRfld _ _ _ _) fun _ => h.bump _ _

end Canon
end Sys2Proof.Machine
end

section
/-! Canonical form: role commands. -/
namespace Sys2Proof.Machine
set_option Elab.async false
open Sys2Proof
namespace Canon
variable {π : List Instr} {s t : State}

/-! ### The mailbox (R280, R281) -/

theorem ringMailbox (h : Canon π s) (value : Nat) : Canon π (ringMailbox value s) :=
  .ite (fun _ => h.takeDoorbell _) fun _ => .ite (fun _ => h.withHost _) fun _ => h.bump _ _
theorem execMbxDoorbell (h : Canon π s) (f : Func) (value : Word64) : Goes π (execMbxDoorbell f value s) :=
  .next (h.guardedWrite _ _ _ _ fun _ _ _ h => h.ringMailbox _)

theorem execMbxCommit (h : Canon π s) (done : Bool) : Goes π (execMbxCommit done s) := by
  unfold Machine.execMbxCommit
  refine .next ?_
  refine .ite (fun _ => h) fun _ => ?_
  exact .ite (fun _ => roleDone (.ite (fun _ => h.checkRole) fun _ => h)) fun _ => .ite (fun _ => h.checkRole) fun _ => h

/-! ### Role commands (R552) -/

theorem execGetInfo (h : Canon π s) : Goes π (execGetInfo s) := .next (h.runRole _)
theorem execAlarmClear (h : Canon π s) : Goes π (execAlarmClear s) := .next (h.runRole _)
theorem execPowerSet (h : Canon π s) : Goes π (execPowerSet s) := .next (h.runRole _)
theorem execPartitionControl (h : Canon π s) : Goes π (execPartitionControl s) := .next (h.runRole _)
theorem execAuditRead (h : Canon π s) : Goes π (execAuditRead s) := .next (h.runRole _)
theorem execPlanSet (h : Canon π s) : Goes π (execPlanSet s) := .next (h.runRole _)
theorem execLimitsSet (h : Canon π s) : Goes π (execLimitsSet s) := .next (h.runRole _)
theorem execKeySet (h : Canon π s) : Goes π (execKeySet s) := .next (h.runRole _)
theorem execAuditTrim (h : Canon π s) : Goes π (execAuditTrim s) := .next (h.runRole _)
theorem execTestMode (h : Canon π s) : Goes π (execTestMode s) := .next (h.runRole _)
theorem execVtOverride (h : Canon π s) : Goes π (execVtOverride s) := .next (h.runRole _)
theorem execHealthClear (h : Canon π s) : Goes π (execHealthClear s) := .next (h.runRole _)
theorem execFuseProgram (h : Canon π s) : Goes π (execFuseProgram s) := .next (h.runRole _)
theorem execAuthLockExpire (h : Canon π s) (r : Fin 3) : Goes π (execAuthLockExpire r s) :=
  .next (.ite (fun _ => h.setRole _ _) fun _ => h)
theorem execAuditRefusalSummary (h : Canon π s) (r : Fin 3) : Goes π (execAuditRefusalSummary r s) :=
  .next (.ite (fun _ => h.closeWindow _) fun _ => h)

/-! ### Restarts (R532, R534, R535) -/

theorem haltBetony (h : Canon π s) : Canon π (haltBetony s) := by
  unfold Machine.haltBetony
  extract_lets s1 _ s2 s3 s4
  have h1 : Canon π s1 := (h.setRfld _ _ _ _).mgtEvent _ _ _
  have h2 : Canon π s2 := foldl (fun _ _ h => h.setRegF _ _ _) _ h1
  have h3 : Canon π s3 := h2.bump _ _
  have h4 : Canon π s4 := foldl (fun _ _ h => h.answerBusy _ _ _) _ h3
  exact h4.withMgt _

theorem execBetonyWatchdog (h : Canon π s) (core : Fin 8) (cause : Fin 3) : Goes π (execBetonyWatchdog core cause s) := by
  unfold Machine.execBetonyWatchdog
  refine .next ?_
  refine .ite (fun _ => h) fun _ => ?_
  extract_lets _ s1 _ s2 s3 s4
  have h1 : Canon π s1 := h.bump _ _
  have h2 : Canon π s2 := h1.withMgt _
  have h3 : Canon π s3 := (h2.setRfld _ _ _ _).setRfld _ _ _ _
  have h4 : Canon π s4 := h3.mgtEvent _ _ _
  clear_value s1 s2 s3 s4
  exact .ite (fun _ => h4.haltBetony) fun _ => h4

theorem resolveJournal (h : Canon π s) : Canon π (resolveJournal s) := by
  unfold Machine.resolveJournal
  extract_lets _ s1 s2
  have h1 : Canon π s1 := h.setRfld _ _ _ _
  have h2 : Canon π s2 := .ite (fun _ => h1) fun _ => .ite (fun _ => h1.roleDone) fun _ => h1.finishRole _ _
  clear_value s1 s2
  split
  · exact (h2.withHost _).takeDoorbell _
  · exact h2

theorem execBetonyRestartDone (h : Canon π s) : Goes π (execBetonyRestartDone s) := by
  unfold Machine.execBetonyRestartDone
  refine .next ?_
  refine .ite (fun _ => h) fun _ => ?_
  split
  · next hb => exact (h.imageOk.snd hb).haltBetony
  · next hb => exact (resolveJournal (foldl (fun _ _ h => h.endCommand _ _ _ _) _ ((h.imageOk.snd hb).setRfld _ _ _ _))).answerHeld

end Canon
end Sys2Proof.Machine
end

section
/-! Canonical form: training support. -/
namespace Sys2Proof.Machine
set_option Elab.async false
open Sys2Proof
namespace Canon
variable {π : List Instr} {s t : State}

/-! ### DROPOUT (R405 to R407) -/

theorem dropRows : ∀ (b : List Byte) (d : Nat) (c : Nat) (rel : Nat) (part : Option Nat) (x5 : List Nat) {s : State}, Canon π s →
    Canon π (dropRows b d c rel part x5 s).2
  | _, _, _, _, _, [], _, h => h
  | _, _, _, _, _, _ :: as, _, h => by
    unfold Machine.dropRows
    dsimp only
    split
    · next hb => exact (h.sramRead _ _ _ _ _ _).snd hb
    · next hb =>
        have h1 := (h.sramRead _ _ _ _ _ _).snd hb
        split
        · exact dropRows _ _ _ _ _ as (.ite (fun _ => (h1.sramWrite _ _ _ _ _ _).sramPut _ _ _ _) fun _ => h1.sramWrite _ _ _ _ _ _)
        · exact .ite (fun _ => (h1.sramWrite _ _ _ _ _ _).sramPut _ _ _ _) fun _ => h1.sramWrite _ _ _ _ _ _

theorem dropClusters (b : List Byte) (d first : Nat) (part : Option Nat) (rows : List Nat) :
    ∀ (cs : List Nat) (r : List (Nat × Nat) × State), Canon π r.2 →
      Canon π (cs.foldl (fun (r : List (Nat × Nat) × State) c =>
        (r.1 ++ [(c, (Machine.dropRows b d c (c - first) part rows r.2).1)], (Machine.dropRows b d c (c - first) part rows r.2).2)) r).2
  | [], _, h => h
  | _ :: cs, _, h => dropClusters b d first part rows cs _ (dropRows _ _ _ _ _ _ h)

theorem execDropout (h : Canon π s) (q : Qn) (seq : Word64) : Goes π (execDropout q seq s) := by
  unfold Machine.execDropout
  refine .next ?_
  refine h.withFlight _ _ _ fun _ => ?_
  dsimp only
  refine .ite (fun _ => h.endCommand _ _ _ _) fun _ => ?_
  split
  · refine .ite (fun _ => h) fun _ => ?_
    exact (dropClusters _ _ _ _ _ _ ([], s) h).endClusters _ _ _
  · next hb => exact ((h.checkClusters _ _ _ _).snd hb).endCommand _ _ _ _

/-! ### Stored activations (R408 to R414) -/

theorem readTensor : ∀ (b : List Byte) (d : Nat) (c : Nat) (part : Option Nat) (x4 : List Nat) {s : State}, Canon π s →
    Canon π (readTensor b d c part x4 s).2
  | _, _, _, _, [], _, h => h
  | _, _, _, _, _ :: as, _, h => by
    unfold Machine.readTensor
    dsimp only
    split
    · next hb => exact (h.sramRead _ _ _ _ _ _).snd hb
    · next hb =>
        have h1 := (h.sramRead _ _ _ _ _ _).snd hb
        split
        · next hb2 => exact (readTensor _ _ _ _ as h1).snd hb2
        · next hb2 => exact (readTensor _ _ _ _ as h1).snd hb2

theorem actAcc {α : Type} {x : Machine.Acc α} (h : Acc π x) (rq : Req) {g : α → State → Machine.ActRes}
    (hg : ∀ a0 t, Canon π t → ActRes π (g a0 t)) : ActRes π (actAcc rq x g) := by
  unfold Machine.actAcc
  split
  · exact hg _ _ h
  · exact h.recordFault _ _ _
  · exact trivial

theorem actStoreIn (h : Canon π s) (rq : Req) (b : List Byte) (d c rel : Nat) (part : Option Nat) :
    ActRes π (actStoreIn rq b d c rel part s) := by
  unfold Machine.actStoreIn
  dsimp only
  refine actAcc (h.vaWrite _ _ _) _ fun _ _ h => ?_
  split
  · next hb => exact (readTensor _ _ _ _ _ h).snd hb
  · next hb =>
      have h2 := (readTensor _ _ _ _ _ h).snd hb
      refine actAcc (h2.vaWrite _ _ _) _ fun _ _ h => ?_
      split
      · exact h
      · exact actAcc (h.vaWrite _ _ _) _ fun _ _ h => h

theorem fillFree : ∀ (x0 : List (Option Nat)) {s : State}, Canon π s → Canon π (fillFree x0 s).2
  | [], _, h => h
  | some _ :: vs, _, h => fillFree vs h
  | none :: vs, _, h => fillFree vs h.draw

theorem writeTensor : ∀ (b : List Byte) (d : Nat) (c : Nat) (part : Option Nat) (all : Bool) (free : Nat) (x6 : List (Nat × List Nat))
    {s : State}, Canon π s → Canon π (writeTensor b d c part all free x6 s).2
  | _, _, _, _, _, _, [], _, h => h
  | _, _, _, _, _, _, (_, _) :: rs, _, h => by
    unfold Machine.writeTensor
    dsimp only
    split
    · next hb => exact writeTensor _ _ _ _ _ _ rs ((moveGroups (fun _ _ h => h.putPieces _ _ _ _ _) _ h).done hb)
    · next hb => exact (moveGroups (fun _ _ h => h.putPieces _ _ _ _ _) _ h).failed hb
    · exact h

theorem actFail (h : Canon π s) (d c q kind : Nat) (part : Option Nat) : Canon π (actFail d c q kind part s) :=
  (h.bump _ _).trnEvent _ _ _ _ _ _

theorem actLoadIn (h : Canon π s) (rq : Req) (b : List Byte) (d c rel : Nat) (part : Option Nat) :
    ActRes π (actLoadIn rq b d c rel part s) := by
  unfold Machine.actLoadIn
  dsimp only
  refine actAcc (h.vaRead _ _ _) _ fun _ _ h => ?_
  split
  · exact h.actFail _ _ _ _ _
  · refine actAcc (h.vaRead _ _ _) _ fun _ _ h => ?_
    split
    · next hb =>
        have h3 := (writeTensor _ _ _ _ _ _ _ ((fillFree _ h).withOpenCount _)).snd hb
        split
        · exact h3
        · exact h3.actFail _ _ _ _ _
    · next hb => exact (writeTensor _ _ _ _ _ _ _ ((fillFree _ h).withOpenCount _)).snd hb

/-- What the clusters of an activation command leave, ended or waiting. -/
def Acts (π : List Instr) : Machine.ActRes ⊕ (List (Nat × Nat) × State) → Prop
  | .inl w => ActRes π w
  | .inr r => Canon π r.2

theorem Acts.ended {x : Machine.ActRes ⊕ (List (Nat × Nat) × State)} (h : Acts π x) {ends : List (Nat × Nat)}
    (hx : x = .inr (ends, t)) : Canon π t := by subst hx; exact h

theorem Acts.stopped {x : Machine.ActRes ⊕ (List (Nat × Nat) × State)} (h : Acts π x) {n : Nat} (hx : x = .inl (.ended n t)) :
    Canon π t := by subst hx; exact h

theorem actClusters {run : Nat → State → Machine.ActRes} (hrun : ∀ a t, Canon π t → ActRes π (run a t)) :
    ∀ (cs : List Nat) (ends : List (Nat × Nat)) {s : State}, Canon π s → Acts π (actClusters run cs ends s)
  | [], _, _, h => h
  | c :: cs, ends, s, h => by
    unfold Machine.actClusters
    split
    · next hb => exact actClusters hrun cs _ ((hrun _ _ h).ended hb)
    · exact hrun _ _ h

theorem actCommand (h : Canon π s) (q seq opc unit : Nat) (store : Bool)
    {run : Req → List Byte → Nat → Nat → Nat → Option Nat → State → Machine.ActRes}
    (hrun : ∀ a0 a1 a2 a3 a4 a5 t, Canon π t → ActRes π (run a0 a1 a2 a3 a4 a5 t)) :
    Canon π (actCommand q seq opc unit store s run) := by
  unfold Machine.actCommand
  refine h.withFlight _ _ _ fun _ => ?_
  dsimp only
  refine .ite (fun _ => h.endCommand _ _ _ _) fun _ => ?_
  split
  · refine .ite (fun _ => h) fun _ => ?_
    split
    · next hb => exact ((actClusters (fun _ _ h => hrun _ _ _ _ _ _ _ h) _ _ h).ended hb).endClusters _ _ _
    · exact h.waitAtStack _
    · next hb => exact (actClusters (fun _ _ h => hrun _ _ _ _ _ _ _ h) _ _ h).stopped hb
  · next hb => exact ((h.checkClusters _ _ _ _).snd hb).endCommand _ _ _ _

theorem execActStore (h : Canon π s) (q : Qn) (seq : Word64) : Goes π (execActStore q seq s) :=
  .next (h.actCommand _ _ _ _ _ fun _ _ _ _ _ _ _ h => h.actStoreIn _ _ _ _ _ _)
theorem execActLoad (h : Canon π s) (q : Qn) (seq : Word64) : Goes π (execActLoad q seq s) :=
  .next (h.actCommand _ _ _ _ _ fun _ _ _ _ _ _ _ h => h.actLoadIn _ _ _ _ _ _)

/-! ### Virtual stages (R415 to R418) -/

theorem setStg (h : Canon π s) (d : Nat) (x : StageSt) : Canon π (s.setStg d x) := (h.withTrn _).setRegN _ _

theorem execStageSetBind (h : Canon π s) (q : Qn) (seq : Word64) : Goes π (execStageSetBind q seq s) := by
  unfold Machine.execStageSetBind
  refine .next ?_
  refine h.withFlight _ _ _ fun _ => ?_
  exact .ite (fun _ => h) fun _ => .ite (fun _ => h.endCommand _ _ _ _) fun _ => (h.setStg _ _).endCommand _ _ _ _

theorem execStageSetClear (h : Canon π s) (q : Qn) (seq : Word64) : Goes π (execStageSetClear q seq s) := by
  unfold Machine.execStageSetClear
  refine .next ?_
  refine h.withFlight _ _ _ fun _ => ?_
  exact .ite (fun _ => h) fun _ => .ite (fun _ => h.endCommand _ _ _ _) fun _ => (h.setStg _ _).endCommand _ _ _ _

theorem execStageSched (h : Canon π s) (q : Qn) (seq : Word64) : Goes π (execStageSched q seq s) := by
  unfold Machine.execStageSched
  refine .next ?_
  refine h.withFlight _ _ _ fun _ => ?_
  dsimp only
  refine .ite (fun _ => h.endCommand _ _ _ _) fun _ => ?_
  exact h.finishAcc _ _ _ (h.vaRead _ _ _) fun _ _ h => .ite (fun _ => h.endCommand _ _ _ _) fun _ => (h.setStg _ _).endCommand _ _ _ _

theorem execStageMark (h : Canon π s) (q : Qn) (seq : Word64) : Goes π (execStageMark q seq s) := by
  unfold Machine.execStageMark
  refine .next ?_
  refine h.withFlight _ _ _ fun _ => ?_
  dsimp only
  refine .ite (fun _ => h.endCommand _ _ _ _) fun _ => ?_
  split
  · exact h.endCommand _ _ _ _
  · refine .ite (fun _ => (h.setStg _ _).endCommand _ _ _ _) fun _ => ?_
    exact .ite (fun _ => h) fun _ => .ite (fun _ => (h.updFlight _ _ _).noteRun _) fun _ => (h.trnEvent _ _ _ _ _ _).endCommand _ _ _ _

/-! ### Deferred regions (R419, R420) -/

theorem execDeferBegin (h : Canon π s) (q : Qn) (seq : Word64) : Goes π (execDeferBegin q seq s) := by
  unfold Machine.execDeferBegin
  refine .next ?_
  refine h.withFlight _ _ _ fun _ => ?_
  exact .ite (fun _ => h.endCommand _ _ _ _) fun _ => .ite (fun _ => h) fun _ => (h.setQueue _ _).endCommand _ _ _ _

theorem execDeferDrain (h : Canon π s) (q : Qn) (seq : Word64) : Goes π (execDeferDrain q seq s) :=
  .next (h.withFlight _ _ _ fun _ => .ite (fun _ => h.endCommand _ _ _ _) fun _ => .ite (fun _ => h) fun _ => h.endCommand _ _ _ _)

/-! ### Filler units (R425) -/

theorem execFillBegin (h : Canon π s) (q : Qn) (seq : Word64) : Goes π (execFillBegin q seq s) := by
  unfold Machine.execFillBegin
  refine .next ?_
  refine h.withFlight _ _ _ fun _ => ?_
  extract_lets _ _ _ _ _ _ _ s1 _ s2
  have h1 : Canon π s1 := h.endCommand _ _ _ _
  have h2 : Canon π s2 := h1.setQueue _ _
  clear_value s1 s2
  exact .ite (fun _ => h.endCommand _ _ _ _) fun _ => .ite (fun _ => h) fun _ => .ite (fun _ => (h2.failUnit _ _).takeBad _) fun _ => h2

end Canon
end Sys2Proof.Machine
end

section
/-! Canonical form: the Sorrel update units. -/
namespace Sys2Proof.Machine
set_option Elab.async false
open Sys2Proof
namespace Canon
variable {π : List Instr} {s t : State}

/-! ### HBM arrays -/

theorem readMat (h : Canon π s) (rq : Req) (va rows cols fmt : Nat) : Acc π (readMat rq va rows cols fmt s) :=
  (h.vaRead _ _ _).bind fun _ _ h => .ret h
theorem writeScratch (h : Canon π s) (rq : Req) (va n : Nat) : Acc π (writeScratch rq va n s) := (h.withOpenCount _).vaWrite _ _ _

/-! ### The update (R443, R444, R446) -/

theorem updateResult (h : Canon π s) (rq : Req) (red : Bool) (b rec_ bindB coefB : List Byte) :
    Acc π (updateResult rq red b rec_ bindB coefB s) := by
  unfold Machine.updateResult
  dsimp only
  refine (h.readMat _ _ _ _ _).bind fun _ _ h => ?_
  refine (h.readMat _ _ _ _ _).bind fun _ _ h => ?_
  refine (h.readMat _ _ _ _ _).bind fun _ _ h => ?_
  refine .ite (fun _ => .ret h) fun _ => ?_
  refine .ite (fun _ => .ret h) fun _ => ?_
  refine (h.readMat _ _ _ _ _).bind fun _ _ h => ?_
  exact (h.readMat _ _ _ _ _).bind fun _ _ h => (h.readMat _ _ _ _ _).bind fun _ _ h => (h.readMat _ _ _ _ _).bind fun _ _ h => .ret h

/-! ### Commit (R450 to R453) -/

theorem tornEnd (h : Canon π s) (d q seq status : Nat) (id : Nat × Nat) : Canon π (tornEnd d q seq status id s) :=
  ((h.dropSorrel _ _).tornEvent _ _ _).endCommand _ _ _ _

theorem markedWait (h : Canon π s) (q seq va : Nat) (rec_ : List Byte) (rq : Req) : Canon π (markedWait q seq va rec_ rq s) := by
  unfold Machine.markedWait
  split
  · next hb => exact (((h.vaWrite _ _ _).ok hb).dropSorrel _ _).srlOwn _ _ _ _ _
  · exact h

theorem tornAcc {α : Type} (h : Canon π s) (q seq va : Nat) (rec_ : List Byte) (rq : Req) {x : Machine.Acc α} (hx : Acc π x)
    {g : α → State → State} (hg : ∀ a0 t, Canon π t → Canon π (g a0 t)) : Canon π (tornAcc q seq va rec_ rq s x g) := by
  unfold Machine.tornAcc
  split
  · exact hg _ _ hx
  · exact (hx.recordFault _ _ _).tornEnd _ _ _ _ _
  · exact (h.markedWait _ _ _ _ _).waitAtStack _

theorem srlAcc {α : Type} (h : Canon π s) (q seq : Nat) (rq : Req) {x : Machine.Acc α} (hx : Acc π x) {g : α → State → State}
    (hg : ∀ a0 t, Canon π t → Canon π (g a0 t)) : Canon π (srlAcc q seq rq s x g) := by
  unfold Machine.srlAcc
  split
  · exact (hx.recordFault _ _ _).tornEnd _ _ _ _ _
  · exact h.finishAcc _ _ _ hx hg

theorem srlTell (h : Canon π s) (q seq : Nat) (rq : Req) (digestVa kind : Nat) (rec_ : List Byte) :
    Canon π (srlTell q seq rq digestVa kind rec_ s) := by
  unfold Machine.srlTell
  refine .ite (fun _ => h.endCommand _ _ _ _) fun _ => ?_
  split
  · next hb => exact (((h.vaWrite _ _ _).ok hb).dropSorrel _ _).endCommand _ _ _ _
  · next hb => exact ((((h.vaWrite _ _ _).fault hb).recordFault _ _ _).dropSorrel _ _).endCommand _ _ _ _
  · next hb => exact (h.srlOwn _ _ _ _ _).waitAtStack _

theorem srlCommit (h : Canon π s) (q seq : Nat) (rq : Req) (va : Nat) (rec_ next : List Byte) (stream : Bool) (kind digestVa : Nat)
    {body : State → Machine.Acc SrlResult} (hbody : ∀ t, Canon π t → Acc π (body t)) {t : State} (ht : Canon π t)
    {done : State → State} (hdone : ∀ t, Canon π t → Canon π (done t)) :
    Canon π (srlCommit q seq rq s va rec_ next stream kind digestVa body t done) := by
  unfold Machine.srlCommit
  dsimp only
  refine .ite (fun _ => ?_) fun _ => ?_
  · exact h.srlAcc _ _ _ (ht.vaWrite _ _ _) fun _ _ h3 => h.tornAcc _ _ _ _ _ (hbody _ h3) fun _ _ h4 =>
      h.tornAcc _ _ _ _ _ (Acc.forEach (fun _ _ h => h.vaWriteWhole _ _ _) _ h4) fun _ _ h5 =>
      h.tornAcc _ _ _ _ _ (h5.vaWrite _ _ _) fun _ _ h => (hdone _ h).srlTell _ _ _ _ _ _
  · refine h.finishAcc _ _ _ (hbody _ ht) fun _ _ h3 => ?_
    exact h.finishAcc _ _ _ (h3.vaWrite _ _ _) fun _ _ h4 => h.tornAcc _ _ _ _ _ (Acc.forEach (fun _ _ h => h.vaWriteWhole _ _ _) _ h4)
      fun _ _ h5 => h.tornAcc _ _ _ _ _ (h5.vaWrite _ _ _) fun _ _ h => (hdone _ h).srlTell _ _ _ _ _ _

/-! ### Running (R435, R441, R454) -/

theorem srlBegin (h : Canon π s) (d q seq limit : Nat) : Canon π (srlBegin d q seq limit s) :=
  .ite (fun _ => ((h.srlTake _ _ _ _ _).setSrl _ _).updFlight _ _ _) fun _ => (h.srlTake _ _ _ _ _).srlOwn _ _ _ _ _
theorem updateInput (h : Canon π s) (rq : Req) (b : List Byte) : Acc π (updateInput rq b s) :=
  (h.vaRead _ _ _).bind fun _ _ h => (h.vaRead _ _ _).bind fun _ _ h => (h.vaRead _ _ _).bind fun _ _ h => .ret h

theorem updateFinish (h : Canon π s) (q seq : Nat) (rq : Req) (b : List Byte) (x : SrlInput) {t : State} (ht : Canon π t) :
    Canon π (updateFinish q seq rq s b x t) := by
  unfold Machine.updateFinish
  dsimp only
  exact h.srlCommit _ _ _ _ _ _ _ _ _ (fun _ h => Acc.bind (.ite (fun _ => .ret h) fun _ => h.writeScratch _ _ _) fun _ _ h =>
    h.updateResult _ _ _ _ _ _) (ht.dropSorrel _ _) fun _ h => ((h.bump _ _).bump _ _).pmcCount _ _ _ _

theorem gradientBad (h : Canon π s) (rq : Req) (r : List Byte) : Acc π (gradientBad rq r s) :=
  (h.readMat _ _ _ _ _).bind fun _ _ h => .ret h

theorem srlMismatch (h : Canon π s) (res q seq : Nat) (rq : Req) (va : Nat) (rec_ : List Byte) (torn : Bool) {t : State}
    (ht : Canon π t) {go : State → State} (hgo : ∀ t, Canon π t → Canon π (go t)) :
    Canon π (srlMismatch res q seq rq s va rec_ torn t go) := by
  unfold Machine.srlMismatch
  extract_lets _ _ s2
  have h2 : Canon π s2 := ((ht.bump _ _).auditEvent _).dropSorrel _ _
  clear_value s2
  refine .ite (fun _ => hgo _ ht) fun _ => ?_
  refine .ite (fun _ => hgo _ ((ht.bump _ _).auditEvent _)) fun _ => ?_
  exact .ite (fun _ => h.srlAcc _ _ _ (h2.vaWrite _ _ _) fun _ _ h => h.tornEnd _ _ _ _ _) fun _ => h2.endCommand _ _ _ _

theorem srlTellLater (h : Canon π s) (q seq : Nat) (rq : Req) (va digestVa : Nat) : Canon π (srlTellLater q seq rq va digestVa s) :=
  h.finishAcc _ _ _ (h.vaRead _ _ _) fun _ _ h => h.srlTell _ _ _ _ _ _

theorem execSrlUpdate (h : Canon π s) (q : Qn) (seq : Word64) (res : Fin 3) : Goes π (execSrlUpdate q seq res s) := by
  unfold Machine.execSrlUpdate
  refine .next ?_
  refine h.withFlight _ _ _ fun _ => ?_
  dsimp only
  refine .ite (fun _ => h) fun _ => ?_
  refine .ite (fun _ => h.endCommand _ _ _ _) fun _ => ?_
  refine .ite (fun _ => h.srlTellLater _ _ _ _ _) fun _ => ?_
  refine .ite (fun _ => ?_) fun _ => ?_
  · refine .ite (fun _ => h) fun _ => ?_
    exact h.srlAcc _ _ _ (h.updateInput _ _) fun _ _ h2 => h.srlMismatch _ _ _ _ _ _ _ h2 fun _ h3 => h.updateFinish _ _ _ _ _ h3
  · refine .ite (fun _ => h) fun _ => ?_
    refine h.finishAcc _ _ _ (h.updateInput _ _) fun _ _ h2 => ?_
    refine .ite (fun _ => h2.endCommand _ _ _ _) fun _ => ?_
    exact h.finishAcc _ _ _ (.ite (fun _ => h2.gradientBad _ _) fun _ => .ret h2) fun _ _ h3 =>
      .ite (fun _ => ((h3.bump _ _).srlEvent _ _ _ _ _ _).endCommand _ _ _ _) fun _ =>
      .ite (fun _ => h.srlMismatch _ _ _ _ _ _ _ h3 fun _ h4 => h.updateFinish _ _ _ _ _ h4) fun _ => h3.srlBegin _ _ _ _

theorem rootFinish (h : Canon π s) (q seq : Nat) (rq : Req) (b r : List Byte) {t : State} (ht : Canon π t) :
    Canon π (rootFinish q seq rq s b r t) := by
  unfold Machine.rootFinish
  extract_lets _ _ _ s2 x3
  have h2 : Canon π s2 := ht.dropSorrel _ _
  have h3 : Acc π x3 := by
    unfold x3
    exact (h2.writeScratch _ _ _).bind fun _ _ h => (h.readMat _ _ _ _ _).bind fun _ _ h => (h.readMat _ _ _ _ _).bind fun _ _ h => .ret h
  clear_value s2 x3
  refine h.srlAcc _ _ _ h3 fun _ _ h4 => ?_
  dsimp only
  refine .ite (fun _ => ?_) fun _ => ?_
  · exact h.srlCommit _ _ _ _ _ _ _ _ _ (fun _ h => .ret h) h4 fun _ h => h.bump _ _
  · exact ((h4.bump _ _).srlEvent _ _ _ _ _ _).endCommand _ _ _ _

theorem execSrlRoot (h : Canon π s) (q : Qn) (run : RootRun) : Goes π (execSrlRoot q run s) := by
  unfold Machine.execSrlRoot
  refine .next ?_
  refine h.withFlight _ _ _ fun _ => ?_
  dsimp only
  refine .ite (fun _ => h) fun _ => ?_
  refine .ite (fun _ => h.endCommand _ _ _ _) fun _ => ?_
  refine .ite (fun _ => ?_) fun _ => ?_
  · refine .ite (fun _ => h) fun _ => ?_
    exact h.srlAcc _ _ _ (h.vaRead _ _ _) fun _ _ h2 => h.srlMismatch _ _ _ _ _ _ _ h2 fun _ h3 => h.rootFinish _ _ _ _ _ h3
  · refine .ite (fun _ => h) fun _ => ?_
    exact h.finishAcc _ _ _ (h.vaRead _ _ _) fun _ _ h => .ite (fun _ => h.endCommand _ _ _ _) fun _ => h.srlBegin _ _ _ _

theorem execSrlResume (h : Canon π s) (die : Die) : Goes π (execSrlResume die s) := by
  unfold Machine.execSrlResume
  refine .next ?_
  dsimp only
  refine .ite (fun _ => h) fun _ => ?_
  split
  · exact h
  · exact .ite (fun _ => h.srlTake _ _ _ _ _) fun _ => ((h.srlTake _ _ _ _ _).setSrl _ _).srlOwn _ _ _ _ _

theorem execSrlSliceEnd (h : Canon π s) (die : Die) : Goes π (execSrlSliceEnd die s) := by
  unfold Machine.execSrlSliceEnd
  refine .next ?_
  split
  · exact h
  · extract_lets _ _ s1 _ s2 _ _ s3
    have h1 : Canon π s1 := h.setSrl _ _
    have h2 : Canon π s2 := foldl (fun _ _ h => h.returnCluster _ _) _ h1
    have h3 : Canon π s3 := foldl (fun _ _ h => h.takeCluster _ _ _ _ _) _ h2
    clear_value s1 s2 s3
    exact .ite (fun _ => h1) fun _ => .ite (fun _ => (h3.setSrl _ _).updFlight _ _ _) fun _ => h3

theorem execSrlWaitEvent (h : Canon π s) (q : Qn) (seq : Word64) : Goes π (execSrlWaitEvent q seq s) := by
  unfold Machine.execSrlWaitEvent
  refine .next ?_
  split
  · exact h
  · dsimp only
    split
    · exact h
    · exact .ite (fun _ => h) fun _ => (h.setSrl _ _).srlEvent _ _ _ _ _ _

end Canon
end Sys2Proof.Machine
end

section
/-! Canonical form: start-up and training of links. -/
namespace Sys2Proof.Machine
set_option Elab.async false
open Sys2Proof
namespace Canon
variable {π : List Instr} {s t : State}

/-! ### Events and stages (R572, R576, R588) -/

theorem bootEvent (h : Canon π s) (code data sev : Nat) : Canon π (bootEvent code data sev s) :=
  ((h.setRegN _ _).setRegN _ _).raiseEvent _
theorem setStage (h : Canon π s) (n : Nat) : Canon π (setStage n s) := h.setRfld _ _ _ _
theorem setReady (h : Canon π s) (on : Bool) : Canon π (setReady on s) := h.setRfld _ _ _ _
theorem reportFailure (h : Canon π s) (stage status detail die : Nat) : Canon π (reportFailure stage status detail die s) :=
  (((h.setRfld _ _ _ _).setRfld _ _ _ _).setRfld _ _ _ _).bootEvent _ _ _
theorem failBoot (h : Canon π s) (status die : Nat) : Canon π (failBoot status die s) :=
  (((h.reportFailure _ _ _ _).setStage _).setReady _).withBoot _
theorem countStartup (h : Canon π s) : Canon π (countStartup s) := h.withRest.setRfld _ _ _ _

/-! ### The health record at a start-up (R503, R541, R570, R571) -/

theorem dropCleared (h : Canon π s) (ds : List Nat) : Canon π (dropCleared ds s) := h.withRest.withPower _
theorem takeTables (h : Canon π s) (ds : List Nat) : Canon π (takeTables ds s) := foldl (fun _ _ h => (h.withPower _).refreshTable _) _ h

theorem applySpare (h : Canon π s) (d : Nat) (subst degs : List HealthEntry) (c : Nat) : Canon π (applySpare d subst degs s c) := by
  unfold Machine.applySpare
  dsimp only
  exact (h.setSpareByte _ _ _).updClus _ _ _

theorem applyHealth (h : Canon π s) (d : Nat) : Canon π (applyHealth d s) :=
  foldl (fun _ _ h => .ite (fun _ => h.setFrameByte _ _ _) fun _ => h) _ (foldl (fun _ _ h => h.applySpare _ _ _ _) _ h)

/-! ### Training (R185, R210 to R212, R232, R234) -/

theorem trainStrand (h : Canon π s) (t : Training) (l k : Nat) : Canon π (trainStrand t l s k) :=
  .ite (fun _ => (h.setStrand _ _ _).setStrand _ _ _) fun _ => foldl (fun _ _ h => h.repairWires _ _ _) _ (h.setStrand _ _ _)

theorem trainLink (h : Canon π s) (t : Training) (l : Nat) : Canon π (trainLink t s l) := by
  unfold Machine.trainLink
  extract_lets s1 s2 s3
  have h1 : Canon π s1 := foldl (fun _ _ h => h.withD2d _) _ h
  have h2 : Canon π s2 := foldl (fun _ _ h => h.trainStrand _ _ _) _ h1
  have h3 : Canon π s3 := foldl (fun _ _ h => (h.setRfld _ _ _ _).setRfld _ _ _ _) _ h2
  exact h3.refreshPort _

theorem trainLinks (h : Canon π s) (t : Training) (ls : List Nat) : Canon π (trainLinks t ls s) :=
  foldl (fun _ _ h => (h.edgeOutOfService _ _).raiseAlarm _ _ _ _) _ (foldl (fun _ _ h => h.trainLink _ _) _ h)

theorem repairRow (h : Canon π s) (m : Nat) (e : HealthEntry) : Canon π (repairRow m s e) := by
  unfold Machine.repairRow
  extract_lets healed _ _ _ _ s1 s2
  have h1 : Canon π s1 := h.withRest
  have h2 : Canon π s2 := foldl (fun _ _ h => .ite (fun _ => h) fun _ => h.setFrameByte _ _ _) _ h1
  clear_value s2
  exact h2.draw.errRecordAt _ _ _ _ _ _ _

theorem trainStack (h : Canon π s) (t : Training) (repair : Bool) (m : Nat) : Canon π (trainStack t repair s m) := by
  unfold Machine.trainStack
  extract_lets _ _ _ _ _ _ _ s1 _ s2 s3
  have h1 : Canon π s1 := h.setReg _ _
  have h2 : Canon π s2 := h1.setStack _ _
  have h3 : Canon π s3 := .ite (fun _ => h2.raiseEvent _) fun _ => h2
  clear_value s1 s2 s3
  exact .ite (fun _ => h3) fun _ => foldl (fun _ _ h => h.repairRow _ _) _ h3

/-! ### Dies (R572, R580) -/

/-- Canonical form of a table with a die's entries given anew. -/
theorem cwf_foldl_renew {α : Type} [DecidableEq α] {d : α} (k : Nat) (g : α → α) : ∀ (l : List Nat) {m : List (Nat × α)}, cwf d m = true →
    cwf d (l.foldl (fun m i => cset d m (k + i) (g (cget d m (k + i)))) m) = true
  | [], _, w => w
  | i :: l, _, w => cwf_foldl_renew k g l (cwf_cset (k + i) _ w)

theorem clearDie (h : Canon π s) (d : Nat) : Canon π (clearDie d s) := by
  unfold Machine.clearDie
  extract_lets s1 _ cl arrays
  have h1 : Canon π s1 := h.dropFramesOf _
  clear_value s1
  have hc : cwf {} cl = true :=
    cwf_foldl_renew (d * 64) (fun x : ClusterSt => { ownTarget := x.ownTarget, degraded := x.degraded, lastBorrower := none })
      (List.range 64) h1.clusters
  have ha : cwf {} arrays = true := cwf_foldl_renew (d * 512) (fun x : ArraySt => { trans := x.trans }) (List.range 512) h1.arrays
  clear_value cl arrays
  refine updPw (foldl (fun _ _ h => h.setStack _ _) _ ?_) _ _
  exact ⟨h1.waiting, h1.regs, h1.hbmBytes, h1.hostMem, h1.pages, h1.fns, h1.queues, h1.parts, cwf_cclear _ _ h1.banks,
    hc, ha, cwf_cclear _ _ h1.finals, cwf_cclear _ _ h1.spills⟩

theorem enterReduced (h : Canon π s) (d : Nat) : Canon π (enterReduced d s) := .ite (fun _ => h) fun _ => h.switchService _ _ _
theorem leaveReduced (h : Canon π s) (d : Nat) : Canon π (leaveReduced d s) := .ite (fun _ => h.switchService _ _ _) fun _ => h
theorem seekNom (h : Canon π s) (d : Nat) : Canon π (seekNom d s) := (h.updPw _ _).refreshPwd _
theorem setDies (h : Canon π s) (v : Nat) : Canon π (setDies v s) := foldl (fun _ _ h => .ite (fun _ => h) fun _ => h.setDieState _ _) _ h
theorem trainPorts (h : Canon π s) (d : Nat) : Canon π (trainPorts d s) :=
  foldl (fun _ _ h => .ite (fun _ => h) fun _ => h.leaveTo _ _) _ h

/-! ### Ready (R572 step 14, R574) -/

theorem becomeReady (h : Canon π s) : Canon π (becomeReady s) := by
  unfold Machine.becomeReady
  extract_lets _ _ s1 s2 s3 s4
  have h1 : Canon π s1 := h.withRest
  have h2 : Canon π s2 := ((h1.setStage _).setReady _).setRegN _ _
  have h3 : Canon π s3 := h2.setRfld _ _ _ _
  have h4 : Canon π s4 := h3.bootEvent _ _ _
  clear_value s1 s2 s3 s4
  exact .ite (fun _ => (h4.bump _ _).bootEvent _ _ _) fun _ => h4

theorem beginStep13 (h : Canon π s) : Canon π (beginStep13 s) := by
  unfold Machine.beginStep13
  extract_lets _ s1
  have h1 : Canon π s1 := (h.withBoot _).setStage _
  clear_value s1
  exact .ite (fun _ => h1) fun _ => becomeReady (.ite (fun _ => h1.refreshParent) fun _ => h1)

theorem alignStep (h : Canon π s) : Canon π (alignStep s) :=
  .ite (fun _ => h) fun _ => .ite (fun _ => h.becomeReady) fun _ => ((h.withRest.setRfld _ _ _ _).bootEvent _ _ _).becomeReady

end Canon
end Sys2Proof.Machine
end

section
/-! Canonical form: alignment of clocks. -/
namespace Sys2Proof.Machine
set_option Elab.async false
open Sys2Proof
namespace Canon
variable {π : List Instr} {s t : State}

theorem execTimeRequest (h : Canon π s) : Goes π (execTimeRequest s) := by
  unfold Machine.execTimeRequest
  refine .next ?_
  split
  · exact h
  · exact .ite (fun _ => h) fun _ => h.withRest.sendOneHop _ _

theorem receiveTime (h : Canon π s) (p msg : Nat) {go : Arrived → List Byte → State → State}
    (hgo : ∀ a b t, Canon π t → Canon π (go a b t)) : Canon π (receiveTime p msg s go) := by
  unfold Machine.receiveTime
  split
  · exact h
  · next hb => exact (h.takeArrived hb).receiveChecks _ fun _ _ h => hgo _ _ _ h

theorem execTimeRequestReceive (h : Canon π s) (p : Fin 24) : Goes π (execTimeRequestReceive p s) :=
  .next (h.receiveTime _ _ fun _ _ _ h => h.sendOneHop _ _)
theorem loseAlignment (h : Canon π s) : Canon π (loseAlignment s) :=
  (((((h.setRfld _ _ _ _).setRfld _ _ _ _).setRfld _ _ _ _).withWfn _).wefinEvent _ _ _ _ _).raiseAlarm _ _ _ _

theorem takeTheta (h : Canon π s) (theta : ℤ) (pd : Nat) : Canon π (takeTheta theta pd s) := by
  unfold Machine.takeTheta
  extract_lets _ _ s1 s2 _ _ s3 _ s4 s5 s6 s7
  have h1 : Canon π s1 := h.setRfld _ _ _ _
  have h2 : Canon π s2 := h1.setRfld _ _ _ _
  have h3 : Canon π s3 := h2.withWfn _
  have h4 : Canon π s4 := h3.withBoot _
  have h5 : Canon π s5 := (h4.setRfld _ _ _ _).setRfld _ _ _ _
  have h6 : Canon π s6 := by
    unfold s6
    refine .ite (fun _ => .ite (fun _ => h4.loseAlignment) fun _ => h4) fun _ => ?_
    exact .ite (fun _ => .ite (fun _ => h5) fun _ => h5.wefinEvent _ _ _ _ _) fun _ => h4
  have h7 : Canon π s7 := h6.alignStep
  exact h7.withWfn _

theorem execTimeResponseReceive (h : Canon π s) (p : Fin 24) : Goes π (execTimeResponseReceive p s) :=
  .next (h.receiveTime _ _ fun _ _ _ h => .ite (fun _ => (h.withWfn _).takeTheta _ _) fun _ => h)
theorem execAlignmentLost (h : Canon π s) : Goes π (execAlignmentLost s) := .next (.ite (fun _ => h.loseAlignment) fun _ => h)
theorem execAlignWaitExpire (h : Canon π s) : Goes π (execAlignWaitExpire s) := .next (.ite (fun _ => h.becomeReady) fun _ => h)

end Canon
end Sys2Proof.Machine
end

section
/-! Canonical form: banked table commands. -/
namespace Sys2Proof.Machine
set_option Elab.async false
open Sys2Proof
namespace Canon
variable {π : List Instr} {s t : State}

theorem execBankedShadowWrite (h : Canon π s) (w : ShadowWriter) : Goes π (execBankedShadowWrite w s) := by
  unfold Machine.execBankedShadowWrite
  refine .next ?_
  split
  · split
    · exact h
    · split
      · exact h.tblwrite _ _
      · exact h.groupMembers _ _
      · exact h.hbmRelease _ _
      · exact h.hbmMap _ _
      · exact h.hbmUnmap _ _
      · exact h
  · exact .ite (fun _ => h.finishPlan) fun _ => h

theorem execBankedCopyback (h : Canon π s) (t : BankedTable) : Goes π (execBankedCopyback t s) := by
  unfold Machine.execBankedCopyback
  refine .next ?_
  split
  · exact h.slotCopyback _ _ _
  · exact h.pageCopyback _
  · exact h.memberCopyback _

end Canon
end Sys2Proof.Machine
end

section
/-! Canonical form: resets and start-up. -/
namespace Sys2Proof.Machine
set_option Elab.async false
open Sys2Proof
namespace Canon
variable {π : List Instr} {s t : State}

/-! ### Power-on and cold reset (R571, R580, R596, R609, R616) -/

theorem cwf_foldl_cset {α : Type} [DecidableEq α] {d : α} : ∀ (l : List (Nat × α)) {m : List (Nat × α)}, cwf d m = true →
    cwf d (l.foldl (fun n p => cset d n p.1 p.2) m) = true
  | [], _, w => w
  | p :: l, _, w => cwf_foldl_cset l (cwf_cset p.1 p.2 w)

theorem cwf_resetRegs : cwf 0 resetRegs = true := by decide +kernel

theorem cwf_coldRegs (trip : Bool) (m : List (Nat × Word64)) : cwf 0 (coldRegs trip m) = true :=
  cwf_foldl_cset _ (cwf_filter _ cwf_resetRegs)

theorem coldState (h : Canon π s) (powerOn trip : Bool) : Canon π (coldState powerOn trip s) := by
  have hb : cwf 0 (if powerOn = true then [] else s.hbm.bytes.filter (fun p => keptByte p.1 p.2)) = true := by
    cases powerOn
    · exact cwf_filter _ h.hbmBytes
    · rfl
  unfold Machine.coldState
  dsimp only
  refine refreshLimits (setRfld (setRfld ?_ _ _ _ _) _ _ _ _)
  exact ⟨h.waiting, cwf_coldRegs _ _, hb, h.hostMem, rfl, rfl, rfl, rfl, rfl, rfl, rfl, rfl, rfl⟩

theorem execPowerOn (h : Canon π s) : Goes π (execPowerOn s) := .next (.ite (fun _ => h) fun _ => (h.coldState _ _).withPins _)
theorem execColdReset (h : Canon π s) : Goes π (execColdReset s) :=
  .next (.ite (fun _ => h) fun _ => .ite (fun _ => ((h.coldState _ _).setReg _ _).withRest) fun _ => h.coldState _ _)
theorem execPowerDown (h : Canon π s) (keepStby : Bool) : Goes π (execPowerDown keepStby s) :=
  .next (.ite (fun _ => h) fun _ => (h.coldState _ _).withRest)

/-! ### Bring-up, steps 2 to 7 (R572, R608, R613, R619) -/

theorem readStore (h : Canon π s) : Canon π (readStore s) := by
  unfold Machine.readStore
  extract_lets s1 s2 s3 s4
  have h1 : Canon π s1 := (h.countStartup.dropCleared _).takeTables _
  have h2 : Canon π s2 := foldl (fun _ _ h => (h.updPw _ _).refreshPwd _) _ h1
  have h3 : Canon π s3 := .ite (fun _ => h2.refreshLimits) fun _ => h2.applyLimits _
  have h4 : Canon π s4 := .ite (fun _ => h3) fun _ => h3.adoptPlan _
  clear_value s1 s2 s3 s4
  exact .ite (fun _ => (h4.withPower _).pwrEvent _ _ _) fun _ => h4

theorem bringUpHbm (h : Canon π s) (t : Training) : Canon π (bringUpHbm t s) := by
  unfold Machine.bringUpHbm
  extract_lets _ s1
  have h1 : Canon π s1 := foldl (fun _ _ h => h.trainStack _ _ _) _ (h.setStage _)
  clear_value s1
  split
  · exact h1.failBoot _ _
  · exact h1.setStage _

theorem trainWithVid (h : Canon π s) (t : Training) :
    Canon π (Machine.trainLinks t allLinks ((List.range 4).foldl (fun s d => Machine.seekNom d s)
      (Machine.setDies 1 (Machine.setStage 2 { s with pins := { s.pins with vidEn := true } })))) :=
  (foldl (fun _ d h => h.seekNom d) _ (((h.withPins _).setStage 2).setDies 1)).trainLinks t allLinks

theorem bringUpLinks (h : Canon π s) (t : Training) : Canon π (bringUpLinks t s) := by
  have h1 := h.trainWithVid t
  rw [Machine.bringUpLinks]
  generalize Machine.trainLinks t allLinks _ = y at h1 ⊢
  split
  · exact h1.failBoot _ _
  · exact h1.bringUpHbm _

theorem execBringUp (h : Canon π s) (straps : Fin 4) (hubOk : Bool) (t : Training) : Goes π (execBringUp straps hubOk t s) := by
  unfold Machine.execBringUp
  refine .next ?_
  refine .ite (fun _ => h) fun _ => ?_
  extract_lets _ _ _ s1 s2
  have h1 : Canon π s1 := h.withRest
  have h2 : Canon π s2 := (h1.setRfld _ _ _ _).setStage _
  clear_value s1 s2
  refine .ite (fun _ => h2.failBoot _ _) fun _ => ?_
  split
  · exact h2.failBoot _ _
  · exact h2.readStore.bringUpLinks _

/-! ### Steps 10 to 12 (R570 to R573, R576) -/

theorem takeHealth (h : Canon π s) : Canon π (takeHealth s) :=
  .ite (fun _ => h.withBoot _) fun _ => .ite (fun _ => h.withParts) fun _ => h.withParts.raiseAlarm _ _ _ _

theorem startBetony (h : Canon π s) (fw : Nat) : Canon π (startBetony fw s) := by
  unfold Machine.startBetony
  extract_lets s1 s2 s3
  have h1 : Canon π s1 := (h.setStage _).setRfld _ _ _ _
  have h2 : Canon π s2 := (h1.setRfld _ _ _ _).takeHealth
  have h3 : Canon π s3 := h2.auditAppend _ _
  clear_value s1 s2 s3
  exact refreshAlert (foldl (fun _ _ h => h.trainPorts _) _ h3)

theorem applyStep12 (h : Canon π s) : Canon π (applyStep12 s) := by
  unfold Machine.applyStep12
  extract_lets s1
  have h1 : Canon π s1 := setEngineCount (foldl (fun _ _ h => h.applyHealth _) _ (h.setStage _))
  clear_value s1
  exact (setDies (foldl (fun _ _ h => h.leaveReduced _) _ h1) _).beginStep13

theorem takeTests (h : Canon π s) (hubOk : Bool) (fails : List (Fin 4 × TestFail)) {done : State → State}
    (hdone : ∀ t, Canon π t → Canon π (done t)) : Canon π (takeTests hubOk fails s done) := by
  unfold Machine.takeTests
  extract_lets of s1
  have h1 : Canon π s1 := foldl (fun _ _ h => .ite (fun _ => h) fun _ => h.selfTestFailures _ _) _ ((h.setStage _).setDies _)
  clear_value s1
  refine .ite (fun _ => h1.failBoot _ _) fun _ => ?_
  split
  · exact h1.failBoot _ _
  · exact hdone _ h1

theorem selfTestStep (h : Canon π s) (hubOk : Bool) (fails : List (Fin 4 × TestFail)) : Canon π (selfTestStep hubOk fails s) :=
  .ite (fun _ => h.setStage _) fun _ => h.takeTests _ _ fun _ h => h.applyStep12

theorem execBootGo (h : Canon π s) (f : Func) (value : Word32) (fault hubOk : Bool) (fails : List (Fin 4 × TestFail)) :
    Goes π (execBootGo f value fault hubOk fails s) := by
  unfold Machine.execBootGo
  refine .next ?_
  refine h.guardedWrite _ _ _ _ fun _ _ _ h => ?_
  refine .ite (fun _ => h) fun _ => ?_
  extract_lets _ _ _ s2 s3 _ s4
  have h2 : Canon π s2 := h.setStage _
  have h3 : Canon π s3 := h2.paWrite _ _
  have h4 : Canon π s4 := h3.withBoot _
  clear_value s2 s3 s4
  exact .ite (fun _ => (h2.reportFailure _ _ _ _).setStage _) fun _ => (h4.startBetony _).selfTestStep _ _

theorem execCoolantWaitEnd (h : Canon π s) (hubOk : Bool) (fails : List (Fin 4 × TestFail)) : Goes π (execCoolantWaitEnd hubOk fails s) :=
  .next (.ite (fun _ => h.takeTests _ _ fun _ h => h.applyStep12) fun _ => h)

/-! ### Pins (R247, R283, R523, R610, R618) -/

theorem execCoolantOkChange (h : Canon π s) (level : Bool) : Goes π (execCoolantOkChange level s) :=
  .next (.ite (fun _ => h) fun _ => h.withPins _)

theorem execHostLinkUp (h : Canon π s) (degraded : Bool) : Goes π (execHostLinkUp degraded s) := by
  unfold Machine.execHostLinkUp
  refine .next ?_
  exact .ite (fun _ => h) fun _ => .ite (fun _ => (h.withParts.setRfld _ _ _ _).raiseAlarm _ _ _ _) fun _ => h.withParts.setRfld _ _ _ _

theorem quietPackage (h : Canon π s) : Canon π (quietPackage s) :=
  (withHost (foldl (fun _ _ h => .ite (fun _ => h) fun _ => h.leaveTo _ _) _ h) _).resetAllFunctions

theorem execPowerFailStop (h : Canon π s) : Goes π (execPowerFailStop s) := by
  unfold Machine.execPowerFailStop
  refine .next ?_
  extract_lets _ s1 s2 s3 s4 s5
  have h1 : Canon π s1 := h.withPins _
  have h2 : Canon π s2 := foldl (fun _ _ h => h.clearDie _) _ h1.quietPackage
  have h3 : Canon π s3 := foldl (fun _ _ h => (h.updPw _ _).refreshPwd _) _ h2
  have h4 : Canon π s4 := foldl (fun _ _ h => h.setDieState _ _) _ h3
  have h5 : Canon π s5 := (h4.setStage _).setReady _
  clear_value s2 s3 s4 s5
  exact .ite (fun _ => h1) fun _ => h5.withRest.refreshAlert

end Canon
end Sys2Proof.Machine
end

section
/-! Canonical form: synchronisation between packages. -/
namespace Sys2Proof.Machine
set_option Elab.async false
open Sys2Proof
namespace Canon
variable {π : List Instr} {s t : State}

/-! ### SYNC_REMOTE (R304) -/

theorem remoteOperation (h : Canon π s) (tenant o op v : Nat) : Canon π (remoteOperation tenant o op v s).2 := by
  unfold Machine.remoteOperation
  dsimp only
  split
  · next hb => exact ((((h.applySync _ _ _ _).snd hb).bump _ _).raiseEvent _).snd_mk
  · next hb => exact ((((h.applySync _ _ _ _).snd hb).bump _ _).raiseEvent _).snd_mk
  · next hb => exact ((h.applySync _ _ _ _).snd hb).snd_mk

theorem execSyncRemote (h : Canon π s) (q : Qn) (seq : Word64) : Goes π (execSyncRemote q seq s) := by
  unfold Machine.execSyncRemote
  refine .next ?_
  refine h.withFlight _ _ _ fun _ => ?_
  dsimp only
  refine .ite (fun _ => h) fun _ => ?_
  refine .ite (fun _ => h.endCommand _ _ _ _) fun _ => ?_
  refine .ite (fun _ => (h.remoteOperation _ _ _ _).endCommand _ _ _ _) fun _ => ?_
  split
  · exact h.endCommand _ _ _ _
  · exact h.endCommand _ _ _ _
  · next hb => exact ((h.inject _ _).unreachable hb).endCommand _ _ _ _
  · next hb => exact (((h.inject _ _).sent hb).updFlight _ _ _).withSyn _

theorem execSyncReqReceive (h : Canon π s) (p : Fin 24) : Goes π (execSyncReqReceive p s) := by
  unfold Machine.execSyncReqReceive
  refine .next ?_
  refine h.receivePacket _ _ fun _ _ _ h => ?_
  dsimp only
  split
  · next hb => exact ((h.remoteOperation _ _ _ _).inject _ _).sent hb
  · next hb => exact ((h.remoteOperation _ _ _ _).inject _ _).unreachable hb
  · exact h.remoteOperation _ _ _ _

theorem execSyncAnsReceive (h : Canon π s) (p : Fin 24) : Goes π (execSyncAnsReceive p s) := by
  unfold Machine.execSyncAnsReceive
  refine .next ?_
  refine h.receivePacket _ _ fun _ _ _ h => ?_
  dsimp only
  split
  · exact h
  · exact (h.withSyn _).endCommand _ _ _ _

theorem execSyncRemoteTimeout (h : Canon π s) (q : Qn) (seq : Word64) : Goes π (execSyncRemoteTimeout q seq s) := by
  unfold Machine.execSyncRemoteTimeout
  refine .next ?_
  split
  · exact h
  · exact .ite (fun _ => (h.withSyn _).endCommand _ _ _ _) fun _ => h

/-! ### The deadlock detector (R308, R309) -/

theorem execDeadlockReport (h : Canon π s) (die : Die) (p : Sys2Proof.Part) : Goes π (execDeadlockReport die p s) := by
  unfold Machine.execDeadlockReport
  refine .next ?_
  exact .ite (fun _ => h) fun _ => foldl (fun _ _ h => h.pushLog _) _ (((((h.setRegN _ _).setRegN _ _).bump _ _).withSyn _).raiseEvent _)

end Canon
end Sys2Proof.Machine
end

section
/-! Canonical form: fetch and dispatch. -/
namespace Sys2Proof.Machine
set_option Elab.async false
open Sys2Proof
namespace Canon
variable {π : List Instr} {s t : State}

/-! ### Dispatch -/

theorem bindFor (h : Canon π s) (q : Nat) (d : List Byte) (f : Flight) : Canon π (bindFor q d f s) := by
  unfold Machine.bindFor
  refine .ite (fun _ => h) fun _ => ?_
  exact .ite (fun _ => foldl (fun _ _ h => h.bindTable _ _ _) _ (h.bindTable _ _ _)) fun _ => h.bindTable _ _ _

theorem dispatchDesc (h : Canon π s) (q : Nat) (d : List Byte) (deferred : Bool) : Canon π (dispatchDesc q d deferred s) := by
  unfold Machine.dispatchDesc
  extract_lets _ _ _ _ _ _ _ s1 s2 s3 _ s4
  have h1 : Canon π s1 := h.withHost _
  have h2 : Canon π s2 := h1.setQueue _ _
  have h3 : Canon π s3 := .ite (fun _ => h2) fun _ => (h2.noteProgress _).pmcCount _ _ _ _
  have h4 : Canon π s4 := .ite (fun _ => h3) fun _ => (h3.bumpF _ _ _).raiseEvent _
  clear_value s1 s2 s3 s4
  exact .ite (fun _ => h3.bindFor _ _ _) fun _ => h4.endCommand _ _ _ _

/-! ### Arbitration (R256) -/

theorem takeTurn (h : Canon π s) (key q : Nat) : Canon π (takeTurn key q s) := h.withHost _

theorem dispatchMain (h : Canon π s) (q : Nat) (d : List Byte) : Canon π (dispatchMain q d s) := by
  unfold Machine.dispatchMain
  dsimp only
  split
  · exact (h.setQueue _ _).dispatchDesc _ _ _
  · exact ((h.setQueue _ _).dispatchDesc _ _ _).takeBad _

theorem execCommandDispatch (h : Canon π s) (die : Die) : Goes π (execCommandDispatch die s) := by
  unfold Machine.execCommandDispatch
  refine .next ?_
  split
  · split
    · exact (h.takeTurn _ _).dispatchMain _ _
    · exact h
  · split
    · exact h
    · split
      · exact (h.takeTurn _ _).dispatchMain _ _
      · exact h

theorem execDeferredDispatch (h : Canon π s) (die : Die) : Goes π (execDeferredDispatch die s) := by
  unfold Machine.execDeferredDispatch
  refine .next ?_
  split
  · exact h
  · split
    · exact h
    · exact ((((h.bump _ _).takeTurn _ _).setQueue _ _).dispatchDesc _ _ _).takeBad _

/-! ### Loans (R424 to R430) -/

theorem lendCluster (h : Canon π s) (q d seq c : Nat) : Canon π (lendCluster q d seq c s) := by
  unfold Machine.lendCluster
  dsimp only
  exact updClus (.ite (fun _ => h.sramZero _ _ _ _) fun _ => h) _ _ _

theorem execLoanGrant (h : Canon π s) (die : Die) : Goes π (execLoanGrant die s) := by
  unfold Machine.execLoanGrant
  refine .next ?_
  split
  · exact h
  · dsimp only
    split
    · exact h
    · exact bump (foldl (fun _ _ h => h.lendCluster _ _ _ _) _ ((h.setQueue _ _).withTrn _)) _ _

theorem execLoanEnd (h : Canon π s) (q : Qn) : Goes π (execLoanEnd q s) := by
  unfold Machine.execLoanEnd
  refine .next ?_
  split
  · exact h
  · refine .ite (fun _ => h) fun _ => ?_
    extract_lets s1 s2
    have h1 : Canon π s1 := foldl (fun _ _ h => h.updClus _ _ _) _ h
    have h2 : Canon π s2 := h1.stopUnitWork _ _ _
    clear_value s1 s2
    exact .ite (fun _ => h2) fun _ => h2.endAttempt _

end Canon
end Sys2Proof.Machine
end

section
/-! Canonical form: HBM events (R205 to R222). -/
namespace Sys2Proof.Machine
set_option Elab.async false
open Sys2Proof
namespace Canon
variable {π : List Instr} {s t : State}

/-! ### Accesses (R201) -/

theorem strikeBlock (h : Canon π s) (b : Nat) (es : List SymErr) : Canon π (strikeBlock b es s) := .ite (fun _ => h) fun _ => h.withHbm _
theorem killLine (h : Canon π s) (a : Nat) : Canon π (killLine a s) := h.withHbm _
theorem killCopies (h : Canon π s) (a : Nat) (both : Bool) : Canon π (killCopies a both s) :=
  .ite (fun _ => (h.killLine _).killLine _) fun _ => h.killLine _

theorem strikeLine (h : Canon π s) (l : LineFault) (rq : Req) (va : Nat) : Canon π (strikeLine l rq va s) := by
  unfold Machine.strikeLine
  split
  · exact h
  · split
    · exact h.killLine _
    · exact h
  · exact h
  · exact h.killCopies _ _
  · exact h.killCopies _ _
  · exact h.killCopies _ _
  · exact h.killCopies _ _

theorem strikeAccess (h : Canon π s) (strike : List SymErr) (l : LineFault) (rq : Req) (va : Nat) :
    Canon π (strikeAccess strike l rq va s) := by
  unfold Machine.strikeAccess
  refine strikeLine ?_ _ _ _
  split
  · exact h.strikeBlock _ _
  · exact h

theorem execHbmAccess (h : Canon π s) (q : Qn) (seq : Word64) (unit : Fin 8) (va : Word64) (what : HbmOp) (strike : List SymErr)
    (line : LineFault) : Goes π (execHbmAccess q seq unit va what strike line s) := by
  unfold Machine.execHbmAccess
  refine .next ?_
  split
  · exact h
  · refine .ite (fun _ => h) fun _ => ?_
    extract_lets _ s1 x2
    have h1 : Canon π s1 := h.strikeAccess _ _ _ _
    have h2 : Acc π x2 := by
      unfold x2
      split
      · exact h1.vaRead _ _ _
      · exact (h1.vaWrite _ _ _).bind fun _ _ h => .ret h
    clear_value s1 x2
    split
    · exact h2.withHbm _
    · exact (h2.recordFault _ _ _).failCommand _ _ _ _
    · exact h1.waitAtStack _

theorem execHbmCeWriteback (h : Canon π s) (m : Fin 16) : Goes π (execHbmCeWriteback m s) := by
  unfold Machine.execHbmCeWriteback
  refine .next ?_
  dsimp only
  split
  · exact h
  · exact ((h.setStack _ _).hbmPut _ _).withHbm _

/-! ### Refresh and scrubbing (R186, R207) -/

theorem execHbmRefresh (h : Canon π s) (m : Fin 16) : Goes π (execHbmRefresh m s) := .next (.ite (fun _ => h.setStack _ _) fun _ => h)

theorem execHbmScrub (h : Canon π s) (m : Fin 16) (strike : List SymErr) : Goes π (execHbmScrub m strike s) := by
  unfold Machine.execHbmScrub
  refine .next ?_
  refine .ite (fun _ => h) fun _ => ?_
  extract_lets _ _ s1 s2
  have h1 : Canon π s1 := h.setStack _ _
  have h2 : Canon π s2 := h1.strikeBlock _ _
  clear_value s1 s2
  refine .ite (fun _ => h1) fun _ => ?_
  refine .ite (fun _ => h2) fun _ => ?_
  split
  · exact h2
  · exact h2.correctBlock _ _ _
  · exact h2.loseBlock _ _

/-! ### Thermal throttle (R187, R220, R221) -/

theorem countThrottle (h : Canon π s) (m : Nat) : Canon π (countThrottle m s) := setStack (.ite (fun _ => h) fun _ => h.bump _ _) _ _

theorem setLevel (h : Canon π s) (m new : Nat) : Canon π (setLevel m new s) := by
  unfold Machine.setLevel
  extract_lets _ _ _ s1 s2 s3 s4
  have h1 : Canon π s1 := h.setStack _ _
  have h2 : Canon π s2 := h1.setRfld _ _ _ _
  have h3 : Canon π s3 := h2.errRecordAt _ _ _ _ _ _ _
  have h4 : Canon π s4 := h3.raiseEvent _
  clear_value s1 s2 s3 s4
  exact .ite (fun _ => h) fun _ => .ite (fun _ => h4.setStack _ _) fun _ => .ite (fun _ => (h4.setStack _ _).flushRings) fun _ => h4

theorem execStackTempRead (h : Canon π s) (m : Fin 16) (reading : Option Byte) : Goes π (execStackTempRead m reading s) := by
  unfold Machine.execStackTempRead
  refine .next ?_
  extract_lets s1 _ _ s2 s3
  have h1 : Canon π s1 := h.countThrottle _
  have h2 : Canon π s2 := h1.setStack _ _
  have h3 : Canon π s3 := h1.setStack _ _
  clear_value s1 s2 s3
  split
  · refine .ite (fun _ => h2) fun _ => ?_
    exact .ite (fun _ => h2) fun _ => (((h2.setRfld _ _ _ _).setRfld _ _ _ _).errRecordAt _ _ _ _ _ _ _).setLevel _ _
  · refine .ite (fun _ => ?_) fun _ => ((h3.setRfld _ _ _ _).setRfld _ _ _ _).setLevel _ _
    exact .ite (fun _ => h1.setStack _ _) fun _ =>
      ((((h1.setStack _ _).setRfld _ _ _ _).setRfld _ _ _ _).errRecordAt _ _ _ _ _ _ _).setLevel _ _

theorem execStackStalled (h : Canon π s) (m : Fin 16) : Goes π (execStackStalled m s) :=
  .next (.ite (fun _ => (h.setStack _ _).raiseEvent _) fun _ => h)

theorem failWait (h : Canon π s) (w : StackWait) : Canon π (failWait w s) := by
  unfold Machine.failWait
  split
  · exact (h.recordFault _ _ _).failStream _ _
  · split
    · exact h
    · extract_lets _ s1
      have h1 : Canon π s1 := h.recordFault _ _ _
      clear_value s1
      split
      · exact h1.failTile _ _ _
      · exact h1.failCommand _ _ _ _

theorem execStackStopAbort (h : Canon π s) (m : Fin 16) : Goes π (execStackStopAbort m s) :=
  .next (.ite (fun _ => raiseEvent (foldl (fun _ _ h => h.failWait _) _ ((h.setStack _ _).withHbm _)) _) fun _ => h)

end Canon
end Sys2Proof.Machine
end

section
/-! Canonical form: partitions. -/
namespace Sys2Proof.Machine
set_option Elab.async false
open Sys2Proof
namespace Canon
variable {π : List Instr} {s t : State}

theorem partAudit (h : Canon π s) (mcmd p tenant : Nat) : Canon π (partAudit mcmd p s tenant).2 := h.auditAppend _ _

/-! ### PARTITION_CREATE (R276) -/

theorem zeroAccounts (h : Canon π s) (p : Nat) : Canon π (zeroAccounts p s) := h.withPower _
theorem setPart (h : Canon π s) (p : Nat) (x : Partition) : Canon π (s.setPart p x) := { h with parts := cwf_cset _ _ h.parts }

theorem execPartitionCreate (h : Canon π s) (q : Qn) (seq : Word64) : Goes π (execPartitionCreate q seq s) := by
  unfold Machine.execPartitionCreate
  refine .next ?_
  refine h.withAdmin _ _ _ fun _ => ?_
  dsimp only
  refine .ite (fun _ => h.endCommand _ _ _ _) fun _ => ?_
  split
  · next hb => exact ((h.partAudit _ _ _).snd hb).endCommand _ _ _ _
  · next hb =>
      refine endCommand (withInteg (zeroAccounts (newRoots ?_ _) _) _) _ _ _ _
      exact (((h.partAudit _ _ _).snd hb).setPart _ _).setBank _ _

/-! ### PARTITION_DESTROY (R278) -/

theorem disableQueues (h : Canon π s) (p : Nat) : Canon π (disableQueues p s) :=
  foldl (fun _ _ h => (h.setQueue _ _).dropReaders _) _ (h.stopPartition _ _ _)
theorem closeStreams (h : Canon π s) (p : Nat) : Canon π (closeStreams p s) := foldl (fun _ _ h => h.endStreamIn _ _ _) _ h

theorem releaseBlocks (h : Canon π s) (p : Nat) : Canon π (releaseBlocks p s) := by
  unfold Machine.releaseBlocks
  extract_lets s1
  have h1 : Canon π s1 := foldl (fun _ _ h => .ite (fun _ => h.changeSynOwner _ _ _) fun _ => h) _ h
  clear_value s1
  exact foldl (fun _ _ h => .ite (fun _ => h.changeCgoOwner _ _) fun _ => h) _ h1

theorem releaseClusters (h : Canon π s) (p : Nat) : Canon π (releaseClusters p s) :=
  foldl (fun _ _ h => .ite (fun _ => h.aimOwner _ _ _) fun _ => h) _ h
theorem freeStages (h : Canon π s) (p : Nat) : Canon π (freeStages p s) :=
  foldl (fun _ _ h => .ite (fun _ => h.setStg _ _) fun _ => h) _ h

theorem erasePartition (h : Canon π s) (p : Nat) : Canon π (erasePartition p s) := by
  unfold Machine.erasePartition
  extract_lets _ s1 s2 frames s3 s4
  have h1 : Canon π s1 := { h with pages := cwf_cclear _ _ h.pages }
  clear_value s1
  have h2 : Canon π s2 := h1.setBank _ _
  clear_value s2
  have h3 : Canon π s3 := foldl (fun _ _ h => h.releaseFrame _) _ h2
  have h4 : Canon π s4 := foldl (fun _ _ h => h.withSyn _) _ h3
  exact h4.setPart _ _

theorem execPartitionDestroy (h : Canon π s) (q : Qn) (seq : Word64) : Goes π (execPartitionDestroy q seq s) := by
  unfold Machine.execPartitionDestroy
  refine .next ?_
  refine h.withAdmin _ _ _ fun _ => ?_
  dsimp only
  refine .ite (fun _ => ?_) fun _ => ?_
  · refine .ite (fun _ => h.endCommand _ _ _ _) fun _ => ?_
    split
    · next hb => exact ((h.partAudit _ _ _).snd hb).endCommand _ _ _ _
    · next hb =>
        have h1 := (h.partAudit _ _ _).snd hb
        exact (((((h1.updFlight _ _ _).disableQueues _).freeStages _).closeStreams _).releaseBlocks _).releaseClusters _
  · exact .ite (fun _ => h) fun _ => (h.erasePartition _).endCommand _ _ _ _

end Canon
end Sys2Proof.Machine
end

section
/-! Canonical form: warm resets and die resets. -/
namespace Sys2Proof.Machine
set_option Elab.async false
open Sys2Proof
namespace Canon
variable {π : List Instr} {s t : State}

/-! ### The warm reset (R581) -/

theorem shutQueue (h : Canon π s) (q : Nat) : Canon π (shutQueue q s) := (h.abortFlights _ _).setQueue _ _
theorem shutAdmin (h : Canon π s) (f : Nat) : Canon π (shutAdmin f s) :=
  .ite (fun _ => setRegF (.ite (fun _ => h) fun _ => h.disableQueue _) _ _ _) fun _ => .ite (fun _ => h) fun _ => h.disableQueue _

theorem beginWarm (h : Canon π s) (cause : Nat) : Canon π (beginWarm cause s) := by
  unfold Machine.beginWarm
  extract_lets s1 _ s2 s3 s4 s5
  have h1 : Canon π s1 := ((h.bootEvent _ _ _).setStage _).setReady _
  clear_value s1
  have h2 : Canon π s2 := h1.withBoot _
  clear_value s2
  have h3 : Canon π s3 := foldl (fun _ _ h => .ite (fun _ => h) fun _ => h.leaveTo _ _) _ h2
  clear_value s3
  have h4 : Canon π s4 := foldl (fun _ _ h => h.shutQueue _) _ h3
  clear_value s4
  have h5 : Canon π s5 := foldl (fun _ _ h => h.shutAdmin _) _ h4
  clear_value s5
  refine setRfld (setRfld (setDies (foldl (fun _ _ h => (h.clearDie _).enterReduced _) _ ?_) _) _ _ _ _) _ _ _ _
  exact ⟨h5.waiting, h5.regs, h5.hbmBytes, h5.hostMem, h5.pages, h5.fns, h5.queues, h5.parts, cwf_cclear _ _ h5.banks, h5.clusters,
    h5.arrays, h5.finals, h5.spills⟩

theorem warmRun (h : Canon π s) (fails : List (Fin 4 × TestFail)) : Canon π (warmRun fails s) := by
  unfold Machine.warmRun
  dsimp only
  split
  · next hb => exact ((h.imageOk.snd hb).setStage _).haltBetony
  · next hb => exact (((h.imageOk.snd hb).startBetony _).resolveJournal).takeTests _ _ fun _ h => h.applyStep12

theorem finishWarm (h : Canon π s) (t : Training) (ctxOk : Bool) (fails : List (Fin 4 × TestFail)) :
    Canon π (finishWarm t ctxOk fails s) := by
  unfold Machine.finishWarm
  refine .ite (fun _ => (h.coldState _ _).withPins _) fun _ => ?_
  extract_lets _ s1 _ s2 _ s3
  have h1 : Canon π s1 := ((h.countStartup.dropCleared _).takeTables _).setDies _
  have h2 : Canon π s2 := trainLinks (foldl (fun _ _ h => h.seekNom _) _ h1) _ _
  have h3 : Canon π s3 := foldl (fun _ _ h => h.trainStack _ _ _) _ h2
  clear_value s1 s2 s3
  split
  · exact h2.failBoot _ _
  · split
    · exact h3.failBoot _ _
    · exact h3.warmRun _

/-! ### The die reset (R582, R583) -/

theorem resetQueue (h : Canon π s) (q : Nat) : Canon π (resetQueue q s) :=
  .ite (fun _ => (h.abortFlights _ _).setQueue _ _) fun _ => ((h.abortFlights _ _).setQueue _ _).enterError _ _

theorem beginDie (h : Canon π s) (d : Nat) : Canon π (beginDie d s) := by
  unfold Machine.beginDie
  refine .ite (fun _ => h) fun _ => ?_
  extract_lets s1 s2 _ _ _ s3 s4 s5 s6
  have h1 : Canon π s1 := h.setDieState _ _
  have h2 : Canon π s2 := foldl (fun _ _ h => h.resetQueue _) _ h1
  have h3 : Canon π s3 := (h2.withSyn _).endAll _
  have h4 : Canon π s4 := foldl (fun _ _ h => h.collAbort _ _ _ _ _) _ h3
  have h5 : Canon π s5 := foldl (fun _ _ h => h.failStream _ _) _ h4
  have h6 : Canon π s6 := foldl (fun _ _ h => .ite (fun _ => h) fun _ => h.leaveTo _ _) _ h5
  exact (h6.clearDie _).enterReduced _

theorem finishDie (h : Canon π s) (d : Nat) (t : Training) (fails : List TestFail) : Canon π (finishDie d t fails s) := by
  unfold Machine.finishDie
  extract_lets _ _ _ s1 _ s2 s3 s4 s5 _ s6
  have h1 : Canon π s1 := (((h.bump _ _).countStartup).dropCleared _).takeTables _
  have h2 : Canon π s2 := foldl (fun _ _ h => h.trainStack _ _ _) _ ((h1.seekNom _).trainLinks _ _)
  have h3 : Canon π s3 := (h2.setDieState _ _).updateEngineCount _
  have h4 : Canon π s4 := ((h2.selfTestFailures _ _).applyHealth _).updateEngineCount _
  have h5 : Canon π s5 := ((h4.leaveReduced _).setDieState _ _).trainPorts _
  have h6 : Canon π s6 := h5.withTime _
  clear_value s1 s2 s3 s4 s5 s6
  exact .ite (fun _ => h3.bootEvent _ _ _) fun _ => h6.flushRings.bootEvent _ _ _

/-! ### Commands -/

theorem bootCtrlEffect (h : Canon π s) (new : Nat) : Canon π (bootCtrlEffect new s) := by
  unfold Machine.bootCtrlEffect
  refine .ite (fun _ => h.beginWarm _) fun _ => ?_
  exact .ite (fun _ => h) fun _ => foldl (fun _ _ h => .ite (fun _ => h.beginDie _) fun _ => h) _ h

theorem resetByWrite (h : Canon π s) (cause : ResetBy) : Canon π (resetByWrite cause s) := by
  unfold Machine.resetByWrite
  split
  · exact h.guardedWrite _ _ _ _ fun _ _ _ h => h.bootCtrlEffect _
  · exact h

theorem execWarmReset (h : Canon π s) (cause : ResetBy) (t : Training) (ctxOk : Bool) (fails : List (Fin 4 × TestFail)) :
    Goes π (execWarmReset cause t ctxOk fails s) :=
  .next (.ite (fun _ => (h.resetByWrite _).finishWarm _ _ _) fun _ => h.resetByWrite _)

theorem execDieReset (h : Canon π s) (die : Die) (cause : ResetBy) (t : Training) (fails : List TestFail) :
    Goes π (execDieReset die cause t fails s) := by
  unfold Machine.execDieReset
  refine .next ?_
  extract_lets s1 s2
  have h1 : Canon π s1 := h.resetByWrite _
  have h2 : Canon π s2 := .ite (fun _ => h1.beginDie _) fun _ => h1
  clear_value s1 s2
  exact .ite (fun _ => h2.finishDie _ _ _) fun _ => h2

theorem execRefclkLoss (h : Canon π s) : Goes π (execRefclkLoss s) := by
  unfold Machine.execRefclkLoss
  refine .next ?_
  refine .ite (fun _ => h) fun _ => ?_
  extract_lets _ s1 _ s2 s3 s4 _ s5 s6
  have h1 : Canon π s1 := (h.withTime _).bootEvent _ _ _
  have h2 : Canon π s2 := ((h1.setRfld _ _ _ _).setRfld _ _ _ _).setRfld _ _ _ _
  have h3 : Canon π s3 := h2.setRfld _ _ _ _
  have h4 : Canon π s4 := .ite (fun _ => h3.wefinEvent _ _ _ _ _) fun _ => h3
  have h5 : Canon π s5 := (h4.withWfn _).quietPackage
  have h6 : Canon π s6 := foldl (fun _ _ h => h.setStack _ _) _ h5
  clear_value s1 s2 s3 s4 s5 s6
  exact .ite (fun _ => h6) fun _ => ((h6.withBoot _).setStage _).setReady _

theorem execRefclkReturn (h : Canon π s) : Goes π (execRefclkReturn s) := by
  unfold Machine.execRefclkReturn
  refine .next ?_
  exact .ite (fun _ => h) fun _ => .ite (fun _ => ((h.withTime _).bootEvent _ _ _).beginWarm _) fun _ => (h.withTime _).bootEvent _ _ _

theorem sramLoss (h : Canon π s) (r : SramRegion) : Canon π (sramLoss r s) := by
  unfold Machine.sramLoss
  split
  · exact .ite (fun _ => h.beginWarm _) fun _ => h
  · exact .ite (fun _ => (h.withHbm _).loseLine _ _ _) fun _ => h.withHbm _
  · exact (h.setAlarm _ _).refreshAlert
  · exact .ite (fun _ => h) fun _ => (h.withMgt _).bump _ _
  · exact .ite (fun _ => h) fun _ => (h.withMgt _).bump _ _
  · exact .ite (fun _ => h.finishRole _ _) fun _ => h
  · exact .ite (fun _ => h.finishRole _ _) fun _ => h
  · exact withMgt (foldl (fun _ _ h => h.answerBusy _ _ _) _ (bump (foldl (fun _ _ h => h.setRegF _ _ _) _ h) _ _)) _

theorem execHubSramError (h : Canon π s) (what : SramRegion) : Goes π (execHubSramError what s) :=
  .next (.ite (fun _ => h) fun _ => (h.bootEvent _ _ _).sramLoss _)

end Canon
end Sys2Proof.Machine
end

section
/-! Canonical form: register writes as instructions. -/
namespace Sys2Proof.Machine
set_option Elab.async false
open Sys2Proof
namespace Canon
variable {π : List Instr} {s t : State}

/-! ### ZG_TOP_RSEL (R397) -/

theorem snapRegion (h : Canon π s) (new : Nat) : Canon π (snapRegion new s) := h.setRegN _ _
theorem execTopRegionSelect (h : Canon π s) (f : Func) (value : Word32) : Goes π (execTopRegionSelect f value s) :=
  .next (h.guardedWrite _ _ _ _ fun _ _ _ h => h.snapRegion _)

/-! ### What a write of a register does beside its fields -/

theorem dieWriteEffect (h : Canon π s) (d slot old new : Nat) : Canon π (dieWriteEffect d slot old new s) := by
  unfold Machine.dieWriteEffect
  dsimp only
  refine .ite (fun _ => h.aimOwners _ _ _ _) fun _ => ?_
  refine .ite (fun _ => h.setRfld _ _ _ _) fun _ => ?_
  refine .ite (fun _ => h.writeSynOwners _ _ _ _) fun _ => ?_
  refine .ite (fun _ => h.snapObject _ _) fun _ => ?_
  refine .ite (fun _ => h.snapGroup _ _) fun _ => ?_
  refine .ite (fun _ => h.testStart _ _ _) fun _ => ?_
  refine .ite (fun _ => (h.judgeLink _ _).judgeLink _ _) fun _ => ?_
  exact .ite (fun _ => h.refreshTable _) fun _ => .ite (fun _ => h.pmcPending _ _) fun _ => h

theorem writeEffect (h : Canon π s) (f slot old new : Nat) : Canon π (writeEffect f slot old new s) := by
  unfold Machine.writeEffect
  refine .ite (fun _ => h.dieWriteEffect _ _ _ _) fun _ => ?_
  refine .ite (fun _ => h.admCfgEffect _ _ _) fun _ => ?_
  refine .ite (fun _ => h.hqSnapshot _ _) fun _ => ?_
  refine .ite (fun _ => h.ringMailbox _) fun _ => ?_
  refine .ite (fun _ => h.creadClear _ _) fun _ => ?_
  refine .ite (fun _ => h.refreshAlert) fun _ => ?_
  refine .ite (fun _ => h.bootCtrlEffect _) fun _ => ?_
  exact .ite (fun _ => h.snapEnergy _) fun _ => .ite (fun _ => h.snapRegion _) fun _ => .ite (fun _ => h.writeCgoOwners _ _ _) fun _ => h

theorem applyWrite (h : Canon π s) (f off size value : Nat) : Canon π (applyWrite f off size value s) :=
  h.guardedWrite _ _ _ _ fun _ _ _ h => h.writeEffect _ _ _ _
theorem queueWrite (h : Canon π s) (f off size value : Nat) : Canon π (queueWrite f off size value s) :=
  .ite (fun _ => (h.setRegF _ _ _).bump _ _) fun _ => h.withMgt _

theorem execRegisterWrite (h : Canon π s) (f : Func) (off : BarOffset) (size : Fin 9) (value : Word64) :
    Goes π (execRegisterWrite f off size value s) := by
  unfold Machine.execRegisterWrite
  refine .next ?_
  refine .ite (fun _ => h) fun _ => ?_
  refine .ite (fun _ => h.bar2Write _ _ _ _) fun _ => ?_
  exact .ite (fun _ => h) fun _ => .ite (fun _ => (h.setShadow _ _).applyWrite _ _ _ _) fun _ => (h.setShadow _ _).queueWrite _ _ _ _

theorem execEmulatedWriteApply (h : Canon π s) : Goes π (execEmulatedWriteApply s) := by
  unfold Machine.execEmulatedWriteApply
  refine .next ?_
  split
  · exact h
  · exact .ite (fun _ => h) fun _ => ((h.withMgt _).applyWrite _ _ _ _).answerHeld

end Canon
end Sys2Proof.Machine
end

section
/-! Canonical form: the sideband. -/
namespace Sys2Proof.Machine
set_option Elab.async false
open Sys2Proof
namespace Canon
variable {π : List Instr} {s t : State}

theorem sbReply (h : Canon π s) (result : Nat) (data : List Byte) : Canon π (sbReply result data s) := h.withMgt _
theorem sbServed (h : Canon π s) {g : State} (hg : Canon π g) : Canon π (sbServed s g) := .ite (fun _ => hg) fun _ => h.sbReply _ _
theorem sbHeard (h : Canon π s) {g : State} (hg : Canon π g) : Canon π (sbHeard s g) := .ite (fun _ => hg) fun _ => h

theorem execI3cCcc (h : Canon π s) (ccc : Ccc) : Goes π (execI3cCcc ccc s) := by
  unfold Machine.execI3cCcc
  refine .next ?_
  refine h.sbHeard ?_
  dsimp only
  split
  · exact .ite (fun _ => h.withMgt _) fun _ => h
  · exact .ite (fun _ => h.withMgt _) fun _ => h
  · exact h.withMgt _
  · exact .ite (fun _ => h.withMgt _) fun _ => h
  · exact .ite (fun _ => h.withMgt _) fun _ => h
  · exact h.withMgt _
  · exact h.withMgt _
  · exact h.withMgt _
  · exact h.draw.withMgt _
  · exact h.withMgt _
  · exact h.withMgt _
  · exact h.withMgt _

theorem execSbStatus (h : Canon π s) : Goes π (execSbStatus s) := .next (h.sbHeard ((h.withMgt _).sbReply _ _))
theorem execSbAlarms (h : Canon π s) (slot : BitVec 16) : Goes π (execSbAlarms slot s) := .next (h.sbHeard (h.sbReply _ _))
theorem execSbCmdLoad (h : Canon π s) (off : BitVec 16) (data : List Byte) : Goes π (execSbCmdLoad off data s) :=
  .next (h.sbHeard (.ite (fun _ => h.sbReply _ _) fun _ => (h.withMgt _).sbReply _ _))

theorem execSbCmdExec (h : Canon π s) (len : BitVec 16) : Goes π (execSbCmdExec len s) := by
  unfold Machine.execSbCmdExec
  refine .next ?_
  exact h.sbHeard (.ite (fun _ => .ite (fun _ => h.sbReply _ _) fun _ => .ite (fun _ => h.sbReply _ _) fun _ => h.withParts.sbReply _ _)
    fun _ => h.sbServed (.ite (fun _ => h.sbReply _ _) fun _ => .ite (fun _ => h.sbReply _ _) fun _ => h.withParts.sbReply _ _))

theorem execSbCmdResult (h : Canon π s) (off : BitVec 16) : Goes π (execSbCmdResult off s) :=
  .next (h.sbHeard (h.sbServed (.ite (fun _ => h.sbReply _ _) fun _ => h.sbReply _ _)))

theorem execSbAuditRead (h : Canon π s) (aseq : Word64) : Goes π (execSbAuditRead aseq s) := by
  unfold Machine.execSbAuditRead
  refine .next (h.sbHeard (h.sbServed ?_))
  split
  · next hb => exact ((h.auditRecord _).snd hb).sbReply _ _
  · next hb => exact ((h.auditRecord _).snd hb).sbReply _ _

theorem execSbPlanRead (h : Canon π s) : Goes π (execSbPlanRead s) := .next (h.sbHeard (h.sbServed (h.sbReply _ _)))

end Canon
end Sys2Proof.Machine
end

section
/-! Canonical form: vector instructions. -/
namespace Sys2Proof.Machine
set_option Elab.async false
open Sys2Proof
namespace Canon
variable {π : List Instr} {s t : State}

/-! ### Control (R143, R144) -/

theorem execEndProg (h : Canon π s) (die : Die) (cl : Cluster) : Goes π (execEndProg die cl s) :=
  .next (h.vissue _ _ _ fun _ _ _ => trivial)

theorem execBr (h : Canon π s) (die : Die) (cl : Cluster) (target : BitVec 12) : Goes π (execBr die cl target s) := by
  unfold Machine.execBr
  refine .next ?_
  refine h.vissue _ _ _ fun _ _ _ => ?_
  split
  · exact trivial
  · exact h

theorem execBnz (h : Canon π s) (die : Die) (cl : Cluster) (xs : Fin 32) (target : BitVec 12) : Goes π (execBnz die cl xs target s) := by
  unfold Machine.execBnz
  refine .next ?_
  refine h.vissue _ _ _ fun _ _ _ => ?_
  split
  · exact trivial
  · exact h

theorem execLoop (h : Canon π s) (die : Die) (cl : Cluster) : Goes π (execLoop die cl s) := by
  unfold Machine.execLoop
  refine .next ?_
  refine h.vissue _ _ _ fun _ _ _ => ?_
  dsimp only
  split
  · exact trivial
  · split
    · exact h
    · exact h.setClus _ _ _

/-! ### Scalar (R143) -/

theorem execXaddi (h : Canon π s) (die : Die) (cl : Cluster) (xd xa : Fin 32) (imm : Word64) : Goes π (execXaddi die cl xd xa imm s) :=
  .next (h.vissue _ _ _ fun _ _ _ => h.vgo _ _ _)
theorem execXadd (h : Canon π s) (die : Die) (cl : Cluster) (xd xa xb : Fin 32) : Goes π (execXadd die cl xd xa xb s) :=
  .next (h.vissue _ _ _ fun _ _ _ => h.vgo _ _ _)
theorem execXsub (h : Canon π s) (die : Die) (cl : Cluster) (xd xa xb : Fin 32) : Goes π (execXsub die cl xd xa xb s) :=
  .next (h.vissue _ _ _ fun _ _ _ => h.vgo _ _ _)
theorem execXmul (h : Canon π s) (die : Die) (cl : Cluster) (xd xa xb : Fin 32) : Goes π (execXmul die cl xd xa xb s) :=
  .next (h.vissue _ _ _ fun _ _ _ => h.vgo _ _ _)
theorem execXshl (h : Canon π s) (die : Die) (cl : Cluster) (xd xa xb : Fin 32) : Goes π (execXshl die cl xd xa xb s) :=
  .next (h.vissue _ _ _ fun _ _ _ => h.vgo _ _ _)
theorem execXshr (h : Canon π s) (die : Die) (cl : Cluster) (xd xa xb : Fin 32) : Goes π (execXshr die cl xd xa xb s) :=
  .next (h.vissue _ _ _ fun _ _ _ => h.vgo _ _ _)
theorem execXli (h : Canon π s) (die : Die) (cl : Cluster) (xd : Fin 32) (imm : BitVec 48) : Goes π (execXli die cl xd imm s) :=
  .next (h.vissue _ _ _ fun _ _ _ => h.vgo _ _ _)

/-! ### Binary32 arithmetic (R145) -/

theorem execFadd (h : Canon π s) (die : Die) (cl : Cluster) : Goes π (execFadd die cl s) :=
  .next (h.vissue _ _ _ fun _ _ _ => h.vlanes _ _ _ _ _ _ _ _)
theorem execFmul (h : Canon π s) (die : Die) (cl : Cluster) : Goes π (execFmul die cl s) :=
  .next (h.vissue _ _ _ fun _ _ _ => h.vlanes _ _ _ _ _ _ _ _)
theorem execFma (h : Canon π s) (die : Die) (cl : Cluster) : Goes π (execFma die cl s) :=
  .next (h.vissue _ _ _ fun _ _ _ => h.vlanes _ _ _ _ _ _ _ _)
theorem execFmin (h : Canon π s) (die : Die) (cl : Cluster) : Goes π (execFmin die cl s) :=
  .next (h.vissue _ _ _ fun _ _ _ => h.vlanes _ _ _ _ _ _ _ _)
theorem execFmax (h : Canon π s) (die : Die) (cl : Cluster) : Goes π (execFmax die cl s) :=
  .next (h.vissue _ _ _ fun _ _ _ => h.vlanes _ _ _ _ _ _ _ _)
theorem execFabs (h : Canon π s) (die : Die) (cl : Cluster) : Goes π (execFabs die cl s) :=
  .next (h.vissue _ _ _ fun _ _ _ => h.vlanes _ _ _ _ _ _ _ _)
theorem execFneg (h : Canon π s) (die : Die) (cl : Cluster) : Goes π (execFneg die cl s) :=
  .next (h.vissue _ _ _ fun _ _ _ => h.vlanes _ _ _ _ _ _ _ _)
theorem execFcmp (h : Canon π s) (die : Die) (cl : Cluster) : Goes π (execFcmp die cl s) :=
  .next (h.vissue _ _ _ fun _ _ _ => h.vcompare _ _ _ _ _ _)

/-! ### INT32 and logic (R147) -/

theorem execIadd (h : Canon π s) (die : Die) (cl : Cluster) : Goes π (execIadd die cl s) :=
  .next (h.vissue _ _ _ fun _ _ _ => h.vlanes _ _ _ _ _ _ _ _)
theorem execIsub (h : Canon π s) (die : Die) (cl : Cluster) : Goes π (execIsub die cl s) :=
  .next (h.vissue _ _ _ fun _ _ _ => h.vlanes _ _ _ _ _ _ _ _)
theorem execImul (h : Canon π s) (die : Die) (cl : Cluster) : Goes π (execImul die cl s) :=
  .next (h.vissue _ _ _ fun _ _ _ => h.vlanes _ _ _ _ _ _ _ _)
theorem execIshl (h : Canon π s) (die : Die) (cl : Cluster) : Goes π (execIshl die cl s) :=
  .next (h.vissue _ _ _ fun _ _ _ => h.vlanes _ _ _ _ _ _ _ _)
theorem execIshr (h : Canon π s) (die : Die) (cl : Cluster) : Goes π (execIshr die cl s) :=
  .next (h.vissue _ _ _ fun _ _ _ => h.vlanes _ _ _ _ _ _ _ _)
theorem execIand (h : Canon π s) (die : Die) (cl : Cluster) : Goes π (execIand die cl s) :=
  .next (h.vissue _ _ _ fun _ _ _ => h.vlanes _ _ _ _ _ _ _ _)
theorem execIor (h : Canon π s) (die : Die) (cl : Cluster) : Goes π (execIor die cl s) :=
  .next (h.vissue _ _ _ fun _ _ _ => h.vlanes _ _ _ _ _ _ _ _)
theorem execIxor (h : Canon π s) (die : Die) (cl : Cluster) : Goes π (execIxor die cl s) :=
  .next (h.vissue _ _ _ fun _ _ _ => h.vlanes _ _ _ _ _ _ _ _)
theorem execImin (h : Canon π s) (die : Die) (cl : Cluster) : Goes π (execImin die cl s) :=
  .next (h.vissue _ _ _ fun _ _ _ => h.vlanes _ _ _ _ _ _ _ _)
theorem execImax (h : Canon π s) (die : Die) (cl : Cluster) : Goes π (execImax die cl s) :=
  .next (h.vissue _ _ _ fun _ _ _ => h.vlanes _ _ _ _ _ _ _ _)
theorem execIcmp (h : Canon π s) (die : Die) (cl : Cluster) : Goes π (execIcmp die cl s) :=
  .next (h.vissue _ _ _ fun _ _ _ => h.vcompare _ _ _ _ _ _)

/-! ### Converts (R60 to R64) -/

theorem execCvt (h : Canon π s) (die : Die) (cl : Cluster) : Goes π (execCvt die cl s) := by
  unfold Machine.execCvt
  refine .next ?_
  refine h.vissue _ _ _ fun _ _ _ => ?_
  dsimp only
  split
  · exact trivial
  · exact h.vgo _ _ _

theorem execCvtMx (h : Canon π s) (die : Die) (cl : Cluster) : Goes π (execCvtMx die cl s) := by
  unfold Machine.execCvtMx
  refine .next ?_
  refine h.vissue _ _ _ fun _ _ _ => ?_
  dsimp only
  split
  · exact trivial
  · exact h.vgo _ _ _

theorem execCvtUnmx (h : Canon π s) (die : Die) (cl : Cluster) : Goes π (execCvtUnmx die cl s) := by
  unfold Machine.execCvtUnmx
  refine .next ?_
  refine h.vissue _ _ _ fun _ _ _ => ?_
  dsimp only
  split
  · exact trivial
  · exact h.vgo _ _ _

theorem execSrld (h : Canon π s) (die : Die) (cl : Cluster) : Goes π (execSrld die cl s) := by
  unfold Machine.execSrld
  refine .next ?_
  refine h.vissue _ _ _ fun _ _ _ => ?_
  dsimp only
  split
  · exact trivial
  · split
    · exact trivial
    · split
      · next hb => exact (h.sramRead _ _ _ _ _ _).snd hb
      · next hb =>
          have h1 := (h.sramRead _ _ _ _ _ _).snd hb
          split
          · exact trivial
          · exact h1.updClus _ _ _

/-! ### Memory (R144) -/

theorem execVld (h : Canon π s) (die : Die) (cl : Cluster) : Goes π (execVld die cl s) := by
  unfold Machine.execVld
  refine .next ?_
  refine h.vissue _ _ _ fun _ _ _ => ?_
  dsimp only
  split
  · exact trivial
  · split
    · exact trivial
    · split
      · next hb => exact (h.sramRead _ _ _ _ _ _).snd hb
      · next hb => exact ((h.sramRead _ _ _ _ _ _).snd hb).updClus _ _ _

theorem execVst (h : Canon π s) (die : Die) (cl : Cluster) : Goes π (execVst die cl s) := by
  unfold Machine.execVst
  refine .next ?_
  refine h.vissue _ _ _ fun _ _ _ => ?_
  dsimp only
  split
  · exact trivial
  · split
    · exact trivial
    · exact h.sramPut _ _ _ _

theorem execVsplat (h : Canon π s) (die : Die) (cl : Cluster) (vd : Fin 64) (word : Word32) : Goes π (execVsplat die cl vd word s) :=
  .next (h.vissue _ _ _ fun _ _ _ => h.vgo _ _ _)

/-! ### Cross-lane (R143, R148) -/

theorem execVred (h : Canon π s) (die : Die) (cl : Cluster) : Goes π (execVred die cl s) := by
  unfold Machine.execVred
  refine .next ?_
  refine h.vissue _ _ _ fun _ _ _ => ?_
  dsimp only
  split
  · exact trivial
  · exact h.vgo _ _ _

theorem execVrot (h : Canon π s) (die : Die) (cl : Cluster) (vd va : Fin 64) (xb : Fin 32) : Goes π (execVrot die cl vd va xb s) :=
  .next (h.vissue _ _ _ fun _ _ _ => h.vgo _ _ _)

/-! ### Special functions (R146) -/

theorem execRcp (h : Canon π s) (die : Die) (cl : Cluster) : Goes π (execRcp die cl s) :=
  .next (h.vissue _ _ _ fun _ _ _ => h.vlanes _ _ _ _ _ _ _ _)
theorem execRsqrt (h : Canon π s) (die : Die) (cl : Cluster) : Goes π (execRsqrt die cl s) :=
  .next (h.vissue _ _ _ fun _ _ _ => h.vlanes _ _ _ _ _ _ _ _)
theorem execExp2 (h : Canon π s) (die : Die) (cl : Cluster) : Goes π (execExp2 die cl s) :=
  .next (h.vissue _ _ _ fun _ _ _ => h.vlanes _ _ _ _ _ _ _ _)
theorem execLog2 (h : Canon π s) (die : Die) (cl : Cluster) : Goes π (execLog2 die cl s) :=
  .next (h.vissue _ _ _ fun _ _ _ => h.vlanes _ _ _ _ _ _ _ _)

theorem execVstat (h : Canon π s) (die : Die) (cl : Cluster) : Goes π (execVstat die cl s) := by
  unfold Machine.execVstat
  refine .next ?_
  refine h.vissue _ _ _ fun _ _ _ => ?_
  split
  · exact trivial
  · exact h.vgo _ _ _

/-! ### The vector-program command (R142, R151, R152) -/

theorem startProg (h : Canon π s) (d c : Nat) (p : VProg) (args code : List Nat) : Canon π (startProg d c p args code s) :=
  h.updClus _ _ _

theorem execVectorProgram (h : Canon π s) (q : Qn) (seq : Word64) : Goes π (execVectorProgram q seq s) := by
  unfold Machine.execVectorProgram
  refine .next ?_
  refine h.withFlight _ _ _ fun _ => ?_
  dsimp only
  refine .ite (fun _ => h) fun _ => ?_
  refine .ite (fun _ => h.endCommand _ _ _ _) fun _ => ?_
  refine h.finishAcc _ _ _ (h.vaRead _ _ _) fun _ _ h2 => ?_
  split
  · next hb => exact .ite (fun _ => h) fun _ => foldl (fun _ _ h => h.startProg _ _ _ _ _) _ (h2.updFlight _ _ _)
  · next hb => exact ((h2.checkClusters _ _ _ _).snd hb).endCommand _ _ _ _

theorem execVprogMaxBeats (h : Canon π s) (die : Die) (cl : Cluster) : Goes π (execVprogMaxBeats die cl s) := by
  unfold Machine.execVprogMaxBeats
  refine .next ?_
  split
  · exact .ite (fun _ => h.vectorFault _ _ _ _ _) fun _ => h
  · exact h

end Canon
end Sys2Proof.Machine
end

section
/-! Canonical form: every instruction. -/
namespace Sys2Proof.Machine
set_option Elab.async false
open Sys2Proof
namespace Canon
variable {π : List Instr} {s t : State}

theorem exec (h : Canon π s) (i : Instr) : Goes π (exec i s) := by
  unfold Machine.exec
  split
  · exact h.execBeatWindowPublish _ _ _ _ _
  · exact h.execReplicaCorrection _
  · exact h.execRefclkLoss
  · exact h.execRefclkReturn
  · exact h.execServiceModeChange _
  · exact h.execEndProg _ _
  · exact h.execBr _ _ _
  · exact h.execBnz _ _ _ _
  · exact h.execLoop _ _
  · exact h.execXaddi _ _ _ _ _
  · exact h.execXadd _ _ _ _ _
  · exact h.execXsub _ _ _ _ _
  · exact h.execXmul _ _ _ _ _
  · exact h.execXshl _ _ _ _ _
  · exact h.execXshr _ _ _ _ _
  · exact h.execXli _ _ _ _
  · exact h.execFadd _ _
  · exact h.execFmul _ _
  · exact h.execFma _ _
  · exact h.execFmin _ _
  · exact h.execFmax _ _
  · exact h.execFabs _ _
  · exact h.execFneg _ _
  · exact h.execFcmp _ _
  · exact h.execIadd _ _
  · exact h.execIsub _ _
  · exact h.execImul _ _
  · exact h.execIshl _ _
  · exact h.execIshr _ _
  · exact h.execIand _ _
  · exact h.execIor _ _
  · exact h.execIxor _ _
  · exact h.execImin _ _
  · exact h.execImax _ _
  · exact h.execIcmp _ _
  · exact h.execCvt _ _
  · exact h.execCvtMx _ _
  · exact h.execCvtUnmx _ _
  · exact h.execSrld _ _
  · exact h.execVld _ _
  · exact h.execVst _ _
  · exact h.execVsplat _ _ _ _
  · exact h.execVred _ _
  · exact h.execVrot _ _ _ _ _
  · exact h.execRcp _ _
  · exact h.execRsqrt _ _
  · exact h.execExp2 _ _
  · exact h.execLog2 _ _
  · exact h.execVstat _ _
  · exact h.execTilePass _ _
  · exact h.execStationaryLoad _ _ _
  · exact h.execPassStart _ _ _
  · exact h.execArrayBeat _ _ _
  · exact h.execBankUnload _ _
  · exact h.execSpillWrite _ _
  · exact h.execTileComplete _ _
  · exact h.execResidueMismatch _ _ _ _ _
  · exact h.execRepeatDone _ _ _ _
  · exact h.execSubstitutedRunDone _ _ _ _
  · exact h.execSramCeWriteback _ _ _
  · exact h.execScrubRead _ _ _
  · exact h.execScrubStarvePriority _ _ _
  · exact h.execCluOwnerWrite _ _ _ _
  · exact h.execCluOwnerClear _ _
  · exact h.execCarveWrite _ _ _
  · exact h.execCarveTakeEffect _
  · exact h.execMove _ _
  · exact h.execMoveLoad _ _ _
  · exact h.execMoveStore _ _ _
  · exact h.execMoveCopy _ _ _
  · exact h.execMoveZero _ _ _
  · exact h.execMoveFence _ _ _ _
  · exact h.execVectorProgram _ _
  · exact h.execVprogMaxBeats _ _
  · exact h.execSort _ _
  · exact h.execBucket _ _
  · exact h.execGather _ _
  · exact h.execScatter _ _
  · exact h.execScatterAdd _ _
  · exact h.execSegreduce _ _
  · exact h.execUnion _ _
  · exact h.execIntersect _ _
  · exact h.execDiff _ _
  · exact h.execTbldef _ _
  · exact h.execTblwrite _ _
  · exact h.execTeaselFlip _ _
  · exact h.execBankedShadowWrite _
  · exact h.execBankedCopyback _
  · exact h.execHbmAccess _ _ _ _ _ _ _
  · exact h.execHbmCeWriteback _
  · exact h.execHbmRefresh _
  · exact h.execHbmScrub _ _
  · exact h.execStackTempRead _ _
  · exact h.execStackStalled _
  · exact h.execStackStopAbort _
  · exact h.execHbmAssign _ _
  · exact h.execHbmRelease _ _
  · exact h.execHbmMap _ _
  · exact h.execHbmUnmap _ _
  · exact h.execHbmFlip _ _
  · exact h.execD2dFrameSend _ _
  · exact h.execD2dFrameReceive _ _ _
  · exact h.execD2dReplayTimeout _ _
  · exact h.execStrandRetrain _ _
  · exact h.execStrandRetrainDone _ _ _ _
  · exact h.execStreamOpen _ _
  · exact h.execStreamRelease _ _
  · exact h.execStreamReleaseApply _ _
  · exact h.execStreamClose _ _
  · exact h.execStreamStall _ _ _
  · exact h.execStreamAbort _ _ _
  · exact h.execSqDoorbell _ _ _ _
  · exact h.execCqDoorbell _ _ _ _
  · exact h.execEventDoorbell _ _ _
  · exact h.execAdminSqDoorbell _ _ _
  · exact h.execAdminCqDoorbell _ _ _
  · exact h.execDescriptorFetch _ _ _ _
  · exact h.execSeqRefetch _ _
  · exact h.execCommandDispatch _
  · exact h.execIntHoldoffExpire _ _
  · exact h.execCqFullTimeout _
  · exact h.execNop _ _
  · exact h.execCopy _ _ _
  · exact h.execQueueCreate _ _
  · exact h.execQueueDestroy _ _
  · exact h.execQueueStop _ _
  · exact h.execQueueStart _ _
  · exact h.execPartitionCreate _ _
  · exact h.execPartitionDestroy _ _
  · exact h.execPartitionStop _ _
  · exact h.execEventRingSet _ _
  · exact h.execMbxDoorbell _ _
  · exact h.execMbxCommit _
  · exact h.execFlrVf _
  · exact h.execFlrPf
  · exact h.execHotReset
  · exact h.execBusMasterEnable _ _
  · exact h.execAdminEnable _ _
  · exact h.execAdminDisable _ _
  · exact h.execFunctionQuiesce _ _
  · exact h.execHqSelect _ _
  · exact h.execSyncSignal _ _
  · exact h.execSyncWait _ _
  · exact h.execSyncArriveWait _ _
  · exact h.execSyncConfig _ _
  · exact h.execSyncSave _ _
  · exact h.execSyncRestore _ _
  · exact h.execSyncRemote _ _
  · exact h.execSyncOpSet _ _ _ _
  · exact h.execSyncOpAdd _ _ _ _
  · exact h.execSyncOpSub _ _ _ _
  · exact h.execSyncOpMax _ _ _ _
  · exact h.execSyncOpArrive _ _ _ _
  · exact h.execSyncOpClearFail _ _ _ _
  · exact h.execSyncWaitTimeout _ _
  · exact h.execSynOwnerWrite _ _ _ _
  · exact h.execSyncReqReceive _
  · exact h.execSyncAnsReceive _
  · exact h.execSyncRemoteTimeout _ _
  · exact h.execDeadlockReport _ _
  · exact h.execGroupDefine _ _
  · exact h.execGroupMembers _ _
  · exact h.execGroupFlip _ _
  · exact h.execGroupReset _ _
  · exact h.execCgoOwnerWrite _ _ _
  · exact h.execReduceScatter _ _
  · exact h.execAllGather _ _
  · exact h.execQuick _ _
  · exact h.execCollChunkSend _
  · exact h.execCollChunkReceive _ _ _
  · exact h.execCollCreditReceive _ _
  · exact h.execCollAckReceive _ _
  · exact h.execCollAbortReceive _ _
  · exact h.execCollQuickReceive _ _
  · exact h.execCollResend _ _
  · exact h.execCollStall _ _ _
  · exact h.execCollAbortTimeout _ _ _
  · exact h.execWefinFlitSend _ _
  · exact h.execWefinFlitReceive _ _ _ _
  · exact h.execWefinAckIdle _
  · exact h.execWefinReplayTimeout _
  · exact h.execLaneLockLoss _ _
  · exact h.execPortRetrain _
  · exact h.execPortRetrainDone _ _
  · exact h.execPortTrained _
  · exact h.execHelloSend _
  · exact h.execHelloReceive _
  · exact h.execPacketForward _
  · exact h.execLsaFlood
  · exact h.execLsaReceive _
  · exact h.execRegionSettle _
  · exact h.execPlanForm
  · exact h.execControlReceive _
  · exact h.execCtrlStopPartition _
  · exact h.execCtrlQuiesce _
  · exact h.execCtrlResume _
  · exact h.execControlAnswerReceive _
  · exact h.execWefinControl _ _
  · exact h.execWefinControlTimeout _ _
  · exact h.execPortEnable _ _
  · exact h.execPortQuiesce _ _
  · exact h.execPortDisable _ _
  · exact h.execPortForceRetrain _ _
  · exact h.execTimeRequest
  · exact h.execTimeRequestReceive _
  · exact h.execTimeResponseReceive _
  · exact h.execAlignmentLost
  · exact h.execDropout _ _
  · exact h.execActStore _ _
  · exact h.execActLoad _ _
  · exact h.execStageSetBind _ _
  · exact h.execStageSetClear _ _
  · exact h.execStageSched _ _
  · exact h.execStageMark _ _
  · exact h.execDeferBegin _ _
  · exact h.execDeferDrain _ _
  · exact h.execDeferredDispatch _
  · exact h.execFillBegin _ _
  · exact h.execLoanGrant _
  · exact h.execLoanEnd _
  · exact h.execSrlUpdate _ _ _
  · exact h.execSrlRoot _ _
  · exact h.execSrlResume _
  · exact h.execSrlSliceEnd _
  · exact h.execSrlWaitEvent _ _
  · exact h.execChkScan _ _
  · exact h.execChkCompare _ _
  · exact h.execTwinDigest _ _
  · exact h.execProvenance _ _
  · exact h.execDigestReceive _
  · exact h.execTwinTimeout _ _
  · exact h.execTwinHoldExpire
  · exact h.execSelftestStart _ _ _
  · exact h.execSelftestDone _ _
  · exact h.execInjectArm _ _ _
  · exact h.execPowerSample _ _ _ _ _ _
  · exact h.execPaceWindow _
  · exact h.execGovernorLoop _
  · exact h.execArrayAdmit _
  · exact h.execArrayRelease _
  · exact h.execBallastUpdate _
  · exact h.execSensorConvert _ _
  · exact h.execThermalTrip _ _ _
  · exact h.execCoolantStop
  · exact h.execCoolantResume
  · exact h.execCoolantHoldAbort
  · exact h.execEnergyRead _ _
  · exact h.execPwrEsel _ _
  · exact h.execBetonyWatchdog _ _
  · exact h.execBetonyRestartDone
  · exact h.execEmuRead _ _ _
  · exact h.execEmuReadTimeout
  · exact h.execCounterRead _ _ _
  · exact h.execCreadClear _ _
  · exact h.execPmcSelect _ _ _ _
  · exact h.execPmcBoundary _
  · exact h.execLogRecordWrite
  · exact h.execTraceOccurrence _ _ _ _
  · exact h.execAlarmOccurrence _ _ _ _ _ _ _
  · exact h.execAlarmNoticeRepeat
  · exact h.execGetInfo
  · exact h.execAlarmClear
  · exact h.execPowerSet
  · exact h.execPartitionControl
  · exact h.execAuditRead
  · exact h.execPlanSet
  · exact h.execLimitsSet
  · exact h.execKeySet
  · exact h.execAuditTrim
  · exact h.execTestMode
  · exact h.execVtOverride
  · exact h.execHealthClear
  · exact h.execFuseProgram
  · exact h.execAuthLockExpire _
  · exact h.execAuditRefusalSummary _
  · exact h.execMgtLogRead _ _
  · exact h.execMgtTraceCfg _ _
  · exact h.execMgtTraceRead _ _
  · exact h.execMgtAlarmRead _ _
  · exact h.execMgtAuditRead _ _
  · exact h.execI3cCcc _
  · exact h.execSbStatus
  · exact h.execSbAlarms _
  · exact h.execSbCmdLoad _ _
  · exact h.execSbCmdExec _
  · exact h.execSbCmdResult _
  · exact h.execSbAuditRead _
  · exact h.execSbPlanRead
  · exact h.execPowerOn
  · exact h.execColdReset
  · exact h.execBringUp _ _ _
  · exact h.execBootGo _ _ _ _ _
  · exact h.execAlignWaitExpire
  · exact h.execCoolantWaitEnd _ _
  · exact h.execWarmReset _ _ _ _
  · exact h.execDieReset _ _ _ _
  · exact h.execHubSramError _
  · exact h.execPowerFailStop
  · exact h.execRegisterWrite _ _ _ _
  · exact h.execSynSelect _ _ _
  · exact h.execColSelect _ _ _
  · exact h.execTopRegionSelect _ _
  · exact h.execPowerDown _
  · exact h.execHostLinkUp _
  · exact h.execCoolantOkChange _
  · exact h.execEmulatedWriteApply

end Canon
end Sys2Proof.Machine
end

section
/-! Canonical form: every step. -/
namespace Sys2Proof.Machine
set_option Elab.async false
open Sys2Proof
namespace Canon
variable {π : List Instr} {s t : State}

theorem step (h : Canon π s) : Goes π.tail (step s) := by
  obtain rfl := h.waiting
  unfold Machine.step
  split
  · next hp => exact .next (hp ▸ h.tick)
  · next hp =>
      rw [hp]
      exact (h.withPending _).exec _

end Canon
end Sys2Proof.Machine
end

section
/-! Every step keeps the canonical form (log entry 3). -/
namespace Sys2Proof.Machine
set_option Elab.async false
open Sys2Proof

/-- Settles O59: each operation keeps `Canon`, `exec` runs one of them on the state without the front command, and `tick` runs where none
waits. -/
theorem everyStepKeepsTheStoresCanonical : Obligations.EveryStepKeepsTheStoresCanonical := by
  intro s t hs ht
  have h := (canon_iff.2 ⟨hs, rfl⟩).step
  rw [ht] at h
  exact canon_iff.1 h

end Sys2Proof.Machine
end

section
/-! The stacks: write-back, refresh, scrubbing, temperature levels and the long stop (08_hbm_memory.md R186, R187, R205 to R207, R220 to
R222). -/
namespace Sys2Proof.Machine
set_option Elab.async false
open Sys2Proof

/-! ### Levels (R220) -/

/-- The highest level whose entry threshold a reading reaches (R220). -/
def enteredLevel (s : State) (m t : Nat) : Nat := ([1, 2, 3].filter (fun l => decide (levelAt s m l ≤ t))).foldl max 0

theorem levelOf_zero (s : State) (m t : Nat) : levelOf s m t 0 = enteredLevel s m t := rfl

/-- A level ends 2 °C below its threshold, unless another is entered; the levels below it are then asked. -/
theorem levelOf_succ (s : State) (m t cur : Nat) : levelOf s m t (cur + 1) =
    if enteredLevel s m t < cur + 1 ∧ t + 2 ≤ levelEnd s m (cur + 1) then levelOf s m t cur
    else max (enteredLevel s m t) (cur + 1) := rfl

theorem enteredLevel_eq (s : State) (m t : Nat) : enteredLevel s m t =
    if levelAt s m 3 ≤ t then 3 else if levelAt s m 2 ≤ t then 2 else if levelAt s m 1 ≤ t then 1 else 0 := by
  unfold enteredLevel
  by_cases h1 : levelAt s m 1 ≤ t <;> by_cases h2 : levelAt s m 2 ≤ t <;> by_cases h3 : levelAt s m 3 ≤ t <;> simp [h1, h2, h3]

theorem enteredLevel_le (s : State) (m t : Nat) : enteredLevel s m t ≤ 3 := by
  rw [enteredLevel_eq]
  split_ifs <;> omega

theorem le_enteredLevel {s : State} {m t k : Nat} (h1 : 1 ≤ k) (h3 : k ≤ 3) (hk : levelAt s m k ≤ t) : k ≤ enteredLevel s m t := by
  rw [enteredLevel_eq]
  interval_cases k
  · split_ifs <;> omega
  · split_ifs <;> omega
  · rw [if_pos hk]

theorem levelAt_enteredLevel {s : State} {m t : Nat} (h : 1 ≤ enteredLevel s m t) : levelAt s m (enteredLevel s m t) ≤ t := by
  rw [enteredLevel_eq] at h ⊢
  split_ifs at h ⊢
  · assumption
  · assumption
  · assumption
  · omega

/-- The level of a reading is one of the four. -/
theorem levelOf_le (s : State) (m t : Nat) : ∀ cur ≤ 3, levelOf s m t cur ≤ 3
  | 0, _ => enteredLevel_le s m t
  | cur + 1, hc => by
    have he := enteredLevel_le s m t
    have ih := levelOf_le s m t cur (by omega)
    rw [levelOf_succ]
    split <;> omega

/-- A reading at the entry threshold of a level gives at least that level. -/
theorem le_levelOf_of_levelAt {s : State} {m t k : Nat} (h1 : 1 ≤ k) (h3 : k ≤ 3) (hk : levelAt s m k ≤ t) :
    ∀ cur, k ≤ levelOf s m t cur
  | 0 => le_enteredLevel h1 h3 hk
  | cur + 1 => by
    have he := le_enteredLevel h1 h3 hk
    have ih := le_levelOf_of_levelAt h1 h3 hk cur
    rw [levelOf_succ]
    split <;> omega

/-- A level that the stack is at, and that the reading does not end, stays. -/
theorem le_levelOf_of_levelEnd {s : State} {m t k : Nat} (hk : levelEnd s m k < t + 2) : ∀ cur, k ≤ cur → k ≤ levelOf s m t cur
  | 0, hc => by omega
  | cur + 1, hc => by
    rw [levelOf_succ]
    split
    · next hend =>
      have hne : k ≠ cur + 1 := by rintro rfl; omega
      exact le_levelOf_of_levelEnd hk cur (by omega)
    · omega

/-- A level above 0 has been entered, or the stack was at it and has not left it. -/
theorem levelOf_reason (s : State) (m t : Nat) : ∀ cur, 1 ≤ levelOf s m t cur →
    (∃ j, levelOf s m t cur ≤ j ∧ j ≤ 3 ∧ levelAt s m j ≤ t)
      ∨ (levelOf s m t cur ≤ cur ∧ levelEnd s m (levelOf s m t cur) < t + 2)
  | 0, h => .inl ⟨_, le_rfl, enteredLevel_le s m t, levelAt_enteredLevel h⟩
  | cur + 1, h => by
    have ih := levelOf_reason s m t cur
    rw [levelOf_succ] at h ⊢
    split at h
    · next hend =>
      rw [if_pos hend]
      exact (ih h).imp_right fun ⟨hl, he⟩ => ⟨by omega, he⟩
    · next hstay =>
      rw [if_neg hstay]
      by_cases hent : enteredLevel s m t < cur + 1
      · rw [max_eq_right (by omega)]
        exact .inr ⟨le_rfl, by omega⟩
      · rw [max_eq_left (by omega)]
        exact .inl ⟨_, le_rfl, enteredLevel_le s m t, levelAt_enteredLevel (by omega)⟩

/-- The levels of a reading, from a level `cur` (R220). -/
theorem levelOf_spec (s : State) (m t cur : Nat) (hcur : cur ≤ 3) :
    let l := levelOf s m t cur
    l ≤ 3 ∧ (95 ≤ t → l = 3) ∧ (∀ k, 1 ≤ k → k ≤ 3 → levelAt s m k ≤ t → k ≤ l)
      ∧ (∀ k, 1 ≤ k → k ≤ cur → levelEnd s m k < t + 2 → k ≤ l)
      ∧ (1 ≤ l → (∃ j, l ≤ j ∧ j ≤ 3 ∧ levelAt s m j ≤ t) ∨ (l ≤ cur ∧ levelEnd s m l < t + 2)) := by
  have hle := levelOf_le s m t cur hcur
  refine ⟨hle, fun ht => ?_, fun k h1 h3 hk => le_levelOf_of_levelAt h1 h3 hk cur, fun k _ hc hk => le_levelOf_of_levelEnd hk cur hc,
    levelOf_reason s m t cur⟩
  have h3 : levelAt s m 3 ≤ t := ht
  have := le_levelOf_of_levelAt (by omega) le_rfl h3 cur
  omega

/-! ### Write-back, refresh and scrubbing (R186, R205, R207) -/

theorem exec_hbmCeWriteback {m : Fin 16} {s : State} {b : Nat} {bs : List Nat} (hw : (s.stack m).writeBacks = b :: bs) :
    let s1 := s.setStack m { s.stack m with writeBacks := bs }
    let errs := cget [] s.hbm.errs b
    let good := match rsDecode errs with
      | .corrected fix => overlay (s.hbmBytes (b * 64) 64) (rsAdd errs fix)
      | _ => s.hbmBytes (b * 64) 64
    let s2 := s1.hbmPut (b * 64) good
    exec (.hbmCeWriteback m) s = .next { s2 with hbm := { s2.hbm with errs := cset [] s.hbm.errs b [] } } := by
  show execHbmCeWriteback m s = _
  unfold execHbmCeWriteback
  dsimp only
  rw [hw]
  rfl

theorem exec_hbmRefresh {m : Fin 16} {s : State}
    (hdue : (s.stack m).refreshAt + (if 85 ≤ s.rfld (stackReg m) 47 40 then Config.refreshNs / 2 else Config.refreshNs) ≤ s.now) :
    exec (.hbmRefresh m) s = .next (s.setStack m { s.stack m with refreshAt := s.now }) := by
  show execHbmRefresh m s = _
  unfold execHbmRefresh
  simp only [decide_eq_true_eq]
  rw [if_pos hdue]

theorem errs_setStack (s : State) (m : Nat) (x : Stack) : (s.setStack m x).hbm.errs = s.hbm.errs := rfl

theorem present_setStack (s : State) (m : Nat) (x : Stack) (pa : Nat) : (s.setStack m x).present pa = s.present pa := rfl

theorem strikeBlock_nil (b : Nat) (s : State) : strikeBlock b [] s = s := rfl

theorem exec_hbmScrub_clean {m : Fin 16} {s : State} (hen : s.rfld (ZG_HBM_SCRUB (m / 4)) 16 16 = 1)
    (hc : cget [] s.hbm.errs (paOf m ((s.stack m).scrubLoc % 64) ((s.stack m).scrubLoc / 64) / 64) = []) :
    exec (.hbmScrub m []) s = .next (s.setStack m { s.stack m with scrubLoc := ((s.stack m).scrubLoc + 1) % 2 ^ 30 }) := by
  show execHbmScrub m [] s = _
  unfold execHbmScrub
  simp only [strikeBlock_nil]
  rw [if_neg (by omega)]
  split
  · rfl
  · exact congrArg Host.Outcome.next (if_pos hc)

theorem exec_hbmScrub_corrected {m : Fin 16} {s : State} {fix : List (Nat × Nat)}
    (hen : s.rfld (ZG_HBM_SCRUB (m / 4)) 16 16 = 1)
    (hp : s.present (paOf m ((s.stack m).scrubLoc % 64) ((s.stack m).scrubLoc / 64)) = true)
    (he : cget [] s.hbm.errs (paOf m ((s.stack m).scrubLoc % 64) ((s.stack m).scrubLoc / 64) / 64) ≠ [])
    (hf : rsDecode (cget [] s.hbm.errs (paOf m ((s.stack m).scrubLoc % 64) ((s.stack m).scrubLoc / 64) / 64)) = .corrected fix) :
    exec (.hbmScrub m []) s = .next (correctBlock 1 (paOf m ((s.stack m).scrubLoc % 64) ((s.stack m).scrubLoc / 64)) fix
      (s.setStack m { s.stack m with scrubLoc := ((s.stack m).scrubLoc + 1) % 2 ^ 30 })) := by
  show execHbmScrub m [] s = _
  unfold execHbmScrub
  simp only [strikeBlock_nil]
  rw [if_neg (by omega), if_neg (by simp [present_setStack, hp])]
  exact congrArg Host.Outcome.next ((if_neg he).trans (by rw [errs_setStack, hf]; rfl))

theorem exec_stackTempRead {m : Fin 16} {s : State} {t : Byte} (ht : t.toNat ≤ 125) :
    let s1 := (((countThrottle m s).setStack m { (countThrottle m s).stack m with failedReads := 0 }).setRfld
      (stackReg m) 37 37 0).setRfld (stackReg m) 47 40 t.toNat
    exec (.stackTempRead m (some t)) s = .next (setLevel m (levelOf s1 m t.toNat (s1.rfld (stackReg m) 39 38)) s1) := by
  show execStackTempRead m (some t) s = _
  unfold execStackTempRead
  dsimp only
  rw [if_neg (by omega)]

/-! ### A long stop (R220, R222) -/

theorem exec_stackStalled {m : Fin 16} {s : State} (hl : s.rfld (stackReg m) 39 38 = 3) (hr : (s.stack m).stalledRaised = false)
    (ht : (s.stack m).stoppedAt + 100000 ≤ s.now) :
    exec (.stackStalled m) s = .next (raiseEvent
      { cls := 5, code := 4, src := m / 4, log := false, data := m + s.rfld (stackReg m) 47 40 * 64 }
      (s.setStack m { s.stack m with stalledRaised := true })) := by
  show execStackStalled m s = _
  unfold execStackStalled
  dsimp only
  rw [if_pos ⟨hl, hr, ht⟩]

theorem exec_stackStopAbort {m : Fin 16} {s : State} (hl : s.rfld (stackReg m) 39 38 = 3) (ha : (s.stack m).aborting = false)
    (hms : s.rfld (ZG_HBM_CTRL (m / 4)) 31 16 ≠ 0)
    (ht : (s.stack m).stoppedAt + s.rfld (ZG_HBM_CTRL (m / 4)) 31 16 * 1000000 ≤ s.now) :
    let ws := s.hbm.waits.filter (fun w => w.stack == m.val)
    let s1 := s.setStack m { s.stack m with aborting := true }
    let s2 := { s1 with hbm := { s1.hbm with waits := s.hbm.waits.filter (fun w => w.stack != m.val) } }
    let n := (ws.map (fun w => (w.queue, w.seq))).eraseDups.length
    exec (.stackStopAbort m) s = .next (raiseEvent
      { cls := 5, code := 6, src := m / 4, alarm := 2, log := false, data := m + n * 65536 }
      (ws.foldl (fun t w => failWait w t) s2)) := by
  show execStackStopAbort m s = _
  unfold execStackStopAbort
  dsimp only
  rw [if_pos ⟨hl, ha, hms, ht⟩]
  rfl

/-- Settles O33: each event's effect is the lemma of its name, and the levels are `levelOf_spec`. -/
theorem stacksRefreshScrubAndThrottle : Obligations.StacksRefreshScrubAndThrottle := by
  intro m s
  exact ⟨fun _ _ hw => exec_hbmCeWriteback hw, exec_hbmRefresh, exec_hbmScrub_clean, fun _ => exec_hbmScrub_corrected,
    fun _ => exec_stackTempRead, fun t cur hcur _ => levelOf_spec s m t cur hcur, exec_stackStalled, exec_stackStopAbort⟩

end Sys2Proof.Machine
end

section
namespace Sys2Proof.Machine
set_option Elab.async false

/-! ### Page tables: what an entry reads as after a change (R193 to R195) -/

/-- An entry's key says which entry it is, for levels and VA bits in range. -/
theorem ptKey_inj {p b l i p' b' l' i' : Nat} (hb : b < 2) (hl : l < 4) (hi : i < 2 ^ 32) (hb' : b' < 2) (hl' : l' < 4)
    (hi' : i' < 2 ^ 32) (h : ptKey p b l i = ptKey p' b' l' i') : p = p' ∧ b = b' ∧ l = l' ∧ i = i' := by
  simp only [ptKey] at h
  omega

theorem ptEntry_setPt_self {s : State} (hs : cwf 0 s.hbm.pt = true) (part bank level idx v : Nat) :
    (s.setPt part bank level idx v).ptEntry part bank level idx = v := by
  simp [State.ptEntry, State.setPt, cget_cset hs]

theorem ptEntry_setPt_ne {s : State} (hs : cwf 0 s.hbm.pt = true) {part bank level idx v p b l i : Nat}
    (h : ptKey p b l i ≠ ptKey part bank level idx) :
    (s.setPt part bank level idx v).ptEntry p b l i = s.ptEntry p b l i := by
  simp [State.ptEntry, State.setPt, cget_cset hs, h]

theorem ptEntry_freeTable {s : State} (hs : cwf 0 s.hbm.pt = true) {part bank idx p b l i : Nat}
    (h : ptKey p b l i < ptKey part bank 3 (idx * 32) ∨ ptKey part bank 3 (idx * 32) + 32 ≤ ptKey p b l i) :
    (freeTable part bank idx s).ptEntry p b l i = s.ptEntry p b l i := by
  simp only [State.ptEntry, freeTable, cclear]
  exact cget_filter_of_cwf (fun _ => by simpa using h) hs

/-- A change of the page tables that leaves alone every entry but those of one bank of one partition, the frame table, and the
canonical form. -/
structure PtOnly (part bank : Nat) (s t : State) : Prop where
  canon : cwf 0 t.hbm.pt = true
  frame : ∀ pa, t.frameByte pa = s.frameByte pa
  other : ∀ p b l i, (p ≠ part ∨ b ≠ bank) → b < 2 → l < 4 → i < 2 ^ 32 → t.ptEntry p b l i = s.ptEntry p b l i

theorem PtOnly.trans {part bank : Nat} {s t u : State} (h : PtOnly part bank s t) (k : PtOnly part bank t u) :
    PtOnly part bank s u where
  canon := k.canon
  frame pa := (k.frame pa).trans (h.frame pa)
  other p b l i hp hb hl hi := (k.other p b l i hp hb hl hi).trans (h.other p b l i hp hb hl hi)

theorem PtOnly.refl {part bank : Nat} {s : State} (hs : cwf 0 s.hbm.pt = true) : PtOnly part bank s s :=
  ⟨hs, fun _ => rfl, fun _ _ _ _ _ _ _ _ => rfl⟩

theorem ptOnly_setPt {s : State} (hs : cwf 0 s.hbm.pt = true) {part bank level idx v : Nat} (hb : bank < 2) (hl : level < 4)
    (hi : idx < 2 ^ 32) : PtOnly part bank s (s.setPt part bank level idx v) where
  canon := cwf_cset _ _ hs
  frame _ := rfl
  other p b l i hp hb' hl' hi' := ptEntry_setPt_ne hs fun h => by
    obtain ⟨hpp, hbb, -, -⟩ := ptKey_inj hb' hl' hi' hb hl hi h
    omega

theorem ptOnly_freeTable {s : State} (hs : cwf 0 s.hbm.pt = true) {part bank idx : Nat} (hb : bank < 2)
    (hi : idx * 32 + 32 ≤ 2 ^ 32) : PtOnly part bank s (freeTable part bank idx s) where
  canon := cwf_cclear _ _ hs
  frame _ := rfl
  other p b l i hp hb' hl' hi' := ptEntry_freeTable hs (by simp only [ptKey]; omega)

/-! ### Where a new table is placed (R190, R195) -/

/-- The address of a table of `size` bytes: aligned, and below the end of HBM. -/
def TableAt (size a : Nat) : Prop := a < 2 ^ 40 ∧ a % size = 0

theorem tableAt_poolBase {size d k : Nat} (hsize : size = 4096 ∨ size = 256) (hd : d < 4) (hk : k < 0x8000000 / size) :
    TableAt size (poolBase d + k * size) := by
  rcases hsize with rfl | rfl <;> simp only [TableAt, poolBase, reservedBase] <;> omega

theorem tableAt_poolPlace {size d : Nat} (hsize : size = 4096 ∨ size = 256) (hd : d < 4) (used : List (Nat × Nat)) :
    ∀ (n i : Nat) {a : Nat}, poolPlace used d size n i = some a → TableAt size a
  | 0, _, _, h => by simp [poolPlace] at h
  | n + 1, i, a, h => by
    simp only [poolPlace] at h
    split at h
    · exact tableAt_poolPlace hsize hd used n (i + 1) h
    · cases h
      exact tableAt_poolBase hsize hd (Nat.mod_lt _ (by rcases hsize with rfl | rfl <;> decide))

theorem tableAt_newTable {size : Nat} (hsize : size = 4096 ∨ size = 256) (part : Nat) (s : State) :
    TableAt size (newTable part size s).1 := by
  have hmod (k : Nat) : k % 4 < 4 := Nat.mod_lt _ (by decide)
  simp only [newTable]
  generalize hp : List.findSome? _ [0, 1, 2, 3] = place
  cases place with
  | some a =>
    obtain ⟨k, -, hk⟩ := List.exists_of_findSome?_eq_some hp
    exact tableAt_poolPlace hsize (hmod _) _ _ _ hk
  | none => simpa using tableAt_poolBase (k := 0) hsize (hmod part) (by rcases hsize with rfl | rfl <;> decide)

/-! ### What a valid entry must look like to be followed (R194) -/

/-- A level-1 entry that points to a level-2 table. -/
def Points1 (e : Nat) : Prop := e % 2 = 1 ∧ bitsOf e 63 40 = 0 ∧ bitsOf e 11 1 = 0

/-- A level-2 entry that points to a level-3 table. -/
def Points2 (e : Nat) : Prop := e % 2 = 1 ∧ bitsOf e 63 40 = 0 ∧ bitsOf e 7 3 = 0 ∧ bitOf e 1 = false

theorem bitOf_one (e : Nat) : bitOf e 1 = decide (e / 2 % 2 = 1) := by
  simp [bitOf, Nat.testBit_eq_decide_div_mod_eq]

theorem bitOf_two (e : Nat) : bitOf e 2 = decide (e / 4 % 2 = 1) := by
  simp [bitOf, Nat.testBit_eq_decide_div_mod_eq]

theorem points1_of_tableAt {a : Nat} (h : TableAt 4096 a) : Points1 (a + 1) := by
  obtain ⟨hlt, hal⟩ := h
  simp only [Points1, bitsOf]
  omega

theorem points2_of_tableAt {a : Nat} (h : TableAt 256 a) : Points2 (a + 1) := by
  obtain ⟨hlt, hal⟩ := h
  simp only [Points2, bitsOf, bitOf_one, decide_eq_false_iff_not]
  omega

/-- Bit 2 of a leaf is its W. -/
theorem bitOf_two_leaf {pa k : Nat} (w : Bool) (hpa : pa % 8 = 0) (hk : k < 4) : bitOf (pa + b2n w * 4 + k) 2 = w := by
  rw [bitOf_two]
  cases w <;> simp [b2n] <;> omega

/-! ### The table that an entry points to (R195) -/

theorem ptOnly_needTable {s : State} (hs : cwf 0 s.hbm.pt = true) {part bank level idx size : Nat} (hb : bank < 2)
    (hl : level < 4) (hi : idx < 2 ^ 32) : PtOnly part bank s (needTable part bank level idx size s) := by
  simp only [needTable]
  split
  · exact .refl hs
  · have hdraw : PtOnly part bank s (newTable part size s).2 := ⟨hs, fun _ => rfl, fun _ _ _ _ _ _ _ _ => rfl⟩
    exact hdraw.trans (ptOnly_setPt hdraw.canon hb hl hi)

/-- Afterwards the entry is the valid one that stood there, or points to a new table. -/
theorem needTable_entry {s : State} (hs : cwf 0 s.hbm.pt = true) {part bank level idx size : Nat}
    (hsize : size = 4096 ∨ size = 256) {P : Nat → Prop}
    (hold : s.ptEntry part bank level idx % 2 = 1 → P (s.ptEntry part bank level idx))
    (hnew : ∀ a, TableAt size a → P (a + 1)) : P ((needTable part bank level idx size s).ptEntry part bank level idx) := by
  simp only [needTable]
  split
  · exact hold ‹_›
  · rw [ptEntry_setPt_self (s := (newTable part size s).2) hs]
    exact hnew _ (tableAt_newTable hsize part s)

theorem needTable_entry_ne {s : State} (hs : cwf 0 s.hbm.pt = true) {part bank level idx size l i : Nat}
    (h : ptKey part bank l i ≠ ptKey part bank level idx) :
    (needTable part bank level idx size s).ptEntry part bank l i = s.ptEntry part bank l i := by
  simp only [needTable]
  split
  · rfl
  · exact ptEntry_setPt_ne (s := (newTable part size s).2) hs h

/-! ### The walk, from the entries it meets (R193, R194, R196) -/

theorem walk_of_leaf {s : State} {part bank va pa : Nat} {w : Bool} (h : walkLeaf s part bank va = .ok pa w)
    (ha : s.frameByte pa / 128 = 1) (hp : s.frameByte pa % 64 = part) : walk s part bank va = .ok pa w := by
  simp [walk, h, walkFrame, ha, hp]

theorem walk_of_page {s : State} {part bank va : Nat} (h : walkLeaf s part bank va = .page) : walk s part bank va = .page := by
  simp [walk, h]

/-- The walk of one bank sees only that bank's entries and the frame table. -/
theorem walk_ptOnly {s t : State} {part bank p b : Nat} (h : PtOnly part bank s t) (hp : p ≠ part ∨ b ≠ bank) (hb : b < 2)
    (v : Nat) : walk t p b v = walk s p b v := by
  have hleaf : walkLeaf t p b v = walkLeaf s p b v := by
    by_cases hv : 0x20000000000 ≤ v
    · simp only [walkLeaf, if_pos hv]
    · simp only [walkLeaf, if_neg hv]
      rw [h.other p b 1 _ hp hb (by decide) (by omega), h.other p b 2 _ hp hb (by decide) (by omega),
        h.other p b 3 _ hp hb (by decide) (by omega)]
  simp only [walk, hleaf, walkFrame, h.frame]

/-- A region without a valid level-2 entry does not translate. -/
theorem walkLeaf_none2 {s : State} {part bank va : Nat} (h : s.ptEntry part bank 2 (va / 0x200000) % 2 = 0) :
    walkLeaf s part bank va = .page := by
  simp [walkLeaf, h]

/-- A 64 KiB page without a valid level-3 entry, in a region that is not a 2 MiB leaf, does not translate. -/
theorem walkLeaf_none3 {s : State} {part bank va : Nat} (h2 : bitOf (s.ptEntry part bank 2 (va / 0x200000)) 1 = false)
    (h : s.ptEntry part bank 3 (va / 0x10000) % 2 = 0) : walkLeaf s part bank va = .page := by
  simp [walkLeaf, h, h2]

theorem walkLeaf_leaf2 {s : State} {part bank va pa : Nat} {w : Bool} (hva : va < 2 ^ 41)
    (h1 : Points1 (s.ptEntry part bank 1 (va / 0x40000000)))
    (h2 : s.ptEntry part bank 2 (va / 0x200000) = pa + b2n w * 4 + 3) (hpa : pa < 2 ^ 40) (hal : pa % 0x200000 = 0) :
    walkLeaf s part bank va = .ok (pa + va % 0x200000) w := by
  obtain ⟨hv, hhi, hlo⟩ := h1
  have hw : b2n w ≤ 1 := by cases w <;> decide
  have hleaf : bitOf (pa + b2n w * 4 + 3) 1 = true := by rw [bitOf_one, decide_eq_true_iff]; omega
  have hok : ¬((pa + b2n w * 4 + 3) % 2 = 0 ∨ bitsOf (pa + b2n w * 4 + 3) 63 40 ≠ 0 ∨ bitsOf (pa + b2n w * 4 + 3) 7 3 ≠ 0) := by
    simp only [bitsOf]; omega
  have hlow : bitsOf (pa + b2n w * 4 + 3) 20 8 = 0 := by simp only [bitsOf]; omega
  have haddr : bitsOf (pa + b2n w * 4 + 3) 39 21 * 0x200000 = pa := by simp only [bitsOf]; omega
  simp only [walkLeaf, h2]
  rw [if_neg (by omega), if_neg (by omega), if_neg hok, if_pos hleaf, if_neg (by omega), haddr,
    bitOf_two_leaf w (by omega) (by decide)]

theorem walkLeaf_leaf3 {s : State} {part bank va pa : Nat} {w : Bool} (hva : va < 2 ^ 41)
    (h1 : Points1 (s.ptEntry part bank 1 (va / 0x40000000))) (h2 : Points2 (s.ptEntry part bank 2 (va / 0x200000)))
    (h3 : s.ptEntry part bank 3 (va / 0x10000) = pa + b2n w * 4 + 1) (hpa : pa < 2 ^ 40) (hal : pa % 0x10000 = 0) :
    walkLeaf s part bank va = .ok (pa + va % 0x10000) w := by
  obtain ⟨hv, hhi, hlo⟩ := h1
  obtain ⟨hv2, hhi2, hlo2, hbit2⟩ := h2
  have hok1 : ¬(s.ptEntry part bank 1 (va / 0x40000000) % 2 = 0 ∨ bitsOf (s.ptEntry part bank 1 (va / 0x40000000)) 63 40 ≠ 0
      ∨ bitsOf (s.ptEntry part bank 1 (va / 0x40000000)) 11 1 ≠ 0) := by omega
  have hok2 : ¬(s.ptEntry part bank 2 (va / 0x200000) % 2 = 0 ∨ bitsOf (s.ptEntry part bank 2 (va / 0x200000)) 63 40 ≠ 0
      ∨ bitsOf (s.ptEntry part bank 2 (va / 0x200000)) 7 3 ≠ 0) := by omega
  have hw : b2n w ≤ 1 := by cases w <;> decide
  have hbit : bitOf (pa + b2n w * 4 + 1) 1 = false := by rw [bitOf_one, decide_eq_false_iff_not]; omega
  have hok : ¬((pa + b2n w * 4 + 1) % 2 = 0 ∨ bitsOf (pa + b2n w * 4 + 1) 63 40 ≠ 0 ∨ bitsOf (pa + b2n w * 4 + 1) 15 3 ≠ 0
      ∨ bitOf (pa + b2n w * 4 + 1) 1 = true) := by
    simp only [hbit, bitsOf, Bool.false_eq_true, or_false]; omega
  have haddr : bitsOf (pa + b2n w * 4 + 1) 39 16 * 0x10000 = pa := by simp only [bitsOf]; omega
  simp only [walkLeaf, h3]
  rw [if_neg (by omega), if_neg hok1, if_neg hok2, if_neg (by simp [hbit2]), if_neg hok, haddr,
    bitOf_two_leaf w (by omega) (by decide)]

/-! ### HBM_MAP and HBM_UNMAP of one page (R200) -/

/-- A 2 MiB page: afterwards the level-1 entry points to a table and the level-2 entry is the leaf. -/
theorem mapPage_large {s : State} (hs : cwf 0 s.hbm.pt = true) {part bank va pa : Nat} {w : Bool} (hb : bank < 2)
    (hva : va < 2 ^ 41)
    (h1 : s.ptEntry part bank 1 (va / 0x40000000) % 2 = 1 → Points1 (s.ptEntry part bank 1 (va / 0x40000000))) :
    let t := mapPage part bank false w va pa s
    PtOnly part bank s t ∧ Points1 (t.ptEntry part bank 1 (va / 0x40000000))
      ∧ t.ptEntry part bank 2 (va / 0x200000) = pa + b2n w * 4 + 3 := by
  have hneed := ptOnly_needTable (size := 4096) hs (part := part) (level := 1) (idx := va / 0x40000000) hb (by decide) (by omega)
  have hfree := ptOnly_freeTable (part := part) (idx := va / 0x200000) hneed.canon hb (by omega)
  refine ⟨hneed.trans (hfree.trans (ptOnly_setPt hfree.canon hb (by decide) (by omega))), ?_, ?_⟩
  · simp only [mapPage]
    rw [if_neg (by decide), ptEntry_setPt_ne hfree.canon (by simp only [ptKey]; omega),
      ptEntry_freeTable hneed.canon (by simp only [ptKey]; omega)]
    exact needTable_entry hs (.inl rfl) h1 fun _ => points1_of_tableAt
  · simp only [mapPage]
    rw [if_neg (by decide), ptEntry_setPt_self hfree.canon]

/-- A 64 KiB page: afterwards the entries above point to tables and the level-3 entry is the leaf. -/
theorem mapPage_small {s : State} (hs : cwf 0 s.hbm.pt = true) {part bank va pa : Nat} {w : Bool} (hb : bank < 2)
    (hva : va < 2 ^ 41)
    (h1 : s.ptEntry part bank 1 (va / 0x40000000) % 2 = 1 → Points1 (s.ptEntry part bank 1 (va / 0x40000000)))
    (h2 : s.ptEntry part bank 2 (va / 0x200000) % 2 = 1 → Points2 (s.ptEntry part bank 2 (va / 0x200000))) :
    let t := mapPage part bank true w va pa s
    PtOnly part bank s t ∧ Points1 (t.ptEntry part bank 1 (va / 0x40000000))
      ∧ Points2 (t.ptEntry part bank 2 (va / 0x200000)) ∧ t.ptEntry part bank 3 (va / 0x10000) = pa + b2n w * 4 + 1 := by
  have hneed := ptOnly_needTable (size := 4096) hs (part := part) (level := 1) (idx := va / 0x40000000) hb (by decide) (by omega)
  have hneed2 := ptOnly_needTable (size := 256) hneed.canon (part := part) (level := 2) (idx := va / 0x200000) hb
    (by decide) (by omega)
  have hold : (needTable part bank 1 (va / 0x40000000) 4096 s).ptEntry part bank 2 (va / 0x200000)
      = s.ptEntry part bank 2 (va / 0x200000) := needTable_entry_ne hs (by simp only [ptKey]; omega)
  refine ⟨hneed.trans (hneed2.trans (ptOnly_setPt hneed2.canon hb (by decide) (by omega))), ?_, ?_, ?_⟩
  · simp only [mapPage]
    rw [if_pos trivial, ptEntry_setPt_ne hneed2.canon (by simp only [ptKey]; omega),
      needTable_entry_ne hneed.canon (by simp only [ptKey]; omega)]
    exact needTable_entry hs (.inl rfl) h1 fun _ => points1_of_tableAt
  · simp only [mapPage]
    rw [if_pos trivial, ptEntry_setPt_ne hneed2.canon (by simp only [ptKey]; omega)]
    exact needTable_entry hneed.canon (.inr rfl) (by rwa [hold]) fun _ => points2_of_tableAt
  · simp only [mapPage]
    rw [if_pos trivial, ptEntry_setPt_self hneed2.canon]

theorem unmapPage_large {s : State} (hs : cwf 0 s.hbm.pt = true) {part bank va : Nat} (hva : va < 2 ^ 41) :
    (unmapPage part bank false va s).ptEntry part bank 2 (va / 0x200000) = 0 := by
  simp only [unmapPage]
  rw [if_neg (by omega), if_neg (by decide), ptEntry_setPt_self (cwf_cclear _ _ hs)]

theorem unmapPage_small {s : State} (hs : cwf 0 s.hbm.pt = true) {part bank va : Nat} (hva : va < 2 ^ 41) :
    (unmapPage part bank true va s).ptEntry part bank 3 (va / 0x10000) = 0 ∧
      (unmapPage part bank true va s).ptEntry part bank 2 (va / 0x200000) = s.ptEntry part bank 2 (va / 0x200000) := by
  simp only [unmapPage]
  rw [if_neg (by omega), if_pos trivial]
  exact ⟨ptEntry_setPt_self hs _ _ _ _ _, ptEntry_setPt_ne hs (by simp only [ptKey]; omega)⟩

/-- What O31 says of a page in a bank, before (`s`) and after (`t`) it is mapped. -/
structure Mapped (part bank : Nat) (small w : Bool) (va pa off : Nat) (s t : State) : Prop where
  walks : s.frameByte (pa + off) / 128 = 1 → s.frameByte (pa + off) % 64 = part →
    walk t part bank (va + off) = .ok (pa + off) w
  clears : walk (unmapPage part bank small va t) part bank (va + off) = .page
  others : ∀ p b v, (p ≠ part ∨ b ≠ bank) → b < 2 → walk t p b v = walk s p b v

theorem mapped_large {part bank va pa off : Nat} {w : Bool} {s t : State} (h : PtOnly part bank s t)
    (hva : va < 2 ^ 41) (hval : va % 0x200000 = 0) (hpa : pa < 2 ^ 40) (hpal : pa % 0x200000 = 0) (hoff : off < 0x200000)
    (h1 : Points1 (t.ptEntry part bank 1 (va / 0x40000000)))
    (h2 : t.ptEntry part bank 2 (va / 0x200000) = pa + b2n w * 4 + 3) : Mapped part bank false w va pa off s t := by
  have hi1 : va / 0x40000000 = (va + off) / 0x40000000 := by omega
  have hi2 : va / 0x200000 = (va + off) / 0x200000 := by omega
  have hlo : (va + off) % 0x200000 = off := by omega
  refine ⟨fun ha hp => ?_, walk_of_page (walkLeaf_none2 ?_), fun p b v hpb hb => walk_ptOnly h hpb hb v⟩
  · rw [hi1] at h1
    rw [hi2] at h2
    have hleaf := walkLeaf_leaf2 (by omega) h1 h2 hpa hpal
    rw [hlo] at hleaf
    rw [← h.frame] at ha hp
    exact walk_of_leaf hleaf ha hp
  · rw [← hi2, unmapPage_large h.canon hva]

theorem mapped_small {part bank va pa off : Nat} {w : Bool} {s t : State} (h : PtOnly part bank s t)
    (hva : va < 2 ^ 41) (hval : va % 0x10000 = 0) (hpa : pa < 2 ^ 40) (hpal : pa % 0x10000 = 0) (hoff : off < 0x10000)
    (h1 : Points1 (t.ptEntry part bank 1 (va / 0x40000000))) (h2 : Points2 (t.ptEntry part bank 2 (va / 0x200000)))
    (h3 : t.ptEntry part bank 3 (va / 0x10000) = pa + b2n w * 4 + 1) : Mapped part bank true w va pa off s t := by
  have hi1 : va / 0x40000000 = (va + off) / 0x40000000 := by omega
  have hi2 : va / 0x200000 = (va + off) / 0x200000 := by omega
  have hi3 : va / 0x10000 = (va + off) / 0x10000 := by omega
  have hlo : (va + off) % 0x10000 = off := by omega
  refine ⟨fun ha hp => ?_, ?_, fun p b v hpb hb => walk_ptOnly h hpb hb v⟩
  · rw [hi1] at h1
    rw [hi2] at h2
    rw [hi3] at h3
    have hleaf := walkLeaf_leaf3 (by omega) h1 h2 h3 hpa hpal
    rw [hlo] at hleaf
    rw [← h.frame] at ha hp
    exact walk_of_leaf hleaf ha hp
  · obtain ⟨-, -, -, hbit⟩ := h2
    obtain ⟨hc3, hc2⟩ := unmapPage_small h.canon (part := part) (bank := bank) hva
    exact walk_of_page (walkLeaf_none3 (by rw [← hi2, hc2, hbit]) (by rw [← hi3, hc3]))

/-- Settles O31, from the entries that mapping and clearing one page leave at each level of its walk. -/
theorem mappedPagesTranslate : Obligations.MappedPagesTranslate := by
  intro part bank small w va pa off s size hcan _ hb hval hpal hpa hva hoff e1 e2
  have hs : cwf 0 s.hbm.pt = true := (canon_iff.2 ⟨hcan, rfl⟩).pages
  have h1 : s.ptEntry part bank 1 (va / 0x40000000) % 2 = 1 → Points1 (s.ptEntry part bank 1 (va / 0x40000000)) :=
    fun h => ⟨h, e1 h⟩
  suffices h : Mapped part bank small w va pa off s (mapPage part bank small w va pa s) from ⟨h.walks, h.clears, h.others⟩
  cases small with
  | false =>
    obtain ⟨hpt, hp1, hp2⟩ := mapPage_large (pa := pa) (w := w) hs hb hva h1
    exact mapped_large hpt hva hval hpa hpal hoff hp1 hp2
  | true =>
    obtain ⟨hpt, hp1, hp2, hp3⟩ := mapPage_small (pa := pa) (w := w) hs hb hva h1 (fun h => ⟨h, e2 rfl h⟩)
    exact mapped_small hpt hva hval hpa hpal hoff hp1 hp2 hp3

end Sys2Proof.Machine
end

section
/-! What raising an event of the package leaves as it was, for the accesses to HBM that meet one on their way. -/
namespace Sys2Proof.Machine
set_option Elab.async false

/-- From `s` to `t` HBM, the power state and the registers of the dies are as they were. -/
structure Beside (s t : State) : Prop where
  canon : cwf 0 t.regs = true
  hbm : t.hbm = s.hbm
  power : t.power = s.power
  reg : ∀ a, 0x100000 ≤ a → t.reg a = s.reg a

namespace Beside
variable {s0 s t : State}

theorem refl (h : cwf 0 s.regs = true) : Beside s s := ⟨h, rfl, rfl, fun _ _ => rfl⟩

theorem ite {c : Prop} [Decidable c] (ht : c → Beside s0 s) (hf : ¬c → Beside s0 t) : Beside s0 (if c then s else t) := by
  split
  · exact ht ‹_›
  · exact hf ‹_›

theorem withMgt (h : Beside s0 s) (x) : Beside s0 { s with mgt := x } := { h with }
theorem withHost (h : Beside s0 s) (x) : Beside s0 { s with host := x } := { h with }
theorem withPins (h : Beside s0 s) (x) : Beside s0 { s with pins := x } := { h with }

theorem setRegN (h : Beside s0 s) {a : Nat} (ha : a < 0x100000) (v : Nat) : Beside s0 (s.setRegN a v) where
  canon := cwf_cset _ _ h.canon
  hbm := h.hbm
  power := h.power
  reg b hb := by rw [State.setRegN_reg h.canon, if_neg (by omega), h.reg b hb]

theorem bump (h : Beside s0 s) {a : Nat} (ha : a < 0x100000) (n : Nat) : Beside s0 (bump a n s) where
  canon := by rw [Machine.bump, bumpKey_regs]; exact cwf_cset _ _ h.canon
  hbm := by rw [Machine.bump, bumpKey_rest]; exact h.hbm
  power := by rw [Machine.bump, bumpKey_rest]; exact h.power
  reg b hb := by rw [Machine.bump, bumpKey_reg h.canon, if_neg (by omega), h.reg b hb]

theorem sendInterrupt (h : Beside s0 s) (f v : Nat) : Beside s0 (sendInterrupt f v s) := (h.withHost _).withHost _

theorem assignBy (h : Beside s0 s) (f : Nat) (ev : Ev) (src : Nat) : Beside s0 (assignBy hostWriter f ev src s) := by
  unfold Machine.assignBy
  refine .ite (fun _ => .ite (fun _ => ?_) fun _ => h.withHost _) fun _ => h.withHost _
  simp only [hostWriter]
  exact (Beside.ite (fun _ => h.withHost _) fun _ => (h.withHost _).withHost _).sendInterrupt _ _

theorem announceBy (h : Beside s0 s) (f : Nat) : Beside s0 (announceBy hostWriter f s) :=
  .ite (fun _ => h) fun _ => (h.withHost _).assignBy _ _ _

theorem postBy (h : Beside s0 s) (f : Nat) (ev : Ev) : Beside s0 (postBy hostWriter f ev s) := by
  have hp (k : Nat) := (h.announceBy f).assignBy f ev k
  unfold Machine.postBy
  dsimp only
  split
  · exact .ite (fun _ => h.withHost _) fun _ => .ite (fun _ => (hp _).withHost _) fun _ => hp _
  · exact .ite (fun _ => (hp _).withHost _) fun _ => hp _

theorem pushLog (h : Beside s0 s) (r : LogRec) : Beside s0 (pushLog r s) :=
  have hh (n : Nat) : Beside s0 (s.setRegN ZG_MGT_LOG_HEAD n) := h.setRegN (by decide) n
  .ite (fun _ => ((hh _).bump (by decide) _).withMgt _) fun _ =>
    .ite (fun _ => (hh _).withMgt _) fun _ => ((hh _).withMgt _).postBy _ _

theorem noticeBy (h : Beside s0 s) (ev : Ev) (n : Nat) (c : Bool) : Beside s0 (noticeBy hostWriter ev n c s) :=
  .ite (fun _ => h.withMgt _) fun _ => ((h.pushLog _).announceBy _).assignBy _ _ _

theorem occurBy (h : Beside s0 s) (ev : Ev) : Beside s0 (occurBy hostWriter ev s) :=
  .ite (fun _ => h.withMgt _) fun _ =>
    .ite (fun _ => (((((h.withMgt _).noticeBy _ _ _).setRegN (by decide) _).withPins _).withMgt _)) fun _ =>
      (((h.withMgt _).noticeBy _ _ _).setRegN (by decide) _).withPins _

theorem raisePf (h : Beside s0 s) (ev : Ev) : Beside s0 (raisePf ev s) := by
  have hl (r : LogRec) : Beside s0 (if ev.log then Machine.pushLog r s else s) := .ite (fun _ => h.pushLog r) fun _ => h
  unfold Machine.raisePf Machine.raiseBy
  extract_lets s1 s2
  have h2 : Beside s0 s2 := by
    unfold s2
    split
    · exact (hl _).postBy _ _
    · exact hl _
  exact .ite (fun _ => h2.occurBy _) fun _ => .ite (fun _ => h2.postBy _ _) fun _ => h2

end Beside
end Sys2Proof.Machine
end

section
/-! What reading, correcting and holding blocks and map lines leaves as it was: all that the translation of an access rests on
(`Calm`). -/
namespace Sys2Proof.Machine
set_option Elab.async false

/-- The stores that an access writes are in canonical form. -/
structure BlocksCanon (s : State) : Prop where
  regs : cwf 0 s.regs = true
  bytes : cwf 0 s.hbm.bytes = true
  errs : cwf [] s.hbm.errs = true
  perStack : cwf {} s.hbm.stackSt = true

/-- The map line of frame `g` needs no look at the copies in HBM (R218). -/
def MapHeld (g : Nat) (s : State) : Prop :=
  (reservedFrame g || s.hbm.full.contains g) = true ∨ s.hbm.lostLines.contains g = false ∧ s.hbm.mapBuf.any (fun p => p.1 == g) = true

/-- A register of a die that holds a stack's level or a port's state. -/
def HoldReg (a : Nat) : Prop :=
  0x100000 ≤ a ∧ (0x5010 ≤ a % 0x40000 ∧ a % 0x40000 < 0x5030 ∨ 0x6010 ≤ a % 0x40000 ∧ a % 0x40000 < 0x6030)

/-- From `s` to `t` HBM changes its bytes at addresses of `P` only, what the translation of an access rests on beside the bytes is as it
was, no line is lost, and the map line of frame `g` stays held. -/
structure Calm (P : Nat → Prop) (g : Nat) (s t : State) : Prop where
  canon : BlocksCanon t
  keeps : Keeps true [] s t
  power : t.power = s.power
  tlb : t.hbm.tlb = s.hbm.tlb
  waits : t.hbm.waits = s.hbm.waits
  lost : t.hbm.lostLines = s.hbm.lostLines
  hold : ∀ a, HoldReg a → ∀ hi lo, 25 < lo → hi < 64 → t.rfld a hi lo = s.rfld a hi lo
  stack : ∀ m, t.stack m = { s.stack m with writeBacks := (t.stack m).writeBacks }
  bytes : ∀ a, ¬P a → cget 0 t.hbm.bytes a = cget 0 s.hbm.bytes a
  held : MapHeld g s → MapHeld g t

namespace Calm
variable {P : Nat → Prop} {g : Nat} {s0 s t : State}

theorem refl (h : BlocksCanon s) : Calm P g s s :=
  ⟨h, .refl s, rfl, rfl, rfl, rfl, fun _ _ _ _ _ _ => rfl, fun _ => rfl, fun _ _ => rfl, id⟩

theorem ite {c : Prop} [Decidable c] (ht : c → Calm P g s0 s) (hf : ¬c → Calm P g s0 t) : Calm P g s0 (if c then s else t) := by
  split
  · exact ht ‹_›
  · exact hf ‹_›

theorem mono {Q : Nat → Prop} (h : Calm P g s0 s) (hPQ : ∀ a, P a → Q a) : Calm Q g s0 s :=
  { h with bytes := fun a ha => h.bytes a fun hp => ha (hPQ a hp) }

theorem trans (h : Calm P g s0 s) (k : Calm P g s t) : Calm P g s0 t where
  canon := k.canon
  keeps := h.keeps.trans k.keeps
  power := k.power.trans h.power
  tlb := k.tlb.trans h.tlb
  waits := k.waits.trans h.waits
  lost := k.lost.trans h.lost
  hold a ha hi lo hl hh := (k.hold a ha hi lo hl hh).trans (h.hold a ha hi lo hl hh)
  stack m := by rw [k.stack m, h.stack m]
  bytes a ha := (k.bytes a ha).trans (h.bytes a ha)
  held := k.held ∘ h.held

/-! ### Registers -/

theorem bump (h : Calm P g s0 s) {a : Nat} (ha : Free [] a) (hn : ¬HoldReg a) (n : Nat) : Calm P g s0 (bump a n s) := by
  have hrest := bumpKey_rest a n s
  refine { h with
    canon := ⟨?_, ?_, ?_, ?_⟩, keeps := h.keeps.bump ha n, power := ?_, tlb := ?_, waits := ?_, lost := ?_, hold := fun b hb hi lo hl hh => ?_,
    stack := fun m => ?_, bytes := fun b hb => ?_, held := fun hg => ?_ }
  · rw [Machine.bump, bumpKey_regs]; exact cwf_cset _ _ h.canon.regs
  · rw [Machine.bump, hrest]; exact h.canon.bytes
  · rw [Machine.bump, hrest]; exact h.canon.errs
  · rw [Machine.bump, hrest]; exact h.canon.perStack
  · rw [Machine.bump, hrest]; exact h.power
  · rw [Machine.bump, hrest]; exact h.tlb
  · rw [Machine.bump, hrest]; exact h.waits
  · rw [Machine.bump, hrest]; exact h.lost
  · rw [State.rfld, Machine.bump, bumpKey_reg h.canon.regs, if_neg (by rintro rfl; exact hn hb)]
    exact h.hold b hb hi lo hl hh
  · rw [Machine.bump, hrest]; exact h.stack m
  · rw [Machine.bump, hrest]; exact h.bytes b hb
  · rw [Machine.bump, hrest]; exact h.held hg

theorem setRfld (h : Calm P g s0 s) {a : Nat} (ha : Free [] a) {hi lo : Nat} (hn : HoldReg a → hi < 26) (v : Nat) :
    Calm P g s0 (s.setRfld a hi lo v) :=
  { h with
    canon := { h.canon with regs := State.setRfld_cwf h.canon.regs _ _ _ _ }
    keeps := h.keeps.setRfld ha _ _ _
    hold := fun b hb hi' lo' hl hh => by
      by_cases hab : b = a
      · subst hab
        have hhi := hn hb
        rw [State.setRfld_rfld_beside hh (.inl (by omega)) (.inl h.canon.regs)]
        exact h.hold b hb hi' lo' hl hh
      · rw [State.setRfld_rfld_other h.canon.regs hab]
        exact h.hold b hb hi' lo' hl hh }

/-! ### Parts of HBM, and what is beside it -/

theorem beside (h : Calm P g s0 s) (hb : Beside s t) (hk : Keeps true [] s t) : Calm P g s0 t where
  canon := ⟨hb.canon, hb.hbm ▸ h.canon.bytes, hb.hbm ▸ h.canon.errs, hb.hbm ▸ h.canon.perStack⟩
  keeps := h.keeps.trans hk
  power := hb.power.trans h.power
  tlb := by rw [hb.hbm, h.tlb]
  waits := by rw [hb.hbm, h.waits]
  lost := by rw [hb.hbm, h.lost]
  hold a ha hi lo hl hh := by
    have ⟨hge, _⟩ := ha
    rw [State.rfld, hb.reg a hge]
    exact h.hold a ha hi lo hl hh
  stack m := by
    have hm : t.stack m = s.stack m := by rw [State.stack, hb.hbm, State.stack]
    rw [hm]
    exact h.stack m
  bytes a ha := by rw [hb.hbm, h.bytes a ha]
  held hg := by rw [MapHeld, hb.hbm]; exact h.held hg

theorem raisePf (h : Calm P g s0 s) (ev : Ev) : Calm P g s0 (raisePf ev s) :=
  h.beside ((Beside.refl h.canon.regs).raisePf ev) ((Keeps.refl s).raisePf ev)

theorem addHealth (h : Calm P g s0 s) {x : HealthEntry} (hx : x.kind ≠ 1) : Calm P g s0 (addHealth x s) := by
  refine h.beside ?_ ((Keeps.refl s).addHealth fun _ => hx)
  have hs : Beside s s := .refl h.canon.regs
  have hboot {s1 : State} (h1 : Beside s s1) (b) : Beside s { s1 with boot := b } := { h1 with }
  unfold Machine.addHealth
  extract_lets _ s1
  have h1 : Beside s s1 := .ite (fun _ => hs) fun _ => hboot hs _
  clear_value s1
  exact .ite (fun _ => h1) fun _ => .ite (fun _ => { h1 with }) fun _ => (hboot h1 _).raisePf _

/-- A change of HBM that no translation meets: the newest error records, the counts of rows, the lines held. -/
theorem withHbm (h : Calm P g s0 s) (x : HbmSt) (hbytes : x.bytes = s.hbm.bytes := by rfl) (herrs : x.errs = s.hbm.errs := by rfl)
    (hst : x.stackSt = s.hbm.stackSt := by rfl) (htlb : x.tlb = s.hbm.tlb := by rfl) (hw : x.waits = s.hbm.waits := by rfl)
    (hlost : x.lostLines = s.hbm.lostLines := by rfl) (hpt : x.pt = s.hbm.pt := by rfl)
    (hheld : MapHeld g s → MapHeld g { s with hbm := x } := by exact id) : Calm P g s0 { s with hbm := x } where
  canon := ⟨h.canon.regs, hbytes ▸ h.canon.bytes, herrs ▸ h.canon.errs, hst ▸ h.canon.perStack⟩
  keeps := h.keeps.withHbm x hpt
  power := h.power
  tlb := htlb.trans h.tlb
  waits := hw.trans h.waits
  lost := hlost.trans h.lost
  hold := h.hold
  stack m := by
    have hm : State.stack { s with hbm := x } m = s.stack m := by simp only [State.stack, hst]
    rw [hm]
    exact h.stack m
  bytes a ha := (congrArg (cget 0 · a) hbytes).trans (h.bytes a ha)
  held := hheld ∘ h.held

theorem withBytes (h : Calm P g s0 s) (x : List (Nat × Byte)) (hx : cwf 0 x = true)
    (hb : ∀ a, ¬P a → cget 0 x a = cget 0 s.hbm.bytes a) : Calm P g s0 { s with hbm := { s.hbm with bytes := x } } :=
  { h with
    canon := { h.canon with bytes := hx }
    keeps := h.keeps.withHbm _
    bytes := fun a ha => (hb a ha).trans (h.bytes a ha) }

theorem withErrs (h : Calm P g s0 s) (x : List (Nat × List (Nat × Nat))) (hx : cwf [] x = true) :
    Calm P g s0 { s with hbm := { s.hbm with errs := x } } :=
  { h with canon := { h.canon with errs := hx }, keeps := h.keeps.withHbm _ }

/-- The write-backs that wait at a stack. -/
theorem withWriteBacks (h : Calm P g s0 s) (m : Nat) (l : List Nat) : Calm P g s0 (s.setStack m { s.stack m with writeBacks := l }) :=
  { h with
    canon := { h.canon with perStack := cwf_cset _ _ h.canon.perStack }
    keeps := h.keeps.setStack _ _
    stack := fun k => by
      rw [State.stack, State.setStack, cget_cset h.canon.perStack]
      split
      · subst_vars
        rw [h.stack k]
      · exact h.stack k }

theorem hbmPut (h : Calm P g s0 s) {pa : Nat} {bs : List Byte} (hP : ∀ i < bs.length, P (pa + i)) : Calm P g s0 (s.hbmPut pa bs) :=
  h.withBytes _ (cwf_csetList _ _ h.canon.bytes) fun a ha => by
    rw [cget_csetList _ _ _ h.canon.bytes, if_neg]
    rintro ⟨hge, hlt⟩
    have hPa := hP (a - pa) (by omega)
    rw [Nat.add_sub_cancel' hge] at hPa
    exact ha hPa

theorem hbmPut2 (h : Calm P g s0 s) {pa m : Nat} {bs : List Byte} (hP : ∀ i < bs.length, P (pa + i))
    (hM : ∀ i < bs.length, P (m + i)) : Calm P g s0 (s.hbmPut2 pa m bs) := (h.hbmPut hP).hbmPut hM

end Calm
end Sys2Proof.Machine
end

section
/-! The reserved gigabyte's parts, and what reading a block and consulting a map line change (`Calm`). -/
namespace Sys2Proof.Machine
set_option Elab.async false

/-! ### Parts of the reserved gigabytes (R190) -/

/-- Error records, and what lies above them. -/
def ErrArea (a : Nat) : Prop := 0x3FC1020000 ≤ a % 0x4000000000

/-- Everything but the frame tables. -/
def NotFrames (a : Nat) : Prop := a % 0x4000000000 < 0x3FC1000000 ∨ 0x3FC1020000 ≤ a % 0x4000000000

theorem notFrames_of_errArea (a : Nat) (h : ErrArea a) : NotFrames a := .inr h

theorem errArea_errAddr (d seq : Nat) {k : Nat} (hk : k < 32 ∨ 0x800000 ≤ k ∧ k < 0x800020) : ErrArea (errAddr d seq + k) := by
  simp only [ErrArea, errAddr, reservedBase]
  omega

/-- A frame's line of the presence map, as a place in its die. -/
theorem mapLineAddr_mod (g : Nat) :
    mapLineAddr g % 0x4000000000 = 0x3FC0000000 + g % 131072 * 64 ∧ mapLineAddr g % 64 = 0 := by
  simp only [mapLineAddr, presenceAddr, reservedBase]
  omega

theorem notFrames_mapLine (g : Nat) {i : Nat} (h : i < 64) : NotFrames (mapLineAddr g + i) := by
  have ⟨hm, _⟩ := mapLineAddr_mod g
  simp only [NotFrames]
  omega

theorem notFrames_mirror (g : Nat) {i : Nat} (h : i < 64) : NotFrames (mapLineAddr g + mirrorGap + i) := by
  have ⟨hm, _⟩ := mapLineAddr_mod g
  simp only [NotFrames, mirrorGap]
  omega

theorem length_errBytes (first last pa kind m pc nsym s0 s1 count seq : Nat) :
    (errBytes first last pa kind m pc nsym s0 s1 count seq).length = 32 := by
  simp [errBytes, length_natLE]

theorem length_hbmBytes (s : State) (pa n : Nat) : (s.hbmBytes pa n).length = n := by
  rw [State.hbmBytes, length_cgetList]

/-- A register of a die outside the stacks' and the ports' own. -/
theorem not_holdReg (d : Nat) {off : Nat} (hlt : off < 0x40000)
    (h : ¬(0x5010 ≤ off ∧ off < 0x5030 ∨ 0x6010 ≤ off ∧ off < 0x6030)) : ¬HoldReg (dieBase d + off) := by
  rintro ⟨-, hr⟩
  have hmod : (dieBase d + off) % 0x40000 = off := by rw [dieBase]; omega
  rw [hmod] at hr
  exact h hr

namespace Calm
variable {P : Nat → Prop} {g : Nat} {s0 s t : State}

/-! ### Counters -/

theorem foldl {β : Type} {f : State → β → State} : ∀ (l : List β) {s : State}, (∀ s, ∀ b ∈ l, Calm P g s0 s → Calm P g s0 (f s b)) →
    Calm P g s0 s → Calm P g s0 (l.foldl f s)
  | [], _, _, h => h
  | b :: l, s, hf, h => foldl l (fun s c hc => hf s c (List.mem_cons_of_mem _ hc)) (hf s b (List.mem_cons_self ..) h)

theorem pmcCount (h : Calm P g s0 s) (d ev : Nat) (p : Option Nat) (n : Nat) : Calm P g s0 (pmcCount d ev p n s) :=
  foldl _ (fun s k hk h => .ite
    (fun _ => by
      have hk8 : k < 8 := List.mem_range.1 hk
      rw [ZG_PMC_CNT, Nat.add_assoc]
      exact h.bump (free_die d _) (not_holdReg d (by omega) (by omega)) _) fun _ => h) h

theorem bumpCe (h : Calm P g s0 s) (d k : Nat) : Calm P g s0 (Machine.bump (ZG_HBM_CE d (k % 4)) 1 s) := by
  rw [ZG_HBM_CE, Nat.add_assoc]
  exact h.bump (free_die d _) (not_holdReg d (by omega) (by omega)) _

theorem bumpUe (h : Calm P g s0 s) (d : Nat) : Calm P g s0 (Machine.bump (ZG_HBM_UE d) 1 s) :=
  h.bump (free_die d _) (not_holdReg d (by decide) (by decide)) _

/-! ### Error records -/

section
variable (hP : ∀ a, ErrArea a → P a)
include hP

theorem errRecord (h : Calm P g s0 s) (kind pa n a b : Nat) : Calm P g s0 (errRecord kind pa n a b s) := by
  have hrec (d seq : Nat) {j n : Nat} (hj : j + n ≤ 32) : ∀ i < n, P (errAddr d seq + j + i) := fun i hi => by
    rw [Nat.add_assoc]; exact hP _ (errArea_errAddr d seq (.inl (by omega)))
  have hmir (d seq : Nat) {j n : Nat} (hlo : 0x800000 ≤ j) (hj : j + n ≤ 0x800020) : ∀ i < n, P (errAddr d seq + j + i) := fun i hi => by
    rw [Nat.add_assoc]; exact hP _ (errArea_errAddr d seq (.inr (by omega)))
  unfold Machine.errRecord errRecordAt
  refine .ite (fun _ => ?_) fun _ => ?_
  · refine ((h.withHbm _).hbmPut2 ?_ ?_).hbmPut2 ?_ ?_ <;> rw [length_natLE]
    · exact hrec _ _ (by decide)
    · exact hmir _ _ (by decide) (by decide)
    · exact hrec _ _ (by decide)
    · exact hmir _ _ (by decide) (by decide)
  · extract_lets seq addr s1 _ s2 s3
    have h1 : Calm P g s0 s1 :=
      h.setRfld (free_die _ _) (fun hh => absurd hh (not_holdReg _ (off := 0x5080) (by decide) (by decide))) _
    clear_value s1
    have h3 : Calm P g s0 s3 := by
      refine (h1.withHbm _).hbmPut2 ?_ ?_ <;> rw [length_errBytes]
      · exact fun i hi => hP _ (errArea_errAddr _ _ (.inl hi))
      · exact hmir _ _ (by decide) (by decide)
    clear_value s3
    exact .ite (fun _ => h3) fun _ => h3.raisePf _

theorem countRow (h : Calm P g s0 s) (pa : Nat) : Calm P g s0 (countRow pa s) := by
  unfold Machine.countRow
  refine .ite (fun _ => ?_) fun _ => h.withHbm _
  exact errRecord hP (((h.withHbm _).setRfld (free_dieAt _ _ _) (fun _ => by decide) _).addHealth (by simp)) _ _ _ _ _

theorem correctBlock (h : Calm P g s0 s) (kind pa : Nat) (fix : List (Nat × Nat)) : Calm P g s0 (correctBlock kind pa fix s) :=
  countRow hP (errRecord hP ((h.bumpCe _ _).withWriteBacks _ _) _ _ _ _ _) _

/-- A read of a block that gives its bytes. -/
theorem readBlock (h : Calm P g s0 s) {pa : Nat} {data : List Byte} (hr : readBlock pa s = (some data, t)) : Calm P g s0 t := by
  unfold Machine.readBlock at hr
  dsimp only at hr
  split at hr
  · cases hr; exact h
  · split at hr
    · cases hr; exact h
    · cases hr; exact correctBlock hP h _ _ _
    · cases hr

theorem readTables : ∀ (l : List Nat) {s : State}, Calm P g s0 s → readTables l s = (true, t) → Calm P g s0 t
  | [], _, h, hr => by cases hr; exact h
  | a :: l, s, h, hr => by
    rw [Machine.readTables] at hr
    split at hr
    · next hb => exact readTables l (readBlock hP h hb) hr
    · cases hr

end

/-! ### Blocks and map lines -/

theorem blockStore (h : Calm P g s0 s) {pa : Nat} {bs : List Byte} (hP : ∀ i < bs.length, P (pa + i)) :
    Calm P g s0 (blockStore pa bs s) := by
  have h1 := h.hbmPut hP
  exact .ite (fun _ => (h1.withErrs _ (cwf_cset _ _ h1.canon.errs)).withWriteBacks _ _) fun _ => h1

theorem mirroredLine (hP : ∀ a, ErrArea a → P a) (h : Calm P g s0 s) {a : Nat} (hA : ∀ i < 64, P (a / 64 * 64 + i))
    (hr : mirroredLine a s = (true, t)) : Calm P g s0 t := by
  have hue := h.bumpUe (dieOf a)
  have repair {s : State} (h : Calm P g s0 s) :
      Calm P g s0 (Machine.errRecord 4 a 0 255 255
        (Machine.blockStore (a / 64 * 64) (s.hbmBytes ((a + mirrorGap) / 64 * 64) 64) s)) :=
    errRecord hP (h.blockStore fun i hi => hA i (by rwa [length_hbmBytes] at hi)) _ _ _ _ _
  unfold Machine.mirroredLine at hr
  dsimp only at hr
  split at hr
  · cases hr; exact h
  · cases hr; exact correctBlock hP h _ _ _
  · split at hr
    · cases hr; exact repair hue
    · cases hr; exact repair (correctBlock hP hue _ _ _)
    · cases hr

theorem writeMapLine (h : Calm NotFrames g s0 s) (k : Nat) : Calm NotFrames g s0 (writeMapLine k s) := by
  unfold Machine.writeMapLine
  refine (h.blockStore fun i hi => ?_).blockStore fun i hi => ?_
  · exact notFrames_mapLine k (by rwa [length_hbmBytes] at hi)
  · exact notFrames_mirror k (by rwa [length_hbmBytes] at hi)

theorem trimCache (h : Calm NotFrames g s0 s) : Calm NotFrames g s0 (trimCache s) := by
  unfold Machine.trimCache
  split
  · exact .ite (fun _ => .ite (fun _ => (h.withHbm _).writeMapLine _) fun _ => h.withHbm _) fun _ => h
  · exact h

end Calm

/-! ### The map line of a frame (R218) -/

/-- The line enters the buffer, whatever leaves it for the cache. -/
theorem Calm.buffer {g : Nat} {s0 s : State} (h : Calm NotFrames g s0 s) (hl : s.hbm.lostLines.contains g = false) (c : Bool)
    (buf cache : List (Nat × Bool)) :
    let t := { s with hbm := { s.hbm with mapBuf := buf ++ [(g, c)], mapCache := cache } }
    Calm NotFrames g s0 t ∧ MapHeld g t := by
  intro t
  have hheld : MapHeld g t := .inr ⟨hl, by simp [t]⟩
  exact ⟨h.withHbm _ (hheld := fun _ => hheld), hheld⟩

theorem Calm.holdLine {g : Nat} {s0 s : State} (h : Calm NotFrames g s0 s) (hl : s.hbm.lostLines.contains g = false) (c : Bool) :
    Calm NotFrames g s0 (holdLine g c s) ∧ MapHeld g (holdLine g c s) := by
  unfold Machine.holdLine
  dsimp only
  split
  · split
    · obtain ⟨h1, hheld⟩ := h.buffer hl c _ _
      exact ⟨h1.trimCache, ((Calm.refl h1.canon).trimCache).held hheld⟩
    · exact h.buffer hl c _ _
  · exact h.buffer hl c _ _

/-- A map line that is consulted and not lost is held from then on. -/
theorem Calm.consultMap {g : Nat} {s0 s t : State} (h : Calm NotFrames g s0 s) (hc : consultMap g s = (true, t)) :
    Calm NotFrames g s0 t ∧ MapHeld g t := by
  unfold Machine.consultMap at hc
  split at hc
  · next hfull => cases hc; exact ⟨h, .inl hfull⟩
  · split at hc
    · cases hc
    · next hl =>
      split at hc
      · next hbuf => cases hc; exact ⟨h, .inr ⟨by simpa using hl, hbuf⟩⟩
      · have h1 := h.pmcCount (g / 131072) 0x0B none 1
        have hl1 : (Machine.pmcCount (g / 131072) 0x0B none 1 s).hbm.lostLines.contains g = false := by
          rw [pmcCount_rest]; simpa using hl
        generalize Machine.pmcCount (g / 131072) 0x0B none 1 s = s1 at hc h1 hl1
        dsimp only at hc
        split at hc
        · cases hc; exact h1.holdLine hl1 _
        · split at hc
          · next hm =>
            cases hc
            have hline : mapLineAddr g / 64 * 64 = mapLineAddr g := by
              have ⟨_, hal⟩ := mapLineAddr_mod g
              omega
            have h2 := (Calm.refl (g := g) h1.canon).mirroredLine notFrames_of_errArea
              (fun i hi => by rw [hline]; exact notFrames_mapLine g hi) hm
            exact (h1.trans h2).holdLine (by rw [h2.lost]; exact hl1) _
          · cases hc

/-- The map line of a frame that is held needs no look at HBM, and is not lost. -/
theorem consultMap_of_held {g : Nat} {s : State} (h : MapHeld g s) : consultMap g s = (true, s) := by
  unfold consultMap
  by_cases hfull : (reservedFrame g || s.hbm.full.contains g) = true
  · rw [if_pos hfull]
  · obtain ⟨hl, hbuf⟩ := h.resolve_left hfull
    rw [if_neg hfull, if_neg (by rw [hl]; decide), if_pos hbuf]

end Sys2Proof.Machine
end

section
/-! A write within a block leaves its bytes there, with the granule present (R206, R215). -/
namespace Sys2Proof.Machine
set_option Elab.async false

/-- Physical addresses outside the reserved gigabytes. -/
def DataAddr (pa : Nat) : Prop := pa % 0x4000000000 < 0x3FC0000000

theorem presenceAddr_mod {pa : Nat} (h : DataAddr pa) :
    0x3FC0000000 ≤ presenceAddr pa % 0x4000000000 ∧ presenceAddr pa % 0x4000000000 < 0x3FC0800000 := by
  simp only [DataAddr] at h
  simp only [presenceAddr, reservedBase]
  omega

theorem present_eq {pa : Nat} (h : DataAddr pa) (s : State) :
    s.present pa = bitOf (cget 0 s.hbm.bytes (presenceAddr pa)).toNat (pa / 0x1000 % 8) := by
  simp only [DataAddr] at h
  rw [State.present, if_neg (by omega)]

/-- Setting a clear bit of a byte. -/
theorem bitOf_add_pow {v k : Nat} (hk : k < 8) (h : bitOf v k = false) :
    bitOf (BitVec.ofNat 8 (v + 2 ^ k)).toNat k = true := by
  rw [bitOf, BitVec.toNat_ofNat, Nat.testBit_mod_two_pow, Nat.add_comm, Nat.testBit_two_pow_add_eq]
  rw [bitOf] at h
  simp [hk, h]

theorem materialise_of_present {pa : Nat} {s : State} (h : s.present pa = true) : materialise pa s = s := by
  rw [materialise, if_pos h]

theorem mapHeld_full {g : Nat} {s : State} (fr : Nat) (h : MapHeld g s) :
    MapHeld g { s with hbm := { s.hbm with full := s.hbm.full ++ [fr] } } := by
  rcases h with hfull | hbuf
  · rw [Bool.or_eq_true] at hfull
    refine .inl ?_
    rw [Bool.or_eq_true]
    refine hfull.imp_right fun hg => ?_
    simp only [List.contains_iff_mem, List.mem_append] at hg ⊢
    exact .inl hg
  · exact .inr hbuf

theorem any_markChanged (g fr : Nat) (l : List (Nat × Bool)) :
    (l.map (fun (p : Nat × Bool) => if p.1 = fr then (fr, true) else p)).any (fun p => p.1 == g) = l.any (fun p => p.1 == g) := by
  rw [List.any_map]
  congr 1
  funext p
  by_cases hp : p.1 = fr <;> simp [hp]

/-- The state of `materialise` before FULL is looked at: the granule cleared, its bit set. -/
def clearedGranule (pa : Nat) (s : State) : State :=
  let g := pa / 0x1000 * 0x1000
  let a := presenceAddr pa
  let v := (cget 0 s.hbm.bytes a).toNat
  let s := { s with hbm := { s.hbm with
    bytes := cclear s.hbm.bytes g (g + 0x1000),
    errs := cclear s.hbm.errs (g / 64) (g / 64 + 64),
    mapBuf := s.hbm.mapBuf.map (fun (p : Nat × Bool) => if p.1 = frameNo pa then (frameNo pa, true) else p) } }
  s.hbmPut2 a (a + mirrorGap) [BitVec.ofNat 8 (v + 2 ^ (pa / 0x1000 % 8))]

theorem materialise_of_absent {pa : Nat} {s : State} (h : s.present pa = false) :
    materialise pa s = if ((clearedGranule pa s).hbmBytes (mapLineAddr (frameNo pa)) 64).all (· == 255)
      then { clearedGranule pa s with hbm :=
        { (clearedGranule pa s).hbm with full := (clearedGranule pa s).hbm.full ++ [frameNo pa] } }
      else clearedGranule pa s := by
  rw [materialise, if_neg (by rw [h]; decide)]
  rfl

theorem Calm.clearedGranule {g : Nat} {s0 s : State} (h : Calm NotFrames g s0 s) {pa : Nat} (hd : DataAddr pa) :
    Calm NotFrames g s0 (clearedGranule pa s) := by
  have hp := presenceAddr_mod hd
  simp only [DataAddr] at hd
  have hbytes := h.withBytes (cclear s.hbm.bytes (pa / 0x1000 * 0x1000) (pa / 0x1000 * 0x1000 + 0x1000)) (cwf_cclear _ _ h.canon.bytes)
    fun a ha => cget_filter_of_cwf (fun _ => by simp only [NotFrames] at ha; simp; omega) h.canon.bytes
  have herrs := hbytes.withErrs _
    (cwf_cclear (pa / 0x1000 * 0x1000 / 64) (pa / 0x1000 * 0x1000 / 64 + 64) h.canon.errs)
  refine (herrs.withHbm { s.hbm with
      bytes := cclear s.hbm.bytes (pa / 0x1000 * 0x1000) (pa / 0x1000 * 0x1000 + 0x1000)
      errs := cclear s.hbm.errs (pa / 0x1000 * 0x1000 / 64) (pa / 0x1000 * 0x1000 / 64 + 64)
      mapBuf := s.hbm.mapBuf.map (fun (p : Nat × Bool) => if p.1 = frameNo pa then (frameNo pa, true) else p) }
    (hheld := ?_)).hbmPut2 ?_ ?_
  · rintro (hfull | ⟨hl, hbuf⟩)
    · exact .inl hfull
    · exact .inr ⟨hl, (any_markChanged _ _ _).trans hbuf⟩
  · intro i hi
    simp only [List.length_singleton] at hi
    simp only [NotFrames]
    omega
  · intro i hi
    simp only [List.length_singleton] at hi
    simp only [NotFrames, mirrorGap]
    omega

theorem Calm.materialise {g : Nat} {s0 s : State} (h : Calm NotFrames g s0 s) {pa : Nat} (hd : DataAddr pa) :
    Calm NotFrames g s0 (materialise pa s) := by
  cases hp : s.present pa with
  | true => rw [materialise_of_present hp]; exact h
  | false =>
    have hc := h.clearedGranule hd
    rw [materialise_of_absent hp]
    exact .ite (fun _ => hc.withHbm _ (hheld := mapHeld_full _)) fun _ => hc

theorem materialise_present {pa : Nat} {s : State} (hs : BlocksCanon s) (hd : DataAddr pa) : (materialise pa s).present pa = true := by
  cases hp : s.present pa with
  | true => rw [materialise_of_present hp, hp]
  | false =>
    have hbyte : cget 0 (clearedGranule pa s).hbm.bytes (presenceAddr pa)
        = BitVec.ofNat 8 ((cget 0 s.hbm.bytes (presenceAddr pa)).toNat + 2 ^ (pa / 0x1000 % 8)) := by
      have hw := cwf_cclear (pa / 0x1000 * 0x1000) (pa / 0x1000 * 0x1000 + 0x1000) hs.bytes
      simp only [clearedGranule, State.hbmPut2, State.hbmPut]
      rw [cget_csetList _ _ _ (cwf_csetList _ _ hw), if_neg (by simp only [mirrorGap]; omega), cget_csetList _ _ _ hw,
        if_pos (by simp), Nat.sub_self]
      rfl
    have hset : (clearedGranule pa s).present pa = true := by
      rw [present_eq hd, hbyte]
      rw [present_eq hd] at hp
      exact bitOf_add_pow (Nat.mod_lt _ (by decide)) hp
    rw [materialise_of_absent hp]
    split
    · exact hset
    · exact hset

/-! ### The bytes of the block -/

/-- The bytes `bs` stand at `pa` within a block that has no errors. -/
structure Stands (pa : Nat) (bs : List Byte) (s : State) : Prop where
  clean : cget [] s.hbm.errs (pa / 64) = []
  bytes : s.hbmBytes pa bs.length = bs

theorem hbmBytes_hbmPut {s : State} (hs : cwf 0 s.hbm.bytes = true) (pa : Nat) (bs : List Byte) :
    (s.hbmPut pa bs).hbmBytes pa bs.length = bs := by
  refine List.ext_getElem (by rw [length_hbmBytes]) fun i _ hi => ?_
  simp only [State.hbmBytes, cgetList, List.getElem_map, List.getElem_range]
  rw [State.hbmPut_byte hs, if_pos (by omega), Nat.add_sub_cancel_left]
  simp [hi]

/-- What stands in a clean block is read. -/
theorem readBlock_of_stands {pa : Nat} {bs : List Byte} {s : State} (h : Stands pa bs s) (hin : pa % 64 + bs.length ≤ 64) :
    ∃ data, readBlock pa s = (some data, s) ∧ (data.drop (pa % 64)).take bs.length = bs := by
  refine ⟨s.hbmBytes (pa / 64 * 64) 64, by simp [readBlock, h.clean], ?_⟩
  have hpa : pa / 64 * 64 + pa % 64 = pa := Nat.div_add_mod' pa 64
  have hb := h.bytes
  simp only [State.hbmBytes] at hb ⊢
  rw [take_drop_cgetList _ _ hin, hpa, hb]

/-- A store leaves a clean block where it covers the block or the block was clean. -/
theorem stands_blockStore {pa : Nat} {bs : List Byte} {s : State} (hs : BlocksCanon s)
    (h : bs.length = 64 ∨ cget [] s.hbm.errs (pa / 64) = []) : Stands pa bs (blockStore pa bs s) := by
  have hput := hbmBytes_hbmPut hs.bytes pa bs
  unfold blockStore
  dsimp only
  split
  · exact ⟨cget_cset_self [] _ _ hs.errs, hput⟩
  · next hlen => exact ⟨h.resolve_left hlen, hput⟩

/-- Part of a block that stands whole. -/
theorem stands_part {pa : Nat} {bs data : List Byte} {s : State} (h : Stands (pa / 64 * 64) (putAt data (pa % 64) bs) s)
    (hlen : data.length = 64) (hin : pa % 64 + bs.length ≤ 64) : Stands pa bs s := by
  have hbytes := h.bytes
  rw [length_putAt (by omega), hlen] at hbytes
  have hclean := h.clean
  rw [Nat.mul_div_cancel _ (by decide)] at hclean
  refine ⟨hclean, ?_⟩
  have hpa : pa / 64 * 64 + pa % 64 = pa := Nat.div_add_mod' pa 64
  simp only [State.hbmBytes] at hbytes ⊢
  rw [← hpa, ← take_drop_cgetList _ _ hin, hbytes, take_drop_putAt bs (by omega)]

theorem length_of_readBlock {pa : Nat} {data : List Byte} {s t : State} (h : readBlock pa s = (some data, t)) : data.length = 64 := by
  unfold readBlock at h
  dsimp only at h
  split at h
  · cases h; exact length_hbmBytes _ _ _
  · split at h
    · cases h; simp [overlay, length_hbmBytes]
    · cases h; simp [overlay, length_hbmBytes]
    · cases h

/-- Addresses that a write of data may change: data, and the error records of what it corrects. -/
def DataOrErr (a : Nat) : Prop := DataAddr a ∨ ErrArea a

theorem notFrames_of_dataOrErr (a : Nat) (h : DataOrErr a) : NotFrames a := by
  simp only [DataOrErr, DataAddr, ErrArea] at h
  simp only [NotFrames]
  omega

/-- A data address stays one to the end of its block. -/
theorem dataAddr_in_block {pa k : Nat} (h : DataAddr pa) (hk : k < 64) : DataAddr (pa / 64 * 64 + k) := by
  simp only [DataAddr] at h ⊢
  omega

theorem Calm.present {g : Nat} {s t : State} (h : Calm DataOrErr g s t) {pa : Nat} (hd : DataAddr pa) : t.present pa = s.present pa := by
  have ⟨hlo, hhi⟩ := presenceAddr_mod hd
  rw [present_eq hd, present_eq hd, h.bytes]
  simp only [DataOrErr, DataAddr, ErrArea]
  omega

/-- A write within a block that goes through. -/
theorem blockWrite_ok {g pa : Nat} {bs : List Byte} {s t : State} (hs : BlocksCanon s) (hd : DataAddr pa)
    (hin : pa % 64 + bs.length ≤ 64) (hw : blockWrite pa bs s = (true, t)) : Stands pa bs t ∧ Calm DataOrErr g s t := by
  have hpa : pa / 64 * 64 + pa % 64 = pa := Nat.div_add_mod' pa 64
  unfold blockWrite at hw
  split at hw
  · next hc =>
    cases hw
    rw [Bool.or_eq_true, decide_eq_true_eq, beq_iff_eq] at hc
    refine ⟨stands_blockStore hs hc, (Calm.refl hs).blockStore fun i hi => .inl ?_⟩
    have hi' := dataAddr_in_block hd (k := pa % 64 + i) (by omega)
    rwa [← Nat.add_assoc, hpa] at hi'
  · split at hw
    · next data u hr =>
      cases hw
      have hlen := length_of_readBlock hr
      have hu := (Calm.refl (g := g) hs).readBlock (P := DataOrErr) (fun _ => .inr) hr
      have hput : (putAt data (pa % 64) bs).length = 64 := (length_putAt (by omega)).trans hlen
      refine ⟨stands_part (stands_blockStore hu.canon (.inl hput)) hlen hin, hu.blockStore fun i hi => .inl ?_⟩
      exact dataAddr_in_block hd (by omega)
    · cases hw

end Sys2Proof.Machine
end

section
/-! An access that passes its translation passes it again after a write (R196, R197, R201, R220). -/
namespace Sys2Proof.Machine
set_option Elab.async false

/-! ### The walk and where it may lead -/

/-- The place in a block is that of the virtual address. -/
theorem walkLeaf_mod {s : State} {part bank va pa : Nat} {w : Bool} (h : walkLeaf s part bank va = .ok pa w) : pa % 64 = va % 64 := by
  unfold walkLeaf at h
  dsimp only at h
  split at h
  · cases h
  · split at h
    · cases h
    · split at h
      · cases h
      · split at h
        · split at h
          · cases h
          · cases h; omega
        · split at h
          · cases h
          · cases h; omega

theorem walk_ok {s : State} {part bank va pa : Nat} {w : Bool} (h : walk s part bank va = .ok pa w) :
    walkLeaf s part bank va = .ok pa w ∧ s.frameByte pa / 128 = 1 := by
  unfold walk at h
  split at h
  · next hl =>
    unfold walkFrame at h
    dsimp only at h
    split at h
    · next hf => cases h; exact ⟨hl, hf.1⟩
    · cases h
  · cases h

/-- A translation never leads to a reserved frame (R191). -/
theorem dataAddr_of_walk {s : State} {part bank va pa : Nat} {w : Bool} (h : walk s part bank va = .ok pa w) : DataAddr pa := by
  obtain ⟨-, hf⟩ := walk_ok h
  by_contra hd
  rw [DataAddr] at hd
  simp only [State.frameByte] at hf
  rw [if_pos (by omega)] at hf
  exact absurd hf (by decide)

namespace Calm
variable {g : Nat} {s t : State}

theorem walkLeaf {P : Nat → Prop} (h : Calm P g s t) (part bank va : Nat) : walkLeaf t part bank va = walkLeaf s part bank va := by
  have he (l i : Nat) : t.ptEntry part bank l i = s.ptEntry part bank l i := by rw [State.ptEntry, h.keeps.pt, State.ptEntry]
  unfold Machine.walkLeaf
  rw [he, he, he]

theorem frameByte (h : Calm NotFrames g s t) (pa : Nat) : t.frameByte pa = s.frameByte pa := by
  simp only [State.frameByte]
  split
  · rfl
  · rw [h.bytes]
    simp only [NotFrames, frameAddr, reservedBase]
    omega

theorem walk (h : Calm NotFrames g s t) (part bank va : Nat) : walk t part bank va = walk s part bank va := by
  simp only [Machine.walk, Machine.walkFrame, h.walkLeaf, h.frameByte]

/-! ### Routes, holds and the order at a stack -/

theorem portOut {P : Nat → Prop} (h : Calm P g s t) (d k : Nat) (hk : k < 4) :
    t.rfld (ZG_D2D_PORT d k) 52 51 = s.rfld (ZG_D2D_PORT d k) 52 51 :=
  h.hold _ (by simp only [HoldReg, ZG_D2D_PORT, dieBase]; omega) _ _ (by decide) (by decide)

theorem wayOut {P : Nat → Prop} (h : Calm P g s t) : ∀ n a b, t.wayOut n a b = s.wayOut n a b
  | 0, _, _ => rfl
  | n + 1, a, b => by
    simp only [State.wayOut, State.edgeOut, h.portOut a 0 (by decide), h.wayOut n]

theorem noRoute {P : Nat → Prop} (h : Calm P g s t) (a b : Nat) : t.noRoute a b = s.noRoute a b := by
  simp only [State.noRoute, h.wayOut]

theorem hubLost {P : Nat → Prop} (h : Calm P g s t) (d : Nat) : t.hubLost d = s.hubLost d := by
  simp only [State.hubLost, h.portOut d 2 (by decide)]

theorem holdOf {P : Nat → Prop} (h : Calm P g s t) (hs : BlocksCanon s) (pa : Nat) : holdOf t pa = holdOf s pa := by
  have hdies (d : Nat) : t.dieFailed d = s.dieFailed d := by
    simp only [State.dieFailed, State.rfld, h.keeps.reg ZG_BOOT_DIES (by decide) (by decide) (.inl hs.regs)]
  have hlevel : t.rfld (stackReg (stackOf pa)) 39 38 = s.rfld (stackReg (stackOf pa)) 39 38 :=
    h.hold _ (by simp only [HoldReg, stackReg, ZG_HBM_STACK, dieBase]; omega) _ _ (by decide) (by decide)
  simp only [Machine.holdOf, hdies, h.power, hlevel]
  rw [h.stack]

theorem admitted {P : Nat → Prop} (h : Calm P g s t) (rq : Req) (m : Nat) : admitted rq m t = admitted rq m s := by
  obtain ⟨-, hd2d, hq, -⟩ := h.keeps.told rfl
  have hlive (w : StackWait) : liveWait t w = liveWait s w := by
    simp only [liveWait, State.flight, State.queue, hd2d, hq]
  simp only [Machine.admitted, h.waits, hlive]
  rw [h.stack]

end Calm

/-! ### Entering a stack -/

theorem enterStack_rest (rq : Req) (m : Nat) (s : State) : enterStack rq m s = { s with hbm := { s.hbm with
    stackSt := (enterStack rq m s).hbm.stackSt, waits := (enterStack rq m s).hbm.waits } } := by
  unfold enterStack
  dsimp only
  split <;> rfl

theorem enterStack_bytes (rq : Req) (m : Nat) (s : State) : (enterStack rq m s).hbm.bytes = s.hbm.bytes := by rw [enterStack_rest]
theorem enterStack_errs (rq : Req) (m : Nat) (s : State) : (enterStack rq m s).hbm.errs = s.hbm.errs := by rw [enterStack_rest]

theorem enterStack_canon {rq : Req} {m : Nat} {s : State} (h : BlocksCanon s) : BlocksCanon (enterStack rq m s) := by
  unfold enterStack
  dsimp only
  split
  · exact { h with perStack := cwf_cset _ _ h.perStack }
  · exact h

theorem enterStack_stack {rq : Req} {m : Nat} {s : State} (h : BlocksCanon s) (k : Nat) :
    (enterStack rq m s).stack k = { s.stack k with turn := ((enterStack rq m s).stack k).turn } := by
  unfold enterStack
  dsimp only
  split
  · simp only [State.stack, State.setStack, cget_cset h.perStack]
    split
    · subst_vars; rfl
    · rfl
  · rfl

/-- A command that was admitted at a stack and entered it is admitted there again. -/
theorem admitted_enterStack {rq : Req} {m : Nat} {s : State} (h : BlocksCanon s) (ha : admitted rq m s = true) :
    admitted rq m (enterStack rq m s) = true := by
  unfold enterStack
  dsimp only
  split
  · have hturn : ((s.setStack m { s.stack m with turn := some (rq.queue, rq.seq) }).stack m).turn = some (rq.queue, rq.seq) := by
      simp only [State.stack, State.setStack, cget_cset h.perStack, if_true]
    simp only [admitted, Bool.or_eq_true]
    right
    split
    · rfl
    · rw [Bool.or_eq_true, beq_iff_eq]
      exact .inr hturn
  · exact ha

/-! ### Translation -/

/-- What a translation that gives `pa` rests on; and the translation is in the cache of the requester's die. -/
structure Passes (rq : Req) (va pa : Nat) (s : State) : Prop where
  low : va < 0x20000000000
  cached : cached rq va s = true
  walk : ∃ w, walk s rq.part rq.bank va = .ok pa w
  route : (s.noRoute rq.die (dieOf pa) || rq.ring && s.hubLost (dieOf pa)) = false
  hold : holdOf s pa = none
  admitted : admitted rq (stackOf pa) s = true

theorem translate_of_passes {rq : Req} {va pa : Nat} {s : State} (h : Passes rq va pa s) :
    translate rq va false s = .ok pa (enterStack rq (stackOf pa) s) := by
  obtain ⟨w, hw⟩ := h.walk
  have hlow := h.low
  have hlook : lookUp rq va s = .ok (pa, w) s := by
    simp only [lookUp]
    rw [if_neg (by omega), if_pos h.cached, hw]
  rw [translate, hlook]
  simp only [Acc.bind, Bool.false_and]
  rw [if_neg (by decide), if_neg (by rw [h.route]; decide), h.hold]
  simp only [h.admitted, if_true]

theorem Passes.calm {g : Nat} {rq : Req} {va pa : Nat} {s t : State} (h : Passes rq va pa s) (hs : BlocksCanon s)
    (hc : Calm NotFrames g s t) : Passes rq va pa t where
  low := h.low
  cached := by rw [Machine.cached, hc.tlb]; exact h.cached
  walk := by simp only [hc.walk]; exact h.walk
  route := by rw [hc.noRoute, hc.hubLost, h.route]
  hold := by rw [hc.holdOf hs, h.hold]
  admitted := by rw [hc.admitted, h.admitted]

theorem Passes.enterStack {rq : Req} {va pa : Nat} {s : State} (h : Passes rq va pa s) (hs : BlocksCanon s) :
    Passes rq va pa (enterStack rq (stackOf pa) s) where
  low := h.low
  cached := by rw [enterStack_rest]; exact h.cached
  walk := by rw [enterStack_rest]; exact h.walk
  route := by rw [enterStack_rest]; exact h.route
  hold := by
    have hh := h.hold
    unfold holdOf at hh ⊢
    dsimp only at hh ⊢
    rw [enterStack_stack hs, enterStack_rest]
    exact hh
  admitted := admitted_enterStack hs h.admitted

/-! ### A look-up leaves its translation in the cache -/

theorem calm_frameLine {k g : Nat} {s t : State} (hs : BlocksCanon s) (h : frameLine k s = (true, t)) : Calm (fun _ => True) g s t := by
  unfold frameLine at h
  dsimp only at h
  split at h
  · cases h; exact .refl hs
  · split at h
    · cases h
    · split at h
      · next hm => cases h; exact (Calm.refl hs).mirroredLine (fun _ _ => trivial) (fun _ _ => trivial) hm
      · cases h

theorem cached_cacheWalk (rq : Req) (va : Nat) (s : State) : cached rq va (cacheWalk rq va s) = true := by
  simp only [cached, cacheWalk]
  rw [cget_cset_listed [] _ _ (by simp)]
  simp

theorem lookUp_ok {rq : Req} {va pa : Nat} {w : Bool} {s t : State} (hs : BlocksCanon s) (h : lookUp rq va s = .ok (pa, w) t) :
    BlocksCanon t ∧ va < 0x20000000000 ∧ cached rq va t = true ∧ walk t rq.part rq.bank va = .ok pa w := by
  unfold lookUp at h
  dsimp only at h
  split at h
  · cases h
  · next hlow =>
    rw [Nat.not_le] at hlow
    split at h
    · next hc =>
      split at h
      · next hw => cases h; exact ⟨hs, hlow, hc, hw⟩
      · cases h
    · have h1 : BlocksCanon (pmcCount rq.die 0x0A none 1 s) := ((Calm.refl (P := fun _ => True) (g := 0) hs).pmcCount _ _ _ _).canon
      split at h
      · cases h
      · next s2 hr =>
        have h2 := (Calm.refl (g := 0) h1).readTables (P := fun _ => True) (fun _ _ => trivial) _ hr
        split at h
        · cases h
        · next pa' w' hleaf =>
          split at h
          · cases h
          · next s4 hf =>
            have h3 := calm_frameLine (g := 0) h2.canon hf
            split at h
            · next hwf =>
              cases h
              refine ⟨{ h3.canon with }, hlow, cached_cacheWalk _ _ _, ?_⟩
              show walk s4 rq.part rq.bank va = .ok pa w
              rw [walk, h3.walkLeaf, hleaf]
              exact hwf
            · cases h

theorem passes_of_translate {rq : Req} {va pa : Nat} {write : Bool} {s t : State} (hs : BlocksCanon s)
    (h : translate rq va write s = .ok pa t) : BlocksCanon t ∧ Passes rq va pa t := by
  unfold translate at h
  cases hl : lookUp rq va s with
  | fault k a u => rw [hl] at h; cases h
  | wait m a u => rw [hl] at h; cases h
  | ok x u =>
    obtain ⟨pa', w⟩ := x
    obtain ⟨hu, hlow, hc, hw⟩ := lookUp_ok hs hl
    rw [hl] at h
    simp only [Acc.bind] at h
    split at h
    · cases h
    · split at h
      · cases h
      · next hr =>
        split at h
        · cases h
        · cases h
        · next hh =>
          split at h
          · next ha =>
            cases h
            exact ⟨enterStack_canon hu, Passes.enterStack ⟨hlow, hc, ⟨w, hw⟩, by simpa using hr, hh, ha⟩ hu⟩
          · cases h

/-! ### A write within a block, and its bytes read again -/

/-- After a write within a block that goes through, the translation passes again, the map line is held, the granule is present and the
bytes stand. -/
structure Written (rq : Req) (va pa : Nat) (bs : List Byte) (s : State) : Prop where
  canon : BlocksCanon s
  passes : Passes rq va pa s
  held : MapHeld (frameNo pa) s
  present : s.present pa = true
  stands : Stands pa bs s
  fits : pa % 64 + bs.length ≤ 64

theorem written_of_vaWritePart {rq : Req} {va : Nat} {bs : List Byte} {s t : State} (hs : BlocksCanon s)
    (hin : va % 64 + bs.length ≤ 64) (h : vaWritePart rq va bs s = .ok () t) : ∃ pa, Written rq va pa bs t := by
  unfold vaWritePart at h
  cases ht : translate rq va true s with
  | fault k a u => rw [ht] at h; cases h
  | wait m a u => rw [ht] at h; cases h
  | ok pa u =>
    obtain ⟨hu, hp⟩ := passes_of_translate hs ht
    obtain ⟨w, hw⟩ := hp.walk
    have ⟨hleaf, _⟩ := walk_ok hw
    have hd := dataAddr_of_walk hw
    have hfits : pa % 64 + bs.length ≤ 64 := by rw [walkLeaf_mod hleaf]; exact hin
    rw [ht] at h
    simp only [Acc.bind] at h
    split at h
    · cases h
    · next v hc =>
      obtain ⟨hv, hheld⟩ := (Calm.refl hu).consultMap hc
      have hm := (hv.pmcCount rq.die 5 (some rq.part) 1).materialise hd
      have hcount := (Calm.refl (P := NotFrames) (g := frameNo pa) hv.canon).pmcCount rq.die 5 (some rq.part) 1
      have hpres := materialise_present hcount.canon hd
      have hmheld := (hcount.materialise hd).held hheld
      split at h
      · next x hb =>
        cases h
        obtain ⟨hst, hwr⟩ := blockWrite_ok (g := frameNo pa) hm.canon hd hfits hb
        refine ⟨pa, hwr.canon, hp.calm hu (hm.trans (hwr.mono notFrames_of_dataOrErr)), hwr.held hmheld, ?_, hst, hfits⟩
        rw [hwr.present hd, hpres]
      · cases h

theorem vaReadPart_of_written {rq : Req} {va pa : Nat} {bs : List Byte} {s : State} (h : Written rq va pa bs s) :
    ∃ u, vaReadPart rq va bs.length s = .ok bs u := by
  have hheld : MapHeld (frameNo pa) (enterStack rq (stackOf pa) s) := by rw [enterStack_rest]; exact h.held
  have hpres : (enterStack rq (stackOf pa) s).present pa = true := by
    rw [State.present, enterStack_bytes]; exact h.present
  have hst : Stands pa bs (pmcCount rq.die 4 (some rq.part) 1 (enterStack rq (stackOf pa) s)) := by
    have hst := h.stands
    rw [pmcCount_rest]
    exact ⟨by simp only [enterStack_errs, hst.clean], by simp only [State.hbmBytes, enterStack_bytes]; exact hst.bytes⟩
  obtain ⟨data, hr, hdata⟩ := readBlock_of_stands hst h.fits
  refine ⟨pmcCount rq.die 4 (some rq.part) 1 (enterStack rq (stackOf pa) s), ?_⟩
  rw [vaReadPart, translate_of_passes h.passes]
  simp only [Acc.bind, consultMap_of_held hheld]
  rw [if_pos hpres, hr]
  simp only [hdata]

/-- A write within a block is one part. -/
theorem vaWrite_within {rq : Req} {va : Nat} {bs : List Byte} {s t : State} (hpos : 0 < bs.length) (hin : va % 64 + bs.length ≤ 64)
    (h : vaWrite rq va bs s = .ok () t) : vaWritePart rq va bs s = .ok () t := by
  have hne : bs ≠ [] := List.ne_nil_of_length_pos hpos
  have hm : min bs.length (64 - va % 64) = bs.length := by omega
  rw [vaWrite, vaWriteN, if_neg hne] at h
  simp only [hm, List.take_length, List.drop_length] at h
  cases hp : vaWritePart rq va bs s with
  | ok x u =>
    rw [hp] at h
    simpa [Acc.bind, vaWriteN] using h
  | fault k a u => rw [hp] at h; cases h
  | wait m a u => rw [hp] at h; cases h

/-- A read within a block is one part. -/
theorem vaRead_within {rq : Req} {va n : Nat} {bs : List Byte} {s u : State} (hpos : 0 < n) (hin : va % 64 + n ≤ 64)
    (h : vaReadPart rq va n s = .ok bs u) : vaRead rq va n s = .ok bs u := by
  have hm : min n (64 - va % 64) = n := by omega
  rw [vaRead, vaReadN, if_neg (by omega)]
  simp only [hm, h, Nat.sub_self, Acc.bind, vaReadN, if_true, List.append_nil]

/-- Settles O30: the write leaves all that the read's translation rests on, and its block without errors. -/
theorem hbmWritesReadBack : Obligations.HbmWritesReadBack := by
  intro rq va bs s t hcan herrs hst hpos hin hw
  have hc := canon_iff.2 ⟨hcan, rfl⟩
  obtain ⟨pa, h⟩ := written_of_vaWritePart ⟨hc.regs, hc.hbmBytes, herrs, hst⟩ hin (vaWrite_within hpos hin hw)
  obtain ⟨u, hu⟩ := vaReadPart_of_written h
  exact ⟨u, vaRead_within hpos hin hu⟩

end Sys2Proof.Machine
end

section
/-! What a frame that is sent, dealt, acknowledged or replayed leaves of a link: the sending sides, the wires, the frames that wait
(R225 to R231). -/
namespace Sys2Proof.Machine
open Sys2Proof

theorem pmcCount_d2d (d event : Nat) (part : Option Nat) (n : Nat) (s : State) : (pmcCount d event part n s).d2d = s.d2d := by
  rw [pmcCount_rest]

theorem bump_d2d (off n : Nat) (s : State) : (bump off n s).d2d = s.d2d := by
  rw [show bump off n s = bumpKey off n s from rfl, bumpKey_rest]

/-! ### Sides of a strand -/

section
variable {s : State} {e k e' j : Nat}

/-- A sending side that holds a frame stands in the table, whatever the table's form. -/
theorem setTx_tx {x : StrandTx} (hx : x.replay ≠ []) : (s.setTx e k x).tx e k = x :=
  cget_cset_listed _ _ _ fun h => hx (h ▸ rfl)

theorem setTx_tx_other {x : StrandTx} (hx : x.replay ≠ []) (hne : e' * 64 + j ≠ e * 64 + k) : (s.setTx e k x).tx e' j = s.tx e' j :=
  cget_cset_listed_ne _ _ (fun h => hx (h ▸ rfl)) hne

/-- A receiving side that has seen a CRC failure stands in the table, whatever the table's form. -/
theorem setRx_rx {x : StrandRx} (hx : x.crcAt ≠ []) : (s.setRx e k x).rx e k = x :=
  cget_cset_listed _ _ _ fun h => hx (h ▸ rfl)

/-- An ACK changes the sending sides only. -/
theorem takeAck_rest (e k ack : Nat) (s : State) : takeAck e k ack s = { s with d2d := { s.d2d with tx := (takeAck e k ack s).d2d.tx } } := by
  unfold takeAck
  dsimp only
  split <;> rfl

/-- The receiving side is not the ACK's concern. -/
theorem takeAck_rx (ack : Nat) : (takeAck e k ack s).rx e' j = s.rx e' j := by rw [takeAck_rest]; rfl

theorem takeAck_now (ack : Nat) : (takeAck e k ack s).now = s.now := by rw [takeAck_rest]; rfl

end

/-! ### On the wires (R225, R228) -/

section
variable {s : State} {e k : Nat} (kind fseq pool : Nat) (f : Option D2dFrame)

theorem putOnWire_tx (h : (s.tx e k).replay ≠ []) :
    (putOnWire e k kind fseq pool f s).tx e k = { s.tx e k with turn := ((s.tx e k).turn + 1) % 51 } := setTx_tx h

theorem putOnWire_wire : cget [] (putOnWire e k kind fseq pool f s).d2d.wire (e * 64 + k) = cget [] s.d2d.wire (e * 64 + k)
    ++ [⟨kind, fseq, ((s.rx e k).expect + 4095) % 4096, (s.tx e k).turn, cget 0 (s.rx e k).freed (s.tx e k).turn % 128, pool, f⟩] :=
  cget_cset_listed _ _ _ (by simp)

theorem putOnWire_other {e' j : Nat} (h : (s.tx e k).replay ≠ []) (hne : e' * 64 + j ≠ e * 64 + k) :
    (putOnWire e k kind fseq pool f s).tx e' j = s.tx e' j
      ∧ cget [] (putOnWire e k kind fseq pool f s).d2d.wire (e' * 64 + j) = cget [] s.d2d.wire (e' * 64 + j) :=
  ⟨setTx_tx_other h hne, cget_cset_listed_ne _ _ (by simp) hne⟩

end

/-! ### Dealing (R230) -/

/-- The strand that a frame is dealt to, if one can take it. -/
def dealStrand (e : Nat) (f : D2dFrame) (s : State) : Option Nat :=
  ((List.range (linkStrands (linkOf e))).map (fun i => (cget 0 s.d2d.turn e + i) % linkStrands (linkOf e))).find?
    (fun k => s.canTake e k f.buf (poolOf e f))

/-- The sending side of a strand once it has taken a frame. -/
def StrandTx.taking (x : StrandTx) (pool now : Nat) (f : D2dFrame) : StrandTx :=
  { x with next := (x.next + 1) % 4096, replay := x.replay ++ [⟨x.next, 1, pool, f⟩], ackAt := if x.replay = [] then now else x.ackAt,
           used := cset 0 x.used (creditKey f.buf pool) (cget 0 x.used (creditKey f.buf pool) + 1) }

/-- A frame goes into the replay buffer of strand `k` and on its wires. -/
def dealToStrand (e k : Nat) (f : D2dFrame) (s : State) : State :=
  putOnWire e k 1 (s.tx e k).next (poolOf e f) (some f) (s.setTx e k ((s.tx e k).taking (poolOf e f) s.now f))

theorem dealFrame_eq (e : Nat) (f : D2dFrame) (s : State) : dealFrame e f s = (dealStrand e f s).map fun k =>
    { dealToStrand e k f s with d2d := { (dealToStrand e k f s).d2d with
      turn := cset 0 s.d2d.turn e ((k + 1) % linkStrands (linkOf e)) } } := by
  unfold dealFrame
  cases h : dealStrand e f s <;> simp only [dealStrand] at h <;> simp only [h] <;> rfl

/-- A rotation of the first `n` numbers holds each of them. -/
theorem mem_rotation {k n : Nat} (hk : k < n) (t : Nat) : k ∈ (List.range n).map fun i => (t + i) % n := by
  refine List.mem_map.2 ⟨(k + (n - t % n)) % n, List.mem_range.2 (Nat.mod_lt _ (by omega)), ?_⟩
  have ht := Nat.mod_lt t (by omega : 0 < n)
  rw [Nat.add_mod_mod, ← Nat.mod_add_mod, show t % n + (k + (n - t % n)) = k + n by omega, Nat.add_mod_right, Nat.mod_eq_of_lt hk]

theorem dealStrand_eq_none {e : Nat} {f : D2dFrame} {s : State}
    (h : ∀ k < linkStrands (linkOf e), s.canTake e k f.buf (poolOf e f) = false) : dealStrand e f s = none := by
  refine List.find?_eq_none.2 fun k hk => ?_
  obtain ⟨i, hi, rfl⟩ := List.mem_map.1 hk
  exact Bool.eq_false_iff.1 (h _ (Nat.mod_lt _ (Nat.zero_lt_of_lt (List.mem_range.1 hi))))

theorem dealStrand_eq_some {e k : Nat} {f : D2dFrame} {s : State} (h : dealStrand e f s = some k) :
    k < linkStrands (linkOf e) ∧ s.canTake e k f.buf (poolOf e f) = true := by
  obtain ⟨i, hi, rfl⟩ := List.mem_map.1 (List.mem_of_find?_eq_some h)
  exact ⟨Nat.mod_lt _ (Nat.zero_lt_of_lt (List.mem_range.1 hi)), List.find?_some (p := fun k => s.canTake e k f.buf (poolOf e f)) h⟩

theorem exists_dealStrand {e k : Nat} {f : D2dFrame} {s : State} (hk : k < linkStrands (linkOf e))
    (h : s.canTake e k f.buf (poolOf e f) = true) : ∃ k', dealStrand e f s = some k' :=
  Option.isSome_iff_exists.1 (List.find?_isSome.2 ⟨k, mem_rotation hk _, h⟩)

theorem canTake_iff {s : State} {e k cls pool : Nat} : s.canTake e k cls pool = true ↔
    (s.strand (linkOf e) k).st = 1 ∧ s.endOut e = false ∧ (s.tx e k).replay.length < 32
      ∧ (cget 0 (s.tx e k).used (creditKey cls pool) + 128 - cget 0 (s.tx e k).back (creditKey cls pool)) % 128 < creditLimit cls pool := by
  simp [State.canTake, and_assoc]

section
variable {s : State} {e k : Nat} {f : D2dFrame}

theorem taking_replay_ne (x : StrandTx) (pool now : Nat) (f : D2dFrame) : (x.taking pool now f).replay ≠ [] := by simp [StrandTx.taking]

theorem setTx_taking (pool now : Nat) (x : StrandTx) : (s.setTx e k (x.taking pool now f)).tx e k = x.taking pool now f :=
  setTx_tx (taking_replay_ne x pool now f)

theorem dealToStrand_tx : (dealToStrand e k f s).tx e k =
    { (s.tx e k).taking (poolOf e f) s.now f with turn := ((s.tx e k).turn + 1) % 51 } := by
  rw [dealToStrand, putOnWire_tx _ _ _ _ (by rw [setTx_taking]; exact taking_replay_ne _ _ _ _), setTx_taking]
  rfl

theorem dealToStrand_wire : cget [] (dealToStrand e k f s).d2d.wire (e * 64 + k) = cget [] s.d2d.wire (e * 64 + k)
    ++ [⟨1, (s.tx e k).next, ((s.rx e k).expect + 4095) % 4096, (s.tx e k).turn, cget 0 (s.rx e k).freed (s.tx e k).turn % 128,
         poolOf e f, some f⟩] := by
  rw [dealToStrand, putOnWire_wire, setTx_taking]
  rfl

theorem dealToStrand_other {e' j : Nat} (hne : e' * 64 + j ≠ e * 64 + k) : (dealToStrand e k f s).tx e' j = s.tx e' j
    ∧ cget [] (dealToStrand e k f s).d2d.wire (e' * 64 + j) = cget [] s.d2d.wire (e' * 64 + j) := by
  obtain ⟨ht, hw⟩ := putOnWire_other (s := s.setTx e k ((s.tx e k).taking (poolOf e f) s.now f)) 1 (s.tx e k).next (poolOf e f) (some f)
    (by rw [setTx_taking]; exact taking_replay_ne _ _ _ _) hne
  exact ⟨ht.trans (setTx_tx_other (taking_replay_ne _ _ _ _) hne), hw⟩

end

/-- A frame that a strand can take is dealt to one strand that can, and only the sending sides, the wires and the rotation move. -/
theorem dealFrame_dealt {e : Nat} {f : D2dFrame} {s t : State} (h : dealFrame e f s = some t) :
    ∃ k, k < linkStrands (linkOf e) ∧ s.canTake e k f.buf (poolOf e f) = true
      ∧ t = { dealToStrand e k f s with d2d := { (dealToStrand e k f s).d2d with
          turn := cset 0 s.d2d.turn e ((k + 1) % linkStrands (linkOf e)) } } := by
  rw [dealFrame_eq, Option.map_eq_some_iff] at h
  obtain ⟨k, hk, rfl⟩ := h
  obtain ⟨hlt, hcan⟩ := dealStrand_eq_some hk
  exact ⟨k, hlt, hcan, rfl⟩

theorem exists_dealFrame {e k : Nat} {f : D2dFrame} {s : State} (hk : k < linkStrands (linkOf e))
    (h : s.canTake e k f.buf (poolOf e f) = true) : ∃ t, dealFrame e f s = some t := by
  obtain ⟨k', hk'⟩ := exists_dealStrand hk h
  exact ⟨_, by rw [dealFrame_eq, hk']; rfl⟩

theorem dealFrame_out {e : Nat} {f : D2dFrame} {s t : State} (h : dealFrame e f s = some t) : t.d2d.out = s.d2d.out := by
  obtain ⟨k, -, -, rfl⟩ := dealFrame_dealt h
  rfl

/-! ### The next frame of an end (R229) -/

section
variable {s : State} {e : Nat}

theorem setWaiting_waiting (h : cwf [] s.d2d.out = true) (e' cls hops cls' hops' : Nat) (fs : List (Nat × D2dFrame)) :
    (s.setWaiting e cls hops fs).waiting e' cls' hops' =
      if e' * 64 + 3 * cls' + hops' = e * 64 + 3 * cls + hops then fs else s.waiting e' cls' hops' := cget_cset h _ _ _

/-- A head that can go is the first of its class, and what is left of the class waits on. -/
theorem dealHead_dealt {key came : Nat} {f : D2dFrame} {t : State} (h : dealHead e key s = some (came, f, t)) :
    ∃ rest, s.waiting e (key / 3) (key % 3) = (came, f) :: rest ∧ t.d2d.out = (s.setWaiting e (key / 3) (key % 3) rest).d2d.out := by
  unfold dealHead at h
  split at h
  · cases h
  · next came' f' rest hw =>
    obtain ⟨u, hu, he⟩ := Option.map_eq_some_iff.1 h
    cases he
    exact ⟨rest, hw, dealFrame_out hu⟩

theorem freeBuffer_out (came cls pool : Nat) (s : State) : (freeBuffer came cls pool s).d2d.out = s.d2d.out := by
  unfold freeBuffer
  split <;> rfl

/-- The end deals the head that its order finds first; the buffer, the turn and the counters are not the waiting frames. -/
theorem dealNext_out {r : Nat × Nat × D2dFrame × State}
    (h : (dealOrder e s).findSome? (fun key => (dealHead e key s).map (fun r => (key, r))) = some r) :
    (dealNext e s).d2d.out = r.2.2.2.d2d.out := by
  obtain ⟨key, came, f, t⟩ := r
  simp only [dealNext, h]
  split
  · rw [pmcCount_d2d]; exact freeBuffer_out ..
  · exact freeBuffer_out ..

/-- A frame of a unit that its end may send joins those that wait, with its unit's next transaction number, and the next is dealt. -/
theorem exec_sendData {e : LinkEnd} {u : D2dUnit} (hwf : u.wf = true) (hcls : u.cls ≠ 1) (hmay : s.mayOffer e u.cls u.dest = true) :
    let key := seqKey (nodeOf e) u.dest u.cls u.unit.toNat
    let n := cget 0 s.d2d.txn key
    exec (.d2dFrameSend e (.data u)) s = .next (dealNext e (enqueueFrame e 0
      ⟨u.cls, u.unit.toNat * 2048 + n, u.offset.toNat, u.dest, nodeOf e, 0, 0, u.data, 0⟩
      { s with d2d := { s.d2d with txn := cset 0 s.d2d.txn key ((n + 1) % 2048) } })) := by
  have hoffer : ¬ (u.cls = 1 ∨ s.mayOffer e u.cls u.dest = false) := by simp [hcls, hmay]
  have hsend : ¬ (D2dSend.data u).wf = false := by simp [D2dSend.wf, hwf]
  simp only [exec, execD2dFrameSend, if_neg hsend, offerFrame, if_neg hoffer]

/-- A CTRL head that can go goes, or another CTRL head does: CTRL comes first in the order. -/
theorem dealOrder_ctrl {key : Nat} (hkey : key < 3) (h : (dealHead e key s).isSome = true) : ∃ key' came f t, key' < 3
    ∧ dealHead e key' s = some (came, f, t)
    ∧ (dealOrder e s).findSome? (fun key => (dealHead e key s).map (fun r => (key, r))) = some (key', came, f, t) := by
  have hsome : (((List.range 3).map fun i => (cget 0 s.d2d.arb (2 * e) + i) % 3).findSome?
      fun key => (dealHead e key s).map fun r => (key, r)).isSome = true :=
    List.findSome?_isSome_iff.2 ⟨key, mem_rotation hkey _, by simpa using h⟩
  obtain ⟨⟨key', came, f, t⟩, hr⟩ := Option.isSome_iff_exists.1 hsome
  obtain ⟨i, hi, hhead⟩ := List.exists_of_findSome?_eq_some hr
  obtain ⟨x, hx, he⟩ := Option.map_eq_some_iff.1 hhead
  cases he
  obtain ⟨j, -, hj⟩ := List.mem_map.1 hi
  exact ⟨_, came, f, t, hj ▸ Nat.mod_lt _ (by omega), hx, by rw [dealOrder, List.findSome?_append, hr]; rfl⟩

/-- A CTRL frame goes before all of other classes, which wait on unchanged. -/
theorem dealNext_ctrl {key : Nat} (hkey : key < 3) (hout : cwf [] s.d2d.out = true) (h : (dealHead e key s).isSome = true) :
    (∃ key' came f, key' < 3 ∧ s.waiting e 0 key' = (came, f) :: (dealNext e s).waiting e 0 key')
      ∧ ∀ cls hops, 1 ≤ cls → cls ≤ 16 → hops < 3 → (dealNext e s).waiting e cls hops = s.waiting e cls hops := by
  obtain ⟨key', came, f, t, hlt, hhead, hfind⟩ := dealOrder_ctrl hkey h
  obtain ⟨rest, hw, ht⟩ := dealHead_dealt hhead
  have hwait (cls hops : Nat) : (dealNext e s).waiting e cls hops = (s.setWaiting e (key' / 3) (key' % 3) rest).waiting e cls hops :=
    congrArg (cget [] · _) ((dealNext_out hfind).trans ht)
  rw [show key' / 3 = 0 by omega, show key' % 3 = key' by omega] at hw hwait
  refine ⟨⟨key', came, f, hlt, ?_⟩, fun cls hops hcls _ _ => ?_⟩
  · rw [hw, hwait, setWaiting_waiting hout, if_pos rfl]
  · rw [hwait, setWaiting_waiting hout, if_neg (by omega)]

end

/-! ### Frames off the wires (R226, R228, R231) -/

section
variable {s : State} {e : LinkEnd} {k : Fin 64} {w : WireFrame} {ws : List WireFrame}

/-- The oldest frame on the wires of a strand in service leaves them and is judged by its two CRCs. -/
theorem exec_frameReceive (hw : cget [] s.d2d.wire (peerEnd e * 64 + k) = w :: ws) (hst : (s.strand (linkOf e) k).st = 1) (a : D2dArrival) :
    exec (.d2dFrameReceive e k a) s = .next (takeFrame e k a.crcOk a.ackOk w
      { s with d2d := { s.d2d with wire := cset [] s.d2d.wire (peerEnd e * 64 + k) ws } }) := by
  simp only [exec, execD2dFrameReceive, hw]
  exact congrArg Host.Outcome.next (if_neg (not_not.2 hst))

end

section
variable {s : State} {e k : Nat} {w : WireFrame}

/-- The receiving side of a strand after a CRC failure. -/
def StrandRx.failing (x : StrandRx) (now : Nat) : StrandRx :=
  { x with crcAt := now :: x.crcAt.filter (fun t => decide (now < t + 1000000)) }

theorem failing_crcAt_ne (x : StrandRx) (now : Nat) : (x.failing now).crcAt ≠ [] := List.cons_ne_nil _ _

/-- A frame with a wrong CRC is counted at its strand, where it is a compute die's also in the die's counter; all but its ACK is lost. -/
theorem takeFrame_badCrc (ackOk : Bool) (s : State) : takeFrame e k false ackOk w s =
    let s1 := if ackOk then takeAck e k w.ack s else if e < 12 then bump (ZG_D2D_ACKBAD (endDie e)) 1 s else s
    let s2 := s1.setRx e k ((s1.rx e k).failing s1.now)
    if e < 12 then bump (ZG_D2D_CRC (endDie e) (portOf e)) 1 s2 else s2 := rfl

/-- What the count of a frame with a wrong CRC and a right ACK leaves of the links. -/
theorem takeFrame_badCrc_d2d (s : State) : (takeFrame e k false true w s).d2d =
    ((takeAck e k w.ack s).setRx e k ((s.rx e k).failing s.now)).d2d := by
  rw [takeFrame_badCrc]
  simp only [if_true, takeAck_rx, takeAck_now]
  split
  · exact bump_d2d _ _ _
  · rfl

theorem takeFrame_badCrc_rx (s : State) : (takeFrame e k false true w s).rx e k = (s.rx e k).failing s.now := by
  rw [State.rx, takeFrame_badCrc_d2d]
  exact setRx_rx (failing_crcAt_ne _ _)

/-- A frame with a right CRC: its credit is taken, and it is delivered where its FSEQ is the expected one. -/
theorem takeFrame_goodCrc {f : D2dFrame} (hf : w.frame = some f) (s : State) : takeFrame e k true true w s =
    let s1 := takeAck e k w.ack s
    let s2 := s1.setTx e k { s1.tx e k with back := cset 0 (s1.tx e k).back w.creditKey w.credit }
    if w.fseq ≠ (s2.rx e k).expect then s2
    else deliverFrame e k w.pool f (s2.setRx e k { s2.rx e k with expect := ((s2.rx e k).expect + 1) % 4096 }) := by
  simp only [takeFrame, hf]
  rfl

theorem deliverFrame_forwarded {pool : Nat} (hpool : pool ≠ 0) (f : D2dFrame) : deliverFrame e k pool f s =
    enqueueFrame (s.routeEnd (nodeOf e) f.dest) (e * 64 + k + 1) { f with hops := pool } s := if_pos hpool

end

/-! ### Replay (R227) -/

section
variable {s : State} {e k : Nat}

/-- Frames put on the wires again one after another: the replay buffer and all but the turn of the credits stay. -/
theorem foldl_putOnWire (ps : List Unacked) {s : State} (h : (s.tx e k).replay ≠ []) :
    let t := ps.foldl (fun s p => putOnWire e k 1 p.fseq p.pool (some p.frame) s) s
    (∃ turn, t.tx e k = { s.tx e k with turn := turn })
      ∧ (cget [] t.d2d.wire (e * 64 + k)).map (fun w => (w.fseq, w.frame)) =
          (cget [] s.d2d.wire (e * 64 + k)).map (fun w => (w.fseq, w.frame)) ++ ps.map (fun p => (p.fseq, some p.frame))
      ∧ t.d2d.rx = s.d2d.rx := by
  induction ps generalizing s with
  | nil => exact ⟨⟨_, rfl⟩, (List.append_nil _).symm, rfl⟩
  | cons p ps ih =>
    have hp := putOnWire_tx 1 p.fseq p.pool (some p.frame) h
    obtain ⟨⟨turn, htx⟩, hwire, hrx⟩ := ih (s := putOnWire e k 1 p.fseq p.pool (some p.frame) s) (by rw [hp]; exact h)
    refine ⟨⟨turn, htx.trans (by rw [hp])⟩, hwire.trans ?_, hrx⟩
    rw [putOnWire_wire]
    simp

theorem resendStrand_d2d (e k : Nat) (s : State) : (resendStrand e k s).d2d =
    ((s.tx e k).replay.foldl (fun s p => putOnWire e k 1 p.fseq p.pool (some p.frame) s) s).d2d := by
  unfold resendStrand
  dsimp only
  split
  · exact bump_d2d _ _ _
  · rfl

/-- The sending side of a strand whose frames are all sent once more. -/
def StrandTx.resent (x : StrandTx) (now : Nat) : StrandTx :=
  { x with replay := x.replay.map (fun p => { p with sends := p.sends + 1 }), ackAt := now }

theorem exec_replayTimeout {e : LinkEnd} {k : Fin 64} (hr : (s.tx e k).replay ≠ []) (hack : (s.tx e k).ackAt + 200 ≤ s.now)
    (hst : (s.strand (linkOf e) k).st = 1) :
    exec (.d2dReplayTimeout e k) s = .next (resendStrand e k (s.setTx e k ((s.tx e k).resent s.now))) :=
  congrArg Host.Outcome.next (if_neg (by simp only [hr, hst, Nat.not_lt.2 hack, ne_eq, not_true_eq_false, or_self, not_false_eq_true]))

/-- Every unacknowledged frame goes on the wires again, in order and with its FSEQ. -/
theorem resendStrand_resent (hr : (s.tx e k).replay ≠ []) :
    let t := resendStrand e k (s.setTx e k ((s.tx e k).resent s.now))
    (∃ turn, t.tx e k = { (s.tx e k).resent s.now with turn := turn })
      ∧ (cget [] t.d2d.wire (e * 64 + k)).map (fun w => (w.fseq, w.frame)) =
          (cget [] s.d2d.wire (e * 64 + k)).map (fun w => (w.fseq, w.frame)) ++ (s.tx e k).replay.map (fun p => (p.fseq, some p.frame))
      ∧ t.d2d.rx = s.d2d.rx := by
  have hne : ((s.tx e k).resent s.now).replay ≠ [] := by simpa [StrandTx.resent] using hr
  have htx := setTx_tx (s := s) (e := e) (k := k) hne
  obtain ⟨hside, hwire, hrx⟩ := foldl_putOnWire ((s.tx e k).resent s.now).replay (by rw [htx]; exact hne)
  dsimp only
  simp only [State.tx, resendStrand_d2d] at htx hside ⊢
  rw [htx] at hside ⊢
  exact ⟨hside, hwire.trans (by simp [StrandTx.resent, State.setTx, State.tx]), hrx⟩

end

/-! ### The statement -/

/-- Settles O34: dealing by the strand its rotation finds, the next frame by the order of the classes, a frame off the wires by its CRCs
and FSEQ, a replay frame by frame. -/
theorem framesAreDealtAcknowledgedAndReplayed : Obligations.FramesAreDealtAcknowledgedAndReplayed := by
  refine ⟨fun e f s => ⟨fun hno => ?_, fun k hk hcan => ?_⟩, fun e k s hst => ⟨?_, ?_⟩, fun e u s hwf hcls hmay => ?_,
    fun e key s hkey hout hhead => ⟨dealNext e s, rfl, dealNext_ctrl hkey hout hhead⟩, fun e k w ws s hw hst => ?_,
    fun e k pool f s hpool => deliverFrame_forwarded hpool f, fun e k s hr hack hst => ?_⟩
  · rw [dealFrame_eq, dealStrand_eq_none hno]; rfl
  · obtain ⟨t, ht⟩ := exists_dealFrame hk hcan
    obtain ⟨k', hlt, hcan', rfl⟩ := dealFrame_dealt ht
    obtain ⟨hst, -, hroom, -⟩ := canTake_iff.1 hcan'
    have hside := dealToStrand_tx (s := s) (e := e) (k := k') (f := f)
    refine ⟨k', _, ht, hlt, hcan', hroom, hst, congrArg StrandTx.replay hside, congrArg StrandTx.next hside, ?_, fun e' j hne => ?_, rfl⟩
    · exact dealToStrand_wire
    · exact dealToStrand_other (s := s) (f := f) hne
  · exact congrArg Host.Outcome.next (if_pos hst)
  · exact congrArg Host.Outcome.next (if_pos hst)
  · exact exec_sendData hwf hcls hmay
  · dsimp only
    simp only [exec_frameReceive hw hst]
    refine ⟨fun f hf => ?_, ⟨_, rfl, ?_, ?_, fun he => ?_⟩, fun he => ?_⟩
    · rw [takeFrame_goodCrc hf]
      dsimp only
      exact ⟨fun hseq => by rw [if_neg (not_not.2 hseq)], fun hseq => by rw [if_pos hseq]⟩
    · rw [takeFrame_badCrc_rx]; rfl
    · rw [takeFrame_badCrc_d2d]; rfl
    · rw [takeFrame_badCrc]
      simp only [if_pos he, if_true, takeAck_now]
      rfl
    · rw [takeFrame_badCrc]
      simp only [if_pos he]
      rfl
  · obtain ⟨⟨turn, htx⟩, hwire, hrx⟩ := resendStrand_resent hr
    refine ⟨_, exec_replayTimeout hr hack hst, ?_, hwire, ?_, ?_, hrx⟩
    · rw [htx]; rfl
    · rw [htx]; rfl
    · rw [htx]; rfl

end Sys2Proof.Machine
end

section
/-! Retraining of strands and the judging of links (R232 to R235). -/
namespace Sys2Proof.Machine
open Sys2Proof

section
variable {s : State}

/-- A strand of its link that is in service and has failed too often, or sent a frame for the eighth time, is not spared a retrain. -/
theorem retrain_due {l k st errs most : Nat} {ps : List Unacked} (hk : k < linkStrands l) (hst : st = 1)
    (hbad : most ≤ errs ∨ ∃ p ∈ ps, 8 ≤ p.sends) :
    ¬ (linkStrands l ≤ k ∨ st ≠ 1 ∨ (errs < most ∧ ps.any (fun p => decide (8 ≤ p.sends)) = false)) := by
  rintro (h | h | ⟨herrs, hnone⟩)
  · exact absurd hk (Nat.not_lt.2 h)
  · exact h hst
  · obtain hmany | ⟨p, hp, h8⟩ := hbad
    · exact absurd herrs (Nat.not_lt.2 hmany)
    · exact absurd (List.any_eq_false.1 hnone p hp) (by simpa using h8)

/-- A retrain takes its strand DOWN where the wires are too many, or where it fails for the third time. -/
theorem goesDown_iff {n fails : Nat} {ok : Bool} :
    (decide (4 < n) || (!ok && decide (2 ≤ fails))) = true ↔ 4 < n ∨ ok = false ∧ 2 ≤ fails := by simp

/-- A ring edge with too few strands that was trained and is in service goes out of service. -/
theorem judgeLink_edge {l by_ : Nat} (hl : l < 4) (hout : s.edgeOut l = false) (htrained : s.strandsIn l 0 ≠ 64)
    (hfew : s.strandsIn l 1 + s.strandsIn l 2 < s.edgeMin (endDie by_)) : judgeLink l by_ s = edgeOutOfService l by_ s := by
  have hgo : ¬ (s.edgeOut l || s.strandsIn l 0 == 64 || decide (s.edgeMin (endDie by_) ≤ s.strandsIn l 1 + s.strandsIn l 2)) = true := by
    simp [hout, htrained, hfew]
  rw [judgeLink, if_pos hl, if_neg hgo]

/-- A hub link without a strand in service is lost, once. -/
theorem judgeLink_hub {l : Nat} (by_ : Nat) (hl : 4 ≤ l) (hnone : s.strandsIn l 1 = 0) (hin : s.rfld (ZG_D2D_PORT (l - 4) 2) 52 51 ≠ 3) :
    judgeLink l by_ s = hubLinkLost (l - 4) s := by
  rw [judgeLink, if_neg (Nat.not_lt.2 hl), if_neg (not_or.2 ⟨hin, not_not.2 hnone⟩)]

end

/-- Settles O35: entering RETRAIN by its guard, the end of a retrain by its three branches, the link by its strands. -/
theorem strandsRetrainRejoinOrGoDown : Obligations.StrandsRetrainRejoinOrGoDown := by
  intro e k s l x d hk
  refine ⟨fun hst hbad => congrArg Host.Outcome.next (if_neg (retrain_due hk hst hbad)), fun ok bad hst => ?_,
    fun hfew htrained hl hout => judgeLink_edge hl hout htrained hfew, fun hl hnone hin => judgeLink_hub e hl hnone hin⟩
  have hdue : ¬ (linkStrands l ≤ k ∨ x.st ≠ 2) := by simp [hst, Nat.not_le.2 hk]
  refine ⟨fun hbad => congrArg Host.Outcome.next ((if_neg hdue).trans (if_pos (goesDown_iff.2 hbad))),
    fun hfew hno hagain => congrArg Host.Outcome.next ((if_neg hdue).trans ((if_neg (mt goesDown_iff.1 ?_)).trans (if_pos ?_))),
    fun hfew hok => congrArg Host.Outcome.next ((if_neg hdue).trans ((if_neg (mt goesDown_iff.1 ?_)).trans (if_neg ?_)))⟩
  · rintro (h | ⟨-, h⟩)
    · exact absurd h (Nat.not_lt.2 hfew)
    · exact absurd h (Nat.not_le.2 hagain)
  · simp [hno]
  · rintro (h | ⟨h, -⟩)
    · exact absurd h (Nat.not_lt.2 hfew)
    · simp [hok] at h
  · simp [hok]

end Sys2Proof.Machine
end

section
/-! Stream commands (R236, R237, R239, R240) by their checks, and stalls by their length (R243, R244). -/
namespace Sys2Proof.Machine
open Sys2Proof

section
variable {s s0 : State} {q : Qn} {seq : Word64} {f : Flight} {y : Stream}

/-- ACTION 0 and the reserved ACTION 3 are for STREAM_OPEN to judge, while it has not opened the stream (R236). -/
theorem open_due (hphase : f.phase = 0) (hact : byteAt (dBody f.desc) 0 / 64 = 0 ∨ byteAt (dBody f.desc) 0 / 64 = 3) :
    ¬ (f.phase ≠ 0 ∨ byteAt (dBody f.desc) 0 / 64 = 1 ∨ byteAt (dBody f.desc) 0 / 64 = 2) := by omega

/-- A RELEASE that passes every check and does not move a mark back waits in order for the tile commands before it (R239). -/
theorem exec_streamRelease_of_checked (h : s.runs q seq 0x40 f) (hphase : f.phase = 0) (hact : byteAt (dBody f.desc) 0 / 64 = 1)
    (hbody : checkStream (s.queue q).die (dBody f.desc) s = 0)
    (hown : checkClusters q seq.toNat (byteAt (dBody f.desc) 0 % 64) (byteAt (dBody f.desc) 1) s = (0, s0))
    (hopen : streamRefusal (s.queue q).die (s.queue q).part (getLE (dBody f.desc) 4 2) (streamClusters (dBody f.desc)) s = .inr y)
    (hsound : y.failed = none) (hlen : getLE (dBody f.desc) 8 8 ≤ y.length)
    (hmarks : ∀ c ∈ streamClusters (dBody f.desc), ∀ z ∈ y.at? c, z.mark ≤ getLE (dBody f.desc) 8 8) :
    exec (.streamRelease q seq) s = .next (s.updFlight q seq.toNat (fun f => { f with phase := 1, work := [y.gen] })) := by
  have hdue : ¬ (f.phase ≠ 0 ∨ byteAt (dBody f.desc) 0 / 64 ≠ 1) := by simp [hphase, hact]
  have hfwd : ¬ (decide (y.length < getLE (dBody f.desc) 8 8) || (streamClusters (dBody f.desc)).any
      fun c => (y.at? c).any fun z => decide (getLE (dBody f.desc) 8 8 < z.mark)) = true := by
    simpa [hlen, Option.any_eq_false] using hmarks
  simp only [streamClusters] at hopen hfwd
  simp only [exec, execStreamRelease, withFlight_of_runs h, if_neg hdue, if_neg (not_not.2 hbody), hown, hopen, hsound, if_neg hfwd]

/-- A CLOSE that passes every check ends its stream in the clusters it names (R240). -/
theorem exec_streamClose_of_checked (h : s.runs q seq 0x40 f) (hact : byteAt (dBody f.desc) 0 / 64 = 2)
    (hbody : checkStream (s.queue q).die (dBody f.desc) s = 0)
    (hown : checkClusters q seq.toNat (byteAt (dBody f.desc) 0 % 64) (byteAt (dBody f.desc) 1) s = (0, s0))
    (hopen : streamRefusal (s.queue q).die (s.queue q).part (getLE (dBody f.desc) 4 2) (streamClusters (dBody f.desc)) s = .inr y) :
    exec (.streamClose q seq) s = (endStreamIn y.gen 0x41 (streamClusters (dBody f.desc)) s).endsWith q seq 0 0 := by
  simp only [streamClusters] at hopen
  simp only [exec, execStreamClose, withFlight_of_runs h, if_neg (not_not.2 hact), if_neg (not_not.2 hbody), hown, hopen]
  rfl

/-! ### RELEASE_APPLY (R239) -/

/-- Whether the mark of a stream lies above `m` in one of the clusters a RELEASE names. -/
def State.markAbove (s : State) (gen first count m : Nat) : Bool :=
  (s.streamGen gen).any fun x => x.cls.any fun z => decide (first ≤ z.cl) && decide (z.cl < first + count) && decide (m < z.mark)

theorem markAbove_iff {gen first count m : Nat} : s.markAbove gen first count m = true ↔
    ∃ x ∈ s.streamGen gen, ∃ z ∈ x.cls, first ≤ z.cl ∧ z.cl < first + count ∧ m < z.mark := by
  simp [State.markAbove, Option.any_eq_true, and_assoc]

/-- A stream with its mark at `m` in the clusters a RELEASE names, where a stall that the mark ends starts anew. -/
def Stream.released (first count m now : Nat) (x : Stream) : Stream :=
  { x with cls := x.cls.map (fun y =>
      if first ≤ y.cl ∧ y.cl < first + count then { y with mark := m, stallFrom := if x.mayLand y then y.stallFrom else now } else y) }

/-- Where no tile command dispatched before names the stream and none is still to be dealt, a RELEASE sets its mark, or fails where the
mark has moved past it. -/
theorem exec_streamReleaseApply_of_first {gen : Nat} (h : s.runs q seq 0x40 f) (hphase : f.phase = 1) (hwork : f.work = [gen])
    (hruns : ∀ r ∈ s.tile.runs, r.order < f.order → r.aStream ≠ some gen ∧ r.bStream ≠ some gen)
    (hqueues : ∀ p ∈ s.host.queues, ∀ g ∈ p.2.flights, ¬ (g.phase = 0 ∧ dOpc g.desc = 0x10)) :
    let b := dBody f.desc
    let first := byteAt b 0 % 64
    exec (.streamReleaseApply q seq) s = .next (if s.markAbove gen first (byteAt b 1) (getLE b 8 8) then endCommand q seq.toNat 1 0 s
      else endCommand q seq.toNat 0 0 (updStream gen (Stream.released first (byteAt b 1) (getLE b 8 8) s.now) s)) := by
  simp only [exec, execStreamReleaseApply, withFlight_of_runs h, hphase, hwork]
  rw [if_neg ?_]
  · rfl
  · rw [Bool.or_eq_true, List.any_eq_true, List.any_eq_true]
    rintro (⟨r, hr, hnames⟩ | ⟨p, hp, hahead⟩)
    · rw [Bool.and_eq_true, decide_eq_true_eq, tileNames, Bool.or_eq_true, beq_iff_eq, beq_iff_eq] at hnames
      obtain ⟨ha, hb⟩ := hruns r hr hnames.2
      exact hnames.1.elim ha hb
    · rw [Bool.and_eq_true, List.any_eq_true] at hahead
      obtain ⟨-, g, hg, hundealt⟩ := hahead
      simp only [Bool.and_eq_true, beq_iff_eq] at hundealt
      obtain ⟨⟨⟨⟨-, hopc⟩, hwaits⟩, -⟩, -⟩ := hundealt
      exact hqueues p hp g hg ⟨hwaits, hopc⟩

end

/-! ### Stalls (R243, R244) -/

section
variable {d : Die} {num : BitVec 10} {c : Cluster} {s : State} {x : Stream} {y : StreamCl} {n : Nat}

/-- A stall of STALL_US, and of 10 µs at least, is counted with its event, once. -/
theorem exec_streamStall_of_long (hx : s.stream d num.toNat = some x) (hy : x.at? c = some y) (hn : stallNs x y s = some n)
    (hfirst : y.stalled = false) (hlong : max 10 (s.rfld (ZG_D2D_WDOG d) 15 0) * 1000 ≤ n) :
    exec (.streamStall d num c) s = .next (streamEvent x 6 c (bump (ZG_D2D_STALLS d) 1
      (updStreamCl x.gen c (fun y => { y with stalled := true }) s))) := by
  have hdue : ¬ (y.stalled || decide (n < max 10 (s.rfld (ZG_D2D_WDOG d) 15 0) * 1000)) = true := by
    simp only [hfirst, Bool.false_or, decide_eq_true_eq]
    exact Nat.not_lt.2 hlong
  simp only [exec, execStreamStall, hx, hy, hn, Option.bind_some, Option.map_some, if_neg hdue]

/-- A stall of ABORT_MS, where that is not zero, fails the stream. -/
theorem exec_streamAbort_of_long (hx : s.stream d num.toNat = some x) (hy : x.at? c = some y) (hn : stallNs x y s = some n)
    (hon : s.rfld (ZG_D2D_WDOG d) 31 16 ≠ 0) (hlong : s.rfld (ZG_D2D_WDOG d) 31 16 * 1000000 ≤ n) :
    exec (.streamAbort d num c) s = .next (failStream x.gen 0x42 s) := by
  simp only [exec, execStreamAbort, hx, hy, hn, Option.bind_some, Option.map_some, if_neg (not_or.2 ⟨hon, Nat.not_lt.2 hlong⟩)]

end

/-! ### The statement -/

/-- Settles O20: each command is its checks in order and then its effect; of a stall only its length counts. -/
theorem streamsOpenReleaseCloseStallAndAbort : Obligations.StreamsOpenReleaseCloseStallAndAbort := by
  refine ⟨fun q seq s s0 f hrun => ?_, fun d num c s x y n hx hy hn => ⟨fun hfirst hten hus => ?_, exec_streamAbort_of_long hx hy hn⟩⟩
  · dsimp only
    refine ⟨fun hphase hact hbad => ?_, fun hphase hact hok hown => ?_,
      fun y hok hown hopen => ⟨fun hphase hact hsound hlen hmarks =>
          exec_streamRelease_of_checked hrun hphase hact hok hown hopen hsound hlen hmarks,
        fun hact => exec_streamClose_of_checked hrun hact hok hown hopen⟩,
      fun gen hphase hwork hruns hqueues => ?_⟩
    · simp only [exec, execStreamOpen, withFlight_of_runs hrun, if_neg (open_due hphase hact), if_pos hbad]
      rfl
    · simp only [exec, execStreamOpen, withFlight_of_runs hrun, if_neg (open_due hphase (.inl hact)), if_neg (not_not.2 hok), hown]
      refine ⟨fun hroute => ?_, fun hroute hwait => ?_, fun hroute hwait => ?_⟩
      · rw [if_pos hroute]; rfl
      · simp only [hroute, hwait, Bool.false_eq_true, if_false]; rfl
      · simp only [hroute, hwait, Bool.false_eq_true, if_false, if_true]; rfl
    · rw [exec_streamReleaseApply_of_first hrun hphase hwork hruns hqueues]
      refine ⟨fun hlow => congrArg Host.Outcome.next (if_pos (markAbove_iff.2 hlow)),
        fun hhigh => congrArg Host.Outcome.next (if_neg fun hlow => ?_)⟩
      obtain ⟨y, hy, z, hz, hfrom, hto, hmark⟩ := markAbove_iff.1 hlow
      exact absurd hmark (Nat.not_lt.2 (hhigh y hy z hz hfrom hto))
  · exact exec_streamStall_of_long hx hy hn hfirst (by rw [← Nat.mul_max_mul_right]; exact Nat.max_le.2 ⟨hten, hus⟩)

end Sys2Proof.Machine
end

section
/-! Doorbells (R253, R254, R259, R270, R600): the checks of a doorbell one by one, and the doorbells of BAR2 by their offsets. -/
namespace Sys2Proof.Machine
open Sys2Proof

section
variable {s t : State} {f q value last limit : Nat}

/-! ### The checks of a doorbell (R254) -/

/-- Whether a function rings the doorbells of queue `q`: its own admin queue, or a queue of its partition. -/
def State.ownsDoorbell (s : State) (f q : Nat) : Prop :=
  isAdmin q = true ∨ f ≠ 0 ∧ (s.part (f - 1)).qFirst ≤ q ∧ q < (s.part (f - 1)).qFirst + (s.part (f - 1)).qCount

/-- The guard of R254 against the queues of other functions. -/
theorem denied_iff : (!isAdmin q && (f == 0 || decide (q < (s.part (f - 1)).qFirst)
      || decide ((s.part (f - 1)).qFirst + (s.part (f - 1)).qCount ≤ q))) = true ↔ ¬ s.ownsDoorbell f q := by
  simp only [State.ownsDoorbell, Bool.and_eq_true, Bool.or_eq_true, Bool.not_eq_true', beq_iff_eq, decide_eq_true_eq, not_or, not_and,
    not_lt, ne_eq, Bool.not_eq_true]
  refine and_congr_right fun _ => ?_
  omega

theorem ringDoorbell_of_absent (aligned : Bool) (hf : s.hasFn f = false) : ringDoorbell f q aligned value last limit s t = s := if_pos hf

variable (hf : s.hasFn f = true)
include hf

theorem ringDoorbell_of_unaligned : ringDoorbell f q false value last limit s t = bumpF f ZG_HQ_DB_STALE 1 s :=
  (if_neg (by simp [hf])).trans (if_pos rfl)

theorem ringDoorbell_of_denied (hown : ¬ s.ownsDoorbell f q) : ringDoorbell f q true value last limit s t =
    raiseEvent { cls := 1, code := 2, queue := q, data := q + f * 65536, log := false } (bumpF f ZG_HQ_DB_DENIED 1 s) :=
  (if_neg (by simp [hf])).trans ((if_neg (by decide)).trans (if_pos (denied_iff.2 hown)))

/-- An aligned doorbell of a queue of the function's own comes to the checks of the queue's state and of the value. -/
theorem ringDoorbell_of_own (hown : s.ownsDoorbell f q) : ringDoorbell f q true value last limit s t =
    if (s.queue q).state = .disabled ∨ value ≤ last then bumpF f ZG_HQ_DB_STALE 1 s
    else if limit < value then doorbellRange f (if isAdmin q then 4 else (s.queue q).die) (queueField q) value s
    else t := by
  refine (if_neg (by simp [hf])).trans ((if_neg (by decide)).trans ((if_neg (fun h => denied_iff.1 h hown)).trans ?_))
  simp only [Bool.or_eq_true, beq_iff_eq, decide_eq_true_eq]

theorem ringDoorbell_of_disabled (hown : s.ownsDoorbell f q) (hx : (s.queue q).state = .disabled) :
    ringDoorbell f q true value last limit s t = bumpF f ZG_HQ_DB_STALE 1 s :=
  (ringDoorbell_of_own hf hown).trans (if_pos (.inl hx))

theorem ringDoorbell_of_stale (hown : s.ownsDoorbell f q) (hv : value ≤ last) :
    ringDoorbell f q true value last limit s t = bumpF f ZG_HQ_DB_STALE 1 s :=
  (ringDoorbell_of_own hf hown).trans (if_pos (.inr hv))

theorem ringDoorbell_of_high (hown : s.ownsDoorbell f q) (hx : (s.queue q).state ≠ .disabled) (hlast : last < value) (hv : limit < value) :
    ringDoorbell f q true value last limit s t =
      doorbellRange f (if isAdmin q then 4 else (s.queue q).die) (queueField q) value s :=
  (ringDoorbell_of_own hf hown).trans ((if_neg (not_or.2 ⟨hx, Nat.not_le.2 hlast⟩)).trans (if_pos hv))

theorem ringDoorbell_of_inRange (hown : s.ownsDoorbell f q) (hx : (s.queue q).state ≠ .disabled) (hlast : last < value)
    (hv : value ≤ limit) : ringDoorbell f q true value last limit s t = t :=
  (ringDoorbell_of_own hf hown).trans ((if_neg (not_or.2 ⟨hx, Nat.not_le.2 hlast⟩)).trans (if_neg (Nat.not_lt.2 hv)))

/-! ### The event ring (R270) -/

theorem eventDoorbell_of_stale (hv : value ≤ (s.fn f).evConsumed) : eventDoorbell f true value s = bumpF f ZG_HQ_DB_STALE 1 s :=
  (if_neg (by simp [hf])).trans (if_pos (.inr hv))

theorem eventDoorbell_of_inRange (hlast : (s.fn f).evConsumed < value) (hv : value ≤ (s.fn f).evWritten) :
    eventDoorbell f true value s = announceLost f (s.setFn f { s.fn f with evConsumed := value }) :=
  (if_neg (by simp [hf])).trans ((if_neg (by simp [Nat.not_le.2 hlast])).trans (if_neg (Nat.not_lt.2 hv)))

end

/-! ### BAR2 (R253, R600) -/

section
variable {f : Func} {v : Word64} {s : State}

/-- A queue's number is below those of the admin queues. -/
theorem isAdmin_toNat (q : BitVec 16) : isAdmin q.toNat = false := decide_eq_false (Nat.not_le.2 q.isLt)

/-- A write of BAR2 is a write of the doorbell at its offset. -/
theorem exec_registerWrite_bar2 (off : BitVec 21) (hf : s.hasFn f = true) :
    exec (.registerWrite f ⟨true, off⟩ 8 v) s = .next (bar2Write f off.toNat 8 v.toNat s) :=
  congrArg Host.Outcome.next ((if_neg (by simp [hf])).trans (if_pos rfl))

theorem exec_emuRead_bar2 (off : BitVec 21) (size : Fin 9) (hf : s.hasFn f = true) :
    exec (.emuRead f (.bar2 off) size) s = .next (answerRead f (0x200000 + off.toNat) (bar2Read f off.toNat size s) s) :=
  congrArg Host.Outcome.next (if_neg (by simp [hf]))

/-- The doorbells of queue `q` stand at `q * 16` (submission) and `q * 16 + 8` (completion). -/
theorem bar2Doorbell_queue (f : Nat) {q : Nat} (cq : Bool) (hq : q < 65536) : bar2Doorbell f (q * 16 + 8 * b2n cq) = some (some (q, cq)) := by
  have hb : b2n cq ≤ 1 := by cases cq <;> decide
  have hlow : q * 16 + 8 * b2n cq < 0x100000 := by omega
  have hdiv : (q * 16 + 8 * b2n cq) / 16 = q := by omega
  have hmod : (q * 16 + 8 * b2n cq) % 16 = 8 * b2n cq := by omega
  rw [bar2Doorbell, if_pos hlow, hdiv, hmod]
  cases cq <;> rfl

theorem bar2Write_queue (f value : Nat) {q : Nat} (cq : Bool) (hq : q < 65536) :
    bar2Write f (q * 16 + 8 * b2n cq) 8 value s = if cq then cqDoorbell f q true value s else sqDoorbell f q true value s := by
  have halign : (q * 16 + 8 * b2n cq) / 8 * 8 = q * 16 + 8 * b2n cq := by omega
  have hdiv : (q * 16 + 8 * b2n cq) % 8 = 0 := by omega
  rw [bar2Write, halign, bar2Doorbell_queue f cq hq, hdiv]
  cases cq <;> rfl

/-- A function reads its own queues' doorbells, and the physical function those of every queue. -/
theorem bar2Read_queue (f : Nat) {q : Nat} (cq : Bool) (hq : q < 65536) :
    bar2Read f (q * 16 + 8 * b2n cq) 8 s =
      if f = 0 ∨ (s.part (f - 1)).qFirst ≤ q ∧ q < (s.part (f - 1)).qFirst + (s.part (f - 1)).qCount then
        (if cq then (s.queue q).cqConsumed else (s.queue q).dbSeq)
      else 0 := by
  have hguard : ¬ ((8 : Nat) ≠ 8 ∨ (q * 16 + 8 * b2n cq) % 8 ≠ 0) := by omega
  have hadmin : isAdmin q = false := decide_eq_false (Nat.not_le.2 hq)
  rw [bar2Read, if_neg hguard, bar2Doorbell_queue f cq hq]
  by_cases h0 : f = 0
  · simp [h0]
  · by_cases hin : (s.part (f - 1)).qFirst ≤ q ∧ q < (s.part (f - 1)).qFirst + (s.part (f - 1)).qCount
    · simp [hin]
    · have hout : q < (s.part (f - 1)).qFirst ∨ (s.part (f - 1)).qFirst + (s.part (f - 1)).qCount ≤ q := by omega
      simp [h0, hin, hadmin, hout]

end

/-! ### The statement -/

/-- A submission doorbell of a queue, by the checks of R254. -/
theorem exec_sqDoorbell (f : Func) (q : BitVec 16) (al : Bool) (v : Word64) (s : State) :
    exec (.sqDoorbell f q al v) s = .next (sqDoorbell f q.toNat al v.toNat s) := rfl

theorem exec_cqDoorbell (f : Func) (q : BitVec 16) (al : Bool) (v : Word64) (s : State) :
    exec (.cqDoorbell f q al v) s = .next (cqDoorbell f q.toNat al v.toNat s) := rfl

/-- Settles O36: each answer is the first check of R254 that the doorbell breaks; an offset of BAR2 names its doorbell. -/
theorem doorbellsAdvanceAQueueOrAreCounted : Obligations.DoorbellsAdvanceAQueueOrAreCounted := by
  refine ⟨fun f q al v s => ?_, fun f v s => ?_, fun f q v s hf => ?_⟩
  · intro x mine high both
    have hmine : mine ↔ s.ownsDoorbell f q.toNat := by simp [mine, State.ownsDoorbell, isAdmin_toNat]
    have hhigh : doorbellRange f (if isAdmin q.toNat then 4 else x.die) (queueField q.toNat) v.toNat s = high := by
      simp [doorbellRange, queueField, isAdmin_toNat, high]
    have answers : ∀ (i : Instr) (last limit : Nat) (t : State),
        exec i s = .next (ringDoorbell f q.toNat al v.toNat last limit s t) → both i := by
      intro i last limit t hi
      refine ⟨fun hf => ?_, fun hf => ⟨fun hal => ?_, fun hal hnot => ?_, fun hal hown hx => ?_⟩⟩
      · rw [hi, ringDoorbell_of_absent al hf]
      · rw [hi, hal, ringDoorbell_of_unaligned hf]
      · rw [hi, hal, ringDoorbell_of_denied hf (mt hmine.2 hnot)]
      · rw [hi, hal, ringDoorbell_of_disabled hf (hmine.1 hown) hx]
    refine ⟨answers _ _ _ _ rfl, answers _ _ _ _ rfl, ?_⟩
    rintro hf rfl hown hx
    replace hown := hmine.1 hown
    rw [exec_sqDoorbell, exec_cqDoorbell, sqDoorbell, cqDoorbell, ← hhigh]
    exact ⟨fun hv => congrArg _ (ringDoorbell_of_stale hf hown hv), fun hl hv => congrArg _ (ringDoorbell_of_high hf hown hx hl hv),
      fun hl hv => congrArg _ (ringDoorbell_of_inRange hf hown hx hl hv), fun hv => congrArg _ (ringDoorbell_of_stale hf hown hv),
      fun hl hv => congrArg _ (ringDoorbell_of_high hf hown hx hl hv), fun hl hv => congrArg _ (ringDoorbell_of_inRange hf hown hx hl hv)⟩
  · intro x hf
    have hown : s.ownsDoorbell f (65536 + f) := .inl (decide_eq_true (Nat.le_add_right _ _))
    refine ⟨fun hx hl hv => congrArg _ (ringDoorbell_of_inRange hf hown hx hl hv), fun hx => congrArg _ (ringDoorbell_of_disabled hf hown hx),
      fun hx hl hv => congrArg _ (ringDoorbell_of_inRange hf hown hx hl hv), fun hl hv => congrArg _ (eventDoorbell_of_inRange hf hl hv),
      fun hv => congrArg _ (eventDoorbell_of_stale hf hv), ?_, ?_, ?_, ?_⟩
    all_goals rw [exec_registerWrite_bar2 _ hf]
    · rfl
    · rfl
    · rfl
    · exact congrArg _ (if_pos hf)
  · intro seen sq cq
    have hsq : sq.toNat = q.toNat * 16 + 8 * b2n false := by
      have := q.isLt; simp only [sq, BitVec.toNat_ofNat, show b2n false = 0 from rfl]; omega
    have hcq : cq.toNat = q.toNat * 16 + 8 * b2n true := by
      have := q.isLt; simp only [cq, BitVec.toNat_ofNat, show b2n true = 1 from rfl]; omega
    rw [exec_registerWrite_bar2 _ hf, exec_registerWrite_bar2 _ hf, exec_emuRead_bar2 _ _ hf, exec_emuRead_bar2 _ _ hf]
    refine ⟨?_, ?_, congrArg (fun n => Host.Outcome.next (answerRead f (0x200000 + sq.toNat) n s)) ?_,
      congrArg (fun n => Host.Outcome.next (answerRead f (0x200000 + cq.toNat) n s)) ?_⟩
    · rw [hsq, bar2Write_queue f v.toNat false q.isLt]; rfl
    · rw [hcq, bar2Write_queue f v.toNat true q.isLt]; rfl
    · exact (congrArg (bar2Read f · 8 s) hsq).trans (bar2Read_queue f false q.isLt)
    · exact (congrArg (bar2Read f · 8 s) hcq).trans (bar2Read_queue f true q.isLt)

end Sys2Proof.Machine
end

section
/-! Completion records (R258, R259, R264 to R267): which commands leave a queue, the bytes of a record, and the writing of a record that
was held. -/
namespace Sys2Proof.Machine
open Sys2Proof

/-! ### The commands that leave (R258, R266) -/

/-- The record that an ended command adds to those held: none for a QUIET success. -/
def Flight.record (f : Flight) : Option HeldRec :=
  f.ended.bind fun e => if dQuiet f.desc = true ∧ e.status = 0 then none else some ⟨f.seq, e, dInt f.desc, false, f.binds⟩

theorem getLast?_cons_map {α β : Type} (g : α → β) (x : α) (xs : List α) (d : β) :
    (((x :: xs).getLast?).map g).getD d = ((xs.getLast?).map g).getD (g x) := by
  cases xs with
  | nil => rfl
  | cons y ys => simp [List.getLast?_cons]

/-- Without a region, the commands before the first that has not ended leave, in order. -/
theorem takeEnded_eq : ∀ (fl : List Flight) (done : Nat) (held : List HeldRec),
    (∀ f ∈ fl, ∀ e, f.ended = some e → e.noDesc = false) →
    takeEnded [] fl done held =
      (fl.dropWhile (fun f => f.ended.isSome), ((fl.takeWhile (fun f => f.ended.isSome)).getLast?.map (fun f => f.seq)).getD done,
        held ++ (fl.takeWhile (fun f => f.ended.isSome)).filterMap Flight.record)
  | [], done, held, _ => by simp [takeEnded]
  | f :: fs, done, held, h => by
    cases hf : f.ended with
    | none => simp [takeEnded, hf]
    | some e =>
      have hdesc : e.noDesc = false := h f List.mem_cons_self e hf
      have ih := takeEnded_eq fs f.seq (if dQuiet f.desc && e.status == 0 then held else held ++ [⟨f.seq, e, dInt f.desc, false, f.binds⟩])
        fun g hg => h g (List.mem_cons_of_mem f hg)
      have hstep : takeEnded [] (f :: fs) done held = takeEnded [] fs f.seq
          (if dQuiet f.desc && e.status == 0 then held else held ++ [⟨f.seq, e, dInt f.desc, false, f.binds⟩]) := by
        simp [takeEnded, hf, hdesc]
      have hsome : f.ended.isSome = true := by rw [hf]; rfl
      rw [hstep, ih, List.dropWhile_cons_of_pos (p := fun f : Flight => f.ended.isSome) hsome,
        List.takeWhile_cons_of_pos (p := fun f : Flight => f.ended.isSome) hsome, getLast?_cons_map]
      by_cases hquiet : dQuiet f.desc = true ∧ e.status = 0
      · simp [Flight.record, hf, hquiet]
      · have hrec : f.record = some ⟨f.seq, e, dInt f.desc, false, f.binds⟩ := by simp only [Flight.record, hf, Option.bind_some, if_neg hquiet]
        simp [hrec, hquiet]

/-! ### The bytes of a record (R264) -/

section
variable (h : HeldRec) (cmpl die : Nat)

theorem length_recordBytes : (recordBytes h cmpl die).length = 32 := rfl

theorem recordBytes_seqs : getLE (recordBytes h cmpl die) 0 8 = h.seq % 2 ^ 64 ∧ getLE (recordBytes h cmpl die) 8 8 = cmpl % 2 ^ 64 :=
  ⟨leNat_natLE 8 h.seq, leNat_natLE 8 cmpl⟩

theorem recordBytes_end : getLE (recordBytes h cmpl die) 0x10 8 = h.ending.endNs % 2 ^ 64
    ∧ getLE (recordBytes h cmpl die) 0x18 2 = h.ending.status % 2 ^ 16 ∧ getLE (recordBytes h cmpl die) 0x1C 2 = h.ending.detail % 2 ^ 16 :=
  ⟨leNat_natLE 8 h.ending.endNs, leNat_natLE 2 h.ending.status, leNat_natLE 2 h.ending.detail⟩

theorem recordBytes_flags : byteAt (recordBytes h cmpl die) 0x1A =
    b2n h.ending.repeated * 8 + b2n h.ending.sigBlocked * 4 + b2n h.slow * 2 + b2n h.ending.unwritten := by
  have hbit : ∀ b : Bool, b2n b ≤ 1 := by decide
  have h1 := hbit h.ending.repeated; have h2 := hbit h.ending.sigBlocked; have h3 := hbit h.slow; have h4 := hbit h.ending.unwritten
  refine (BitVec.toNat_ofNat _ 8).trans (Nat.mod_eq_of_lt ?_)
  omega

theorem recordBytes_check : getLE (recordBytes h cmpl die) 0x1E 2 = check16 ((recordBytes h cmpl die).take 30) % 2 ^ 16 :=
  leNat_natLE 2 _

end

/-! ### What a record and its interrupt leave (R259, R267) -/

theorem sendInterrupt_rest (f v : Nat) (s : State) :
    ∃ vs is, sendInterrupt f v s = { s with host := { s.host with vectors := vs, interrupts := is } } := ⟨_, _, rfl⟩

theorem interruptDue_rest (f v us : Nat) (s : State) :
    ∃ vs is, interruptDue f v us s = { s with host := { s.host with vectors := vs, interrupts := is } } := by
  rw [interruptDue]
  dsimp only
  split
  · exact ⟨_, _, rfl⟩
  · split
    · exact ⟨_, s.host.interrupts, rfl⟩
    · exact sendInterrupt_rest f v s

/-- The interrupt of a record changes vectors and the interrupts sent only. -/
theorem recordInterrupt_rest (q : Nat) (h : HeldRec) (s : State) :
    ∃ vs is, recordInterrupt q h s = { s with host := { s.host with vectors := vs, interrupts := is } } := by
  rw [recordInterrupt]
  dsimp only
  split
  · exact sendInterrupt_rest _ _ s
  · split
    · exact interruptDue_rest _ _ _ s
    · exact ⟨_, _, rfl⟩

/-- The end of a command's reading changes banked tables only. -/
theorem releaseBanks_rest : ∀ (bs : List (Nat × Nat × Nat)) (s : State), ∃ bk, releaseBanks bs s = { s with banks := bk }
  | [], s => ⟨s.banks, rfl⟩
  | (t, k, _) :: bs, s => by
    obtain ⟨bk, h⟩ := releaseBanks_rest bs (s.setBank t ((s.bank t).release k))
    exact ⟨bk, h⟩

/-- What follows the writing of a record changes vectors, the interrupts sent and banked tables only. -/
theorem recordDone_rest (bs : List (Nat × Nat × Nat)) (q : Nat) (h : HeldRec) (s : State) :
    ∃ bk vs is, releaseBanks bs (recordInterrupt q h s) = { s with banks := bk, host := { s.host with vectors := vs, interrupts := is } } := by
  obtain ⟨vs, is, hint⟩ := recordInterrupt_rest q h s
  obtain ⟨bk, hrel⟩ := releaseBanks_rest bs (recordInterrupt q h s)
  exact ⟨bk, vs, is, by rw [hrel, hint]⟩

/-- What follows the writing of a record leaves the queues as they were. -/
theorem recordDone_queues (bs : List (Nat × Nat × Nat)) (q : Nat) (h : HeldRec) (s : State) :
    (releaseBanks bs (recordInterrupt q h s)).host.queues = s.host.queues := by
  obtain ⟨bk, vs, is, hdone⟩ := recordDone_rest bs q h s
  rw [hdone]

/-- A queue after one is replaced. -/
theorem State.queue_setQueue {s : State} (h : cwf {} s.host.queues = true) (q q' : Nat) (x : Queue) :
    (s.setQueue q x).queue q' = if q' = q then x else s.queue q' := cget_cset h q q' x

/-- A ring that is not full has no period of being full to end. -/
theorem markDrained_of_room {q : Nat} {s : State} (h : (s.queue q).cqFull = false) : markDrained q s = s := by
  rw [markDrained, h]
  rfl

/-! ### Host memory read back (R252) -/

section
variable {s : State} {f a g b : Nat} {bs : List Byte}

theorem hostRead_of_mem {t : State} {n : Nat} (h : t.host.mem = s.host.mem) : t.hostRead f a n = s.hostRead f a n := by
  rw [State.hostRead, h, State.hostRead]

/-- Bytes of host memory just written, within the 2^64 of the function's addresses. -/
theorem hostRead_hostWrite_same (hmem : cwf 0 s.host.mem = true) : (s.hostWrite f a bs).hostRead f a bs.length = bs := by
  refine List.ext_getElem (by simp [State.hostRead, cgetList]) fun i hi hi' => ?_
  simp only [State.hostRead, cgetList, List.getElem_map, List.getElem_range]
  rw [State.hostWrite_byte hmem, if_pos ⟨Nat.le_add_right _ _, by omega⟩, Nat.add_sub_cancel_left, List.getD_eq_getElem _ _ hi']

/-- A byte of another function, or outside the bytes written. -/
theorem hostRead_hostWrite_other (hmem : cwf 0 s.host.mem = true) (hb : b < 2 ^ 64) (hend : a + bs.length ≤ 2 ^ 64) (hlt : a < 2 ^ 64)
    (hout : g ≠ f ∨ b < a ∨ a + bs.length ≤ b) : (s.hostWrite f a bs).hostRead g b 1 = s.hostRead g b 1 := by
  have hkey : ¬ (hostKey f a ≤ hostKey g b ∧ hostKey g b < hostKey f a + bs.length) := by
    have ha : hostKey f a = f * 18446744073709551616 + a := congrArg (f * 18446744073709551616 + ·) (Nat.mod_eq_of_lt hlt)
    have hb : hostKey g b = g * 18446744073709551616 + b := congrArg (g * 18446744073709551616 + ·) (Nat.mod_eq_of_lt hb)
    rw [ha, hb]
    rcases hout with hne | hne | hne
    · omega
    · rintro ⟨h1, h2⟩
      omega
    · omega
  simp only [State.hostRead, cgetList, List.range_one, List.map_cons, List.map_nil, Nat.add_zero]
  rw [State.hostWrite_byte hmem, if_neg hkey]

end

/-! ### One held record (R259, R264) -/

section
variable {q : Nat} {h : HeldRec} {s : State}

/-- The address of the slot of the queue's next completion record. -/
def Queue.nextSlot (x : Queue) : Nat := x.cqBase + (x.cmplSeq + 1) % 2 ^ x.cqLog2 * 32

/-- The queue once its one held record is written. -/
def Queue.recorded (x : Queue) : Queue :=
  { x with held := [], cmplSeq := x.cmplSeq + 1, prior := x.prior && !x.flights.isEmpty }

/-- The slot lies within the ring. -/
theorem nextSlot_le (x : Queue) : x.nextSlot + 32 ≤ x.cqBase + 2 ^ x.cqLog2 * 32 := by
  have := Nat.mod_lt (x.cmplSeq + 1) (Nat.two_pow_pos x.cqLog2)
  rw [Queue.nextSlot]
  omega

/-- The one held record of a user queue whose ring has room is written, and its interrupt and page tables follow. -/
theorem writeHeld_one (hq : cwf {} s.host.queues = true) (hadmin : isAdmin q = false) (hheld : (s.queue q).held = [h])
    (hhost : (s.queue q).cqHbm = false) (hfull : (s.queue q).cqFull = false) (hdesc : h.ending.noDesc = false)
    (hroom : (s.queue q).cmplSeq + 1 ≤ (s.queue q).cqConsumed + 2 ^ (s.queue q).cqLog2) (hbme : (s.fn (s.queueFn q)).bme = true) :
    writeHeld q s = releaseBanks h.binds (recordInterrupt q h ((s.setQueue q (s.queue q).recorded).hostWrite (s.queueFn q)
      (s.queue q).nextSlot (recordBytes h ((s.queue q).cmplSeq + 1) (s.queue q).die))) := by
  have hroomLeft : ∀ (t : State) (y : Queue), t.host.queues = cset {} s.host.queues q y → y.cqFull = false → (t.queue q).cqFull = false := by
    intro t y ht hy
    rw [State.queue, ht, cget_cset hq, if_pos rfl, hy]
  rw [writeHeld, hheld, List.length_singleton, writeHeldN, hheld, Queue.recorded, Queue.nextSlot]
  simp only [if_neg (Nat.not_lt.2 hroom), hbme, hdesc, hhost, hadmin, ringWrite, hostWriter, Bool.not_true, Bool.not_false, if_true,
    Bool.false_eq_true, if_false, List.isEmpty_nil, Bool.true_and, writeHeldN]
  refine markDrained_of_room (hroomLeft _ { (s.queue q).recorded with cqHbm := false } ?_ hfull)
  exact (recordDone_queues _ _ _ _).trans rfl

end

/-- Settles O38: the commands that leave by induction over the flights; the record by what its write changes. -/
theorem endedCommandsLeaveInSubmitOrder : Obligations.EndedCommandsLeaveInSubmitOrder := by
  refine ⟨takeEnded_eq, fun q h s hs hadmin => ?_, fun h cmpl die =>
    ⟨length_recordBytes h cmpl die, (recordBytes_seqs h cmpl die).1, (recordBytes_seqs h cmpl die).2, (recordBytes_end h cmpl die).1,
      (recordBytes_end h cmpl die).2.1, recordBytes_flags h cmpl die, (recordBytes_end h cmpl die).2.2, recordBytes_check h cmpl die⟩⟩
  intro x hheld hhost hfull hdesc hroom hbme t
  have hc : Canon s.pending s := canon_iff.2 ⟨hs, rfl⟩
  obtain ⟨bk, vs, is, hdone⟩ := recordDone_rest h.binds q h
    ((s.setQueue q x.recorded).hostWrite (s.queueFn q) x.nextSlot (recordBytes h (x.cmplSeq + 1) x.die))
  have ht := (writeHeld_one hc.queues hadmin hheld hhost hfull hdesc hroom hbme).trans hdone
  have hqueue : t.queue q = x.recorded := by
    rw [show t = _ from ht]
    exact (State.queue_setQueue hc.queues q q _).trans (if_pos rfl)
  have hread : ∀ f a n, t.hostRead f a n =
      ((s.setQueue q x.recorded).hostWrite (s.queueFn q) x.nextSlot (recordBytes h (x.cmplSeq + 1) x.die)).hostRead f a n := by
    intro f a n
    exact hostRead_of_mem (by rw [show t = _ from ht])
  have hmem : cwf 0 (s.setQueue q x.recorded).host.mem = true := hc.hostMem
  refine ⟨by rw [hqueue]; rfl, by rw [hqueue]; rfl, by rw [hqueue]; rfl, ?_, fun f a hout ha hend => ?_,
    by rw [show t = _ from ht]; rfl, by rw [show t = _ from ht]; rfl, by rw [show t = _ from ht]; rfl⟩
  · exact (hread _ _ _).trans (hostRead_hostWrite_same hmem)
  · have hslot := nextSlot_le x
    refine (hread _ _ _).trans (hostRead_hostWrite_other hmem ha ?_ ?_ hout)
    · rw [length_recordBytes]; omega
    · omega

end Sys2Proof.Machine
end

section
/-! A property that speaks of nothing that events, records of rings and accesses to HBM change: each of these keeps it. -/
namespace Sys2Proof.Machine
open Sys2Proof

/-- A property of states that survives any change of the registers, HBM, Betony's part, the store, the progress of bring-up, the pins, and
of the host port its functions, vectors, interrupts, memory and records of events. -/
structure Passive (P : State → Prop) : Prop where
  keep : ∀ {s : State} {regs hbm mgt store boot pins fns vectors interrupts mem coalesce}, P s →
    P { s with regs := regs, hbm := hbm, mgt := mgt, store := store, boot := boot, pins := pins,
               host := { s.host with fns := fns, vectors := vectors, interrupts := interrupts, mem := mem, coalesce := coalesce } }

namespace Passive
variable {P : State → Prop} (hP : Passive P) {s t : State}

theorem ite {c : Prop} [Decidable c] (ht : c → P s) (hf : ¬c → P t) : P (if c then s else t) := by
  split
  · exact ht ‹_›
  · exact hf ‹_›

theorem foldl {β : Type} {g : State → β → State} (hg : ∀ s b, P s → P (g s b)) : ∀ (l : List β) {s : State}, P s → P (l.foldl g s)
  | [], _, h => h
  | b :: l, s, h => foldl hg l (hg s b h)

include hP

/-! ### Registers, counters, memory, interrupts -/

theorem setRegN (h : P s) (off v : Nat) : P (s.setRegN off v) := hP.keep h
theorem setRfld (h : P s) (off hi lo v : Nat) : P (s.setRfld off hi lo v) := hP.keep h
theorem withHbm (h : P s) (x : HbmSt) : P { s with hbm := x } := hP.keep h
theorem withMgt (h : P s) (x : MgtSt) : P { s with mgt := x } := hP.keep h
theorem withBoot (h : P s) (x : BootSt) : P { s with boot := x } := hP.keep h
theorem withStore (h : P s) (x : Store) : P { s with store := x } := hP.keep h
theorem withCoalesce (h : P s) (x : List Coalesce) : P { s with host := { s.host with coalesce := x } } := hP.keep h
theorem setFn (h : P s) (f : Nat) (x : Fn) : P (s.setFn f x) := hP.keep h
theorem setAlarm (h : P s) (k : Nat) (a : Alarm) : P (s.setAlarm k a) := hP.keep h
theorem hbmPut2 (h : P s) (pa m : Nat) (bs : List Byte) : P (s.hbmPut2 pa m bs) := hP.keep (hP.keep h)
theorem sendInterrupt (h : P s) (f v : Nat) : P (sendInterrupt f v s) := hP.keep (hP.keep h)

theorem bump (h : P s) (off n : Nat) : P (bump off n s) := by
  rw [Machine.bump, bumpKey_rest]
  exact hP.keep h

theorem pmcCount (h : P s) (d ev : Nat) (p : Option Nat) (n : Nat) : P (pmcCount d ev p n s) := by
  rw [pmcCount_rest]
  exact hP.keep h

/-! ### Events, given how their ring records are written -/

omit hP in
/-- A way of writing ring records that keeps the property. -/
def Put (P : State → Prop) (put : RingWriter) : Prop :=
  ∀ (s t : State) (f d : Nat) (hbm : Bool) (a : Nat) (bs : List Byte), P s → put f d hbm a bs s = some t → P t

theorem put_hostWriter : Put P hostWriter := by
  rintro s t f d hbm a bs h ht
  obtain rfl := Option.some.inj ht
  exact ite (fun _ => h) fun _ => hP.keep h

section
variable {put : RingWriter} (hput : Put P put)
include hput

theorem assignBy (h : P s) (f : Nat) (ev : Ev) (src : Nat) : P (assignBy put f ev src s) := by
  unfold Machine.assignBy
  refine ite (fun _ => ite (fun _ => ?_) fun _ => hP.setFn h _ _) fun _ => hP.setFn h _ _
  split
  · next ht => exact hP.sendInterrupt (hput _ _ _ _ _ _ _ (hP.setFn h _ _) ht) _ _
  · exact hP.setFn h _ _

theorem announceBy (h : P s) (f : Nat) : P (announceBy put f s) :=
  ite (fun _ => h) fun _ => hP.assignBy hput (hP.setFn h _ _) _ _ _

theorem postBy (h : P s) (f : Nat) (ev : Ev) : P (postBy put f ev s) := by
  unfold Machine.postBy
  have hp (k : Nat) := hP.assignBy hput (hP.announceBy hput h f) f ev k
  dsimp only
  split
  · exact ite (fun _ => hP.withCoalesce h _) fun _ => ite (fun _ => hP.withCoalesce (hp _) _) fun _ => hp _
  · exact ite (fun _ => hP.withCoalesce (hp _) _) fun _ => hp _

omit hput in
theorem pushLog (h : P s) (r : LogRec) : P (pushLog r s) :=
  ite (fun _ => hP.withMgt (hP.bump (hP.setRegN h _ _) _ _) _) fun _ =>
    ite (fun _ => hP.withMgt (hP.setRegN h _ _) _) fun _ =>
      hP.postBy hP.put_hostWriter (hP.withMgt (hP.setRegN h _ _) _) _ _

theorem noticeBy (h : P s) (ev : Ev) (n : Nat) (c : Bool) : P (noticeBy put ev n c s) :=
  ite (fun _ => hP.setAlarm h _ _) fun _ => hP.assignBy hput (hP.announceBy hput (hP.pushLog h _) _) _ _ _

theorem occurBy (h : P s) (ev : Ev) : P (occurBy put ev s) :=
  ite (fun _ => hP.setAlarm h _ _) fun _ =>
    have hn (x : Alarm) (n : Nat) := hP.noticeBy hput (hP.setAlarm h (alarmSlot ev.cls ev.code ev.src) x) ev n
    have ha {s : State} (h : P s) : P (refreshAlert s) := hP.keep (hP.keep h)
    ite (fun _ => hP.withMgt (ha (hn _ _ _)) _) fun _ => ha (hn _ _ _)

theorem raiseBy (h : P s) (ev : Ev) : P (raiseBy put ev s) := by
  unfold Machine.raiseBy
  have hl (r : LogRec) : P (if ev.log then Machine.pushLog r s else s) := ite (fun _ => hP.pushLog h r) fun _ => h
  extract_lets s1 s2
  have h2 : P s2 := by
    unfold s2
    split
    · exact hP.postBy hput (hl _) _ _
    · exact hl _
  exact ite (fun _ => hP.occurBy hput h2 _) fun _ => ite (fun _ => hP.postBy hput h2 _ _) fun _ => h2

end

theorem raisePf (h : P s) (ev : Ev) : P (raisePf ev s) := hP.raiseBy hP.put_hostWriter h ev

/-! ### HBM below the commands -/

theorem addHealth (h : P s) (e : HealthEntry) : P (addHealth e s) := by
  unfold Machine.addHealth
  extract_lets _ s1
  have h1 : P s1 := ite (fun _ => h) fun _ => hP.withBoot h _
  clear_value s1
  exact ite (fun _ => h1) fun _ => ite (fun _ => hP.withStore h1 _) fun _ => hP.raisePf (hP.withBoot h1 _) _

theorem errRecord (h : P s) (kind pa n a b : Nat) : P (errRecord kind pa n a b s) := by
  unfold Machine.errRecord Machine.errRecordAt
  have h3 (x y : Nat) (z : HbmSt) (a m : Nat) (bs : List Byte) := hP.hbmPut2 (hP.withHbm (hP.setRegN h x y) z) a m bs
  exact ite (fun _ => hP.hbmPut2 (hP.hbmPut2 (hP.withHbm h _) _ _ _) _ _ _) fun _ =>
    ite (fun _ => h3 _ _ _ _ _ _) fun _ => hP.raisePf (h3 _ _ _ _ _ _) _

theorem markRetire (h : P s) (g pa : Nat) : P (markRetire g pa s) := ite (fun _ => h) fun _ => hP.addHealth h _

theorem countRow (h : P s) (pa : Nat) : P (countRow pa s) := by
  unfold Machine.countRow
  exact ite (fun _ => hP.errRecord (hP.addHealth (hP.setRfld (hP.withHbm h _) _ _ _ _) _) _ _ _ _ _) fun _ => hP.withHbm h _

theorem correctBlock (h : P s) (kind pa : Nat) (fix : List (Nat × Nat)) : P (correctBlock kind pa fix s) :=
  hP.countRow (hP.errRecord (hP.withHbm (hP.bump h _ _) _) _ _ _ _ _) _

theorem loseBlock (h : P s) (kind pa : Nat) : P (loseBlock kind pa s) := hP.markRetire (hP.errRecord (hP.bump h _ _) _ _ _ _ _) _ _

theorem readBlock (h : P s) (pa : Nat) : P (readBlock pa s).2 := by
  unfold Machine.readBlock
  dsimp only
  split
  · exact h
  · split
    · exact h
    · exact hP.correctBlock h _ _ _
    · exact hP.loseBlock h _ _

theorem blockStore (h : P s) (pa : Nat) (bs : List Byte) : P (blockStore pa bs s) :=
  ite (fun _ => hP.keep (hP.keep h)) fun _ => hP.keep h

theorem blockWrite (h : P s) (pa : Nat) (bs : List Byte) : P (blockWrite pa bs s).2 := by
  have hr := hP.readBlock h pa
  unfold Machine.blockWrite
  split
  · exact hP.blockStore h _ _
  · split
    · next hb => rw [hb] at hr; exact hP.blockStore hr _ _
    · next hb => rw [hb] at hr; exact hr

theorem paWriteN : ∀ (k pa : Nat) (bs : List Byte) {s : State}, P s → P (paWriteN k pa bs s)
  | 0, _, _, _, h => h
  | k + 1, _, _, _, h => ite (fun _ => h) fun _ => paWriteN k _ _ (hP.blockWrite h _ _)

theorem paWrite (h : P s) (pa : Nat) (bs : List Byte) : P (paWrite pa bs s) := ite (fun _ => h) fun _ => hP.paWriteN _ _ _ h

theorem mirroredLine (h : P s) (a : Nat) : P (mirroredLine a s).2 := by
  have hb : P (Machine.bump (ZG_HBM_UE (dieOf a)) 1 s) := hP.bump h _ _
  have repair {s : State} (h : P s) (b : Nat) (bs : List Byte) :
      P (Machine.errRecord 4 a 0 255 255 (Machine.blockStore b bs s)) := hP.errRecord (hP.blockStore h _ _) _ _ _ _ _
  unfold Machine.mirroredLine
  split
  · exact h
  · exact hP.correctBlock h _ _ _
  · dsimp only
    split
    · exact repair hb _ _
    · exact repair (hP.correctBlock hb _ _ _) _ _
    · exact hP.bump hb _ _

theorem loseLine (h : P s) (key a : Nat) (gs : List Nat) : P (loseLine key a gs s) :=
  ite (fun _ => h) fun _ => foldl (P := P) (fun _ _ h => hP.markRetire h _ _) _ (hP.errRecord (hP.withHbm h _) _ _ _ _ _)

theorem frameLine (h : P s) (g : Nat) : P (frameLine g s).2 := by
  have hm := hP.mirroredLine h (frameAddr (g / 131072) (g % 131072))
  unfold Machine.frameLine
  split
  · exact h
  · split
    · exact h
    · dsimp only
      split
      · next hb => rw [hb] at hm; exact hm
      · next hb => rw [hb] at hm; exact hP.loseLine hm _ _ _

theorem trimCache (h : P s) : P (trimCache s) := by
  have hw {s : State} (h : P s) (g : Nat) : P (writeMapLine g s) := by
    unfold Machine.writeMapLine
    exact hP.blockStore (hP.blockStore h _ _) _ _
  unfold Machine.trimCache
  split
  · exact ite (fun _ => ite (fun _ => hw (hP.withHbm h _) _) fun _ => hP.withHbm h _) fun _ => h
  · exact h

theorem holdLine (h : P s) (g : Nat) (c : Bool) : P (holdLine g c s) := by
  unfold Machine.holdLine
  dsimp only
  split
  · exact ite (fun _ => hP.trimCache (hP.withHbm h _)) fun _ => hP.withHbm h _
  · exact hP.withHbm h _

theorem consultMap (h : P s) (g : Nat) : P (consultMap g s).2 := by
  unfold Machine.consultMap
  split
  · exact h
  · split
    · exact h
    · split
      · exact h
      · extract_lets s1
        have h1 : P s1 := hP.pmcCount h _ _ _ _
        clear_value s1
        have hm := hP.mirroredLine h1 (mapLineAddr g)
        split
        · exact hP.holdLine h1 _ _
        · split
          · next hb => rw [hb] at hm; exact hP.holdLine hm _ _
          · next hb => rw [hb] at hm; exact hP.loseLine hm _ _ _

theorem materialise (h : P s) (pa : Nat) : P (materialise pa s) := by
  unfold Machine.materialise
  have h2 (x : HbmSt) (a m : Nat) (bs : List Byte) := hP.hbmPut2 (hP.withHbm h x) a m bs
  exact ite (fun _ => h) fun _ => ite (fun _ => hP.withHbm (h2 _ _ _ _) _) fun _ => h2 _ _ _ _

/-! ### Accesses -/

omit hP in
/-- The state that an access leaves, however it ends. -/
def Acc (P : State → Prop) {α : Type} : Machine.Acc α → Prop
  | .ok _ s => P s
  | .fault _ _ s => P s
  | .wait _ _ s => P s

omit hP in
theorem Acc.bind {α β : Type} {x : Machine.Acc α} {g : α → State → Machine.Acc β} (hx : Acc P x)
    (hg : ∀ a s, P s → Acc P (g a s)) : Acc P (x.bind g) := by
  cases x with
  | ok a s => exact hg a s hx
  | fault k va s => exact hx
  | wait m va s => exact hx

theorem readTables : ∀ (as : List Nat) {s : State}, P s → P (readTables as s).2
  | [], _, h => h
  | a :: as, s, h => by
    have hr := hP.readBlock h a
    unfold Machine.readTables
    split
    · next hb => rw [hb] at hr; exact readTables as hr
    · next hb => rw [hb] at hr; exact hr

theorem lookUp (h : P s) (rq : Req) (va : Nat) : Acc P (lookUp rq va s) := by
  have ht := hP.readTables (walkReads s rq.part rq.bank va) (hP.pmcCount h rq.die 0x0A none 1)
  unfold Machine.lookUp
  dsimp only
  split
  · exact h
  · split
    · split <;> exact h
    · split
      · next hb => rw [hb] at ht; exact ht
      · next s1 hb =>
        rw [hb] at ht
        split
        · exact ht
        · next pa _ _ =>
          have hf := hP.frameLine ht (frameNo pa)
          split
          · next hb => rw [hb] at hf; exact hf
          · next hb =>
            rw [hb] at hf
            split
            · exact hP.withHbm hf _
            · exact hf

theorem translate (h : P s) (rq : Req) (va : Nat) (wr : Bool) : Acc P (translate rq va wr s) := by
  refine Acc.bind (hP.lookUp h rq va) fun x s h => ?_
  have henter (m : Nat) : P (enterStack rq m s) := ite (fun _ => hP.keep (hP.keep h)) fun _ => h
  dsimp only
  split
  · exact h
  · split
    · exact h
    · split
      · exact h
      · exact h
      · split
        · exact henter _
        · exact h

theorem vaWritePart (h : P s) (rq : Req) (va : Nat) (bs : List Byte) : Acc P (vaWritePart rq va bs s) := by
  refine Acc.bind (hP.translate h rq va true) fun pa s h => ?_
  have hc := hP.consultMap h (frameNo pa)
  split
  · next hb => rw [hb] at hc; exact hc
  · next s1 hb =>
    rw [hb] at hc
    have hw := hP.blockWrite (hP.materialise (hP.pmcCount hc rq.die 5 (some rq.part) 1) pa) pa bs
    split
    · next hb => rw [hb] at hw; exact hw
    · next hb => rw [hb] at hw; exact hw

theorem vaWriteN (rq : Req) : ∀ (k va : Nat) (bs : List Byte) {s : State}, P s → Acc P (vaWriteN rq k va bs s)
  | 0, _, _, _, h => h
  | k + 1, va, bs, s, h => by
    unfold Machine.vaWriteN
    split
    · exact h
    · exact Acc.bind (hP.vaWritePart h rq _ _) fun _ _ h => vaWriteN rq k _ _ h

/-! ### Events as they are raised, and audit records -/

theorem put_ringWrite : Put P ringWrite := by
  rintro s t f d hbm a bs h ht
  have hw : Acc P (vaWrite (s.ringReq f d) a bs s) := hP.vaWriteN _ _ _ _ h
  unfold ringWrite at ht
  split at ht
  · exact hP.put_hostWriter _ _ _ _ _ _ _ h ht
  · dsimp only at ht
    split at ht
    · next hb => rw [hb] at hw; obtain rfl := Option.some.inj ht; exact hw
    · exact absurd ht (by simp)
    · next hb =>
      rw [hb] at hw
      split at ht
      · exact absurd ht (by simp)
      · obtain rfl := Option.some.inj ht
        exact ite (fun _ => hP.pushLog (hP.bump (hP.setRegN (hP.setRegN hw _ _) _ _) _ _) _) fun _ => hw

theorem raiseEvent (h : P s) (ev : Ev) : P (raiseEvent ev s) := hP.raiseBy hP.put_ringWrite h _

theorem auditAppend (h : P s) (trim : Bool) (r : AuditRec) : P (auditAppend trim r s).2 := by
  unfold Machine.auditAppend
  split
  · exact (hP.raiseEvent h _ : P (mgtEvent 9 _ 2 s))
  · extract_lets a bs s1 _ s2 s3
    have h3 : P s3 := hP.setRegN (hP.withStore (hP.paWrite (hP.paWrite h _ _) _ _) _) _ _
    exact ite (fun _ => hP.raiseEvent h3 _) fun _ => h3

end Passive

end Sys2Proof.Machine
end

section
/-! Role commands (R280, R281, R549 to R557): a command that passes, one that is refused, locks and refusal windows. -/
namespace Sys2Proof.Machine
open Sys2Proof

section
variable {s s1 : State} {m step status : Nat} {c : List Byte}

/-! ### The journals, which events leave alone -/

theorem passive_of_journals (Q : Journal → Journal → Prop) : Passive fun s => Q s.host.mbx s.host.mbxHeld := ⟨fun h => h⟩

/-- A command that is done leaves the journal to one that was held back. -/
theorem finishRole_mbx (status : Nat) (resp : List Byte) (s : State) : (finishRole status resp s).host.mbx = s.host.mbxHeld := by
  have hP := passive_of_journals fun j _ => j = s.host.mbxHeld
  unfold finishRole
  extract_lets j s1
  refine Passive.ite (P := fun t : State => t.host.mbx = s.host.mbxHeld) (fun _ => rfl) fun _ => ?_
  unfold mbxDone
  exact hP.raiseEvent (hP.setRfld (hP.setRegN (hP.keep rfl) _ _) _ _ _ _) _

theorem noteAuthFail_mbxHeld (r : Nat) (sb : Bool) (s : State) : (noteAuthFail r sb s).host.mbxHeld = s.host.mbxHeld := by
  have hP := passive_of_journals fun _ j => j = s.host.mbxHeld
  have h1 : (mgtEvent 5 (r + b2n sb * 4) 2 (bump ZG_MGT_AUTHFAIL 1 s)).host.mbxHeld = s.host.mbxHeld := hP.raiseEvent (hP.bump rfl _ _) _
  exact Passive.ite (P := fun t : State => t.host.mbxHeld = s.host.mbxHeld) (fun _ => h1) fun _ => h1

theorem closeWindow_mbxHeld (r : Nat) (s : State) : (closeWindow r s).host.mbxHeld = s.host.mbxHeld := by
  have hP := passive_of_journals fun _ j => j = s.host.mbxHeld
  exact Passive.ite (P := fun t : State => t.host.mbxHeld = s.host.mbxHeld) (fun _ => rfl) fun _ => hP.withMgt (hP.auditAppend rfl _ _) _

theorem noteRefusal_mbxHeld (r status : Nat) (s : State) : (noteRefusal r status s).host.mbxHeld = s.host.mbxHeld :=
  Passive.ite (P := fun t : State => t.host.mbxHeld = s.host.mbxHeld) (fun _ => rfl) fun _ =>
    Passive.ite (P := fun t : State => t.host.mbxHeld = s.host.mbxHeld) (fun _ => rfl) fun _ => closeWindow_mbxHeld r s

/-! ### Commands that pass (R551, R552) -/

/-- The state that the commit of a command leaves in the journal, with the response. -/
def committed (j : Journal) (e : List Byte × State) : State :=
  let u := mgtEvent 4 (rcRole j.cmd + rcMcmd j.cmd * 4 + b2n j.sb * 2 ^ 18 + rcCounter j.cmd % 2 ^ 45 * 2 ^ 19) 0 e.2
  { u with host := { u.host with mbx := { j with phase := 3, status := 0, resp := e.1 } } }

theorem commitRole_of_audited (haudit : roleAudit s.host.mbx s = (true, s1)) : commitRole s = committed s.host.mbx
    (roleEffect (rcMcmd s.host.mbx.cmd) (rcRole s.host.mbx.cmd) (rcCounter s.host.mbx.cmd) (rcBody s.host.mbx.cmd)
      (s1.counted s.host.mbx.cmd)) := by
  simp only [commitRole, haudit, Bool.not_true, Bool.false_eq_true, if_false]
  rfl

theorem roleDone_committed (j : Journal) (e : List Byte × State) : .next (roleDone (committed j e)) = roleEnds j e.1 e.2 :=
  congrArg Host.Outcome.next (if_pos rfl)

/-- A command that passes takes effect and is done. -/
theorem runRole_of_passes {resp : List Byte} {u : State}
    (he : roleEffect m (rcRole c) (rcCounter c) (rcBody c) (s1.counted c) = (resp, u)) (h : s.rolePasses m c s1) :
    Host.Outcome.next (runRole m s) = roleEnds s.host.mbx resp u := by
  obtain ⟨hphase, rfl, rfl, hrun, hcheck, haudit⟩ := h
  have hcommit : checkRole s = commitRole s := if_pos hcheck
  rw [runRole, if_pos ⟨hphase, rfl, hrun⟩, hcommit, commitRole_of_audited haudit, he, roleDone_committed]

theorem roleEffect_auditRead (role counter : Nat) (b : List Byte) (t : State) {x : List (Option (List Byte)) × State}
    (hx : readRecords auditRecord ((List.range 31).map (getLE b 0 8 + ·)) t = x) :
    roleEffect 5 role counter b t = ((x.1.filterMap id).flatten, x.2) := by
  simp only [roleEffect, Nat.reduceEqDiff, if_false, if_true, hx]

/-- Test mode after TEST_MODE, and the test access port with it (R556, R620). -/
theorem effectTestMode_spec (b : List Byte) {t : State} (ht : t.canonical = true) :
    (effectTestMode b t).testMode = bitOf (byteAt b 0) 0 ∧ (effectTestMode b t).pins.tapEnabled = bitOf (byteAt b 0) 0
    ∧ (bitOf (byteAt b 0) 0 = false → (effectTestMode b t).pins.tapReset = true ∧ (effectTestMode b t).pins.tdoHighZ = true) := by
  refine ⟨?_, rfl, fun hoff => ?_⟩
  · have hcwf := regs_of_canonical ht
    have hset : (t.setRfld ZG_MGT_STATE 3 3 (b2n (bitOf (byteAt b 0) 0))).rfld ZG_MGT_STATE 3 3 = b2n (bitOf (byteAt b 0) 0) :=
      (State.setRfld_rfld_same (by decide) (.inl hcwf)).trans (by cases bitOf (byteAt b 0) 0 <;> rfl)
    have hkeeps (u : State) (hu : cwf 0 u.regs = true) (on was : Bool) :
        (if on = was then u else mgtEvent 0x0B (b2n on) 0 u).rfld ZG_MGT_STATE 3 3 = u.rfld ZG_MGT_STATE 3 3 := by
      have h : Keeps true [] u (if on = was then u else mgtEvent 0x0B (b2n on) 0 u) :=
        .ite (fun _ => .refl u) fun _ => (Keeps.refl u).mgtEvent _ _ _
      rw [State.rfld, h.reg ZG_MGT_STATE (by decide) (by decide) (.inl hu), State.rfld]
    refine (congrArg (· == 1) ((hkeeps _ (State.setRfld_cwf hcwf _ _ _ _) _ _).trans hset)).trans ?_
    cases bitOf (byteAt b 0) 0 <;> rfl
  · simp [effectTestMode, setTap, hoff]

/-! ### Commands that are refused (R551, R554, R557) -/

/-- A refused command is done with the status of the first check it fails. -/
theorem exec_mbxCommit_of_refused (hphase : s.host.mbx.phase = 1) (hrun : s.roleMayRun = true) (hcheck : rcCheck s.host.mbx.cmd s = (step, status))
    (hstep : step ≠ 0) (hheld : s.host.mbxHeld.phase ≠ 3) :
    let r := rcRole s.host.mbx.cmd
    let s1 := if step = 6 then noteAuthFail r s.host.mbx.sb s else s
    exec (.mbxCommit true) s = .next (finishRole status [] (if 2 ≤ step then noteRefusal r status s1 else s1)) := by
  intro r s1
  have h1 : s1.host.mbxHeld = s.host.mbxHeld :=
    Passive.ite (P := fun t : State => t.host.mbxHeld = s.host.mbxHeld) (fun _ => noteAuthFail_mbxHeld _ _ _) fun _ => rfl
  have h2 : (if 2 ≤ step then noteRefusal r status s1 else s1).host.mbxHeld = s.host.mbxHeld :=
    Passive.ite (P := fun t : State => t.host.mbxHeld = s.host.mbxHeld) (fun _ => (noteRefusal_mbxHeld _ _ _).trans h1) fun _ => h1
  have hrefused : checkRole s = finishRole status [] (if 2 ≤ step then noteRefusal r status s1 else s1) := by
    rw [checkRole, hcheck]
    exact if_neg hstep
  have hdone : roleDone (checkRole s) = checkRole s := by
    rw [hrefused]
    refine if_neg ?_
    rw [finishRole_mbx, h2]
    exact hheld
  have hgo : ¬ (!s.roleMayRun) = true := by simp [hrun]
  exact congrArg Host.Outcome.next ((if_neg hgo).trans ((congrArg roleDone (if_pos hphase)).trans (hdone.trans hrefused)))

/-- The checks up to step 7 in their order: a role command that passes has the role's tag and a counter above the stored one. -/
theorem tag_and_counter_of_passes (hrole : 1 ≤ rcRole c) (h : (rcCheck c s).1 = 0) :
    rcTagOk c s = true ∧ s.roleCounter (rcRole c) < rcCounter c := by
  have hr : rcRole c ≠ 0 := Nat.one_le_iff_ne_zero.1 hrole
  simp only [rcCheck] at h
  split_ifs at h with _ _ _ _ _ htag hcount
  exact ⟨by simpa [hr] using htag, by simpa [hr] using hcount⟩

end

/-- Settles O42: a command that passes by its effect, one that is refused by the check it fails first. -/
theorem roleCommandsCommitOnceTheirChecksPass : Obligations.RoleCommandsCommitOnceTheirChecksPass := by
  refine ⟨fun s s1 c => ?_, fun s step status hphase hrun hcheck hstep hheld => exec_mbxCommit_of_refused hphase hrun hcheck hstep hheld,
    fun s c hrole hcount hpass => ?_, fun s c hrole htag hpass => ?_, fun r s => ⟨fun hlocked hlate => ?_, fun hpast => ?_⟩,
    fun s hphase hrun => ?_⟩
  · refine ⟨runRole_of_passes rfl, runRole_of_passes rfl, runRole_of_passes rfl, runRole_of_passes rfl, fun h => ?_, runRole_of_passes rfl,
      runRole_of_passes rfl, runRole_of_passes rfl, runRole_of_passes rfl, runRole_of_passes rfl, fun t ht => effectTestMode_spec _ ht,
      runRole_of_passes rfl, runRole_of_passes rfl, runRole_of_passes rfl⟩
    obtain ⟨x, hx⟩ : ∃ x, readRecords auditRecord ((List.range 31).map (getLE (rcBody c) 0 8 + ·)) (s1.counted c) = x := ⟨_, rfl⟩
    rw [hx]
    exact runRole_of_passes (roleEffect_auditRead _ _ _ _ hx) h
  · exact absurd (tag_and_counter_of_passes hrole hpass).2 (Nat.not_lt.2 hcount)
  · exact absurd (tag_and_counter_of_passes hrole hpass).1 (by simp [htag])
  · exact congrArg Host.Outcome.next (if_pos ⟨hlocked, hlate⟩)
  · exact congrArg Host.Outcome.next (if_pos hpast)
  · have hgo : ¬ (!s.roleMayRun) = true := by simp [hrun]
    have hno : ¬ s.host.mbx.phase = 1 := by omega
    exact ⟨congrArg Host.Outcome.next ((if_neg hgo).trans ((congrArg roleDone (if_neg hno)).trans (if_pos hphase))),
      congrArg Host.Outcome.next ((if_neg hgo).trans (if_neg hno))⟩

end Sys2Proof.Machine
end

section
/-! Descriptors as they are fetched (R250, R252, R254, R255), NOP and COPY (R263, R271, R272). -/
namespace Sys2Proof.Machine
open Sys2Proof

/-! ### Fetch (R254, R255) -/

section
variable {q : Qn} {lane : Bool} {first : Nat} {s : State} {d : List Byte}

theorem running_of_mayFetch {q : Nat} (h : s.mayFetch q = true) : (s.queue q).state = .running := by
  simp only [State.mayFetch, Bool.and_eq_true, beq_iff_eq] at h
  obtain ⟨⟨⟨⟨⟨⟨⟨⟨hrun, -⟩, -⟩, -⟩, -⟩, -⟩, -⟩, -⟩, -⟩ := h
  exact hrun

theorem exec_descriptorFetch_of_wanted (hmay : s.mayFetch q = true) (hretries : (s.queue q).retries = 0)
    (hwant : (s.queue q).wantSeq lane = some first) (n : Fin 32) (fault : Option (Fin 32)) :
    exec (.descriptorFetch q lane n fault) s = .next (fetchN q first lane (fault.map Fin.val) (n.val + 1) s) := by
  refine congrArg Host.Outcome.next ((if_pos ⟨hmay, hretries⟩).trans ?_)
  rw [hwant]

/-- The slot of a submission ring in host memory, as it is read: `good` goes on with a descriptor of the sequence wanted. -/
theorem fetchSlot_of_host {q : Nat} (hhost : (s.queue q).sqHbm = false)
    (hd : s.hostRead (s.queueFn q) ((s.queue q).slotAddr first) 128 = d) (good : List Byte → State → State) (wrong : State → State) :
    fetchSlot q first s good wrong = if dSeq d = first then good d s else wrong s := by
  have hread : readSlot q first s = .ok d s := by
    rw [readSlot]
    simp only [hhost, Bool.false_eq_true, if_false, hd]
  rw [fetchSlot, hread]

/-- A fetch of one descriptor. -/
theorem fetchN_one {q : Nat} (hmay : s.mayFetch q = true) (hwant : (s.queue q).wantSeq lane = some first)
    (hhost : (s.queue q).sqHbm = false) (fault : Option Nat) :
    fetchN q first lane fault 1 s = if fault = some 0 then hostFetchFault q first first s
      else fetchSlot q first s (fun d s' => s'.setQueue q ((s.queue q).takeDesc lane first d))
        (fun s' => s'.setQueue q { s.queue q with retries := 1, retryAt := s'.now, retryLane := lane }) := by
  have hrun : (if (s.queue q).state = .running then (s.queue q).wantSeq lane else none) = some first := by
    rw [if_pos (running_of_mayFetch hmay), hwant]
  rw [fetchN]
  simp only [hrun, Nat.sub_self, hhost, true_and]
  rfl

/-- A slot that is due to be read again. -/
theorem exec_seqRefetch_of_due (hmay : s.mayFetch q = true) (hretries : (s.queue q).retries ≠ 0)
    (hlate : (s.queue q).retryAt + 1000 ≤ s.now) (hwant : (s.queue q).wantSeq (s.queue q).retryLane = some first) :
    exec (.seqRefetch q false) s = .next (fetchSlot q first s
      (fun d s' => s'.setQueue q ((s.queue q).takeDesc (s.queue q).retryLane first d)) fun s' =>
        if (s.queue q).retries = 3 then failSlot q first 4 s'
        else s'.setQueue q { s.queue q with retries := (s.queue q).retries + 1, retryAt := s'.now }) := by
  have hdue : ¬ (!s.mayFetch q || (s.queue q).retries == 0 || decide (s.now < (s.queue q).retryAt + 1000)) = true := by
    simp [hmay, hretries, hlate]
  refine congrArg Host.Outcome.next ((if_neg hdue).trans ?_)
  rw [hwant]
  rfl

end

/-! ### NOP and COPY (R263, R271, R272) -/

section
variable {q : Qn} {seq : Word64} {s t : State} {f : Flight}

theorem exec_nop_of_runs (h : s.runs q seq 0x01 f) (hb : isAdmin q = true → s.betony = 1) : exec (.nop q seq) s = s.endsWith q seq 0 0 := by
  refine congrArg Host.Outcome.next ((withFlight_of_runs h _).trans ?_)
  cases hadmin : isAdmin q with
  | false => rfl
  | true =>
    have h1 := hb hadmin
    exact (if_pos rfl).trans ((if_neg (by rw [h1]; decide)).trans (if_neg (not_not.2 h1)))

theorem vaWriteWhole_of_ok {rq : Req} {va : Nat} {bs : List Byte} (h : vaWrite rq va bs s = .ok () t) : vaWriteWhole rq va bs s = .ok () t := by
  rw [vaWriteWhole, h]

theorem exec_copy_of_bad (h : s.runs q seq 0x08 f) (hbad : checkCopy (dBody f.desc) ≠ 0) (fault : Option Word64) :
    exec (.copy q seq fault) s = s.endsWith q seq (checkCopy (dBody f.desc)) 0 :=
  congrArg Host.Outcome.next ((withFlight_of_runs h _).trans (if_pos hbad))

/-- From host memory to HBM. -/
theorem exec_copy_to_hbm (h : s.runs q seq 0x08 f) (hgood : checkCopy (dBody f.desc) = 0) (hdir : byteAt (dBody f.desc) 0 = 0)
    (hbme : (s.fn (s.queueFn q)).bme = true) (hhub : s.hubLost (s.queue q).die = false)
    (hw : vaWrite (s.req q f 6) (getLE (dBody f.desc) 16 8)
      (s.hostRead (s.queueFn q) (getLE (dBody f.desc) 8 8) (getLE (dBody f.desc) 24 8)) s = .ok () t) :
    exec (.copy q seq none) s = t.endsWith q seq 0 0 := by
  refine congrArg Host.Outcome.next ((withFlight_of_runs h _).trans ?_)
  simp only [hgood, hdir, hbme, hhub, vaWriteWhole_of_ok hw, finishAcc]
  rfl

/-- From HBM to host memory. -/
theorem exec_copy_to_host (h : s.runs q seq 0x08 f) (hgood : checkCopy (dBody f.desc) = 0) (hdir : byteAt (dBody f.desc) 0 = 1)
    (hbme : (s.fn (s.queueFn q)).bme = true) (hhub : s.hubLost (s.queue q).die = false) {bs : List Byte}
    (hr : vaRead (s.req q f 6) (getLE (dBody f.desc) 8 8) (getLE (dBody f.desc) 24 8) s = .ok bs t) :
    exec (.copy q seq none) s = (t.hostWrite (s.queueFn q) (getLE (dBody f.desc) 16 8) bs).endsWith q seq 0 0 := by
  refine congrArg Host.Outcome.next ((withFlight_of_runs h _).trans ?_)
  simp only [hgood, hdir, hbme, hhub, hr, finishAcc]
  rfl

/-- Within HBM. -/
theorem exec_copy_within_hbm (h : s.runs q seq 0x08 f) (hgood : checkCopy (dBody f.desc) = 0) (hdir : byteAt (dBody f.desc) 0 = 2)
    {bs : List Byte} {u : State} (hr : vaRead (s.req q f 6) (getLE (dBody f.desc) 8 8) (getLE (dBody f.desc) 24 8) s = .ok bs t)
    (hw : vaWrite (s.req q f 6) (getLE (dBody f.desc) 16 8) bs t = .ok () u) :
    exec (.copy q seq none) s = u.endsWith q seq 0 0 := by
  refine congrArg Host.Outcome.next ((withFlight_of_runs h _).trans ?_)
  simp only [hgood, hdir, hr, vaWriteWhole_of_ok hw, finishAcc]
  rfl

end

/-- Settles O37: a slot by the sequence its descriptor carries, NOP and COPY by their bodies. -/
theorem descriptorsAreFetchedInSubmitOrder : Obligations.DescriptorsAreFetchedInSubmitOrder := by
  refine ⟨fun q lane first s d hmay => ?_, fun f v s hheld hbme hlate => congrArg Host.Outcome.next (if_pos ⟨hheld, hbme, hlate⟩),
    fun q s => ?_, fun q seq s f => ⟨exec_nop_of_runs, fun hrun => ?_⟩⟩
  · intro x
    refine ⟨fun hretries hwant => ⟨exec_descriptorFetch_of_wanted hmay hretries hwant, fun hhost hd => ?_⟩,
      fun hretries hlate hlane hwant hhost hd => ?_⟩
    · have hone (fault : Option (Fin 32)) := (exec_descriptorFetch_of_wanted hmay hretries hwant 0 fault).trans
        (congrArg Host.Outcome.next (fetchN_one hmay hwant hhost _))
      refine ⟨fun hseq => (hone none).trans ?_, fun hseq => (hone none).trans ?_, hone (some 0)⟩
      · exact congrArg Host.Outcome.next ((fetchSlot_of_host hhost hd _ _).trans (if_pos hseq))
      · exact congrArg Host.Outcome.next ((fetchSlot_of_host hhost hd _ _).trans (if_neg hseq))
    · subst hlane
      have hagain := (exec_seqRefetch_of_due hmay hretries hlate hwant).trans
        (congrArg Host.Outcome.next (fetchSlot_of_host hhost hd _ _))
      refine ⟨fun hseq => hagain.trans ?_, fun hseq hfew => hagain.trans ?_, fun hseq hlast => hagain.trans ?_⟩
      · exact congrArg Host.Outcome.next (if_pos hseq)
      · exact congrArg Host.Outcome.next ((if_neg hseq).trans (if_neg (Nat.ne_of_lt hfew)))
      · exact congrArg Host.Outcome.next ((if_neg hseq).trans (if_pos hlast))
  · exact fun hfull hraised hlate => congrArg Host.Outcome.next (if_pos ⟨hfull, hraised, hlate⟩)
  · exact ⟨fun hbad => exec_copy_of_bad hrun hbad none, fun hgood hdir hbme hhub t hw => exec_copy_to_hbm hrun hgood hdir hbme hhub hw,
      fun hgood hdir hbme hhub bs t hr => exec_copy_to_host hrun hgood hdir hbme hhub hr,
      fun hgood hdir bs t u hr hw => exec_copy_within_hbm hrun hgood hdir hr hw⟩

end Sys2Proof.Machine
end

section
/-! The queue and partition commands of the admin queues (R251, R270, R274 to R278), by their checks. -/
namespace Sys2Proof.Machine
open Sys2Proof

section
variable {q : Qn} {seq : Word64} {s t : State} {f : Flight}

/-! ### Admin commands and their checks (R274 to R277) -/

/-- A dispatched admin command that runs does what its meaning says. -/
theorem withAdmin_of_adminRuns {opc : Nat} (h : s.adminRuns q seq opc f) (g : Flight → State) : withAdmin q seq.toNat opc s g = g f := by
  obtain ⟨hrun, hbetony, hpart⟩ := h
  have halted : ¬ s.betony = 3 := by omega
  rw [withAdmin, withFlight_of_runs hrun, if_neg halted, if_neg (not_not.2 hbetony), if_neg (not_not.2 hpart)]

/-- A check in front of others that does not fail. -/
theorem firstFail_cons {x : Nat} {xs : List Nat} (h : x = 0) : firstFail (x :: xs) = firstFail xs := if_pos h

/-- The check in front fails. -/
theorem firstFail_head {x : Nat} {xs : List Nat} (h : x ≠ 0) : firstFail (x :: xs) = x := if_neg h

theorem failIf_of_false {bad : Bool} {status : Nat} (h : bad = false) : failIf bad status = 0 := by rw [h]; rfl
theorem failIf_of_true {bad : Bool} {status : Nat} (h : bad = true) : failIf bad status = status := by rw [h]; rfl

/-! ### QUEUE_CREATE (R275, R276) -/

/-- The queue that a QUEUE_CREATE makes, for a partition with the tenant given (R275). -/
def createdQueue (b : List Byte) (tenant : Nat) : Queue :=
  { state := .running, cls := byteAt b 2 / 64, part := byteAt b 2 % 64, tenant := tenant, die := byteAt b 3 % 4,
    sqHbm := bitOf (byteAt b 3) 5, cqHbm := bitOf (byteAt b 3) 4, intAll := bitOf (byteAt b 3) 3, sqLog2 := byteAt b 4,
    cqLog2 := byteAt b 5, intVec := getLE b 6 2, sqBase := getLE b 8 8, cqBase := getLE b 16 8, dbSeq := getLE b 24 8 - 1,
    fetchedSeq := getLE b 24 8 - 1, mainSeq := getLE b 24 8 - 1, doneSeq := getLE b 24 8 - 1, target := getLE b 0x20 2,
    holdoffUs := byteAt b 0x22 }

/-- The energy account of a queue starts at zero (R515). -/
def zeroQueueEnergy (n : Nat) (s : State) : State :=
  { s with power := { s.power with eQueue := cset 0 s.power.eQueue n 0, carried := cset (0, 1) s.power.carried n (0, 1) } }

section
variable (h : s.adminRuns q seq 0x90 f) (hpart : partDenied q (byteAt (dBody f.desc) 2 % 64) = 0)
  (hqueue : queueDenied q (getLE (dBody f.desc) 0 2) s = 0)
include h hpart hqueue

theorem exec_queueCreate_of_checked (hbody : createBad (dBody f.desc) s = false)
    (hprivileged : byteAt (dBody f.desc) 2 / 64 = 1 → s.privileged (byteAt (dBody f.desc) 2 % 64) < 4)
    (htarget : targetStatus (getLE (dBody f.desc) 0x20 2) s = 0) :
    let n := getLE (dBody f.desc) 0 2
    let s1 := abortFlights n 7 s
    exec (.queueCreate q seq) s = (zeroQueueEnergy n (s1.setQueue n (createdQueue (dBody f.desc)
      (s1.part (byteAt (dBody f.desc) 2 % 64)).tenant))).endsWith q seq 0 0 := by
  have hfew : (byteAt (dBody f.desc) 2 / 64 == 1 && decide (4 ≤ s.privileged (byteAt (dBody f.desc) 2 % 64))) = false := by
    simpa using hprivileged
  have hgood : firstFail [partDenied q (byteAt (dBody f.desc) 2 % 64), queueDenied q (getLE (dBody f.desc) 0 2) s,
      failIf (createBad (dBody f.desc) s) 1,
      failIf (byteAt (dBody f.desc) 2 / 64 == 1 && decide (4 ≤ s.privileged (byteAt (dBody f.desc) 2 % 64))) 5,
      targetStatus (getLE (dBody f.desc) 0x20 2) s] = 0 := by
    rw [firstFail_cons hpart, firstFail_cons hqueue, firstFail_cons (failIf_of_false hbody), firstFail_cons (failIf_of_false hfew),
      firstFail_cons htarget, firstFail]
  exact congrArg Host.Outcome.next ((withAdmin_of_adminRuns h _).trans (if_neg (not_not.2 hgood)))

theorem exec_queueCreate_of_bad (hbody : createBad (dBody f.desc) s = true) : exec (.queueCreate q seq) s = s.endsWith q seq 1 0 := by
  have hone : failIf (createBad (dBody f.desc) s) 1 = 1 := failIf_of_true hbody
  have hbad : firstFail [partDenied q (byteAt (dBody f.desc) 2 % 64), queueDenied q (getLE (dBody f.desc) 0 2) s,
      failIf (createBad (dBody f.desc) s) 1,
      failIf (byteAt (dBody f.desc) 2 / 64 == 1 && decide (4 ≤ s.privileged (byteAt (dBody f.desc) 2 % 64))) 5,
      targetStatus (getLE (dBody f.desc) 0x20 2) s] = 1 := by
    rw [firstFail_cons hpart, firstFail_cons hqueue, firstFail_head (by rw [hone]; decide), hone]
  refine congrArg Host.Outcome.next ((withAdmin_of_adminRuns h _).trans ((if_pos (by rw [hbad]; decide)).trans ?_))
  rw [hbad]

end

/-! ### QUEUE_DESTROY, QUEUE_START and QUEUE_STOP (R251, R276, R277) -/

section
variable (hbody : checkShort (dBody f.desc) = 0) (hqueue : queueDenied q (sQueue (dBody f.desc)) s = 0)
include hbody hqueue

theorem exec_queueDestroy_of_idle (h : s.adminRuns q seq 0x91 f)
    (hstate : (s.queue (sQueue (dBody f.desc))).state = .stopped ∨ (s.queue (sQueue (dBody f.desc))).state = .error) :
    let n := sQueue (dBody f.desc)
    let s1 := endAttempt n s
    exec (.queueDestroy q seq) s = (dropReaders n (s1.setQueue n { s1.queue n with
      state := .disabled, fetched := [], bad := none, retries := 0, regions := [], unit := none })).endsWith q seq 0 0 := by
  have hidle : ((s.queue (sQueue (dBody f.desc))).state == .running || (s.queue (sQueue (dBody f.desc))).state == .stopping) = false := by
    rcases hstate with hx | hx <;> rw [hx] <;> rfl
  have hon : (s.queue (sQueue (dBody f.desc))).state ≠ .disabled := by
    rcases hstate with hx | hx <;> rw [hx] <;> decide
  have hgood : firstFail [checkShort (dBody f.desc), queueDenied q (sQueue (dBody f.desc)) s,
      failIf ((s.queue (sQueue (dBody f.desc))).state == .running || (s.queue (sQueue (dBody f.desc))).state == .stopping) 9] = 0 := by
    rw [firstFail_cons hbody, firstFail_cons hqueue, firstFail_cons (failIf_of_false hidle), firstFail]
  exact congrArg Host.Outcome.next ((withAdmin_of_adminRuns h _).trans ((if_neg (not_not.2 hgood)).trans (if_neg hon)))

theorem exec_queueDestroy_of_busy (h : s.adminRuns q seq 0x91 f)
    (hstate : (s.queue (sQueue (dBody f.desc))).state = .running ∨ (s.queue (sQueue (dBody f.desc))).state = .stopping) :
    exec (.queueDestroy q seq) s = s.endsWith q seq 9 0 := by
  have hbusy : ((s.queue (sQueue (dBody f.desc))).state == .running || (s.queue (sQueue (dBody f.desc))).state == .stopping) = true := by
    rcases hstate with hx | hx <;> rw [hx] <;> rfl
  have hnine : failIf ((s.queue (sQueue (dBody f.desc))).state == .running || (s.queue (sQueue (dBody f.desc))).state == .stopping) 9 = 9 :=
    failIf_of_true hbusy
  have hbad : firstFail [checkShort (dBody f.desc), queueDenied q (sQueue (dBody f.desc)) s,
      failIf ((s.queue (sQueue (dBody f.desc))).state == .running || (s.queue (sQueue (dBody f.desc))).state == .stopping) 9] = 9 := by
    rw [firstFail_cons hbody, firstFail_cons hqueue, firstFail_head (by rw [hnine]; decide), hnine]
  refine congrArg Host.Outcome.next ((withAdmin_of_adminRuns h _).trans ((if_pos (by rw [hbad]; decide)).trans ?_))
  rw [hbad]

theorem exec_queueStart_of_checked (h : s.adminRuns q seq 0x93 f)
    (hstate : (s.queue (sQueue (dBody f.desc))).state = .stopped ∨ (s.queue (sQueue (dBody f.desc))).state = .error)
    (hdie : s.dieDown (s.queue (sQueue (dBody f.desc))).die = 0) (htarget : targetStatus (s.queue (sQueue (dBody f.desc))).target s = 0) :
    let n := sQueue (dBody f.desc)
    exec (.queueStart q seq) s = (takeBad n (s.setQueue n { s.queue n with state := .running, retries := 0 })).endsWith q seq 0 0 := by
  have hidle : ((s.queue (sQueue (dBody f.desc))).state != .stopped && (s.queue (sQueue (dBody f.desc))).state != .error) = false := by
    rcases hstate with hx | hx <;> rw [hx] <;> rfl
  have hgood : firstFail [checkShort (dBody f.desc), queueDenied q (sQueue (dBody f.desc)) s,
      failIf ((s.queue (sQueue (dBody f.desc))).state != .stopped && (s.queue (sQueue (dBody f.desc))).state != .error) 9,
      s.dieDown (s.queue (sQueue (dBody f.desc))).die, targetStatus (s.queue (sQueue (dBody f.desc))).target s] = 0 := by
    rw [firstFail_cons hbody, firstFail_cons hqueue, firstFail_cons (failIf_of_false hidle), firstFail_cons hdie, firstFail_cons htarget,
      firstFail]
  exact congrArg Host.Outcome.next ((withAdmin_of_adminRuns h _).trans (if_neg (not_not.2 hgood)))

theorem exec_queueStop_of_checked (h : s.runs q seq 0x92 f) (hphase : f.phase = 0) (hpart : adminRefusal q s = 0)
    (hon : (s.queue (sQueue (dBody f.desc))).state ≠ .disabled) :
    exec (.queueStop q seq) s = .next (stopQueue (sQueue (dBody f.desc)) (sAbort (dBody f.desc)) (q, seq.toNat)
      (s.updFlight q seq.toNat (fun g => { g with phase := 1 }))) := by
  have hon' : ((s.queue (sQueue (dBody f.desc))).state == .disabled) = false := beq_eq_false_iff_ne.2 hon
  have hgood : firstFail [adminRefusal q s, checkShort (dBody f.desc), queueDenied q (sQueue (dBody f.desc)) s,
      failIf ((s.queue (sQueue (dBody f.desc))).state == .disabled) 9] = 0 := by
    rw [firstFail_cons hpart, firstFail_cons hbody, firstFail_cons hqueue, firstFail_cons (failIf_of_false hon'), firstFail]
  exact congrArg Host.Outcome.next ((withFlight_of_runs h _).trans
    ((if_neg (not_not.2 hphase)).trans (if_neg (not_not.2 hgood))))

end

/-! ### PARTITION_STOP (R276) -/

/-- A PARTITION_STOP that passes its checks ends at once where no queue of the partition is enabled, and else stops them all. -/
theorem exec_partitionStop_of_checked (h : s.runs q seq 0x96 f) (hphase : f.phase = 0) (hrefusal : adminRefusal q s = 0)
    (hbody : checkShort (dBody f.desc) = 0) (hpart : partDenied q (sPart (dBody f.desc)) = 0)
    (hpresent : (s.part (sPart (dBody f.desc))).present = true) :
    exec (.partitionStop q seq) s = .next (if s.partQueues (sPart (dBody f.desc)) = [] then endCommand q seq.toNat 0 0 s
      else stopPartition (sPart (dBody f.desc)) (sAbort (dBody f.desc)) (some (q.val, seq.toNat))
        (s.updFlight q seq.toNat (fun g => { g with phase := 1 }))) := by
  have hthere : (!(s.part (sPart (dBody f.desc))).present) = false := by rw [hpresent]; rfl
  have hgood : firstFail [adminRefusal q s, checkShort (dBody f.desc), partDenied q (sPart (dBody f.desc)),
      failIf (!(s.part (sPart (dBody f.desc))).present) 1] = 0 := by
    rw [firstFail_cons hrefusal, firstFail_cons hbody, firstFail_cons hpart, firstFail_cons (failIf_of_false hthere), firstFail]
  exact congrArg Host.Outcome.next ((withFlight_of_runs h _).trans
    ((if_neg (not_not.2 hphase)).trans (if_neg (not_not.2 hgood))))

/-! ### EVENT_RING_SET (R270, R276) -/

/-- The checks of EVENT_RING_SET: the ring of the physical function lies in host memory, and a ring that is set is aligned, of a size of
R270 and with a vector of its function. -/
def eventRingBad (fn : Nat) (b : List Byte) : Bool :=
  getLE b 8 8 != 0 && (getLE b 8 8 % 4096 != 0 || decide (getLE b 6 2 % 32 < 6) || decide (16 < getLE b 6 2 % 32)
    || decide ((if fn = 0 then 2048 else 64) ≤ getLE b 4 2))

/-- An EVENT_RING_SET that passes its checks removes the ring of its function, or sets it. -/
theorem exec_eventRingSet_of_checked (h : s.adminRuns q seq 0x97 f) (hbody : checkShort (dBody f.desc) = 0)
    (hhost : (q.val - 65536 == 0 && sAbort (dBody f.desc) && getLE (dBody f.desc) 8 8 != 0) = false)
    (hring : eventRingBad (q.val - 65536) (dBody f.desc) = false) :
    let b := dBody f.desc
    let r := s.fn (q.val - 65536)
    exec (.eventRingSet q seq) s = if getLE b 8 8 = 0 then (s.setFn (q.val - 65536) { r with evSet := false }).endsWith q seq 0 0
      else (announceLost (q.val - 65536) (s.setFn (q.val - 65536)
        { r with evSet := true, evHbm := sAbort b, evBase := getLE b 8 8, evLog2 := getLE b 6 2 % 32, evVec := getLE b 4 2,
                 evConsumed := r.evAssigned })).endsWith q seq 0 0 := by
  have hgood : firstFail [checkShort (dBody f.desc),
      failIf (q.val - 65536 == 0 && sAbort (dBody f.desc) && getLE (dBody f.desc) 8 8 != 0) 1,
      failIf (eventRingBad (q.val - 65536) (dBody f.desc)) 1] = 0 := by
    rw [firstFail_cons hbody, firstFail_cons (failIf_of_false hhost), firstFail_cons (failIf_of_false hring), firstFail]
  refine congrArg Host.Outcome.next ((withAdmin_of_adminRuns h _).trans (if_neg (not_not.2 hgood))) |>.trans ?_
  exact apply_ite Host.Outcome.next _ _ _

/-! ### PARTITION_CREATE and PARTITION_DESTROY (R276, R278) -/

theorem bitOf_of_testMode (h : s.testMode = false) : bitOf (s.reg ZG_MGT_STATE).toNat 3 = false := by
  have hne : bitsOf (s.reg ZG_MGT_STATE).toNat 3 3 ≠ 1 := by simpa [State.testMode, State.rfld, fld] using h
  rw [bitOf, Nat.testBit_eq_decide_div_mod_eq]
  exact decide_eq_false hne

theorem exec_partitionCreate_of_audited (h : s.adminRuns q seq 0x94 f) (hq : q.val = 65536) (hbody : checkShort (dBody f.desc) = 0)
    (hpart : createPartBad (dBody f.desc) s = false) (htenant : getLE (dBody f.desc) 4 2 ≠ 0) (htest : s.testMode = false)
    (haudit : partAudit 0x94 (sPart (dBody f.desc)) s (getLE (dBody f.desc) 4 2) = (true, t)) :
    let b := dBody f.desc
    let u := zeroAccounts (sPart b) (newRoots (sPart b) ((t.setPart (sPart b)
      { present := true, tenant := getLE b 4 2, qFirst := sQueue b, qCount := sCount b + 1, det := bitOf (byteAt b 3) 1,
        audit := bitOf (byteAt b 3) 2 }).setBank (ptTable (sPart b)) {}))
    exec (.partitionCreate q seq) s = ({ u with integ := { u.integ with
      chains := cset ([], 0) u.integ.chains (sPart b) ([], 0) } } : State).endsWith q seq 0 0 := by
  have hpf : (q.val != 65536) = false := by rw [hq]; rfl
  have hten : (getLE (dBody f.desc) 4 2 == 0) = false := beq_eq_false_iff_ne.2 htenant
  have hgood : firstFail [failIf (q.val != 65536) 3, checkShort (dBody f.desc), failIf (createPartBad (dBody f.desc) s) 1,
      failIf (getLE (dBody f.desc) 4 2 == 0) 3, failIf (bitOf (s.reg ZG_MGT_STATE).toNat 3) 0x0808] = 0 := by
    rw [firstFail_cons (failIf_of_false hpf), firstFail_cons hbody, firstFail_cons (failIf_of_false hpart),
      firstFail_cons (failIf_of_false hten), firstFail_cons (failIf_of_false (bitOf_of_testMode htest)), firstFail]
  refine congrArg Host.Outcome.next ((withAdmin_of_adminRuns h _).trans ((if_neg (not_not.2 hgood)).trans ?_))
  rw [haudit]

theorem exec_partitionDestroy_of_audited (h : s.adminRuns q seq 0x95 f) (hq : q.val = 65536) (hbody : checkShort (dBody f.desc) = 0)
    (hpresent : (s.part (sPart (dBody f.desc))).present = true) (hphase : f.phase = 0)
    (haudit : partAudit 0x95 (sPart (dBody f.desc)) s (s.part (sPart (dBody f.desc))).tenant = (true, t)) :
    let p := sPart (dBody f.desc)
    exec (.partitionDestroy q seq) s = .next (releaseClusters p (releaseBlocks p (closeStreams p (freeStages p (disableQueues p
      (t.updFlight q seq.toNat (fun g => { g with phase := 1 }))))))) := by
  have hpf : (q.val != 65536) = false := by rw [hq]; rfl
  have hthere : (!(s.part (sPart (dBody f.desc))).present) = false := by rw [hpresent]; rfl
  have hgood : firstFail [failIf (q.val != 65536) 3, checkShort (dBody f.desc), failIf (!(s.part (sPart (dBody f.desc))).present) 1] = 0 := by
    rw [firstFail_cons (failIf_of_false hpf), firstFail_cons hbody, firstFail_cons (failIf_of_false hthere), firstFail]
  refine congrArg Host.Outcome.next ((withAdmin_of_adminRuns h _).trans ((if_pos hphase).trans ((if_neg (not_not.2 hgood)).trans ?_)))
  rw [haudit]

theorem exec_partitionDestroy_of_released (h : s.adminRuns q seq 0x95 f) (hphase : f.phase ≠ 0)
    (hnamed : clustersName (sPart (dBody f.desc)) s = false) (h0 : (s.bank (sPart (dBody f.desc))).readers0 = 0)
    (h1 : (s.bank (sPart (dBody f.desc))).readers1 = 0) :
    exec (.partitionDestroy q seq) s = (erasePartition (sPart (dBody f.desc)) s).endsWith q seq 0 0 := by
  have hfree : ¬ (clustersName (sPart (dBody f.desc)) s || (s.bank (ptTable (sPart (dBody f.desc)))).readers0 != 0
      || (s.bank (ptTable (sPart (dBody f.desc)))).readers1 != 0) = true := by
    simp [ptTable, hnamed, h0, h1]
  exact congrArg Host.Outcome.next ((withAdmin_of_adminRuns h _).trans ((if_neg hphase).trans (if_neg hfree)))

end

/-- Settles O39: each command is its checks in order and then its effect. -/
theorem queueCommandsMoveQueuesThroughTheirStates : Obligations.QueueCommandsMoveQueuesThroughTheirStates := by
  intro q seq s f b n x
  refine ⟨exec_queueCreate_of_checked, exec_queueCreate_of_bad, fun h hbody hqueue hstate => exec_queueDestroy_of_idle hbody hqueue h hstate,
    fun h hbody hqueue hstate => exec_queueDestroy_of_busy hbody hqueue h hstate,
    fun h hbody hqueue hstate hdie htarget => exec_queueStart_of_checked hbody hqueue h hstate hdie htarget,
    fun h hphase hpart hbody hqueue hon => exec_queueStop_of_checked hbody hqueue h hphase hpart hon,
    fun h hphase hrefusal hbody hpart hpresent => ?_, fun h hbody => ?_,
    fun h hq hbody hpart htenant htest t haudit => exec_partitionCreate_of_audited h hq hbody hpart htenant htest haudit,
    fun h hq hbody hpresent => ⟨fun hphase t haudit => exec_partitionDestroy_of_audited h hq hbody hpresent hphase haudit,
      fun hphase hnamed h0 h1 => exec_partitionDestroy_of_released h hphase hnamed h0 h1⟩⟩
  · have hstop := exec_partitionStop_of_checked h hphase hrefusal hbody hpart hpresent
    exact ⟨fun hnone => hstop.trans (congrArg Host.Outcome.next (if_pos hnone)),
      fun hsome => hstop.trans (congrArg Host.Outcome.next (if_neg hsome))⟩
  · intro r log2
    refine ⟨fun hbase => ?_, fun hbase halign hlo hhi hhost hvec hq => ?_⟩
    · exact (exec_eventRingSet_of_checked h hbody (by simp [b, hbase]) (by simp [eventRingBad, b, hbase])).trans (if_pos hbase)
    · have hfn : q.val - 65536 = 0 ↔ q.val = 65536 := by omega
      have hring : eventRingBad (q.val - 65536) b = false := by
        simp only [eventRingBad, hfn, Bool.and_eq_false_iff, Bool.or_eq_false_iff, decide_eq_false_iff_not]
        exact .inr ⟨⟨⟨by simpa using halign, Nat.not_lt.2 hlo⟩, Nat.not_lt.2 hhi⟩, Nat.not_le.2 hvec⟩
      have hplace : (q.val - 65536 == 0 && sAbort b && getLE b 8 8 != 0) = false := by
        by_cases hpf : q.val = 65536
        · simp [hhost hpf]
        · simp [hfn, hpf]
      exact (exec_eventRingSet_of_checked h hbody hplace hring).trans (if_neg hbase)

end Sys2Proof.Machine
end

section
/-! Resets of functions (R250, R282, R283, R596): the registers they reset, the queues they disable, and Bus Master Enable. -/
namespace Sys2Proof.Machine
open Sys2Proof

/-! ### The registers of a function (R596) -/

section
variable {f : Nat} {s : State}

/-- The registers that a reset of a function sets to zero. -/
def zeroedFnRegs : List Nat :=
  [ZG_ADM_SQ_BASE, ZG_ADM_CQ_BASE, ZG_HQ_SEL, ZG_HQ_STATE, ZG_HQ_DB_SEQ, ZG_HQ_FETCHED_SEQ, ZG_HQ_DONE_SEQ, ZG_HQ_CMPL_SEQ,
    ZG_HQ_CQ_CONSUMED, ZG_HQ_SNAP_NS, ZG_HQ_EVT_ASSIGNED, ZG_HQ_EVT_WRITTEN, ZG_HQ_EVT_CONSUMED, ZG_REG_ERR]

/-- Registers of a function set to zero, of a list: those read as zero, every other register as before. -/
theorem zeroRegs_spec : ∀ (offs : List Nat) {s : State}, cwf 0 s.regs = true →
    ∃ regs, offs.foldl (fun s off => s.setRegF f off 0) s = { s with regs := regs } ∧ cwf 0 regs = true
      ∧ ∀ k, cget 0 regs k = if k ∈ offs.map (regKey f) then 0 else cget 0 s.regs k
  | [], s, h => ⟨s.regs, rfl, h, fun k => by simp⟩
  | off :: offs, s, h => by
    obtain ⟨regs, hs, hcwf, hget⟩ := zeroRegs_spec offs (s := s.setRegF f off 0) (cwf_cset _ _ h)
    refine ⟨regs, hs, hcwf, fun k => ?_⟩
    rw [hget k, State.setRegF, cget_cset h, List.map_cons]
    by_cases hk : k = regKey f off
    · simp [hk]
    · simp [hk]

/-- A key of a register of function `f`. -/
theorem regKey_div {off : Nat} (h : off < 0x200000) : regKey f off / 0x200000 = f := by
  rw [regKey]
  omega

theorem regKey_inj {a b : Nat} : regKey f a = regKey f b ↔ a = b := by simp [regKey]

/-- What a reset leaves of the registers of a function, and of every other. -/
theorem resetFnRegs_spec (hregs : cwf 0 s.regs = true) :
    ∃ regs, resetFnRegs f s = { s with regs := regs, mgt := { s.mgt with shadows := cset (0, 0) s.mgt.shadows f (0, 0) } }
      ∧ ∀ k, cget 0 regs k = if k ∈ zeroedFnRegs.map (regKey f) then 0 else if k = regKey f ZG_ADM_CFG then 0x660 else cget 0 s.regs k := by
  obtain ⟨regs, hs, -, hget⟩ := zeroRegs_spec (f := f) zeroedFnRegs (s := s.setRegF f ZG_ADM_CFG 0x660) (cwf_cset _ _ hregs)
  refine ⟨regs, ?_, fun k => ?_⟩
  · exact congrArg (fun t : State => { t with mgt := { t.mgt with shadows := cset (0, 0) t.mgt.shadows f (0, 0) } }) hs
  · rw [hget k, State.setRegF, cget_cset hregs]

/-- The registers of a function after its reset, and those of the others. -/
theorem resetFnRegs_regs (hregs : cwf 0 s.regs = true) :
    let t := resetFnRegs f s
    t.regF f ZG_ADM_CFG = 0x660 ∧ (∀ off ∈ zeroedFnRegs, t.regF f off = 0)
      ∧ ∀ k, k / 0x200000 ≠ f → cget 0 t.regs k = cget 0 s.regs k := by
  obtain ⟨regs, hs, hget⟩ := resetFnRegs_spec (f := f) hregs
  rw [hs]
  refine ⟨(hget _).trans ?_, fun off hoff => (hget _).trans (if_pos (List.mem_map_of_mem hoff)), fun k hk => (hget k).trans ?_⟩
  · rw [if_neg, if_pos rfl]
    simp only [List.mem_map, regKey_inj]
    rintro ⟨off, hoff, rfl⟩
    exact absurd hoff (by decide)
  · have hsmall : ∀ off ∈ zeroedFnRegs, off < 0x200000 := by decide
    rw [if_neg, if_neg]
    · rintro rfl
      exact hk (regKey_div (by decide))
    · simp only [List.mem_map]
      rintro ⟨off, hoff, rfl⟩
      exact hk (regKey_div (hsmall off hoff))

end

/-! ### Queues without commands (R283) -/

section
variable {s : State}

/-- A queue without a dispatched command, an admin command that waits for it, or a filler unit. -/
def Queue.Idle (x : Queue) : Prop := x.flights = [] ∧ x.stopWaiters = [] ∧ x.unit = none

/-- A queue as its function is reset, before its commands are aborted. -/
def Queue.closing (x : Queue) : Queue :=
  { x with state := .disabled, mute := true, held := [], fetched := [], bad := none, retries := 0, cqFull := false, fullRaised := none,
           stopWaiters := [] }

/-- A queue as a reset of its function leaves it. -/
def Queue.shut (x : Queue) : Queue := { x.closing with regions := [], unit := none }

/-- Nothing ends where no command is to end. -/
theorem endAll_nil (s : State) : endAll [] s = s := by
  rw [endAll]
  cases endFuel [] s <;> rfl

theorem abortFlights_of_idle {q : Nat} (status : Nat) (h : (s.queue q).Idle) : abortFlights q status s = s := by
  obtain ⟨hflights, -, hunit⟩ := h
  have hattempt : endAttempt q s = s := by rw [endAttempt, hunit]
  rw [abortFlights, hattempt, hflights]
  rfl

theorem disableQueue_eq (q : Nat) (s : State) :
    let t := abortFlights q 7 ((releaseBanks ((s.queue q).held.flatMap (·.binds)) s).setQueue q (s.queue q).closing)
    let u := t.setQueue q { t.queue q with regions := [], unit := none }
    disableQueue q s = endAll (((s.queue q).stopWaiters.filter (fun w => !u.host.queues.any (fun p => p.2.stopWaiters.contains w))).map
      (fun w => { queue := w.1, seq := w.2, status := 0 })) u := rfl

/-- A reset disables an idle queue, and changes nothing else but the readers of banked tables. -/
theorem disableQueue_of_idle {q : Nat} (hcwf : cwf {} s.host.queues = true) (h : (s.queue q).Idle) :
    ∃ bk qs, disableQueue q s = { s with banks := bk, host := { s.host with queues := qs } } ∧ cwf {} qs = true
      ∧ ∀ q', cget {} qs q' = if q' = q then (s.queue q).shut else s.queue q' := by
  obtain ⟨bk, hrel⟩ := releaseBanks_rest ((s.queue q).held.flatMap (·.binds)) s
  have h1 : cwf {} (cset {} s.host.queues q (s.queue q).closing) = true := cwf_cset _ _ hcwf
  have hclosing : cget {} (cset {} s.host.queues q (s.queue q).closing) q = (s.queue q).closing :=
    (cget_cset hcwf q q _).trans (if_pos rfl)
  refine ⟨bk, cset {} (cset {} s.host.queues q (s.queue q).closing) q (s.queue q).shut, ?_, cwf_cset _ _ h1, fun q' => ?_⟩
  · have hidle : ((({ s with banks := bk } : State).setQueue q (s.queue q).closing).queue q).Idle := by
      obtain ⟨hflights, -, hunit⟩ := h
      rw [State.queue, State.setQueue, hclosing]
      exact ⟨hflights, rfl, hunit⟩
    have habort := abortFlights_of_idle 7 hidle
    rw [disableQueue_eq, hrel, habort, h.2.1, List.filter_nil, List.map_nil, endAll_nil,
      show (({ s with banks := bk } : State).setQueue q (s.queue q).closing).queue q = (s.queue q).closing from hclosing]
    rfl
  · rw [cget_cset h1]
    split
    · rfl
    · next hne => exact (cget_cset hcwf _ _ _).trans (if_neg hne)

/-- The same for every queue of a list. -/
theorem disableQueues_of_idle : ∀ (l : List Nat) {s : State}, cwf {} s.host.queues = true → (∀ q ∈ l, (s.queue q).Idle) →
    ∃ bk qs, l.foldl (fun t q => disableQueue q t) s = { s with banks := bk, host := { s.host with queues := qs } }
      ∧ (∀ q ∈ l, (cget {} qs q).state = .disabled ∧ (cget {} qs q).fetched = [] ∧ (cget {} qs q).held = []
        ∧ (cget {} qs q).doneSeq = (s.queue q).doneSeq)
      ∧ ∀ q, q ∉ l → cget {} qs q = s.queue q
  | [], s, _, _ => ⟨s.banks, s.host.queues, rfl, by simp, fun _ _ => rfl⟩
  | a :: l, s, hcwf, hidle => by
    obtain ⟨bk, qs, hs, hqs, hget⟩ := disableQueue_of_idle hcwf (hidle a List.mem_cons_self)
    have hidle' : ∀ q ∈ l, (cget {} qs q).Idle := by
      intro q hq
      rw [hget q]
      split
      · obtain ⟨hflights, -, -⟩ := hidle a List.mem_cons_self
        exact ⟨hflights, rfl, rfl⟩
      · exact hidle q (List.mem_cons_of_mem a hq)
    obtain ⟨bk', qs', hs', hin, hout⟩ := disableQueues_of_idle l
      (s := { s with banks := bk, host := { s.host with queues := qs } }) hqs hidle'
    refine ⟨bk', qs', ?_, fun q hq => ?_, fun q hq => ?_⟩
    · rw [List.foldl_cons, hs, hs']
    · have hdone : (cget {} qs q).doneSeq = (s.queue q).doneSeq := by
        rw [hget q]
        split
        · next heq => rw [heq]; rfl
        · rfl
      by_cases hql : q ∈ l
      · obtain ⟨h1, h2, h3, h4⟩ := hin q hql
        exact ⟨h1, h2, h3, h4.trans hdone⟩
      · obtain rfl := (List.mem_cons.1 hq).resolve_right hql
        rw [hout q hql]
        exact ⟨by rw [State.queue, hget q, if_pos rfl]; rfl, by rw [State.queue, hget q, if_pos rfl]; rfl,
          by rw [State.queue, hget q, if_pos rfl]; rfl, hdone⟩
    · rw [List.mem_cons, not_or] at hq
      rw [hout q hq.2, State.queue, hget q, if_neg hq.1]

/-- The reset of a function by what it does to the function, its queues, its vectors and its registers in turn. -/
theorem functionReset_of_idle {f : Nat} (hs : s.canonical = true) (hidle : ∀ q ∈ s.fnQueues f, (s.queue q).Idle) :
    ∃ bk qs regs, functionReset f s =
        { s with banks := bk, regs := regs, mgt := { s.mgt with shadows := cset (0, 0) s.mgt.shadows f (0, 0) },
                 host := { s.host with fns := cset {} s.host.fns f { s.fn f with bme := false, evSet := false, evHeld := [] }, queues := qs,
                                       vectors := cclear s.host.vectors (f * 2048) (f * 2048 + 2048) } }
      ∧ (∀ q ∈ s.fnQueues f, (cget {} qs q).state = .disabled ∧ (cget {} qs q).fetched = [] ∧ (cget {} qs q).held = []
        ∧ (cget {} qs q).doneSeq = (s.queue q).doneSeq)
      ∧ ∀ q, q ∉ s.fnQueues f → cget {} qs q = s.queue q := by
  have hc : Canon s.pending s := canon_iff.2 ⟨hs, rfl⟩
  obtain ⟨bk, qs, hdis, hin, hout⟩ := disableQueues_of_idle (s.fnQueues f)
    (s := s.setFn f { s.fn f with bme := false, evSet := false, evHeld := [] }) hc.queues hidle
  obtain ⟨regs, hregs, -⟩ := resetFnRegs_spec (f := f) (s := { s with banks := bk, host := { s.host with
    fns := cset {} s.host.fns f { s.fn f with bme := false, evSet := false, evHeld := [] }, queues := qs,
    vectors := cclear s.host.vectors (f * 2048) (f * 2048 + 2048) } }) hc.regs
  refine ⟨bk, qs, regs, ?_, hin, hout⟩
  rw [functionReset]
  refine Eq.trans (congrArg (fun u : State => resetFnRegs f
    { u with host := { u.host with vectors := cclear u.host.vectors (f * 2048) (f * 2048 + 2048) } }) hdis) hregs

end

/-! ### Bus Master Enable and VF Enable (R250, R283) -/

section
variable {f : Func} {s : State}

/-- The state in which a configuration write of a function sets Bus Master Enable: VF Enable has changed where the write is the
physical function's and carries another. -/
def afterVfEnable (f : Func) (vfs : Bool) (s : State) : State :=
  if f.val = 0 ∧ vfs ≠ s.host.vfEnable then setVfEnable vfs s else s

theorem exec_busMasterEnable (hf : s.hasFn f = true) (on : Bool) {vfs : Bool} {t : State} (ht : afterVfEnable f vfs s = t) :
    let u := t.setFn f { t.fn f with bme := on }
    exec (.busMasterEnable f ⟨on, vfs⟩) s = .next (if on = true ∧ (t.fn f).bme = false then
      (u.fnQueues f).foldl (fun t q => writeHeld q t) (announceLost f (writeHeldEvents f (t.fn f).evHeld u)) else u) :=
  ht ▸ congrArg Host.Outcome.next (if_neg (by simp [hf]))

end

/-- Settles O40: each reset by its parts, and the queues of a function one after another. -/
theorem resetsDisableTheQueuesOfTheirFunctions : Obligations.ResetsDisableTheQueuesOfTheirFunctions := by
  refine ⟨fun p s => rfl, fun s => ⟨rfl, rfl⟩, fun f s hs hshadows => ?_, fun f s => rfl, fun q s => ?_, fun f s hs hidle => ?_,
    fun f vfs s₀ => ⟨fun hf on => congrArg Host.Outcome.next (if_pos hf), fun hf => ?_⟩⟩
  · have hregs := regs_of_canonical hs
    obtain ⟨hcfg, hzero, hother⟩ := resetFnRegs_regs (f := f) hregs
    obtain ⟨regs, ht, -⟩ := resetFnRegs_spec (f := f) hregs
    refine ⟨hcfg, hzero _ (by decide), hzero _ (by decide), hzero _ (by decide), hzero _ (by decide), ?_, hother, ?_⟩
    · rw [ht]
      exact (cget_cset hshadows f f _).trans (if_pos rfl)
    · rw [ht]
  · refine ⟨_, disableQueue_eq q s, fun e he => ?_⟩
    obtain ⟨w, hw, rfl⟩ := List.mem_map.1 he
    exact ⟨List.mem_of_mem_filter hw, rfl, rfl⟩
  · obtain ⟨bk, qs, regs, ht, hin, hout⟩ := functionReset_of_idle hs hidle
    have hfns : cwf {} s.host.fns = true := (canon_iff.2 ⟨hs, rfl⟩ : Canon s.pending s).fns
    rw [ht]
    exact ⟨hin, hout, (cget_cset hfns f f _).trans (if_pos rfl), fun g hg => (cget_cset hfns f g _).trans (if_neg hg), rfl, rfl, rfl⟩
  · intro r s
    have hs : afterVfEnable f vfs s₀ = s := by
      rw [afterVfEnable]
      cases vfs <;> rfl
    have hwrite (on : Bool) := exec_busMasterEnable hf on hs
    exact ⟨(hwrite false).trans (congrArg Host.Outcome.next (if_neg (by simp))),
      fun hon => (hwrite true).trans (congrArg Host.Outcome.next (if_neg (by simp [hon]))),
      fun hoff => (hwrite true).trans (congrArg Host.Outcome.next (if_pos ⟨rfl, hoff⟩))⟩

end Sys2Proof.Machine
end

section
/-! Command front ends: whose turn it is, the header check of a dispatch, and loans (R256, R257, R261, R263, R273, R421, R424 to R428). -/
namespace Sys2Proof.Machine
open Sys2Proof

/-! ### Turns (R256, R273, R421) -/

section
variable {die : Die} {s : State} {q : Nat} {d : List Byte}

/-- Whoever is next is one of those that wait. -/
theorem mem_of_nextInTurn {last : Nat} {qs : List Nat} (h : nextInTurn last qs = some q) : q ∈ qs := by
  rw [nextInTurn, Option.or_eq_some_iff] at h
  rcases h with hfind | ⟨-, hhead⟩
  · exact List.mem_of_find?_eq_some hfind
  · exact List.mem_of_head? hhead

theorem exec_commandDispatch_admin (hnext : nextInTurn (cget 0 s.host.rotation 12) s.readyAdmin = some q) (hd : s.mainReady q = some d) :
    exec (.commandDispatch die) s = .next (dispatchMain q d (takeTurn 12 q s)) := by
  refine congrArg Host.Outcome.next ?_
  simp only [hnext, hd]

theorem exec_commandDispatch_user (hnone : s.readyAdmin = []) (hnext : s.nextUser die = some q) (hd : s.mainReady q = some d) :
    exec (.commandDispatch die) s = .next (dispatchMain q d (takeTurn (turnKey die (s.queue q).cls) q s)) := by
  have hadmin : nextInTurn (cget 0 s.host.rotation 12) s.readyAdmin = none := by rw [hnone]; rfl
  refine congrArg Host.Outcome.next ?_
  simp only [hadmin, hnext, hd]

theorem exec_deferredDispatch_of_ready {r : DeferRegion} (hnext : s.nextUser die = some q) (hd : s.laneReady q = some (r, d)) :
    exec (.deferredDispatch die) s = .next (takeBad q (dispatchDesc q d true
      ((takeTurn (turnKey die (s.queue q).cls) q (bump (ZG_TRN_DEFER_DISP die) 1 s)).setQueue q { s.queue q with
        regions := (s.queue q).regions.map (fun (y : DeferRegion) =>
          if y.first = r.first then { y with lane := y.lane.drop 1, next := dSeq d + 1 } else y) }))) := by
  refine congrArg Host.Outcome.next ?_
  simp only [hnext, hd]

end

/-! ### The header check (R257, R261) -/

section
variable {q : Nat} {d : List Byte} {late : Bool} {s : State}

/-- The dispatched command that a descriptor becomes; `quiet` and `blocked` say that it signals nothing, and that its signal was denied. -/
def State.newFlight (s : State) (q : Nat) (d : List Byte) (late quiet blocked : Bool) : Flight :=
  { seq := dSeq d, desc := d, order := s.host.dispatched + 1, deferred := late, refused := namedNotOwned q d s, noSignal := quiet,
    sigBlocked := blocked, reserved := (s.placeFor q d).getD false, work := if dOpc d = 0xB0 then energySnap q s else [] }

/-- A dispatched command joins the flights of its queue with the next number in the order of dispatches. -/
def joinFlight (q : Nat) (g : Flight) (s : State) : State :=
  let s1 := ({ s with host := { s.host with dispatched := s.host.dispatched + 1 } } : State).setQueue q ((s.queue q).addFlight g)
  if isAdmin q then s1 else pmcCount (s.queue q).die 0x0C (some (s.queue q).part) 1 (noteProgress q s1)

/-- The denial of a signal is counted, with its event (R261). -/
def denySignal (q die : Nat) (d : List Byte) (s : State) : State :=
  raiseEvent { cls := 1, code := 6, src := if isAdmin q then 4 else die, queue := queueField q, part := s.queuePart q,
               data := dSigObj d, log := false } (bumpF (s.queueFn q) ZG_HQ_SIG_DENIED 1 s)

/-- A dispatch by the statuses of the steps of R261: opcode and fields, signal, package not ready. -/
theorem dispatchDesc_of_statuses {early sig unready : Nat} (hearly : firstFail [opcodeStatus q (dOpc d), fieldStatus q d] = early)
    (hsig : (if early = 0 then signalStatus q d s else 0) = sig)
    (hunready : (if early = 0 ∧ sig = 0 then notReadyStatus q d s else 0) = unready) :
    let f := s.newFlight q d late (early != 0 || sig != 0) (sig != 0)
    let t := joinFlight q f s
    dispatchDesc q d late s = if firstFail [early, sig, unready] = 0 then bindFor q d f t
      else endCommand q (dSeq d) (firstFail [early, sig, unready]) 0 (if sig = 0 then t else denySignal q (s.queue q).die d t) := by
  subst hearly hsig hunready
  rfl

theorem signalStatus_eq_three (h : signalStatus q d s ≠ 0) : signalStatus q d s = 3 := failIf_eq_of_ne_zero h

theorem dispatchDesc_of_passing (hearly : firstFail [opcodeStatus q (dOpc d), fieldStatus q d] = 0) (hsig : signalStatus q d s = 0)
    (hready : notReadyStatus q d s = 0) :
    dispatchDesc q d late s = bindFor q d (s.newFlight q d late false false) (joinFlight q (s.newFlight q d late false false) s) :=
  (dispatchDesc_of_statuses hearly ((if_pos rfl).trans hsig) ((if_pos ⟨rfl, rfl⟩).trans hready)).trans (if_pos rfl)

theorem dispatchDesc_of_early (hearly : firstFail [opcodeStatus q (dOpc d), fieldStatus q d] ≠ 0) :
    dispatchDesc q d late s = endCommand q (dSeq d) (firstFail [opcodeStatus q (dOpc d), fieldStatus q d]) 0
      (joinFlight q (s.newFlight q d late true false) s) := by
  have hall : firstFail [firstFail [opcodeStatus q (dOpc d), fieldStatus q d], 0, 0] = firstFail [opcodeStatus q (dOpc d), fieldStatus q d] :=
    firstFail_head hearly
  have h := dispatchDesc_of_statuses (late := late) rfl (if_neg hearly : _ = 0) (s := s) (unready := 0) (if_neg fun h => hearly h.1)
  have hquiet : (firstFail [opcodeStatus q (dOpc d), fieldStatus q d] != 0 || (0 : Nat) != 0) = true := by simp [hearly]
  rw [hall, hquiet] at h
  exact h.trans ((if_neg hearly).trans rfl)

theorem dispatchDesc_of_notReady (hearly : firstFail [opcodeStatus q (dOpc d), fieldStatus q d] = 0) (hsig : signalStatus q d s = 0)
    (hready : notReadyStatus q d s ≠ 0) :
    dispatchDesc q d late s = endCommand q (dSeq d) (notReadyStatus q d s) 0 (joinFlight q (s.newFlight q d late false false) s) := by
  have hall : firstFail [0, 0, notReadyStatus q d s] = notReadyStatus q d s := firstFail_head hready
  have h := dispatchDesc_of_statuses (late := late) hearly ((if_pos rfl).trans hsig) (if_pos ⟨rfl, rfl⟩)
  rw [hall] at h
  exact h.trans ((if_neg hready).trans rfl)

theorem dispatchDesc_of_denied (hearly : firstFail [opcodeStatus q (dOpc d), fieldStatus q d] = 0) (hsig : signalStatus q d s ≠ 0) :
    dispatchDesc q d late s = endCommand q (dSeq d) 3 0
      (denySignal q (s.queue q).die d (joinFlight q (s.newFlight q d late true true) s)) :=
  (dispatchDesc_of_statuses hearly ((if_pos rfl).trans (signalStatus_eq_three hsig)) (if_neg (by decide) : _ = 0)).trans rfl

/-- An opcode without a body length is one that the queue does not know. -/
theorem opcodeStatus_eq_two {o : Nat} (hpf : pfOpcode q o = false) :
    opcodeStatus q o = 2 ↔ (if isAdmin q then adminBody o else userBody o) = none := by
  rw [opcodeStatus, hpf]
  cases h : (if isAdmin q then adminBody o else userBody o) <;> simp [failIf]

end

/-! ### Loans (R426, R428) -/

section
variable {s : State} {u : FillUnit}

theorem exec_loanGrant_of_next {die : Die} {q : Nat} (hnext : nextInTurn (cget 0 s.trn.turn die) (s.fillers die) = some q)
    (hu : (s.queue q).unit = some u) :
    let s1 := s.setQueue q { s.queue q with unit := some { u with pos := 0 } }
    exec (.loanGrant die) s = .next (bump (ZG_TRN_LOANS die) 1
      (((s.lendableTo q die).take u.width).foldl (fun t c => lendCluster q die u.first c t)
        { s1 with trn := { s1.trn with turn := cset 0 s1.trn.turn die (q + 1) } })) := by
  refine congrArg Host.Outcome.next ?_
  simp only [hnext, hu]

/-- The clusters lent to a filler queue are told that their loan ends. -/
def endLoans (q : Nat) (s : State) : State :=
  (s.lentKeys q).foldl (fun t k => t.updClus (k / 64) (k % 64)
    (fun x => { x with loan := x.loan.map (fun l => { l with ending := true }) })) s

theorem exec_loanEnd_of_due {q : Qn} (hu : (s.queue q).unit = some u) (hlent : s.lentKeys q ≠ []) (hdue : s.loanDue q = true) :
    let t := stopUnitWork q u true (endLoans q s)
    exec (.loanEnd q) s = .next (if t.clu.cl.any (fun p => p.2.prog.any (fun v => v.queue == q.val && u.has v.seq)) then t
      else endAttempt q t) := by
  have hgo : ¬ (s.lentKeys q = [] ∨ s.loanDue q = false) := by simp [hlent, hdue]
  refine congrArg Host.Outcome.next ?_
  simp only [hu, if_neg hgo]
  rfl

end

/-- Settles O41: a dispatch by whose turn it is and the first check it breaks, loans by their queue's unit. -/
theorem frontEndsDispatchInTurnAndLendIdleClusters : Obligations.FrontEndsDispatchInTurnAndLendIdleClusters := by
  refine ⟨fun die s q d hd => ⟨fun hnext => exec_commandDispatch_admin hnext hd, fun hnone hnext => exec_commandDispatch_user hnone hnext hd⟩,
    fun die s q d r hnext hd => exec_deferredDispatch_of_ready hnext hd, fun q d late s => ?_,
    fun q d hpf => ⟨fun huser => ?_, fun hadmin => ?_⟩, fun last qs q => mem_of_nextInTurn,
    fun die s q u hnext hu => exec_loanGrant_of_next hnext hu, fun q s u hu hlent hdue => exec_loanEnd_of_due hu hlent hdue⟩
  · intro early x f joins s2 s3
    have hquiet : early = 0 → (early != 0) = false := fun h => by simp [h]
    refine ⟨fun hearly hsig hready => ?_, fun hearly => ?_, fun hearly hsig hready => ?_, fun hearly hsig => ?_⟩
    · have hf : f = s.newFlight q d late false false := congrArg (s.newFlight q d late · false) (hquiet hearly)
      exact (dispatchDesc_of_passing hearly hsig hready).trans (congrArg (fun g => bindFor q d g (joinFlight q g s)) hf.symm)
    · have hf : f = s.newFlight q d late true false := congrArg (s.newFlight q d late · false) (by simp [hearly] : (early != 0) = true)
      exact (dispatchDesc_of_early hearly).trans (congrArg (fun g => endCommand q (dSeq d) early 0 (joinFlight q g s)) hf.symm)
    · have hf : f = s.newFlight q d late false false := congrArg (s.newFlight q d late · false) (hquiet hearly)
      exact (dispatchDesc_of_notReady hearly hsig hready).trans
        (congrArg (fun g => endCommand q (dSeq d) (notReadyStatus q d s) 0 (joinFlight q g s)) hf.symm)
    · exact (dispatchDesc_of_denied hearly hsig).trans rfl
  · rw [opcodeStatus_eq_two hpf, huser]
    rfl
  · rw [opcodeStatus_eq_two hpf, hadmin]
    rfl

end Sys2Proof.Machine
end
